-- ==== Sys2Proof/Word.lean ====
section
/-! DEFINITION. The words of the model: bytes, and tables of many like things held as plain data. -/

namespace Sys2Proof

/-- One byte of a memory, a message or a structure (R9: byte 0 holds bits [7:0]). -/
abbrev Byte := BitVec 8

/-- A table of many like things: pairs of key and value, keys strictly rising, sparse.
An unlisted key reads as the default that the reader of the table names (its reset value). -/
abbrev Tab (α : Type) := List (Nat × α)

end Sys2Proof
end

