-- ==== Sys2Proof/Records.lean ====
section
/-! DEFINITION. The records that commands carry and that the state holds: message headers, frames, packets, capability and muster records, orders. Field names are the manual's. -/

namespace Sys2Proof

/-- Who issued a request that travels in the fabric (R270, R284). -/
inductive Agent where
  | site (n : Nat)
  | wright (w : Nat)
  | bearing (b : Nat)
  | porter (port j : Nat)
  | hawser (hub tag : Nat)
  | placement (port : Nat)
  | fetch (id : Nat)
  | keeper (b id : Nat)
  | hub
  deriving DecidableEq, Repr

/-- Header of a REQ message of a site (R86). `opspec` is bits [63:48]. -/
structure ReqHdr where
  prio : Nat := 0
  fence : Bool := false
  pa : Bool := false
  tag : Nat := 0
  berth : Nat := 0
  size : Nat := 0
  fmtAsk : Bool := false
  opspec : Nat := 0
  addr : Nat := 0
  deriving DecidableEq, Repr

/-- Six credit counts, the body of INIT and CREDIT (R82, R84). -/
structure Credits where
  reqHdr : Nat := 0
  reqData : Nat := 0
  snpHdr : Nat := 0
  tokHdr : Nat := 0
  tokData : Nat := 0
  hlmHdr : Nat := 0
  deriving DecidableEq, Repr

/-- INIT of a chiplet (R82). `packed` is the five ACCEPT_PACKED bits in the order of R64. -/
structure InitMsg where
  version : Nat := 1
  coh : Bool := false
  token : Bool := false
  helm : Bool := false
  packed : Nat := 0
  grants : Credits := {}
  deriving DecidableEq, Repr

/-- Header of TOK_IN and TOK_OUT (R104). -/
structure TokHdr where
  fmt : Nat := 0
  beats : Nat := 0
  berth : Nat := 0
  expert : Nat := 0
  rank : Nat := 0
  null : Bool := false
  token : Nat := 0
  table : Nat := 0
  deriving DecidableEq, Repr

/-- Header of GATE (R106); `row` is its TOKEN, the row of the combine buffer. -/
structure GateHdr where
  fmt : Nat := 0
  beats : Nat := 0
  berth : Nat := 0
  nlog : Nat := 1
  bf16 : Bool := false
  row : Nat := 0
  table : Nat := 0
  deriving DecidableEq, Repr

/-- The fields of an HLM_OP other than its HOP (R108). -/
structure HlmOp where
  tag : Nat := 0
  berth : Nat := 0
  release : Bool := false
  object : Nat := 0
  value : Nat := 0
  deriving DecidableEq, Repr

/-- Kinds of routed-token packets (R137). -/
inductive PktKind where
  | dispatch | combine | close | bounce
  deriving DecidableEq, Repr

/-- A routed-token packet (R137): header fields and payload. `dst` is the engine of this hub that the TOK
network carries it to, `hub` the hub it goes to; `poison` marks a payload that carries poison (R185). -/
structure Packet where
  kind : PktKind := .dispatch
  fmt : Nat := 0
  beats : Nat := 0
  cause : Nat := 0
  berth : Nat := 0
  expert : Nat := 0
  rank : Nat := 0
  hops : Nat := 0
  token : Nat := 0
  table : Nat := 0
  otable : Nat := 0
  row : Nat := 0
  weight : Nat := 0
  alt : List Nat := []
  payload : List Byte := []
  poison : Bool := false
  dst : Nat := 0
  hub : Nat := 0
  deriving DecidableEq, Repr

/-- The place of a manifest entry: berth, ring 0-3 and ring index (R397). The command rows of R409 name the
started entry whose command they run. -/
structure EntryRef where
  berth : Nat := 0
  ring : Nat := 0
  index : Nat := 0
  deriving DecidableEq, Repr

/-- What the checkers saw while one catalogue operator ran (R209): vectors whose first check mismatched and
were recomputed, and the vector whose recomputation mismatched again; and what the SEC-DED of local memory saw as it read (R185): errors corrected, and the vectors with an uncorrectable one. -/
structure OpEvent where
  engine : Nat := 0
  once : List Nat := []
  twice : Option Nat := none
  corrected : Nat := 0
  upset : List Nat := []
  deriving DecidableEq, Repr

/-- The failed wires of one half of a bundle as a receiver reports them (R59, R60, R63).
`structural` marks a failed clock, valid or track wire. -/
structure HalfFail where
  bundle : Nat := 0
  half : Nat := 0
  wires : List Nat := []
  structural : Bool := false
  deriving DecidableEq, Repr

/-- How a memory transfer outside the site ports ended (R93, R209, R417). -/
inductive XferEnd where
  | ok | unmapped | denied | poisoned | targetDead | hostLinkLost | aborted
  | completionTimeout | unsupportedRequest | completerAbort | pageFault (page : Nat)
  deriving DecidableEq, Repr

/-- A function of a host port: 0 is PF0, v is VF v (R374). -/
structure FuncRef where
  port : Nat := 0
  func : Nat := 0
  deriving DecidableEq, Repr

/-- What the start-up tests and the board tell the hub at a release of HUB_RST_N (R529, R533-R540, R595): straps, the outcome of
each test, what lies at the sites and on the board; `assembly` is what an assembly test run before it has found (R46, R61). Empty lists mean that every unit passed. -/
structure StartEvent where
  strapRecovery : Bool := false
  strapXspi1s : Bool := false
  strapTest : Bool := false
  powerOn : Bool := false
  imageOk : Bool := true
  warrantOk : Bool := true
  credOk : Bool := true
  powerBodyOk : Bool := true
  profileOk : Bool := true
  clamshell : Bool := false
  fillers : List Nat := []
  interconnectBad : List Nat := []
  assembly : List HalfFail := []
  sitePortBad : List Nat := []
  wrightFail : List Nat := []
  bearingFail : List Nat := []
  porterFail : List Nat := []
  holdFail : List Nat := []
  channelFail : List Nat := []
  channelLow : List (Nat × Nat) := []
  channelTemp : List (Nat × Nat) := []
  linkFail : List Nat := []
  fatalUnit : Bool := false
  edgeWalkerFail : Bool := false
  burnPattern : Nat := 0
  refclkHpMissing : List Nat := []
  refclkHwMissing : List Nat := []
  deriving DecidableEq, Repr

/-- Result of a link training on a host port (R371). -/
structure LinkTrain where
  width : Nat := 16
  rate : Nat := 6
  flit : Bool := true
  cxl : Bool := true
  deriving DecidableEq, Repr

/-- Header of a management order (R466) with the outcome of its Ed25519 check left to `sig` (log 12). -/
structure OrderHdr where
  version : Nat := 1
  order : Nat := 0
  serial : Nat := 0
  nonce : Nat := 0
  cred : Nat := 0
  rsvdZero : Bool := true
  bodyLen : Nat := 0
  sig : Nat := 0
  viaEthernet : Bool := true
  deriving DecidableEq, Repr

/-- A muster record (R492). -/
structure Muster where
  version : Nat := 1
  hub : Nat := 0
  port : Nat := 0
  lcState : Nat := 1
  ports : Nat := 0
  view : Nat := 0
  viewCause : Nat := 0
  serial : Nat := 0
  idrev : Nat := 0
  linkMin : Nat := 1
  linkMax : Nat := 1
  peerMin : Nat := 1
  peerMax : Nat := 1
  helmMin : Nat := 1
  helmMax : Nat := 1
  mseq : Nat := 0
  configHash : Nat := 0
  aliasDigest : Nat := 0
  deriving DecidableEq, Repr

/-- One sideband Helm message between hubs (R491). -/
structure HelmMsg where
  hkind : Nat := 0
  dstHub : Nat := 0
  srcHub : Nat := 0
  dstGate : Nat := 0
  srcGate : Nat := 0
  gen : Nat := 0
  cause : Nat := 0
  opPoint : Nat := 7
  deriving DecidableEq, Repr

/-- Header of a body message between hubs (R499) with its payload; `lane` 0 or 1. -/
structure BodyMsg where
  cls : Nat := 0
  mkind : Nat := 0
  dstHub : Nat := 0
  srcHub : Nat := 0
  hops : Nat := 0
  lane : Nat := 0
  imp : Nat := 0
  opcode : Nat := 0
  size : Nat := 0
  prio : Nat := 0
  tag : Nat := 0
  offset : Nat := 0
  opspec : Nat := 0
  status : Nat := 0
  detail : Nat := 0
  payload : List Byte := []
  packet : Packet := {}
  deriving DecidableEq, Repr

/-- The POWER_LIMIT body (R510). -/
structure PowerBody where
  limW : List Nat := [0, 0, 0, 0]
  limWin : List Nat := [1, 1, 1, 1]
  peakW : Nat := 2400
  hubMaxW : Nat := 540
  idleArith : Nat := 2
  idleMem : Nat := 7
  tThrottle : Nat := 100
  droopMv : Nat := 40
  siteW : List Nat := [110, 110, 110, 110, 110, 110, 110, 110, 110, 110, 110, 110, 110, 110, 110, 110]
  rsvdZero : Bool := true
  deriving DecidableEq, Repr

/-- A pool record (R426). Masks are numbers read bit by bit; runs are FIRST and COUNT. -/
structure Pool where
  port : Nat := 0
  berthFirst : Nat := 0
  berthCount : Nat := 0
  sites : Nat := 0
  regroups : Nat := 0
  hold : Nat := 0
  wright : Nat := 0
  regions : Nat := 0
  groups : Nat := 0
  markFirst : Nat := 0
  markCount : Nat := 0
  gateFirst : Nat := 0
  gateCount : Nat := 0
  semFirst : Nat := 0
  semCount : Nat := 0
  recipeFirst : Nat := 0
  recipeCount : Nat := 0
  tableFirst : Nat := 0
  tableCount : Nat := 0
  packFirst : Nat := 0
  packCount : Nat := 0
  deriving DecidableEq, Repr

/-- A warrant (R481); `sigOk` is the outcome of the check of its signature (log 12). -/
structure Warrant where
  version : Nat := 1
  serial : Nat := 0
  id : Nat := 0
  floor : Nat := 0
  sites : Nat := 0
  hawser : Nat := 0
  berthsHigh : Bool := false
  holdScratch : Bool := false
  rsvdZero : Bool := true
  sigOk : Bool := true
  deriving DecidableEq, Repr

/-- One credential slot (R469): public key and role mask. -/
structure Cred where
  key : Nat := 0
  roles : Nat := 0
  deriving DecidableEq, Repr

/-- What a boot-image check finds (R527, R528), as the Purser reads it from the image. -/
structure ImageFacts where
  sigOk : Bool := true
  format : Nat := 1
  version : Nat := 1
  imageLen : Nat := 4096
  revMin : Nat := 0
  revMax : Nat := 0xFFFFFFFF
  rsvdZero : Bool := true
  sections : List (Nat × Nat × Nat) := []
  deriving DecidableEq, Repr

/-- What the monitors give the Binnacle at an evaluation (R511, R516, R519): mean powers of the hub die and of the Hold dies in W over the last millisecond, the hottest sensors, whether clock stretching has covered more than 5% of any 10 ms. -/
structure PowerSample where
  hubW : Nat := 0
  holdW : Nat := 0
  hubTj : Nat := 0
  holdTj : Nat := 0
  stretchOver : Bool := false
  deriving DecidableEq, Repr

/-- A SPDM transport: the DOE mailbox of a host port, or MCTP over I3C (R458). -/
inductive Transport where
  | doe (port : Nat)
  | i3c
  deriving DecidableEq, Repr

/-- An order that a start holds back until its step 12 (R541), with its body. -/
inductive HeldOrder where
  | powerLimit (o : OrderHdr) (body : PowerBody)
  | poolWrite (o : OrderHdr) (pool : Pool)
  | mgrSet (o : OrderHdr) (berths : List (Nat × Nat))
  | lcTransition (o : OrderHdr) (target : Nat) (railsOk : Bool)
  | warrantInstall (o : OrderHdr) (warrant : Warrant)
  | debugOpen (o : OrderHdr) (scope : Nat) (pairs : List (Nat × Nat))
  | debugClose (o : OrderHdr)
  | credSet (o : OrderHdr) (version : Nat) (creds : List Cred)
  | certSet (o : OrderHdr) (chain : List Byte)
  | imageBegin (o : OrderHdr) (imageLen : Nat)
  | imageChunk (o : OrderHdr) (offset : Nat) (data : List Byte)
  | imageCommit (o : OrderHdr) (facts : ImageFacts)
  | unitReplace (o : OrderHdr) (unit inst : Nat) (facts : ImageFacts)
  | logRead (o : OrderHdr) (first count : Nat) (pri : Bool)
  | regWrite (o : OrderHdr) (offset value mask : Nat)
  | reset (o : OrderHdr) (cold discard : Bool)
  | unitOut (o : OrderHdr) (kind unit : Nat)
  | unitIn (o : OrderHdr) (kind unit : Nat) (passed : Bool)
  | recal (o : OrderHdr) (kind unit lane : Nat)
  | deadAgent (o : OrderHdr) (site : Nat)
  | assured (o : OrderHdr) (enable : Bool)
  deriving DecidableEq, Repr

/-- How a guarantee window of one group and resource went (R342): was every sample backlogged. -/
structure WindowEvent where
  group : Nat := 1
  res : Nat := 0
  backlogged : Bool := false
  otLimited : Bool := false
  deriving DecidableEq, Repr

end Sys2Proof
end

