-- ==== Sys2Proof/Syntax.lean ====
section
/-! DEFINITION. The commands of the block: one constructor per row of spec/opcode_table.json, with the row's operands. -/

namespace Sys2Proof

/-- The commands. A row of R409 (a manifest command) names the started entry whose body it runs; a row of R195 names its
Wright engine, whose current step it runs; a message row carries the message's fields; a management order carries
its header and body. -/
inductive Instr where
  /-- VCS_PG_RISE (R38). -/
  | vcsPgRise (n : Nat)
  /-- SITE_RST_N_RELEASE (R38). -/
  | siteRstNRelease (n : Nat)
  /-- VCS_PG_TIMEOUT (R38). -/
  | vcsPgTimeout (n : Nat)
  /-- VCS_PG_FALL (R38). -/
  | vcsPgFall (n : Nat)
  /-- SIDEBAND_UP (R62). -/
  | sidebandUp (n : Nat)
  /-- SIDEBAND_TIMEOUT (R62). -/
  | sidebandTimeout (n : Nat)
  /-- LM_CAP (R66). -/
  | lmCap (n : Nat) (record : Nat)
  /-- BUNDLE_CLOCK_LOCK (R62). -/
  | bundleClockLock (n : Nat)
  /-- WIRE_TEST_DONE (R62). -/
  | wireTestDone (n : Nat) (fails : List HalfFail)
  /-- LM_WIRE_RESULT (R63). -/
  | lmWireResult (n : Nat) (result : HalfFail)
  /-- LM_SPAREMAP_ACK (R63). -/
  | lmSparemapAck (n : Nat) (bundle : Nat) (half : Nat)
  /-- LM_SPAREMAP_ACK_TIMEOUT (R63). -/
  | lmSparemapAckTimeout (n : Nat) (bundle : Nat) (half : Nat)
  /-- DESKEW_DONE (R62). -/
  | deskewDone (n : Nat)
  /-- IDLE_FRAME_TEST_DONE (R67). -/
  | idleFrameTestDone (n : Nat) (bad : List Nat)
  /-- DATA_FRAME (R55). -/
  | dataFrame (n : Nat) (bundle : Nat) (frame : List Byte)
  /-- IDLE_FRAME (R53). -/
  | idleFrame (n : Nat) (bundle : Nat) (frame : List Byte)
  /-- RETRAIN_REQUEST_FRAME (R58). -/
  | retrainRequestFrame (n : Nat) (bundle : Nat) (frame : List Byte)
  /-- ACK_DEADLINE (R56). -/
  | ackDeadline (n : Nat) (bundle : Nat)
  /-- ACK_TIMEOUT (R58). -/
  | ackTimeout (n : Nat) (bundle : Nat) (bseq : Nat)
  /-- LM_RETRAIN_REQ (R58). -/
  | lmRetrainReq (n : Nat) (bundle : Nat) (fromHub : Bool)
  /-- LM_RETRAIN_ACK (R63). -/
  | lmRetrainAck (n : Nat) (bundle : Nat)
  /-- LM_RETRAIN_ACK_TIMEOUT (R63). -/
  | lmRetrainAckTimeout (n : Nat) (bundle : Nat)
  /-- BUNDLE_RETRAIN_DONE (R68). -/
  | bundleRetrainDone (n : Nat) (bundle : Nat) (fails : List HalfFail)
  /-- LM_LIMP_ACK (R63). -/
  | lmLimpAck (n : Nat) (stage : Nat)
  /-- LM_LIMP_ACK_TIMEOUT (R63). -/
  | lmLimpAckTimeout (n : Nat)
  /-- LIMP_RETRAIN_DONE (R70). -/
  | limpRetrainDone (n : Nat) (clean : List Nat)
  /-- INIT (R77). -/
  | initMsg (n : Nat) (msg : InitMsg)
  /-- INIT_TIMEOUT (R77). -/
  | initTimeout (n : Nat)
  /-- ECHO_RSP (R537). -/
  | echoRsp (n : Nat) (data : List Byte)
  /-- ECHO_TIMEOUT (R114). -/
  | echoTimeout (n : Nat)
  /-- CREDIT (R84). -/
  | credit (n : Nat) (credits : Credits)
  /-- RD_NC (R93). -/
  | rdNc (n : Nat) (req : ReqHdr)
  /-- RD_SHARED (R97). -/
  | rdShared (n : Nat) (req : ReqHdr)
  /-- RD_UNIQUE (R97). -/
  | rdUnique (n : Nat) (req : ReqHdr)
  /-- UPGRADE (R97). -/
  | upgrade (n : Nat) (req : ReqHdr)
  /-- WR (R87). -/
  | wr (n : Nat) (req : ReqHdr) (data : List Byte)
  /-- WR_PARTIAL (R88). -/
  | wrPartial (n : Nat) (req : ReqHdr) (data : List Byte)
  /-- ATOMIC (R89). -/
  | atomic (n : Nat) (req : ReqHdr) (data : List Byte)
  /-- REDUCE (R90). -/
  | reduce (n : Nat) (req : ReqHdr) (data : List Byte)
  /-- WB_DIRTY (R97). -/
  | wbDirty (n : Nat) (req : ReqHdr) (data : List Byte)
  /-- EVICT_CLEAN (R97). -/
  | evictClean (n : Nat) (req : ReqHdr)
  /-- CMP (R91). -/
  | cmp (n : Nat) (id : Nat)
  /-- RD_DATA (R92). -/
  | rdData (n : Nat) (id : Nat)
  /-- SNP_RSP (R99). -/
  | snpRsp (n : Nat) (stag : Nat) (final : Nat) (data : Bool) (wbPend : Bool)
  /-- SNP_DATA (R100). -/
  | snpData (n : Nat) (stag : Nat) (dirty : Bool) (data : List Byte)
  /-- SNOOP_TIMEOUT (R101). -/
  | snoopTimeout (n : Nat) (stag : Nat)
  /-- GATE (R106). -/
  | gate (n : Nat) (hdr : GateHdr) (body : List Byte)
  /-- TOK_OUT (R105). -/
  | tokOut (n : Nat) (hdr : TokHdr) (payload : List Byte)
  /-- TOK_CREDIT_WITHHOLD_TIMEOUT (R107). -/
  | tokCreditWithholdTimeout (n : Nat)
  /-- MARK_ADD (R255). -/
  | markAdd (n : Nat) (op : HlmOp)
  /-- MARK_WAIT (R249). -/
  | markWait (n : Nat) (op : HlmOp)
  /-- MARK_READ (R255). -/
  | markRead (n : Nat) (op : HlmOp)
  /-- GATE_ARRIVE (R251). -/
  | gateArrive (n : Nat) (op : HlmOp)
  /-- SEM_ACQUIRE (R254). -/
  | semAcquire (n : Nat) (op : HlmOp)
  /-- SEM_RELEASE (R254). -/
  | semRelease (n : Nat) (op : HlmOp)
  /-- EVENT_WIRE_PULSE (R259). -/
  | eventWirePulse (n : Nat) (wire : Nat)
  /-- OUTBOUND_PULSE (R260). -/
  | outboundPulse (n : Nat) (wire : Nat)
  /-- SB_TELEM (R112). -/
  | sbTelem (n : Nat) (power : Nat) (tj : Nat) (selfLimit : Bool) (seq : Nat)
  /-- TELEMETRY_GAP (R112). -/
  | telemetryGap (n : Nat)
  /-- SITE_POWER_OVER_LIMIT (R112). -/
  | sitePowerOverLimit (n : Nat)
  /-- SB_FAULT (R113). -/
  | sbFault (n : Nat) (severity : Nat) (code : Nat) (detail : Nat)
  /-- SITE_THERM_N_ASSERT (R113). -/
  | siteThermNAssert (n : Nat)
  /-- SITE_THERM_TIMEOUT (R113). -/
  | siteThermTimeout (n : Nat)
  /-- SITE_THERM_N_RELEASE (R113). -/
  | siteThermNRelease (n : Nat)
  /-- SITE_ATTN_N_ASSERT (R113). -/
  | siteAttnNAssert (n : Nat)
  /-- SB_QUIESCE_DONE (R115). -/
  | sbQuiesceDone (n : Nat) (clean : Bool)
  /-- QUIESCE_TIMEOUT (R115). -/
  | quiesceTimeout (n : Nat)
  /-- RECLAIM_DONE (R292). -/
  | reclaimDone (n : Nat)
  /-- GATE_STAGING_RELEASE (R126). -/
  | gateStagingRelease (b : Nat)
  /-- ZERO_ROW_DONE (R128). -/
  | zeroRowDone (b : Nat) (rec : Nat) (outcome : XferEnd)
  /-- DISPATCH (R133). -/
  | dispatch (id : Nat)
  /-- COMBINE (R140). -/
  | combine (id : Nat)
  /-- TALLY_COMBINE_DONE (R140). -/
  | tallyCombineDone (id : Nat) (outcome : XferEnd)
  /-- CLOSE (R138). -/
  | close (id : Nat)
  /-- OUTCOME_RECORD_DONE (R144). -/
  | outcomeRecordDone (b : Nat) (rec : Nat) (outcome : XferEnd)
  /-- BOUNCE (R145). -/
  | bounce (id : Nat)
  /-- REMOTE_TIMEOUT (R146). -/
  | remoteTimeout (b : Nat) (rec : Nat) (rank : Nat)
  /-- DEFER_PASS_END (R133). -/
  | deferPassEnd (b : Nat) (table : Nat)
  /-- BEARING_INSTALL (R122). -/
  | bearingInstall (e : EntryRef)
  /-- BEARING_UPDATE (R124). -/
  | bearingUpdate (e : EntryRef)
  /-- BEARING_AVAIL (R124). -/
  | bearingAvail (e : EntryRef)
  /-- BEARING_FLUSH (R124). -/
  | bearingFlush (e : EntryRef)
  /-- BEARING_REMOVE (R124). -/
  | bearingRemove (e : EntryRef)
  /-- BEARING_REMOVE_DRAINED (R124). -/
  | bearingRemoveDrained (table : Nat)
  /-- BEARING_ROUND (R132). -/
  | bearingRound (e : EntryRef)
  /-- PACK_INSTALL (R157). -/
  | packInstall (e : EntryRef)
  /-- PACK_REMOVE (R159). -/
  | packRemove (e : EntryRef)
  /-- PACK_REMOVE_DRAINED (R159). -/
  | packRemoveDrained (pack : Nat)
  /-- RECIPE_INSTALL (R198). -/
  | recipeInstall (e : EntryRef)
  /-- RECIPE_REMOVE (R191). -/
  | recipeRemove (e : EntryRef)
  /-- RECIPE_REMOVE_DRAINED (R191). -/
  | recipeRemoveDrained (recipe : Nat)
  /-- RECIPE_LAUNCH (R201). -/
  | recipeLaunch (e : EntryRef)
  /-- RECIPE_START (R201). -/
  | recipeStart (w : Nat)
  /-- RECIPE_STOP (R202). -/
  | recipeStop (e : EntryRef)
  /-- RECIPE_STOP_COMPLETE (R202). -/
  | recipeStopComplete (w : Nat)
  /-- STEP_NOP (R196). -/
  | stepNop (w : Nat)
  /-- LOOP (R196). -/
  | loopStep (w : Nat)
  /-- ENDLOOP (R196). -/
  | endloop (w : Nat)
  /-- LOAD (R190). -/
  | loadStep (w : Nat)
  /-- LOAD_DATA_RETURN (R186). -/
  | loadDataReturn (w : Nat) (id : Nat) (outcome : XferEnd)
  /-- STORE (R196). -/
  | storeStep (w : Nat)
  /-- WAIT (R197). -/
  | waitStep (w : Nat)
  /-- WAIT_SATISFIED (R197). -/
  | waitSatisfied (w : Nat)
  /-- SIGNAL (R197). -/
  | signalStep (w : Nat)
  /-- FENCE (R189). -/
  | fenceStep (w : Nat)
  /-- INBOX (R206). -/
  | inbox (w : Nat)
  /-- INBOX_TOKEN_PRESENT (R206). -/
  | inboxTokenPresent (w : Nat)
  /-- ANSWER (R207). -/
  | answer (w : Nat)
  /-- HALT (R196). -/
  | halt (w : Nat)
  /-- SERVE_STALL_TIMEOUT (R204). -/
  | serveStallTimeout (w : Nat)
  /-- ADD (R221). -/
  | add (ev : OpEvent)
  /-- SUB (R221). -/
  | sub (ev : OpEvent)
  /-- MUL (R221). -/
  | mul (ev : OpEvent)
  /-- FMA (R221). -/
  | fma (ev : OpEvent)
  /-- DIV (R221). -/
  | div (ev : OpEvent)
  /-- MAX (R221). -/
  | max (ev : OpEvent)
  /-- MIN (R221). -/
  | min (ev : OpEvent)
  /-- ABS (R221). -/
  | abs (ev : OpEvent)
  /-- NEG (R221). -/
  | neg (ev : OpEvent)
  /-- SCALE (R221). -/
  | scale (ev : OpEvent)
  /-- CLAMP (R221). -/
  | clamp (ev : OpEvent)
  /-- CMP_OP (R222). -/
  | cmpOp (ev : OpEvent)
  /-- SEL (R222). -/
  | sel (ev : OpEvent)
  /-- BITOP (R222). -/
  | bitop (ev : OpEvent)
  /-- SHIFT (R222). -/
  | shift (ev : OpEvent)
  /-- FILL (R222). -/
  | fill (ev : OpEvent)
  /-- EXP (R223). -/
  | exp (ev : OpEvent)
  /-- EXP2 (R223). -/
  | exp2 (ev : OpEvent)
  /-- LOG (R223). -/
  | log (ev : OpEvent)
  /-- RECIP (R223). -/
  | recip (ev : OpEvent)
  /-- SQRT (R223). -/
  | sqrt (ev : OpEvent)
  /-- RSQRT (R223). -/
  | rsqrt (ev : OpEvent)
  /-- TANH (R223). -/
  | tanh (ev : OpEvent)
  /-- SIGMOID (R223). -/
  | sigmoid (ev : OpEvent)
  /-- GELU (R223). -/
  | gelu (ev : OpEvent)
  /-- SILU (R223). -/
  | silu (ev : OpEvent)
  /-- RSUM (R226). -/
  | rsum (ev : OpEvent)
  /-- RSUMSQ (R226). -/
  | rsumsq (ev : OpEvent)
  /-- RMAX (R226). -/
  | rmax (ev : OpEvent)
  /-- RMIN (R226). -/
  | rmin (ev : OpEvent)
  /-- RAMAX (R226). -/
  | ramax (ev : OpEvent)
  /-- RDOT (R226). -/
  | rdot (ev : OpEvent)
  /-- SOFTMAX (R227). -/
  | softmax (ev : OpEvent)
  /-- RMSNORM (R228). -/
  | rmsnorm (ev : OpEvent)
  /-- LAYERNORM (R228). -/
  | layernorm (ev : OpEvent)
  /-- ROPE (R229). -/
  | rope (ev : OpEvent)
  /-- CVT (R230). -/
  | cvt (ev : OpEvent)
  /-- QUANT (R231). -/
  | quant (ev : OpEvent)
  /-- DEQUANT (R232). -/
  | dequant (ev : OpEvent)
  /-- REQUANT (R232). -/
  | requant (ev : OpEvent)
  /-- NZMASK (R233). -/
  | nzmask (ev : OpEvent)
  /-- GATHER (R234). -/
  | gather (ev : OpEvent)
  /-- SCATTER (R235). -/
  | scatter (ev : OpEvent)
  /-- SCATTER_ADD (R235). -/
  | scatterAdd (ev : OpEvent)
  /-- COMPACT (R236). -/
  | compact (ev : OpEvent)
  /-- TOPK (R237). -/
  | topk (ev : OpEvent)
  /-- ARGMAX (R238). -/
  | argmax (ev : OpEvent)
  /-- MATVEC (R239). -/
  | matvec (ev : OpEvent)
  /-- VECMAT (R239). -/
  | vecmat (ev : OpEvent)
  /-- GATE_OPERATOR (R241). -/
  | gateOperator (ev : OpEvent)
  /-- GATE_TIMEOUT (R253). -/
  | gateTimeout (gate : Nat)
  /-- HELM_CONFIG (R247). -/
  | helmConfig (e : EntryRef)
  /-- HELM_BIND (R259). -/
  | helmBind (e : EntryRef)
  /-- HELM_READ (R412). -/
  | helmRead (e : EntryRef)
  /-- FABRIC_FLIT (R280). `quality` is 0 clean, 1 a corrected bit, 2 uncorrectable. -/
  | fabricFlit (link : Nat) (dir : Nat) (vn : Nat) (quality : Nat)
  /-- ROUTING_REFORMATION_DONE (R280). -/
  | routingReformationDone
  /-- ARBITER_AGEING (R276). -/
  | arbiterAgeing (vn : Nat) (id : Nat)
  /-- HOME_REQUEST (R287). `err` is what the lookup meets (R295): 0 nothing, 1 an entry that a tag copy still names, 2 + k way k with both tag copies lost. -/
  | homeRequest (id : Nat) (err : Nat)
  /-- GRANT_ACKNOWLEDGEMENT (R286). -/
  | grantAcknowledgement (n : Nat) (line : Nat)
  /-- SNPINV (R293). -/
  | snpinv (port : Nat) (line : Nat)
  /-- SNPDATA (R293). -/
  | snpdata (port : Nat) (line : Nat)
  /-- SNPCUR (R293). -/
  | snpcur (port : Nat) (line : Nat)
  /-- HOST_RESPONSE (R293). -/
  | hostResponse (port : Nat) (line : Nat) (poison : Bool) (data : List Byte)
  /-- HOST_TIMEOUT (R294). -/
  | hostTimeout (port : Nat) (line : Nat)
  /-- CONTROLLER_REQUEST (R314). `err` is what the access meets (R305, R306, R326): 0 nothing, 1 a corrected error, 2 Reed-Solomon beyond correction, 3 an A-class CRC failed twice, 4 a SEC-DED double error, 5 a data CRC retry that succeeds, 6 the fifth data CRC failure. -/
  | controllerRequest (id : Nat) (err : Nat)
  /-- READ_AGEING (R317). -/
  | readAgeing (id : Nat)
  /-- CHANNEL_RETRAIN_DONE (R306). -/
  | channelRetrainDone (channel : Nat) (ok : Bool) (rate : Nat)
  /-- REFRESH (R324). -/
  | refresh (channel : Nat) (group : Nat)
  /-- DEVICE_TEMPERATURE_REPORT (R325). -/
  | deviceTemperatureReport (channel : Nat) (temp : Nat)
  /-- TEMPERATURE_RECOVERY (R325). -/
  | temperatureRecovery (channel : Nat)
  /-- RELOAD_COMPLETE (R330). -/
  | reloadComplete (block : Nat)
  /-- RELOAD_TIMEOUT (R330). -/
  | reloadTimeout (block : Nat)
  /-- HOLD_DIE_FAILURE (R302). -/
  | holdDieFailure (die : Nat)
  /-- CHANNEL_FAILURE (R601). -/
  | channelFailure (channel : Nat)
  /-- SCRATCH_ZEROING_DONE (R303). -/
  | scratchZeroingDone (part : Nat)
  /-- HOLD_PURGE (R304). -/
  | holdPurge (e : EntryRef)
  /-- HOLD_PURGE_DONE (R304). -/
  | holdPurgeDone (part : Option Nat) (berth : Nat)
  /-- REGION_ZEROING_DONE (R575). -/
  | regionZeroingDone (region : Nat)
  /-- GUARANTEE_SET (R336). -/
  | guaranteeSet (e : EntryRef)
  /-- REGULATION_WINDOW_END (R342). -/
  | regulationWindowEnd (ev : WindowEvent)
  /-- WALK_COMPLETE (R353). -/
  | walkComplete (unit : Nat) (berth : Nat) (dva : Nat)
  /-- CHART_ROOT (R348). -/
  | chartRoot (e : EntryRef)
  /-- CHART_INVAL (R364). -/
  | chartInval (e : EntryRef)
  /-- INVALIDATION_COMPLETE (R366). -/
  | invalidationComplete (id : Nat)
  /-- FLIP (R355). -/
  | flip (e : EntryRef)
  /-- MIGRATE (R363). -/
  | migrate (e : EntryRef)
  /-- WINDOW_SET (R358). -/
  | windowSet (e : EntryRef)
  /-- WINDOW_IMPORT (R359). -/
  | windowImport (e : EntryRef)
  /-- TRANSLATION_COMPLETION (R356). -/
  | translationCompletion (port : Nat) (porter : Nat) (granted : Bool) (hpa : Nat) (log2Size : Nat)
  /-- PRG_RESPONSE (R357). -/
  | prgResponse (port : Nat) (porter : Nat) (code : Nat)
  /-- PRI_TIMEOUT (R357). -/
  | priTimeout (port : Nat) (porter : Nat)
  /-- ATS_INVALIDATE_REQUEST (R366). -/
  | atsInvalidateRequest (f : FuncRef) (addr : Nat) (len : Nat)
  /-- HOT_EPOCH_END (R361). -/
  | hotEpochEnd
  /-- PERST_N_RELEASE (R371). -/
  | perstNRelease (port : Nat)
  /-- LINK_TRAINING_DONE (R371). -/
  | linkTrainingDone (port : Nat) (result : LinkTrain)
  /-- LINK_TRAINING_TIMEOUT (R371). -/
  | linkTrainingTimeout (port : Nat)
  /-- CONFIG_READY (R372). -/
  | configReady (port : Nat)
  /-- BELL (R403). -/
  | bell (f : FuncRef) (page : Nat) (ring : Nat) (value : Nat)
  /-- RING_ENABLE (R398). -/
  | ringEnable (f : FuncRef) (page : Nat) (ring : Nat) (value : Nat)
  /-- RING_DISABLE (R422). -/
  | ringDisable (f : FuncRef) (page : Nat) (ring : Nat)
  /-- MANIFEST_FETCH (R401). -/
  | manifestFetch (berth : Nat) (ring : Nat) (outcome : XferEnd)
  /-- STALE_REREAD (R404). -/
  | staleReread (berth : Nat) (ring : Nat)
  /-- ENTRY_START (R401). -/
  | entryStart (berth : Nat) (ring : Nat)
  /-- NOP (R409). -/
  | nop (e : EntryRef)
  /-- COPY (R415). -/
  | copy (e : EntryRef)
  /-- COPY_DONE (R417). -/
  | copyDone (port : Nat) (porter : Nat) (outcome : XferEnd) (bytesDone : Nat)
  /-- PX2_DESCRIPTOR (R419). -/
  | px2Descriptor (berth : Nat) (ring : Nat)
  /-- COMPLETION_TIMEOUT (R387). -/
  | completionTimeout (port : Nat) (porter : Nat) (bytesDone : Nat)
  /-- PLACEMENT_WRITE (R378). -/
  | placementWrite (port : Nat) (rid : Nat) (offset : Nat) (data : List Byte) (relaxed : Bool)
  /-- BME_CLEAR (R388). -/
  | bmeClear (f : FuncRef)
  /-- BME_SET (R388). -/
  | bmeSet (f : FuncRef)
  /-- FLR (R389). -/
  | flr (f : FuncRef)
  /-- FLR_COMPLETE (R389). -/
  | flrComplete (f : FuncRef)
  /-- PF0_FLR (R390). -/
  | pf0Flr (port : Nat)
  /-- CXL_RESET (R390). -/
  | cxlReset (port : Nat)
  /-- D3HOT_ENTRY (R385). -/
  | d3hotEntry (f : FuncRef)
  /-- D0_RETURN (R385). -/
  | d0Return (f : FuncRef)
  /-- LINK_RETRAIN_START (R391). -/
  | linkRetrainStart (port : Nat)
  /-- LINK_RETRAIN_END (R391). -/
  | linkRetrainEnd (port : Nat) (result : Option LinkTrain)
  /-- LINK_DOWN (R392). -/
  | linkDown (port : Nat)
  /-- HOT_RESET (R392). -/
  | hotReset (port : Nat)
  /-- PERST_N_ASSERT (R392). -/
  | perstNAssert (port : Nat)
  /-- L0S_ENTRY (R384). -/
  | l0sEntry (port : Nat) (dir : Nat)
  /-- L0P_ENTRY (R384). -/
  | l0pEntry (port : Nat) (width : Nat)
  /-- L1_ENTRY (R384). -/
  | l1Entry (port : Nat)
  /-- L1_EXIT (R384). -/
  | l1Exit (port : Nat)
  /-- MSIX_UNMASK (R383). -/
  | msixUnmask (f : FuncRef) (vector : Option Nat)
  /-- IDE_KM (R393). -/
  | ideKm (port : Nat) (stream : Nat) (session : Nat)
  /-- IDE_INTEGRITY_FAILURE (R393). -/
  | ideIntegrityFailure (port : Nat) (stream : Nat)
  /-- LOCK_INTERFACE (R394). -/
  | lockInterface (f : FuncRef) (stream : Nat)
  /-- STOP_INTERFACE (R394). -/
  | stopInterface (f : FuncRef)
  /-- BERTH_OPEN (R431). -/
  | berthOpen (e : EntryRef)
  /-- BERTH_CLOSE (R438). -/
  | berthClose (e : EntryRef)
  /-- BERTH_BIND (R432). -/
  | berthBind (e : EntryRef)
  /-- GRANT (R433). -/
  | grant (e : EntryRef)
  /-- KEY_NEW (R440). -/
  | keyNew (e : EntryRef)
  /-- KEY_RETIRE (R442). -/
  | keyRetire (e : EntryRef)
  /-- REKEY (R441). -/
  | rekey (e : EntryRef)
  /-- OWNER_SET (R437). -/
  | ownerSet (e : EntryRef)
  /-- GROUP_SET (R315). -/
  | groupSet (e : EntryRef)
  /-- ORIGIN_REGISTER (R329). -/
  | originRegister (e : EntryRef)
  /-- PLACE_SET (R377). -/
  | placeSet (e : EntryRef)
  /-- SCRUB (R413). -/
  | scrub (e : EntryRef)
  /-- SCRUB_BURST (R444). -/
  | scrubBurst (job : Nat) (channel : Nat)
  /-- RELOAD (R413). -/
  | reload (e : EntryRef)
  /-- VIEW_START (R449). -/
  | viewStart (berth : Nat)
  /-- VIEW_STOP (R449). -/
  | viewStop (berth : Nat)
  /-- VIEW_WINDOW_END (R449). -/
  | viewWindowEnd (watts : Nat)
  /-- SITE_OUT (R554). -/
  | siteOut (e : EntryRef)
  /-- SITE_IN (R554). `test` is what the interconnect test finds (R533): 0 nothing, 1 a sideband fault, 2 no TDO activity. -/
  | siteIn (e : EntryRef) (test : Nat)
  /-- WRIGHT_OUT (R554). -/
  | wrightOut (e : EntryRef)
  /-- DRAIN_TIMEOUT (R203). -/
  | drainTimeout (w : Nat)
  /-- WRIGHT_IN (R554). -/
  | wrightIn (e : EntryRef) (passed : Bool)
  /-- SITE_RECAL (R554). -/
  | siteRecal (e : EntryRef)
  /-- GET_VERSION (R458). -/
  | getVersion (t : Transport)
  /-- GET_CAPABILITIES (R458). -/
  | getCapabilities (t : Transport)
  /-- NEGOTIATE_ALGORITHMS (R458). -/
  | negotiateAlgorithms (t : Transport) (offersOurs : Bool)
  /-- GET_DIGESTS (R458). -/
  | getDigests (t : Transport)
  /-- GET_CERTIFICATE (R457). -/
  | getCertificate (t : Transport) (slot : Nat) (offset : Nat) (length : Nat)
  /-- CHALLENGE (R458). -/
  | challenge (t : Transport) (slot : Nat) (nonce : Nat)
  /-- GET_MEASUREMENTS (R459). -/
  | getMeasurements (t : Transport) (index : Nat) (nonce : Nat) (signed : Bool)
  /-- KEY_EXCHANGE (R458). -/
  | keyExchange (t : Transport) (dhe : Nat)
  /-- FINISH (R458). -/
  | finish (t : Transport) (session : Nat) (verified : Bool)
  /-- HEARTBEAT (R458). -/
  | heartbeat (t : Transport) (session : Nat)
  /-- KEY_UPDATE (R458). -/
  | keyUpdate (t : Transport) (session : Nat)
  /-- END_SESSION (R458). -/
  | endSession (t : Transport) (session : Nat)
  /-- BERTH_QUOTE (R461). -/
  | berthQuote (t : Transport) (berth : Nat) (nonce : Nat)
  /-- GET_NONCE (R467). -/
  | getNonce (viaEthernet : Bool)
  /-- GET_IDENTITY (R468). -/
  | getIdentity (viaEthernet : Bool)
  /-- POWER_LIMIT (R510). -/
  | powerLimit (o : OrderHdr) (body : PowerBody)
  /-- POOL_WRITE (R426). -/
  | poolWrite (o : OrderHdr) (pool : Pool)
  /-- MGR_SET (R425). -/
  | mgrSet (o : OrderHdr) (berths : List (Nat × Nat))
  /-- LC_TRANSITION (R474). -/
  | lcTransition (o : OrderHdr) (target : Nat) (railsOk : Bool)
  /-- LC_BURN_DONE (R474). -/
  | lcBurnDone (readBack : Nat)
  /-- WARRANT_INSTALL (R482). -/
  | warrantInstall (o : OrderHdr) (warrant : Warrant)
  /-- DEBUG_OPEN (R479). -/
  | debugOpen (o : OrderHdr) (scope : Nat) (pairs : List (Nat × Nat))
  /-- DEBUG_CLOSE (R477). -/
  | debugClose (o : OrderHdr)
  /-- CRED_SET (R469). -/
  | credSet (o : OrderHdr) (version : Nat) (creds : List Cred)
  /-- CERT_SET (R457). -/
  | certSet (o : OrderHdr) (chain : List Byte)
  /-- IMAGE_BEGIN (R556). -/
  | imageBegin (o : OrderHdr) (imageLen : Nat)
  /-- IMAGE_CHUNK (R556). -/
  | imageChunk (o : OrderHdr) (offset : Nat) (data : List Byte)
  /-- IMAGE_COMMIT (R556). -/
  | imageCommit (o : OrderHdr) (write : Bool) (run : Bool) (facts : ImageFacts)
  /-- UNIT_REPLACE (R559). -/
  | unitReplace (o : OrderHdr) (unit : Nat) (inst : Nat) (facts : ImageFacts)
  /-- LOG_READ (R555). -/
  | logRead (o : OrderHdr) (first : Nat) (count : Nat) (pri : Bool)
  /-- REG_WRITE (R563). -/
  | regWrite (o : OrderHdr) (offset : Nat) (value : Nat) (mask : Nat)
  /-- RESET (R555). -/
  | resetOrder (o : OrderHdr) (cold : Bool) (discard : Bool)
  /-- UNIT_OUT (R557). -/
  | unitOut (o : OrderHdr) (kind : Nat) (unit : Nat)
  /-- UNIT_IN (R557). -/
  | unitIn (o : OrderHdr) (kind : Nat) (unit : Nat) (passed : Bool)
  /-- RECAL (R558). -/
  | recal (o : OrderHdr) (kind : Nat) (unit : Nat) (lane : Nat)
  /-- DEAD_AGENT (R555). -/
  | deadAgent (o : OrderHdr) (site : Nat)
  /-- ASSURED (R544). -/
  | assured (o : OrderHdr) (enable : Bool)
  /-- HWS_ID_WRITE (R602). -/
  | hwsIdWrite (o : OrderHdr) (value : Nat)
  /-- HWS_SYS_WRITE (R492). -/
  | hwsSysWrite (o : OrderHdr) (index : Nat) (value : Nat) (mask : Nat)
  /-- BWR_CFG_WINDOW_WRITE (R576). -/
  | bwrCfgWindowWrite (o : OrderHdr) (window : Nat)
  /-- BWR_BERTH_WRITE (R434). -/
  | bwrBerthWrite (src : Option Nat) (berth : Nat) (group : Nat)
  /-- MEM_REGION_CLASS_WRITE (R575). -/
  | memRegionClassWrite (src : Option Nat) (region : Nat) (cls : Nat)
  /-- HOLD_PART_WRITE (R300). -/
  | holdPartWrite (src : Option Nat) (part : Nat) (mode : Nat) (holder : Nat)
  /-- LOG_ENABLE (R549). -/
  | logEnable (port : Nat) (value : Nat)
  /-- PRI_CLEAR (R549). -/
  | priClear (port : Nat)
  /-- LOG_HEAD_WRITE (R550). -/
  | logHeadWrite (port : Option Nat) (head : Nat)
  /-- CHART_HOT_ENABLE (R571). -/
  | chartHotEnable (port : Nat) (value : Nat)
  /-- BOOT_CTL_GO (R530). -/
  | bootCtlGo (port : Nat) (value : Nat)
  /-- RECOVERY_IMAGE_FETCHED (R530). -/
  | recoveryImageFetched (port : Option Nat) (outcome : XferEnd) (facts : ImageFacts) (flashOk : Bool)
  /-- REGISTER_WRITE (R565). -/
  | registerWrite (src : Option FuncRef) (offset : Nat) (width : Nat) (value : Nat)
  /-- HAWSER_FRAME (R489). -/
  | hawserFrame (port : Nat) (frame : List Byte) (corrected : Nat) (fecOk : Bool)
  /-- HAWSER_TRAINING_DONE (R490). -/
  | hawserTrainingDone (port : Nat) (passing : List Nat)
  /-- HAWSER_LANE_LOSS (R504). -/
  | hawserLaneLoss (port : Nat) (lane : Nat)
  /-- HAWSER_TRAINING_RETRY (R504). -/
  | hawserTrainingRetry (port : Nat)
  /-- MUSTER_RECORD (R494). -/
  | musterRecord (port : Nat) (m : Muster)
  /-- MUSTER_PERIODIC (R492). -/
  | musterPeriodic (port : Nat)
  /-- WINDOW_REQUEST (R360). -/
  | windowRequest (port : Nat) (m : BodyMsg)
  /-- WINDOW_ANSWER (R501). -/
  | windowAnswer (port : Nat) (m : BodyMsg)
  /-- REQ_TIMEOUT (R501). -/
  | reqTimeout (tag : Nat)
  /-- ROUTED_TOKEN_PACKET (R502). -/
  | routedTokenPacket (port : Nat) (m : BodyMsg)
  /-- UNREACH (R500). -/
  | unreach (port : Nat) (hub : Nat) (dest : Nat)
  /-- UNREACH_HOLD_EXPIRY (R500). -/
  | unreachHoldExpiry (hub : Nat)
  /-- STALL_LIMIT_EXPIRY (R498). -/
  | stallLimitExpiry (port : Nat) (m : BodyMsg)
  /-- ARRIVE (R263). -/
  | arriveMsg (port : Nat) (m : HelmMsg)
  /-- RELEASE (R263). -/
  | releaseMsg (port : Nat) (m : HelmMsg)
  /-- BREAK (R265). -/
  | breakMsg (port : Nat) (m : HelmMsg)
  /-- REJECT (R265). -/
  | rejectMsg (port : Nat) (m : HelmMsg)
  /-- SLOWED (R266). -/
  | slowedMsg (port : Nat) (m : HelmMsg)
  /-- THROTTLE_EVALUATION (R512). -/
  | throttleEvaluation (sample : PowerSample)
  /-- PEAK_CHECK (R512). -/
  | peakCheck (hubW : Nat) (holdW : Nat)
  /-- OP_CHANGE_DONE (R508). -/
  | opChangeDone (domain : Nat)
  /-- DROOP_DETECT (R516). -/
  | droopDetect
  /-- DROOP_RECOVERY (R516). -/
  | droopRecovery
  /-- AGEING_MEASUREMENT (R517). -/
  | ageingMeasurement (short : List Nat)
  /-- SENSOR_THRESHOLD (R519). -/
  | sensorThreshold (hubTj : Nat) (holdTj : Nat)
  /-- THERMAL_CRITICAL (R519). -/
  | thermalCritical
  /-- HUB_THERMTRIP (R519). -/
  | hubThermtrip
  /-- AVSBUS_FAILURE (R588). -/
  | avsbusFailure
  /-- HUB_RST_N_ASSERT (R591). -/
  | hubRstNAssert
  /-- HUB_RST_N_RELEASE (R529). -/
  | hubRstNRelease (ev : StartEvent)
  /-- START_COMPLETE (R529). -/
  | startComplete
  /-- START_STEP_TIMEOUT (R538). -/
  | startStepTimeout
  /-- PROFILE_WRITE (R532). -/
  | profileWrite
  /-- RAIL_OUT_OF_RANGE (R599). -/
  | railOutOfRange (rail : Nat)
  /-- REFCLK_LOSS (R593). -/
  | refclkLoss (clock : Nat)
  /-- SELF_TEST_SLICE (R545). -/
  | selfTestSlice (w : Nat) (passed : Bool)
  /-- CHECKER_INJECTION (R545). -/
  | checkerInjection (checker : Nat) (flagged : Bool)
  /-- PATROL (R545). -/
  | patrol (corrected : List (Nat × Nat)) (uncorrectable : List Nat)
  /-- CLOCK_CHECK (R546). -/
  | clockCheck (domain : Nat) (deviationOver : Bool)
  /-- WATCHDOG_EXPIRY (R546). -/
  | watchdogExpiry (unit : Nat)
  /-- LM_CAP_TIMEOUT (R66). -/
  | lmCapTimeout (n : Nat)
  /-- STORE_COMPLETE (R189). -/
  | storeComplete (w : Nat) (id : Nat) (outcome : XferEnd)
  /-- RECALL_SCAN_DONE (R436). -/
  | recallScanDone (n : Option Nat) (berth : Nat)
  /-- MIGRATE_COPY_DONE (R363). -/
  | migrateCopyDone (berth : Nat) (dva : Nat) (outcome : XferEnd)
  /-- L0S_EXIT (R384). -/
  | l0sExit (port : Nat) (dir : Nat)
  /-- L0P_EXIT (R384). -/
  | l0pExit (port : Nat)
  /-- START_INTERFACE (R394). -/
  | startInterface (f : FuncRef)
  /-- REFCLK_RETURN (R593). -/
  | refclkReturn (clock : Nat)
  /-- RAIL_BACK_IN_RANGE (R599). -/
  | railBackInRange (rail : Nat)
  /-- UNIT_REPLACE_DONE (R559). -/
  | unitReplaceDone (ok : Bool)
  deriving DecidableEq, Repr

end Sys2Proof
end

