-- ==== Sys2Proof/Config.lean ====
section
/-! DEFINITION. What the manual leaves open: free values, constants with no body, so that no proof can see them; a statement holds whatever they are. -/

namespace Sys2Proof.Config

/-- A fresh free value, by the counter of free values (log 3). -/
opaque freeWord : Nat → Nat

/-- What a byte stored under one key reads as under another, by both key ids and the address (R442, R446; log 13). -/
opaque garble : Nat → Nat → Nat → Byte

/-- The error, in units of the last place, that a special function of R223 or the exp of R129 makes on an operand: which function, the operand (log 14). -/
opaque ulpError : Nat → Nat → Int

/-- Digests, signatures, keys and nonces that the Purser computes: which value, from what inputs (log 12). -/
opaque digest : Nat → List Nat → Nat

/-- Byte i of the n-th block of PRBS31 test data (R537; log 15). -/
opaque prbs : Nat → Nat → Byte

/-- Content of a poisoned line that is read nonetheless: its bytes are undefined (R93, R291; log 3). -/
opaque poisonByte : Nat → Byte

/-- Choice of a kept bundle among those with the fewest NAKs (R70; log 16): which of n equals. -/
opaque keepAmong : Nat → Nat

/-- A byte of board memory as its devices store it: by key id, address and what it decrypts to (R310, R439; log 13). -/
opaque cipher : Nat → Nat → Byte → Byte

/-- Check byte i of a Reed-Solomon codeword of 128 data bytes, whose field and generator R310 does not give (log 150). -/
opaque symbol : List Byte → Nat → Byte

/-- The refresh group of a granule of a channel, the rows that one per-bank refresh covers: a matter of the devices (R324; log 28). -/
opaque refreshGroup : Nat → Nat → Nat

/-- What profiling finds of a refresh group of a channel: 0 to 3 for a bin of 1, 2, 4 or 8 times the base interval (R324; log 28). -/
opaque retention : Nat → Nat → Nat

end Sys2Proof.Config
end

