-- ==== Sys2Proof/Machine/Operands.lean ====
section
/-! DEFINITION. Operand forms: bit fields (R9), byte strings, tables, lists, and the CRC-32 of R54. -/

namespace Sys2Proof.Machine

/-- Bits [hi:lo] of a word (R9). -/
def bits (w hi lo : Nat) : Nat := w / 2 ^ lo % 2 ^ (hi + 1 - lo)

/-- Bit i of a word. -/
def bit (w i : Nat) : Bool := w.testBit i

/-- The word with bits [hi:lo] replaced. -/
def putBits (w hi lo v : Nat) : Nat :=
  w - bits w hi lo * 2 ^ lo + v % 2 ^ (hi + 1 - lo) * 2 ^ lo

/-- A flag as a bit. -/
def b2n (b : Bool) : Nat := if b then 1 else 0

/-- Fields from bit 0 upward, each a width and a value. -/
def pack : List (Nat × Nat) → Nat
  | [] => 0
  | (n, v) :: r => v % 2 ^ n + 2 ^ n * pack r

/-- The set bits of a mask below n, ascending. -/
def ones (m n : Nat) : List Nat := (List.range n).filter fun i => m.testBit i

/-- The mask with the listed bits set. -/
def maskOf (l : List Nat) : Nat := l.foldl (fun m i => m ||| 2 ^ i) 0

/-- n bytes of a value, least significant first (R9). -/
def leBytes : Nat → Nat → List Byte
  | 0, _ => []
  | n + 1, v => BitVec.ofNat 8 v :: leBytes n (v / 256)

/-- The value of a byte string, least significant byte first (R9). -/
def leNat : List Byte → Nat
  | [] => 0
  | b :: r => b.toNat + 256 * leNat r

/-- n bytes of a string from offset o; bytes past its end read zero. -/
def slice (bs : List Byte) (o n : Nat) : List Byte :=
  let part := (bs.drop o).take n
  part ++ List.replicate (n - part.length) 0

/-- The string with the bytes from offset o replaced; it keeps its length. -/
def overlay (bs : List Byte) (o : Nat) (d : List Byte) : List Byte :=
  (bs.take o ++ d ++ bs.drop (o + d.length)).take bs.length

/-- The bits of a byte string as fields of one wide word. -/
def fieldOf (bs : List Byte) (hi lo : Nat) : Nat := bits (leNat bs) hi lo

/-- Consecutive parts of n elements; the last may be shorter. -/
def chunksAux {α : Type} (n : Nat) : Nat → List α → List (List α)
  | 0, _ => []
  | _, [] => []
  | f + 1, l => l.take n :: chunksAux n f (l.drop n)

/-- A list cut into parts of n elements. -/
def chunks {α : Type} (n : Nat) (l : List α) : List (List α) := chunksAux n l.length l

/-- The value of w bits read as two's complement. -/
def signedOf (w v : Nat) : Int :=
  if v % 2 ^ w < 2 ^ (w - 1) then (v % 2 ^ w : Nat) else ((v % 2 ^ w : Nat) : Int) - 2 ^ w

/-- An integer modulo 2^w. -/
def unsignedOf (w : Nat) (i : Int) : Nat := (i % (2 ^ w : Nat)).toNat

/-- Addition that stops at its maximum (R552). -/
def satAdd (top a b : Nat) : Nat := min top (a + b)

/-- Round up to a multiple of n. -/
def ceilDiv (a n : Nat) : Nat := (a + n - 1) / n

/-- Value of a table at a key, or the default. -/
def tget {α : Type} (d : α) : Tab α → Nat → α
  | [], _ => d
  | (k, v) :: r, i => if k = i then v else if k < i then tget d r i else d

/-- Value of a table at a key, if listed. -/
def tfind {α : Type} : Tab α → Nat → Option α
  | [], _ => none
  | (k, v) :: r, i => if k = i then some v else if k < i then tfind r i else none

/-- The table with one key set; keys stay in rising order. -/
def tset {α : Type} : Tab α → Nat → α → Tab α
  | [], i, a => [(i, a)]
  | (k, v) :: r, i, a =>
    if k = i then (i, a) :: r else if k < i then (k, v) :: tset r i a else (i, a) :: (k, v) :: r

/-- The table without one key. -/
def tdel {α : Type} : Tab α → Nat → Tab α
  | [], _ => []
  | (k, v) :: r, i => if k = i then r else (k, v) :: tdel r i

/-- The table with one value changed. -/
def tmod {α : Type} (d : α) (t : Tab α) (i : Nat) (f : α → α) : Tab α := tset t i (f (tget d t i))

/-- A list used as a set: insertion without repeat. -/
def addTo {α : Type} [DecidableEq α] (l : List α) (a : α) : List α := if a ∈ l then l else a :: l

/-- A list used as a set: removal. -/
def rmv {α : Type} [DecidableEq α] (l : List α) (a : α) : List α := l.filter fun b => b ≠ a

/-- The element at an index of a list changed. -/
def lmod {α : Type} (l : List α) (i : Nat) (f : α → α) : List α := l.modify i f

/-- Repetition of an operation over a list, left to right. -/
def each {α σ : Type} (l : List α) (f : α → σ → σ) (s : σ) : σ := l.foldl (fun s a => f a s) s

/-- One bit step of the reflected CRC-32 with polynomial 0xEDB88320. -/
def crcBit (c : Nat) : Nat := if c % 2 = 1 then (c / 2) ^^^ 0xEDB88320 else c / 2

/-- One byte step of the CRC-32. -/
def crcByte (c : Nat) (b : Byte) : Nat :=
  crcBit (crcBit (crcBit (crcBit (crcBit (crcBit (crcBit (crcBit (c ^^^ b.toNat))))))))

/-- The CRC-32 register after a byte string; the match brings each step to a number before the next. -/
def crcAll : List Byte → Nat → Nat
  | [], c => c
  | b :: r, c => match crcByte c b with
    | 0 => crcAll r 0
    | n + 1 => crcAll r (n + 1)

/-- The IEEE 802.3 CRC-32 (R54). -/
def crc32 (bs : List Byte) : Nat := crcAll bs 0xFFFFFFFF ^^^ 0xFFFFFFFF

end Sys2Proof.Machine
end

