-- ==== Sys2Proof/Blocks/Out.lean ====
section
/-! DEFINITION. What the hub emits at its boundary: sideband messages, stream frames, pins, interrupts, requests to hosts, messages between hubs, replies. -/

namespace Sys2Proof

/-- Output pins and wires of the hub (R30, R38, R519, R594). -/
inductive Pin where
  | sitePwrEn (n : Nat)
  | siteRstN (n : Nat)
  | sitePg (n : Nat)
  | eventWire (n wire : Nat)
  | thermtripN
  | channelReset (c : Nat)
  deriving DecidableEq, Repr

/-- Device-to-host requests of CXL.cache (R293, R370). -/
inductive D2H where
  | rdCurr | rdShared | rdOwn | itoMWr | wrCur | dirtyEvict
  deriving DecidableEq, Repr

/-- One emission of the hub. Sideband payloads are numbers laid out as R110 and R600 give them. -/
inductive Out where
  | sideband (site code payload : Nat)
  | frame (site bundle : Nat) (bytes : List Byte)
  | pin (p : Pin) (level : Bool)
  | msix (f : FuncRef) (vector : Nat)
  | hostWrite (f : FuncRef) (addr : Nat) (data : List Byte)
  | cacheReq (port : Nat) (req : D2H) (dpa : Nat)
  | cacheData (port dpa : Nat) (data : List Byte)
  | cacheSnoopRsp (port dpa : Nat) (dirty : Bool) (data : List Byte)
  | ats (port porter : Nat) (addr : Nat)
  | pageReq (port porter : Nat) (addr : Nat)
  | atsInvalDone (f : FuncRef)
  | aer (f : FuncRef)
  | hawserFrame (port ftype ackSeq : Nat) (nak : Bool)
  | hawserCredit (port channel units : Nat)
  | unreach (port hub dest : Nat)
  | helm (port : Nat) (kind : Nat) (m : HelmMsg)
  | muster (port : Nat) (m : Muster)
  | body (port : Nat) (m : BodyMsg)
  | spdm (t : Transport) (code : Nat) (fields : List Nat) (data : List Byte)
  | tdiReport (f : FuncRef) (ranges : List Nat) (data : List Byte)
  | order (viaEthernet : Bool) (order status detail : Nat) (data : List Byte)
  | pldm (event : Nat)
  | avs (rail mv : Nat)
  | flash (addr : Nat) (data : List Byte)
  | bootRead (port : Nat) (addr len : Nat)
  deriving DecidableEq, Repr

end Sys2Proof
end

