-- ==== Sys2Proof/Blocks/Memory.lean ====
section
/-! DEFINITION. The state of the fabric and Ledger (09), the Hold, board memory and Tally units (10), regulation (11) and the Chart units (12). -/

namespace Sys2Proof

/-- What a request asks of memory (R81, R284). `read` and `write` are those of Wright engines and Porters, `combine` that of a keeper. -/
inductive ReqKind where
  | rdNc | rdShared | rdUnique | upgrade | wr | wrPartial | atomic | reduce | wbDirty | evictClean
  | read | write | combine
  deriving DecidableEq, Repr

/-- A request in the fabric. `bytes` is its length, `slot` and `gen` its key (R439; slot 4096 + g is that of share group g),
`pack` the descriptor of a dense view, `grant` the coherent state that the home gives with the data (R92). `viaHome` says that a home has handed it on (R277); `done` counts the lines whose homes it has passed, `forwarded` holds the lines whose data was forwarded or came from the host (R288, R293). `queued` is its place in the order of arrival at its memory, once it has passed the check there (R315). -/
structure MemReq where
  agent : Agent := .hub
  kind : ReqKind := .read
  tag : Nat := 0
  berth : Nat := 0
  prio : Nat := 0
  bytes : Nat := 32
  dpa : Nat := 0
  dva : Nat := 0
  slot : Nat := 0
  gen : Nat := 0
  shared : Bool := false
  opspec : Nat := 0
  fmtAsk : Bool := false
  pack : Option Nat := none
  data : List Byte := []
  poison : Bool := false
  atHome : Bool := false
  viaHome : Bool := false
  done : Nat := 0
  grant : Nat := 0
  forwarded : List (Nat × List Byte) := []
  aged : Bool := false
  rank : Nat := 0
  queued : Option Nat := none
  deriving DecidableEq, Repr

/-- An answer on its way to a site port (R91, R92): `read` says RD_DATA, else CMP. `line` is the granted line, `src` the endpoint that sent it (R277). -/
structure Rsp where
  site : Nat := 0
  tag : Nat := 0
  berth : Nat := 0
  read : Bool := false
  status : Nat := 0
  detail : Nat := 0
  grant : Nat := 0
  fmt : Nat := 0
  dpa : Nat := 0
  line : Nat := 0
  data : List Byte := []
  src : Nat × Nat := (0, 0)
  prio : Nat := 0
  deriving DecidableEq, Repr

/-- Data of a snooped owner forwarded to an agent that holds no lines: its access, the line, the 128 bytes (R288). -/
structure Fwd where
  agent : Agent := .hub
  tag : Nat := 0
  line : Nat := 0
  data : List Byte := []
  deriving DecidableEq, Repr

/-- A read by the hub that passes the homes or a window (R189, R278, R284): who reads and under which tag, the device virtual address and the DPA, the parts not yet answered, the worst status of R93 with its DETAIL, and the bytes. -/
structure Fetch where
  owner : Agent := .hub
  tag : Nat := 0
  dva : Nat := 0
  dpa : Nat := 0
  left : Nat := 1
  status : Nat := 0
  detail : Nat := 0
  data : List Byte := []
  deriving DecidableEq, Repr

/-- A site's read of a dense view that its unpacker has begun and whose stored bytes are still on their way (R172): the site, the request's place in its stream, the request, the descriptor. -/
structure Unpack where
  site : Nat := 0
  seq : Nat := 0
  req : ReqHdr := {}
  num : Nat := 0
  deriving DecidableEq, Repr

/-- A piece of an access of a Bearing engine or a Porter that its source has not issued yet (R339, R416): the access, its Chart unit and berth, where the access begins, and what the piece asks. -/
structure SourcePiece where
  agent : Agent := .hub
  tag : Nat := 0
  unit : Nat := 0
  berth : Nat := 0
  start : Nat := 0
  dva : Nat := 0
  len : Nat := 0
  kind : ReqKind := .read
  prio : Nat := 1
  data : List Byte := []
  deriving DecidableEq, Repr

/-- The fabric: messages in flight by id (R276-R279), those served as priority 3 by an arbiter, reads of the hub by id, dense views being read by id, the failures that accesses of engines (agent, tag, status) have met, the pieces that Bearing engines and Porters have not issued yet (R339, R416), links out and their failing flits (R271, R280), the flit that each direction of a link has in its retry buffer and those that a bundle sends first, by network (R280), the routing tables in force, one for each router (R275), from which id on injection is held while they are re-formed, and isolated home slices (R281). -/
structure Fabric where
  nextId : Nat := 0
  reqs : Tab MemReq := []
  rsps : Tab Rsp := []
  toks : Tab Packet := []
  aged : List Nat := []
  fwd : List Fwd := []
  fetches : Tab Fetch := []
  unpacks : Tab Unpack := []
  failed : List (Agent × Nat × Nat) := []
  todo : List SourcePiece := []
  linksOut : List Nat := []
  failRow : Tab Nat := []
  failTimes : Tab (List Nat) := []
  retry : Tab Nat := []
  resend : Tab (List Nat) := []
  tables : List (Tab Nat) := []
  heldFrom : Option Nat := none
  deadSlices : List Nat := []
  deriving DecidableEq, Repr

/-- Home state of a tracked line (R285). -/
inductive HomeState where
  | S | EM | O
  deriving DecidableEq, Repr

/-- A Ledger entry (R283, R285, R293), with the key of its page and whether the page is a shared host page: owner and sharers are sites; `host` is the CXL.cache state held towards the host: 0 none, 1 S, 2 E, 3 M; `born` orders entries by residence (R290). -/
structure LEntry where
  st : HomeState := .S
  owner : Nat := 0
  sharers : List Nat := []
  slot : Nat := 0
  gen : Nat := 0
  shared : Bool := false
  host : Nat := 0
  born : Nat := 0
  deriving DecidableEq, Repr

/-- Why a line's transaction is open (R286-R290): a request, a directory eviction, a recall, a host snoop. -/
inductive TxnWhy where
  | request (req : MemReq)
  | evict
  | recall
  | hostSnoop (port kind : Nat)
  | reclaim
  deriving DecidableEq, Repr

/-- An open transaction of a line: the sites whose answers it awaits, dirty data they have given (`given`: the owner gave the line up with it), the site whose write-back it awaits, the write-back it holds, whether it waits for the host, and the site whose grant acknowledgement it awaits, with the grant placed in its stream or not (R286). `passed`: a write of an engine has passed the home and holds the line until it is done (R189). `alone`: the owner alone was snooped, and `early` its data has gone to the requester before its answer (R288), `acked` that its grant is acknowledged already. `after` are the sites whose copies a reclaim invalidates once the grant is acknowledged (R102, R292). -/
structure Txn where
  why : TxnWhy := .evict
  waiting : List Nat := []
  dirty : Option (List Byte) := none
  given : Bool := false
  wbFrom : Option Nat := none
  wbReq : Option MemReq := none
  hostWait : Bool := false
  ackFrom : Option Nat := none
  placed : Bool := false
  passed : Bool := false
  alone : Bool := false
  early : Bool := false
  acked : Bool := false
  after : List Nat := []
  deriving DecidableEq, Repr

/-- The Ledger: entries, transactions, host snoops under way and waiting requests by line number (R283-R296). `births` numbers entries in the order of their making (R290), `discarded` counts write-backs of sites that own nothing (R287), `hostNext` holds host snoops (line, port, kind) behind one that is open. -/
structure Ledger where
  entries : Tab LEntry := []
  txns : Tab Txn := []
  hostTxns : Tab Txn := []
  waits : Tab (List MemReq) := []
  hostPoison : List Nat := []
  retired : List (Nat × Nat) := []
  reclaiming : List Nat := []
  births : Nat := 0
  discarded : Nat := 0
  hostNext : List (Nat × Nat × Nat) := []
  deriving DecidableEq, Repr

/-- A line held in the Hold cache (R301): granule, partition, allocating berth, key, dirty sectors; `stale` keeps what board memory still holds of a dirty sector, `staleTag` its key tag. -/
structure HoldLine where
  granule : Nat := 0
  part : Nat := 0
  berth : Nat := 0
  slot : Nat := 0
  gen : Nat := 0
  dirty0 : Bool := false
  dirty1 : Bool := false
  stale0 : List Byte := []
  stale1 : List Byte := []
  stalePoison0 : Bool := false
  stalePoison1 : Bool := false
  staleTag : Nat := 0
  deriving DecidableEq, Repr

/-- A Hold partition (R300, R303, R575). -/
structure Part where
  mode : Nat := 0
  holder : Nat := 0
  busy : Bool := false
  nextMode : Nat := 0
  nextHolder : Nat := 0
  deriving DecidableEq, Repr

/-- A board region (R308, R575). `key` is the scrub key of its granules that nothing has been written to since the region was scrubbed whole (R444). -/
structure Region where
  cls : Nat := 1
  busy : Bool := false
  hubArea : Bool := false
  nextCls : Nat := 1
  key : Nat := 0
  deriving DecidableEq, Repr

/-- A board-memory channel (R307, R312, R317, R324, R325, R601): `checks` are the check granules that its cache holds (R311), newest first; `base1` says that every group is refreshed at the base interval; `bins` hold the multiple of each group where it is not what profiling found. -/
structure Channel where
  rate : Nat := 36
  failed : Bool := false
  isolated : Bool := false
  retraining : Bool := false
  draining : Bool := false
  checks : List Nat := []
  base1 : Bool := false
  temp : Nat := 0
  testTemp : Nat := 0
  bins : Tab Nat := []
  deriving DecidableEq, Repr

/-- An origin record (R329). -/
structure Origin where
  group : Nat := 0
  board : Bool := false
  port : Nat := 0
  blocks : Nat := 0
  base : Nat := 0
  origin : Nat := 0
  deriving DecidableEq, Repr

/-- Why blocks are scrubbed (R437, R438, R444, R575): a command with its entry, an owner change, a close. -/
inductive ScrubWhy where
  | command (e : EntryRef)
  | owner (e : EntryRef) (value : Nat)
  | close (berth : Nat)
  deriving DecidableEq, Repr

/-- A running scrub: its runs of blocks (first and count), the granules written so far on each channel, its fresh key (R444), and the blocks, in order, that have their new owner (R437). -/
structure ScrubJob where
  why : ScrubWhy := .close 0
  runs : List (Nat × Nat) := []
  written : Tab Nat := []
  key : Nat := 0
  owned : Nat := 0
  deriving DecidableEq, Repr

/-- A reload of a block (R330): waiting or running, the command that asked for it if any. -/
structure Reload where
  block : Nat := 0
  running : Bool := false
  origin : Origin := {}
  entry : Option EntryRef := none
  deriving DecidableEq, Repr

/-- A KEY_RETIRE that runs (R442): its generation, its entry, and the transfers of engines and Porters that may be under it. -/
structure Retire where
  slot : Nat := 0
  gen : Nat := 0
  entry : EntryRef := {}
  awaited : List (Agent × Nat) := []
  deriving DecidableEq, Repr

/-- Hold, board memory and Tally units. `rate` is MEM_CFG.RATE and `rateRun` the target of this start (R575). Retired Hold rows are pairs of partition and set. `owner` holds the 16-bit entries of R313, `member` the vectors of R314, `tag` the key id under which a granule is stored, `keys` the key id of a slot and generation (R439). -/
structure MemUnits where
  rate : Nat := 36
  rateRun : Nat := 36
  rfshTlimit : Nat := 85
  clamshell : Bool := false
  remapped : List Nat := []
  regions : Tab Region := []
  parts : Tab Part := []
  owner : Tab Nat := []
  member : Tab Nat := []
  origins : List Origin := []
  reloads : List Reload := []
  scrubs : Tab ScrubJob := []
  channels : Tab Channel := []
  diesOut : List Nat := []
  hold : List HoldLine := []
  purging : List Nat := []
  rowsRetired : List (Nat × Nat) := []
  rowErrors : Tab (List Nat) := []
  tag : Tab Nat := []
  keys : Tab Nat := []
  nextKey : Nat := 1
  hubKey : Nat := 0
  retiring : List Retire := []
  nextJob : Nat := 0
  arrivals : Nat := 0
  deriving DecidableEq, Repr

/-- A guarantee record of a group and resource (R336); `port` is that of the manager that set it. -/
structure Guar where
  guar : Nat := 0
  weight : Nat := 1
  mode : Nat := 0
  qshare : Nat := 0
  otMax : Nat := 0
  port : Nat := 0
  deriving DecidableEq, Repr

/-- A resource of regulation (R333, R340, R341). `changedAt` is when the scale last changed: PARTIAL reads 1 for 10 microseconds from then. -/
structure BwrRes where
  dcap : Nat := 0
  scale : Nat := 0x8000
  cause : Nat := 0
  changedAt : Option Nat := none
  deriving DecidableEq, Repr

/-- Bandwidth regulation (11). Tables are keyed by group x 10 + resource, credits by that x 256 + controller, with the time at which each was last settled; `served` counts the reads of a group, by channel x 64 + group, in the present round of the weighted turn (R339). -/
structure Bwr where
  w0 : Nat := 1
  window : Nat := 1000
  tol : Nat := 0
  groups : Tab Nat := []
  recs : Tab Guar := []
  res : Tab BwrRes := []
  credit : Tab Int := []
  creditAt : Tab Nat := []
  served : Tab Nat := []
  charged : Tab Nat := []
  causes : Tab Nat := []
  lastMiss : Tab Bool := []
  missCount : Tab Nat := []
  missIrq : Tab Nat := []
  deriving DecidableEq, Repr

/-- A Chart root (R348). -/
structure Root where
  tableBerth : Nat := 0
  valid : Bool := false
  tkgen : Nat := 0
  l0 : Nat := 0
  deriving DecidableEq, Repr

/-- A cached leaf: unit, berth, page base, log2 of its size, the 128-bit entry and where it lies (R347, R351). -/
structure Tlb where
  unit : Nat := 0
  berth : Nat := 0
  base : Nat := 0
  log2 : Nat := 16
  leaf : Nat := 0
  addr : Nat := 0
  deriving DecidableEq, Repr

/-- A cached non-leaf entry: the level it was read at, the high DVA bits it covers, the table read and the next table (R347, R364). -/
structure WalkEntry where
  unit : Nat := 0
  berth : Nat := 0
  level : Nat := 0
  pfx : Nat := 0
  table : Nat := 0
  next : Nat := 0
  deriving DecidableEq, Repr

/-- What holds a page: a FLIP to a new BIAS, a MIGRATE to a new address, a REKEY into a generation (R355, R363, R441). -/
inductive PageOp where
  | flip (bias : Bool)
  | migrate (dpa : Nat)
  | rekey (gen : Nat)
  deriving DecidableEq, Repr

/-- A page that a FLIP, MIGRATE or REKEY holds: its berth and base, its size, where its leaf lies and the address the leaf names. `phase` 0 waits for the invalidation, 1 for the Ledger's recall, then for the copy. -/
structure PageHold where
  berth : Nat := 0
  dva : Nat := 0
  log2 : Nat := 16
  op : PageOp := .flip false
  entry : EntryRef := {}
  leafAddr : Nat := 0
  pa : Nat := 0
  phase : Nat := 0
  deriving DecidableEq, Repr

/-- An outbound window (R358). -/
structure Window where
  hub : Nat := 0
  imp : Nat := 0
  len : Nat := 0
  deriving DecidableEq, Repr

/-- An import entry (R359). -/
structure Import where
  srcHub : Nat := 0
  anySrc : Bool := false
  wr : Bool := false
  atom : Bool := false
  berth : Nat := 0
  base : Nat := 0
  len : Nat := 0
  deriving DecidableEq, Repr

/-- What happens when an invalidation completes (R348, R355, R358, R363, R364, R366, R438). -/
inductive InvalWhy where
  | command (e : EntryRef)
  | ends (e : EntryRef)
  | page (berth dva : Nat)
  | close (berth : Nat)
  | ats (f : FuncRef)
  deriving DecidableEq, Repr

/-- A running invalidation (R365, R366): the transfers awaited, each an agent and its tag, those of them that were aborted, and the dropped entries under which issued requests still run. -/
structure Inval where
  why : InvalWhy := .close 0
  awaited : List (Agent × Nat) := []
  aborted : List (Agent × Nat) := []
  kept : List Tlb := []
  deriving DecidableEq, Repr

/-- An entry of the hot table (R361): region DVA[56:21] of a berth. -/
structure Hot where
  berth : Nat := 0
  region : Nat := 0
  count : Nat := 0
  cls : Nat := 0
  src : Nat := 0
  pa : Nat := 0
  deriving DecidableEq, Repr

/-- The Chart units (12). `samples` counts accesses per unit for the one-in-64 report of R361. -/
structure Chart where
  roots : Tab Root := []
  tlb : List Tlb := []
  walks : List WalkEntry := []
  pending : List (Nat × Nat × Nat) := []
  holds : List PageHold := []
  windows : Tab Window := []
  imports : Tab Import := []
  hot : List Hot := []
  epoch : Nat := 0
  hotEpoch : Nat := 10
  hotThresh : Nat := 256
  samples : Tab Nat := []
  invals : Tab Inval := []
  nextInval : Nat := 0
  deriving DecidableEq, Repr

end Sys2Proof
end

