-- ==== Sys2Proof/Blocks/Compute.lean ====
section
/-! DEFINITION. The state of the Bearing engines and their tables (04), of the packs (05), and of the Wright engines and recipes (06). -/

namespace Sys2Proof

/-- The header of an installed Bearing table (R120). -/
structure TabHdr where
  berth : Nat := 0
  nexp : Nat := 1
  k : Nat := 1
  score : Nat := 0
  renorm : Bool := false
  useBias : Bool := false
  policy : Nat := 0
  ncDepth : Nat := 0
  zeroRow : Bool := false
  cmode : Nat := 0
  peerIn : Bool := false
  ptype : Nat := 0
  ctype : Nat := 0
  payloadBeats : Nat := 1
  outBeats : Nat := 1
  combineBase : Nat := 0
  rowStride : Nat := 0
  ntok : Nat := 1
  outcomeBase : Nat := 0
  deferBase : Nat := 0
  deferEntries : Nat := 0
  defaultCap : Nat := 1
  doneMark : Nat := 0
  doneEn : Bool := false
  roundGate : Nat := 0
  roundEn : Bool := false
  remoteTimeout : Nat := 0
  deriving DecidableEq, Repr

/-- An expert entry (R121). -/
structure ExpEntry where
  kind : Nat := 0
  site : Nat := 0
  wright : Nat := 0
  hub : Nat := 0
  rtable : Nat := 0
  rexpert : Nat := 0
  cap : Nat := 0
  bias : Nat := 0
  deriving DecidableEq, Repr

/-- A BEARING_UPDATE whose new entries the replicas take one after another (R124): the first expert, the entries, how many replicas have them (those of B0, B1, ... first), its ring entry. -/
structure TabUpdate where
  first : Nat := 0
  experts : List ExpEntry := []
  done : Nat := 0
  entry : EntryRef := {}
  deriving DecidableEq, Repr

/-- An installed table (R123, R124): the experts of its replicas, the update that some of them have already, the experts whose mark is cleared, the entry of a BEARING_REMOVE that runs and the tokens it closed. -/
structure BTable where
  hdr : TabHdr := {}
  experts : List ExpEntry := []
  unavailable : List Nat := []
  upd : Option TabUpdate := none
  removing : Bool := false
  removeEntry : Option EntryRef := none
  aborted : Nat := 0
  deriving DecidableEq, Repr

/-- One rank of an open token (R127, R138, R144). -/
structure Rank where
  expert : Nat := 0xFFF
  hops : Nat := 0
  cause : Option Nat := none
  weight : Nat := 0
  remote : Bool := false
  packet : Packet := {}
  deriving DecidableEq, Repr

/-- Where a token record stands: its row is being zeroed, its ranks are open, its outcome record is being written. -/
inductive RecPhase where
  | zeroing | running | outcome
  deriving DecidableEq, Repr

/-- A token record of an origin engine (R127). -/
structure TokRec where
  table : Nat := 0
  row : Nat := 0
  phase : RecPhase := .running
  ranks : List Rank := []
  deriving DecidableEq, Repr

/-- A GATE in gate staging (R126): the gate, its logits and its payload. `wright` is the engine whose gate operator sent it, `launch` the entry of the recipe launch that it ran. -/
structure Staged where
  hdr : GateHdr := {}
  logits : List Nat := []
  payload : List Byte := []
  poison : Bool := false
  site : Option Nat := none
  wright : Option Nat := none
  launch : EntryRef := {}
  deriving DecidableEq, Repr

/-- An entry of a defer ring (R134, R135): its slot in memory, the token, the parts of its write that are still on their way, whether it was deferred in the place of an unplaced expert's keeper (R118). `lost` says that its write failed and its rank is closed. -/
structure DeferEntry where
  id : Nat := 0
  pos : Nat := 0
  packet : Packet := {}
  left : Nat := 0
  unplaced : Bool := false
  lost : Bool := false
  deriving DecidableEq, Repr

/-- What a keeper keeps of one table (R119, R132-R136): round, admission counts by expert, its defer ring from head to tail and the slot of the tail, how many entries a defer pass has still to read, and the packets that the pass holds. -/
structure Keeper where
  round : Nat := 0
  counts : Tab Nat := []
  ring : List DeferEntry := []
  tail : Nat := 0
  todo : Nat := 0
  passing : Bool := false
  held : List Packet := []
  deriving DecidableEq, Repr

/-- A combine handed to a Tally unit and not yet performed (R140). -/
structure Combining where
  packet : Packet := {}
  origin : Bool := false
  deriving DecidableEq, Repr

/-- One Bearing engine (R119). Records are keyed by record index, keepers by table. -/
structure Bearing where
  out : Bool := false
  recs : Tab TokRec := []
  staging : List Staged := []
  arriving : List Staged := []
  keepers : Tab Keeper := []
  combining : Tab Combining := []
  rejected : Tab Nat := []
  selfTests : Nat := 0
  deriving DecidableEq, Repr

/-- An installed pack descriptor (R156); the fields are kept as its 512-bit word. -/
structure Pack where
  berth : Nat := 0
  word : Nat := 0
  removing : Bool := false
  removeEntry : Option EntryRef := none
  deriving DecidableEq, Repr

/-- A stream descriptor of a recipe (R193). -/
structure Stream where
  space : Nat := 0
  sshift : Nat := 0
  param : Nat := 0
  etype : Nat := 0
  base : Nat := 0
  strides : List Nat := []
  scaleBase : Nat := 0
  deriving DecidableEq, Repr

/-- A step of a recipe (R195). -/
structure Step where
  op : Nat := 0
  ta : Nat := 0
  td : Nat := 0
  mode : Nat := 0
  pred : Nat := 0
  sd : Nat := 0
  sa : Nat := 0
  sb : Nat := 0
  sc : Nat := 0
  pm : Nat := 0
  nv : Nat := 1
  imm : Nat := 0
  deriving DecidableEq, Repr

/-- An installed recipe (R191, R192). -/
structure Recipe where
  berth : Nat := 0
  nparam : Nat := 0
  serve : Bool := false
  streams : List Stream := []
  steps : List Step := []
  removing : Bool := false
  removeEntry : Option EntryRef := none
  deriving DecidableEq, Repr

/-- A launch (R201, R410). -/
structure Launch where
  entry : EntryRef := {}
  berth : Nat := 0
  recipe : Nat := 0
  param : Nat := 0
  startMark : Nat := 0
  startEn : Bool := false
  startThresh : Nat := 0
  doneMark : Nat := 0
  doneEn : Bool := false
  report : Nat := 0
  inboxBase : Nat := 0
  slots : Nat := 1
  slotBytes : Nat := 0
  startMet : Bool := false
  startFailed : Nat := 0
  deriving DecidableEq, Repr

/-- A piece of an access that its memory port has not issued yet (R188): what it asks, whether its part in windows goes with it, its place, and the bytes of a write. -/
structure PortPiece where
  kind : ReqKind := .read
  window : Bool := true
  dva : Nat := 0
  len : Nat := 128
  data : List Byte := []
  deriving DecidableEq, Repr

/-- A LOAD, a GATHER or SCATTER of a device stream, or a STORE in flight at a memory port (R188, R189, R234, R235): its step and the loop indices there, the bytes it spans in device virtual memory, the pieces not issued yet; of a load the type, the array base of an MX stream, the rows with their device position, their local offset and the poison of their index, the vectors of a row, where local data, scales (measured from `org`) and mask go, and the mask bits of a vector; of a store the writes, each with its poison, and the vectors they take. -/
structure Access where
  id : Nat := 0
  store : Bool := false
  step : Nat := 0
  loops : List Nat := []
  dva : Nat := 0
  len : Nat := 0
  todo : List PortPiece := []
  etype : Nat := 0
  arr : Nat := 0
  rows : List (Nat × Nat × Bool) := []
  nv : Nat := 1
  base : Nat := 0
  org : Nat := 0
  scaleAt : Nat := 0
  maskAt : Option Nat := none
  maskLanes : Nat := 0
  mode : Nat := 0
  vecs : List Nat := []
  writes : List (Nat × List Byte × Bool) := []
  packs : List Nat := []
  deriving DecidableEq, Repr

/-- Where a running recipe stands (R196-R202): fetching its next step, waiting on the Helm, waiting for an inbox token, ended but for its STOREs. -/
inductive RunPhase where
  | issue | helm | inbox | ending
  deriving DecidableEq, Repr

/-- The running recipe of an engine. Loops are the open ones, outermost first: the step after the LOOP, the count and the index. -/
structure Run where
  launch : Launch := {}
  recipe : Recipe := {}
  params : List Nat := []
  pc : Nat := 0
  loops : List (Nat × Nat × Nat) := []
  phase : RunPhase := .issue
  waitMet : Option Nat := none
  status : Nat := 0
  endStep : Nat := 0
  endLoops : List Nat := []
  current : Option Packet := none
  currentSlot : Nat := 0
  rejects : Nat := 0
  bounds : Nat := 0
  rejTable : Nat := 0
  rejRow : Nat := 0
  deriving DecidableEq, Repr

/-- One logical Wright engine (R179-R211). `stalled` says that no SERVE recipe has run while tokens waited, `full` that the inbox has stayed full (R204); `stopEntries` are the stops that wait. `mem` is local memory by byte, `poison` and `pend` vectors, `inbox` the tokens by the local address of their slot, `nextAccess` numbers the accesses. -/
structure Wright where
  out : Bool := false
  failed : Bool := false
  draining : Option EntryRef := none
  mem : Tab Byte := []
  poison : List Nat := []
  pend : List Nat := []
  queue : List Launch := []
  run : Option Run := none
  accesses : List Access := []
  nextAccess : Nat := 0
  inbox : Tab Packet := []
  inboxBase : Nat := 0
  slots : Nat := 0
  slotBytes : Nat := 0
  waitingToks : List Packet := []
  stalled : Bool := false
  full : Bool := false
  resident : Option Nat := none
  stopEntries : List EntryRef := []
  deriving DecidableEq, Repr

end Sys2Proof
end

