-- ==== Sys2Proof/Blocks/Control.lean ====
section
/-! DEFINITION. The state of the Purser (16), the Hawser fabric (17), the Binnacle (18), the start (19) and service (20). -/

namespace Sys2Proof

/-- A SPDM session or connection of one transport (R458). -/
structure Spdm where
  versioned : Bool := false
  capable : Bool := false
  negotiated : Bool := false
  sessions : List (Nat × Bool × Nat) := []
  nextSession : Nat := 1
  deriving DecidableEq, Repr

/-- The intent record of a life-cycle transition (R474) and the state of its burn: the order's nonce for the replies, whether the burn has been repeated. -/
structure Intent where
  source : Nat := 0
  target : Nat := 0
  burning : Bool := false
  retried : Bool := false
  nonce : Nat := 0
  deriving DecidableEq, Repr

/-- The Purser (16): the life-cycle code in force and the one in the fuses, order nonces (oldest first), credential slots in force and stored in flash, thermometers, warrants in force and stored, the slot 1 chain, debug, SPDM, measurements of firmware by index, the attestation key of this start. -/
structure Purser where
  lcCode : Nat := 0x000F
  fuseCode : Nat := 0x000F
  intent : Option Intent := none
  nonces : List Nat := []
  creds : List Cred := [{ key := 1, roles := 0xD4 }, { key := 2, roles := 0xFF }, {}, {}, {}, {}, {}, {}]
  credStored : List Cred := [{ key := 1, roles := 0xD4 }, { key := 2, roles := 0xFF }, {}, {}, {}, {}, {}, {}]
  credVersion : Nat := 0
  credTherm : Nat := 0
  warrantTherm : Nat := 0
  warrant : Option Warrant := some { sites := 0xFFFF, hawser := 0xFF, berthsHigh := true, holdScratch := true }
  warrantStored : Option Warrant := some { sites := 0xFFFF, hawser := 0xFF, berthsHigh := true, holdScratch := true }
  powerStored : Option PowerBody := none
  slot1 : List Byte := []
  aliasKey : Nat := 0
  debugOpen : Bool := false
  debugScope : Nat := 0
  debugAtStart : Bool := false
  i3c : Spdm := {}
  doe : Tab Spdm := []
  meas : Tab Nat := []
  serial : Nat := 0
  udsBurnt : Bool := true
  deriving DecidableEq, Repr

/-- A body message that waits for credits of a port: the port and lane it came in on, if it came from another hub (R497, R498). -/
structure HWait where
  inPort : Option (Nat × Nat) := none
  msg : BodyMsg := {}
  deriving DecidableEq, Repr

/-- One Hawser port HP0-HP7 (17, R576): its trained state; frames sent and not acknowledged, items that wait for a frame, body messages that wait for credits; credits in 512-byte units by channel, class x 2 + lane (R497). `training`: it tries to train. -/
structure HPort where
  state : Nat := 0
  cause : Nat := 0
  lanes : Nat := 0
  training : Bool := false
  dateline : Bool := false
  peerSet : Bool := false
  peerHub : Nat := 0
  peerSeen : Nat := 0
  nextFseq : Nat := 0
  expFseq : Nat := 0
  retry : List (Nat × Out) := []
  txWait : List Out := []
  bodyWait : List HWait := []
  nakRow : Nat := 0
  nakSeq : Nat := 0
  txNaks : Nat := 0
  txNakSeq : Nat := 0
  discarding : Bool := false
  failTimes : List Nat := []
  credits : Tab Nat := []
  mseq : Nat := 0
  view : Nat := 0
  viewCause : Nat := 0
  peer : Option Muster := none
  heldOut : Bool := false
  deriving DecidableEq, Repr

/-- A window request of this hub (R501): the request, the window it went through (R358), the message and the port it left on. -/
structure WinOut where
  req : MemReq := {}
  hub : Nat := 0
  msg : BodyMsg := {}
  port : Nat := 0
  deriving DecidableEq, Repr

/-- The Hawser fabric (17). `sys` holds the 2,048 bits of HWS_SYS (R493). Window requests are outstanding by tag, or wait for a tag or for a change of route (R501); `inbound` are requests of other hubs that a held page keeps (R355); `edgeOut`: the edge's Chart walker failed its test (R534). -/
structure Hawser where
  ports : Tab HPort := []
  sys : Nat := 1 + 100 * 2 ^ 112 + 100 * 2 ^ 128 + 10 * 2 ^ 144
  id : Nat := 0
  routes : Tab Nat := []
  unreachable : List Nat := []
  holding : List Nat := []
  outstanding : Tab WinOut := []
  winWait : List WinOut := []
  inbound : List BodyMsg := []
  edgeOut : Bool := false
  deriving DecidableEq, Repr

/-- The Binnacle (18, R510, R515, R521): `hist` holds the package power of each millisecond since the reset, newest first, for A_0 to A_3; `peakOver` is the last peak check, `thermalHold` the thermal rule, `droopOver` the droop rule, `avsLost` that voltage control is lost (R588). -/
structure Bin where
  level : Nat := 0
  arithOp : Nat := 7
  holdOp : Nat := 7
  memOp : Nat := 7
  cause : Nat := 0
  partly : Bool := false
  op7Retired : Bool := false
  pkgW : Nat := 0
  hubW : Nat := 0
  hubTj : Nat := 0
  holdTj : Nat := 0
  energy : Nat := 0
  pkgEnergy : Nat := 0
  body : PowerBody := {}
  stretched : Bool := false
  thermalHold : Bool := false
  critical : Bool := false
  lastChange : Nat := 0
  lastIrq : Option Nat := none
  lastExcess : Option Nat := none
  hist : List Nat := []
  peakOver : Bool := false
  droopOver : Bool := false
  avsLost : Bool := false
  trims : Tab Nat := []
  pendingOp : Tab Nat := []
  deriving DecidableEq, Repr

/-- The profile (R532): wires failed by half, Hold rows retired, groups moved to the base interval, device temperatures of the retention test, the rate at which each channel trained and the target of that training, units failed with their counts of failing cold starts, trims per point. Units are numbered: 0-65 Wright positions, 100 + b Bearing engines, 200 + port x 8 + j Porters, 300-302 Hold dies, 400 + c channels. -/
structure Profile where
  valid : Bool := true
  wires : Tab (List Nat) := []
  holdRows : List (Nat × Nat) := []
  bins : Tab Nat := []
  temps : Tab Nat := []
  rates : Tab Nat := []
  target : Nat := 0
  units : Tab Nat := []
  trims : Tab Nat := []
  op7Retired : Bool := false
  pendingWrite : Bool := false
  deriving DecidableEq, Repr

/-- The fuse maps (R534). -/
structure Fuses where
  wrights : List Nat := []
  wires : Tab (List Nat) := []
  lanes : List Nat := []
  holdRows : List (Nat × Nat) := []
  deriving DecidableEq, Repr

/-- An image transfer (R530, R556). -/
structure Transfer where
  len : Nat := 0
  chunks : Tab (List Byte) := []
  recovery : Bool := false
  deriving DecidableEq, Repr

/-- The start (19): QM_START (R531), the map of Wright engines, the restart; the profile as it stands and the copy of it in flash with the two sequence numbers and the time of the last write (R532); the fuses, the boot image in flash, an image transfer, self refresh, the reset of the hub. `event` is what the tests of this start tell, kept for a recovery that goes on at step 4; `burnt`: it applies a life-cycle burn (R476). `restarted`: the one restart of R538 has been made. Clocks are numbered 0-3 REFCLK_HP, 4-7 REFCLK_HW, 8 REFCLK_CORE. -/
structure Start where
  step : Nat := 0
  state : Nat := 0
  cold : Bool := false
  cause : Nat := 0
  startedAt : Nat := 0
  restarted : Bool := false
  wrightMap : List Nat := []
  profile : Profile := {}
  stored : Profile := {}
  seqA : Nat := 0
  seqB : Nat := 0
  lastWrite : Option Nat := none
  fuses : Fuses := {}
  flashValid : Bool := true
  flashVersion : Nat := 1
  transfer : Option Transfer := none
  fetchPort : Option Nat := none
  resetHeld : Bool := false
  selfRefresh : Bool := true
  event : StartEvent := {}
  burnt : Bool := false
  hubRstN : Bool := false
  coldPending : Bool := true
  deriving DecidableEq, Repr

/-- Service (20, R544, R576): the last order started, the order of a service action that runs on a unit by kind (R560), the firmware unit being replaced with the order's nonce and the release it takes, the units whose replacement was abandoned (R559, R561). -/
structure Svc where
  order : Nat := 0
  partly : Bool := false
  sharedPort : Nat := 0
  assured : Bool := false
  replacing : Option (Nat × Nat) := none
  replaceNonce : Nat := 0
  replaceVersion : Nat := 0
  out : List (Nat × Nat) := []
  action : Option (Nat × Nat) := none
  deriving DecidableEq, Repr

/-- Inputs of the board that the hub watches (R593, R595, R599), and the enabled set of the warrant in force (R483, R568). -/
structure Board where
  thermtripN : Bool := true
  railsBad : List Nat := []
  clocksLost : List Nat := []
  strapRecovery : Bool := false
  strapTest : Bool := false
  sites : Nat := 0xFFFF
  hawser : Nat := 0xFF
  berthsHigh : Bool := true
  holdScratch : Bool := true
  clamshell : Bool := false
  deriving DecidableEq, Repr

end Sys2Proof
end

