-- ==== Sys2Proof/Blocks/Helm.lean ====
section
/-! DEFINITION. The state of the Helm (08). -/

namespace Sys2Proof

/-- A Helm mark (R244). -/
structure Mark where
  value : Nat := 0
  sat : Bool := false
  deriving DecidableEq, Repr

/-- A Helm gate (R244, R247, R263, R268). `remotes` are the hubs and gates whose ARRIVE the generation has counted; `lastRemotes` those of the generation before. -/
structure HGate where
  parties : Nat := 0
  upEn : Bool := false
  upHub : Nat := 0
  upGate : Nat := 0
  acceptRemote : Bool := false
  timeout : Nat := 0
  count : Nat := 0
  next : Nat := 0
  gen : Nat := 0
  broken : Bool := false
  cause : Nat := 0
  sentArrive : Bool := false
  remotes : List (Nat × Nat) := []
  lastRemotes : List (Nat × Nat) := []
  firstAt : Option Nat := none
  localAt : Option Nat := none
  nextAt : Option Nat := none
  nextLocal : Option Nat := none
  lastWait : Nat := 0
  waitSum : Nat := 0
  releases : Nat := 0
  peerSlowed : Bool := false
  slowedHub : Nat := 0
  deriving DecidableEq, Repr

/-- A Helm semaphore (R244, R254); its FIFO is the order of its waiters in `waiters`. -/
structure Sem where
  count : Nat := 0
  max : Nat := 0
  deriving DecidableEq, Repr

/-- Who waits (R255-R258, R260): a site's operation, a Wright engine's WAIT, a launch's start mark, a manifest entry. -/
inductive Party where
  | site (n tag berth : Nat)
  | wright (w : Nat)
  | launch (w : Nat)
  | entry (berth ring index : Nat)
  deriving DecidableEq, Repr

/-- What a waiter waits for: a mark's threshold, a gate's generation, units of a semaphore. -/
inductive WaitFor where
  | mark (m threshold : Nat)
  | gate (g gen : Nat)
  | sem (s units : Nat)
  deriving DecidableEq, Repr

/-- One waiter entry: on chip, or spilled into a slot of the spill area (R262). -/
structure Waiter where
  party : Party := .wright 0
  what : WaitFor := .mark 0 0
  berth : Nat := 0
  slot : Option Nat := none
  deriving DecidableEq, Repr

/-- A spilled waiter that is to be told: its entry is read from the spill area first (R262). `ready` says that the read has come. -/
structure SpillRead where
  id : Nat := 0
  waiter : Waiter := {}
  cause : Nat := 0
  value : Nat := 0
  ready : Bool := false
  deriving DecidableEq, Repr

/-- A binding of an event wire (R259, R260). -/
structure Binding where
  action : Nat := 0
  object : Nat := 0
  berth : Nat := 0
  threshold : Nat := 0
  step : Nat := 0
  owed : Nat := 0
  overrun : Bool := false
  deriving DecidableEq, Repr

/-- An operation held at a Helm port while the Helm's microcode is replaced (R559): an addition, a wait on a mark, an arrival that only counts, a release of units, a message of another hub. -/
inductive HelmOp where
  | add (berth mark value : Nat)
  | wait (party : Party) (berth mark threshold : Nat)
  | arrive (berth gate : Nat)
  | release (berth sem units : Nat)
  | msg (kind : Nat) (m : HelmMsg)
  deriving DecidableEq, Repr

/-- The Helm. `reading` are spilled waiters to be told, in the order in which they waited (R262). Bindings are keyed by site x 64 + direction x 32 + wire. `held` are operations held while Helm microcode is replaced (R559). -/
structure HelmState where
  marks : Tab Mark := []
  gates : Tab HGate := []
  sems : Tab Sem := []
  waiters : List Waiter := []
  reading : List SpillRead := []
  bindings : Tab Binding := []
  held : List HelmOp := []
  deriving DecidableEq, Repr

end Sys2Proof
end

