-- ==== Sys2Proof/Blocks/Host.lean ====
section
/-! DEFINITION. The state of the host ports (13), the rings, manifests and Porters (14) and of tenancy (15). -/

namespace Sys2Proof

/-- A placement record (R377). -/
structure Place where
  rid : Nat := 0
  berth : Nat := 0
  base : Nat := 0
  len : Nat := 0
  flagOff : Nat := 0
  flagEn : Bool := false
  markEn : Bool := false
  mark : Nat := 0
  deriving DecidableEq, Repr

/-- TDI states of TDISP (R394). -/
inductive TdiState where
  | unlocked | locked | run | error
  deriving DecidableEq, Repr

/-- A function of a port: PF0 or a VF (R369, R374, R383-R394). `msix` holds the 8-byte words of the MSI-X table but for the mask bits, `masked` those, `pendingVec` the PBA; `owed` records and interrupts wait under BME, an interrupt of a hub-wide source s as 4096 + s. -/
structure Func where
  bme : Bool := false
  d3hot : Bool := false
  flr : Bool := false
  isr : Nat := 0
  msixEn : Bool := false
  msiCount : Nat := 0
  fmask : Bool := false
  msix : Tab Nat := []
  masked : List Nat := []
  pendingVec : List Nat := []
  owedWrites : List (Nat × List Byte) := []
  owedVecs : List Nat := []
  ats : Bool := false
  pri : Bool := false
  tdi : TdiState := .unlocked
  stream : Nat := 0
  deriving DecidableEq, Repr

/-- A host translation that a Porter holds (R356): function, PASID (0 none, else 1 + PASID), host address of the page, log2 of its size, translated address. -/
structure Atc where
  func : Nat := 0
  pasid : Nat := 0
  addr : Nat := 0
  log2 : Nat := 12
  hpa : Nat := 0
  deriving DecidableEq, Repr

/-- A COPY that a Porter runs or has queued (R415), or a descriptor of a PX2 ring (R418), by a number of its own; `pages` are the translations it has used, `issued` says that its requests have left, `wrote` that the writes of a copy within the device have. -/
structure CopyJob where
  id : Nat := 0
  entry : EntryRef := {}
  px2 : Bool := false
  src : Nat := 0
  dst : Nat := 0
  len : Nat := 0
  dir : Nat := 0
  cookie : Nat := 0
  issued : Bool := false
  wrote : Bool := false
  pages : List Atc := []
  packs : List Nat := []
  deriving DecidableEq, Repr

/-- What a Porter waits for on its host side (R356, R357). -/
inductive PorterWait where
  | none | translation | prg
  deriving DecidableEq, Repr

/-- One Porter: its queue, running first; its ATC, newest first; its wait and the page it is for; whether a start-up or Assured test found it bad (R534, R544). -/
structure Porter where
  queue : List CopyJob := []
  atc : List Atc := []
  wait : PorterWait := .none
  page : Nat := 0
  out : Bool := false
  deriving DecidableEq, Repr

/-- A placement write that is not yet performed (R378, R379): requester, key, whether it may be performed in any order, whether it touches the flag granule and the mark that then counts, its target, and how many of its parts are still to be performed. -/
structure PlaceJob where
  seq : Nat := 0
  rid : Nat := 0
  key : Nat := 0
  relaxed : Bool := false
  flag : Bool := false
  mark : Option Nat := none
  berth : Nat := 0
  slot : Nat := 0
  gen : Nat := 0
  dpa : Nat := 0
  data : List Byte := []
  issued : Bool := false
  left : Nat := 0
  deriving DecidableEq, Repr

/-- A Log ring: a host port's (R549-R551) or the management Log. `pri` holds the priority section, oldest first; `store` the management entries. -/
structure LogRing where
  enable : Bool := false
  base : Nat := 0
  log2 : Nat := 0
  minSev : Nat := 0
  tail : Nat := 0
  head : Nat := 0
  passes : Nat := 0
  lost : Bool := false
  lostCount : Tab Nat := []
  gapCount : Nat := 0
  gapSev : Nat := 0
  seq : Nat := 0
  pri : List Nat := []
  store : Tab Nat := []
  deriving DecidableEq, Repr

/-- CHART_HOT of a port (R571). -/
structure HotRing where
  enable : Bool := false
  log2 : Nat := 0
  overflow : Bool := false
  addr : Nat := 0
  tail : Nat := 0
  head : Nat := 0
  deriving DecidableEq, Repr

/-- One host port P0-P3. `placeLogged` and `regLogged` are when a discarded write of a key, a refused write of a register, was last logged (R378, R565); `state` is that of HPT_STAT (R373); `perstHeld` is a PERST_N that a burn holds off (R484). -/
structure Port where
  state : Nat := 0
  ready : Bool := false
  width : Nat := 0
  rate : Nat := 0
  flit : Bool := false
  cxl : Bool := false
  l0p : Bool := false
  l0s : List Nat := []
  l1 : Bool := false
  perstN : Bool := false
  perstHeld : Bool := false
  configReady : Bool := false
  before : Nat := 0
  l1Idle : Nat := 100
  hostTimeout : Nat := 10
  priTimeout : Nat := 100
  cntIrqEn : Nat := 0
  irq : Tab Nat := []
  isr : Tab Nat := []
  log : LogRing := {}
  hotRing : HotRing := {}
  vfEnable : Bool := false
  funcs : Tab Func := []
  places : Tab Place := []
  placeLogged : Tab Nat := []
  regLogged : Tab Nat := []
  porters : Tab Porter := []
  nextCopy : Nat := 0
  placing : List PlaceJob := []
  nextPlace : Nat := 0
  cxlReset : Bool := false
  halted : Bool := false
  ide : Tab Nat := []
  bootSrc : Nat := 0
  bootResult : Nat := 0
  bootWrite : Bool := false
  katEn : Bool := false
  heldOut : Bool := false
  deriving DecidableEq, Repr

/-- A manifest entry fetched or started: ring index and its 512 bits; `waiting` while its Helm wait is unsatisfied. -/
structure RingEntry where
  index : Nat := 0
  word : Nat := 0
  waiting : Bool := false
  satisfied : Bool := false
  failed : Nat := 0
  progress : Nat := 0
  deriving DecidableEq, Repr

/-- A ring of a berth (R397-R405, R418). `fetched` are entries visible and not started, `started` those started and not completed, `done` indices completed beyond DONE. -/
structure Ring where
  tail : Nat := 0
  base : Nat := 0
  enable : Bool := false
  log2 : Nat := 0
  px2 : Bool := false
  vector : Nat := 0
  cplBase : Nat := 0
  state : Nat := 0
  partly : Bool := false
  cause : Nat := 0
  fetch : Nat := 0
  doneIx : Nat := 0
  ended : Nat := 0
  stale : Nat := 0
  fetchIx : Nat := 0
  pass : Nat := 0
  inFetch : Nat := 0
  rereading : Bool := false
  rereads : Nat := 0
  fetched : List RingEntry := []
  started : List RingEntry := []
  doneSet : List Nat := []
  deriving DecidableEq, Repr

/-- Binding of a berth to a function (R432). -/
structure Bind where
  port : Nat := 0
  func : Nat := 0
  slot : Nat := 0
  pasidEn : Bool := false
  pasid : Nat := 0
  deriving DecidableEq, Repr

/-- The view block of a berth (R447-R450). `counts` are the raw counts of R450 in table order; `shown` what reads show, `ended` the record of a closed job that is not yet written. -/
structure View where
  isOpen : Bool := false
  stopping : Bool := false
  startWin : Nat := 0
  startEnergy : Nat := 0
  concurrent : Nat := 0
  joules : Nat := 0
  conc : Nat := 0
  duration : Nat := 0
  ended : Option (Nat × Nat × Nat) := none
  valid : Bool := false
  counts : Tab Nat := []
  shown : Tab Nat := []
  deriving DecidableEq, Repr

/-- State of a berth (R429). -/
inductive BerthState where
  | free | open | closing
  deriving DecidableEq, Repr

/-- A berth: its life, binding, quotes, consent and view (R429-R451, R462, R478, R509); the entry of an unbind that drains its rings (R432); the step of R438 that a close is at, when its third step began, whether the recall scan is over, and the blocks scrubbed. -/
structure Berth where
  state : BerthState := .free
  bind : Option Bind := none
  openCount : Nat := 0
  debugCount : Nat := 0
  consent : Nat := 0
  hint : Nat := 0xBF
  view : View := {}
  unbind : Option EntryRef := none
  closeStep : Nat := 0
  closeSince : Nat := 0
  scanned : Bool := false
  closeEntry : EntryRef := {}
  scrubbed : Nat := 0
  deriving DecidableEq, Repr

/-- A withdrawal that is running (R428, R435): kind, item, berth, the entry that waits for it or the port whose pool write asked. -/
structure Withdrawal where
  kind : Nat := 0
  item : Nat := 0
  berth : Nat := 0
  entry : Option EntryRef := none
  pool : Option Nat := none
  deriving DecidableEq, Repr

/-- Tenancy (15, R576). Grants of one holder are keyed by kind x 4096 + item and hold the berth; sites are pairs of site and berth. -/
structure Tenancy where
  berths : Tab Berth := []
  rings : Tab Ring := []
  mgr : List Nat := [0, 1, 2, 3]
  mgrNext : List Nat := [0, 1, 2, 3]
  pools : Tab Pool := []
  poolPartial : Nat := 0
  scrubInterval : Nat := 256
  sites : List (Nat × Nat) := []
  held : Tab Nat := []
  withdrawals : List Withdrawal := []
  window : Nat := 0
  windowEnergy : Nat := 0
  watts : Nat := 0
  deriving DecidableEq, Repr

end Sys2Proof
end

