-- ==== Sys2Proof/Blocks/Site.lean ====
section
/-! DEFINITION. The state of one site: its link (02), its protocol port (03) and its power path (01, 03). -/

namespace Sys2Proof

/-- A frame sent and not yet acknowledged (R57). -/
structure TxFrame where
  bseq : Nat := 0
  sseq : Nat := 0
  payload : List Byte := []
  deriving DecidableEq, Repr

/-- One half of a bundle: physical wires failed (R59), structural failure (R60), map acknowledged (R63). -/
structure Half where
  failed : List Nat := []
  structural : Bool := false
  acked : Bool := false
  deriving DecidableEq, Repr

/-- One bundle of a site, 0-7 hub to chiplet, 8-15 chiplet to hub (R29, R53-R58, R68, R73). -/
structure Bundle where
  active : Bool := false
  out : Bool := false
  outCause : Nat := 0
  retraining : Bool := false
  retrainAcked : Bool := false
  mapSent : Bool := false
  deskewed : Bool := false
  nextBseq : Nat := 0
  expBseq : Nat := 0
  discarding : Bool := false
  ackOwed : Bool := false
  retry : List TxFrame := []
  nakRow : Nat := 0
  nakSeq : Nat := 0
  crcTimes : List Nat := []
  retrainTimes : List Nat := []
  nakTimes : List Nat := []
  half0 : Half := {}
  half1 : Half := {}
  deriving DecidableEq, Repr

/-- Where limp entry stands (R70): not in limp, waiting for the answer of a stage, retraining, in limp service. -/
inductive LimpStage where
  | off | ack0 | retrain | ack1 | on
  deriving DecidableEq, Repr

/-- The link of a site (R47-R73): the step of R62, the bundles, the two streams, frames waiting to be sent again (R68), which wire tests have come in at a start (R62), the figures of R69, limp service (R70; `limpDir` 0 and 1 name the direction whose kept bundle is replaced, 2 both; `limpCause` is why). -/
structure Link where
  step : Nat := 0
  bundles : List Bundle := List.replicate 16 {}
  txSseq : Nat := 0
  rxSseq : Nat := 0
  rxHeld : Tab (List Byte) := []
  rxBytes : List Byte := []
  txQueue : List (List Byte) := []
  resend : List TxFrame := []
  wireDone : Bool := false
  wireGot : List Nat := []
  ackTurn : Nat := 0
  txTurn : Nat := 0
  dataTimes : List (Nat × Nat) := []
  limp : LimpStage := .off
  limpTx : Nat := 0
  limpRx : Nat := 0
  limpDir : Nat := 2
  limpCause : Nat := 0
  deriving DecidableEq, Repr

/-- A tagged request of the site that has no answer yet (R93, R96); `seq` is its place in the site's stream. -/
structure OutReq where
  tag : Nat := 0
  berth : Nat := 0
  opcode : Nat := 0
  line : Nat := 0
  seq : Nat := 0
  deriving DecidableEq, Repr

/-- A request received whole and not yet issued to the fabric: it waits on a Chart miss, a FENCE, a flip or move (R86, R94, R355). -/
structure HeldReq where
  seq : Nat := 0
  opcode : Nat := 0
  req : ReqHdr := {}
  data : List Byte := []
  deriving DecidableEq, Repr

/-- A snoop the hub has outstanding at a site (R98), for a home's transaction or for a snoop of the host (R293), with dirty data that has come (R99). -/
structure Snoop where
  line : Nat := 0
  op : Nat := 0
  host : Bool := false
  data : Option (List Byte) := none
  prio : Nat := 1
  aged : Bool := false
  deriving DecidableEq, Repr

/-- A TOK_IN outstanding at a site (R105). -/
structure TokIn where
  hdr : TokHdr := {}
  keeper : Nat := 0
  packet : Packet := {}
  deriving DecidableEq, Repr

/-- A Helm operation of the site that waits for its RELEASE condition or its turn behind one (R108, R255). -/
structure HeldHlm where
  seq : Nat := 0
  hop : Nat := 0
  op : HlmOp := {}
  deriving DecidableEq, Repr

/-- An entry of an index or a block map that an unpacker holds (R175): descriptor, entry number, bytes. -/
structure IxEntry where
  pack : Nat := 0
  entry : Nat := 0
  data : List Byte := []
  deriving DecidableEq, Repr

/-- A granule of a stored form in an unpacker's stream buffer (R175): descriptor, the dense granule that follows the one it was read for, its virtual address, its bytes, and which of its two lines are poisoned. -/
structure StreamLine where
  pack : Nat := 0
  next : Nat := 0
  gran : Nat := 0
  data : List Byte := []
  bad : List Nat := []
  deriving DecidableEq, Repr

/-- The protocol port of a site (R74-R117), with its unpacker's cache of 512 entries and its stream buffer of 64 granules, newest first (R175). -/
structure SPort where
  cap : Nat := 0
  coh : Bool := false
  token : Bool := false
  helm : Bool := false
  packed : Nat := 0
  offerCoh : Bool := true
  offerToken : Bool := true
  offerHelm : Bool := true
  initSent : Bool := false
  initGot : Bool := false
  echoes : List (List Byte) := []
  echoLeft : Nat := 0
  granted : Credits := {}
  toChip : Credits := {}
  fromChip : Credits := {}
  outstanding : List OutReq := []
  held : List HeldReq := []
  reqSeq : Nat := 0
  snoops : Tab Snoop := []
  snpQueue : List Snoop := []
  tokIns : List TokIn := []
  tokQueue : List TokIn := []
  tokWithheld : Bool := false
  hlmHeld : List HeldHlm := []
  ixCache : List IxEntry := []
  stream : List StreamLine := []
  deriving DecidableEq, Repr

/-- Power, telemetry and attention of a site (R38, R110-R115): `vcsPg` is the input VCS_PG, `pgOut` the output SITE_PG. -/
structure SPower where
  pwrEn : Bool := false
  vcsPg : Bool := false
  pgOut : Bool := false
  rstN : Bool := false
  thermN : Bool := true
  attnN : Bool := true
  period : Nat := 1000
  power : Nat := 0
  tj : Nat := 0
  selfLimit : Bool := false
  seq : Nat := 0
  atPmax : Bool := false
  limit : Nat := 880
  limitCause : Nat := 0
  quiescing : Bool := false
  reason : Nat := 0
  thermPending : Bool := false
  deriving DecidableEq, Repr

/-- One site S0-S15. `outEntry`, `inEntry` and `recal` are the entries of SITE_OUT, SITE_IN and SITE_RECAL (with its bundle) that run at it (R554). `state` and `cause` are those of SLINK_STAT (R574); `filler` and `interBad` are what the last interconnect test found (R35, R533), `fuseBad` a site-port unit that has failed a start test (R534). -/
structure Site where
  state : Nat := 0
  cause : Nat := 0
  filler : Bool := false
  fuseBad : Bool := false
  interBad : Bool := false
  link : Link := {}
  port : SPort := {}
  power : SPower := {}
  reclaiming : Bool := false
  recalling : List Nat := []
  restart : Bool := false
  outEntry : Option EntryRef := none
  inEntry : Option EntryRef := none
  recal : Option (EntryRef × Nat) := none
  deadCauses : List Nat := []
  deriving DecidableEq, Repr

end Sys2Proof
end

