-- ==== Sys2Proof/Machine/State.lean ====
section
/-! DEFINITION. The state of the machine: the queue of waiting commands, memory, and the blocks of the hub; the reasons a step could stop; the state after reset. -/

namespace Sys2Proof.Machine

/-- No command of this block stops with a fault: the manual turns every error into an answer, a status, a Log entry or an interrupt (R93, R407, R543). -/
inductive Fault where
  deriving DecidableEq, Repr

/-- Why a command has no meaning. -/
inductive Refusal where
  /-- Raised by an arm of exec that has no meaning yet; safe: nothing is proved of it. -/
  | notModelled (mnemonic : String)
  deriving DecidableEq, Repr

/-- Memory (R298, R291): the listed bytes in rising order of address, none of them 0x00, and the poisoned 128-byte lines, rising. -/
structure Mem where
  cells : List Host.Cell := []
  poison : List Nat := []
  deriving DecidableEq, Repr

/-- One change of memory: bytes written, a line poisoned or cleared of poison, n bytes from an address zeroed with their lines' poison. -/
inductive MemOp where
  | write (addr : Nat) (data : List Byte)
  | poison (line : Nat)
  | clear (line : Nat)
  | wipe (addr n : Nat)
  deriving DecidableEq, Repr

/-- The blocks of the hub: everything the spec gives it but the queue and memory.
`heldOrders` are orders that a start holds back (R541), oldest first; `cnt` holds the counters of R580 by register offset; `sent` what the hub emitted, newest first (log 4); `now` microseconds (log 2); `free` the counter of free values (log 3). -/
structure Hub where
  now : Nat := 0
  free : Nat := 0
  sent : List Out := []
  cnt : Tab Nat := []
  sites : Tab Site := []
  fabric : Fabric := {}
  ledger : Ledger := {}
  memory : MemUnits := {}
  bwr : Bwr := {}
  chart : Chart := {}
  helm : HelmState := {}
  ports : Tab Port := []
  ten : Tenancy := {}
  bearings : Tab Bearing := []
  tables : Tab BTable := []
  packs : Tab Pack := []
  recipes : Tab Recipe := []
  wrights : Tab Wright := []
  purser : Purser := {}
  hawser : Hawser := {}
  bin : Bin := {}
  start : Start := {}
  svc : Svc := {}
  mlog : LogRing := {}
  board : Board := {}
  heldOrders : List HeldOrder := []
  deriving DecidableEq, Repr

/-- The state: commands waiting, first in first out (log 1), memory, and the hub. -/
structure State where
  pending : List Instr := []
  mem : Mem := {}
  hub : Hub := {}
  deriving DecidableEq, Repr

/-- A command at work: memory as it stands, the changes of memory in the order made (newest first), and the hub. -/
structure Work where
  mem : Mem := {}
  writes : List MemOp := []
  hub : Hub := {}
  deriving DecidableEq, Repr

/-- P0's pool at reset holds everything the warrant enables, with berths from 0x004 upward (R426). -/
def poolReset : Pool :=
  { port := 0, berthFirst := 4, berthCount := 4092, sites := 0xFFFF, regroups := 0xFFFFFFFFFFFFFFFE,
    hold := 0xFFFFFFFFFFFF, wright := 2 ^ 64 - 1, regions := 2 ^ 96 - 1, groups := 2 ^ 256 - 1,
    markFirst := 0, markCount := 4096, gateFirst := 0, gateCount := 1024, semFirst := 0, semCount := 512,
    recipeFirst := 0, recipeCount := 1024, tableFirst := 0, tableCount := 256, packFirst := 0, packCount := 4096 }

/-- The machine right after reset: every block at the defaults of its record, the manager berths Open with a fresh key in generation 0 (R425, R439; log 9), P0's pool full. -/
def State.reset : State :=
  { pending := [], mem := {},
    hub := { ten := { berths := [(0, { state := .open }), (1, { state := .open }), (2, { state := .open }), (3, { state := .open })],
                      pools := [(0, poolReset)] },
             memory := { keys := [(0, 1), (2, 2), (4, 3), (6, 4)], nextKey := 6, hubKey := 5 } } }

end Sys2Proof.Machine
end

