-- ==== Sys2Proof/Machine/Flags.lean ====
section
/-! DEFINITION. Status and event flags: memory operations and the canonical form, the counters (R552, R580), the interrupts (R383, R572, R573), the Logs (R547-R551). -/

namespace Sys2Proof.Machine

/-! ## Memory cells -/

/-- What a listed address reads as. -/
def lookupCell : List Host.Cell → Nat → Byte
  | [], _ => 0
  | (k, v) :: r, a => if k = a then v else if k < a then lookupCell r a else 0

/-- Store one byte; a byte 0x00 is not listed (log 5). -/
def storeCell : List Host.Cell → Nat → Byte → List Host.Cell
  | [], a, b => if b = 0 then [] else [(a, b)]
  | (k, v) :: r, a, b =>
    if k = a then (if b = 0 then r else (a, b) :: r)
    else if k < a then (k, v) :: storeCell r a b
    else if b = 0 then (k, v) :: r else (a, b) :: (k, v) :: r

/-- Store bytes at rising addresses. -/
def storeBytes : List Host.Cell → Nat → List Byte → List Host.Cell
  | m, _, [] => m
  | m, a, b :: r => storeBytes (storeCell m a b) (a + 1) r

/-- Insert a line into the rising list of poisoned lines. -/
def insertLine : List Nat → Nat → List Nat
  | [], l => [l]
  | k :: r, l => if k = l then k :: r else if k < l then k :: insertLine r l else l :: k :: r

/-- Remove a line from the rising list of poisoned lines. -/
def removeLine : List Nat → Nat → List Nat
  | [], _ => []
  | k :: r, l => if k = l then r else k :: removeLine r l

/-- A part of a size lies wholly inside n bytes from a. -/
def whole (size a n p : Nat) : Bool := a ≤ p * size && p * size + size ≤ a + n

/-- Apply one change to memory. -/
def Mem.apply (m : Mem) : MemOp → Mem
  | .write a d => { m with cells := storeBytes m.cells a d }
  | .poison l => { m with poison := insertLine m.poison l }
  | .clear l => { m with poison := removeLine m.poison l }
  | .wipe a n => { cells := m.cells.filter fun (k, _) => k < a || a + n ≤ k, poison := m.poison.filter fun l => !whole 128 a n l }

/-- Apply changes, oldest first. -/
def Mem.applyAll (m : Mem) (ops : List MemOp) : Mem := ops.foldl Mem.apply m

/-- One byte of memory. -/
def Mem.byte (m : Mem) (a : Nat) : Byte := lookupCell m.cells a

/-- n bytes of memory. -/
def Mem.bytes (m : Mem) (a n : Nat) : List Byte := (List.range n).map fun i => m.byte (a + i)

/-- A list of cells in rising order of address above a bound, none of them 0x00. -/
def cellsWf : Nat → List Host.Cell → Bool
  | _, [] => true
  | lo, (k, v) :: r => lo ≤ k && v != 0 && cellsWf (k + 1) r

/-- A list of lines in rising order above a bound. -/
def linesWf : Nat → List Nat → Bool
  | _, [] => true
  | lo, k :: r => lo ≤ k && linesWf (k + 1) r

/-- The canonical form of memory. -/
def Mem.wf (m : Mem) : Bool := cellsWf 0 m.cells && linesWf 0 m.poison

/-- The state after a command: the queue kept, the changes applied to memory, the hub as the command left it. -/
def State.commit (s : State) (w : Work) : State :=
  { pending := s.pending, mem := s.mem.applyAll w.writes.reverse, hub := w.hub }

/-- Run a command's effect on a state. -/
def State.run (s : State) (f : Work → Work) : Host.Outcome State Fault Refusal :=
  .next (s.commit (f { mem := s.mem, writes := [], hub := s.hub }))

/-- Make one change of memory. -/
def Work.op (w : Work) (o : MemOp) : Work := { w with mem := w.mem.apply o, writes := o :: w.writes }

/-- Write bytes as they are. -/
def Work.poke (w : Work) (a : Nat) (d : List Byte) : Work := if d = [] then w else w.op (.write a d)

/-- Change the hub. -/
def Work.onHub (w : Work) (f : Hub → Hub) : Work := { w with hub := f w.hub }

/-- Emit something at the boundary (log 4). -/
def Work.emit (w : Work) (o : Out) : Work := w.onHub fun h => { h with sent := o :: h.sent }

/-- A fresh free value (log 3) and the work with the counter advanced. -/
def Work.fresh (w : Work) : Nat × Work :=
  (Config.freeWord w.hub.free, w.onHub fun h => { h with free := h.free + 1 })

/-- n fresh free values (log 3). -/
def Work.freshes (w : Work) (n : Nat) : List Nat × Work :=
  ((List.range n).map fun i => Config.freeWord (w.hub.free + i), w.onHub fun h => { h with free := h.free + n })

/-- n bytes whose contents are undefined (R93, R291): free values. -/
def Work.junk (w : Work) (n : Nat) : List Byte × Work :=
  ((List.range n).map fun i => Config.poisonByte (w.hub.free * 65536 + i), w.onHub fun h => { h with free := h.free + 1 })

/-- Microseconds since reset (log 2). -/
def Work.now (w : Work) : Nat := w.hub.now

/-- A port's record. -/
def Work.port (w : Work) (p : Nat) : Port := tget {} w.hub.ports p

/-- Change a port's record. -/
def Work.onPort (w : Work) (p : Nat) (f : Port → Port) : Work :=
  w.onHub fun h => { h with ports := tmod {} h.ports p f }

/-- A function's record (R374). PF0 always exists; a VF exists while VF Enable is set. -/
def Work.func (w : Work) (f : FuncRef) : Func := tget {} (w.port f.port).funcs f.func

/-- Change a function's record. -/
def Work.onFunc (w : Work) (f : FuncRef) (g : Func → Func) : Work :=
  w.onPort f.port fun p => { p with funcs := tmod {} p.funcs f.func g }

/-! ## Times -/

/-- Events of a list that lie within the last n microseconds. -/
def recent (now n : Nat) (l : List Nat) : List Nat := l.filter fun t => now < t + n

/-! ## Host addresses -/

/-- Where host physical memory of a port lies in the model: below 2^49 at its DPA (R298), above at a key no DPA has (log 5). -/
def hostKey (port a : Nat) : Nat :=
  if a < 2 ^ 49 then 0x0008000000000000 + port * 2 ^ 49 + a else 2 ^ 60 + port * 2 ^ 64 + a

/-- A function may issue requests now (R385, R388, R394). -/
def Work.mayIssue (w : Work) (f : FuncRef) : Bool :=
  let fn := w.func f
  fn.bme && !fn.d3hot && !fn.flr && fn.tdi != .error

/-- The stream on which a function's traffic travels is not Insecure: the link stream, but for a TDI, which has a selective one; traffic of an Insecure stream is discarded (R393). -/
def Work.streamSecure (w : Work) (f : FuncRef) : Bool := (w.func f).tdi ≠ .unlocked || tget 0 (w.port f.port).ide 0 ≠ 2

/-- The VFs of a port answer configuration requests: VF Enable is set, and the hub has finished its start (R372). -/
def Work.vfLive (w : Work) (p : Nat) : Bool := (w.port p).vfEnable && (w.port p).ready

/-- A port whose link carries requests (R371, R373, R391). -/
def Work.portUp (w : Work) (p : Nat) : Bool :=
  let s := (w.port p).state
  s = 1 || s = 2 || s = 3 || s = 4

/-- Where the counters keep that a count of a port's TLPs has wrapped and its interrupt is still to be raised: past the last block (R580). -/
def wrapKey (p : Nat) : Nat := 0x00180000 + p

/-- Count TLPs by type (R395, R580): 0 memory reads sent, 1 memory writes sent, 5 memory writes received, 6 completions received. -/
def Work.tlp (w : Work) (p c : Nat) (n : Nat := 1) : Work :=
  let o := 0x00170000 + p * 0x100 + 8 * c
  let old := tget 0 w.hub.cnt o
  let v := old % 2 ^ 48 + n
  let wrap : Bool := 2 ^ 48 ≤ v
  w.onHub fun h => { h with cnt := (if wrap then (tset · (wrapKey p) 1) else id) (tset h.cnt o (v % 2 ^ 48 + (if bit old 63 || wrap then 2 ^ 63 else 0))) }

/-- A write of the hub into host memory by a function: done at once, or owed while the function may not issue (R381, R388). While the link is down it is lost (R392). -/
def Work.hostWrite (w : Work) (f : FuncRef) (a : Nat) (d : List Byte) : Work :=
  if !w.portUp f.port then w
  else if w.mayIssue f then ((w.poke (hostKey f.port a) d).emit (.hostWrite f a d)).tlp f.port 1
  else w.onFunc f fun fn => { fn with owedWrites := fn.owedWrites ++ [(a, d)] }

/-! ## Interrupts -/

/-- Send the message of a vector as the host has set it up (R383). -/
def Work.sendVector (w : Work) (f : FuncRef) (v : Nat) (owe : Nat := v) : Work :=
  let fn := w.func f
  let pend (w : Work) : Work := w.onFunc f fun fn => { fn with pendingVec := addTo fn.pendingVec v }
  let out (n : Nat) (w : Work) : Work :=
    if w.mayIssue f then (w.emit (.msix f n)).tlp f.port 1 else w.onFunc f fun fn => { fn with owedVecs := fn.owedVecs ++ [owe] }
  if fn.msixEn then (if fn.fmask || v ∈ fn.masked then pend w else out v w)
  else if fn.msiCount = 0 then w
  else if v % fn.msiCount ∈ fn.masked then pend w else out (v % fn.msiCount) w

/-- Raise a vector of a function: its status bit, then its message (R383, R567, R573). -/
def Work.raise (w : Work) (f : FuncRef) (v : Nat) (owe : Nat := v) : Work :=
  let w :=
    if f.func = 0 then w.onPort f.port fun p => { p with isr := tmod 0 p.isr (v / 64) (· ||| 2 ^ (v % 64)) }
    else w.onFunc f fun fn => { fn with isr := fn.isr ||| 2 ^ (v % 64) }
  w.sendVector f v owe

/-- Vector of a hub-wide interrupt source on a port (R572). -/
def Work.irqVector (w : Work) (port src : Nat) : Nat := tget (2032 + src) (w.port port).irq src

/-- Raise a hub-wide interrupt source on a port (R572); an owed message is kept by its source, and goes on the vector then in force (R583). -/
def Work.irq (w : Work) (port src : Nat) : Work :=
  w.raise { port := port, func := 0 } (w.irqVector port src) (4096 + src)

/-- Ports in service: those whose link is up (R373). -/
def Work.portsUp (w : Work) : List Nat := (List.range 4).filter w.portUp

/-- Raise a source on several ports. -/
def Work.irqs (w : Work) (ports : List Nat) (src : Nat) : Work := each ports (fun p w => w.irq p src) w

/-- A firmware unit of R559 does not run: it is being replaced, or its replacement was abandoned (R561). -/
def Work.unitPaused (w : Work) (u : Nat) : Bool :=
  (match w.hub.svc.replacing with | some (v, _) => v = u | none => false) || w.hub.svc.out.any fun (v, _) => v = u

/-! ## Pools and counters -/

/-- The pool of a port (R426). -/
def Work.pool (w : Work) (p : Nat) : Pool := tget {} w.hub.ten.pools p

/-- The manager berth of a port (R425). -/
def Work.mgr (w : Work) (p : Nat) : Nat := w.hub.ten.mgr.getD p 0

/-- A run FIRST, COUNT holds an item. -/
def inRun (first count x : Nat) : Bool := first ≤ x && x < first + count

/-- The port whose pool holds a berth, or which the berth manages (R425, R547). -/
def Work.portOfBerth (w : Work) (b : Nat) : Option Nat :=
  match (List.range 4).find? fun p => w.mgr p = b with
  | some p => some p
  | none => (List.range 4).find? fun p => inRun (w.pool p).berthFirst (w.pool p).berthCount b

/-- Base of a counter block (R580). -/
def cntBase (k : Nat) : Nat :=
  [0x00100000, 0x00102000, 0x00104000, 0x00108000, 0x00109000, 0x00110000, 0x00130000, 0x00140000, 0x00148000,
   0x00149000, 0x0014C000, 0x00150000, 0x00160000, 0x00168000, 0x00170000, 0x00171000, 0x00172000, 0x00173000,
   0x00174000].getD k 0

/-- Stride of a counter block (R580). -/
def cntStride (k : Nat) : Nat :=
  [0x200, 0x40, 0x100, 0x100, 0, 0x80, 0x80, 0x100, 0x40, 0x40, 0, 0x20, 0x80, 0, 0x100, 0x200, 0x8, 0x100, 0].getD k 0

/-- Units of a counter block (R580). -/
def cntInst (k : Nat) : Nat := [16, 16, 64, 16, 1, 606, 32, 128, 3, 131, 1, 640, 133, 1, 4, 4, 32, 8, 1].getD k 0

/-- Counters of a unit of a block (R580): the Porters' Chart units hold 15. -/
def cntLen (k inst : Nat) : Nat :=
  if k = 12 then (if 96 ≤ inst && inst < 128 then 15 else 12)
  else [48, 7, 28, 24, 19, 12, 9, 17, 6, 5, 2, 3, 12, 2, 27, 35, 1, 20, 24].getD k 0

/-- The block and unit of a counter's register offset, if it names a counter (R580). -/
def cntAt (o : Nat) : Option (Nat × Nat) :=
  (List.range 19).findSome? fun k =>
    let st := if cntStride k = 0 then 0x10000 else cntStride k
    if cntBase k ≤ o && o % 8 = 0 then
      let i := (o - cntBase k) / st
      if i < cntInst k && ((o - cntBase k) % st) / 8 < cntLen k i then some (k, i) else none
    else none

/-- A port's manager may read a unit of a counter block (R580). -/
def Work.mayRead (w : Work) (p k i : Nat) : Bool :=
  let pl := w.pool p
  let shared := w.hub.svc.sharedPort = p
  match k with
  | 0 | 1 | 3 => bit pl.sites i
  | 2 => bit pl.wright i
  | 11 => bit pl.regroups (i / 10)
  | 12 =>
    if i < 16 then bit pl.sites i else if i < 80 then bit pl.wright (i - 16) else if i < 96 then bit pl.sites (i - 80)
    else if i < 128 then (i - 96) / 8 = p else if i = 128 then shared else i - 129 = p
  | 14 | 15 => i = p
  | 16 => i / 8 = p
  | _ => shared

/-- Count an event of a unit: 48 bits, a wrap sets the overflow bit and raises the event where enabled (R552, R581). The miss counts of R344 saturate. -/
def Work.count (w : Work) (k inst c : Nat) (n : Nat := 1) : Work :=
  let o := cntBase k + inst * cntStride k + 8 * c
  let old := tget 0 w.hub.cnt o
  if k = 11 && c = 2 then w.onHub fun h => { h with cnt := tset h.cnt o (satAdd 0xFFFFFFFF old n) }
  else
    let v := old % 2 ^ 48 + n
    let ov := bit old 63 || 2 ^ 48 ≤ v
    let w := w.onHub fun h => { h with cnt := tset h.cnt o (v % 2 ^ 48 + b2n ov * 2 ^ 63) }
    if 2 ^ 48 ≤ v then
      w.irqs (w.portsUp.filter fun p => bit (w.port p).cntIrqEn k && w.mayRead p k inst) 13
    else w

/-- Stall cycles of a Chart walk of a unit, at the unit and, of a Wright engine's, at the engine: they hang on the fabric, a free value (R210, R366; log 72). -/
def Work.walkStall (w : Work) (u : Nat) : Work :=
  let n := w.fresh.1 % 2 ^ 48
  let w := w.fresh.2.count 12 u 3 n
  if 16 ≤ u && u < 80 then w.count 2 (u - 16) 19 n else w

/-! ## The Logs -/

/-- What a Log entry says before it is placed in a Log (R548). -/
structure LogEvent where
  cls : Nat
  sev : Nat
  cause : Nat
  unit : Nat := 0
  berth : Option Nat := none
  addr : Nat := 0
  detail : Nat := 0

/-- The 256 bits of an entry but for PHASE and PRI (R548). The management clock runs at 1.0 GHz (R12). -/
def logWord (now seq : Nat) (e : LogEvent) : Nat :=
  pack [(8, e.cls), (3, e.sev), (1, 0), (1, 0), (1, b2n e.berth.isSome), (2, 0), (16, e.cause),
    (14, e.berth.getD 0), (2, 0), (16, e.unit), (64, e.addr), (48, now * 1000), (32, e.detail), (32, seq), (16, 0)]

/-- Severity of an entry's word. -/
def sevOf (x : Nat) : Nat := bits x 10 8

/-- Where an entry of the priority section goes: an empty slot, else the least severe and oldest if no more severe than the new one (R551). -/
def priSlot (l : List Nat) (sev : Nat) : Option Nat :=
  if l.length < 16 then some l.length
  else
    let low := l.foldl (fun m x => min m (sevOf x)) 7
    if sev < low then none
    else
      let cands := (List.range l.length).filter fun i => sevOf (l.getD i 0) = low
      some (cands.foldl (fun b i => if bits (l.getD i 0) 239 208 < bits (l.getD b 0) 239 208 then i else b) (cands.getD 0 0))

/-- A Log is FULL (R549). -/
def logFull (r : LogRing) : Bool := (r.tail + 1) % 2 ^ r.log2 = r.head

/-- A loss from a Log: the class count rises and LOST is set; the gap entry's facts grow (R550). -/
def logLose (r : LogRing) (cls sev : Nat) (gap : Bool) : LogRing :=
  { r with lost := true, lostCount := tmod 0 r.lostCount (cls % 32) (satAdd 0xFFFFFFFF 1),
           gapCount := if gap then satAdd 0xFFFFFFFF r.gapCount 1 else r.gapCount,
           gapSev := if gap then max r.gapSev sev else r.gapSev }

/-- Place an entry in the priority section: the ring, the slot and the entry if it is held (R551). -/
def logPri (r : LogRing) (x : Nat) : LogRing × Option Nat :=
  if sevOf x < 3 then (r, none)
  else match priSlot r.pri (sevOf x) with
    | none => (r, none)
    | some i => ({ r with pri := if i < r.pri.length then r.pri.set i (putBits x 12 12 1) else r.pri ++ [putBits x 12 12 1] }, some i)

/-- Append an entry at TAIL; PHASE is 1 on even passes (R548, R400). -/
def logAppend (r : LogRing) (x : Nat) : LogRing × Nat :=
  let x := putBits x 11 11 (if r.passes % 2 = 0 then 1 else 0)
  let t := (r.tail + 1) % 2 ^ r.log2
  ({ r with tail := t, passes := if t = 0 then r.passes + 1 else r.passes }, x)

/-- An entry into the management Log (R547, R550): a first loss raises a PLDM event. -/
def Work.mlogPut (w : Work) (e : LogEvent) : Work :=
  let r := { w.hub.mlog with enable := true, log2 := 12 }
  let x := logWord w.now r.seq e
  let (r, slot) := logPri { r with seq := (r.seq + 1) % 2 ^ 32 } x
  let x := putBits x 12 12 (b2n slot.isSome)
  if logFull r then
    let first := r.gapCount = 0
    let w := w.onHub fun h => { h with mlog := logLose r e.cls e.sev true }
    if first then w.emit (.pldm 10) else w
  else
    let t := r.tail
    let (r, x) := logAppend r x
    w.onHub fun h => { h with mlog := { r with store := tset r.store t x } }

/-- Write a port's Log record. -/
def Work.setLog (w : Work) (p : Nat) (r : LogRing) : Work := w.onPort p fun q => { q with log := r }

/-- Write an entry of a port's Log into the host's priority section (R551). -/
def Work.plogPri (w : Work) (p : Nat) (r : LogRing) (x : Nat) (slot : Option Nat) : Work :=
  match slot with
  | some i => w.hostWrite { port := p, func := 0 } (r.base + 32 * 2 ^ r.log2 + 32 * i) (leBytes 32 x)
  | none => w

/-- Write an entry into a port's ring, or lose it while the ring is FULL (R549, R550). -/
def Work.plogStore (w : Work) (p : Nat) (r : LogRing) (x cls sev : Nat) : Work :=
  if logFull r then
    let w' := w.setLog p (logLose r cls sev true)
    if r.gapCount = 0 then w'.irq p 10 else w'
  else
    let y := logAppend r x
    let w' := (w.setLog p y.1).hostWrite { port := p, func := 0 } (r.base + 32 * r.tail) (leBytes 32 y.2)
    if r.tail = r.head then w'.irq p 14 else w'

/-- An entry into a port's Log (R547-R551): into host memory by PF0; below MIN_SEV, disabled or FULL it is counted. -/
def Work.plogPut (w : Work) (p : Nat) (e : LogEvent) : Work :=
  let r := (w.port p).log
  if !r.enable then w.setLog p (logLose r e.cls e.sev false)
  else if e.sev < r.minSev then w.setLog p { r with lostCount := tmod 0 r.lostCount (e.cls % 32) (satAdd 0xFFFFFFFF 1) }
  else
    let q := logPri { r with seq := (r.seq + 1) % 2 ^ 32 } (logWord w.now r.seq e)
    let x := putBits (logWord w.now r.seq e) 12 12 (b2n q.2.isSome)
    (w.plogPri p q.1 x q.2).plogStore p q.1 x e.cls e.sev

/-- The Logs count an event that they do not record, as one below MIN_SEV is counted: by its class (R117, R549; log 128). -/
def Work.logCount (w : Work) (cls : Nat) : Work :=
  let one (r : LogRing) : LogRing := { r with lostCount := tmod 0 r.lostCount (cls % 32) (satAdd 0xFFFFFFFF 1) }
  each w.portsUp (fun p w => w.setLog p (one (w.port p).log)) (w.onHub fun h => { h with mlog := one h.mlog })

/-- Record an event in the Logs that R547 names. -/
def Work.log (w : Work) (e : LogEvent) : Work :=
  let ports := match e.berth with
    | some b => (w.portOfBerth b).toList
    | none => w.portsUp
  each ports (fun p w => w.plogPut p e) (w.mlogPut e)

/-- When space returns, the gap entry is written (R550). -/
def Work.logGap (w : Work) (port : Option Nat) : Work :=
  let r := match port with | some p => (w.port p).log | none => { w.hub.mlog with log2 := 12 }
  if r.gapCount = 0 || logFull r then w
  else
    let e : LogEvent := { cls := 0x1F, sev := r.gapSev, cause := 0, detail := r.gapCount }
    match port with
    | some p => (w.onPort p fun q => { q with log := { q.log with gapCount := 0, gapSev := 0 } }).plogPut p e
    | none => (w.onHub fun h => { h with mlog := { h.mlog with gapCount := 0, gapSev := 0 } }).mlogPut e

/-- A withdrawal of an item runs (R435). -/
def Work.withdrawing (w : Work) (kind item : Nat) : Bool := w.hub.ten.withdrawals.any fun x => x.kind = kind && x.item = item

/-- A berth holds a site (R433), and its grant is not being withdrawn. -/
def Work.siteHeld (w : Work) (n b : Nat) : Bool :=
  (n, b) ∈ w.hub.ten.sites && !w.hub.ten.withdrawals.any fun x => x.kind = 0 && x.item = n && x.berth = b

/-- The berth to which an item of one holder is granted (R433, R434), kinds 1 to 7, a withdrawal that runs included. -/
def Work.heldBy (w : Work) (kind item : Nat) : Option Nat := tfind w.hub.ten.held (kind * 4096 + item)

/-- The berth that may use an item of one holder. -/
def Work.holder (w : Work) (kind item : Nat) : Option Nat := if w.withdrawing kind item then none else w.heldBy kind item

/-- Ports that serve a berth granted at a site (R116 step 7). -/
def Work.portsOfSite (w : Work) (n : Nat) : List Nat :=
  (List.range 4).filter fun p => w.hub.ten.sites.any fun (m, b) => m = n && w.portOfBerth b = some p

/-- The berth's record. -/
def Work.berth (w : Work) (b : Nat) : Berth := tget {} w.hub.ten.berths b

/-- Change a berth's record. -/
def Work.onBerth (w : Work) (b : Nat) (f : Berth → Berth) : Work :=
  w.onHub fun h => { h with ten := { h.ten with berths := tmod {} h.ten.berths b f } }

/-- Count for a tenant: index of R450 (0 VECTORS to 9 POISON). -/
def Work.viewCount (w : Work) (b i : Nat) (n : Nat := 1) : Work :=
  w.onBerth b fun x => { x with view := { x.view with counts := tmod 0 x.view.counts i (· + n) } }

/-- The function a berth is bound to (R425, R432). -/
def Work.bindOf (w : Work) (b : Nat) : Option Bind :=
  match (List.range 4).find? fun p => w.mgr p = b with
  | some p => some { port := p, func := 0 }
  | none => (w.berth b).bind

end Sys2Proof.Machine
end

