-- ==== Sys2Proof/Machine/Ops.lean ====
section
/-! DEFINITION. The shared operations over memory, translation and the site streams: where an address lies (R298), keys and granules (R439, R444), regulation (R333-R341), the Hold cache (R301), Chart walks and checks (R347-R354), requests in the fabric (R276), frames (R52-R57) and the messages of the site protocol (R81-R108). -/

namespace Sys2Proof.Machine

/-! ## Where memory lies -/

/-- What lies at a device physical address (R298, R346). -/
inductive Target where
  | board (region : Nat)
  | scratch (part : Nat)
  | host (port addr : Nat)
  | window (w off : Nat)
  | nothing
  deriving DecidableEq, Repr

/-- Regions of board memory installed (R308). -/
def Work.regions (w : Work) : Nat := if w.hub.memory.clamshell then 192 else 96

/-- A region's record. -/
def Work.region (w : Work) (r : Nat) : Region := tget {} w.hub.memory.regions r

/-- Usable bytes of a region by its class (R308). -/
def usable (cls : Nat) : Nat := if cls = 0 then 992 * 2 ^ 20 else 896 * 2 ^ 20

/-- A partition's record. -/
def Work.part (w : Work) (p : Nat) : Part := tget {} w.hub.memory.parts p

/-- What lies at a DPA now (R298, R303). -/
def Work.target (w : Work) (d : Nat) : Target :=
  if d < 0x003000000000 then
    let r := d / 2 ^ 30
    if r < w.regions && d % 2 ^ 30 < usable (w.region r).cls then .board r else .nothing
  else if 0x004000000000 ≤ d && d < 0x004030000000 then
    let p := (d - 0x004000000000) / 2 ^ 24
    if (w.part p).mode = 3 && !(w.part p).busy then .scratch p else .nothing
  else if 0x0004000000000000 ≤ d && d < 0x0005000000000000 then
    .window ((d - 0x0004000000000000) / 2 ^ 40) ((d - 0x0004000000000000) % 2 ^ 40)
  else if 0x0008000000000000 ≤ d && d < 0x0010000000000000 then
    .host ((d - 0x0008000000000000) / 2 ^ 49) ((d - 0x0008000000000000) % 2 ^ 49)
  else .nothing

/-- A DPA lies in the board-memory range. -/
def isBoard (d : Nat) : Bool := d < 0x003000000000

/-- A DPA lies in host memory. -/
def isHost (d : Nat) : Bool := 0x0008000000000000 ≤ d && d < 0x0010000000000000

/-- The port of a host DPA. -/
def hostPort (d : Nat) : Nat := (d - 0x0008000000000000) / 2 ^ 49

/-- The channel of a board granule (R309). -/
def channelOf (d : Nat) : Nat :=
  let n := d % 2 ^ 30 / 256
  (bits n 6 0 ^^^ bits n 13 7 ^^^ bits n 20 14) ^^^ bits n 21 21

/-- Place of data granule k of a channel's share of a region in the channel's 8 MiB, by the region's class (R309). -/
def dataPlace (cls k : Nat) : Nat := if cls = 0 then 32 * (k / 31) + k % 31 else 8 * (k / 7) + k % 7

/-- Place of the check granule of data granule k (R309). -/
def checkPlace (cls k : Nat) : Nat := if cls = 0 then 32 * (k / 31) + 31 else 8 * (k / 7) + 7

/-- Data granule k of a channel in a region (R309). -/
def granuleAt (r c k : Nat) : Nat := r * 2 ^ 22 + k * 128 + (c ^^^ bits k 6 0 ^^^ bits k 13 7 ^^^ bits k 14 14)

/-- The home slice of a line (R283): the XOR of the 5-bit groups of DPA[51:7]. -/
def sliceOf (d : Nat) : Nat :=
  (List.range 9).foldl (fun x i => x ^^^ bits d (11 + 5 * i) (7 + 5 * i)) 0

/-- A channel's record. -/
def Work.channel (w : Work) (c : Nat) : Channel := tget {} w.hub.memory.channels c

/-- Change the memory units. -/
def Work.onMem (w : Work) (f : MemUnits → MemUnits) : Work := w.onHub fun h => { h with memory := f h.memory }

/-- Change a channel's record. -/
def Work.onChannel (w : Work) (c : Nat) (f : Channel → Channel) : Work :=
  w.onMem fun m => { m with channels := tmod {} m.channels c f }

/-- Regions of the remap reserve (R312). -/
def Work.reserved (w : Work) : Nat := w.hub.memory.remapped.length * if w.hub.memory.clamshell then 2 else 1

/-- A block lies in the remap reserve, the highest regions (R312). -/
def Work.inReserve (w : Work) (blk : Nat) : Bool := w.regions - w.reserved ≤ blk / 2 ^ 14 && blk / 2 ^ 14 < w.regions

/-- The owner entry of a DPA's block (R313): 14 bits OWNER, 2 bits KIND; the remap reserve is the hub's, OWNER 2 (R312). -/
def Work.ownerOf (w : Work) (d : Nat) : Nat := if w.inReserve (d / 65536) then 3 * 2 ^ 14 + 2 else tget 0 w.hub.memory.owner (d / 65536)

/-- A berth is a member of a share group (R314). -/
def Work.member (w : Work) (g b : Nat) : Bool := bit (tget 0 w.hub.memory.member g) b

/-- The owner table lets a berth's request pass (R314). -/
def Work.ownerPasses (w : Work) (d b : Nat) : Bool :=
  let e := w.ownerOf d
  match bits e 15 14 with
  | 1 => bits e 13 0 = b
  | 2 => w.member (bits e 7 0) b
  | _ => false

/-- The berths that own a block: one, or the members of its share group (R313, R326). -/
def Work.ownersOf (w : Work) (d : Nat) : List Nat :=
  let e := w.ownerOf d
  match bits e 15 14 with
  | 1 => [bits e 13 0]
  | 2 => ones (tget 0 w.hub.memory.member (bits e 7 0)) 4096
  | _ => []

/-- Base of the hub's own areas, in the highest region that is not in the remap reserve (R308): the recipe store, then the Helm spill (log 29). -/
def Work.hubBase (w : Work) : Nat := (w.regions - 1 - w.reserved) * 2 ^ 30

/-- Base of the Helm spill area (R262). -/
def Work.spillBase (w : Work) : Nat := w.hubBase + 2 ^ 23

/-- Memory that answers nothing yet: a channel or host link retraining, a block under reload (R306, R330, R391). -/
def Work.memBusy (w : Work) (d : Nat) : Bool :=
  if isBoard d then (w.channel (channelOf d)).retraining || w.hub.memory.reloads.any fun r => r.block = d / 65536
  else isHost d && (w.port (hostPort d)).state = 4

/-! ## Keys and granules -/

/-- Index of a slot and generation; share group g has slot 4096 + g (R439). -/
def keyIx (slot gen : Nat) : Nat := slot * 2 + gen

/-- The key id of a slot and generation; 0 is an empty generation. -/
def Work.key (w : Work) (slot gen : Nat) : Nat := tget 0 w.hub.memory.keys (keyIx slot gen)

/-- A generation is empty, or KEY_RETIRE empties it now (R439, R442). -/
def Work.keyGone (w : Work) (slot gen : Nat) : Bool :=
  w.key slot gen = 0 || w.hub.memory.retiring.any fun r => r.slot = slot && r.gen = gen

/-- Draw a fresh key id. -/
def Work.newKey (w : Work) : Nat × Work :=
  (w.hub.memory.nextKey, w.onMem fun m => { m with nextKey := m.nextKey + 1 })

/-- Key id under which a granule is stored, its region's scrub key where nothing has been written since; 0: nothing has been written there at all. The recipe store and the Helm spill are under the hub key, which no leaf can name (R439). -/
def Work.tagOf (w : Work) (d : Nat) : Nat :=
  if bits (w.ownerOf d) 15 14 = 3 && bits (w.ownerOf d) 13 0 < 2 then w.hub.memory.hubKey
  else (tfind w.hub.memory.tag (d / 256)).getD (w.region (d / 2 ^ 30)).key

/-- A byte of board memory as a key decrypts it (R439, R442, R446; log 13). -/
def Work.plain (w : Work) (key a : Nat) : Byte :=
  if w.tagOf a = key then w.mem.byte a else Config.garble (w.tagOf a) key a

/-- A granule brought under a key: a write of less than a granule decrypts, merges and encrypts the whole (R316). -/
def Work.rekey (w : Work) (key g : Nat) : Work :=
  if w.tagOf (g * 256) = key then w
  else
    let bs := (List.range 256).map fun i => w.plain key (g * 256 + i)
    (w.poke (g * 256) bs).onMem fun m => { m with tag := tset m.tag g key }

/-- The granules or lines that n bytes from a touch. -/
def partsOf (size a n : Nat) : List Nat :=
  if n = 0 then [] else (List.range ((a + n - 1) / size - a / size + 1)).map (· + a / size)

/-- Poison after a write: whole lines are cleared or, for poisoned data, every line touched is poisoned (R291, R323). -/
def Work.setPoison (w : Work) (a n : Nat) (poison : Bool) : Work :=
  each (partsOf 128 a n) (fun l w =>
    if poison then w.op (.poison l) else if whole 128 a n l then w.op (.clear l) else w) w

/-- Some line of n bytes from a is poisoned. -/
def Work.poisoned (w : Work) (a n : Nat) : Bool := (partsOf 128 a n).any fun l => l ∈ w.mem.poison

/-- Bytes written at a DPA under a key: board memory granule by granule, other memory as it is (R439); data for host memory leaves through its port. -/
def Work.put (w : Work) (slot gen a : Nat) (d : List Byte) (poison : Bool := false) : Work :=
  let w :=
    if isBoard a then
      let k := w.key slot gen
      each (partsOf 256 a d.length) (fun g w =>
        if whole 256 a d.length g then w.onMem fun m => { m with tag := tset m.tag g k } else w.rekey k g) w
    else w
  let w := (w.poke a d).setPoison a d.length poison
  if isHost a && d ≠ [] then w.emit (.cacheData (hostPort a) a d) else w

/-- Device-to-host requests for the lines of an access (R380). -/
def Work.hostReqs (w : Work) (q : D2H) (a n : Nat) : Work :=
  if isHost a then each (partsOf 128 a n) (fun l w => w.emit (.cacheReq (hostPort a) q (l * 128))) w else w

/-- Bytes read at a DPA under a key. -/
def Work.get (w : Work) (slot gen a n : Nat) : List Byte :=
  if isBoard a then (List.range n).map fun i => w.plain (w.key slot gen) (a + i) else w.mem.bytes a n

/-! ## Regulation: capacity, scaling and charges (R333-R341) -/

/-- Change the regulation. -/
def Work.onBwr (w : Work) (f : Bwr → Bwr) : Work := w.onHub fun h => { h with bwr := f h.bwr }

/-- The group of a berth (R335). -/
def Work.groupOf (w : Work) (b : Nat) : Nat := tget 0 w.hub.bwr.groups b

/-- A channel whose devices serve: neither failed at the start, its granules then in the remap reserve (R312), nor isolated (R601). -/
def channelServes (c : Channel) : Bool := !c.failed && !c.isolated

/-- The rate at which a channel runs, in Gb/s (R307, R507). -/
def Work.channelRate (w : Work) (c : Nat) : Nat :=
  min (w.channel c).rate (max 28 (w.hub.memory.rateRun - 2 * (7 - w.hub.bin.memOp)))

/-- Hold frequency at an operating point, in 100 MHz (R507). -/
def holdFreq (op : Nat) : Nat := [6, 8, 10, 12, 14, 16, 18, 20].getD op 20

/-- Link rate of a port by its code, in 0.1 GT/s (R373). -/
def linkRate (code : Nat) : Nat := [0, 25, 50, 80, 160, 320, 640].getD code 0

/-- Derated capacity of a resource of R566 in MB/s (R333, R388). -/
def Work.capacity (w : Work) (k : Nat) : Nat :=
  if k = 0 then
    let rates := ((List.range 128).map fun c => if channelServes (w.channel c) && !(w.channel c).retraining then w.channelRate c else 0).sum
    let links := 48 - (w.hub.fabric.linksOut.filter fun l => 255 ≤ l).length
    min (rates * 91675 / 100) (153600 * links)
  else if k = 1 then
    (3 - w.hub.memory.diesOut.length) * min (8000000 * holdFreq w.hub.bin.holdOp / 20) (614400 * 14)
  else
    let p := (k - 2) % 4
    let x := w.port p
    if x.state = 0 || x.state = 4 || x.state = 5 || !w.mayIssue { port := p, func := 0 } then 0
    else 110000 * x.width * linkRate x.rate / 10240

/-- Derate causes in force on a resource (R343). -/
def Work.derateCauses (w : Work) (k : Nat) : Nat :=
  let chans := (List.range 128).map w.channel
  if k = 0 then
    pack [(1, b2n (chans.any fun c => channelServes c && c.rate < w.hub.memory.rateRun)), (1, b2n (chans.any fun c => !channelServes c)),
      (1, b2n (chans.any fun c => c.retraining)), (1, b2n (w.hub.bin.memOp < 7)), (1, b2n (w.hub.fabric.linksOut.any fun l => 255 ≤ l))]
  else if k = 1 then pack [(3, 0), (1, b2n (w.hub.bin.holdOp < 7)), (1, 0), (1, b2n (w.hub.memory.diesOut ≠ []))]
  else pack [(2, 0), (1, b2n ((w.port ((k - 2) % 4)).state = 4))]

/-- Sum of the guarantees on a resource in GB/s (R337). -/
def Work.guarSum (w : Work) (k : Nat) : Nat :=
  ((w.hub.bwr.recs.filter fun (i, _) => i % 10 = k).map fun (_, g) => g.guar).sum

/-- Controllers of a resource in service (R338). -/
def Work.controllers (w : Work) (k : Nat) : Nat :=
  if k = 0 then max 1 ((List.range 128).filter fun c => channelServes (w.channel c)).length
  else if k = 1 then max 1 (3 - w.hub.memory.diesOut.length) else 1

/-- What the credit of a group and resource accrues at one controller in a time in microseconds (R338, R340). -/
def Work.accrual (w : Work) (i us : Nat) : Nat :=
  let r : Guar := tget {} w.hub.bwr.recs i
  let s := (tget ({} : BwrRes) w.hub.bwr.res (i % 10)).scale
  r.guar * 1000 * s * us / (0x8000 * w.controllers (i % 10))

/-- The credit at a controller now: capped and floored at 2 microseconds of accrual (R338). -/
def Work.creditNow (w : Work) (i ctl : Nat) : Int :=
  let cap : Int := w.accrual i 2
  let c := tget 0 w.hub.bwr.credit (i * 256 + ctl) + (w.accrual i (w.now - tget 0 w.hub.bwr.creditAt (i * 256 + ctl)) : Nat)
  max (-cap) (min cap c)

/-- Settle a credit at a value. -/
def Work.setCredit (w : Work) (i ctl : Nat) (c : Int) : Work :=
  w.onBwr fun x => { x with credit := tset x.credit (i * 256 + ctl) c, creditAt := tset x.creditAt (i * 256 + ctl) w.now }

/-- Settle every credit of a resource before its accrual changes. -/
def Work.settleCredits (w : Work) (k : Nat) : Work :=
  each ((w.hub.bwr.credit.map (·.1)).filter fun j => j / 256 % 10 = k) (fun j w => w.setCredit (j / 256) (j % 256) (w.creditNow (j / 256) (j % 256))) w

/-- Recompute D, the scale factor and the causes of a resource (R333, R340, R341). -/
def Work.derateOne (w : Work) (k : Nat) : Work :=
  let old : BwrRes := tget {} w.hub.bwr.res k
  let d := w.capacity k
  let g := 1000 * w.guarSum k
  let s := if g = 0 then 0x8000 else min 0x8000 (9 * d * 0x8000 / (10 * g))
  let cause := w.derateCauses k
  let new : BwrRes := { dcap := d, scale := s, cause := cause, changedAt := if s = old.scale then old.changedAt else some w.now }
  let w := if s = old.scale then w else w.settleCredits k
  let w := if cause = 0 then w
    else each (List.range 64) (fun g w => w.onBwr fun x => { x with causes := tmod 0 x.causes (g * 10 + k) (· ||| cause) }) w
  if new = old then w else w.onBwr fun x => { x with res := tset x.res k new }

/-- A term of some capacity has changed (R340). -/
def Work.derate (w : Work) : Work := each (List.range 10) (fun k w => w.derateOne k) w

/-- Charge a served request to its berth's group on a resource of R566 (R335, R338, R344). -/
def Work.charge (w : Work) (b k ctl n : Nat) : Work :=
  let i := w.groupOf b * 10 + k
  let w := match tfind w.hub.bwr.recs i with
    | some _ => w.setCredit i ctl (max (-(w.accrual i 2 : Int)) (w.creditNow i ctl - n))
    | none => w
  let w := (w.onBwr fun x => { x with charged := tmod 0 x.charged i (· + n) }).count 11 i 0 n
  if k = 0 then w.viewCount b 5 n else if 2 ≤ k then w.viewCount b 6 n else w

/-- Charge by priority: the hub's own traffic, of priority 3, belongs to no group (R334). -/
def Work.chargeAt (w : Work) (b k ctl n prio : Nat) : Work := if prio = 3 then w else w.charge b k ctl n

/-- The check granule that guards a board granule, as a key within its channel (R309). -/
def Work.checkOf (w : Work) (g : Nat) : Nat :=
  let r := g / 2 ^ 22
  r * 32768 + checkPlace (w.region r).cls (g % 2 ^ 22 / 128)

/-- A check granule is wanted: true when the channel's cache of 64 holds it; it then is its newest (R311). -/
def Work.checkHit (w : Work) (g : Nat) : Bool × Work :=
  let c := channelOf (g * 256)
  let k := w.checkOf g
  (k ∈ (w.channel c).checks, w.onChannel c fun x => { x with checks := (k :: rmv x.checks k).take 64 })

/-- A granule is read from board memory for a berth: bus bytes of R316 and R333, and the counters of R332. -/
def Work.busRead (w : Work) (b g prio : Nat) : Work :=
  let c := channelOf (g * 256)
  let (hit, w) := w.checkHit g
  (w.count 7 c prio).chargeAt b 0 c (if hit then 256 else 288) prio

/-- A granule is written to board memory for a berth, whole or by read-modify-write (R316). -/
def Work.busWrite (w : Work) (b g prio : Nat) (whole : Bool) : Work :=
  let c := channelOf (g * 256)
  let (hit, w) := w.checkHit g
  let w := w.count 7 c (4 + prio)
  if !whole then (w.count 7 c 8).chargeAt b 0 c 576 prio
  else w.chargeAt b 0 c (if hit then 256 else if (w.region (g / 2 ^ 22)).cls = 0 then 320 else 288) prio

/-! ## The Hold cache (R301-R305) -/

/-- The die of a board granule. -/
def dieOf (g : Nat) : Nat := g % 3

/-- The set of a board granule in its die. -/
def setOfGranule (g : Nat) : Nat := g / 3 % 65536

/-- Drop a Hold line with its dirty sectors discarded: board memory shows what it held (R304, R601). -/
def Work.discardLine (w : Work) (l : HoldLine) : Work :=
  let back (o : Nat) (stale : List Byte) (p : Bool) (w : Work) : Work :=
    let w := w.poke (l.granule * 256 + o) stale
    w.op (if p then .poison (l.granule * 2 + o / 128) else .clear (l.granule * 2 + o / 128))
  let w := if l.dirty0 then back 0 l.stale0 l.stalePoison0 w else w
  let w := if l.dirty1 then back 128 l.stale1 l.stalePoison1 w else w
  w.onMem fun m => { m with hold := m.hold.filter fun x => x.granule ≠ l.granule,
                            tag := if l.dirty0 || l.dirty1 then tset m.tag l.granule l.staleTag else m.tag }

/-- Drop a Hold line after writing it back (R301, R442). -/
def Work.writeBackLine (w : Work) (l : HoldLine) : Work :=
  let w := if l.dirty0 || l.dirty1 then (w.count 8 (dieOf l.granule) 3).busWrite l.berth l.granule 1 (l.dirty0 && l.dirty1) else w
  w.onMem fun m => { m with hold := m.hold.filter fun x => x.granule ≠ l.granule }

/-- Partitions a berth may allocate in on a die: its CACHE ways, else the POOL ways (R301). -/
def Work.ways (w : Work) (b die : Nat) : List Nat :=
  let ps := (List.range 16).map (· + 16 * die)
  let own := ps.filter fun p => (w.part p).mode = 1 && (w.part p).holder = b && !(w.part p).busy
  if own ≠ [] then own else ps.filter fun p => (w.part p).mode = 2 && !(w.part p).busy

/-- Mark the sectors that a write touches dirty, keeping what board memory holds of each. -/
def Work.dirtyLine (w : Work) (l : HoldLine) (a n : Nat) : HoldLine :=
  let touches (s : Nat) : Bool := (l.granule * 2 + s) ∈ partsOf 128 a n
  let g := l.granule * 256
  let l := { l with staleTag := if l.dirty0 || l.dirty1 then l.staleTag else w.tagOf g }
  let l := if touches 0 && !l.dirty0 then { l with dirty0 := true, stale0 := w.mem.bytes g 128, stalePoison0 := (l.granule * 2) ∈ w.mem.poison } else l
  if touches 1 && !l.dirty1 then { l with dirty1 := true, stale1 := w.mem.bytes (g + 128) 128, stalePoison1 := (l.granule * 2 + 1) ∈ w.mem.poison } else l

/-- Charge a passage through a Hold die: 128 bytes per sector (R333). -/
def Work.holdCharge (w : Work) (b a n prio g : Nat) : Work :=
  w.chargeAt b 1 (dieOf g) (128 * ((partsOf 128 a n).filter fun l => l / 2 = g).length) prio

/-- One granule of an access passes the Hold: a hit, an allocation, which evicts none but the berth's own least recently used line, or uncached (R301, R319). Rows that are retired hold nothing (R305). `merges` says that the operation reads what it writes (R322). -/
def Work.holdGranule (w : Work) (b slot gen a n : Nat) (write : Bool) (prio g : Nat) (merges : Bool := false) : Work :=
  let die := dieOf g
  let full := whole 256 a n g && !merges
  let uncached (w : Work) : Work :=
    let w := w.count 8 die 2
    if write then w.busWrite b g prio full else w.busRead b g prio
  let use (l : HoldLine) (w : Work) : Work :=
    let l := if write then w.dirtyLine l a n else l
    (w.holdCharge b a n prio g).onMem fun m => { m with hold := l :: m.hold.filter fun x => x.granule ≠ g }
  let fill (p : Nat) (w : Work) : Work :=
    let sectors := (partsOf 128 a n).filter fun l => l / 2 = g
    let w := w.count 8 die 1
    let w := if write && !merges && sectors.all (fun l => whole 128 a n l) then w else w.busRead b g prio
    use { granule := g, part := p, berth := b, slot := slot, gen := gen } w
  let miss (w : Work) : Work :=
    let set := setOfGranule g
    let ways := (w.ways b die).filter fun p => (p, set) ∉ w.hub.memory.rowsRetired
    if ways = [] || b ∈ w.hub.memory.purging then uncached w
    else
      let inSet := w.hub.memory.hold.filter fun l => dieOf l.granule = die && setOfGranule l.granule = set
      match ways.find? fun p => inSet.all fun l => l.part ≠ p with
      | some p => fill p w
      | none =>
        match (inSet.filter fun l => l.part ∈ ways && l.berth = b).getLast? with
        | some v => fill v.part (w.writeBackLine v)
        | none => uncached w
  if die ∈ w.hub.memory.diesOut then uncached w
  else match w.hub.memory.hold.find? fun l => l.granule = g with
    | some l => if l.slot = slot && l.gen = gen then use l (w.count 8 die 0) else miss (w.writeBackLine l)
    | none => miss w

/-- An access passes the controller of its memory: board memory through the Hold, Hold scratch, a host port's queue; each is charged (R301, R333, R338). -/
def Work.holdAccess (w : Work) (b slot gen a n : Nat) (write : Bool) (prio : Nat := 1) (merges : Bool := false) : Work :=
  if isBoard a then each (partsOf 256 a n) (fun g w => w.holdGranule b slot gen a n write prio g merges) w
  else match w.target a with
    | .scratch p => w.chargeAt b 1 (p / 16) (128 * (partsOf 128 a n).length) prio
    | .host p _ => w.chargeAt b (if write then 6 + p else 2 + p) 0 n prio
    | _ => w

/-! ## Chart units (R346-R353) -/

/-- Change the Chart units. -/
def Work.onChart (w : Work) (f : Chart → Chart) : Work := w.onHub fun h => { h with chart := f h.chart }

/-- TLB and walk-cache entries of a unit (R347). -/
def chartSize (u : Nat) : Nat × Nat :=
  if u < 16 then (4096, 256) else if u < 80 then (512, 64) else if u < 96 then (1024, 128)
  else if u < 128 then (256, 32) else if u = 128 then (2048, 128) else (256, 32)

/-- Lowest DVA bit indexed at a level, and the entries of its table (R349). -/
def levelLow (l : Nat) : Nat := [48, 39, 30, 21, 16].getD l 16

/-- The index a DVA has at a level (R349). -/
def levelIndex (l dva : Nat) : Nat := if l = 4 then bits dva 20 16 else bits dva (levelLow l + 8) (levelLow l)

/-- How a walk ends (R349-R353): a leaf with its size and address, or no translation, with what the Log records. -/
inductive WalkEnd where
  | leaf (e log2 addr : Nat)
  | unmapped (logCause : Option Nat) (addr lvl : Nat)
  deriving DecidableEq, Repr

/-- One table entry read as TABLE_BERTH under its own key slot at TKGEN (R353). -/
def Work.tableEntry (w : Work) (r : Root) (a : Nat) : Option Nat :=
  match w.target a with
  | .board _ =>
    if (w.channel (channelOf a)).isolated || !w.ownerPasses a r.tableBerth || w.poisoned a 16 then none
    else some (leNat (w.get r.tableBerth r.tkgen a 16))
  | _ => none

/-- The levels of a walk, from a level and its table; with the reads made, the last first, and the non-leaf entries found. -/
def Work.walkFrom (w : Work) (r : Root) (u b dva : Nat) : List Nat → Nat → List Nat → List WalkEntry → WalkEnd × List Nat × List WalkEntry
  | [], _, rs, es => (.unmapped none 0 0, rs, es)
  | l :: ls, table, rs, es =>
    let pfx := dva / 2 ^ levelLow l
    match w.hub.chart.walks.find? fun x => x.unit = u && x.berth = b && x.level = l && x.pfx = pfx with
    | some x => w.walkFrom r u b dva ls x.next rs es
    | none =>
      let a := table + 16 * levelIndex l dva
      match w.tableEntry r a with
      | none => (.unmapped (some 0) a l, a :: rs, es)
      | some e =>
        if !bit e 0 then (.unmapped none a l, a :: rs, es)
        else if bit e 1 then
          if l < 2 then (.unmapped none a l, a :: rs, es)
          else if bits e 115 80 % 2 ^ (levelLow l - 16) ≠ 0 then (.unmapped (some 0x801B) dva l, a :: rs, es)
          else (.leaf e (levelLow l) a, a :: rs, es)
        else
          let next := bits e 51 9 * 512
          if l = 4 || (l < 3 && next % 8192 ≠ 0) then (.unmapped none a l, a :: rs, es)
          else w.walkFrom r u b dva ls next (a :: rs) ({ unit := u, berth := b, level := l, pfx := pfx, table := table, next := next } :: es)

/-- The DPA of a DVA under a leaf of a size (R351). -/
def leafDpa (e log2 dva : Nat) : Nat := bits e 115 80 * 65536 / 2 ^ log2 * 2 ^ log2 + dva % 2 ^ log2

/-- Row 2 of R352: the leaf's CLASS disagrees with what its PA names. -/
def Work.classBad (w : Work) (e : Nat) : Bool :=
  let pa := bits e 115 80 * 65536
  let c := bits e 5 4
  if isBoard pa then c = 3 || c ≠ (w.region (pa / 2 ^ 30)).cls else c ≠ 3

/-- Walk and, when a valid leaf is found, fill the TLB and the walk cache (R347, R353). Each read of a table is one of TABLE_BERTH at priority 3 that passes the Hold. The Log events of R351-R353 and the counters of R367 follow. -/
def Work.walk (w : Work) (u b dva : Nat) : Option Tlb × Work :=
  let r := tget {} w.hub.chart.roots b
  if !r.valid then (none, w.count 12 u 4)
  else if w.keyGone r.tableBerth r.tkgen then
    (none, (w.log { cls := 0x0F, sev := 1, cause := 0x8008, unit := u, berth := some r.tableBerth, addr := r.l0 }).count 12 u 4)
  else
    let (en, rs, es) := w.walkFrom r u b dva [0, 1, 2, 3, 4] r.l0 [] []
    let w := (each rs.reverse (fun a w => w.holdAccess r.tableBerth r.tableBerth r.tkgen a 16 false 3) w).count 12 u 2 rs.length
    match en with
    | .unmapped cause a l =>
      let w := match cause with
        | some 0 => w.log { cls := 0x0C, sev := 2, cause := 2, unit := u, berth := some b, addr := a }
        | some c => w.log { cls := 0x0C, sev := 2, cause := c, unit := u, berth := some b, addr := a, detail := l }
        | none => w
      (none, w.count 12 u 4)
    | .leaf e log2 a =>
      if w.classBad e then
        (none, (w.log { cls := 0x0C, sev := 2, cause := 0x8007, unit := u, berth := some b, addr := dva }).count 12 u 5)
      else
        let t : Tlb := { unit := u, berth := b, base := dva / 2 ^ log2 * 2 ^ log2, log2 := log2, leaf := e, addr := a }
        let (nt, nw) := chartSize u
        let keep (k : Nat) (l : List Tlb) : List Tlb := (l.filter fun x => x.unit = u).take k ++ l.filter fun x => x.unit ≠ u
        let keepW (k : Nat) (l : List WalkEntry) : List WalkEntry := (l.filter fun x => x.unit = u).take k ++ l.filter fun x => x.unit ≠ u
        (some t, w.onChart fun c => { c with tlb := keep nt (t :: c.tlb), walks := keepW nw (es ++ c.walks) })

/-- A page of a berth is flip-, migrate- or rekey-pending at a DVA (R355, R363, R441). -/
def Work.pageHeld (w : Work) (b dva : Nat) : Bool :=
  w.hub.chart.holds.any fun p => p.berth = b && p.dva / 2 ^ p.log2 = dva / 2 ^ p.log2

/-- The result of a translation: a leaf and the DPA, a miss to be walked, a wait on a held page, or a status and DETAIL of R93. -/
inductive Xlate where
  | ok (leaf dpa : Nat)
  | miss
  | wait
  | bad (status detail : Nat)
  deriving DecidableEq, Repr

/-- What is asked of a page (R352): a write, ATOMIC or REDUCE; by a compute engine; by a coherent opcode. -/
structure Ask where
  write : Bool := false
  engine : Bool := true
  coherent : Bool := false

/-- The kind bit of a hot record by unit (R362). -/
def srcBit (u : Nat) : Nat := if u < 16 then 1 else if u < 80 then 2 else if u < 96 then 4 else if u < 128 then 8 else 0

/-- One access in 64 to a counted page adds 1 to its region (R361); a full table replaces its lowest count. -/
def Work.hotSample (w : Work) (u b dva e : Nat) : Work :=
  let n := tget 0 w.hub.chart.samples u + 1
  let w := w.onChart fun c => { c with samples := tset c.samples u (n % 64) }
  if n < 64 then w
  else
    let region := dva / 2 ^ 21
    let upd (x : Hot) : Hot := { x with count := min 0xFFFF (x.count + 1), cls := bits e 5 4, src := x.src ||| srcBit u, pa := bits e 115 80 }
    if w.hub.chart.hot.any fun x => x.berth = b && x.region = region then
      w.onChart fun c => { c with hot := c.hot.map fun x => if x.berth = b && x.region = region then upd x else x }
    else
      let new := upd { berth := b, region := region }
      if w.hub.chart.hot.length < 16384 then w.onChart fun c => { c with hot := new :: c.hot }
      else
        let low := w.hub.chart.hot.foldl (fun m x => min m x.count) 0xFFFF
        (w.onChart fun c => { c with hot := new :: c.hot.eraseP fun x => x.count = low }).count 13 0 0

/-- Rows 3, 4 and 6 of R352 and the key of R439 on a leaf that a unit holds. -/
def Work.leafCheck (w : Work) (u b dva e log2 : Nat) (q : Ask) : Xlate × Work :=
  let d := leafDpa e log2 dva
  if q.write && !bit e 2 then (.bad 3 2, w.count 12 u 6)
  else if q.write && q.engine && bits e 5 4 = 2 then (.bad 3 2, w.count 12 u 7)
  else if q.coherent && (match w.target d with | .window _ _ => true | _ => false) then (.bad 3 1, w.count 12 u 9)
  else
    let slot := if bit e 8 then 4096 + bits e 23 16 else b
    if isBoard d && w.keyGone slot (bits e 7 7) then
      (.bad 2 0, w.log { cls := 0x0F, sev := 1, cause := 0x8008, unit := u, berth := some b, addr := dva })
    else
      let w := if bit e 24 then w.count 12 u 8 else w
      (.ok e d, if bit e 25 then w.hotSample u b dva e else w)

/-- Translate a DVA at a unit. Site ports (units 0-15) hold the request on a miss until WALK_COMPLETE; the walk of any other unit, which stalls meanwhile, ends within the command (R347; log 17). -/
def Work.xlate (w : Work) (u b dva : Nat) (q : Ask) : Xlate × Work :=
  let walks (w : Work) : Work := w.onChart fun c => { c with pending := addTo c.pending (u, b, dva / 65536 * 65536) }
  if w.pageHeld b dva then (.wait, if u < 16 then walks w else w)
  else
    match w.hub.chart.tlb.find? fun t => t.unit = u && t.berth = b && t.base = dva / 2 ^ t.log2 * 2 ^ t.log2 with
    | some t => (w.count 12 u 0).leafCheck u b dva t.leaf t.log2 q
    | none =>
      let w := (w.count 12 u 1).viewCount b 8
      if u < 16 then (.miss, walks w)
      else
        let w := w.walkStall u
        match w.walk u b dva with
        | (none, w) => (.bad 2 0, w)
        | (some t, w) => w.leafCheck u b dva t.leaf t.log2 q

/-- Key slot and generation that a leaf names for a berth (R351, R439). -/
def leafKey (b e : Nat) : Nat × Nat := (if bit e 8 then 4096 + bits e 23 16 else b, bits e 7 7)

/-! ## Requests in the fabric -/

/-- Change the fabric. -/
def Work.onFabric (w : Work) (f : Fabric → Fabric) : Work := w.onHub fun h => { h with fabric := f h.fabric }

/-- A message is on its way: while the routing tables are re-formed, what was handed over since is not yet injected (R280). -/
def Work.injected (w : Work) (id : Nat) : Bool :=
  match w.hub.fabric.heldFrom with
  | none => true
  | some k => id < k

/-- Put a request into the fabric (R278). -/
def Work.issue (w : Work) (r : MemReq) : Work :=
  w.onFabric fun f => { f with nextId := f.nextId + 1, reqs := tset f.reqs f.nextId r }

/-- Put an answer for a site port into the fabric. -/
def Work.reply (w : Work) (r : Rsp) : Work :=
  w.onFabric fun f => { f with nextId := f.nextId + 1, rsps := tset f.rsps f.nextId r }

/-- Put a routed-token packet on the TOK network (R278). -/
def Work.sendTok (w : Work) (p : Packet) : Work :=
  w.onFabric fun f => { f with nextId := f.nextId + 1, toks := tset f.toks f.nextId p }

/-! ## Sites -/

/-- A site's record. -/
def Work.site (w : Work) (n : Nat) : Site := tget {} w.hub.sites n

/-- Change a site's record. -/
def Work.onSite (w : Work) (n : Nat) (f : Site → Site) : Work :=
  w.onHub fun h => { h with sites := tmod {} h.sites n f }

/-- Change a site's link. -/
def Work.onLink (w : Work) (n : Nat) (f : Link → Link) : Work := w.onSite n fun s => { s with link := f s.link }

/-- Change a site's protocol port. -/
def Work.onSPort (w : Work) (n : Nat) (f : SPort → SPort) : Work := w.onSite n fun s => { s with port := f s.port }

/-- Change a site's power record. -/
def Work.onSPower (w : Work) (n : Nat) (f : SPower → SPower) : Work := w.onSite n fun s => { s with power := f s.power }

/-- A bundle of a site. -/
def Work.bundle (w : Work) (n k : Nat) : Bundle := (w.site n).link.bundles.getD k {}

/-- Change a bundle of a site. -/
def Work.onBundle (w : Work) (n k : Nat) (f : Bundle → Bundle) : Work :=
  w.onLink n fun l => { l with bundles := l.bundles.modify k f }

/-- The site is in service: Full, Degraded or Limp (R574). -/
def siteServing (s : Site) : Bool := s.state = 1 || s.state = 2 || s.state = 3

/-- The site's stream carries messages: in service, or starting with its bundle layer up (R62 step 9). -/
def streamUp (s : Site) : Bool := siteServing s || (s.state = 6 && 9 ≤ s.link.step)

/-- Drive an output pin of a site. -/
def Work.sitePin (w : Work) (p : Pin) (v : Bool) : Work := w.emit (.pin p v)

/-- Send a sideband message (R63, R110). -/
def Work.sideband (w : Work) (n code payload : Nat) : Work := w.emit (.sideband n code payload)

/-- Active bundles of a direction that carry frames: 0-7 from the hub, 8-15 from the chiplet. -/
def activeBundles (l : Link) (fromHub : Bool) : List Nat :=
  ((List.range 8).map (· + if fromHub then 0 else 8)).filter fun k => (l.bundles.getD k {}).active

/-- A bundle carries frames now: active, and no retrain of it runs (R68). -/
def carries (b : Bundle) : Bool := b.active && !b.retraining

/-- The bundle that acknowledges bundle k, k + 8 or k - 8 while it carries frames, else one of the opposite direction that does, in turn (R56, R68). -/
def ackBundle (l : Link) (k : Nat) : Option Nat :=
  let o := (k + 8) % 16
  if carries (l.bundles.getD o {}) then some o
  else
    let others := (activeBundles l (o < 8)).filter fun j => carries (l.bundles.getD j {})
    if others = [] then none else others[l.ackTurn % others.length]?

/-- A frame (R52, R53): header, payload padded with zero, CRC. -/
def frameBytes (ftype bseq ackWord sseq : Nat) (payload : List Byte) : List Byte :=
  let hdr := pack [(4, ftype), (12, bseq), (16, ackWord % 2 ^ 16), (16, sseq), (1, ackWord / 2 ^ 16), (15, 0)]
  let body := leBytes 8 hdr ++ slice payload 0 1012
  body ++ leBytes 4 (crc32 body)

/-- The acknowledgement bits of a frame: ACK_SEQ, ACK_BUNDLE, NAK, and ACK_VALID at bit 16 (R53). -/
def ackBits (seq bundle : Nat) (nak : Bool) : Nat := pack [(12, seq), (3, bundle % 8), (1, b2n nak), (1, 1)]

/-- Send an idle frame with an acknowledgement of bundle k (R53, R56). -/
def Work.sendAck (w : Work) (n k : Nat) (nak : Bool) : Work :=
  let l := (w.site n).link
  match ackBundle l k with
  | none => w
  | some o =>
    let b := w.bundle n k
    let seq := (b.expBseq + 4095) % 4096
    let w := (w.onBundle n k fun b => { b with ackOwed := false }).onLink n fun l => { l with ackTurn := l.ackTurn + 1 }
    w.emit (.frame n o (frameBytes 1 0 (ackBits seq k nak) 0 []))

/-- The oldest unacknowledged SSEQ of the hub's direction lies less than 256 behind the next (R55). -/
def windowOpen (l : Link) : Bool :=
  let un := ((l.bundles.take 8).flatMap fun b => b.retry) ++ l.resend
  un.all fun f => (l.txSseq + 65536 - f.sseq) % 65536 < 256

/-- The bundle that takes the next frame: active bundles in ascending order, cyclically, skipping those retraining or with 64 unacknowledged frames (R55, R57). -/
def nextBundle (l : Link) : Option Nat :=
  let ok := (activeBundles l true).filter fun k =>
    let b := l.bundles.getD k {}
    !b.retraining && b.retry.length < 64
  match ok.find? fun k => l.txTurn ≤ k with
  | some k => some k
  | none => ok.head?

/-- Put a frame on a bundle with the acknowledgement it owes. -/
def Work.putFrame (w : Work) (n k : Nat) (f : TxFrame) : Work :=
  let o := w.bundle n (k + 8)
  let ack := if o.ackOwed then ackBits ((o.expBseq + 4095) % 4096) (k + 8) o.discarding else 0
  let w := if o.ackOwed then w.onBundle n (k + 8) fun b => { b with ackOwed := false } else w
  w.emit (.frame n k (frameBytes 0 f.bseq ack f.sseq f.payload))

/-- Put a payload with its SSEQ on the next bundle that takes a frame (R55); none takes one: the link as it is. -/
def Work.placeFrame (w : Work) (n sseq : Nat) (p : List Byte) (f : Link → Link) : Work :=
  let l := (w.site n).link
  match nextBundle l with
  | none => w
  | some k =>
    let x : TxFrame := { bseq := (l.bundles.getD k {}).nextBseq, sseq := sseq, payload := p }
    let w := w.onLink n fun l => { f l with txTurn := (k + 1) % 8 }
    let w := w.onBundle n k fun b => { b with nextBseq := (b.nextBseq + 1) % 4096, retry := b.retry ++ [x] }
    let w := w.onLink n fun l => { l with dataTimes := (w.now, 1) :: l.dataTimes }
    w.putFrame n k x

/-- Send frames that wait to be sent again (R68), then assign waiting payloads, while the windows allow (R55, R57); no new frame in limp entry (R70), nor while a kept bundle of either direction is replaced (log 125). -/
def Work.drainTx (w : Work) (n : Nat) : Nat → Work
  | 0 => w
  | fuel + 1 =>
    let l := (w.site n).link
    if l.limp ≠ .off && l.limp ≠ .on then w
    else match l.resend, l.txQueue with
      | f :: r, _ => (w.placeFrame n f.sseq f.payload fun l => { l with resend := r }).drainTx n fuel
      | [], p :: r =>
        if windowOpen l then (w.placeFrame n l.txSseq p fun l => { l with txQueue := r, txSseq := (l.txSseq + 1) % 65536 }).drainTx n fuel
        else w
      | [], [] => w

/-- Send what waits for frames at a site. -/
def Work.flush (w : Work) (n : Nat) : Work :=
  w.drainTx n ((w.site n).link.txQueue.length + (w.site n).link.resend.length)

/-- Put a message into a site's stream: it begins a frame, and PAD closes its last frame (R79, R80; log 18). -/
def Work.siteSend (w : Work) (n : Nat) (m : List Byte) : Work :=
  if !streamUp (w.site n) then w
  else (w.onLink n fun l => { l with txQueue := l.txQueue ++ chunks 1012 m }).flush n

/-- CMP (R91). -/
def cmpBytes (status tag berth detail : Nat) : List Byte :=
  leBytes 16 (pack [(8, 0x30), (4, status), (16, tag), (14, berth), (22, 0), (16, detail)])

/-- RD_DATA (R92); the data fills whole beats. -/
def rdDataBytes (status tag berth grant fmt dpa : Nat) (d : List Byte) : List Byte :=
  let beats := ceilDiv d.length 32
  leBytes 16 (pack [(8, 0x40), (4, status), (16, tag), (14, berth), (3, grant), (4, fmt), (4, beats), (11, 0), (52, dpa)])
    ++ slice d 0 (32 * beats)

/-- A snoop (R98): 0x20 SNP_INV, 0x21 SNP_SHARE, 0x22 SNP_CLEAN. -/
def snpBytes (op stag dpa : Nat) : List Byte :=
  leBytes 16 (pack [(8, op), (4, 0), (16, stag), (36, 0), (52, dpa)])

/-- HLM_NOTIFY (R108). -/
def notifyBytes (status tag berth value : Nat) : List Byte :=
  leBytes 16 (pack [(8, 0x61), (4, status), (16, tag), (14, berth), (54, 0), (32, value)])

/-- CREDIT (R84). -/
def creditBytes (c : Credits) : List Byte :=
  leBytes 16 (pack [(8, 2), (8, 0), (16, c.reqHdr), (16, c.reqData), (16, c.snpHdr), (16, c.tokHdr), (16, c.tokData), (16, c.hlmHdr)])

/-- INIT of the hub (R82, R85). -/
def initBytes (coh token helm : Bool) (packed : Nat) : List Byte :=
  leBytes 16 (pack [(8, 1), (8, 1), (1, b2n coh), (1, b2n token), (1, b2n helm), (5, packed)])
    ++ leBytes 32 (pack [(16, 1024), (16, 16384), (16, 0), (16, 64), (16, 8192), (16, 256)])

/-- ECHO with its beats (R81, R537). -/
def echoBytes (d : List Byte) : List Byte := leBytes 16 (pack [(8, 3), (4, 0), (12, d.length / 32)]) ++ d

/-- TOK_IN (R104). -/
def tokInBytes (h : TokHdr) (d : List Byte) : List Byte :=
  leBytes 16 (pack [(8, 0x50), (4, h.fmt), (12, h.beats), (4, 0), (14, h.berth), (12, h.expert), (3, h.rank), (1, 0), (6, 0), (32, h.token), (8, h.table)]) ++ d

/-- Add credits, each up to the bound of the other. -/
def addCredits (a b : Credits) : Credits :=
  { reqHdr := a.reqHdr + b.reqHdr, reqData := a.reqData + b.reqData, snpHdr := a.snpHdr + b.snpHdr,
    tokHdr := a.tokHdr + b.tokHdr, tokData := a.tokData + b.tokData, hlmHdr := a.hlmHdr + b.hlmHdr }

/-- The hub frees space: it returns the credits at once (R84). -/
def Work.giveBack (w : Work) (n : Nat) (c : Credits) : Work :=
  (w.onSPort n fun p => { p with toChip := addCredits p.toChip c }).siteSend n (creditBytes c)

/-- A site's request leaves the port with an answer: CMP (R91, R93). -/
def Work.siteCmp (w : Work) (n tag berth status detail : Nat) : Work :=
  w.reply { site := n, tag := tag, berth := berth, status := status, detail := detail }

end Sys2Proof.Machine
end

