-- ==== Sys2Proof/Machine/Formats.lean ====
section
/-! DEFINITION. The sparse and microscaled forms (05): element types, packed granules, zero-run, the checks of memory on a device access, and reads of device virtual memory by the hub's own units. -/

namespace Sys2Proof.Machine

/-! ## Element types (R150-R154) -/

/-- Bits of an element. -/
def eBits (t : Nat) : Nat :=
  if t = 0 then 32 else if t ≤ 2 then 16 else if t = 8 || t = 9 then 6 else if t = 10 then 4 else 8

/-- An MX type. -/
def isMx (t : Nat) : Bool := 6 ≤ t && t ≤ 11

/-- MX blocks of a granule (R153). -/
def mxBlocks (t : Nat) : Nat := if t = 10 then 14 else if t = 8 || t = 9 then 9 else 7

/-- Elements of a dense granule (R153, R154). -/
def granElems (t : Nat) : Nat := if isMx t then 32 * mxBlocks t else 2048 / eBits t

/-- First bit of the element area of a granule. -/
def elemBase (t : Nat) : Nat := if isMx t then 256 else 0

/-- The code of element j of a granule given as one word (R152, R154). -/
def elemOf (t g j : Nat) : Nat := g / 2 ^ (elemBase t + eBits t * j) % 2 ^ eBits t

/-- A granule from its scale bytes and element codes; unused bytes are zero (R153). -/
def granOf (t : Nat) (scales codes : List Nat) : List Byte :=
  (if isMx t then leBytes 32 (pack (scales.map fun s => (8, s))) else [])
    ++ leBytes (if isMx t then 224 else 256) (pack (codes.map fun c => (eBits t, c)))

/-- Scale bytes of an MX granule. -/
def scalesOf (t g : Nat) : List Nat := (List.range (mxBlocks t)).map fun b => g / 2 ^ (8 * b) % 256

/-- Beats of the mask area (R160). -/
def maskBeats (t : Nat) : Nat := ceilDiv (granElems t) 256

/-- Slot size in bytes under FORMAT 1 and 2 (R161). -/
def slotSize (t : Nat) : Nat := if !isMx t then 160 else if eBits t = 8 then 192 else 224

/-- Expand element codes from a mask and values: groups of n with room for `room` values each; mask bits past the room are absent, and counted (R162, R163). -/
def expandGroups (t n room : Nat) (mask values : Nat) (consecutive : Bool) : List Nat × Bool :=
  let groups := granElems t / n
  let step (acc : List Nat × Nat × Bool) (g : Nat) : List Nat × Nat × Bool :=
    let set := (List.range n).filter fun i => bit mask (g * n + i)
    let start := if consecutive then acc.2.1 else g * room
    let codes := (List.range n).map fun i =>
      match (set.take room).findIdx? fun x => x = i with
      | some k => values / 2 ^ (eBits t * (start + k)) % 2 ^ eBits t
      | none => 0
    (acc.1 ++ codes, acc.2.1 + min room set.length, acc.2.2 || room < set.length)
  let r := (List.range groups).foldl step ([], 0, false)
  (r.1, r.2.2)

/-- A stored granule of FORMAT 1, 2 or 4 expanded (R160, R162, R163); true when a mask overran. -/
def expandStored (fmt t : Nat) (s : List Byte) : List Byte × Bool :=
  let sb := if isMx t then 32 else 0
  let mask := leNat (slice s sb (32 * maskBeats t))
  let values := leNat (s.drop (sb + 32 * maskBeats t))
  let (codes, exceeds) :=
    if fmt = 1 then expandGroups t 4 2 mask values false
    else if fmt = 2 then expandGroups t 8 4 mask values false
    else expandGroups t 16 16 mask values true
  (granOf t (scalesOf t (leNat (slice s 0 sb))) codes, exceeds)

/-- Presence mask of a stored granule, one bit per element (R190). -/
def storedMask (t : Nat) (s : List Byte) : Nat :=
  leNat (slice s (if isMx t then 32 else 0) (32 * maskBeats t)) % 2 ^ granElems t

/-- Beats that a FORMAT 4 granule's masks call for (R163). -/
def packedBeats (t : Nat) (s : List Byte) : Nat :=
  let mask := storedMask t s
  (if isMx t then 1 else 0) + maskBeats t + ceilDiv ((ones mask (granElems t)).length * eBits t) 256

/-- Beats stored for a LEN of an index entry (R164). -/
def lenBeats (l : Nat) : Nat := if l = 0xF then 8 else l

/-- Tile granules (R166). -/
def tileGranules (t : Nat) : Nat :=
  if t = 0 then 16 else if t ≤ 2 then 8 else if t ≤ 5 then 4 else if eBits t = 8 then 5 else if eBits t = 6 then 4 else 3

/-! ## Zero-run (R169, R170) -/

/-- Decode records until n elements of s bytes are produced: the dense bytes and what is left, or none where the encoding is invalid. -/
def zeroRunAux (s : Nat) : Nat → Nat → List Byte → Option (List Byte × List Byte)
  | 0, n, bs => if n = 0 then some ([], bs) else none
  | fuel + 1, n, bs =>
    if n = 0 then some ([], bs)
    else match bs with
      | [] => none
      | c :: r =>
        let k := c.toNat % 128 + 1
        if n < k then none
        else if 128 ≤ c.toNat then
          match zeroRunAux s fuel (n - k) r with
          | some (d, l) => some (List.replicate (k * s) 0 ++ d, l)
          | none => none
        else if r.length < k * s then none
        else match zeroRunAux s fuel (n - k) (r.drop (k * s)) with
          | some (d, l) => some (r.take (k * s) ++ d, l)
          | none => none

/-- A zero-run payload expanded to n bytes of elements of s bytes (R169-R171). -/
def zeroRunDecode (s n : Nat) (bs : List Byte) : Option (List Byte) :=
  match zeroRunAux s (n / s) (n / s) bs with
  | some (d, l) => if l.all (· = 0) then some d else none
  | none => none

/-- The hub's encoder: runs of the greatest length (R170). -/
def zeroRunEncodeAux : Nat → List (List Byte) → List Byte
  | 0, _ => []
  | _, [] => []
  | fuel + 1, e :: r =>
    let zero (x : List Byte) : Bool := x.all (· = 0)
    let z := zero e
    let run := (e :: r).takeWhile fun x => zero x = z
    let k := min 128 run.length
    let head := BitVec.ofNat 8 ((k - 1) + if z then 128 else 0)
    (head :: if z then [] else (run.take k).flatten) ++ zeroRunEncodeAux fuel ((e :: r).drop k)

/-- Zero-run form of dense bytes when it is shorter in whole beats (R170). -/
def zeroRunEncode (s : Nat) (d : List Byte) : Option (List Byte) :=
  let es := chunks s d
  let c := zeroRunEncodeAux es.length es
  let n := ceilDiv c.length 32
  if n < ceilDiv d.length 32 then some (slice c 0 (32 * n)) else none

/-- Dense bytes of a token payload of a table's PTYPE (R171); none where its encoding is invalid. -/
def densePayload (ptype fmt beats : Nat) (p : List Byte) : Option (List Byte) :=
  if fmt = 5 then zeroRunDecode (eBits ptype / 8) (32 * beats) p
  else if p.length = 32 * beats then some p else none

/-- Two ranges meet. -/
def rangesMeet (a n b m : Nat) : Bool := a < b + m && b < a + n

/-! ## Checks of a device access at its memory (R298, R314, R354) -/

/-- A DPA lies in a partition of a Hold die that has failed: the router beside it answers (R281). -/
def Work.deadScratch (w : Work) (d : Nat) : Bool :=
  0x004000000000 ≤ d && d < 0x004030000000 && (d - 0x004000000000) / 2 ^ 28 ∈ w.hub.memory.diesOut

/-- What the memory of a DPA answers to a berth before it serves: none passes, else a status and DETAIL of R93. -/
def Work.accessCheck (w : Work) (b d : Nat) : Option (Nat × Nat) :=
  match w.target d with
  | .board _ =>
    if (w.channel (channelOf d)).isolated then some (4, 0)
    else if w.ownerPasses d b then none else some (3, 1)
  | .scratch p => if (w.part p).holder = b then none else some (3, 1)
  | .host p _ =>
    if !w.portUp p || (w.port p).state = 5 then some (7, 0)
    else if (w.port p).state = 1 then some (4, 0)
    else if !w.mayIssue { port := p, func := 0 } then some (7, 0)
    else match w.bindOf b with
      | some bd => if w.mayIssue { port := bd.port, func := bd.func } then none else some (7, 0)
      | none => none
  | .window _ _ => some (3, 1)
  | .nothing => if w.deadScratch d then some (4, 0) else some (3, 1)

/-- A request to host memory that Bus Master Enable refuses is counted at its port (R388, R395). -/
def Work.bmeCount (w : Work) (d status : Nat) : Work :=
  if status = 7 && isHost d && w.portUp (hostPort d) then w.count 14 (hostPort d) 26 else w

/-- Result of a device virtual access by a unit of the hub: the bytes and the virtual line numbers that are poisoned, a wait, or a status of R93 with its DETAIL and the offset at which it arose. -/
inductive DvaRes where
  | ok (data : List Byte) (poison : List Nat)
  | wait
  | bad (status detail : Nat) (at_ : Nat)
  deriving DecidableEq, Repr

/-- Translate at once, whatever the unit (the walk ends within the command; log 17). -/
def Work.xlateNow (w : Work) (u b dva : Nat) (q : Ask) : Xlate × Work :=
  match w.xlate u b dva q with
  | (.miss, w) =>
    match w.walk u b dva with
    | (none, w) => (.bad 2 0, w)
    | (some t, w) => w.leafCheck u b dva t.leaf t.log2 q
  | x => x

/-- Pieces of n bytes from a, none crossing a 256-byte boundary: offset and length. -/
def pieces (a n : Nat) : List (Nat × Nat) :=
  (partsOf 256 a n).map fun g =>
    let lo := max a (g * 256)
    (lo - a, min (a + n) (g * 256 + 256) - lo)

/-- Pieces of n bytes from a, none crossing a 128-byte line. -/
def linePieces (a n : Nat) : List (Nat × Nat) :=
  (partsOf 128 a n).map fun g =>
    let lo := max a (g * 128)
    (lo - a, min (a + n) (g * 128 + 128) - lo)

/-! ## Dense views (R156-R159, R172-R176) -/

/-- Fields of a pack descriptor. -/
def packFmt (p : Pack) : Nat := bits p.word 31 28
def packType (p : Pack) : Nat := bits p.word 51 48
def packDense (p : Pack) : Nat := bits p.word 120 64
def packCount (p : Pack) : Nat := bits p.word 159 128
def packCols (p : Pack) : Nat := bits p.word 175 160
def packStore (p : Pack) : Nat := bits p.word 248 192
def packIndex (p : Pack) : Nat := bits p.word 312 256

/-- The number of a descriptor (R156). -/
def packNum (p : Pack) : Nat := bits p.word 27 16

/-- The descriptor that a packed page names serves an address of a berth (R158). -/
def Work.packFor (w : Work) (b dva num : Nat) : Option Pack :=
  match tfind w.hub.packs num with
  | some p =>
    if p.berth = b && !p.removing && packDense p ≤ dva && dva < packDense p + 256 * packCount p then some p else none
  | none => none

/-- What R158 makes of an access under a leaf (row 5 of R352): ordinary memory, a read of a dense view, or a status and DETAIL. -/
inductive PackRow where
  | plain
  | dense (p : Pack)
  | bad (status detail : Nat)

/-- Row 5 of R352 for an access at a device virtual address. -/
def Work.packRow (w : Work) (b dva e : Nat) (write : Bool) : PackRow :=
  if !bit e 24 then .plain
  else match w.packFor b dva (bits e 39 28) with
    | none => .bad 2 0
    | some p => if packFmt p = 5 then .plain else if write then .bad 3 2 else .dense p

/-- What refuses a write at an address and its leaf: row 5 of R352, then the memory (R158, R354). -/
def Work.writeCheck (w : Work) (b dva e d : Nat) : Option (Nat × Nat) :=
  match w.packRow b dva e true with
  | .bad s t => some (s, t)
  | _ => w.accessCheck b d

/-- Descriptors in service that the pages of a range name, as a unit has translated them: what a read of it uses (R158, R159). -/
def Work.packsIn (w : Work) (u b dva n : Nat) : List Nat :=
  let named := (w.hub.chart.tlb.filter fun t => t.unit = u && t.berth = b && rangesMeet t.base (2 ^ t.log2) (dva % 2 ^ 57) n && bit t.leaf 24).map fun t => bits t.leaf 39 28
  named.filter fun k => match tfind w.hub.packs k with | some p => p.berth = b && !p.removing | none => false

/-- An access that began under descriptors goes on under them, removal or not (R159, R178). -/
def Work.underPacks (w : Work) (ps : List Nat) (f : Work → Work) : Work :=
  let going := (w.hub.packs.filter fun (k, p) => k ∈ ps && p.removing).map (·.1)
  let mark (v : Bool) (w : Work) : Work := w.onHub fun h => { h with packs := h.packs.map fun (k, p) => (k, if k ∈ going then { p with removing := v } else p) }
  if going = [] then f w else mark true (f (mark false w))

/-! ## Reads that pass the homes (R189, R284) -/

/-- The home of a line must act before a read finds its current value: it has failed, a site may hold it dirty, a transaction of it is open, or the host must be asked (R287, R293). -/
def Work.homeActs (w : Work) (e l : Nat) : Bool :=
  bit e 3 && (sliceOf (l * 128) ∈ w.hub.fabric.deadSlices || (w.hub.ledger.txns ++ w.hub.ledger.hostTxns).any (fun (k, _) => k = l) || (match tfind w.hub.ledger.entries l with
    | some x => x.st ≠ .S || isHost (l * 128) && x.shared && x.host = 0
    | none => bit e 6 && isHost (l * 128)))

/-- What a reader's fetch of an address has come to. -/
def Work.fetchOf (w : Work) (k : Agent × Nat) (dva : Nat) : Option Fetch :=
  (w.hub.fabric.fetches.find? fun (_, f) => f.owner = k.1 && f.tag = k.2 && f.dva = dva).map (·.2)

/-- A read of n bytes, none past a 256-byte boundary, goes to the homes of its lines or to a window, on REQ (R278, R284, R358). -/
def Work.fetchStart (w : Work) (k : Agent × Nat) (b dva n e d prio : Nat) : Work :=
  let (slot, gen) := leafKey b e
  let i := w.hub.fabric.nextId
  (w.onFabric fun f => { f with fetches := tset f.fetches i { owner := k.1, tag := k.2, dva := dva, dpa := d, data := List.replicate n 0 } }).issue
    { agent := .fetch i, kind := .read, tag := i, berth := b, prio := prio, bytes := n, dpa := d, dva := dva, slot := slot, gen := gen, shared := bit e 6 }

/-- A part of a fetch is answered: data, poisoned data, or a status that fails it. -/
def Work.fetchAnswer (w : Work) (i dpa status detail : Nat) (data : Option (List Byte)) : Work :=
  match tfind w.hub.fabric.fetches i with
  | none => w
  | some f =>
    let f := { f with left := f.left - 1, data := overlay f.data (dpa - f.dpa) (data.getD []) }
    let f := if status = 0 || 1 < f.status then f else { f with status := status, detail := detail }
    w.onFabric fun x => { x with fetches := tset x.fetches i f }

/-- What a reader has fetched under a tag is no longer wanted; an answer still to come finds nothing. -/
def Work.dropFetch (w : Work) (a : Agent) (tag : Nat) : Work :=
  w.onFabric fun f => { f with fetches := f.fetches.filter fun (_, x) => !(x.owner = a && x.tag = tag) }

/-- Read n bytes that cross no 256-byte boundary from ordinary device virtual memory of a berth through a unit (R188, R291, R408). With a reader named, what a home must settle first, or lies in a window, is fetched: the read waits until it has come. What a dense view gives is `view`'s. -/
def Work.readPiece (w : Work) (u b a n prio : Nat) (key : Option (Agent × Nat)) (view : Work → Pack → DvaRes × Work) : DvaRes × Work :=
  let lines := (partsOf 128 a n)
  match key.bind fun k => w.fetchOf k a with
  | some f =>
    if f.left ≠ 0 then (.wait, w)
    else if f.status = 0 then (.ok (slice f.data 0 n) [], w)
    else if f.status = 1 then (.ok (slice f.data 0 n) lines, w)
    else (.bad f.status f.detail 0, w)
  | none =>
    match w.xlateNow u b a {} with
    | (.wait, w) => (.wait, w)
    | (.miss, w) => (.wait, w)
    | (.bad s t, w) => (.bad s t 0, w)
    | (.ok e p, w) =>
      match w.packRow b a e false with
      | .bad s t => (.bad s t 0, w)
      | .dense p => view w p
      | .plain =>
        let far : Bool := match w.target p with | .window _ _ => true | _ => (partsOf 128 p n).any fun l => w.homeActs e l
        match (if far then key else none), w.accessCheck b p with
        | some k, _ => (.wait, w.fetchStart k b a n e p prio)
        | none, some (s, t) => (.bad s t 0, w.bmeCount p s)
        | none, none =>
          if w.memBusy p then (.wait, w)
          else
            let (slot, gen) := leafKey b e
            let w := (w.holdAccess b slot gen p n false prio).hostReqs .rdCurr p (if bit e 6 then 0 else n)
            let bad := (partsOf 128 p n).filter (· ∈ w.mem.poison)
            (.ok (w.get slot gen p n) (bad.map fun l => a / 128 + l - p / 128), w)

/-- Join the reads of pieces of n bytes from an address, in order, until one waits or fails. -/
def Work.joinReads (w : Work) (parts : List (Nat × Nat)) (dva : Nat) (read : Work → Nat → Nat → DvaRes × Work) : DvaRes × Work :=
  parts.foldl (fun (acc : DvaRes × Work) (o, len) =>
    match acc.1 with
    | .ok d ps =>
      match read acc.2 ((dva + o) % 2 ^ 57) len with
      | (.ok e qs, w) => (.ok (d ++ e) (ps ++ qs), w)
      | (.bad s t x, w) => (.bad s t (o + x), w)
      | (.wait, w) => (.wait, w)
    | r => (r, acc.2)) (.ok [] [], w)

/-- Read ordinary device virtual memory of a berth through a unit. -/
def Work.readPlain (w : Work) (u b dva n : Nat) (prio : Nat := 1) (key : Option (Agent × Nat) := none) : DvaRes × Work :=
  w.joinReads (pieces dva n) dva fun w a len => w.readPiece u b a len prio key fun w _ => (.bad 3 2 0, w)

/-! ## Stored forms (R160-R168, R172-R176) -/

/-- A granule of a dense view as its stored form gives it: the dense bytes, the presence mask, and the compressed form where there is one (R160-R168, R173, R190). `stored` says that it is stored dense. -/
structure DenseGran where
  dense : List Byte := []
  mask : Nat := 0
  packed : Option (List Byte) := none
  poison : Bool := false
  overrun : Bool := false
  stored : Bool := false

/-- The outcome of expanding one granule: the granule, a pack error (R176), the failure of a read, a wait for one. -/
inductive PackRes where
  | gran (g : DenseGran)
  | packError
  | fail (status detail : Nat)
  | wait

/-- An entry of the index or block map: a site's unpacker keeps the last 512, and counts a miss (R175, R177; log 136). -/
def Work.indexRead (w : Work) (u b : Nat) (p : Pack) (m a n prio : Nat) (key : Option (Agent × Nat)) : DvaRes × Work :=
  match (if u < 16 then (w.site u).port.ixCache.find? fun x => x.pack = packNum p && x.entry = m else none) with
  | some x => (.ok x.data [], w.onSPort u fun q => { q with ixCache := x :: q.ixCache.filter fun y => y ≠ x })
  | none =>
    match w.readPlain u b a n prio key with
    | (.ok d ps, w) =>
      if 16 ≤ u then (.ok d ps, w)
      else (.ok d ps, (w.count 1 u 6).onSPort u fun q =>
        { q with ixCache := if ps = [] then ({ pack := packNum p, entry := m, data := d } :: q.ixCache).take 512 else q.ixCache })
    | r => r

/-- The stream buffer keeps a granule of the stored form that the next dense granule may share: 64 at most (R175). -/
def Work.keepLine (w : Work) (u : Nat) (x : StreamLine) : Work :=
  w.onSPort u fun q => { q with stream := (x :: q.stream.filter fun y => !(y.pack = x.pack && y.gran = x.gran)).take 64 }

/-- Stored bytes of dense granule k: a site's unpacker reads whole granules, and takes from its stream buffer the one that the granule before it ended in (R175; log 136). -/
def Work.slotRead (w : Work) (u b : Nat) (p : Pack) (k a n prio : Nat) (key : Option (Agent × Nat)) : DvaRes × Work :=
  if 16 ≤ u then w.readPlain u b a n prio key
  else w.joinReads (pieces a n) a fun w x len =>
    let g := x / 256 * 256
    let mine (w : Work) (d : List Byte) (bad : List Nat) : DvaRes × Work :=
      (.ok (slice d (x % 256) len) (bad.filter fun l => l ∈ partsOf 128 x len), w.keepLine u { pack := packNum p, next := k + 1, gran := g, data := d, bad := bad })
    match (w.site u).port.stream.find? fun y => y.pack = packNum p && y.next = k && y.gran = g with
    | some y => mine w y.data y.bad
    | none =>
      match w.readPlain u b g 256 prio key with
      | (.ok d bad, w) => mine w d bad
      | r => r

/-- Use the bytes of a read of an index or block map; a failed read fails the granule, and a poisoned entry poisons all that it governs, with its mask counted as full (R176, R190). -/
def Work.withIndex (r : DvaRes × Work) (allOnes : Nat) (f : List Byte → Work → PackRes × Work) : PackRes × Work :=
  match r with
  | (.wait, w) => (.wait, w)
  | (.bad s d _, w) => (.fail s d, w)
  | (.ok e [], w) => f e w
  | (.ok _ _, w) => (.gran { dense := List.replicate 256 0, mask := allOnes, poison := true }, w)

/-- Use the bytes of a stored granule: one that its index places where nothing is mapped is a pack error (R176). -/
def Work.withSlot (r : DvaRes × Work) (placed : Bool) (f : List Byte → Bool → Work → PackRes × Work) : PackRes × Work :=
  match r with
  | (.wait, w) => (.wait, w)
  | (.bad s d _, w) => (if placed && s = 2 then .packError else .fail s d, w)
  | (.ok e bad, w) => f e (bad ≠ []) w

/-- Granule k of a dense view, read through a unit in a berth's tables at a priority (R160-R168, R172). -/
def Work.packGranule (w : Work) (u b : Nat) (p : Pack) (k : Nat) (prio : Nat := 1) (key : Option (Agent × Nat) := none) : PackRes × Work :=
  let t := packType p
  let allOnes := 2 ^ granElems t - 1
  let zeros := List.replicate 256 0
  match packFmt p with
  | 3 =>
    let T := tileGranules t
    let tile := k / T
    Work.withIndex (w.indexRead u b p (tile / 32) (packIndex p + 8 * (tile / 32)) 8 prio key) allOnes fun e w =>
      let ew := leNat e
      if !bit ew (tile % 32) then (.gran { dense := zeros, packed := some (slice (e ++ leBytes 4 tile) 0 32) }, w)
      else
        let ix := bits ew 63 32 + (ones (ew % 2 ^ (tile % 32)) 32).length
        Work.withSlot (w.readPlain u b ((packStore p + T * 256 * ix + 256 * (k % T)) % 2 ^ 57) 256 prio key) true fun d bad w =>
          (.gran { dense := d, mask := allOnes, poison := bad, stored := true }, w)
  | 4 =>
    Work.withIndex (w.indexRead u b p (k / 8) (packIndex p + 16 * (k / 8)) 16 prio key) allOnes fun e w =>
      let ew := leNat e
      let lens := (List.range 8).map fun g => bits ew (39 + 4 * g) (36 + 4 * g)
      let l := lens.getD (k % 8) 0
      let off := bits ew 35 0 + ((lens.take (k % 8)).map lenBeats).sum
      if l = 0 then (.gran { dense := zeros, packed := some (List.replicate (32 * ((if isMx t then 1 else 0) + maskBeats t)) 0) }, w)
      else if 9 ≤ l && l ≤ 14 then (.packError, w)
      else Work.withSlot (w.slotRead u b p k ((packStore p + 32 * off) % 2 ^ 57) (32 * lenBeats l) prio key) true fun d bad w =>
        if bad then (.gran { dense := zeros, mask := allOnes, poison := true }, w)
        else if l = 0xF then (.gran { dense := d, mask := allOnes, stored := true }, w)
        else if packedBeats t d ≠ l then (.packError, w)
        else (.gran { dense := (expandStored 4 t d).1, mask := storedMask t d, packed := some d }, w)
  | f =>
    Work.withSlot (w.slotRead u b p k ((packStore p + k * slotSize t) % 2 ^ 57) (slotSize t) prio key) false fun d bad w =>
      let (x, exceeds) := expandStored f t d
      (.gran { dense := x, mask := if bad then allOnes else storedMask t d, packed := some d, poison := bad, overrun := exceeds }, w)

/-- A pack error stands in the Log with the number of the descriptor and the granule (R176). -/
def Work.packLog (w : Work) (u b : Nat) (p : Pack) (k : Nat) : Work :=
  w.log { cls := 4, sev := 2, cause := 0, unit := u, berth := some b, addr := k, detail := packNum p }

/-- Bytes of one granule of a dense view for a unit of the hub that takes dense data (R158, R176). -/
def Work.readDense (w : Work) (u b : Nat) (p : Pack) (a n prio : Nat) (key : Option (Agent × Nat)) : DvaRes × Work :=
  let k := (a - packDense p) / 256
  match w.packGranule u b p k prio key with
  | (.gran g, w) => (.ok (slice g.dense (a % 256) n) (if g.poison then partsOf 128 a n else []), w)
  | (.packError, w) => let (d, w) := (w.packLog u b p k).junk n; (.ok d (partsOf 128 a n), w)
  | (.fail s d, w) => (.bad s d 0, w)
  | (.wait, w) => (.wait, w)

/-- Read device virtual memory of a berth through a unit: the bytes, and the virtual line numbers that are poisoned (R188, R291, R408). A dense view reads as its granules expand (R158, R352). -/
def Work.readDva (w : Work) (u b dva n : Nat) (prio : Nat := 1) (key : Option (Agent × Nat) := none) : DvaRes × Work :=
  w.joinReads (pieces dva n) dva fun w a len => w.readPiece u b a len prio key fun w p => w.readDense u b p a len prio key

/-- Write device virtual memory of a berth through a unit; the virtual lines listed are written poisoned (R185, R188). A dense view of FORMAT 1-4 is read-only (R158, R159). -/
def Work.writeDva (w : Work) (u b dva : Nat) (d : List Byte) (poison : List Nat := []) (engine : Bool := true) : DvaRes × Work :=
  (if poison = [] then pieces dva d.length else linePieces dva d.length).foldl (fun (acc : DvaRes × Work) (o, len) =>
    match acc.1 with
    | .ok _ _ =>
      match acc.2.xlateNow u b ((dva + o) % 2 ^ 57) { write := true, engine := engine } with
      | (.wait, w) => (.wait, w)
      | (.miss, w) => (.wait, w)
      | (.bad s t, w) => (.bad s t o, w)
      | (.ok e a, w) =>
        match w.writeCheck b ((dva + o) % 2 ^ 57) e a with
        | some (s, t) => (.bad s t o, w.bmeCount a s)
        | none =>
         if w.memBusy a then (.wait, w)
         else
          let (slot, gen) := leafKey b e
          let w := (w.holdAccess b slot gen a len true).hostReqs .wrCur a (if bit e 6 then 0 else len)
          (.ok [] [], w.put slot gen a (slice d o len) (decide ((dva + o) / 128 ∈ poison)))
    | r => (r, acc.2)) (.ok [] [], w)

end Sys2Proof.Machine
end

