-- ==== Sys2Proof/Machine/Numeric.lean ====
section
/-! DEFINITION. Arithmetic (R213-R224, R320, R321): exact values, one rounding, the element types, the special functions within their bounds. -/

namespace Sys2Proof.Machine

/-! ## Exact values (R213) -/

/-- An exact value: NaN, an infinity, or sign, magnitude and binary exponent. -/
inductive Val where
  | nan
  | inf (neg : Bool)
  | fin (neg : Bool) (m : Nat) (e : Int)
  deriving DecidableEq, Repr

/-- Bits of a natural number. -/
def bitLen (n : Nat) : Nat := if n = 0 then 0 else Nat.log2 n + 1

/-- m over 2^k rounded (R214): 0 nearest even, 1 toward zero, 2 toward minus infinity, 3 toward plus infinity. -/
def shiftRound (rnd : Nat) (neg : Bool) (m k : Nat) : Nat :=
  let q := m / 2 ^ k
  let r := m % 2 ^ k
  let up := match rnd with
    | 0 => 2 ^ k < 2 * r || (2 * r = 2 ^ k && q % 2 = 1)
    | 1 => false
    | 2 => neg && r ≠ 0
    | _ => !neg && r ≠ 0
  q + b2n up

/-- A binary format: precision, the exponents of its smallest and largest units in the last place, and the largest significand at the latter. -/
structure BinFmt where
  p : Nat
  qmin : Int
  qmax : Int
  maxM : Nat

/-- The format of an element type (R150, R151); INT8 has none. -/
def binFmt (t : Nat) : BinFmt :=
  match t with
  | 0 => { p := 24, qmin := -149, qmax := 104, maxM := 2 ^ 24 - 1 }
  | 1 => { p := 8, qmin := -133, qmax := 120, maxM := 255 }
  | 2 => { p := 11, qmin := -24, qmax := 5, maxM := 2047 }
  | 3 | 6 => { p := 4, qmin := -9, qmax := 5, maxM := 14 }
  | 4 | 7 => { p := 3, qmin := -16, qmax := 13, maxM := 7 }
  | 8 => { p := 4, qmin := -3, qmax := -1, maxM := 15 }
  | 9 => { p := 3, qmin := -4, qmax := 2, maxM := 7 }
  | 10 => { p := 2, qmin := -1, qmax := 1, maxM := 3 }
  | _ => { p := 7, qmin := -6, qmax := -6, maxM := 127 }

/-- Significand and unit exponent of a magnitude rounded to a format's precision; the exponent has no upper bound. -/
def roundMag (f : BinFmt) (rnd : Nat) (neg : Bool) (m : Nat) (e : Int) : Nat × Int :=
  let q := max f.qmin ((bitLen m : Int) + e - f.p)
  let x := if q ≤ e then m * 2 ^ (e - q).toNat else shiftRound rnd neg m (q - e).toNat
  if x = 2 ^ f.p then (2 ^ (f.p - 1), q + 1) else (x, q)

/-- A rounded magnitude passes the largest of its format. -/
def overflows (f : BinFmt) (x : Nat × Int) : Bool := f.qmax < x.2 || (x.2 = f.qmax && f.maxM < x.1)

/-- The code of a magnitude: sign apart. -/
def magCode (f : BinFmt) (x : Nat × Int) : Nat := (x.2 - f.qmin).toNat * 2 ^ (f.p - 1) + x.1

/-- The sign bit of a code. -/
def signBit (t : Nat) (neg : Bool) : Nat := if neg then 2 ^ (eBits t - 1) else 0

/-- The canonical NaN of a type (R216, R217). -/
def nanCode (t : Nat) : Nat :=
  match t with
  | 0 => 0x7FC00000
  | 1 => 0x7FC0
  | 2 => 0x7E00
  | 3 => 0x7F
  | 4 => 0x7E
  | _ => 0

/-- The code of the largest finite magnitude. -/
def maxCode (t : Nat) : Nat := magCode (binFmt t) ((binFmt t).maxM, (binFmt t).qmax)

/-- The code of infinity. -/
def infCode (t : Nat) : Nat := maxCode t + 1

/-- A value rounded to a whole number (R217). -/
def toInteger (rnd : Nat) (neg : Bool) (m : Nat) (e : Int) : Int :=
  let x := if 0 ≤ e then m * 2 ^ e.toNat else shiftRound rnd neg m (-e).toNat
  if neg then -(x : Int) else x

/-- An integer kept within signed w bits. -/
def satInt (w : Nat) (i : Int) : Int := max (-(2 ^ (w - 1) : Nat)) (min ((2 ^ (w - 1) : Nat) - 1) i)

/-- A value rounded once to a plain type (R213-R217): its code. -/
def encodeVal (t rnd : Nat) (sat : Bool) (v : Val) : Nat :=
  let f := binFmt t
  if t = 5 then
    match v with
    | .nan => 0
    | .inf neg => if neg then 0x80 else 0x7F
    | .fin neg m e => unsignedOf 8 (satInt 8 (toInteger rnd neg m e))
  else match v with
    | .nan => nanCode t
    | .inf neg => if t = 3 then (if sat then signBit t neg + maxCode t else nanCode t) else signBit t neg + infCode t
    | .fin neg m e =>
      if m = 0 then signBit t neg
      else
        let x := roundMag f rnd neg m e
        if !overflows f x then signBit t neg + magCode f x
        else if sat then signBit t neg + maxCode t
        else if t = 3 then nanCode t
        else
          let away := match rnd with | 0 => true | 1 => false | 2 => neg | _ => !neg
          signBit t neg + if away then infCode t else maxCode t

/-- An integer as a value. -/
def ofInt (i : Int) : Val := .fin (decide (i < 0)) i.natAbs 0

/-- The exact value of an element's code; MXINT8 counts units of 2^-6 (R231, R232). -/
def decodeElem (t c : Nat) : Val :=
  let f := binFmt t
  if t = 5 then ofInt (signedOf 8 c)
  else if t = 11 then .fin (decide (signedOf 8 c < 0)) (signedOf 8 c).natAbs (-6)
  else
    let w := eBits t
    let neg := bit c (w - 1)
    let a := c % 2 ^ (w - 1)
    let ef := a / 2 ^ (f.p - 1)
    let top := 2 ^ (w - f.p) - 1
    let special := (t = 0 || t = 1 || t = 2 || t = 4 || t = 7) && ef = top
    if special then (if a % 2 ^ (f.p - 1) = 0 then .inf neg else .nan)
    else if (t = 3 || t = 6) && a = 0x7F then .nan
    else if ef = 0 then .fin neg a f.qmin
    else .fin neg (2 ^ (f.p - 1) + a % 2 ^ (f.p - 1)) (f.qmin + ef - 1)

/-- A value times a power of two. -/
def scaleVal (v : Val) (k : Int) : Val :=
  match v with
  | .fin neg m e => .fin neg m (e + k)
  | x => x

/-- An element with its E8M0 scale code (R151, R232). -/
def decodeScaled (t scale c : Nat) : Val :=
  if scale = 0xFF then .nan else scaleVal (decodeElem t c) ((scale : Int) - 127)

/-- The value of an FP32 code. -/
def f32 (c : Nat) : Val := decodeElem 0 c

/-- A value rounded to FP32 nearest even: its code. -/
def r32 (v : Val) : Nat := encodeVal 0 0 false v

/-- A value rounded to FP32 nearest even, as a value. -/
def v32 (v : Val) : Val := f32 (r32 v)

/-! ## Exact operations -/

def Val.isNan : Val → Bool
  | .nan => true
  | _ => false

def Val.isInf : Val → Bool
  | .inf _ => true
  | _ => false

def Val.isZero : Val → Bool
  | .fin _ m _ => m = 0
  | _ => false

def Val.neg : Val → Bool
  | .nan => false
  | .inf s => s
  | .fin s _ _ => s

/-- The value with its sign replaced. -/
def withSign (s : Bool) : Val → Val
  | .nan => .nan
  | .inf _ => .inf s
  | .fin _ m e => .fin s m e

/-- The value negated. -/
def negVal (v : Val) : Val := withSign (!v.neg) v

/-- The magnitude of a value. -/
def absVal (v : Val) : Val := withSign false v

/-- A finite value in units of 2^q, for q no greater than its exponent. -/
def unitsOf (q : Int) : Val → Int
  | .fin s m e => let x : Int := (m * 2 ^ (e - q).toNat : Nat); if s then -x else x
  | _ => 0

/-- Least exponent of a list of values. -/
def leastExp (l : List Val) : Int :=
  l.foldl (fun q v => match v with | .fin _ _ e => min q e | _ => q) 0

/-- The exact sum of a list; an exact zero takes its sign from R215. -/
def sumVal (rnd : Nat) (l : List Val) : Val :=
  if l.any Val.isNan then .nan
  else
    let pos := l.any fun v => v.isInf && !v.neg
    let neg := l.any fun v => v.isInf && v.neg
    if pos && neg then .nan
    else if pos then .inf false
    else if neg then .inf true
    else
      let q := leastExp l
      let s := (l.map (unitsOf q)).sum
      if s = 0 then .fin (if l.all fun v => v.neg then true else if l.all fun v => v.isZero && !v.neg then false else rnd = 2) 0 0
      else .fin (decide (s < 0)) s.natAbs q

/-- The exact sum of two values. -/
def addVal (rnd : Nat) (a b : Val) : Val := sumVal rnd [a, b]

/-- The exact product. -/
def mulVal (a b : Val) : Val :=
  match a, b with
  | .nan, _ => .nan
  | _, .nan => .nan
  | .inf s, y => if y.isZero then .nan else .inf (s ^^ y.neg)
  | x, .inf s => if x.isZero then .nan else .inf (s ^^ x.neg)
  | .fin s m e, .fin t n d => .fin (s ^^ t) (m * n) (e + d)

/-- The quotient, with more bits than any format holds and a last bit that says whether it is inexact. -/
def divVal (a b : Val) : Val :=
  match a, b with
  | .nan, _ => .nan
  | _, .nan => .nan
  | .inf _, .inf _ => .nan
  | .inf s, y => .inf (s ^^ y.neg)
  | x, .inf s => .fin (s ^^ x.neg) 0 0
  | .fin s m e, .fin t n d =>
    if n = 0 then (if m = 0 then .nan else .inf (s ^^ t))
    else
      let k := 96 + bitLen n
      let q := m * 2 ^ k / n
      .fin (s ^^ t) (2 * q + b2n (m * 2 ^ k % n ≠ 0)) (e - d - k - 1)

/-- Integer square root, bit by bit from 2^(n-1). -/
def isqrtAux (x : Nat) : Nat → Nat → Nat
  | 0, r => r
  | n + 1, r => isqrtAux x n (if (r + 2 ^ n) * (r + 2 ^ n) ≤ x then r + 2 ^ n else r)

/-- Integer square root. -/
def isqrt (x : Nat) : Nat := isqrtAux x (bitLen x / 2 + 1) 0

/-- The square root, with a last bit that says whether it is inexact (R223, R224). -/
def sqrtVal (v : Val) : Val :=
  match v with
  | .nan => .nan
  | .inf s => if s then .nan else .inf false
  | .fin s m e =>
    if m = 0 then .fin s 0 0
    else if s then .nan
    else
      let k := 200 + bitLen m + (if (e - bitLen m) % 2 = 0 then 0 else 1)
      let x := m * 2 ^ k
      let r := isqrt x
      .fin false (2 * r + b2n (r * r ≠ x)) ((e - k) / 2 - 1)

/-- Exact comparison of two values that are no NaN: a below b; zeros are equal. -/
def ltVal (a b : Val) : Bool :=
  match a, b with
  | .inf s, .inf t => s && !t
  | .inf s, _ => s
  | _, .inf t => !t
  | x, y => let q := leastExp [x, y]; unitsOf q x < unitsOf q y

/-- Equal values that are no NaN. -/
def eqVal (a b : Val) : Bool := !ltVal a b && !ltVal b a

/-- IEEE 754-2019 maximum: a NaN gives NaN, -0 counts below +0 (R221). -/
def maxVal (a b : Val) : Val :=
  if a.isNan || b.isNan then .nan
  else if ltVal a b then b else if ltVal b a then a else if a.neg then b else a

/-- IEEE 754-2019 minimum. -/
def minVal (a b : Val) : Val :=
  if a.isNan || b.isNan then .nan
  else if ltVal a b then a else if ltVal b a then b else if a.neg then a else b

/-- maximumNumber and minimumNumber (R221). -/
def maxNum (a b : Val) : Val := if a.isNan then b else if b.isNan then a else maxVal a b
def minNum (a b : Val) : Val := if a.isNan then b else if b.isNan then a else minVal a b

/-! ## Special functions (R223, R224) -/

/-- Fraction bits of the fixed-point working form. -/
def fixBits : Nat := 512

/-- One in the working form. -/
def fixOne : Int := (2 ^ fixBits : Nat)

/-- Product in the working form. -/
def fixMul (a b : Int) : Int := a * b / fixOne

/-- Quotient in the working form. -/
def fixDiv (a b : Int) : Int := if b = 0 then 0 else a * fixOne / b

/-- Terms of a power series of the exponential from term i on. -/
def expSeries (r : Int) : Nat → Nat → Int → Int → Int
  | 0, _, _, acc => acc
  | n + 1, i, t, acc => expSeries r n (i + 1) (fixMul t r / (i : Int)) (acc + t)

/-- Terms of the series of artanh: z^(2i+1) over 2i+1. -/
def artanhSeries (z2 : Int) : Nat → Nat → Int → Int → Int
  | 0, _, _, acc => acc
  | n + 1, i, t, acc => artanhSeries z2 n (i + 1) (fixMul t z2) (acc + t / (2 * i + 1 : Nat))

/-- ln 2 in the working form: 2 artanh (1/3). -/
def fixLn2 : Int := 2 * artanhSeries (fixOne / 9) 200 0 (fixOne / 3) 0

/-- e^x in the working form as a mantissa in [1, 2) and a power of two. -/
def fixExp (x : Int) : Int × Int :=
  let k := x / fixLn2
  (expSeries (x - k * fixLn2) 120 1 fixOne 0, k)

/-- e^x in the working form for x at most 0. -/
def fixExpNeg (x : Int) : Int :=
  let (m, k) := fixExp x
  m / (2 ^ (-k).toNat : Nat)

/-- A finite value in the working form; below its last bit it is cut. -/
def toFix : Val → Int
  | .fin s m e =>
    let x : Int := (if 0 ≤ e + fixBits then m * 2 ^ (e + fixBits).toNat else m / 2 ^ (-(e + fixBits)).toNat : Nat)
    if s then -x else x
  | _ => 0

/-- A number of the working form as a value, marked inexact. -/
def ofFix (x : Int) : Val := .fin (decide (x < 0)) (2 * x.natAbs + 1) (-(fixBits : Int) - 1)

/-- ln of a positive finite magnitude m times 2^e. -/
def fixLn (m : Nat) (e : Int) : Int :=
  let k : Int := (bitLen m : Int) - 1
  let x : Int := if k ≤ fixBits then m * 2 ^ ((fixBits : Int) - k).toNat else m / 2 ^ (k - fixBits).toNat
  let z := fixDiv (x - fixOne) (x + fixOne)
  2 * artanhSeries (fixMul z z) 180 0 z 0 + (e + k) * fixLn2

/-- Pi by Machin's formula: terms of arctan(1/n). -/
def arctanSeries (n2 : Int) : Nat → Nat → Int → Int → Int
  | 0, _, _, acc => acc
  | n + 1, i, t, acc => arctanSeries n2 n (i + 1) (t / n2) (if i % 2 = 0 then acc + t / (2 * i + 1 : Nat) else acc - t / (2 * i + 1 : Nat))

/-- Pi in the working form. -/
def fixPi : Int := 16 * arctanSeries 25 120 0 (fixOne / 5) 0 - 4 * arctanSeries 57121 40 0 (fixOne / 239) 0

/-- Terms of the series of erf. -/
def erfSeries (z2 : Int) : Nat → Nat → Int → Int → Int
  | 0, _, _, acc => acc
  | n + 1, i, t, acc => erfSeries z2 n (i + 1) (fixMul t z2 / ((i : Int) + 1)) (if i % 2 = 0 then acc + t / (2 * i + 1 : Nat) else acc - t / (2 * i + 1 : Nat))

/-- The normal distribution function; 0 or all but 1 past 14. -/
def fixPhi (x : Int) : Int :=
  if 14 * fixOne < x then fixOne - 1
  else if x < -(14 * fixOne) then 0
  else
    let root2 : Int := (isqrt (2 * 2 ^ (2 * fixBits)) : Nat)
    let rootPi : Int := (isqrt ((fixPi * fixOne).toNat) : Nat)
    let z := fixDiv x root2
    (fixOne + fixDiv (2 * erfSeries (fixMul z z) 700 0 z 0) rootPi) / 2

/-- 1 over 1 + e^-x, below 1. -/
def fixSigmoid (x : Int) : Int :=
  let y := if x < 0 then x else -x
  let t := if y < -(300 * fixOne) then 0 else fixExpNeg y
  if x < 0 then fixDiv t (fixOne + t) else min (fixOne - 1) (fixDiv fixOne (fixOne + t))

/-- tanh x, of magnitude below 1. -/
def fixTanh (x : Int) : Int :=
  let y := if x < 0 then x else -x
  let t := if y < -(300 * fixOne) then 0 else fixExpNeg (2 * y)
  let r := min (fixOne - 1) (fixDiv (fixOne - t) (fixOne + t))
  if x < 0 then -r else r

/-- A key of an operand for the error of a function. -/
def valKey : Val → Nat
  | .nan => 0
  | .inf s => 1 + b2n s
  | .fin s m e => 3 + (m * 2 ^ 14 + (e + 8192).toNat) * 2 + b2n s

/-- A positive value too large, or too small, for any format: it overflows, or lies below the least magnitude. -/
def hugeVal : Val := .fin false 1 8192
def tinyVal : Val := .fin false 1 (-8192)

/-- A value of a magnitude a little below another's. -/
def justBelow : Val → Val
  | .fin s m e => .fin s (m * 2 ^ 600 - 1) (e - 600)
  | v => v

/-- An FP32 approximation of an exact value within n units in the last place, or within 2^-28 where `loose` is set and that is more: which one is not stated (R223; log 14). Its exponent has no upper bound: whether a result overflows is for its one rounding to say (R217). -/
def approxVal (fn key n : Nat) (loose : Bool) (x : Val) : Val :=
  match x with
  | .fin s m e =>
    let f := binFmt 0
    let (b, q) := if m = 0 then (0, f.qmin) else roundMag f 1 s m e
    let far := if loose && q < -28 then 2 ^ (-28 - q).toNat else 0
    let hi : Int := max n far
    let lo : Int := if ltVal (.fin s b q) (.fin s m e) || ltVal (.fin s m e) (.fin s b q) then hi - 1 else hi
    let err := (Config.ulpError fn key) % (lo + hi + 1) - lo
    let y := (b : Int) + err
    let y := if loose then y else max 0 y
    let (c, p) := roundMag f 1 false y.natAbs q
    if y < 0 then .fin (!s) c p else .fin s c p
  | v => v

/-- FP32 approximation of e^v (R223, R224). -/
def expVal (v : Val) : Val :=
  match v with
  | .nan => .nan
  | .inf s => if s then .fin false 0 0 else .inf false
  | .fin s m e =>
    if m = 0 then .fin false 1 0
    else if 12 < (bitLen m : Int) + e then approxVal 0x20 (valKey v) 2 false (if s then tinyVal else hugeVal)
    else
      let (y, k) := fixExp (toFix (.fin s m e))
      approxVal 0x20 (valKey v) 2 false (.fin false (2 * y.natAbs + 1) (k - fixBits - 1))

/-- FP32 approximation of 2^v. -/
def exp2Val (v : Val) : Val :=
  match v with
  | .nan => .nan
  | .inf s => if s then .fin false 0 0 else .inf false
  | .fin s m e =>
    if m = 0 then .fin false 1 0
    else if 12 < (bitLen m : Int) + e then approxVal 0x21 (valKey v) 2 false (if s then tinyVal else hugeVal)
    else
      let x := toFix (.fin s m e)
      let k := x / fixOne
      let r := x - k * fixOne
      let (y, j) := fixExp (fixMul r fixLn2)
      let exact : Val := if r = 0 then .fin false 1 k else .fin false (2 * y.natAbs + 1) (k + j - fixBits - 1)
      approxVal 0x21 (valKey v) 2 false exact

/-- FP32 approximation of ln v: within 2^-24 inside [0.5, 2], where it is rounded towards the exact value. -/
def logVal (v : Val) : Val :=
  match v with
  | .nan => .nan
  | .inf s => if s then .nan else .inf false
  | .fin s m e =>
    if m = 0 then .inf true
    else if s then .nan
    else
      let x := fixLn m e
      let near := !ltVal v (.fin false 1 (-1)) && !ltVal (.fin false 1 1) v
      if near then
        let err := Config.ulpError 0x22 (valKey v) % (2 ^ 489 - 2 ^ 21 + 1 : Nat) - (2 ^ 488 - 2 ^ 20 : Nat)
        f32 (encodeVal 0 (if err < 0 then 3 else 2) false (ofFix (x + err)))
      else approxVal 0x22 (valKey v) 2 false (ofFix x)

/-- 1 over v, exact but for its last bit (R224). -/
def recipVal (v : Val) : Val := divVal (.fin false 1 0) v

/-- FP32 approximation of 1 over the square root of v. -/
def rsqrtVal (v : Val) : Val :=
  match v with
  | .nan => .nan
  | .inf s => if s then .nan else .fin false 0 0
  | .fin s m _ =>
    if m = 0 then .inf s
    else if s then .nan
    else approxVal 0x25 (valKey v) 1 false (recipVal (sqrtVal v))

/-- FP32 approximation of tanh v. -/
def tanhVal (v : Val) : Val :=
  match v with
  | .nan => .nan
  | .inf s => .fin s 1 0
  | .fin s m e =>
    if m = 0 then v
    else if 9 < (bitLen m : Int) + e then approxVal 0x26 (valKey v) 2 false (justBelow (.fin s 1 0))
    else approxVal 0x26 (valKey v) 2 false (ofFix (fixTanh (toFix (.fin s m e))))

/-- FP32 approximation of 1 over 1 + e^-v. -/
def sigmoidVal (v : Val) : Val :=
  match v with
  | .nan => .nan
  | .inf s => if s then .fin false 0 0 else .fin false 1 0
  | .fin s m e =>
    if m = 0 then .fin false 1 (-1)
    else if 9 < (bitLen m : Int) + e then approxVal 0x27 (valKey v) 2 false (if s then tinyVal else justBelow (.fin false 1 0))
    else approxVal 0x27 (valKey v) 2 false (ofFix (fixSigmoid (toFix (.fin s m e))))

/-- A number of the working form that has a sign, kept off zero. -/
def offZero (s : Bool) (x : Int) : Int := if s then min (-1) x else max 1 x

/-- FP32 approximation of GELU in its two forms. -/
def geluVal (x : Bool) (v : Val) : Val :=
  match v with
  | .nan => .nan
  | .inf s => if s then .fin true 0 0 else .inf false
  | .fin s m e =>
    if m = 0 then v
    else if 9 < (bitLen m : Int) + e then approxVal 0x28 (valKey v) 4 true (if s then negVal tinyVal else justBelow v)
    else
      let a := toFix (.fin s m e)
      let y :=
        if x then
          let cube := fixMul (fixMul a a) a
          let u := (a + cube * 44715 / 1000000) * 797885 / 1000000
          fixMul a (fixOne + fixTanh u) / 2
        else fixMul a (fixPhi a)
      approxVal (if x then 0x128 else 0x28) (valKey v) 4 true (ofFix (offZero s y))

/-- FP32 approximation of v over 1 + e^-v. -/
def siluVal (v : Val) : Val :=
  match v with
  | .nan => .nan
  | .inf s => if s then .fin true 0 0 else .inf false
  | .fin s m e =>
    if m = 0 then v
    else if 9 < (bitLen m : Int) + e then approxVal 0x29 (valKey v) 4 true (if s then negVal tinyVal else justBelow v)
    else
      let a := toFix (.fin s m e)
      approxVal 0x29 (valKey v) 4 true (ofFix (offZero s (fixMul a (fixSigmoid a))))

/-! ## Softmax (R129, R130, R227) -/

/-- Sum of FP32 values in order, each step rounded to nearest even. -/
def sum32 (l : List Val) : Val := l.foldl (fun s v => v32 (addVal 0 s v)) (.fin false 0 0)

/-- The greatest of a list of numbers. -/
def maxOf (l : List Val) : Val := l.foldl maxVal (.inf true)

/-- The probabilities of a row whose elements are numbers (R130, R227): FP32 values before the last rounding. -/
def softmaxRow (l : List Val) : List Val :=
  let tops := l.filter fun v => v.isInf && !v.neg
  if l.any Val.isNan then l.map fun _ => .nan
  else if tops ≠ [] then
    l.map fun v => if v.isInf && !v.neg then v32 (divVal (.fin false 1 0) (ofInt tops.length)) else .fin false 0 0
  else
    let m := maxOf l
    if m.isInf then l.map fun _ => .fin false 0 0
    else
      let es := l.map fun v => if v.isInf then .fin false 0 0 else expVal (addVal 0 v (negVal m))
      let s := sum32 es
      es.map fun e => v32 (divVal e s)

/-- The log-softmax of a row, before its one rounding under RND (R215, R227). -/
def logSoftmaxRow (rnd : Nat) (l : List Val) : List Val :=
  let tops := l.filter fun v => v.isInf && !v.neg
  if l.any Val.isNan then l.map fun _ => .nan
  else if tops ≠ [] then
    let n := tops.length
    l.map fun v => if v.isInf && !v.neg then (if n = 1 then .fin false 0 0 else negVal (ofFix (fixLn n 0))) else .inf true
  else
    let m := maxOf l
    if m.isInf then l.map fun _ => .inf true
    else
      let s := sum32 (l.map fun v => if v.isInf then .fin false 0 0 else expVal (addVal 0 v (negVal m)))
      let ln := match s with | .fin _ k e => (if eqVal s (.fin false 1 0) then .fin false 0 0 else ofFix (fixLn k e)) | v => v
      l.map fun v => if v.isInf then .inf true else sumVal rnd [v, negVal m, negVal ln]

/-! ## Microscaling (R231) -/

/-- Exponent of the largest normal value of an MX element type (R231). -/
def emaxOf (t : Nat) : Int :=
  match t with
  | 6 => 8 | 7 => 15 | 8 => 2 | 9 => 4 | 10 => 2 | _ => 0

/-- Floor of log2 of a positive magnitude. -/
def floorLog2 : Val → Int
  | .fin _ m e => (bitLen m : Int) - 1 + e
  | _ => 0

/-- The scale code of a block (R231). -/
def scaleCode (td : Nat) (vs : List Val) : Nat :=
  if vs.any fun v => v.isNan || v.isInf then 0xFF
  else if vs.all Val.isZero then 0
  else
    let top := (vs.filter fun v => !v.isZero).foldl (fun x v => max x (floorLog2 v)) (-100000)
    (max 0 (min 254 (top - emaxOf td + 127))).toNat

/-- An element of a block under its scale code (R231): MXINT8 counts in units of 2^-6. -/
def quantElem (td rnd code : Nat) (v : Val) : Nat :=
  if code = 0xFF then 0
  else
    let y := scaleVal v (127 - (code : Int))
    if td = 11 then
      match y with
      | .fin neg m e => unsignedOf 8 (max (-127) (min 127 (toInteger rnd neg m (e + 6))))
      | _ => 0
    else encodeVal td rnd true y

end Sys2Proof.Machine
end

