-- ==== Sys2Proof/Machine/BearingOps.lean ====
section
/-! DEFINITION. The shared operations of the Bearing keepers (R118, R132-R139, R144-R146) and of messages towards other hubs (R496, R499, R502). -/

namespace Sys2Proof.Machine

/-! ## Routes between hubs -/

/-- A Hawser port's record. -/
def Work.hport (w : Work) (k : Nat) : HPort := tget {} w.hub.hawser.ports k

/-- Change the Hawser fabric. -/
def Work.onHawser (w : Work) (f : Hawser → Hawser) : Work := w.onHub fun h => { h with hawser := f h.hawser }

/-- Change a Hawser port's record. -/
def Work.onHPort (w : Work) (k : Nat) (f : HPort → HPort) : Work :=
  w.onHawser fun x => { x with ports := tmod {} x.ports k f }

/-- A Hawser port in service: Full or Degraded (R496). -/
def Work.hportUp (w : Work) (k : Nat) : Bool := (w.hport k).state = 1 || (w.hport k).state = 2

/-- The number of this hub (R602). -/
def Work.hubId (w : Work) : Nat := w.hub.hawser.id

/-- NHUB, the highest hub number in the system (R493). -/
def Work.nhub (w : Work) : Nat := bits w.hub.hawser.sys 107 96

/-- A hub number above NHUB or above 1,023: no message reaches it, and a structure that names it is BAD_IDENT (R496). -/
def Work.hubBeyond (w : Work) (h : Nat) : Bool := 1023 < h || w.nhub < h

/-- The port on which a message for a hub leaves: PORT, else ALT; none where the hub is unreachable (R496, R500). -/
def Work.route (w : Work) (h : Nat) : Option Nat :=
  let e := tget 0 w.hub.hawser.routes h
  if h ∈ w.hub.hawser.unreachable || w.hubBeyond h || h = w.hubId then none
  else if bit e 3 && w.hportUp (bits e 2 0) then some (bits e 2 0)
  else if bit e 7 && w.hportUp (bits e 6 4) then some (bits e 6 4)
  else none

/-- The order in which a port sends what waits (R491): Helm messages, credit returns, control fragments, body messages. -/
def outRank (o : Out) : Nat :=
  match o with
  | .helm _ _ _ => 0
  | .hawserCredit _ _ _ => 1
  | .body _ _ => 3
  | _ => 2

/-- Put an item behind those of its rank. -/
def outInsert (o : Out) : List Out → List Out
  | [] => [o]
  | x :: r => if outRank x ≤ outRank o then x :: outInsert o r else o :: x :: r

/-- Send what waits at a port while its 256 frames last; nothing leaves during a retrain (R489, R505). -/
def Work.hwsDrain (w : Work) (k : Nat) : Nat → Work
  | 0 => w
  | fuel + 1 =>
    let x := w.hport k
    match x.txWait with
    | o :: r =>
      if x.state = 0 || 3 < x.state || 256 ≤ x.retry.length then w
      else
        let w := w.onHPort k fun x => { x with txWait := r, retry := x.retry ++ [(x.nextFseq, o)], nextFseq := (x.nextFseq + 1) % 4096 }
        ((w.emit o).count 17 k 0).hwsDrain k fuel
    | [] => w

/-- Send a frame that carries no item: an acknowledgement, a NAK, a retrain request (R488). -/
def Work.hwsIdle (w : Work) (k ftype seq : Nat) (nak : Bool) : Work := (w.emit (.hawserFrame k ftype seq nak)).count 17 k 0

/-- Send one item in a sequenced frame of a port (R488, R489). -/
def Work.hwsItem (w : Work) (k : Nat) (o : Out) : Work :=
  let w := w.onHPort k fun x => { x with txWait := outInsert o x.txWait }
  w.hwsDrain k (w.hport k).txWait.length

/-- Payload bytes of a body message; a routed-token packet carries its 64-byte header and its payload (R499). -/
def msgBytes (m : BodyMsg) : Nat := if m.mkind = 2 then 64 + m.packet.payload.length else m.payload.length

/-- The channel of a message and the 512-byte units it takes (R497). -/
def msgChannel (m : BodyMsg) : Nat := m.cls * 2 + m.lane
def msgUnits (m : BodyMsg) : Nat := ceilDiv (32 + msgBytes m) 512

/-- The space that a message took at a port's input is free: its credits go back (R497). -/
def Work.hwsGiveBack (w : Work) (k lane : Nat) (m : BodyMsg) : Work := w.hwsItem k (.hawserCredit k (m.cls * 2 + lane) (msgUnits m))

/-- Send body messages of a port in order while credits last, each channel on its own; a message that came in on another port frees its space there (R497). -/
def Work.bodyPumpList (w : Work) (k : Nat) : List HWait → List Nat → Work
  | [], _ => w
  | x :: rest, stuck =>
    let c := msgChannel x.msg
    let have_ := tget 0 (w.hport k).credits c
    if c ∈ stuck || (w.hport k).state ≠ 1 && (w.hport k).state ≠ 2 || have_ < msgUnits x.msg then
      (w.onHPort k fun p => { p with bodyWait := p.bodyWait ++ [x] }).bodyPumpList k rest (c :: stuck)
    else
      let w := (w.onHPort k fun p => { p with credits := tset p.credits c (have_ - msgUnits x.msg) }).hwsItem k (.body k x.msg)
      let w := match x.inPort with
        | some (i, lane) => (w.hwsGiveBack i lane x.msg).count 17 k (14 + x.msg.cls)
        | none => w
      w.bodyPumpList k rest stuck

/-- Send what waits for credits at a port. -/
def Work.bodyPump (w : Work) (k : Nat) : Work :=
  let l := (w.hport k).bodyWait
  (w.onHPort k fun p => { p with bodyWait := [] }).bodyPumpList k l []

/-- Send a body message on a port: past a port with DATELINE set it travels on lane 1 (R497). -/
def Work.sendBody (w : Work) (k : Nat) (m : BodyMsg) (inPort : Option (Nat × Nat) := none) : Work :=
  let m := if (w.hport k).dateline then { m with lane := 1 } else m
  (w.onHPort k fun p => { p with bodyWait := p.bodyWait ++ [{ inPort := inPort, msg := m }] }).bodyPump k

/-- Send a Helm message to another hub; nothing leaves where it is unreachable. -/
def Work.helmSend (w : Work) (kind : Nat) (m : HelmMsg) : Work :=
  match w.route m.dstHub with
  | some p => w.hwsItem p (.helm p kind { m with hkind := kind, srcHub := w.hubId })
  | none => w

/-- The lanes of a port are trained: Full, Degraded or Control-only. -/
def Work.hportTrained (w : Work) (p : Nat) : Bool := let s := (w.hport p).state; s = 1 || s = 2 || s = 3

/-- The port on which UNREACH leaves for a hub: a control-only link carries it too (R495, R496). -/
def Work.controlRoute (w : Work) (h : Nat) : Option Nat :=
  let e := tget 0 w.hub.hawser.routes h
  if w.hubBeyond h || h = w.hubId then none
  else if bit e 3 && w.hportTrained (bits e 2 0) then some (bits e 2 0)
  else if bit e 7 && w.hportTrained (bits e 6 4) then some (bits e 6 4)
  else none

/-- Tell a source hub that a destination cannot be reached (R500). -/
def Work.sendUnreach (w : Work) (hub dest : Nat) : Work :=
  match w.controlRoute hub with
  | some p => w.hwsItem p (.unreach p hub dest)
  | none => w

/-- Send a routed-token packet to another hub; the sender's answer where it cannot go stands in R500. -/
def Work.tokToHub (w : Work) (hub : Nat) (p : Packet) : Option Work :=
  (w.route hub).map fun k => w.sendBody k { cls := 2, mkind := 2, dstHub := hub, srcHub := w.hubId, packet := p }

/-! ## Handles and closings -/

/-- The parts of a token handle (R139): record, engine, hub. -/
def handleRec (t : Nat) : Nat := bits t 15 0
def handleEngine (t : Nat) : Nat := bits t 19 16
def handleHub (t : Nat) : Nat := bits t 31 20

/-- Change a Bearing engine. -/
def Work.onBearing (w : Work) (b : Nat) (f : Bearing → Bearing) : Work :=
  w.onHub fun h => { h with bearings := tmod {} h.bearings b f }

/-- A Bearing engine's record. -/
def Work.bearing (w : Work) (b : Nat) : Bearing := tget {} w.hub.bearings b

/-- What one keeper keeps of a table. -/
def Work.keeper (w : Work) (b t : Nat) : Keeper := tget {} (w.bearing b).keepers t

/-- Change what one keeper keeps of a table. -/
def Work.onKeeper (w : Work) (b t : Nat) (f : Keeper → Keeper) : Work :=
  w.onBearing b fun x => { x with keepers := tmod {} x.keepers t f }

/-- Send a packet to its token's origin engine, here or on another hub (R137, R502). -/
def Work.toOrigin (w : Work) (p : Packet) : Work :=
  if handleHub p.token = w.hubId then w.sendTok { p with dst := handleEngine p.token, hub := w.hubId }
  else (w.tokToHub (handleHub p.token) p).getD w

/-- Close a packet's rank at its origin with a cause (R138). -/
def Work.closeRank (w : Work) (p : Packet) (cause : Nat) : Work :=
  w.toOrigin { p with kind := .close, cause := cause, payload := [], beats := 0, fmt := 0, poison := false }

/-! ## Placement -/

/-- The keeper of a placed expert (R118). -/
def keeperOf (e : ExpEntry) : Nat := if e.kind = 1 then e.site else e.wright / 4

/-- The entries of a table with a run replaced. -/
def replaceRun (es : List ExpEntry) (first : Nat) (new : List ExpEntry) : List ExpEntry :=
  (es.take first ++ new ++ es.drop (first + new.length)).take es.length

/-- A table's record. -/
def Work.table (w : Work) (t : Nat) : Option BTable := tfind w.hub.tables t

/-- Change a table's record. -/
def Work.onTable (w : Work) (t : Nat) (f : BTable → BTable) : Work :=
  match w.table t with
  | some x => w.onHub fun h => { h with tables := tset h.tables t (f x) }
  | none => w

/-- A table as one engine's replica has it (R123, R124). -/
def Work.replica (w : Work) (b t : Nat) : Option BTable :=
  (w.table t).map fun x => match x.upd with
    | some u => if b < u.done then { x with experts := replaceRun x.experts u.first u.experts } else x
    | none => x

/-- An expert's entry. -/
def expertOf (t : BTable) (e : Nat) : ExpEntry := t.experts.getD e {}

/-- An expert counts as available: placed, and its mark set (R124). -/
def available (t : BTable) (e : Nat) : Bool := (expertOf t e).kind ≠ 0 && e ∉ t.unavailable

/-- Clear the availability marks of every expert that a test of its entry, old or new in an update, picks (R124), in the tables of one berth where one is given. -/
def Work.clearMarks (w : Work) (pick : ExpEntry → Bool) (of_ : Option Nat := none) : Work :=
  w.onHub fun h => { h with tables := h.tables.map fun (k, t) =>
    (k, if of_.any fun b => t.hdr.berth ≠ b then t else { t with unavailable := (List.range t.experts.length).foldl (fun u i =>
      if pick (expertOf t i) || t.upd.any fun v => pick ((replaceRun t.experts v.first v.experts).getD i {}) then addTo u i else u) t.unavailable }) }

/-! ## Forwarding an admitted token -/

/-- A Wright engine's record. -/
def Work.wright (w : Work) (x : Nat) : Wright := tget {} w.hub.wrights x

/-- Change a Wright engine. -/
def Work.onWright (w : Work) (x : Nat) (f : Wright → Wright) : Work :=
  w.onHub fun h => { h with wrights := tmod {} h.wrights x f }

/-- Local memory of an engine is 2 MiB; addresses wrap (R184). -/
def localSize : Nat := 2 ^ 21

/-- n bytes of local memory. -/
def localRead (m : Wright) (a n : Nat) : List Byte := (List.range n).map fun i => tget 0 m.mem ((a + i) % localSize)

/-- Bytes written to local memory; the vectors written are unpoisoned, or poisoned with their source (R185). -/
def localWrite (m : Wright) (a : Nat) (d : List Byte) (poison : Bool := false) : Wright :=
  let vecs := (partsOf 128 a d.length).map (· % (localSize / 128))
  { m with mem := (d.zipIdx).foldl (fun t (b, i) => tset t ((a + i) % localSize) b) m.mem,
           poison := if poison then vecs.foldl addTo m.poison else m.poison.filter fun v => v ∉ vecs }

/-- Write a token into a free inbox slot, or hold it at the keeper (R204). -/
def Work.inboxPut (w : Work) (x : Nat) (p : Packet) : Work :=
  let e := w.wright x
  match ((List.range e.slots).map fun s => (e.inboxBase + s * e.slotBytes) % localSize).find? fun a => (tfind e.inbox a).isNone with
  | some a => w.onWright x fun e => { localWrite e a p.payload p.poison with inbox := tset e.inbox a p }
  | none => w.onWright x fun e => { e with waitingToks := e.waitingToks ++ [p] }

/-- Credits left after a TOK_IN, if they suffice (R83). -/
def tokCost (c : Credits) (beats : Nat) : Option Credits :=
  if 1 ≤ c.tokHdr && beats ≤ c.tokData then some { c with tokHdr := c.tokHdr - 1, tokData := c.tokData - beats } else none

/-- The first TOK_IN of a queue that the credits suffice for, what is left of them, and the queue without it (R83). -/
def tokNext (c : Credits) : List TokIn → Option (TokIn × Credits × List TokIn)
  | [] => none
  | t :: r =>
    match tokCost c t.hdr.beats with
    | some c' => some (t, c', r)
    | none => (tokNext c r).map fun (x, c', q) => (x, c', t :: q)

/-- Send the TOK_INs of the keepers' queue to a site while credits last, each that has its credits (R83, R104); the receiving unpacker encodes or expands the payload (R174). -/
def Work.tokDrain (w : Work) (n : Nat) : Nat → Work
  | 0 => w
  | fuel + 1 =>
    let s := (w.site n).port
    match (if (w.site n).power.quiescing then none else tokNext s.fromChip s.tokQueue) with
    | none => w
    | some (t, c, r) =>
      let w := w.onSPort n fun p => { p with tokQueue := r, tokIns := p.tokIns ++ [t], fromChip := c }
      (w.siteSend n (tokInBytes t.hdr t.packet.payload)).tokDrain n fuel

/-- The form in which a payload travels to a site: zero-run only where it is in force and shorter (R170, R174). -/
def siteForm (zr : Bool) (t : BTable) (p : Packet) : Nat × Nat × List Byte :=
  let dense := (densePayload t.hdr.ptype p.fmt t.hdr.payloadBeats p.payload).getD p.payload
  if zr then
    match (if p.fmt = 5 then some p.payload else zeroRunEncode (eBits t.hdr.ptype / 8) dense) with
    | some z => (5, z.length / 32, z)
    | none => (0, t.hdr.payloadBeats, dense)
  else (0, t.hdr.payloadBeats, dense)

/-- Forward an admitted token to its host (R133, R204). -/
def Work.forward (w : Work) (b : Nat) (t : BTable) (p : Packet) : Work :=
  let e := expertOf t p.expert
  if e.kind = 1 && !siteServing (w.site e.site) then w.closeRank p 6
  else if e.kind = 1 then
    let zr := bit (w.site e.site).port.packed 4
    let (fmt, beats, d) := siteForm zr t p
    let w := if fmt = 5 && p.fmt ≠ 5 then w.count 1 e.site 2 else if fmt ≠ 5 && p.fmt = 5 then w.count 1 e.site 3 else w
    let h : TokHdr := { fmt := fmt, beats := beats, berth := p.berth, expert := p.expert, rank := p.rank, token := p.token, table := p.table }
    let w := w.onSPort e.site fun s => { s with tokQueue := s.tokQueue ++ [{ hdr := h, keeper := b, packet := { p with payload := d, fmt := fmt, beats := beats } }] }
    w.tokDrain e.site (w.site e.site).port.tokQueue.length
  else
    let dense := (densePayload t.hdr.ptype p.fmt t.hdr.payloadBeats p.payload).getD p.payload
    w.inboxPut e.wright { p with payload := dense, fmt := 0, beats := t.hdr.payloadBeats, hops := p.hops }

/-! ## Admission and overflow (R133-R136, R145) -/

/-- A keeper may not count on the expert's host now: credits withheld, inbox stalled, site dead (R107, R133, R204). -/
def Work.hostBlocked (w : Work) (e : ExpEntry) : Bool :=
  if e.kind = 1 then (w.site e.site).port.tokWithheld else if e.kind = 2 then (w.wright e.wright).stalled || (w.wright e.wright).full else false

/-- Tokens per round of an expert: none means no limit (R121). -/
def capOf (t : BTable) (e : ExpEntry) : Option Nat :=
  if e.cap = 0xFFFF then none else some (if e.cap = 0 then t.hdr.defaultCap else e.cap)

/-- The 64-byte header of a packet (R137). -/
def packetHeader (p : Packet) : List Byte :=
  let k := match p.kind with | .dispatch => 0 | .combine => 1 | .close => 2 | .bounce => 3
  let alt (i : Nat) : Nat := p.alt.getD i 0xFFF
  leBytes 64 (pack [(4, k), (4, 1), (4, p.fmt), (12, p.beats), (4, p.cause), (14, p.berth), (12, p.expert), (3, p.rank),
    (2, p.hops), (5, 0), (32, p.token), (8, p.table), (8, p.otable), (32, p.row), (32, p.weight), (12, alt 0), (12, alt 1), (12, alt 2)])

/-- Bytes of a defer-ring slot (R135). -/
def deferSlot (t : BTable) : Nat := ceilDiv (64 + 32 * t.hdr.payloadBeats) 256 * 256

/-- The packet that a header and the bytes after it spell (R137), as a defer ring keeps a DISPATCH (R135). -/
def packetOf (d : List Byte) : Packet :=
  let h := leNat (d.take 64)
  let beats := bits h 23 12
  { fmt := bits h 11 8, beats := beats, berth := bits h 41 28, expert := bits h 53 42, rank := bits h 56 54, hops := bits h 58 57,
    token := bits h 95 64, table := bits h 103 96, otable := bits h 111 104, row := bits h 143 112, weight := bits h 175 144,
    alt := [bits h 187 176, bits h 199 188, bits h 211 200].filter fun a => a ≠ 0xFFF, payload := slice (d.drop 64) 0 (32 * beats) }

/-- Address of a slot of a keeper's defer ring (R135). -/
def deferAddr (t : BTable) (b pos : Nat) : Nat := t.hdr.deferBase + (b * t.hdr.deferEntries + pos) * deferSlot t

/-- Append a token to the keeper's defer ring (R134, R135): DEFER_FULL when full, COMBINE_FAULT where its slot cannot be written. The write goes to the homes of its lines or straight to memory, on REQ (R278, R284). `unplaced` says that the origin defers it in a keeper's place (R118). -/
def Work.deferTok (w : Work) (b : Nat) (t : BTable) (p : Packet) (unplaced : Bool := false) : Work :=
  let k := w.keeper b p.table
  if t.hdr.deferEntries ≤ k.ring.length then w.closeRank p 3
  else
    let id := w.hub.fabric.nextId
    let a := deferAddr t b k.tail
    let d := packetHeader p ++ p.payload
    let parts := pieces a d.length
    let asks := parts.map fun (o, n) => (o, n, (w.xlateNow (80 + b) t.hdr.berth ((a + o) % 2 ^ 57) { write := true }).1)
    let write (w : Work) (o n e dpa : Nat) : Work :=
      let (slot, gen) := leafKey t.hdr.berth e
      w.issue { agent := .keeper b id, kind := .wr, tag := id, berth := t.hdr.berth, prio := 1, bytes := n, dpa := dpa, dva := (a + o) % 2 ^ 57,
                slot := slot, gen := gen, shared := bit e 6, data := slice d o n, poison := p.poison, atHome := !bit e 3 }
    let bad := asks.any fun (o, _, x) => match x with
      | .ok e _ => (match w.packRow t.hdr.berth ((a + o) % 2 ^ 57) e true with | .bad _ _ => true | _ => false)
      | .bad _ _ => true
      | _ => false
    let waits := asks.any fun (_, _, x) => match x with | .wait | .miss => true | _ => false
    if bad then w.closeRank p 12
    else if waits then w.sendTok { p with dst := b, hub := w.hubId }
    else
      let w := w.onFabric fun f => { f with nextId := f.nextId + 1 }
      let w := w.onKeeper b p.table fun k => { k with
        ring := k.ring ++ [{ id := id, pos := k.tail, packet := p, left := parts.length, unplaced := unplaced }], tail := (k.tail + 1) % t.hdr.deferEntries }
      (each asks (fun (o, n, x) w => match x with | .ok e dpa => write w o n e dpa | _ => w) w).count 3 b 4

/-- The origin times a rank that has gone to another hub (R146). -/
def Work.markRemote (w : Work) (p : Packet) : Work :=
  let upd (r : TokRec) : TokRec := { r with ranks := r.ranks.modify p.rank fun k => { k with remote := true, expert := p.expert, hops := p.hops } }
  match tfind (w.bearing (handleEngine p.token)).recs (handleRec p.token) with
  | some r => w.onBearing (handleEngine p.token) fun x => { x with recs := tset x.recs (handleRec p.token) (upd r) }
  | none => w

/-- Send a DISPATCH to the keeper of its expert, here or on another hub (R118, R145); an unplaced expert's place is taken by the given engine. -/
def Work.sendDispatch (w : Work) (self : Nat) (t : BTable) (p : Packet) : Work :=
  let e := expertOf t p.expert
  if e.kind = 3 then
    match w.tokToHub e.hub { p with table := e.rtable, expert := e.rexpert, otable := p.otable } with
    | some w => (w.markRemote p).count 3 self 2
    | none => w.closeRank p 8
  else (w.sendTok { p with dst := if e.kind = 0 then self else keeperOf e, hub := w.hubId }).count 3 self 2

/-- The table's policy on a token that cannot be admitted (R134). -/
def Work.overflow (w : Work) (b : Nat) (t : BTable) (p : Packet) : Work :=
  match t.hdr.policy with
  | 0 => w.closeRank p (if available t p.expert then 2 else 5)
  | 1 => w.deferTok b t p ((expertOf t p.expert).kind = 0)
  | _ =>
    match p.alt with
    | a :: r =>
      if p.hops < t.hdr.ncDepth && a ≠ 0xFFF then
        (w.sendDispatch b t { p with expert := a, alt := r, hops := p.hops + 1 }).count 3 b 5
      else w.closeRank p 4
    | [] => w.closeRank p 4

/-- A keeper handles a DISPATCH against its current round (R124, R133, R134, R145). In a defer pass the check that none runs is not made. -/
def Work.keeperTake (w : Work) (b : Nat) (inPass : Bool) (p : Packet) : Work :=
  match w.replica b p.table with
  | none => w.closeRank p (if handleHub p.token = w.hubId then 14 else 15)
  | some t =>
    let e := expertOf t p.expert
    let foreign := handleHub p.token ≠ w.hubId
    if foreign && (!t.hdr.peerIn || e.kind = 0 || e.kind = 3) then w.closeRank p 15
    else
      let p := if foreign then { p with berth := t.hdr.berth } else p
      if (e.kind = 1 || e.kind = 2) && keeperOf e ≠ b || e.kind = 3 then w.sendDispatch b t p
      else
        let k := w.keeper b p.table
        if k.passing && !inPass then w.onKeeper b p.table fun k => { k with held := k.held ++ [p] }
        else
          let n := tget 0 k.counts p.expert
          let room := match capOf t e with | none => true | some c => n < c
          if available t p.expert && room && !w.hostBlocked e then
            let w := (w.onKeeper b p.table fun k => { k with counts := tset k.counts p.expert (min 0xFFFFFFFF (n + 1)) }).count 3 b 3
            w.forward b t p
          else if foreign then
            (w.toOrigin { p with kind := .bounce }).count 3 b 6
          else w.overflow b t p

/-- A part of the write of a deferred token is answered; one that fails closes its rank as COMBINE_FAULT (R135, R138). -/
def Work.deferWritten (w : Work) (b id status : Nat) : Work :=
  match (w.bearing b).keepers.findSome? fun (t, k) => (k.ring.find? fun e => e.id = id).map fun e => (t, e) with
  | none => w
  | some (t, e) =>
    let bad := status ≠ 0 && !e.lost
    let w := w.onKeeper b t fun k => { k with ring := k.ring.map fun x => if x.id = id then { x with left := x.left - 1, lost := x.lost || status ≠ 0 } else x }
    if bad then w.closeRank e.packet 12 else w

/-- The oldest entry of a defer ring is read from its slot (R135, R136): the token as memory holds it, poisoned where a line of its entry is; `none` waits for the read, an inner `none` is a read that failed (log 50). -/
def Work.deferRead (w : Work) (t b : Nat) (e : DeferEntry) : Option (Option Packet) × Work :=
  match w.table t with
  | none => (some (some e.packet), w)
  | some tb =>
    match w.readPlain (80 + b) tb.hdr.berth (deferAddr tb b e.pos) (64 + e.packet.payload.length) 1 (some (.keeper b e.id, 0)) with
    | (.ok d [], w) => (some (some { packetOf d with table := t }), w)
    | (.ok d _, w) => (some (some { e.packet with payload := d.drop 64, poison := true }), w)
    | (.wait, w) => (none, w)
    | (.bad _ _ _, w) => (some none, w)

/-- A deferred token is offered in a pass: one deferred in the place of an unplaced expert's keeper stays until the expert is placed and available (R118), any other meets the keeper (R136). -/
def Work.deferOffer (w : Work) (t b : Nat) (unplaced : Bool) (p : Packet) : Work :=
  match w.replica b t with
  | some tb => if unplaced && !available tb p.expert then w.deferTok b tb p true else w.keeperTake b true p
  | none => w.keeperTake b true p

/-- A defer pass goes on (R136): entries are read from the head, once each, as far as their bytes have come. -/
def Work.deferGo (w : Work) (t b : Nat) : Nat → Work
  | 0 => w
  | fuel + 1 =>
    let k := w.keeper b t
    match k.ring with
    | [] => w.onKeeper b t fun k => { k with todo := 0 }
    | e :: rest =>
      let taken (w : Work) : Work := (w.dropFetch (.keeper b e.id) 0).onKeeper b t fun k => { k with ring := rest, todo := k.todo - 1 }
      if k.todo = 0 || e.left ≠ 0 then w
      else if e.lost then (taken w).deferGo t b fuel
      else match w.deferRead t b e with
        | (none, w) => w
        | (some (some p), w) => ((taken w).deferOffer t b e.unplaced p).deferGo t b fuel
        | (some none, w) => ((taken w).closeRank e.packet 12).deferGo t b fuel

/-- The round of a table advances at one keeper: counts become 0, and a pass reads the entries then in the ring (R132, R136). -/
def Work.advance (w : Work) (t b : Nat) : Work :=
  let n := (w.keeper b t).ring.length
  (w.onKeeper b t fun k => { k with round := (k.round + 1) % 2 ^ 32, counts := [], todo := n, passing := n ≠ 0 || k.passing }).deferGo t b n

/-- The round advances at every keeper (R132). -/
def Work.advanceAll (w : Work) (t : Nat) : Work := each (List.range 16) (fun b w => w.advance t b) w

end Sys2Proof.Machine
end

