-- ==== Sys2Proof/Machine/HelmOps.lean ====
section
/-! DEFINITION. The shared operations of the Helm (08): additions, waits, arrivals, releases, breaks, semaphores, event wires. -/

namespace Sys2Proof.Machine

/-- Change the Helm. -/
def Work.onHelm (w : Work) (f : HelmState → HelmState) : Work := w.onHub fun h => { h with helm := f h.helm }

/-- A mark, a gate, a semaphore. -/
def Work.mark (w : Work) (m : Nat) : Mark := tget {} w.hub.helm.marks m
def Work.gate (w : Work) (g : Nat) : HGate := tget {} w.hub.helm.gates g
def Work.sem (w : Work) (s : Nat) : Sem := tget {} w.hub.helm.sems s

/-- Change a mark, a gate, a semaphore. -/
def Work.onMark (w : Work) (m : Nat) (f : Mark → Mark) : Work := w.onHelm fun h => { h with marks := tmod {} h.marks m f }
def Work.onGate (w : Work) (g : Nat) (f : HGate → HGate) : Work := w.onHelm fun h => { h with gates := tmod {} h.gates g f }
def Work.onSem (w : Work) (s : Nat) (f : Sem → Sem) : Work := w.onHelm fun h => { h with sems := tmod {} h.sems s f }

/-- A Helm error enters the Log and the counters with its cause (R255, R267, R268). -/
def Work.helmError (w : Work) (b obj cause : Nat) : Work :=
  (w.log { cls := 6, sev := 2, cause := cause, berth := some b, addr := obj }).count 4 0 (2 + cause)

/-- A ring's record, a ring of a berth. -/
def Work.ring (w : Work) (b r : Nat) : Ring := tget {} w.hub.ten.rings (b * 4 + r)
def Work.onRing (w : Work) (b r : Nat) (f : Ring → Ring) : Work :=
  w.onHub fun h => { h with ten := { h.ten with rings := tmod {} h.ten.rings (b * 4 + r) f } }

/-- Tell a party that its wait is satisfied with a value, or failed with a cause (R249, R255-R258). -/
def Work.notify (w : Work) (p : Party) (cause value : Nat) : Work :=
  match p with
  | .site n tag b => w.siteSend n (notifyBytes (if cause = 0 then 0 else 9) tag b value)
  | .wright x => w.onWright x fun e => { e with run := e.run.map fun r => { r with waitMet := some cause } }
  | .launch x => w.onWright x fun e => { e with queue := match e.queue with
      | l :: r => { l with startMet := cause = 0, startFailed := cause } :: r
      | [] => [] }
  | .entry b r i => w.onRing b r fun x => { x with fetched := x.fetched.map fun e =>
      if e.index = i && e.waiting then { e with waiting := false, satisfied := cause = 0, failed := cause } else e }

/-- The object that a waiter waits on. -/
def waitsOn (x : Waiter) : Nat := match x.what with | .mark m _ => m | .gate g _ => g | .sem s _ => s

/-- An access of the critical class to a slot of the spill area (R262, R276). -/
def Work.spillAccess (w : Work) (kind : ReqKind) (id slot : Nat) (data : List Byte) : Work :=
  w.issue { agent := .hub, kind := kind, tag := id, prio := 3, atHome := true, bytes := 16, dpa := w.spillBase + 16 * slot, data := data }

/-- Tell a waiter its outcome: at once from the chip; a spilled one when its entry has been read (R262). -/
def Work.tellWaiter (w : Work) (x : Waiter) (cause value : Nat) : Work :=
  match x.slot with
  | none => w.notify x.party cause value
  | some k =>
    let id := w.hub.fabric.nextId
    (w.onHelm fun h => { h with reading := h.reading ++ [{ id := id, waiter := x, cause := cause, value := value }] }).spillAccess .read id k []

/-- Tell spilled waiters whose entries have been read, the oldest first, none before an older one (R262). -/
def Work.spillOut (w : Work) : List SpillRead → Work
  | [] => w.onHelm fun h => { h with reading := [] }
  | x :: l => if x.ready then (w.notify x.waiter.party x.cause x.value).spillOut l else w.onHelm fun h => { h with reading := x :: l }

/-- The berth of a waiting party gets its error logged (R255, R267). -/
def Work.failWaiter (w : Work) (x : Waiter) (cause : Nat) : Work :=
  (w.tellWaiter x cause 0).helmError x.berth (waitsOn x) cause

/-- A waiter's slot of the spill area lies in a granule of those that are lost. -/
def Work.slotLost (w : Work) (lost : Nat → Bool) (x : Waiter) : Bool :=
  match x.slot with | some k => lost ((w.spillBase + 16 * k) / 256) | none => false

/-- Helm waiters in granules of the spill area that are lost fail with SPILL_LOST (R262, R601). -/
def Work.spillLost (w : Work) (lost : Nat → Bool) : Work :=
  let h := w.hub.helm
  let gone := (h.reading.map (·.waiter) ++ h.waiters).filter (w.slotLost lost)
  let w := w.onHelm fun h => { h with waiters := h.waiters.filter fun x => !w.slotLost lost x }
  let w := w.spillOut (w.hub.helm.reading.filter fun x => !w.slotLost lost x.waiter)
  each gone (fun x w => (w.notify x.party 10 0).helmError x.berth (waitsOn x) 10) w

/-- An access to the spill area ends: a read's waiter is told; one that failed loses the waiters of its granule (R262). -/
def Work.spillEnds (w : Work) (r : MemReq) (status : Nat) : Work :=
  if status ≠ 0 then w.spillLost fun g => g = r.dpa / 256
  else if r.kind ≠ .read then w
  else w.spillOut (w.hub.helm.reading.map fun x => if x.id = r.tag then { x with ready := true } else x)

/-- Take the waiters that a test picks out of the Helm, oldest first. -/
def Work.takeWaiters (w : Work) (pick : Waiter → Bool) : List Waiter × Work :=
  (w.hub.helm.waiters.filter pick, w.onHelm fun h => { h with waiters := h.waiters.filter fun x => !pick x })

/-- Slots of the spill area in use: those of waiters, and of entries being read. -/
def Work.slotsUsed (w : Work) : List Nat := (w.hub.helm.waiters ++ w.hub.helm.reading.map (·.waiter)).filterMap (·.slot)

/-- Add a waiter: on chip; when the 16,384 entries are full, written to the spill area; none when its 65,536 slots are in use too (R262). -/
def Work.addWaiter (w : Work) (x : Waiter) : Option Work :=
  if (w.hub.helm.waiters.filter fun y => y.slot.isNone).length < 16384 then some (w.onHelm fun h => { h with waiters := h.waiters ++ [x] })
  else
    let used := w.slotsUsed
    match (List.range 65536).find? fun k => k ∉ used with
    | some k =>
      let (bs, w) := w.junk 16
      some (((w.onHelm fun h => { h with waiters := h.waiters ++ [{ x with slot := some k }] }).count 4 0 16).spillAccess .wr 0 k bs)
    | none => none

/-- Owe pulses on an outbound wire: the count stays at 0xFFFF and sets the overrun bit (R260). -/
def Work.owe (w : Work) (key n : Nat) : Work :=
  let b := tget {} w.hub.helm.bindings key
  if n = 0 then w
  else
    let exceeds := 0xFFFF < b.owed + n
    let w := w.onHelm fun h => { h with bindings := tset h.bindings key { b with owed := min 0xFFFF (b.owed + n), overrun := b.overrun || exceeds } }
    if exceeds then (w.log { cls := 6, sev := 1, cause := 0, unit := key / 64, berth := some b.berth, addr := key % 32 }).count 4 0 18 else w

/-- Outbound bindings of an action and an object. -/
def Work.bindingsOf (w : Work) (action obj : Nat) : List Nat :=
  (w.hub.helm.bindings.filter fun (k, b) => k / 32 % 2 = 1 && b.action = action && b.object = obj).map (·.1)

/-- Pulses owed for a mark's new value: one per step reached (R260). -/
def Work.markPulses (w : Work) (m : Nat) : Work :=
  let v := (w.mark m).value
  each (w.bindingsOf 2 m) (fun k w =>
    let b := tget {} w.hub.helm.bindings k
    if v < b.threshold then w
    else
      let n := if b.step = 0 then 1 else (v - b.threshold) / b.step + 1
      let w := w.owe k n
      w.onHelm fun h => { h with bindings := tmod {} h.bindings k fun b => { b with threshold := b.threshold + n * b.step } }) w

/-- Release the waiters of a mark whose thresholds are met (R249). -/
def Work.serveMark (w : Work) (m : Nat) : Work :=
  let v := (w.mark m).value
  let (ws, w) := w.takeWaiters fun x => match x.what with | .mark k t => k = m && t ≤ v | _ => false
  each ws (fun x w => w.tellWaiter x 0 v) w

/-- The Helm's microcode is being replaced: operations wait at their ports (R559). -/
def Work.helmPaused (w : Work) : Bool := w.unitPaused 2

/-- Hold an operation at its Helm port, behind those held before it (R559). -/
def Work.helmHold (w : Work) (o : HelmOp) : Work := w.onHelm fun h => { h with held := h.held ++ [o] }

/-- Add to a mark for a berth: the cause of R267, 0 for none or for an addition that is held (R245, R248, R559). -/
def Work.markAdd (w : Work) (b m v : Nat) : Nat × Work :=
  let x := w.mark m
  if w.helmPaused then (0, w.helmHold (.add b m v))
  else if w.holder 2 m ≠ some b then (2, w.helmError b m 2)
  else if x.sat then (4, w.helmError b m 4)
  else if 0xFFFFFFFF < x.value + v then
    let w := (w.onMark m fun x => { x with value := 0xFFFFFFFF, sat := true }).count 4 0 0
    let w := (w.helmError b m 4).markPulses m
    let (ws, w) := w.takeWaiters fun y => match y.what with | .mark k _ => k = m | _ => false
    (4, each ws (fun y w => w.failWaiter y 4) w)
  else
    let w := (w.onMark m fun x => { x with value := x.value + v }).count 4 0 0
    (0, (w.serveMark m).markPulses m)

/-- Wait on a mark (R248, R249): done at once with its value, held, or failed with a cause. -/
def Work.markWait (w : Work) (p : Party) (b m t : Nat) : Work :=
  let x := w.mark m
  if w.helmPaused then w.helmHold (.wait p b m t)
  else if w.holder 2 m ≠ some b then (w.notify p 2 0).helmError b m 2
  else if x.sat then (w.notify p 4 0).helmError b m 4
  else
    let w := w.count 4 0 0
    if t ≤ x.value then w.notify p 0 x.value
    else match w.addWaiter { party := p, what := .mark m t, berth := b } with
      | some w => w
      | none => (w.notify p 9 0).helmError b m 9

/-- Break a gate (R253, R265): waiters fail, no observer hears, the first break since its configuration is logged, BREAK goes to the tree. A later break before the next configuration is counted alone. -/
def Work.gateBreak (w : Work) (g cause : Nat) : Work :=
  let x := w.gate g
  if x.parties = 0 then w
  else if x.broken then w.count 4 0 (2 + cause)
  else
    let (ws, w) := w.takeWaiters fun y => match y.what with | .gate k _ => k = g | _ => false
    let w := each ws (fun y w => w.failWaiter y cause) w
    let b := (w.holder 3 g).getD 0
    let w := (w.helmError b g cause).onGate g fun x => { x with broken := true, cause := cause }
    let tell (hub gate : Nat) (w : Work) : Work := w.helmSend 2 { dstHub := hub, dstGate := gate, srcGate := g, gen := x.gen, cause := cause }
    let w := if x.upEn then tell x.upHub x.upGate w else w
    each x.remotes (fun (h, k) w => tell h k w) w

/-- Send ARRIVE upstream; an unreachable hub breaks the gate (R263, R265). -/
def Work.sendArrive (w : Work) (g : Nat) : Work :=
  let x := w.gate g
  if (w.route x.upHub).isNone then w.gateBreak g 12
  else (w.onGate g fun x => { x with sentArrive := true }).helmSend 0 { dstHub := x.upHub, dstGate := x.upGate, srcGate := g, gen := x.gen }

/-- LAST_WAIT of a generation, in Helm cycles from its first local arrival (R268); of one that had none, a free value. -/
def Work.gateWait (w : Work) (x : HGate) : Nat × Work :=
  match x.localAt with
  | some t => (min 0xFFFFFFFF ((w.now - t) * 1200), w)
  | none => (w.fresh.1 % 2 ^ 32, w.fresh.2)

/-- Release a gate (R251, R263, R268): waiters, observers, count, generation; RELEASE to the hubs counted. -/
def Work.gateRelease (w : Work) (g : Nat) : Work :=
  let x := w.gate g
  let (ws, w) := w.takeWaiters fun y => match y.what with | .gate k n => k = g && n = x.gen | _ => false
  let w := each ws (fun y w => w.tellWaiter y 0 0) w
  let w := each (w.bindingsOf 1 g) (fun k w => w.owe k 1) w
  let tabs := (w.hub.tables.filter fun (_, t) => t.hdr.roundEn && t.hdr.roundGate = g).map (·.1)
  let w := each tabs (fun t w => w.advanceAll t) w
  let (last, w) := w.gateWait x
  let w := w.onGate g fun x => { x with count := x.next, next := 0, gen := (x.gen + 1) % 65536, sentArrive := false,
                                        lastRemotes := x.remotes, remotes := [],
                                        firstAt := x.nextAt, localAt := x.nextLocal, nextAt := none, nextLocal := none,
                                        lastWait := last, waitSum := satAdd (2 ^ 48 - 1) x.waitSum last,
                                        releases := satAdd 0xFFFFFFFF x.releases 1 }
  let w := each x.remotes (fun (h, k) w => w.helmSend 1 { dstHub := h, dstGate := k, srcGate := g, gen := x.gen }) w
  if x.upEn && (w.gate g).count = x.parties then w.sendArrive g else w

/-- The earlier of a time that stands and now, for an arrival that counts. -/
def Work.since (w : Work) (t : Option Nat) (counts : Bool) : Option Nat := if counts then some (t.getD w.now) else t

/-- Count one arrival at a gate, of this hub or of another (R251, R263). -/
def Work.gateCount (w : Work) (g : Nat) (here : Bool) : Work :=
  let x := w.gate g
  if x.sentArrive then w.onGate g fun x =>
    { x with next := min x.parties (x.next + 1), nextAt := w.since x.nextAt true, nextLocal := w.since x.nextLocal here }
  else
    let w := w.onGate g fun x => { x with count := x.count + 1, firstAt := w.since x.firstAt true, localAt := w.since x.localAt here }
    if (w.gate g).count < x.parties then w
    else if x.upEn then w.sendArrive g else w.gateRelease g

/-- Arrive at a gate for a berth (R245, R251, R253, R262): the cause of R267, 0 for none; with a party it arrives and waits. An arrival that only counts is held while the Helm pauses (R559). -/
def Work.gateArrive (w : Work) (p : Option Party) (b g : Nat) : Nat × Work :=
  let x := w.gate g
  if w.helmPaused && p.isNone then (0, w.helmHold (.arrive b g))
  else if w.holder 3 g ≠ some b then (2, w.helmError b g 2)
  else if x.parties = 0 then (3, w.helmError b g 3)
  else if x.broken then (5, w.helmError b g 5)
  else
    let w := w.count 4 0 1
    match p with
    | none => (0, w.gateCount g true)
    | some q =>
      let gen := if x.sentArrive then (x.gen + 1) % 65536 else x.gen
      match w.addWaiter { party := q, what := .gate g gen, berth := b } with
      | some w => (0, w.gateCount g true)
      | none => (9, w.helmError b g 9)

/-- Grant the head of a semaphore's FIFO while units last (R254). -/
def Work.serveSem (w : Work) (s : Nat) : Nat → Work
  | 0 => w
  | fuel + 1 =>
    match w.hub.helm.waiters.find? fun x => match x.what with | .sem k _ => k = s | _ => false with
    | none => w
    | some x =>
      let u := match x.what with | .sem _ u => u | _ => 0
      if (w.sem s).count < u then w
      else
        let w := w.onHelm fun h => { h with waiters := h.waiters.erase x }
        ((w.onSem s fun y => { y with count := y.count - u }).tellWaiter x 0 0).serveSem s fuel

/-- Acquire units (R254): granted, held in the FIFO, or failed. -/
def Work.semAcquire (w : Work) (p : Party) (b s u : Nat) : Work :=
  let x := w.sem s
  let fail (c : Nat) : Work := (w.notify p c 0).helmError b s c
  if w.holder 4 s ≠ some b then fail 2
  else if x.max = 0 then fail 3
  else if u = 0 then fail 1
  else if x.max < u then fail 7
  else
    let w := w.count 4 0 2
    let waiting := w.hub.helm.waiters.any fun y => match y.what with | .sem k _ => k = s | _ => false
    if !waiting && u ≤ x.count then (w.onSem s fun y => { y with count := y.count - u }).notify p 0 0
    else match w.addWaiter { party := p, what := .sem s u, berth := b } with
      | some w => w
      | none => (w.notify p 9 0).helmError b s 9

/-- Release units (R254): the cause of R267, 0 for none or for a release that is held (R559); past MAX the count becomes MAX and waiters are served from it. -/
def Work.semRelease (w : Work) (b s u : Nat) : Nat × Work :=
  let x := w.sem s
  if w.helmPaused then (0, w.helmHold (.release b s u))
  else if w.holder 4 s ≠ some b then (2, w.helmError b s 2)
  else if x.max = 0 then (3, w.helmError b s 3)
  else
    let w := w.count 4 0 2
    let exceeds := x.max < x.count + u
    let w := (w.onSem s fun y => { y with count := min y.max (y.count + u) }).serveSem s w.hub.helm.waiters.length
    if exceeds then (8, w.helmError b s 8) else (0, w)

/-- A grant ends: the object returns to its start state and its waiters fail with NOT_GRANTED (R245). -/
def Work.helmReset (w : Work) (kind obj : Nat) : Work :=
  let (ws, w) := w.takeWaiters fun x => match x.what with
    | .mark m _ => kind = 2 && m = obj
    | .gate g _ => kind = 3 && g = obj
    | .sem s _ => kind = 4 && s = obj
  let w := each ws (fun x w => w.failWaiter x 2) w
  w.onHelm fun h =>
    if kind = 2 then { h with marks := tdel h.marks obj }
    else if kind = 3 then { h with gates := tdel h.gates obj }
    else { h with sems := tdel h.sems obj }

/-- Withdraw the waits of parties that a test picks, without notice (R202, R252, R254, R269). -/
def Work.withdrawWaits (w : Work) (pick : Party → Bool) : Work :=
  let waits (o : HelmOp) : Bool := match o with | .wait p _ _ _ => pick p | _ => false
  let w := w.onHelm fun h => { h with waiters := h.waiters.filter (fun x => !pick x.party), held := h.held.filter fun o => !waits o }
  let w := w.spillOut (w.hub.helm.reading.filter fun x => !pick x.waiter.party)
  each (w.hub.helm.sems.map (·.1)) (fun s w => w.serveSem s w.hub.helm.waiters.length) w

/-- A hub has become unreachable: gates that wait on it, or that counted it, break (R265). -/
def Work.hubLost (w : Work) (hub : Nat) : Work :=
  each (w.hub.helm.gates.map (·.1)) (fun g w =>
    let x := w.gate g
    if (x.upEn && x.sentArrive && x.upHub = hub) || x.remotes.any (fun (h, _) => h = hub) then w.gateBreak g 12 else w) w

end Sys2Proof.Machine
end

