-- ==== Sys2Proof/Machine/ManifestOps.lean ====
section
/-! DEFINITION. The shared operations of manifest entries (14): header fields (R399), completion records (R406), the checks that every command shares (R402, R408, R427), and structures read through a pointer (R408). -/

namespace Sys2Proof.Machine

/-! ## Status codes of R407 and R209 -/

def stOk : Nat := 0x00
def stUnmapped : Nat := 0x02
def stDenied : Nat := 0x03
def stHelmError : Nat := 0x05
def stLinkLost : Nat := 0x06
def stAborted : Nat := 0x07
def stTargetDead : Nat := 0x08
def stNotInstalled : Nat := 0x0B
def stBadVersion : Nat := 0x10
def stBadIdent : Nat := 0x11
def stNotOwner : Nat := 0x12
def stBadShape : Nat := 0x13
def stBadOpcode : Nat := 0x14
def stTableBusy : Nat := 0x15
def stTableSpace : Nat := 0x16
def stPoisoned : Nat := 0x1E
def stCancelled : Nat := 0x1F

/-- The status of R209 for a status of R93. -/
def statusOf (s : Nat) : Nat :=
  if s = 2 then stUnmapped else if s = 3 then stDenied else if s = 4 then stTargetDead
  else if s = 7 then stLinkLost else if s = 8 then stAborted else s

/-- Place of a status among the per-status counters of R424. -/
def statusIndex (s : Nat) : Nat := if s < 0x10 then 1 + s else 15 + (s - 0x10)

/-! ## Entries -/

/-- The port of a berth's rings. -/
def Work.portOf (w : Work) (b : Nat) : Nat := ((w.bindOf b).map (·.port)).getD 0

/-- The function that a berth's rings are reached through. -/
def Work.funcOf (w : Work) (b : Nat) : FuncRef :=
  match w.bindOf b with
  | some x => { port := x.port, func := x.func }
  | none => {}

/-- Entries of a ring, or descriptors of a PX2 ring (R397, R418). -/
def ringSize (r : Ring) : Nat := if r.px2 then 2 ^ (r.log2 + 1) else 2 ^ r.log2

/-- The started entry of a place. -/
def Work.started (w : Work) (e : EntryRef) : Option RingEntry :=
  (w.ring e.berth e.ring).started.find? fun x => x.index = e.index

/-- PHASE of an entry's word: bit 12 of a manifest, bit 162 of a PX2 descriptor (R399, R418). -/
def entryPhase (r : Ring) (word : Nat) : Nat := if r.px2 then bits word 162 162 else bits word 12 12

/-- Move DONE past the longest completed run (R398). -/
def advanceDone (size : Nat) : Nat → Ring → Ring
  | 0, r => r
  | fuel + 1, r =>
    if r.doneIx ∈ r.doneSet then
      advanceDone size fuel { r with doneSet := rmv r.doneSet r.doneIx, doneIx := (r.doneIx + 1) % size }
    else r

/-- Take an entry off its ring as completed; a draining ring with nothing left is disabled (R422). -/
def retireEntry (index : Nat) (r : Ring) : Ring :=
  let r := { r with started := r.started.filter fun x => x.index ≠ index, doneSet := addTo r.doneSet index, partly := false }
  let r := advanceDone (ringSize r) r.doneSet.length r
  if r.state = 3 && r.started = [] && r.fetched = [] then { r with state := 0 } else r

/-- Write the completion record of an entry, then its signal, then its interrupt (R406); of an entry that its ring no longer holds, nothing (R420). -/
def Work.finish (w : Work) (e : EntryRef) (x : RingEntry) (status detail result : Nat) : Work :=
  let r := w.ring e.berth e.ring
  let f := w.funcOf e.berth
  let rec_ := pack [(16, e.index), (1, entryPhase r x.word), (7, 0), (8, status), (16, detail), (16, 0), (64, result)]
  let w := w.hostWrite f (r.cplBase + 16 * e.index) (leBytes 16 rec_)
  let w := (w.count 15 f.port (statusIndex status)).onRing e.berth e.ring (retireEntry e.index)
  let w := if !r.px2 && bit x.word 15 then (w.markAdd e.berth (bits x.word 59 48) 1).2 else w
  let irq := if r.px2 then bit x.word 161 else bit x.word 13
  if irq then w.raise f r.vector else w

/-- Complete a started entry (R406). -/
def Work.complete (w : Work) (e : EntryRef) (status : Nat) (detail : Nat := 0) (result : Nat := 0) : Work :=
  match w.started e with
  | some x => w.finish e x status detail result
  | none => w

/-- Complete the entry that something waits for, if there is one. -/
def Work.completeOpt (w : Work) (e : Option EntryRef) (status : Nat) (detail : Nat := 0) (result : Nat := 0) : Work :=
  match e with
  | some e => w.complete e status detail result
  | none => w

/-- The ring of a berth is the manager's: its berth manages the port it is bound to (R408, R425). -/
def Work.isManager (w : Work) (b : Nat) : Bool := (List.range 4).any fun p => w.mgr p = b

/-- Mark a started entry as running, so that its command runs once. -/
def Work.markRunning (w : Work) (e : EntryRef) : Work :=
  w.onRing e.berth e.ring fun r => { r with started := r.started.map fun x =>
    if x.index = e.index then { x with progress := 1 } else x }

/-- Leave a started entry waiting: what it needs is held (R355). -/
def Work.keepWaiting (w : Work) (e : EntryRef) : Work :=
  w.onRing e.berth e.ring fun r => { r with started := r.started.map fun x =>
    if x.index = e.index then { x with progress := 0 } else x }

/-- The Quartermaster's firmware is being replaced: service commands and orders wait (R559). -/
def Work.svcPaused (w : Work) : Bool := w.unitPaused 0

/-- The command of a started entry: it must carry the row's opcode and not be running yet; a service command waits while the Quartermaster's firmware is replaced, a Helm command while the Helm's microcode is (R559). A manager command on another ring completes NOT_OWNER (R408). -/
def Work.command (w : Work) (e : EntryRef) (opcode : Nat) (manager : Bool) (k : Nat → Work → Work) : Work :=
  match w.started e with
  | none => w
  | some x =>
    if x.progress ≠ 0 || bits x.word 7 0 ≠ opcode || (w.ring e.berth e.ring).px2 || (0x40 ≤ opcode && opcode ≤ 0x44 && w.svcPaused)
        || (0x14 ≤ opcode && opcode ≤ 0x16 && w.helmPaused) then w
    else if manager && !w.isManager e.berth then w.complete e stNotOwner
    else k x.word (w.markRunning e)

/-- Set PARTIAL while a command passes through intermediate states (R409, R560). -/
def Work.setPartial (w : Work) (e : EntryRef) : Work :=
  w.onRing e.berth e.ring fun r => { r with partly := true }

/-! ## Structures read through a pointer (R408) -/

/-- The outcome of reading a structure: its bytes and whether poison was read, a failing status, or a wait on a held page. -/
inductive Fetched where
  | ok (data : List Byte) (poison : Bool)
  | fail (status : Nat)
  | wait

/-- Read n bytes of host memory by a function (R408 SPACE 1). -/
def Work.readHost (w : Work) (f : FuncRef) (a n : Nat) : Fetched :=
  if !w.portUp f.port then .fail stLinkLost
  else .ok (w.mem.bytes (hostKey f.port a) n) (w.poisoned (hostKey f.port a) n)

/-- Read n bytes of the structure that a body's pointer names. -/
def Work.readPointer (w : Work) (e : EntryRef) (word n : Nat) : Fetched × Work :=
  if bit word 192 then (w.readHost (w.funcOf e.berth) (bits word 191 128) n, w)
  else
    match w.readDva (129 + w.portOf e.berth) e.berth (bits word 191 128 % 2 ^ 57) n with
    | (.ok d ps, w) => (.ok d (ps ≠ []), w)
    | (.wait, w) => (.wait, w)
    | (.bad s _ _, w) => (.fail (statusOf s), w)

/-- Read a structure and go on with its word; a failed read completes the entry with its status (R407), poison with POISONED. -/
def Work.withStructure (w : Work) (e : EntryRef) (word n : Nat) (k : Nat → Work → Work) : Work :=
  match w.readPointer e word n with
  | (.ok d p, w) => if p then w.complete e stPoisoned else k (leNat d) w
  | (.fail s, w) => w.complete e s
  | (.wait, w) => w.keepWaiting e

/-! ## What a manager may name (R427) -/

/-- The pool of the port that an entry's manager manages. -/
def Work.poolOf (w : Work) (e : EntryRef) : Pool := w.pool (w.portOf e.berth)

/-- A berth lies in the issuing manager's pool, or is the manager itself. -/
def Work.berthInPool (w : Work) (e : EntryRef) (b : Nat) : Bool :=
  let p := w.poolOf e
  inRun p.berthFirst p.berthCount b && b < 4096 && (w.hub.board.berthsHigh || b < 256) || b = e.berth

/-- An item of a kind of R433 lies in the pool; an engine that the start has failed counts as none (R6). -/
def Work.itemInPool (w : Work) (e : EntryRef) (kind i : Nat) : Bool :=
  let p := w.poolOf e
  match kind with
  | 0 => i < 16 && bit p.sites i && bit w.hub.board.sites i
  | 1 => i < 64 && bit p.wright i && !(tget ({} : Wright) w.hub.wrights i).failed
  | 2 => i < 4096 && inRun p.markFirst p.markCount i
  | 3 => i < 1024 && inRun p.gateFirst p.gateCount i
  | 4 => i < 512 && inRun p.semFirst p.semCount i
  | 5 => i < 1024 && inRun p.recipeFirst p.recipeCount i
  | 6 => i < 256 && inRun p.tableFirst p.tableCount i
  | 7 => i < 4096 && inRun p.packFirst p.packCount i
  | _ => i < 64 && (i = 0 || bit p.regroups i)

/-- Every block of a run of DPAs lies in regions of the pool that are installed. -/
def Work.blocksInPool (w : Work) (e : EntryRef) (dpa blocks : Nat) : Bool :=
  let lo := dpa / 2 ^ 30
  let hi := (dpa + blocks * 65536 - 1) / 2 ^ 30
  blocks = 0 || ((List.range (hi + 1 - lo)).all fun i => lo + i < w.regions && bit (w.poolOf e).regions (lo + i))

end Sys2Proof.Machine
end

