-- ==== Sys2Proof/Machine/Routes.lean ====
section
/-! DEFINITION. Routers, links and routes of the fabric (R270, R271, R273, R275): which routers a bundle joins, the endpoints of a router, the routing tables. -/

namespace Sys2Proof.Machine

/-! ## Links and bundles (R271) -/

/-- The bundle of a link: links are numbered in the order of the table of R271 (R580). -/
def bundleOf (l : Nat) : Nat :=
  if l < 240 then l / 8 else if l < 247 then 30 else if l < 255 then 31 + (l - 247)
  else if l < 287 then 39 + (l - 255) / 4 else 47 + (l - 287) / 8

/-- The links of a bundle. -/
def linksOfBundle (b : Nat) : List Nat := (List.range 303).filter fun l => bundleOf l = b

/-- The routers of R270 that are not site routers. -/
def hb0 : Nat := 16
def hb1 : Nat := 17
def hb2 : Nat := 18
def cc : Nat := 19
def edgeN : Nat := 20
def edgeW : Nat := 21
def edgeE : Nat := 22
def edgeS : Nat := 23

/-- The two routers that a bundle joins, the first-named one first (R271): rows, columns, the band, the chain, the edges. -/
def bundleEnds (b : Nat) : Nat × Nat :=
  if b < 12 then (4 * (b / 3) + b % 3, 4 * (b / 3) + b % 3 + 1)
  else if b < 16 then (b - 12, b - 8)
  else if b < 20 then (b - 8, b - 4)
  else if b < 28 then [(4, hb0), (8, hb0), (5, hb1), (9, hb1), (6, cc), (10, cc), (7, hb2), (11, hb2)].getD (b - 20) (cc, cc)
  else if b < 31 then [(hb0, hb1), (cc, hb2), (hb1, cc)].getD (b - 28) (cc, cc)
  else if b < 35 then (edgeN, b - 31)
  else if b < 39 then (edgeS, b - 35 + 12)
  else if b < 43 then (edgeW, 4 * (b - 39))
  else if b < 47 then (edgeE, 4 * (b - 43) + 3)
  else if b = 47 then (edgeW, hb0) else (edgeE, hb2)

/-- Bundles that have lost all their links. -/
def Work.lostBundles (w : Work) : List Nat :=
  (List.range 49).filter fun b => (linksOfBundle b).all fun l => l ∈ w.hub.fabric.linksOut

/-! ## Routes (R273, R275) -/

/-- Routers joined to each router by the bundles that are not left out, lowest number first. -/
def neighbours (without : List Nat) (r : Nat) : List Nat :=
  let ends := ((List.range 49).filter fun b => b ∉ without).map bundleEnds
  (List.range 24).filter fun n => ends.any fun (x, y) => (x = r && y = n) || (x = n && y = r)

/-- One round of a breadth-first walk: what one more step reaches, at distance k. -/
def treeRound (nb : List (List Nat)) (k : Nat) (seen : Tab Nat) : Tab Nat :=
  ((List.range 24).filter fun r => (tfind seen r).isNone && (nb.getD r []).any fun n => n < edgeN && tfind seen n = some (k - 1)).foldl
    (fun t r => tset t r k) seen

/-- Distance of each router from CC in the breadth-first tree; an endpoint router carries no further (R273). -/
def treeLevels (nb : List (List Nat)) : Tab Nat := (List.range 24).foldl (fun t k => treeRound nb (k + 1) t) [(cc, 0)]

/-- A step leads towards CC: to a lower level of the tree, on one level to the lower router number. -/
def towardsCC (lev : Tab Nat) (r n : Nat) : Bool :=
  let a := tget 24 lev r
  let b := tget 24 lev n
  b < a || (b = a && n < r)

/-- Key of a table entry: the destination, and whether the message has already gone away from CC. -/
def routeKey (d : Nat) (down : Bool) : Nat := 2 * d + b2n down

/-- One round of the routes to a destination: (distance, next hop) of the routers and senses that one more step reaches; the lowest next hop wins. -/
def routeRound (nb : List (List Nat)) (lev : Tab Nat) (d k : Nat) (got : Tab (Nat × Nat)) : Tab (Nat × Nat) :=
  ((List.range 48).filter fun x => (tfind got x).isNone).foldl (fun t x =>
    let r := x / 2
    let down := x % 2 = 1
    let step (n : Nat) : Bool :=
      let up := towardsCC lev r n
      (n < edgeN || n = d) && (up → !down) && (match tfind got (routeKey n (down || !up)) with | some (j, _) => j = k - 1 | none => false)
    match (nb.getD r []).find? step with
    | some n => tset t x (k, n)
    | none => t) got

/-- The shortest up*/down* routes to a destination, by router and sense (R275). -/
def routesTo (nb : List (List Nat)) (lev : Tab Nat) (d : Nat) : Tab (Nat × Nat) :=
  (List.range 24).foldl (fun t k => routeRound nb lev d (k + 1) t) [(routeKey d false, 0, d), (routeKey d true, 0, d)]

/-- The routing tables of the 24 routers (R275): for each destination and sense the next hop. -/
def routeTables (without : List Nat) : List (Tab Nat) :=
  let nb := (List.range 24).map (neighbours without)
  let lev := treeLevels nb
  let all := (List.range 24).map (routesTo nb lev)
  (List.range 24).map fun r => (List.range 48).filterMap fun x =>
    match tfind (all.getD (x / 2) []) (2 * r + x % 2) with
    | some (k, n) => if k = 0 then none else some (x, n)
    | none => none

/-- The Quartermaster writes the tables of the bundles that have links (R275). -/
def Work.writeRoutes (w : Work) : Work := w.onFabric fun f => { f with tables := routeTables w.lostBundles }

/-! ## Endpoints (R270) -/

/-- The endpoint of a home slice: its router and its number there. -/
def sliceEnd (s : Nat) : Nat × Nat := (if s < 11 then hb0 else if s < 21 then hb1 else hb2, 1000 + s)

/-- The endpoint of a Wright engine: its site router, or that of its spare position, A at HB1 or B at CC (R270, R274). -/
def Work.wrightEnd (w : Work) (x : Nat) : Nat × Nat :=
  let p := w.hub.start.wrightMap.getD x x
  (if p = 64 then hb1 else if p = 65 then cc else p / 4, 100 + x)

/-- The endpoint of an agent that reads for itself. -/
def Work.ownEnd (w : Work) (a : Agent) : Nat × Nat :=
  match a with
  | .site n => (n, 0)
  | .wright x => w.wrightEnd x
  | .bearing b | .keeper b _ => (b, 1)
  | .porter p j => (edgeN, 16 + 8 * p + j)
  | .placement p => (edgeN, p)
  | .hawser h _ => (edgeS, h)
  | .fetch _ | .hub => (cc, 0)

/-- The endpoint from which an agent's requests enter the fabric; a fetch goes out from its reader's. -/
def Work.agentEnd (w : Work) (a : Agent) : Nat × Nat :=
  match a with
  | .fetch i => match tfind w.hub.fabric.fetches i with | some f => w.ownEnd f.owner | none => w.ownEnd a
  | _ => w.ownEnd a

/-- The endpoint of the memory behind a DPA: a channel's controller, a Hold die's port, a host port, the Hawser ports. -/
def Work.memEnd (w : Work) (d : Nat) : Nat × Nat :=
  match w.target d with
  | .board _ => (if channelOf d < 64 then edgeW else edgeE, 2000 + channelOf d)
  | .scratch p => (hb0 + p / 16, 3000)
  | .host p _ => (edgeN, p)
  | _ => (edgeS, 0)

/-! ## Order (R276, R277) -/

/-- The five coherent opcodes (R284). -/
def coherentKind (k : ReqKind) : Bool :=
  k = .rdShared || k = .rdUnique || k = .upgrade || k = .wbDirty || k = .evictClean

/-- The length in bytes that a request's answer carries. -/
def answerBytes (r : MemReq) : Nat := if coherentKind r.kind then 128 else r.bytes

/-- First and last line of a request. -/
def linesOf (r : MemReq) : Nat × Nat := (r.dpa / 128, (r.dpa + answerBytes r - 1) / 128)

/-- Two requests touch a line in common. -/
def sharesLine (a b : MemReq) : Bool := (linesOf a).1 ≤ (linesOf b).2 && (linesOf b).1 ≤ (linesOf a).2

/-- The endpoint that sends a request: the home that hands it on, else its agent's. -/
def Work.reqFrom (w : Work) (r : MemReq) : Nat × Nat := if r.viaHome then sliceEnd (sliceOf r.dpa) else w.agentEnd r.agent

/-- A source sends a request for a line at the priority of its earlier outstanding ones for that line or below (R277). -/
def Work.sendPrio (w : Work) (r : MemReq) : Nat :=
  ((w.hub.fabric.reqs.filter fun (_, x) => sharesLine x r && w.reqFrom x = w.reqFrom r).map fun (_, x) => x.prio).foldl min r.prio

/-- Send a request on REQ (R277, R278). -/
def Work.send (w : Work) (r : MemReq) : Work := w.issue { r with prio := w.sendPrio r }

/-- Priority at which a request is served: an aged message as priority 3 (R276). -/
def reqPrio (r : MemReq) : Nat := if r.aged then 3 else r.prio

/-- A message of the REQ network to a home may not pass an earlier one of the same source to the same slice unless its priority is higher (R277). -/
def Work.reqBehind (w : Work) (id : Nat) (r : MemReq) : Bool :=
  w.hub.fabric.reqs.any fun (i, x) => i < id && !x.atHome && w.agentEnd x.agent = w.agentEnd r.agent
    && sliceOf (x.dpa + 128 * x.done) = sliceOf (r.dpa + 128 * r.done) && reqPrio r ≤ reqPrio x

/-- The same towards the memory behind the homes, for what has not arrived there. -/
def Work.memBehind (w : Work) (id : Nat) (r : MemReq) : Bool :=
  w.hub.fabric.reqs.any fun (i, x) => i < id && x.atHome && x.queued.isNone && w.reqFrom x = w.reqFrom r && w.memEnd x.dpa = w.memEnd r.dpa && reqPrio r ≤ reqPrio x

/-- The same on RSP and DAT, between two endpoints. -/
def Work.rspBehind (w : Work) (id : Nat) (r : Rsp) : Bool :=
  let prio (i : Nat) (x : Rsp) : Nat := if i ∈ w.hub.fabric.aged then 3 else x.prio
  w.hub.fabric.rsps.any fun (i, x) => i < id && x.site = r.site && x.read = r.read && x.src = r.src && prio id r ≤ prio i x

/-- The engine that sent a packet: a token's origin, or the keeper of its expert. -/
def Work.tokFrom (w : Work) (p : Packet) : Nat × Nat :=
  if p.kind = .dispatch then (handleHub p.token, handleEngine p.token)
  else match w.table p.table with
    | some t => (w.hubId, keeperOf (expertOf t p.expert))
    | none => (w.hubId, 0)

/-- The same on TOK, between two engines. -/
def Work.tokBehind (w : Work) (id : Nat) (p : Packet) : Bool :=
  let aged (i : Nat) : Bool := i ∈ w.hub.fabric.aged
  w.hub.fabric.toks.any fun (i, x) => i < id && x.dst = p.dst && (x.kind = .dispatch ↔ p.kind = .dispatch) && w.tokFrom x = w.tokFrom p && (aged id → aged i)

/-! ## Outstanding requests of a group (R339) -/

/-- Requests of the fabric, the homes and the Hawser edge; of what a home has let pass, only what is still on its way. -/
def Work.allReqs (w : Work) : List MemReq :=
  w.hub.fabric.reqs.map (·.2) ++ w.hub.ledger.waits.flatMap (·.2)
    ++ w.hub.ledger.txns.filterMap (fun (_, t) => match t.why with | .request r => if t.passed then none else some r | _ => none)
    ++ w.hub.hawser.winWait.map (·.req) ++ w.hub.hawser.outstanding.map (·.2.req)

/-- The resource of R566 that a request to a DPA loads: board memory, the Hold, a host port by direction. -/
def Work.resourceOf (w : Work) (d : Nat) (write : Bool) : Option Nat :=
  match w.target d with
  | .board _ => some 0
  | .scratch _ => some 1
  | .host p _ => some (if write then 6 + p else 2 + p)
  | _ => none

/-- A request moves data from the hub to its memory. -/
def movesDown (k : ReqKind) : Bool := !(k = .read || k = .rdNc || k = .rdShared || k = .rdUnique || k = .upgrade || k = .evictClean)

/-- A source has OT_MAX requests of a berth's group outstanding on a resource, so that it issues no more (R339). -/
def Work.otStops (w : Work) (a : Agent) (b d : Nat) (write : Bool) : Bool :=
  match w.resourceOf d write with
  | none => false
  | some k => match tfind w.hub.bwr.recs (w.groupOf b * 10 + k) with
    | none => false
    | some g => 2 ≤ g.mode && g.otMax ≤
        (w.allReqs.filter fun r => r.agent = a && w.groupOf r.berth = w.groupOf b && w.resourceOf r.dpa (movesDown r.kind) = some k).length

end Sys2Proof.Machine
end

