-- ==== Sys2Proof/Machine/LedgerOps.lean ====
section
/-! DEFINITION. The shared operations of the Ledger (R283-R296): entries, snoops, transactions of a line, and how the home serves each request (R287). -/

namespace Sys2Proof.Machine

/-! ## Entries and poison -/

/-- Change the Ledger. -/
def Work.onLedger (w : Work) (f : Ledger → Ledger) : Work := w.onHub fun h => { h with ledger := f h.ledger }

/-- The entry of a line (R285); none is state I. -/
def Work.lineEntry (w : Work) (l : Nat) : Option LEntry := tfind w.hub.ledger.entries l

/-- Record or free a line's entry; an entry that names no holder is freed. -/
def Work.setEntry (w : Work) (l : Nat) (e : Option LEntry) : Work :=
  w.onLedger fun x => match e with
    | some e => if e.st = .S && e.sharers = [] then { x with entries := tdel x.entries l } else { x with entries := tset x.entries l e }
    | none => { x with entries := tdel x.entries l }

/-- The sites that an entry records. -/
def holdersOf (e : LEntry) : List Nat :=
  match e.st with
  | .S => e.sharers
  | .EM => [e.owner]
  | .O => e.owner :: e.sharers.filter (· ≠ e.owner)

/-- Slice and set of a line, as one number (R283). -/
def ledgerSet (l : Nat) : Nat := sliceOf (l * 128) * 32768 + l % 32768

/-- Ports that serve the berths given. -/
def Work.portsOf (w : Work) (bs : List Nat) : List Nat :=
  (List.range 4).filter fun p => bs.any fun b => w.portOfBerth b = some p

/-- The berths that own what lies at a DPA: a board block's, the holder of a scratch partition (R303, R326). -/
def Work.ownersAt (w : Work) (d : Nat) : List Nat :=
  match w.target d with
  | .board _ => w.ownersOf d
  | .scratch p => [(w.part p).holder]
  | _ => []

/-- The berths that own a line receive a poisoned-line fault (R326-R328, R450). -/
def Work.faultOwners (w : Work) (d : Nat) : Work :=
  let bs := w.ownersAt d
  (each bs (fun b w => w.viewCount b 9) w).irqs (w.portsOf bs) 5

/-- The Ledger poisons a line in memory: the Log names the owner, the owners receive the fault (R103, R292, R294). -/
def Work.poisonLine (w : Work) (l cause : Nat) : Work :=
  let d := l * 128
  let group := isBoard d && bits (w.ownerOf d) 15 14 = 2
  let w := (w.op (.poison l)).count 6 (sliceOf d) 6
  let w := w.log { cls := 8, sev := 2, cause := cause, unit := sliceOf d, addr := d, berth := if group then none else (w.ownersAt d).head? }
  w.faultOwners d

/-- The key slot and generation under which a granule is stored, for the home's own reads of a line that no leaf names (log 22). -/
def Work.storedKey (w : Work) (d : Nat) : Nat × Nat :=
  match w.hub.memory.keys.find? fun (_, v) => v = w.tagOf d with
  | some (k, _) => (k / 2, k % 2)
  | none => (0, 0)

/-! ## Snoops -/

/-- Lowest free snoop tag of a site (R98). -/
def freeStag (p : SPort) : Option Nat := (List.range 1024).find? fun t => (tfind p.snoops t).isNone

/-- Priority at which a snoop is served: an aged one as priority 3 (R276). -/
def snoopPrio (s : Snoop) : Nat := if s.aged then 3 else s.prio

/-- The snoop that the SNP network delivers to a site next: the oldest of the highest priority (R276, R277). -/
def nextSnoop (q : List Snoop) : Option Snoop := q.find? fun s => q.all fun x => snoopPrio x ≤ snoopPrio s

/-- Send the snoops that wait at a site while credits and tags last (R83, R98); none is injected while the routing tables are re-formed (R280, R296). -/
def Work.snpDrain (w : Work) (n : Nat) : Nat → Work
  | 0 => w
  | fuel + 1 =>
    let p := (w.site n).port
    match nextSnoop p.snpQueue, freeStag p with
    | some s, some t =>
      if p.fromChip.snpHdr = 0 || !streamUp (w.site n) || w.hub.fabric.heldFrom.isSome then w
      else
        let w := w.onSPort n fun p => { p with snpQueue := p.snpQueue.erase s, snoops := tset p.snoops t s,
                                               fromChip := { p.fromChip with snpHdr := p.fromChip.snpHdr - 1 } }
        ((w.siteSend n (snpBytes s.op t (s.line * 128))).count 6 (sliceOf (s.line * 128)) (1 + s.op % 16)).snpDrain n fuel
    | _, _ => w

/-- Ask a site to give up, share or clean a line (R98, R287), at the priority of the request that calls for it. Towards an isolated site the snoop is held for the reclaim (R281). -/
def Work.snoop (w : Work) (n l op : Nat) (host : Bool := false) (prio : Nat := 1) : Work :=
  let w := w.onSPort n fun p => { p with snpQueue := p.snpQueue ++ [{ line := l, op := op, host := host, prio := prio }] }
  w.snpDrain n (w.site n).port.snpQueue.length

def snpInv : Nat := 0x20
def snpShare : Nat := 0x21
def snpClean : Nat := 0x22

/-! ## What a request asks of the home -/

/-- The site that issued a request. -/
def reqSite (r : MemReq) : Option Nat := match r.agent with | .site n => some n | _ => none

/-- Reads that leave no holder (R287). -/
def readsOnly (k : ReqKind) : Bool := k = .rdNc || k = .read

/-- Requests that end every copy: writes, atomics, reductions, combines (R287). -/
def endsCopies (k : ReqKind) : Bool :=
  k = .wr || k = .wrPartial || k = .atomic || k = .reduce || k = .write || k = .combine

/-- The line a request is at now. -/
def reqLine (r : MemReq) : Nat := r.dpa / 128 + r.done

/-- Lines that a request touches (R87, R284): a coherent request has one. -/
def reqLines (r : MemReq) : Nat := if coherentKind r.kind then 1 else (partsOf 128 r.dpa r.bytes).length

/-- A request writes every byte of its present line. -/
def wholeLine (r : MemReq) : Bool :=
  (r.kind = .wr || r.kind = .write) && whole 128 r.dpa r.bytes (reqLine r)

/-- Snoops that a request sends (R287): the sites and the snoop. -/
def snoopsFor (r : MemReq) (e : Option LEntry) : List (Nat × Nat) :=
  match e with
  | none => []
  | some e =>
    let others := (holdersOf e).filter fun n => reqSite r ≠ some n
    match r.kind with
    | .rdShared => if e.st = .S || reqSite r = some e.owner then [] else [(e.owner, snpShare)]
    | .rdUnique | .upgrade => others.map fun n => (n, snpInv)
    | .wbDirty | .evictClean => []
    | .rdNc | .read => if e.st = .S then [] else [(e.owner, snpShare)]
    | _ => (holdersOf e).map fun n => (n, snpInv)

/-- The request allocates an entry (R287, R290). -/
def allocates (r : MemReq) : Bool := r.kind = .rdShared || r.kind = .rdUnique || r.kind = .upgrade

/-! ## Answers -/

/-- A request of an access of an engine has failed: the access ends with the status (R93, R209). -/
def Work.engFail (w : Work) (a : Agent) (tag status : Nat) : Work :=
  if status = 0 then w else w.onFabric fun f => { f with failed := f.failed ++ [(a, tag, status)] }

/-- A placement write may go: in arrival order among the writes of its requester and key whose Relaxed Ordering is clear, a flag write behind every earlier one (R379). -/
def placeReady (l : List PlaceJob) (j : PlaceJob) : Bool :=
  !j.issued && l.all fun k => !(k.seq < j.seq && k.rid = j.rid && k.key = j.key) || (if j.flag then false else j.relaxed || k.relaxed)

/-- A placement write goes to the homes of its lines, part by part (R378). -/
def Work.placeIssue (w : Work) (p : Nat) (j : PlaceJob) : Work :=
  let parts := pieces j.dpa j.data.length
  let w := w.onPort p fun x => { x with placing := x.placing.map fun k => if k.seq = j.seq then { k with issued := true, left := parts.length } else k }
  each parts (fun (o, n) w => w.issue { agent := .placement p, kind := .wr, tag := j.seq, berth := j.berth, prio := 1, bytes := n,
                                        dpa := j.dpa + o, slot := j.slot, gen := j.gen, data := slice j.data o n }) w

/-- Send on the placement writes of a port that may go. -/
def Work.placePump (w : Work) (p : Nat) : Work :=
  let l := (w.port p).placing
  each (l.filter (placeReady l)) (fun j w => w.placeIssue p j) w

/-- A part of a placement write is performed; with the last one its mark counts (R379) and later writes go. -/
def Work.placed (w : Work) (p seq : Nat) : Work :=
  let w := w.onPort p fun x => { x with placing := x.placing.map fun k => if k.seq = seq then { k with left := k.left - 1 } else k }
  match (w.port p).placing.find? fun k => k.seq = seq && k.left = 0 with
  | none => w
  | some j =>
    let w := (w.onPort p fun x => { x with placing := x.placing.filter fun k => k.seq ≠ seq }).count 14 p 14
    let w := match j.mark with | some m => (w.markAdd j.berth m 1).2 | none => w
    w.placePump p

/-- The endpoint that answers a request: its memory, or the home that it is still before. -/
def Work.answerEnd (w : Work) (r : MemReq) : Nat × Nat := if r.atHome then w.memEnd r.dpa else sliceEnd (sliceOf (reqLine r * 128))

/-- Answer a site's request or another hub's; an engine hears by its own row, a failure is kept for it. -/
def Work.answer (w : Work) (r : MemReq) (status detail : Nat) (data : Option (List Byte)) (grant : Nat := 0) (fmt : Nat := 0) : Work :=
  match r.agent with
  | .site n =>
    let x : Rsp := { site := n, tag := r.tag, berth := r.berth, status := status, grant := grant, line := reqLine r, src := w.answerEnd r, prio := reqPrio r }
    match data with
    | some d => w.reply { x with read := true, fmt := fmt, dpa := if grant = 0 then 0 else reqLine r * 128, data := d }
    | none => w.reply { x with detail := detail }
  | .hawser hub t =>
    let m : BodyMsg := { cls := 1, mkind := 1, dstHub := hub, srcHub := w.hubId, tag := t,
                         opcode := if data.isSome then 0x40 else 0x30, status := status, detail := detail, payload := data.getD [] }
    match w.route hub with
    | some k => w.sendBody k m
    | none => w.count 17 0 18
  | .placement p => w.placed p r.tag
  | .fetch i => w.fetchAnswer i r.dpa status detail data
  | .keeper b i => w.deferWritten b i status
  | .hub => w.spillEnds r status
  | a => w.engFail a r.tag status

/-- A read is answered with its bytes: a FORMAT 5 region travels as zero-run where its site takes that and it is shorter (R170, R173, R177). -/
def Work.answerRead (w : Work) (r : MemReq) (d : List Byte) : Work :=
  match reqSite r, (if r.fmtAsk then r.pack.bind fun k => tfind w.hub.packs k else none) with
  | some n, some p =>
    match (if bit (w.site n).port.packed 4 then zeroRunEncode (eBits (packType p) / 8) d else none) with
    | some z => ((w.count 1 n 2).count 1 n 1).answer r 0 0 (some z) r.grant 5
    | none => w.answer r 0 0 (some d) r.grant
  | _, _ => w.answer r 0 0 (some d) r.grant

/-- Lines whose data came with a request's own snoops stand in place of what memory holds of them (R100, R288). -/
def withForwarded (r : MemReq) (d n : Nat) (bs : List Byte) : List Byte :=
  r.forwarded.foldl (fun bs (l, x) =>
    let lo := max d (128 * l)
    overlay bs (lo - d) (slice x (lo - 128 * l) (min (d + n) (128 * l + 128) - lo))) bs

/-- Hand a request on to the controller of its memory (R276, R288). -/
def Work.toController (w : Work) (r : MemReq) : Work := w.send { r with atHome := true, viaHome := true }

/-! ## Transactions -/

/-- The open transaction of a line. -/
def Work.txn (w : Work) (l : Nat) : Option Txn := tfind w.hub.ledger.txns l

/-- The host snoop that is open on a line (R293). -/
def Work.hostTxn (w : Work) (l : Nat) : Option Txn := tfind w.hub.ledger.hostTxns l

/-- Open or change a line's transaction. -/
def Work.setTxn (w : Work) (l : Nat) (t : Txn) : Work := w.onLedger fun x => { x with txns := tset x.txns l t }

/-- Drop a line's transaction. -/
def Work.dropTxn (w : Work) (l : Nat) : Work := w.onLedger fun x => { x with txns := tdel x.txns l }

/-- Put a request into a line's FIFO (R286). -/
def Work.waitAt (w : Work) (l : Nat) (r : MemReq) (front : Bool := false) : Work :=
  w.onLedger fun x => { x with waits := tmod [] x.waits l fun q => if front then r :: q else q ++ [r] }

/-- The last dirty copy of a shared host line leaves the hub (R293); its data follows with the write. -/
def Work.dirtyEvict (w : Work) (l : Nat) : Work := w.emit (.cacheReq (hostPort (l * 128)) .dirtyEvict (l * 128))

/-- The home writes dirty data to memory under the key of the entry (R100, R287); `leaves` says that the line's last dirty copy leaves the hub. -/
def Work.writeDirty (w : Work) (l : Nat) (e : Option LEntry) (d : List Byte) (leaves : Bool) : Work :=
  let a := l * 128
  let (slot, gen) := match e with | some e => (e.slot, e.gen) | none => w.storedKey a
  let b := (w.ownersOf a).headD 0
  let w := match e with
    | some e => if isHost a && e.shared then (if leaves then w.dirtyEvict l else w) else w.hostReqs .wrCur a 128
    | none => w.hostReqs .wrCur a 128
  (w.holdAccess b slot gen a 128 true 3).put slot gen a (slice d 0 128)

/-- The device-to-host request that a request needs on a line of a shared host page (R293), none where the hub's state suffices. -/
def hostNeed (r : MemReq) (host : Nat) : Option D2H :=
  match r.kind with
  | .rdShared => if host = 0 then some .rdShared else none
  | .rdUnique | .upgrade => if host < 2 then some .rdOwn else none
  | .rdNc | .read => if host = 0 then some .rdCurr else none
  | .wbDirty | .evictClean => none
  | _ => if wholeLine r then some .itoMWr else if host < 2 then some .rdOwn else none

/-- A request has passed the home of its present line: on to the next line's home, or to its end. The lines it has passed stay open until then (R284, R286); a write of an engine holds them until it is done (R189). -/
def Work.passLine (w : Work) (r : MemReq) : Work :=
  if r.done + 1 < reqLines r then w.issue { r with done := r.done + 1 }
  else
    let lines := (List.range (reqLines r)).map (· + r.dpa / 128)
    let r := { r with done := 0, atHome := true, viaHome := true }
    match r.agent with
    | .wright _ | .bearing _ | .porter _ _ =>
      if endsCopies r.kind then each lines (fun l w => w.onLedger fun x => { x with txns := tmod {} x.txns l fun t => { t with passed := true } }) w
      else each lines (fun l w => w.dropTxn l) w
    | _ =>
      let w := each lines (fun l w => w.dropTxn l) w
      if readsOnly r.kind && lines.all (fun l => r.forwarded.any fun (m, _) => m = l) then
        match w.accessCheck r.berth r.dpa with
        | some (s, d) => w.answer r s d none
        | none =>
          w.answerRead r (withForwarded r r.dpa r.bytes (List.replicate r.bytes 0))
      else w.send r

/-- A granted line's transaction closes; sharers of a line that a reclaim met meanwhile are invalidated first (R102, R286, R292). -/
def Work.closeGrant (w : Work) (l : Nat) (t : Txn) : Work :=
  if t.after = [] then w.dropTxn l
  else each t.after (fun m w => w.snoop m l snpInv) (w.setTxn l { why := .reclaim, waiting := t.after })

/-- What the owner table says to a request whose line's data does not come from its controller (R94, R314); a host line was checked at its home. -/
def Work.forwardCheck (w : Work) (r : MemReq) (l : Nat) : Option (Nat × Nat) := if isHost (l * 128) then none else w.accessCheck r.berth (l * 128)

/-- Grant a line to a site: the entry, and the data or the hand-over to the controller (R287, R288). Where the owner's data has gone ahead the requester has its answer. -/
def Work.grantLine (w : Work) (l : Nat) (t : Txn) (r : MemReq) (e : LEntry) (grant : Nat) (data : Option (List Byte)) : Work :=
  let n := (reqSite r).getD 0
  let enters (w : Work) : Work := ((w.setEntry l (some e)).onLedger fun x => { x with births := x.births + 1 }).setTxn l { t with ackFrom := some n, hostWait := false }
  if t.early then (if t.acked then (enters w).closeGrant l t else enters w)
  else match data with
  | some d =>
    match w.forwardCheck r l with
    | some (s, x) => (w.dropTxn l).answer r s x none
    | none => (enters w).answer r 0 0 (some d) grant
  | none => (enters w).toController { r with grant := grant }

/-- Key and bias that the entry of a line takes from the request that opens it. -/
def freshEntry (w : Work) (r : MemReq) (old : Option LEntry) : LEntry :=
  match old with
  | some e => { e with sharers := [] }
  | none => { slot := r.slot, gen := r.gen, shared := r.shared, born := w.hub.ledger.births }

/-- A WB_DIRTY from a site that the home does not record as the owner is discarded, counted and logged (R287, R582). -/
def Work.discardWb (w : Work) (l n : Nat) (r : MemReq) : Work :=
  ((w.onLedger fun x => { x with discarded := x.discarded + 1 }).log { cls := 8, sev := 1, cause := 0x8020, unit := n, addr := l * 128, berth := some r.berth }).answer r 0 0 none

/-- A site owns a line in the home's record. -/
def ownsLine (e : Option LEntry) (n : Nat) : Bool :=
  match e with
  | some x => (x.st = .EM || x.st = .O) && x.owner = n
  | none => false

/-- A write-back of the recorded owner (R287, R293): data that the host already has is not sent again. -/
def Work.serveWb (w : Work) (l n : Nat) (x : LEntry) (r : MemReq) : Work :=
  let w := w.setEntry l (if x.st = .O then some { x with st := .S, sharers := x.sharers.filter (· ≠ n), host := min x.host 1 } else none)
  let w := w.dropTxn l
  if x.shared && isHost (l * 128) then
    if x.host = 1 then w.answer r 0 0 none
    else (w.dirtyEvict l).toController { r with slot := x.slot, gen := x.gen }
  else w.toController { r with slot := x.slot, gen := x.gen }

/-- A site gives up a clean line (R97, R287). -/
def Work.serveEvict (w : Work) (l n : Nat) (r : MemReq) : Work :=
  let w := match w.lineEntry l with
    | some x =>
      if x.st = HomeState.EM then (if x.owner = n then w.setEntry l none else w)
      else w.setEntry l (some { x with sharers := x.sharers.filter (· ≠ n) })
    | none => w
  (w.dropTxn l).answer r 0 0 none

/-- RD_SHARED after its snoops (R287): a line of a shared host page that the hub holds in S is granted S (log 23). -/
def Work.serveShared (w : Work) (l n : Nat) (t : Txn) (r : MemReq) (data : Option (List Byte)) : Work :=
  match w.lineEntry l with
  | some x =>
    let shares := if x.st = .EM then [x.owner] else x.sharers
    w.grantLine l t r { x with st := if x.st = .O then .O else .S, sharers := addTo shares n } 1 data
  | none =>
    if t.early || r.shared && isHost (l * 128) then w.grantLine l t r { freshEntry w r none with st := .S, sharers := [n], host := if r.shared && isHost (l * 128) then 1 else 0 } 1 data
    else w.grantLine l t r { freshEntry w r none with st := .EM, owner := n } 2 data

/-- RD_UNIQUE and UPGRADE after their snoops (R287). -/
def Work.serveOwn (w : Work) (l n : Nat) (t : Txn) (r : MemReq) (data : Option (List Byte)) : Work :=
  let e := w.lineEntry l
  let held := match e with | some x => decide (n ∈ holdersOf x) | none => false
  let onHost := r.shared && isHost (l * 128)
  let x : LEntry := { freshEntry w r e with st := .EM, owner := n, host := if onHost then 2 else 0 }
  if r.kind = .upgrade && held then
    ((w.setEntry l (some x)).setTxn l { t with ackFrom := some n, hostWait := false }).answer r 0 0 none 3
  else w.grantLine l t { r with slot := x.slot, gen := x.gen } x (if r.kind = .upgrade then 3 else 2) data

/-- An agent that holds no lines and takes forwarded data into its own access (R288). -/
def engineReads (r : MemReq) : Bool := match r.agent with | .wright _ | .porter _ _ | .bearing _ => true | _ => false

/-- Data of a snooped owner on its way to an engine's access (R288). -/
def Work.forwardTo (w : Work) (r : MemReq) (l : Nat) (d : List Byte) : Work :=
  w.onFabric fun f => { f with fwd := f.fwd ++ [{ agent := r.agent, tag := r.tag, line := l, data := slice d 0 128 }] }

/-- A read that leaves no holder: forwarded data goes to the requester, else memory is read (R287, R288). -/
def Work.serveRead (w : Work) (l : Nat) (t : Txn) (r : MemReq) (data : Option (List Byte)) : Work :=
  if t.early && !engineReads r then w.dropTxn l
  else match data with
  | none => w.passLine r
  | some d => (if engineReads r && !t.early then w.forwardTo r l d else w).passLine { r with forwarded := r.forwarded ++ [(l, slice d 0 128)] }

/-- The home serves a request whose snoops are answered (R287, R289, R293): `hostData` is what the host gave for a shared line. -/
def Work.serveLine (w : Work) (l : Nat) (t : Txn) (r : MemReq) (hostData : Option (List Byte)) : Work :=
  let n := (reqSite r).getD 0
  let data := if t.dirty.isSome then t.dirty else hostData
  match r.kind with
  | .rdShared => w.serveShared l n t r data
  | .rdUnique | .upgrade => w.serveOwn l n t r data
  | .wbDirty =>
    match w.lineEntry l with
    | some x => if ownsLine (some x) n then w.serveWb l n x r else (w.dropTxn l).discardWb l n r
    | none => (w.dropTxn l).discardWb l n r
  | .evictClean => w.serveEvict l n r
  | .rdNc | .read => w.serveRead l t r data
  | _ =>
    let w := match hostData with
      | some d => w.poke (l * 128) (slice d 0 128)
      | none => w
    (w.setEntry l none).passLine r

/-- The snoops of a request's transaction are answered: the host is asked where a shared line needs it, else the request is served (R293). -/
def Work.resolveRequest (w : Work) (l : Nat) (t : Txn) (r : MemReq) : Work :=
  let e := w.lineEntry l
  let host := match e with | some x => x.host | none => 0
  let d := l * 128
  if r.shared && isHost d && t.dirty.isNone then
    match hostNeed r host with
    | some q => (w.setTxn l { t with hostWait := true }).emit (.cacheReq (hostPort d) q d)
    | none => w.serveLine l t r none
  else w.serveLine l t r none

/-- A request that ends before its last line frees the lines that it has passed. -/
def Work.dropPassed (w : Work) (r : MemReq) : Work := each (List.range r.done) (fun i w => w.dropTxn (r.dpa / 128 + i)) w

/-- Begin a request at the home of its line (R286, R287, R290); the line has no open transaction. A line that the host lost reads POISON; a partial write, ATOMIC or REDUCE is performed and leaves it poisoned (R291, R294). -/
def Work.beginRequest (w : Work) (l : Nat) (r : MemReq) : Work :=
  let d := l * 128
  let w := w.count 6 (sliceOf d) 0
  if l ∈ w.hub.ledger.hostPoison && (readsOnly r.kind || allocates r) then
    let (d, w) := (w.dropPassed r).junk (answerBytes r)
    w.answer r 1 0 (some d)
  else if l ∈ w.hub.ledger.hostPoison && endsCopies r.kind && !wholeLine r then
    let t : Txn := { why := .request r }
    (w.setTxn l t).serveLine l t r none
  else
    let e := w.lineEntry l
    let same := w.hub.ledger.entries.filter fun (m, _) => ledgerSet m = ledgerSet l
    let room := 16 - (w.hub.ledger.retired.filter fun (s, _) => s = ledgerSet l).length
    if e.isNone && allocates r && room ≤ same.length then
      let free := same.filter fun (m, x) => (w.txn m).isNone && (w.hostTxn m).isNone && !(holdersOf x).any fun n => n ∈ w.hub.ledger.reclaiming
      let low := free.filter fun (_, x) => x.st = .S
      let pick := if low ≠ [] then low.foldl (fun b x => match b with
          | some (y : Nat × LEntry) => if x.2.sharers.length < y.2.sharers.length then some x else b | none => some x) none
        else free.foldl (fun b x => match b with
          | some (y : Nat × LEntry) => if x.2.born < y.2.born then some x else b | none => some x) none
      let w := w.waitAt l r true
      match pick with
      | none => w
      | some (m, x) =>
        let hs := holdersOf x
        let w := (w.setTxn m { why := .evict, waiting := hs }).count 6 (sliceOf (m * 128)) 5
        each hs (fun n w => w.snoop n m snpInv false r.prio) w
    else
      let sn := snoopsFor r e
      let t : Txn := { why := .request r, waiting := sn.map (·.1), alone := sn.length = 1 }
      if sn = [] then (w.setTxn l t).resolveRequest l t r
      else each sn (fun (n, op) w => w.snoop n l op false r.prio) (w.setTxn l t)

/-- The entry of a line names a site whose lines are being reclaimed (R116 step 4). -/
def Work.underReclaim (w : Work) (l : Nat) (r : MemReq) : Bool :=
  match w.lineEntry l with
  | some e => (holdersOf e).any fun n => n ∈ w.hub.ledger.reclaiming && reqSite r ≠ some n
  | none => false

/-- Open transactions of the slice that is a line's home (R286). -/
def Work.openAt (w : Work) (l : Nat) : Nat := (w.hub.ledger.txns.filter fun (k, _) => sliceOf (k * 128) = sliceOf (l * 128)).length

/-- Serve the requests that wait for a line while no transaction and no host snoop is open on it, as far as the slice's 1,024 transactions go (R286). -/
def Work.homeNext (w : Work) (l : Nat) : Nat → Work
  | 0 => w
  | fuel + 1 =>
    match w.txn l, tget [] w.hub.ledger.waits l with
    | none, r :: q =>
      if w.underReclaim l r || (w.hostTxn l).isSome || 1024 ≤ w.openAt l then w
      else
        let w := w.onLedger fun x => { x with waits := if q = [] then tdel x.waits l else tset x.waits l q }
        (w.beginRequest l r).homeNext l fuel
    | _, _ => w

/-- Serve whatever waits at the homes and can go on, pass by pass (R286, R290). -/
def Work.wakePasses (w : Work) : Nat → Work
  | 0 => w
  | fuel + 1 =>
    (each (w.hub.ledger.waits.map (·.1)) (fun m w => w.homeNext m ((tget [] w.hub.ledger.waits m).length)) w).wakePasses fuel

/-! ## Recalls, and the pages that a FLIP, MIGRATE or REKEY holds (R355, R363, R436) -/

/-- Lines of a range of memory that the Ledger tracks. -/
def Work.trackedIn (w : Work) (a n : Nat) : List Nat := (w.hub.ledger.entries.map (·.1)).filter fun l => a ≤ l * 128 && l * 128 < a + n

/-- Some line of a range of memory is tracked or has an open transaction. -/
def Work.openIn (w : Work) (a n : Nat) : Bool :=
  w.trackedIn a n ≠ [] || (w.hub.ledger.txns ++ w.hub.ledger.hostTxns).any fun (l, _) => a ≤ l * 128 && l * 128 < a + n

/-- Recall lines from the sites that a choice of their holders names: SNP_INV to each; a line with an open transaction, or of a slice whose 1,024 are open (R286), is left to a later pass. -/
def Work.recallLines (w : Work) (lines : List Nat) (who : List Nat → List Nat) : Work :=
  each lines (fun l w =>
    match w.txn l, w.lineEntry l with
    | none, some e =>
      let hs := who (holdersOf e)
      if hs = [] || (w.hostTxn l).isSome || 1024 ≤ w.openAt l then w else each hs (fun n w => w.snoop n l snpInv) (w.setTxn l { why := .recall, waiting := hs })
    | _, _ => w) w

/-- Rewrite the leaf at an address in place for a berth's table berth, as hub traffic (R348, R353, R355). -/
def Work.rewriteLeaf (w : Work) (b a : Nat) (f : Nat → Nat) : Work :=
  let r : Root := tget {} w.hub.chart.roots b
  let old := leNat (w.get r.tableBerth r.tkgen a 16)
  (w.holdAccess r.tableBerth r.tableBerth r.tkgen a 16 true 3).put r.tableBerth r.tkgen a (leBytes 16 (f old))

/-- A held page is free again, and its command completes. -/
def Work.pageFree (w : Work) (h : PageHold) (status detail result : Nat) : Work :=
  (w.onChart fun c => { c with holds := c.holds.filter fun x => !(x.berth = h.berth && x.dva = h.dva) }).complete h.entry status detail result

/-- Go on with the recall of held pages: a FLIP whose page has no line left rewrites BIAS and completes (R355). -/
def Work.pageSteps (w : Work) : Work :=
  each (w.hub.chart.holds.filter fun h => h.phase = 1) (fun h w =>
    let n := 2 ^ h.log2
    let w := w.recallLines (w.trackedIn h.pa n) id
    match h.op with
    | .flip v => if w.openIn h.pa n then w else (w.rewriteLeaf h.berth h.leafAddr fun e => putBits e 6 6 (b2n v)).pageFree h 0 0 0
    | _ => w) w

/-- A line has been freed: serve what waits, and go on with recalls. -/
def Work.wakeHome (w : Work) (_l : Nat) : Work := (w.wakePasses w.hub.ledger.waits.length).pageSteps

/-- A write-back that the home held against an open snoop is taken: written, acknowledged, and its data kept for the snooping request (R103). -/
def Work.takeHeldWb (w : Work) (l : Nat) (t : Txn) : Work × Txn :=
  match t.wbReq with
  | none => (w, t)
  | some r =>
    let e := w.lineEntry l
    let n := (reqSite r).getD 0
    if ownsLine e n then
      let w := w.writeDirty l e r.data true
      let w := w.setEntry l (e.bind fun x => if x.st = .O then some { x with st := .S, sharers := x.sharers.filter (· ≠ n) } else none)
      (w.answer r 0 0 none, { t with dirty := some r.data, given := true, wbFrom := none, wbReq := none })
    else (w.discardWb l n r, { t with wbFrom := none, wbReq := none })

/-- A transaction whose snoops are all answered comes to its end: what it was opened for is done (R103, R287, R290, R436). -/
def Work.resolve (w : Work) (l : Nat) : Work :=
  match w.txn l with
  | none => w
  | some t =>
    if t.waiting ≠ [] || t.wbFrom.isSome && t.wbReq.isNone || t.hostWait || t.ackFrom.isSome || t.passed then w
    else
      let (w, t) := w.takeHeldWb l t
      match t.why with
      | .request r => (w.resolveRequest l t r).wakeHome l
      | .evict | .reclaim => ((w.setEntry l none).dropTxn l).wakeHome l
      | .recall | .hostSnoop _ _ => (w.dropTxn l).wakeHome l

/-- What a site's answer leaves in the entry (R100, R103, R287): `final` 0 I, 1 S, 2 O, 3 E. -/
def afterSnoop (e : LEntry) (n final : Nat) : Option LEntry :=
  let rest := e.sharers.filter (· ≠ n)
  let clean (l : List Nat) : Option LEntry := if l = [] then none else some { e with st := .S, sharers := l }
  if !ownsLine (some e) n then (if final ≠ 0 then some e else if e.st = .S then clean rest else some { e with sharers := rest })
  else match final with
    | 0 => if e.st = .O then clean rest else none
    | 1 => clean (addTo rest n)
    | 2 => some { e with st := .O, sharers := rest }
    | _ => some { e with st := .EM, sharers := [] }

/-- A snoop answer of an owner in O with neither data nor a write-back pending: its dirty data is lost (R103). The line is poisoned; the sharers that are left are to be invalidated. -/
def Work.lostDirty (w : Work) (n l : Nat) (t : Txn) : List Nat × Work :=
  let e := w.lineEntry l
  let rest := match e with | some x => x.sharers.filter fun m => m ≠ n && m ∉ t.waiting | none => []
  let w := w.poisonLine l 0
  (rest, w.setEntry l (e.bind fun x => if x.sharers = [] then none else some { x with st := .S, sharers := x.sharers }))

/-- Dirty data that a snoop brought: memory is written but for SNP_SHARE (R100, R287). -/
def Work.snoopData (w : Work) (l op : Nat) (t : Txn) (d : List Byte) : Work :=
  let leaves := match t.why with | .request _ => false | _ => true
  if op = snpShare then w else w.writeDirty l (w.lineEntry l) d leaves

/-- The answer to a request may go as soon as its snooped owner's data is there (R288): its GRANT, 0 for a read that leaves no holder. -/
def earlyGrant (r : MemReq) (e : Option LEntry) : Option Nat :=
  match r.kind with
  | .rdShared => some 1
  | .rdUnique => some 2
  | .upgrade => if (match e with | some x => decide ((reqSite r).getD 16 ∈ holdersOf x) | none => false) then none else some 3
  | .rdNc | .read => if reqLines r = 1 then some 0 else none
  | _ => none

/-- Dirty data of an owner that was snooped alone goes straight to the requester, before the owner's answer to the home (R288). -/
def Work.earlyData (w : Work) (n l : Nat) (d : List Byte) : Work :=
  match w.txn l with
  | none => w
  | some t =>
    match t.why with
    | .request r =>
      match earlyGrant r (w.lineEntry l), w.forwardCheck r l with
      | some g, none =>
        if t.alone && !t.early && t.waiting = [n] then
          let w := w.setTxn l { t with early := true }
          if engineReads r then w.forwardTo r l d
          else w.answerRead { r with grant := g } (if g = 0 then slice d (r.dpa % 128) r.bytes else slice d 0 128)
        else w
      | _, _ => w
    | _ => w

/-- The home takes one site's answer to a snoop of a line's transaction (R99-R103, R289). -/
def Work.snoopAnswered (w : Work) (n l op final : Nat) (dirty : Option (List Byte)) (wbPend : Bool) : Work :=
  match w.txn l with
  | none => w
  | some t =>
    if n ∉ t.waiting then w
    else
      let t := { t with waiting := t.waiting.filter (· ≠ n) }
      let e := w.lineEntry l
      let inO := match e with | some x => x.st = .O | none => false
      if wbPend then (w.setTxn l { t with wbFrom := some n }).resolve l
      else match dirty with
        | some d =>
          let w := (w.snoopData l op t d).setEntry l (e.bind fun x => afterSnoop x n final)
          (w.setTxn l { t with dirty := some d }).resolve l
        | none =>
          if final = 0 && ownsLine e n && inO && t.wbReq.isNone then
            let (rest, w) := w.lostDirty n l t
            let w := w.setTxn l { t with waiting := t.waiting ++ rest }
            (each rest (fun m w => w.snoop m l snpInv) w).resolve l
          else
            let w := if final = 0 then w.count 6 (sliceOf (l * 128)) 4 else w
            let w := if t.wbReq.bind reqSite = some n then w else w.setEntry l (e.bind fun x => afterSnoop x n final)
            (w.setTxn l t).resolve l

/-! ## Snoops of the host (R293) -/

/-- Keep or change the host snoop that is open on a line. -/
def Work.setHostTxn (w : Work) (l : Nat) (t : Txn) : Work := w.onLedger fun x => { x with hostTxns := tset x.hostTxns l t }

/-- A write-back that was held against a host snoop is taken: its data goes to the host, and the site is answered (R103, R293). -/
def Work.hostHeldWb (w : Work) (l : Nat) (t : Txn) : Work × Txn :=
  match t.wbReq with
  | none => (w, t)
  | some r =>
    let e := w.lineEntry l
    let n := (reqSite r).getD 0
    if ownsLine e n then
      let w := w.poke (l * 128) (slice r.data 0 128)
      let w := w.setEntry l (e.bind fun x => if x.st = .O then some { x with st := .S, sharers := x.sharers.filter (· ≠ n) } else none)
      (w.answer r 0 0 none, { t with dirty := some r.data, wbFrom := none, wbReq := none })
    else (w.discardWb l n r, { t with wbFrom := none, wbReq := none })

/-- A grant of the line is on its way to a site's stream: no snoop of the line may go before it (R102, R286). -/
def Work.granting (w : Work) (l : Nat) : Bool := match w.txn l with
  | some x => x.ackFrom.isSome || x.early && (match x.why with | .request r => allocates r | _ => false)
  | none => false

/-- The kind of a host snoop: 0 SnpInv, 1 SnpData, 2 SnpCur. -/
def hostKind (t : Txn) : Nat := match t.why with | .hostSnoop _ k => k | _ => 0

/-- The sites that a host snoop asks, in the home's state as it stands (R293). -/
def Work.hostAsks (w : Work) (l kind : Nat) : List Nat :=
  match w.lineEntry l with
  | none => []
  | some x => if kind = 0 then holdersOf x else if x.st = .S then [] else [x.owner]

/-- Send the snoops of a host snoop. -/
def Work.hostSnoops (w : Work) (l kind : Nat) (hs : List Nat) : Work := each hs (fun n w => w.snoop n l (if kind = 0 then snpInv else snpShare) true) w

/-- A host snoop that came while another was open on its line is taken up: it goes like a new one (log 134). -/
def Work.hostSnoopTake (w : Work) (l : Nat) : Work :=
  match w.hub.ledger.hostNext.find? fun (m, _, _) => m = l with
  | none => w
  | some (_, port, kind) =>
    let w := w.onLedger fun x => { x with hostNext := x.hostNext.eraseP fun (m, _, _) => m = l }
    let t : Txn := { why := .hostSnoop port kind, hostWait := true }
    if w.granting l then w.setHostTxn l t
    else
      let hs := w.hostAsks l kind
      (w.setHostTxn l { t with hostWait := false, waiting := hs }).hostSnoops l kind hs

/-- A host snoop whose site answers are in is answered to the host: SnpInv leaves nothing, SnpData leaves the hub S, SnpCur changes nothing. -/
def Work.hostSnoopEnd (w : Work) (l : Nat) : Work :=
  match w.hostTxn l with
  | none => w
  | some t =>
    if t.waiting ≠ [] || t.hostWait || w.granting l || t.wbFrom.isSome && t.wbReq.isNone then w
    else
      let (w, t) := w.hostHeldWb l t
      let w := w.onLedger fun x => { x with hostTxns := tdel x.hostTxns l }
      match t.why with
      | .hostSnoop port kind =>
        let w := if kind = 0 then w.setEntry l none
          else if kind = 1 then w.setEntry l ((w.lineEntry l).map fun x => { x with host := 1 }) else w
        (w.emit (.cacheSnoopRsp port (l * 128) t.dirty.isSome (t.dirty.getD []))).hostSnoopTake l
      | _ => w

/-- Host snoops of a line end one after another while they can. -/
def Work.hostSnoopEnds (w : Work) (l : Nat) : Nat → Work
  | 0 => w
  | fuel + 1 => (w.hostSnoopEnd l).hostSnoopEnds l fuel

/-- Host snoops of a line that can be answered are; requests that waited for them go on. -/
def Work.hostSnoopDone (w : Work) (l : Nat) : Work :=
  if (w.hostTxn l).isNone then w
  else
    let w := w.hostSnoopEnds l (1 + (w.hub.ledger.hostNext.filter fun (m, _, _) => m = l).length)
    if (w.hostTxn l).isNone then w.wakeHome l else w

/-- A host snoop acts on the home's state as it stands, once no grant of the line is on its way (R102, R293). -/
def Work.hostSnoopGo (w : Work) (l : Nat) : Work :=
  match w.hostTxn l with
  | none => w
  | some t =>
    if !t.hostWait || w.granting l then w
    else
      let hs := w.hostAsks l (hostKind t)
      ((w.setHostTxn l { t with hostWait := false, waiting := hs }).hostSnoops l (hostKind t) hs).hostSnoopDone l

/-- A grant of a line to a site is placed, or has ended: a host snoop that waited for it goes, and one under way asks that site too. -/
def Work.hostSnoopNext (w : Work) (l n : Nat) : Work :=
  match w.hostTxn l with
  | none => w
  | some t =>
    if t.hostWait then w.hostSnoopGo l
    else if n ∈ w.hostAsks l (hostKind t) && n ∉ t.waiting then
      (w.setHostTxn l { t with waiting := t.waiting ++ [n] }).hostSnoops l (hostKind t) [n]
    else w.hostSnoopDone l

/-- One site's answer to a snoop that a host snoop called for: stale ones are counted (R289), an owner in O without data loses the line (R103). -/
def Work.hostSnoopAnswered (w : Work) (n l final : Nat) (dirty : Option (List Byte)) (wbPend : Bool) : Work :=
  match w.hostTxn l with
  | none => w
  | some t =>
    if n ∉ t.waiting then w
    else
      let t := { t with waiting := t.waiting.filter (· ≠ n), wbFrom := if wbPend then some n else t.wbFrom,
                        dirty := if dirty.isSome then dirty else t.dirty }
      let e := w.lineEntry l
      let w := match dirty with | some d => w.poke (l * 128) (slice d 0 128) | none => w
      if wbPend || t.wbReq.bind reqSite = some n then (w.setHostTxn l t).hostSnoopDone l
      else if final = 0 && dirty.isNone && ownsLine e n && (match e with | some x => x.st = .O | none => false) then
        let (rest, w) := w.lostDirty n l t
        ((w.setHostTxn l { t with waiting := t.waiting ++ rest }).hostSnoops l 0 rest).hostSnoopDone l
      else
        let w := if final = 0 && dirty.isNone then w.count 6 (sliceOf (l * 128)) 4 else w
        ((w.setEntry l (e.bind fun x => afterSnoop x n final)).setHostTxn l t).hostSnoopDone l

/-- The site of a write-back has an open snoop to answer, or has answered that its write-back is pending (R103). -/
def awaitsWb (t : Txn) (r : MemReq) : Bool := r.kind = .wbDirty && (t.wbFrom = reqSite r || (t.waiting.map some).contains (reqSite r))

/-- A request arrives at the home of its line (R286); a write-back that an open snoop awaits is held against it (R103). -/
def Work.homeArrive (w : Work) (r : MemReq) : Work :=
  let l := reqLine r
  match w.txn l, w.hostTxn l with
  | some t, h =>
    if awaitsWb t r then
      let w := match h with
        | some u => if awaitsWb u r then w.setHostTxn l { u with wbFrom := none, dirty := some r.data } else w
        | none => w
      ((w.setTxn l { t with wbReq := some r }).resolve l).hostSnoopDone l
    else match h with
      | some u => if awaitsWb u r then (w.setHostTxn l { u with wbReq := some r }).hostSnoopDone l else w.waitAt l r
      | none => w.waitAt l r
  | none, some u => if awaitsWb u r then (w.setHostTxn l { u with wbReq := some r }).hostSnoopDone l else w.waitAt l r
  | none, none =>
    if tget [] w.hub.ledger.waits l ≠ [] || w.underReclaim l r then w.waitAt l r
    else (w.beginRequest l r).wakeHome l

end Sys2Proof.Machine
end

