-- ==== Sys2Proof/Machine/SiteOps.lean ====
section
/-! DEFINITION. The shared operations of a site as a whole: its states and interrupts (R67, R574), retrain, bundles out and limp service (R68-R70), dead-agent handling and reclaim (R116, R292), the orderly exit (R115), the start and the absence of a site (R35, R62, R66). -/

namespace Sys2Proof.Machine

/-! ## Reports -/

/-- A Log entry of a site: CLASS 1 is the link, 2 the protocol (R548, R574). -/
def Work.siteLog (w : Work) (n cls sev cause : Nat) (addr : Nat := 0) (detail : Nat := 0) : Work :=
  w.log { cls := cls, sev := sev, cause := cause, unit := n, addr := addr, detail := detail }

/-- Ports concerned with a site: those whose pool holds it and those that serve a berth granted at it (R383; log 24). -/
def Work.portsForSite (w : Work) (n : Nat) : List Nat :=
  (List.range 4).filter fun p => bit (w.pool p).sites n || p ∈ w.portsOfSite n

/-- Change what SLINK_STAT shows (R574). -/
def Work.siteState (w : Work) (n st cause : Nat) : Work := w.onSite n fun s => { s with state := st, cause := cause }

/-- SLINK_STAT of a site: its state, the masks of its active bundles, the cause (R67, R574). -/
def slinkStat (s : Site) : Nat :=
  let mask (l : List Nat) (d : Nat) : Nat := maskOf (l.map (· - d))
  pack [(3, s.state), (8, mask (activeBundles s.link true) 0), (8, mask (activeBundles s.link false) 8), (8, s.cause)]

/-- The row of a site in the topology tables of the fabric and of the Bearing engines (R67, R70): payload in GB/s from the hub and to it; none while the site is not in service. -/
def topologyRow (s : Site) : Option (Nat × Nat) :=
  if !siteServing s then none
  else if s.state = 3 then some (253, 253)
  else some (506 * (activeBundles s.link true).length, 506 * (activeBundles s.link false).length)

/-- The site's power ceiling under R36 as the integrator sets it (R65). -/
def Work.siteCeiling (w : Work) (n : Nat) : Nat := min 110 (w.hub.bin.body.siteW.getD n 110)

/-! ## Bundles -/

/-- Key of a half in the fuse map and the profile (R61). -/
def halfKey (n k h : Nat) : Nat := n * 32 + k * 2 + h

/-- A half of a bundle. -/
def halfOf (b : Bundle) (h : Nat) : Half := if h = 0 then b.half0 else b.half1

/-- Change a half of a bundle. -/
def setHalf (b : Bundle) (h : Nat) (f : Half → Half) : Bundle :=
  if h = 0 then { b with half0 := f b.half0 } else { b with half1 := f b.half1 }

/-- Physical wires of a half that are not used: fused bad, or failed in the test (R61), ascending. -/
def Work.badWires (w : Work) (n k h : Nat) : List Nat :=
  let fused := tget [] w.hub.start.fuses.wires (halfKey n k h)
  let x := halfOf (w.bundle n k) h
  (List.range 520).filter fun i => i ∈ fused || i ∈ x.failed

/-- A half cannot be repaired (R59, R60); a ninth entry of the fuse map says so too (R61). -/
def Work.halfDead (w : Work) (n k h : Nat) : Bool :=
  (halfOf (w.bundle n k) h).structural || 8 < (w.badWires n k h).length

/-- Spares in use in a bundle (R59, R554). -/
def Work.sparesUsed (w : Work) (n k : Nat) : Nat := (w.badWires n k 0).length + (w.badWires n k 1).length

/-- A SITE_RECAL whose retrain has ended completes with the spares in use (R554). -/
def Work.recalDone (w : Work) (n k : Nat) (status : Nat := 0) : Work :=
  match (w.site n).recal with
  | some (e, b) => if b = k then (w.onSite n fun s => { s with recal := none }).complete e status 0 (w.sparesUsed n k) else w
  | none => w


/-- First bundle of the direction that bundle k belongs to. -/
def dirBase (k : Nat) : Nat := if k < 8 then 0 else 8

/-- Other bundles of k's direction that carry frames now (R68). -/
def othersOf (l : Link) (k : Nat) : List Nat :=
  (activeBundles l (k < 8)).filter fun j => j ≠ k && !(l.bundles.getD j {}).retraining

/-- Unacknowledged frames of a hub bundle go out again on the direction's other bundles, SSEQ unchanged (R68). -/
def moveFrames (k : Nat) (l : Link) : Link :=
  { l with resend := l.resend ++ (l.bundles.getD k {}).retry, bundles := l.bundles.modify k fun b => { b with retry := [] } }

/-- Begin limp entry (R69, R70): it replaces every retrain under way (R72). -/
def Work.limpEntry (w : Work) (n cause : Nat) : Work :=
  let s := w.site n
  if s.link.limp ≠ .off || !siteServing s then w
  else
    let w := w.onLink n fun l => { l with limp := .ack0, limpCause := cause, limpDir := 2,
                                          bundles := l.bundles.map fun b => { b with retraining := false, mapSent := false, deskewed := false } }
    let w := match s.recal with | some (_, k) => w.recalDone n k | none => w
    w.sideband n 0x08 0

/-- Bundles that retrain at half rate (R70): those of the directions concerned that were not put out before limp entry, but for one. -/
def limpBundles (l : Link) (dir : Nat) (but : Option Nat) : List Nat :=
  (List.range 16).filter fun k => (dir = 2 || (k < 8) = (dir = 0)) && !(l.bundles.getD k {}).out && some k ≠ but

/-- The hub starts the half-rate retrains, one LM_RETRAIN_REQ for each bundle (R58, R70); each counts (R73). -/
def Work.limpRetrain (w : Work) (n : Nat) (ks : List Nat) : Work :=
  each ks (fun k w => (w.count 0 n (3 * k + 2)).sideband n 0x05 k) w

/-- The kept bundle of a direction fails in limp service: the others of the direction retrain at half rate (R70). -/
def Work.limpAgain (w : Work) (n k : Nat) : Work :=
  let w := w.onLink n fun l => moveFrames k { l with limp := .retrain, limpDir := if k < 8 then 0 else 1,
                                                     bundles := l.bundles.modify k fun b => { b with retraining := false, mapSent := false, deskewed := false, active := false } }
  w.limpRetrain n (limpBundles (w.site n).link (if k < 8 then 0 else 1) (some k))

/-- Put a bundle out until the next start of the site (R68, R600); the last of a direction brings limp service instead (R69). -/
def Work.bundleOut (w : Work) (n k why : Nat) : Work :=
  let s := w.site n
  if !(w.bundle n k).active then w
  else if s.link.limp = .on then w.limpAgain n k
  else if (activeBundles s.link (k < 8)).length ≤ 1 then w.limpEntry n 49
  else
    let w := w.onLink n fun l => moveFrames k { l with bundles := l.bundles.modify k fun b =>
      { b with active := false, out := true, outCause := why, retraining := false, mapSent := false, deskewed := false } }
    let w := w.sideband n 0x07 (pack [(4, k), (4, why)])
    (((w.siteState n 2 41).siteLog n 1 1 41 k why).flush n).recalDone n k

/-- Retrains of a bundle within 1 s (R68). -/
def retrainsNow (now : Nat) (b : Bundle) : List Nat := recent now 1000000 b.retrainTimes

/-- Start a retrain of a bundle (R58, R68): its frames move, the chiplet is asked. -/
def Work.retrainGo (w : Work) (n k : Nat) : Work :=
  let w := w.onLink n fun l => moveFrames k { l with bundles := l.bundles.modify k fun b =>
    { b with retraining := true, retrainAcked := false, mapSent := false, deskewed := false, retrainTimes := w.now :: retrainsNow w.now b, discarding := false, ackOwed := false, nakRow := 0,
             half0 := { b.half0 with acked := false }, half1 := { b.half1 with acked := false } } }
  ((w.count 0 n (3 * k + 2)).sideband n 0x05 k).flush n

/-- A cause of R58 calls for a retrain: one at a time (R72); one that would leave a direction without a bundle brings limp service (R69). A site that is not in service yet, at step 9 of R62, retrains nothing (log 124). -/
def Work.retrain (w : Work) (n k : Nat) : Work :=
  let s := w.site n
  let b := w.bundle n k
  if !b.active || b.retraining || !siteServing s || (s.link.limp ≠ .off && s.link.limp ≠ .on) then w
  else if s.link.limp = .off && othersOf s.link k = [] then w.limpEntry n 49
  else w.retrainGo n k

/-- A retrain failed for a missed answer (R63): it is started again, or past the limit of R68 the bundle goes out with cause 4. -/
def Work.retrainMissed (w : Work) (n k : Nat) : Work :=
  if 3 < (retrainsNow w.now (w.bundle n k)).length then w.bundleOut n k 4 else w.retrainGo n k

/-- NAKs of the site's active bundles and data frames within 100 ms (R69). -/
def nakRate (now : Nat) (l : Link) : Nat × Nat :=
  (((l.bundles.filter (·.active)).map fun b => (recent now 100000 b.nakTimes).length).sum,
   ((l.dataTimes.filter fun (t, _) => now < t + 100000).map (·.2)).sum)

/-- A NAK of a bundle is counted for R69; more than 1 per 10^6 data frames brings limp service. -/
def Work.noteNak (w : Work) (n k : Nat) : Work :=
  let w := w.onBundle n k fun b => { b with nakTimes := w.now :: recent w.now 100000 b.nakTimes }
  let (naks, frames) := nakRate w.now (w.site n).link
  if frames < naks * 1000000 then w.limpEntry n 48 else w

/-! ## Isolation and power -/

/-- Assert SITE_RST_N (R38, R116). -/
def Work.siteReset (w : Work) (n : Nat) : Work :=
  if (w.site n).power.rstN then (w.onSPower n fun p => { p with rstN := false }).sitePin (.siteRstN n) false else w

/-- De-assert SITE_PWR_EN (R38). -/
def Work.sitePowerOff (w : Work) (n : Nat) : Work :=
  if (w.site n).power.pwrEn then (w.onSPower n fun p => { p with pwrEn := false }).sitePin (.sitePwrEn n) false else w

/-- The protocol port of a site at a start: the offers of SPORT_CFG stay (R75). -/
def freshPort (p : SPort) : SPort := { offerCoh := p.offerCoh, offerToken := p.offerToken, offerHelm := p.offerHelm }

/-- The power record of a site at a start: rails and pins stay; telemetry has its default period, and no SB_TELEM_CFG changes it (R112; log 129). -/
def freshPower (p : SPower) : SPower :=
  { pwrEn := p.pwrEn, vcsPg := p.vcsPg, pgOut := p.pgOut, rstN := p.rstN, thermN := p.thermN, attnN := p.attnN }

/-- The hub reports a site absent and powers it down (R35, R66). -/
def Work.siteAbsent (w : Work) (n cause : Nat) : Work :=
  let w := (w.siteReset n).sitePowerOff n
  let e := (w.site n).inEntry
  let w := w.onSite n fun s => { s with state := 0, cause := cause, link := {}, port := freshPort s.port, inEntry := none }
  (w.siteLog n 1 3 cause).completeOpt e stOk 0 0

/-- TOK_INs outstanding at a site, and those on their way to it, close as SITE_DEAD (R116 step 5, R281). -/
def Work.closeTokIns (w : Work) (n : Nat) : Work :=
  let p := (w.site n).port
  let w := w.onSPort n fun p => { p with tokIns := [], tokQueue := [], tokWithheld := false }
  each (p.tokIns ++ p.tokQueue) (fun t w => w.closeRank t.packet 6) w

/-- Withdraw what the Helm owes a site: its waits, and pulses owed to it (R116 step 6, R269). -/
def Work.withdrawSite (w : Work) (n : Nat) : Work :=
  let w := w.onHelm fun h => { h with bindings := h.bindings.map fun (k, b) => (k, if k / 64 = n then { b with owed := 0 } else b) }
  w.withdrawWaits fun p => match p with | .site m _ _ => m = n | _ => false

/-- Answers still on their way to a site that is isolated are discarded (R116 step 3, R281). -/
def Work.dropAnswers (w : Work) (n : Nat) : Work :=
  w.onFabric fun f => { f with rsps := f.rsps.filter fun (_, r) => r.site ≠ n }

/-- A site that is lost during its start is absent (R66, R541). What its protocol port has begun ends as at a dead site: nothing of it reaches a later start (R77; log 127). -/
def Work.siteLost (w : Work) (n cause : Nat) : Work :=
  if !(w.site n).port.initGot then w.siteAbsent n cause
  else
    let w := ((w.closeTokIns n).withdrawSite n).dropAnswers n
    let w := (w.onLedger fun x => { x with reclaiming := addTo x.reclaiming n }).onSite n fun s => { s with reclaiming := true }
    w.siteAbsent n cause

/-- The fuse map leaves a direction of a site no bundle: a ninth entry marks a half that cannot be repaired (R60, R61). -/
def Work.fusedOut (w : Work) (n : Nat) : Bool :=
  let dead (k h : Nat) : Bool := 8 < (tget [] w.hub.start.fuses.wires (halfKey n k h)).length
  [0, 8].any fun base => (List.range 8).all fun i => dead (base + i) 0 || dead (base + i) 1

/-- Why a site may not start, by the causes of R574: not enabled by the warrant, a filler, the interconnect test, a site-port unit, the fuse map (R35). -/
def Work.siteBarred (w : Work) (n : Nat) : Option Nat :=
  if !bit w.hub.board.sites n then some 8
  else if (w.site n).filler then some 9
  else if (w.site n).interBad then some 6
  else if (w.site n).fuseBad then some 10
  else if w.fusedOut n then some 40
  else none

/-- A site that the warrant does not enable reads absent, and is never reported as failed (R5). -/
def Work.siteUnheld (w : Work) (n : Nat) : Work :=
  let e := (w.site n).inEntry
  (w.onSite n fun s => { s with state := 0, cause := 8, inEntry := none }).completeOpt e stOk 0 0

/-- A start of a site begins: its rail is asked for (R38, R62); SITE_PG shows a rail that is good already (R30). -/
def Work.startSite (w : Work) (n : Nat) : Work :=
  let w := w.siteReset n
  let w := if (w.site n).power.vcsPg && !(w.site n).power.pgOut then (w.onSPower n fun p => { p with pgOut := true }).sitePin (.sitePg n) true else w
  let w := if (w.site n).power.pwrEn then w else (w.onSPower n fun p => { p with pwrEn := true }).sitePin (.sitePwrEn n) true
  w.onSite n fun s => { s with state := 6, cause := 0, link := { step := 1 }, port := freshPort s.port, power := freshPower s.power,
                               deadCauses := [], restart := false }

/-- A site starts, or is absent for the cause that bars it before its rail is asked for (R5, R35). -/
def Work.siteBegins (w : Work) (n : Nat) : Work :=
  match w.siteBarred n with
  | none => w.startSite n
  | some 8 => w.siteUnheld n
  | some c => w.siteAbsent n c

/-! ## Dead-agent handling (R116) -/

/-- Dead-agent handling of a site (R116). One handling runs; the Logs count a second cause (R117). A site lost during its start is absent (R541). -/
def Work.deadAgent (w : Work) (n cause : Nat) : Work :=
  let s := w.site n
  if s.state = 6 then w.siteLost n cause
  else if s.state = 4 && s.reclaiming then (w.onSite n fun s => { s with deadCauses := s.deadCauses ++ [cause] }).logCount (if cause = 20 || cause = 21 then 1 else 2)
  else if !siteServing s then w
  else
    let w := match s.recal with | some (_, k) => w.recalDone n k stTargetDead | none => w
    let w := w.siteReset n
    let w := w.onSite n fun s => { s with state := 4, cause := cause, reclaiming := true, deadCauses := [cause],
                                          link := {}, power := { s.power with quiescing := false } }
    let w := w.onLedger fun x => { x with reclaiming := addTo x.reclaiming n }
    let w := w.clearMarks fun e => e.kind = 1 && e.site = n
    let w := (w.closeTokIns n).withdrawSite n
    let w := if cause = 17 || cause = 20 then w.sitePowerOff n else w
    let w := w.siteLog n (if cause = 20 || cause = 21 then 1 else 2) 3 cause
    (w.irqs (w.portsOfSite n) 1).emit (.pldm 1)

/-- The reclaim of one line at a dead site (R292). Sharers whose grant is still on its way are snooped after it (R102). -/
def Work.reclaimLine (w : Work) (n cause l : Nat) : Work :=
  let e := w.lineEntry l
  let lose (rest : List Nat) (x : LEntry) (w : Work) : Work :=
    let w := (w.poisonLine l cause).setEntry l (if rest = [] then none else some { x with st := .S, sharers := rest })
    if rest = [] then w
    else match w.txn l with
      | none => each rest (fun m w => w.snoop m l snpInv) (w.setTxn l { why := .reclaim, waiting := rest })
      | some t =>
        if w.granting l then w.setTxn l { t with after := rest }
        else
        let more := rest.filter fun m => m ∉ t.waiting
        each more (fun m w => w.snoop m l snpInv) (w.setTxn l { t with waiting := t.waiting ++ more })
  match e with
  | none => w
  | some x =>
    if ownsLine e n then (if x.st = .O then lose (x.sharers.filter (· ≠ n)) x w else lose [] x w)
    else if n ∈ x.sharers then w.setEntry l (some { x with sharers := x.sharers.filter (· ≠ n) })
    else w

/-- A request of the dead site that the hub received whole is still to be performed (R116 step 3), or an operation of its Helm port waits for the Helm (R116 step 6, R559). -/
def Work.siteBusy (w : Work) (n : Nat) : Bool :=
  let mine (r : MemReq) : Bool := reqSite r = some n
  (w.site n).port.held ≠ [] || w.hub.fabric.unpacks.any (fun (_, x) => x.site = n) || ((w.site n).port.hlmHeld ≠ [] && w.unitPaused 2) || w.hub.fabric.reqs.any (fun (_, r) => mine r)
    || w.hub.ledger.waits.any (fun (_, q) => q.any mine)
    || w.hub.ledger.txns.any (fun (_, t) => match t.why with | .request r => mine r && t.ackFrom.isNone | _ => false)

/-- A transaction or a host snoop of a line awaits an answer or a write-back of a site. -/
def awaitsSite (n : Nat) (t : Txn) : Bool := n ∈ t.waiting || (t.wbFrom = some n && t.wbReq.isNone)

/-- The open snoops of a line to a dead site count as answered FINAL I with no data (R292). -/
def Work.deadSnoop (w : Work) (n l : Nat) : Work :=
  let clear (t : Txn) : Txn := { t with wbFrom := if t.wbFrom = some n then none else t.wbFrom }
  let w := match w.txn l with
    | some t => if awaitsSite n t then (((w.setTxn l (clear t)).snoopAnswered n l snpInv 0 none false).resolve l).hostSnoopGo l else w
    | none => w
  match w.hostTxn l with
  | some t => if awaitsSite n t then ((w.setHostTxn l (clear t)).hostSnoopAnswered n l 0 none false).hostSnoopDone l else w
  | none => w

/-- A grant to a dead site counts as placed: its answer is discarded (R116 step 3). -/
def Work.deadGrant (w : Work) (n l : Nat) : Work :=
  match w.txn l with
  | some t => if t.ackFrom = some n then ((w.closeGrant l t).hostSnoopNext l n).wakeHome l else w
  | none => w

/-- Lines on which a request of the dead site can go on only when the site's own open snoops and grants are settled. -/
def Work.ownBlocked (w : Work) (n : Nat) : List Nat :=
  let mine (r : MemReq) : Bool := reqSite r = some n
  let owes (l : Nat) : Bool :=
    (match w.txn l with | some t => awaitsSite n t || t.ackFrom = some n | none => false) || (match w.hostTxn l with | some t => awaitsSite n t | none => false)
  let queued := (w.hub.ledger.waits.filter fun (_, q) => q.any mine).map (·.1)
  let open_ := (w.hub.ledger.txns.filter fun (_, t) => match t.why with | .request r => mine r && t.ackFrom.isNone | _ => false).map (·.1)
  (queued ++ open_).filter owes

/-- What a dead site owes to lines that its own requests wait for is settled, its lines reclaimed there, so that the requests are performed (R116 step 3, R292). -/
def Work.unblockOwn (w : Work) (n : Nat) : Work :=
  each (w.ownBlocked n) (fun l w => ((w.reclaimLine n (w.site n).cause l).deadSnoop n l).deadGrant n l) w

/-! ## Orderly exit (R115) -/

/-- The orderly exit of a site begins: its experts become unavailable, the chiplet is asked to quiesce. -/
def Work.siteExit (w : Work) (n reason : Nat) : Work :=
  let w := w.clearMarks fun e => e.kind = 1 && e.site = n
  let w := w.onSPower n fun p => { p with quiescing := true, reason := reason }
  w.sideband n 0x13 reason

/-- The home removes a site from every entry without poisoning (R115 step 4). -/
def Work.forgetSite (w : Work) (n : Nat) : Work :=
  each (w.hub.ledger.entries.map (·.1)) (fun l w =>
    let e := w.lineEntry l
    match e with
    | some x =>
      if ownsLine e n then w.setEntry l (if x.st = .O then some { x with st := .S, sharers := x.sharers.filter (· ≠ n) } else none)
      else w.setEntry l (some { x with sharers := x.sharers.filter (· ≠ n) })
    | none => w) w

/-- Isolation at the end of an exit (R115 step 5, R436): out of service, or started again with its rail kept. Tokens that were admitted for the site and never sent close as SITE_DEAD (log 132). -/
def Work.siteLeave (w : Work) (n : Nat) : Work :=
  let s := w.site n
  let w := (((w.forgetSite n).closeTokIns n).withdrawSite n).dropAnswers n
  let w := w.onSPower n fun p => { p with quiescing := false }
  let w := w.siteReset n
  if s.restart then w.startSite n
  else
    let w := w.sitePowerOff n
    let w := w.onSite n fun s => { s with state := 5, cause := 32, link := {}, port := freshPort s.port, outEntry := none }
    (w.siteLog n 1 3 32).completeOpt s.outEntry stOk 0 0

end Sys2Proof.Machine
end

