-- ==== Sys2Proof/Machine/WindowOps.lean ====
section
/-! DEFINITION. The shared operations of outbound remote windows (R358, R500, R501). -/

namespace Sys2Proof.Machine

/-- The site opcode that a request of a window carries (R499). -/
def winOpcode (k : ReqKind) : Nat :=
  match k with
  | .rdNc | .read => 0x10
  | .wr | .write => 0x14
  | .wrPartial => 0x15
  | .atomic => 0x16
  | _ => 0x17

/-- SIZE of a number of bytes (R86). -/
def sizeOfBytes (n : Nat) : Nat := if n ≤ 32 then 0 else if n ≤ 64 then 1 else if n ≤ 128 then 2 else 3

/-- Bytes that came for an access of an engine join what has come of their line. -/
def Work.addFwd (w : Work) (a : Agent) (tag line off : Nat) (d : List Byte) : Work :=
  w.onFabric fun f =>
    if f.fwd.any fun x => x.agent = a && x.tag = tag && x.line = line then
      { f with fwd := f.fwd.map fun x => if x.agent = a && x.tag = tag && x.line = line then { x with data := overlay x.data off d } else x }
    else { f with fwd := f.fwd ++ [{ agent := a, tag := tag, line := line, data := overlay (List.replicate 128 0) off d }] }

/-- A window request's answer reaches its agent: a site hears it, an engine's data waits for its row. -/
def Work.winAnswer (w : Work) (r : MemReq) (status detail : Nat) (data : Option (List Byte)) : Work :=
  match r.agent with
  | .site _ | .fetch _ | .hawser _ _ => w.answer r status detail data
  | a =>
    let w := w.engFail a r.tag status
    match data with
    | some d => each (linePieces r.dpa r.bytes) (fun (o, n) w => w.addFwd a r.tag ((r.dpa + o) / 128) ((r.dpa + o) % 128) (slice d o n)) w
    | none => w

/-- Lowest free tag of the Hawser edge (R501). -/
def Work.winTag (w : Work) : Option Nat :=
  if 16384 ≤ w.hub.hawser.outstanding.length then none
  else (List.range (w.hub.hawser.outstanding.length + 1)).find? fun t => (tfind w.hub.hawser.outstanding t).isNone

/-- Send window requests that wait, in order, while tags last; a hub whose route has changed is held (R501), an unreachable one answers TARGET_DEAD at once (R500). -/
def Work.winPumpList (w : Work) : List WinOut → Work
  | [] => w
  | o :: rest =>
    if o.hub ∈ w.hub.hawser.holding then
      (w.onHawser fun h => { h with winWait := h.winWait ++ [o] }).winPumpList rest
    else match w.route o.hub with
      | none => (w.winAnswer o.req 4 0 none).winPumpList rest
      | some k =>
        match w.winTag with
        | none => (w.onHawser fun h => { h with winWait := h.winWait ++ [o] }).winPumpList rest
        | some t =>
          let m := { o.msg with tag := t, srcHub := w.hubId }
          let w := w.onHawser fun h => { h with outstanding := tset h.outstanding t { o with msg := m, port := k } }
          (w.sendBody k m).winPumpList rest

/-- Send what waits at the Hawser edge. -/
def Work.winPump (w : Work) : Work :=
  let l := w.hub.hawser.winWait
  (w.onHawser fun h => { h with winWait := [] }).winPumpList l

/-- A request whose address lies in an outbound window (R358): DENIED where it is closed or the offset is past its length. -/
def Work.windowSend (w : Work) (r : MemReq) (win off : Nat) : Work :=
  match tfind w.hub.chart.windows win with
  | none => w.winAnswer r 3 1 none
  | some x =>
    if x.len * 65536 ≤ off then w.winAnswer r 3 1 none
    else
      let m : BodyMsg := { cls := 0, mkind := 0, dstHub := x.hub, imp := x.imp, opcode := winOpcode r.kind, size := sizeOfBytes r.bytes,
                           prio := r.prio, offset := off, opspec := r.opspec, payload := r.data }
      (w.onHawser fun h => { h with winWait := h.winWait ++ [{ req := r, hub := x.hub, msg := m }] }).winPump

/-- Send an engine's piece through a window: in one message where its size and place are those of a WR or an RD_NC, else in 32-byte parts (R87, R499). -/
def Work.windowPiece (w : Work) (r : MemReq) (win off : Nat) : Work :=
  if (r.bytes = 32 || r.bytes = 64 || r.bytes = 128 || r.bytes = 256) && r.dpa % r.bytes = 0 then w.windowSend r win off
  else each (partsOf 32 r.dpa r.bytes) (fun g w =>
    let lo := max r.dpa (32 * g)
    let hi := min (r.dpa + r.bytes) (32 * g + 32)
    let base := off + 32 * g - r.dpa
    if r.kind = .read then w.windowSend { r with dpa := 32 * g, bytes := 32 } win base
    else w.windowSend { r with kind := .wrPartial, dpa := 32 * g, bytes := 32, opspec := lo % 32 + (hi - lo) * 32,
                               data := List.replicate (lo % 32) 0 ++ slice r.data (lo - r.dpa) (hi - lo) ++ List.replicate (32 * g + 32 - hi) 0 } win base) w

/-- A hub whose outstanding requests have all ended is held no longer (R501). -/
def Work.winRelease (w : Work) (hub : Nat) : Work :=
  if w.hub.hawser.outstanding.any fun (_, o) => o.hub = hub then w.winPump
  else (w.onHawser fun h => { h with holding := rmv h.holding hub }).winPump

/-- An outstanding window request ends. -/
def Work.winEnd (w : Work) (t status detail : Nat) (data : Option (List Byte)) : Work :=
  match tfind w.hub.hawser.outstanding t with
  | none => w
  | some o =>
    let w := w.onHawser fun h => { h with outstanding := tdel h.outstanding t }
    (w.winAnswer o.req status detail data).winRelease o.hub

end Sys2Proof.Machine
end

