-- ==== Sys2Proof/Machine/PortOps.lean ====
section
/-! DEFINITION. The shared operations of a site's protocol port (R74-R117): credits, the checks of requests, their way through the Chart and the unpacker into the fabric, Helm operations, power limits. -/

namespace Sys2Proof.Machine

/-! ## Credits (R83) -/

/-- Credits left after a message, if the sender held them all. -/
def spend (have_ cost : Credits) : Option Credits :=
  if cost.reqHdr ≤ have_.reqHdr && cost.reqData ≤ have_.reqData && cost.snpHdr ≤ have_.snpHdr
      && cost.tokHdr ≤ have_.tokHdr && cost.tokData ≤ have_.tokData && cost.hlmHdr ≤ have_.hlmHdr then
    some { reqHdr := have_.reqHdr - cost.reqHdr, reqData := have_.reqData - cost.reqData, snpHdr := have_.snpHdr - cost.snpHdr,
           tokHdr := have_.tokHdr - cost.tokHdr, tokData := have_.tokData - cost.tokData, hlmHdr := have_.hlmHdr - cost.hlmHdr }
  else none

/-- A message of a chiplet is received whole (R77, R83, R114): before its INIT the site is absent, without credits the site is dead. -/
def Work.received (w : Work) (n : Nat) (cost : Credits) (k : Work → Work) : Work :=
  let s := w.site n
  if !streamUp s then w
  else if !s.port.initGot then w.siteAbsent n 5
  else match spend s.port.toChip cost with
    | none => w.deadAgent n 19
    | some c => k (w.onSPort n fun p => { p with toChip := c })

/-- A message of an option that is not in force is discarded and counted in the Log (R114). -/
def Work.unsupported (w : Work) (n opcode : Nat) : Work := w.siteLog n 2 1 6 0 opcode

/-! ## Requests (R86-R96) -/

/-- The option COH is needed. -/
def isCohOp (op : Nat) : Bool := op = 0x11 || op = 0x12 || op = 0x13 || op = 0x18 || op = 0x19

/-- Data beats of a request by opcode and SIZE (R81). -/
def reqBeats (op size : Nat) : Nat :=
  if op = 0x14 || op = 0x17 then 2 ^ (size % 4) else if op = 0x15 || op = 0x16 then 1 else if op = 0x18 then 4 else 0

/-- Credits of a request. -/
def reqCost (op size : Nat) : Credits := { reqHdr := 1, reqData := reqBeats op size }

/-- PA must be set (R86). -/
def needsPa (op : Nat) : Bool := op = 0x13 || op = 0x18 || op = 0x19

/-- SIZE values an opcode takes (R87, R90). -/
def sizeOk (op : Nat) (q : ReqHdr) : Bool :=
  if op = 0x10 || op = 0x14 then q.size < 4
  else if op = 0x17 then q.size < 4 && (bits q.opspec 4 2 ≠ 4 || q.size = 3)
  else if op = 0x15 || op = 0x16 then q.size = 0
  else q.size = 2

/-- Codes of OPSPEC are ones that R88 gives: MXINT8 takes add only. -/
def codesOk (op : Nat) (q : ReqHdr) : Bool :=
  if op = 0x16 then bits q.opspec 3 0 < 10
  else if op = 0x17 then bits q.opspec 1 0 < 3 && bits q.opspec 4 2 < 5 && (bits q.opspec 4 2 ≠ 4 || bits q.opspec 1 0 = 0)
  else true

/-- FIRST and COUNT of WR_PARTIAL. -/
def firstOf (opspec : Nat) : Nat := bits opspec 4 0
def countOf (opspec : Nat) : Nat := bits opspec 10 5

/-- Bytes of an ATOMIC's operand (R88, R89). -/
def atomicBytes (opspec : Nat) : Nat := if bit opspec 4 then 8 else 4

/-- ADDR is aligned (R87, R89). -/
def alignedOk (op : Nat) (q : ReqHdr) : Bool :=
  q.addr % (if op = 0x16 then atomicBytes q.opspec else 32 * 2 ^ q.size) = 0

/-- What makes a request MALFORMED, by its DETAIL (R93, R114). -/
def malformed (op : Nat) (q : ReqHdr) : Option Nat :=
  if 16383 < q.tag then some 2
  else if q.pa ≠ needsPa op || (q.pa && 2 ^ 52 ≤ q.addr) then some 3
  else if !sizeOk op q || !codesOk op q then some 0
  else if op = 0x15 && (countOf q.opspec = 0 || 32 < firstOf q.opspec + countOf q.opspec) then some 4
  else if !alignedOk op q then some 1
  else none

/-- What a request asks of memory. -/
def kindOf (op : Nat) : ReqKind :=
  match op with
  | 0x10 => .rdNc
  | 0x11 => .rdShared
  | 0x12 => .rdUnique
  | 0x13 => .upgrade
  | 0x14 => .wr
  | 0x15 => .wrPartial
  | 0x16 => .atomic
  | 0x17 => .reduce
  | 0x18 => .wbDirty
  | _ => .evictClean

/-- Bytes that a request covers. -/
def bytesOf (op : Nat) (q : ReqHdr) : Nat := if op = 0x16 then atomicBytes q.opspec else 32 * 2 ^ q.size

/-- The request as it enters the fabric. `rank` is its place in the site's stream (R95). -/
def memReq (n : Nat) (h : HeldReq) : MemReq :=
  { agent := .site n, kind := kindOf h.opcode, tag := h.req.tag, berth := h.req.berth, prio := min h.req.prio 2,
    bytes := bytesOf h.opcode h.req, dva := h.req.addr, opspec := h.req.opspec, fmtAsk := h.req.fmtAsk, data := h.data, rank := h.seq }

/-- An unpacker serves a read of a dense view: true when it is answered, false while stored bytes are on their way (R172, R173, R176, R177). -/
def Work.unpackServe (w : Work) (x : Unpack) (p : Pack) : Bool × Work :=
  let n := x.site
  let q := x.req
  let k := (q.addr - packDense p) / 256
  let len := bytesOf 0x10 q
  let done (status fmt : Nat) (d : List Byte) (w : Work) : Bool × Work :=
    (true, w.reply { site := n, tag := q.tag, berth := q.berth, read := true, status := status, fmt := fmt, data := d })
  match w.packGranule n q.berth p k (min q.prio 2) (some (.site n, x.seq)) with
  | (.wait, w) => (false, w)
  | (.fail s d, w) => (true, w.siteCmp n q.tag q.berth s d)
  | (.packError, w) =>
    let (d, w) := ((w.packLog n q.berth p k).count 1 n 5).junk len
    done 1 0 d w
  | (.gran g, w) =>
    if g.poison then
      let (d, w) := w.junk len
      done 1 0 d w
    else
      match (if q.fmtAsk && q.size = 3 && bit (w.site n).port.packed (packFmt p - 1) then g.packed else none) with
      | some d => done 0 (packFmt p) d (w.count 1 n 1)
      | none =>
        let w := if g.stored then w else w.count 1 n 0
        done 0 0 (slice g.dense (q.addr % 256) len) (if g.overrun then w.count 1 n 4 else w)

/-- A read of a dense view that its unpacker could not answer yet goes on (R172). -/
def Work.unpackAgain (w : Work) (id : Nat) : Work :=
  match tfind w.hub.fabric.unpacks id with
  | none => w
  | some x =>
    match (tfind w.hub.packs x.num).map fun p => w.unpackServe x p with
    | some (true, w) => (w.onFabric fun f => { f with unpacks := tdel f.unpacks id }).dropFetch (.site x.site) x.seq
    | some (false, w) => w
    | none => w

/-- A read of a dense view at the unpacker (R173). -/
def Work.unpackRead (w : Work) (n : Nat) (h : HeldReq) (num : Nat) (p : Pack) : Work :=
  let x : Unpack := { site := n, seq := h.seq, req := h.req, num := num }
  match w.unpackServe x p with
  | (true, w) => w
  | (false, w) => w.onFabric fun f => { f with nextId := f.nextId + 1, unpacks := tset f.unpacks f.nextId x }

/-- What becomes of a request that a site port holds: it has left, it stays and holds back its berth's later ones, or its group's OT_MAX alone stops it (R94, R339). -/
inductive Sent where
  | gone
  | stays
  | limited
  deriving DecidableEq, Repr

/-- A translated request goes on: to the unpacker, to a window, to the home or to its memory (R158, R284, R358). -/
def Work.routeReq (w : Work) (n : Nat) (h : HeldReq) (e dpa : Nat) : Sent × Work :=
  let q := h.req
  let r := memReq n h
  let (slot, gen) := leafKey q.berth e
  let r := { r with dpa := dpa, slot := slot, gen := gen, shared := bit e 6 }
  let home (r : MemReq) : Sent × Work :=
    if w.otStops r.agent r.berth r.dpa (movesDown r.kind) then (.limited, w) else (.gone, w.send { r with atHome := !(bit e 3 || coherentKind r.kind) })
  if bit e 24 then
    match w.packFor q.berth q.addr (bits e 39 28) with
    | none => (.gone, w.siteCmp n q.tag q.berth 2 0)
    | some p =>
      if packFmt p = 5 then home { r with pack := some (bits e 39 28), fmtAsk := q.fmtAsk && q.size = 3 }
      else if h.opcode = 0x10 then (.gone, w.unpackRead n h (bits e 39 28) p)
      else (.gone, w.siteCmp n q.tag q.berth 3 2)
  else match w.target dpa with
    | .window x off => (.gone, w.windowSend r x off)
    | _ => home r

/-- A line of host memory is the host's too (R293): its entry says what its page was when a site took it; of a line without an entry, that it is. -/
def Work.sharedLine (w : Work) (l : Nat) : Bool := match w.lineEntry l with | some e => e.shared | none => true

/-- A request by physical address (R86, R97): UPGRADE, WB_DIRTY, EVICT_CLEAN. -/
def Work.physReq (w : Work) (n : Nat) (h : HeldReq) : Sent × Work :=
  let q := h.req
  match w.target q.addr, (if h.opcode = 0x13 then w.accessCheck q.berth q.addr else none) with
  | .window _ _, _ => (.gone, w.siteCmp n q.tag q.berth 3 1)
  | _, some (s, d) => (.gone, w.siteCmp n q.tag q.berth s d)
  | _, none =>
    let (slot, gen) := w.storedKey q.addr
    let r := { memReq n h with dpa := q.addr, slot := slot, gen := gen, shared := isHost q.addr && w.sharedLine (q.addr / 128) }
    if r.kind = .upgrade && w.otStops r.agent r.berth r.dpa false then (.limited, w) else (.gone, w.send r)

/-- Try to send one held request on: true when it has left the port (R94). -/
def Work.siteIssue (w : Work) (n : Nat) (h : HeldReq) : Sent × Work :=
  let q := h.req
  if !w.siteHeld n q.berth then (.gone, w.siteCmp n q.tag q.berth 3 0)
  else if q.pa then w.physReq n h
  else
    let op := h.opcode
    match w.xlate n q.berth q.addr { write := op = 0x14 || op = 0x15 || op = 0x16 || op = 0x17, coherent := isCohOp op } with
    | (.miss, w) => (.stays, w)
    | (.wait, w) => (.stays, w)
    | (.bad s d, w) => (.gone, w.siteCmp n q.tag q.berth s d)
    | (.ok e d, w) => w.routeReq n h e d

/-- A FENCE still waits for an earlier request of its berth (R86, R95). -/
def fenceWaits (p : SPort) (h : HeldReq) : Bool :=
  h.req.fence && p.outstanding.any fun o => o.berth = h.req.berth && o.seq < h.seq

/-- Send held requests on in stream order; a request that stays holds back the later ones of its berth (R94; log 26). -/
def Work.pumpList (w : Work) (n : Nat) : List HeldReq → List Nat → Work
  | [], _ => w
  | h :: rest, blocked =>
    if h.req.berth ∈ blocked || fenceWaits (w.site n).port h then w.pumpList n rest (h.req.berth :: blocked)
    else
      match w.siteIssue n h with
      | (.stays, w) => w.pumpList n rest (h.req.berth :: blocked)
      | (.limited, w) => w.pumpList n rest blocked
      | (.gone, w) =>
        let w := w.onSPort n fun p => { p with held := p.held.filter fun x => x.seq ≠ h.seq }
        (w.giveBack n (reqCost h.opcode h.req.size)).pumpList n rest blocked

/-- Send on what the port holds and can go. -/
def Work.pump (w : Work) (n : Nat) : Work := w.pumpList n (w.site n).port.held []

/-- A request of the chiplet is received whole (R86-R96, R114). -/
def Work.reqIn (w : Work) (n op : Nat) (q : ReqHdr) (d : List Byte) : Work :=
  w.received n (reqCost op q.size) fun w =>
    let reject (status detail : Nat) (w : Work) : Work := (w.siteCmp n q.tag q.berth status detail).giveBack n (reqCost op q.size)
    let p := (w.site n).port
    let w := w.onSPort n fun p => { p with
      reqSeq := p.reqSeq + 1
      outstanding := p.outstanding ++ [{ tag := q.tag, berth := q.berth, opcode := op, line := q.addr / 128, seq := p.reqSeq }] }
    if isCohOp op && !p.coh then (reject 6 0 w).siteLog n 2 1 6 0 op
    else match malformed op q with
      | some d => reject 5 d w
      | none => (w.onSPort n fun x => { x with held := x.held ++ [{ seq := p.reqSeq, opcode := op, req := q, data := slice d 0 (32 * reqBeats op q.size) }] }).pump n

/-! ## Helm operations of a site (R108, R255) -/

/-- OBJECT and VALUE are ones that the table of R255 gives. -/
def hlmOk (hop : Nat) (o : HlmOp) : Bool :=
  match hop with
  | 0 | 1 => o.object < 4096
  | 2 => o.object < 4096 && o.value = 0
  | 3 => o.object < 1024 && o.value < 2
  | 4 | 5 => o.object < 512
  | _ => false

/-- Apply one Helm operation of a site (R255). -/
def Work.hlmApply (w : Work) (n hop : Nat) (o : HlmOp) : Work :=
  let p : Party := .site n o.tag o.berth
  let tell (r : Nat × Work) : Work := r.2.notify p r.1 0
  if !hlmOk hop o then (w.notify p 1 0).helmError o.berth o.object 1
  else match hop with
    | 0 => tell (w.markAdd o.berth o.object o.value)
    | 1 => w.markWait p o.berth o.object o.value
    | 2 =>
      if w.holder 2 o.object ≠ some o.berth then (w.notify p 2 0).helmError o.berth o.object 2
      else (w.count 4 0 0).notify p 0 (w.mark o.object).value
    | 3 =>
      if o.value = 1 then tell (w.gateArrive none o.berth o.object)
      else
        let (c, w) := w.gateArrive (some p) o.berth o.object
        if c = 0 then w else w.notify p c 0
    | 4 => w.semAcquire p o.berth o.object o.value
    | _ => tell (w.semRelease o.berth o.object o.value)

/-- A held Helm operation can be applied: its RELEASE finds no earlier request of its berth unanswered, and none is held before it (R108, R255). -/
def hlmReady (p : SPort) (h : HeldHlm) : Bool :=
  !(h.op.release && p.outstanding.any fun o => o.berth = h.op.berth && o.seq < h.seq)

/-- Apply Helm operations in stream order per berth; the header credit returns once one is accepted. -/
def Work.hlmList (w : Work) (n : Nat) : List HeldHlm → List Nat → Work
  | [], _ => w
  | h :: rest, blocked =>
    if h.op.berth ∈ blocked || !hlmReady (w.site n).port h then
      (w.onSPort n fun p => { p with hlmHeld := p.hlmHeld ++ [h] }).hlmList n rest (h.op.berth :: blocked)
    else ((w.hlmApply n h.hop h.op).giveBack n { hlmHdr := 1 }).hlmList n rest blocked

/-- Apply what waits for RELEASE and can go, unless the Helm's microcode is being replaced (R559); a dead site is owed nothing (R116 step 6). -/
def Work.hlmPump (w : Work) (n : Nat) : Work :=
  let l := (w.site n).port.hlmHeld
  if l = [] || w.helmPaused then w
  else
    let w := (w.onSPort n fun p => { p with hlmHeld := [] }).hlmList n l []
    if streamUp (w.site n) then w else w.withdrawSite n

/-- An HLM_OP is received (R108). -/
def Work.hlmIn (w : Work) (n hop : Nat) (o : HlmOp) : Work :=
  w.received n { hlmHdr := 1 } fun w =>
    if !(w.site n).port.helm then (w.unsupported n 0x60).giveBack n { hlmHdr := 1 }
    else
      let s := (w.site n).port.reqSeq
      (w.onSPort n fun p => { p with hlmHeld := p.hlmHeld ++ [{ seq := s, hop := hop, op := o }] }).hlmPump n

/-- An answer leaves for a site: its tag is free, held requests and operations that waited for it go on (R96). -/
def Work.answered (w : Work) (n tag berth : Nat) : Work :=
  let w := w.onSPort n fun p => { p with outstanding := p.outstanding.eraseP fun o => o.tag = tag && o.berth = berth }
  (w.pump n).hlmPump n

/-! ## The end of a reclaim (R116, R292) -/

/-- Answers on their way to a dead site end there: what waited for them goes on, operations with RELEASE among it (R116 steps 3 and 6, R269). -/
def Work.discardAnswers (w : Work) (n : Nat) : Work :=
  let l := w.hub.fabric.rsps.filter fun (_, r) => r.site = n
  each l (fun (_, r) w => w.answered n r.tag r.berth) (w.dropAnswers n)

/-- The reclaim ends (R116 step 4, R292): every line of the site is settled, open snoops count as answered FINAL I, and waiting requests go on. -/
def Work.reclaim (w : Work) (n : Nat) : Work :=
  let cause := (w.site n).cause
  let w := w.discardAnswers n
  let grants := w.hub.ledger.txns.filter fun (_, t) => t.ackFrom = some n
  let w := each grants (fun (l, t) w => w.closeGrant l t) w
  let lines := w.hub.ledger.entries.map (·.1)
  let w := each lines (fun l w => w.reclaimLine n cause l) w
  let open_ := w.hub.ledger.txns.map (·.1) ++ w.hub.ledger.hostTxns.map (·.1)
  let w := each open_ (fun l w => w.deadSnoop n l) w
  let w := each grants (fun (l, _) w => w.hostSnoopNext l n) w
  let w := w.onLedger fun x => { x with reclaiming := rmv x.reclaiming n }
  let w := w.onSite n fun s => { s with reclaiming := false, port := { s.port with snoops := [], snpQueue := [], outstanding := [] } }
  let w := each (w.hub.ledger.waits.map (·.1)) (fun l w => w.wakeHome l) w
  let e := (w.site n).outEntry
  (w.onSite n fun s => { s with outEntry := none, restart := false }).completeOpt e stOk 0 1

/-! ## Power limits (R110, R111, R513) -/

/-- The share of SITE_W at a throttle level, in percent (R513). -/
def siteShare (level : Nat) : Nat := [100, 100, 90, 80, 70, 60, 50, 40].getD level 40

/-- PMAX of the chiplet in W (R64). -/
def pmaxOf (cap : Nat) : Nat := bits cap 183 176

/-- The limit that the Binnacle holds for a site, in steps of 0.125 W, and its CAUSE (R111, R113). -/
def Work.siteLimit (w : Work) (n : Nat) : Nat × Nat :=
  if w.hub.bin.critical then (0, 2)
  else
    let top := min (pmaxOf (w.site n).port.cap) (w.siteCeiling n)
    let share := siteShare w.hub.bin.level
    if share = 100 then (8 * top, 0) else (min (8 * top) (8 * (w.siteCeiling n) * share / 100), 1)

/-- Send SB_PWR_LIMIT (R110). -/
def Work.sendLimit (w : Work) (n limit cause : Nat) : Work :=
  (w.onSPower n fun p => { p with limit := limit, limitCause := cause }).sideband n 0x10 (pack [(12, limit), (4, cause)])

/-- A site takes sideband messages of the protocol: in service, or starting with its options fixed. -/
def sidebandUp (s : Site) : Bool := siteServing s || (s.state = 6 && 4 ≤ s.link.step)

end Sys2Proof.Machine
end

