-- ==== Sys2Proof/Machine/EngineOps.lean ====
section
/-! DEFINITION. The shared operations of the hub's own engines on memory (R189, R284): the requests that their accesses to coherent pages put before the homes, the ends of transfers. -/

namespace Sys2Proof.Machine

/-- Status of R93 for the end of a transfer. -/
def endStatus (x : XferEnd) : Nat :=
  match x with
  | .ok => 0
  | .unmapped => 2
  | .denied => 3
  | .poisoned => 1
  | .targetDead => 4
  | .hostLinkLost => 7
  | .aborted => 8
  | .completionTimeout | .unsupportedRequest | .completerAbort => 7
  | .pageFault _ => 2

/-- The end of a transfer that a status of R93 gives. -/
def endOfStatus (s : Nat) : XferEnd :=
  match s with
  | 0 => .ok
  | 1 => .poisoned
  | 2 => .unmapped
  | 3 => .denied
  | 4 => .targetDead
  | 7 => .hostLinkLost
  | _ => .aborted

/-- How an access of an engine ends: as its row says, unless a request of it has failed at a home or another hub. One that an invalidation awaits and that is aborted is counted as such (R365). -/
def Work.endOf (w : Work) (a : Agent) (tag : Nat) (o : XferEnd) : XferEnd × Work :=
  let o := match w.hub.fabric.failed.find? fun (b, t, _) => b = a && t = tag with
    | some (_, _, s) => if o = .ok || s = 8 then endOfStatus s else o
    | none => o
  if o ≠ .aborted then (o, w)
  else (o, w.onChart fun c => { c with invals := c.invals.map fun (k, v) =>
    (k, if (a, tag) ∈ v.awaited then { v with aborted := addTo v.aborted (a, tag) } else v) })

/-- Descriptors that an access of an engine or a Porter reads under (R159). -/
def Work.accessPacks (w : Work) (a : Agent) (tag : Nat) : List Nat :=
  match a with
  | .wright x => (w.wright x).accesses.flatMap fun c => if c.id = tag then c.packs else []
  | .porter p j => (tget {} (w.port p).porters j).queue.flatMap fun c => if c.id = tag then c.packs else []
  | _ => []

/-- An access that an invalidation awaits was issued under translations that are dropped since: it goes on under them, whatever holds the page (R365, R366); one that a KEY_RETIRE awaits goes on under the old key (R442), one that reads a dense view under its descriptor (R159). -/
def Work.underOld (w : Work) (a : Agent) (tag : Nat) (f : Work → Work) : Work :=
  let old := w.hub.chart.invals.filter fun (_, v) => (a, tag) ∈ v.awaited
  let keys := w.hub.memory.retiring
  let packs := w.accessPacks a tag
  let f (w : Work) : Work := w.underPacks packs f
  let f (w : Work) : Work := if keys.any fun r => (a, tag) ∈ r.awaited then
      (f (w.onMem fun m => { m with retiring := [] })).onMem fun m => { m with retiring := keys }
    else f w
  if old = [] then f w
  else
    let kept := old.flatMap fun (_, v) => v.kept
    let holds := w.hub.chart.holds
    (f (w.onChart fun c => { c with holds := [], tlb := kept ++ c.tlb })).onChart fun c =>
      { c with holds := holds, tlb := c.tlb.filter fun t => t ∉ kept }

/-- A piece of an access goes through an outbound window (R352, R358). -/
def Work.throughWindow (w : Work) (b dva e d : Nat) (write : Bool) : Option (Nat × Nat) :=
  match w.packRow b (dva % 2 ^ 57) e write, w.target d with
  | .plain, .window x off => some (x, off)
  | _, _ => none

/-- A piece of an access reads or writes a dense view of FORMAT 1-4, or a packed page that no descriptor serves (R158). -/
def Work.onView (w : Work) (b dva e : Nat) (write : Bool) : Bool :=
  match w.packRow b (dva % 2 ^ 57) e write with | .plain => false | _ => true

/-- Put the pieces of an access before the homes of its coherent pages, and its pieces in windows before the other hubs: each piece is one request; the rest of the access is done by its own row once they have passed (R284, R287, R358; log 27). -/
def Work.homePieces (w : Work) (a : Agent) (tag u b dva n : Nat) (kind : ReqKind) (prio : Nat) (data : List Byte := []) : Work :=
  let engine : Bool := match a with | .porter _ _ => false | _ => true
  each (pieces dva n) (fun (o, len) w =>
    match w.xlateNow u b ((dva + o) % 2 ^ 57) { write := kind ≠ .read, engine := engine } with
    | (.ok e d, w) =>
      let (slot, gen) := leafKey b e
      let r : MemReq := { agent := a, kind := kind, tag := tag, berth := b, prio := prio, bytes := len, dpa := d, dva := dva + o, slot := slot, gen := gen, shared := bit e 6 }
      match w.throughWindow b (dva + o) e d (kind ≠ .read) with
      | some (x, off) => if kind = .combine || kind = .wrPartial then w else w.windowPiece { r with data := slice data o len } x off
      | none => if bit e 3 && !w.onView b (dva + o) e (kind ≠ .read) then w.send r else w
    | (_, w) => w) w

/-- Requests of an agent of the hub that have not been answered (R188, R416). -/
def Work.sourceReqs (w : Work) (a : Agent) : List MemReq := w.allReqs.filter fun r => r.agent = a

/-- OT_MAX of its berth's group stops a piece of an agent at its source (R339). -/
def Work.otPiece (w : Work) (a : Agent) (u b dva : Nat) (write : Bool) : Bool :=
  let engine : Bool := match a with | .porter _ _ => false | _ => true
  match w.xlateNow u b (dva % 2 ^ 57) { write := write, engine := engine } with
  | (.ok _ d, _) => w.otStops a b d write
  | _ => false

/-- A source has no room for a piece: a Porter has 256 requests outstanding (R416), or OT_MAX stops it (R339). -/
def Work.sourceFull (w : Work) (p : SourcePiece) : Bool :=
  (match p.agent with | .porter _ _ => decide (256 ≤ (w.sourceReqs p.agent).length) | _ => false)
    || w.otPiece p.agent p.unit p.berth p.dva (decide (p.kind ≠ .read))

/-- A source issues the pieces that wait for room, in their order (R339, R416; log 156). -/
def Work.pumpSource (w : Work) (a : Agent) : Work :=
  each (w.hub.fabric.todo.filter fun p => p.agent = a) (fun p w =>
    if w.sourceFull p then w
    else (w.onFabric fun f => { f with todo := f.todo.eraseP fun q => q = p }).homePieces a p.tag p.unit p.berth p.dva p.len p.kind p.prio p.data) w

/-- A Bearing engine or a Porter puts an access before the homes and the other hubs, as its source has room. -/
def Work.homeAccess (w : Work) (a : Agent) (tag u b dva n : Nat) (kind : ReqKind) (prio : Nat) (data : List Byte := []) : Work :=
  let todo := (pieces dva n).map fun (o, len) =>
    ({ agent := a, tag := tag, unit := u, berth := b, start := dva, dva := dva + o, len := len, kind := kind, prio := prio, data := slice data o len } : SourcePiece)
  (w.onFabric fun f => { f with todo := f.todo ++ todo }).pumpSource a

/-- The part of a write that lies in windows goes to the other hubs (R358). -/
def Work.windowAccess (w : Work) (a : Agent) (tag u b dva : Nat) (data : List Byte) : Work :=
  each (pieces dva data.length) (fun (o, len) w =>
    match w.xlateNow u b ((dva + o) % 2 ^ 57) { write := true } with
    | (.ok e d, w) =>
      match w.throughWindow b (dva + o) e d true with
      | some (x, off) => w.windowPiece { agent := a, kind := .write, tag := tag, berth := b, prio := 1, bytes := len, dpa := d, dva := dva + o, data := slice data o len } x off
      | none => w
    | (_, w) => w) w

/-- A request of an access of an engine to another hub has not been answered. -/
def Work.windowPending (w : Work) (a : Agent) (tag : Nat) : Bool :=
  let mine (o : WinOut) : Bool := o.req.agent = a && o.req.tag = tag
  w.hub.hawser.winWait.any mine || w.hub.hawser.outstanding.any fun (_, o) => mine o

/-- A request of an access of an engine is still before a home, or waits for room at the engine's port (R188). -/
def Work.homePending (w : Work) (a : Agent) (tag : Nat) : Bool :=
  let mine (r : MemReq) : Bool := r.agent = a && r.tag = tag
  let todo : Bool := match a with | .wright x => (w.wright x).accesses.any (fun c => c.id = tag && c.todo ≠ []) | _ => false
  todo || w.hub.fabric.todo.any (fun p => p.agent = a && p.tag = tag) || w.windowPending a tag || w.hub.fabric.reqs.any (fun (_, r) => mine r) || w.hub.ledger.waits.any (fun (_, q) => q.any mine)
    || w.hub.ledger.txns.any (fun (_, t) => match t.why with | .request r => mine r && !t.passed | _ => false)

/-- The lines that a write of an engine holds are free again (R189). -/
def Work.homeRelease (w : Work) (a : Agent) (tag : Nat) : Work :=
  let w := w.onFabric fun f => { f with failed := f.failed.filter (fun (b, t, _) => !(b = a && t = tag)), todo := f.todo.filter fun p => !(p.agent = a && p.tag = tag) }
  let lines := (w.hub.ledger.txns.filter fun (_, t) => match t.why with | .request r => r.agent = a && r.tag = tag && t.passed | _ => false).map (·.1)
  if lines = [] then w else (each lines (fun l w => w.dropTxn l) w).wakeHome 0

/-- Translate and check every piece of an access without doing it: the first failure, or a wait. What a dense view reads from is looked at when it is read. -/
def Work.probe (w : Work) (u b dva n : Nat) (write : Bool) : DvaRes × Work :=
  (pieces dva n).foldl (fun (acc : DvaRes × Work) (o, _) =>
    match acc.1 with
    | .ok _ _ =>
      match acc.2.xlateNow u b ((dva + o) % 2 ^ 57) { write := write } with
      | (.ok e d, w) =>
        match w.packRow b ((dva + o) % 2 ^ 57) e write, w.target d with
        | .bad s t, _ => (.bad s t o, w)
        | .dense _, _ => (.ok [] [], w)
        | .plain, .window _ _ => (.ok [] [], w)
        | .plain, _ => match w.accessCheck b d with
          | some (s, t) => (.bad s t o, w)
          | none => (.ok [] [], w)
      | (.bad s t, w) => (.bad s t o, w)
      | (_, w) => (.wait, w)
    | r => (r, acc.2)) (.ok [] [], w)

/-- Data forwarded to an access of an engine is dropped once the access is done. -/
def Work.dropFwd (w : Work) (a : Agent) (tag : Nat) : Work :=
  w.onFabric fun f => { f with fwd := f.fwd.filter fun x => !(x.agent = a && x.tag = tag) }

/-- Read bytes of an engine's access line by line: forwarded data where the home or a window gave it, else memory (R188, R288). -/
def Work.engRead (w : Work) (a : Agent) (tag u b dva n : Nat) : DvaRes × Work :=
  (linePieces dva n).foldl (fun (acc : DvaRes × Work) (o, len) =>
    match acc.1 with
    | .ok d ps =>
      match acc.2.xlateNow u b ((dva + o) % 2 ^ 57) {} with
      | (.bad s t, w) => (.bad s t o, w)
      | (.ok f p, w) =>
        let view := w.onView b (dva + o) f false
        let from_ := if view then none else w.hub.fabric.fwd.find? fun x => x.agent = a && x.tag = tag && x.line = p / 128
        match from_, w.throughWindow b (dva + o) f p false with
        | some x, _ => (.ok (d ++ slice x.data (p % 128) len) ps, w)
        | none, some _ => let (j, w) := w.junk len; (.ok (d ++ j) ps, w)
        | none, none =>
          match w.readDva u b ((dva + o) % 2 ^ 57) len 1 (if view then some (a, tag) else none) with
          | (.ok e q, w) => (.ok (d ++ e) (ps ++ if q = [] then [] else [(dva + o) / 128]), w)
          | x => x
      | (_, w) => (.wait, w)
    | r => (r, acc.2)) (.ok [] [], w)

/-- Write bytes of an engine's access; what lies in a window has gone to its hub already. -/
def Work.engWrite (w : Work) (u b dva : Nat) (d : List Byte) (poison : Bool) (engine : Bool := true) : DvaRes × Work :=
  match w.xlateNow u b (dva % 2 ^ 57) { write := true, engine := engine } with
  | (.ok e p, w) =>
    match w.throughWindow b dva e p true with
    | some _ => (.ok [] [], w)
    | none => w.writeDva u b (dva % 2 ^ 57) d (if poison then partsOf 128 dva d.length else []) engine
  | (.bad s t, w) => (.bad s t 0, w)
  | (_, w) => (.wait, w)

end Sys2Proof.Machine
end

