-- ==== Sys2Proof/Machine/BearingScore.lean ====
section
/-! DEFINITION. The shared operations of the Bearing origins and of combines (R125-R131, R138-R146): checks of a gate, scoring and selection, token records, outcome records, the Tally arithmetic. -/

namespace Sys2Proof.Machine

/-! ## Scoring and selection (R129-R131) -/

/-- The order of R131: descending key, a NaN key after every number, equal keys by expert. -/
def keyBefore (a b : Nat × Val) : Bool :=
  if a.2.isNan then (b.2.isNan && a.1 < b.1)
  else if b.2.isNan then true
  else if ltVal b.2 a.2 then true else if ltVal a.2 b.2 then false else a.1 < b.1

/-- Insert into a list in the order of R131. -/
def insertKey (x : Nat × Val) : List (Nat × Val) → List (Nat × Val)
  | [] => [x]
  | y :: r => if keyBefore x y then x :: y :: r else y :: insertKey x r

/-- Sort in the order of R131. -/
def sortKeys (l : List (Nat × Val)) : List (Nat × Val) := l.foldr insertKey []

/-- The logistic probability of SCORE 1 (R129, R130). -/
def sigmoidProb (l : Val) : Val :=
  match l with
  | .inf s => if s then .fin false 0 0 else .fin false 1 0
  | _ => v32 (divVal (.fin false 1 0) (v32 (addVal 0 (.fin false 1 0) (expVal (negVal l)))))

/-- Probability of an expert in a list of pairs. -/
def probOf (l : List (Nat × Val)) (e : Nat) : Val := ((l.find? fun x => x.1 = e).map (·.2)).getD (.fin false 0 0)

/-- Probabilities by expert before selection: SCORE 0 and 1 (R129); under SCORE 2 the logits stand in their place. -/
def firstProbs (score : Nat) (ls : List Val) : List Val :=
  if score = 0 then softmaxRow ls else if score = 1 then ls.map sigmoidProb else ls

/-- Eligible experts by rank of selection (R130, R131). -/
def selectOrder (t : BTable) (ls ps : List Val) : List Nat :=
  let key (e : Nat) (p : Val) : Val := if t.hdr.useBias then v32 (addVal 0 p (decodeElem 1 (expertOf t e).bias)) else p
  let all := (ps.zipIdx).map fun (p, e) => (e, key e p)
  let ok := all.filter fun x => match ls.getD x.1 .nan with | .inf s => !s | _ => true
  (sortKeys ok).map (·.1)

/-- Weights of the chosen experts, by expert (R129): p, or p over the sum of the chosen. -/
def chosenWeights (t : BTable) (ls ps : List Val) (chosen : List Nat) : List (Nat × Val) :=
  let asc := (List.range ls.length).filter fun e => e ∈ chosen
  let p := if t.hdr.score = 2 then asc.zip (softmaxRow (asc.map fun e => ls.getD e .nan)) else asc.map fun e => (e, ps.getD e .nan)
  if t.hdr.renorm then
    let s := sum32 (p.map (·.2))
    p.map fun (e, v) => (e, v32 (divVal v s))
  else p

/-! ## Gates (R125-R128) -/

/-- Logits of a GATE body (R106). -/
def gateLogits (h : GateHdr) (body : List Byte) : List Nat :=
  let n := if h.bf16 then 2 else 4
  (List.range h.nlog).map fun i => leNat ((body.drop (n * i)).take n)

/-- Beats of the logits. -/
def logitBeats (h : GateHdr) : Nat := ceilDiv (h.nlog * if h.bf16 then 2 else 4) 32

/-- The first failing check of R125, 1 to 5; the payload has at most 2,048 beats (R106). -/
def Work.gateFault (w : Work) (g : Staged) : Option Nat :=
  match w.table g.hdr.table with
  | none => some 1
  | some t =>
    if t.removing then some 1
    else if g.hdr.berth ≠ t.hdr.berth then some 2
    else if g.hdr.nlog ≠ t.experts.length then some 3
    else if (g.hdr.fmt ≠ 0 && g.hdr.fmt ≠ 5) || g.hdr.beats < logitBeats g.hdr || logitBeats g.hdr + 2048 < g.hdr.beats || (densePayload t.hdr.ptype g.hdr.fmt t.hdr.payloadBeats g.payload).isNone then some 4
    else if t.hdr.ntok ≤ g.hdr.row then some 5
    else none

/-- Count a rejected gate; the first of a table within 1 ms enters the Log (R125, R582). -/
def Work.gateReject (w : Work) (b : Nat) (g : Staged) (check : Nat) : Work :=
  let w := w.count 3 b 1
  let last := tfind (w.bearing b).rejected g.hdr.table
  let fresh : Bool := match last with | some t => t + 1000 ≤ w.now | none => true
  if fresh then
    (w.onBearing b fun x => { x with rejected := tset x.rejected g.hdr.table w.now }).log
      { cls := 3, sev := 2, cause := 0x801D, unit := b, berth := some g.hdr.berth,
        detail := g.hdr.table + check * 256 + b2n g.wright.isSome * 65536 }
  else w

/-- A rejected gate is counted by the recipe that sent it while that runs, and the first one named (R208). -/
def Work.gateRejected (w : Work) (x : Nat) (launch : EntryRef) (table row : Nat) : Work :=
  let noted (r : Run) : Run :=
    if r.launch.entry ≠ launch then r
    else { r with
      rejects := min 0xFFFF (r.rejects + 1)
      rejTable := if r.rejects = 0 then table else r.rejTable
      rejRow := if r.rejects = 0 then row else r.rejRow }
  (w.onWright x fun e => { e with run := e.run.map noted }).count 2 x 27

/-- A gate rejected after it was staged: the Wright engine that sent it is told too (R125, R208). -/
def Work.wrightRejects (w : Work) (g : Staged) : Work :=
  match g.wright with
  | some x => w.gateRejected x g.launch g.hdr.table g.hdr.row
  | none => w

/-- Lowest free record of an engine (R119, R127). -/
def freeRec (x : Bearing) : Option Nat :=
  if 65536 ≤ x.recs.length then none else (List.range (x.recs.length + 1)).find? fun i => (tfind x.recs i).isNone

/-- Bytes of one slot of a combine row: N elements of CTYPE (R141). -/
def slotBytes (h : TabHdr) : Nat := h.outBeats * 32 / (eBits h.ptype / 8) * (if h.ctype = 0 then 4 else 2)

/-- Bytes of a combine row (R141, R142). -/
def rowBytes (h : TabHdr) : Nat := slotBytes h * if h.cmode = 1 then h.k else 1

/-- Address of a combine row. -/
def rowAddr (h : TabHdr) (row : Nat) : Nat := h.combineBase + row * h.rowStride

/-- Change a token record. -/
def Work.onRec (w : Work) (b i : Nat) (f : TokRec → TokRec) : Work :=
  match tfind (w.bearing b).recs i with
  | some r => w.onBearing b fun x => { x with recs := tset x.recs i (f r) }
  | none => w

/-- Tag of an engine's memory access for a token record. -/
def recTag (i : Nat) : Nat := 2 * i + 1

/-- Tag of a combine in the fabric. -/
def combTag (id : Nat) : Nat := 2 * id

/-- Free a token record: the mark is advanced first (R144). -/
def Work.tokenFree (w : Work) (b i : Nat) (r : TokRec) : Work :=
  let w := match w.table r.table with
    | some t =>
      let w := if t.hdr.doneEn then (w.markAdd t.hdr.berth t.hdr.doneMark 1).2 else w
      w.viewCount t.hdr.berth 3
    | none => w
  w.onBearing b fun x => { x with recs := tdel x.recs i }

/-- The outcome record of a token (R144). -/
def outcomeRecord (r : TokRec) : List Byte :=
  let rank (i : Nat) : Rank := r.ranks.getD i {}
  leBytes 32 (pack ((List.range 8).map (fun i => (12, (rank i).expert)) ++ (List.range 8).map (fun i => (4, (rank i).cause.getD 0))
    ++ [(32, r.row)] ++ (List.range 8).map (fun i => (2, (rank i).hops))))

/-- All k ranks of a token are closed and its row is not being zeroed: the outcome record, or its end at once (R144). -/
def Work.tokenSettle (w : Work) (b i : Nat) : Work :=
  match tfind (w.bearing b).recs i with
  | none => w
  | some r =>
    if r.phase ≠ .running || r.ranks.any (fun k => k.cause.isNone) then w
    else match w.table r.table with
      | some t =>
        if t.hdr.outcomeBase = 0 then w.tokenFree b i r
        else (w.onRec b i fun r => { r with phase := .outcome }).homeAccess (.bearing b) (recTag i) (80 + b) t.hdr.berth (t.hdr.outcomeBase + r.row * 32) 32 .write 1
      | none => w.tokenFree b i r

/-- Close one rank of a record (R138): counted by cause; the berth's counters follow. -/
def Work.rankClose (w : Work) (b i k cause : Nat) : Work :=
  let w := (w.onRec b i fun r => { r with ranks := r.ranks.modify k fun x => { x with cause := some cause, packet := {} } }).count 3 b (8 + cause)
  match tfind (w.bearing b).recs i with
  | some r => match w.table r.table with
    | some t => if cause = 0 then w else w.viewCount t.hdr.berth 4
    | none => w
  | none => w

/-- Send the DISPATCH packets of a token's open ranks (R129, R145). -/
def Work.dispatchRanks (w : Work) (b i : Nat) : Work :=
  match tfind (w.bearing b).recs i with
  | none => w
  | some r =>
    match w.replica b r.table with
    | none => w
    | some t =>
      let ps := r.ranks.zipIdx.filter fun (k, _) => k.cause.isNone
      let w := w.onRec b i fun r => { r with ranks := r.ranks.map fun k => if k.cause.isNone then { k with expert := k.packet.expert, packet := {} } else k }
      each ps (fun (k, _) w => w.sendDispatch b t k.packet) w

/-- The ranks of a scored token (R129-R131): open with their packets, or closed at once. -/
def scoredRanks (t : BTable) (g : Staged) (token : Nat) : List Rank :=
  let ls := g.logits.map fun c => decodeElem (if g.hdr.bf16 then 1 else 0) c
  let k := t.hdr.k
  if ls.any Val.isNan then (List.range k).map fun _ => { cause := some 9 }
  else
    let ps := firstProbs t.hdr.score ls
    let order := selectOrder t ls ps
    let ws := chosenWeights t ls ps (order.take k)
    (List.range k).map fun r =>
      match order[r]? with
      | none => { cause := some 10 }
      | some e =>
        let alts := if t.hdr.policy = 2 then (List.range t.hdr.ncDepth).filterMap fun j => order[k + r + j * k]? else []
        let wt := r32 (probOf ws e)
        { weight := wt,
          packet := { kind := .dispatch, fmt := g.hdr.fmt, beats := g.payload.length / 32, berth := t.hdr.berth, expert := e, rank := r, token := token,
                      table := g.hdr.table, otable := g.hdr.table, row := g.hdr.row, weight := wt, alt := alts, payload := g.payload, poison := g.poison } }

/-- Score a gate into a free record by the engine's own replica (R124, R127-R131); it counts as accepted. With ZERO_ROW its row is zeroed first. -/
def Work.score (w : Work) (b i : Nat) (t : BTable) (g : Staged) : Work :=
  let t := (w.replica b g.hdr.table).getD t
  let w := w.count 3 b 0
  let token := i + b * 65536 + w.hubId * 2 ^ 20
  let ranks := scoredRanks t g token
  let closed := ranks.zipIdx.filterMap fun (k, j) => k.cause.map fun c => (j, c)
  let w := w.onBearing b fun x => { x with recs := tset x.recs i { table := g.hdr.table, row := g.hdr.row, phase := if t.hdr.zeroRow then .zeroing else .running, ranks := ranks } }
  let w := each closed (fun (j, c) w => w.rankClose b i j c) w
  if t.hdr.zeroRow then
    w.homeAccess (.bearing b) (recTag i) (80 + b) t.hdr.berth (rowAddr t.hdr g.hdr.row) (ceilDiv (rowBytes t.hdr) 128 * 128) .write 1
  else (w.dispatchRanks b i).tokenSettle b i

/-- TOK credits of a GATE return to the site that sent it (R125, R126). -/
def Work.gateCredits (w : Work) (g : Staged) : Work :=
  match g.site with
  | some n => w.giveBack n { tokHdr := 1, tokData := g.hdr.beats }
  | none => w

/-- Beats in gate staging (R119). -/
def stagedBeats (x : Bearing) : Nat := (x.staging.map fun g => g.hdr.beats).sum

/-- Gates received whole enter gate staging in order while its 256 KiB hold them (R119, R126). -/
def Work.stagePump (w : Work) (b : Nat) : Nat → Work
  | 0 => w
  | fuel + 1 =>
    let x := w.bearing b
    match x.arriving with
    | g :: r =>
      if 8192 < stagedBeats x + g.hdr.beats then w
      else (w.onBearing b fun x => { x with staging := x.staging ++ [g], arriving := r }).stagePump b fuel
    | [] => w

/-- A gate reaches its origin (R125-R127): rejected with the failed check, scored, or staged until a record is free. -/
def Work.gateArrives (w : Work) (b : Nat) (g : Staged) : Option Nat × Work :=
  match w.gateFault g, w.table g.hdr.table with
  | some c, _ => (some c, (w.gateReject b g c).gateCredits g)
  | none, none => (some 1, w)
  | none, some t =>
    match (if (w.bearing b).staging = [] then freeRec (w.bearing b) else none) with
    | some i => (none, (w.gateCredits g).score b i t g)
    | none => (none, (w.onBearing b fun x => { x with arriving := x.arriving ++ [g] }).stagePump b ((w.bearing b).arriving.length + 1))

/-! ## Closings at the origin (R138, R144, R146) -/

/-- The record that a packet of this hub names has that rank open (R146). -/
def Work.rankOpen (w : Work) (p : Packet) : Bool :=
  match tfind (w.bearing (handleEngine p.token)).recs (handleRec p.token) with
  | some r => r.table = p.otable && r.row = p.row && (match r.ranks[p.rank]? with | some k => k.cause.isNone | none => false)
  | none => false

/-- A CLOSE reaches the origin (R138, R146). -/
def Work.closeIn (w : Work) (p : Packet) : Work :=
  let b := handleEngine p.token
  let i := handleRec p.token
  if !w.rankOpen p then w.count 3 b 7
  else
    let w := w.onRec b i fun r => { r with ranks := r.ranks.modify p.rank fun k => { k with expert := p.expert, hops := p.hops } }
    (w.rankClose b i p.rank p.cause).tokenSettle b i

/-! ## Combines (R140-R142) -/

/-- Closing cause for a status of R93 that an access of a combine met (R138). -/
def combineCause (status : Nat) : Nat := if status = 4 || status = 7 then 8 else if status = 1 then 13 else 12

/-- Elements of w times x as FP32 values (R141). -/
def weighted (ptype weight : Nat) (payload : List Byte) : List Val :=
  (chunks (eBits ptype / 8) payload).map fun c => v32 (mulVal (f32 weight) (decodeElem ptype (leNat c)))

/-- Bytes of a list of codes of CTYPE. -/
def ctypeBytes (ctype : Nat) (codes : List Nat) : List Byte := codes.flatMap fun c => leBytes (if ctype = 0 then 4 else 2) c

/-- The Tally operation of a combine on its row (R141, R142, R323): the closing cause, none while the page is held. -/
def Work.tallyCombine (w : Work) (b : Nat) (h : TabHdr) (p : Packet) : Option Nat × Work :=
  let base := rowAddr h p.row + if h.cmode = 1 then p.rank * slotBytes h else 0
  let n := slotBytes h
  let wx := weighted h.ptype p.weight p.payload
  let all := partsOf 128 base n
  match w.readDva (80 + b) h.berth base n with
  | (.bad s _ _, w) => (some (combineCause s), w)
  | (.wait, w) => (none, w)
  | (.ok old ps, w) =>
    let codes := if h.cmode = 1 then wx.map (encodeVal h.ctype 0 false)
      else ((chunks (if h.ctype = 0 then 4 else 2) old).zip wx).map fun (y, x) => encodeVal h.ctype 0 false (addVal 0 (decodeElem h.ctype (leNat y)) x)
    let bad := if p.poison then all else ps
    match w.writeDva (80 + b) h.berth base (ctypeBytes h.ctype codes) bad with
    | (.bad s _ _, w) => (some (combineCause s), w)
    | (.wait, w) => (none, w)
    | (.ok _ _, w) =>
      if bad = [] then (some 0, w)
      else (some 13, if ps = [] then w else w.log { cls := 0x0A, sev := 2, cause := 13, unit := b, berth := some h.berth, addr := base })

/-- The keeper has an expert output for a token: dense, it becomes a COMBINE, here or at the origin hub; else the rank closes as BAD_OUTPUT (R140). -/
def Work.combineOut (w : Work) (b : Nat) (p : Packet) (fmt : Nat) (out : List Byte) (poison : Bool) : Work :=
  match w.table p.table with
  | none => w.closeRank p 15
  | some t =>
    match (if fmt = 0 || fmt = 5 then densePayload t.hdr.ptype fmt t.hdr.outBeats out else none) with
    | none => w.closeRank p 11
    | some d =>
      let q := { p with kind := .combine, fmt := 0, beats := t.hdr.outBeats, payload := d, poison := poison }
      if handleHub p.token = w.hubId then w.sendTok { q with dst := b, hub := w.hubId } else w.toOrigin q

/-! ## Tables (R124) -/

/-- Deferred tokens of a table at one keeper: those whose rank a failed write has not closed. -/
def Work.deferredAt (w : Work) (b t : Nat) : List Packet := ((w.keeper b t).ring.filter fun e => !e.lost).map (·.packet)

/-- Close every deferred token of a table as ABORTED (R124). -/
def Work.flushTable (w : Work) (t : Nat) : Work :=
  each (List.range 16) (fun b w =>
    let ps := w.deferredAt b t
    let w := w.onKeeper b t fun k => { k with ring := [], todo := 0 }
    each ps (fun p w => w.closeRank p 14) w) w

/-- Deferred tokens of a table over the sixteen keepers. -/
def Work.deferredOf (w : Work) (t : Nat) : Nat := ((List.range 16).map fun b => (w.deferredAt b t).length).sum

/-- A replica of a table takes an update at once: what it places anew at this engine's keeper starts the round at a count of 0 (R124). -/
def Work.replicaTakes (w : Work) (b n : Nat) (t : BTable) (u : TabUpdate) : Work :=
  let new := replaceRun t.experts u.first u.experts
  let kept (es : List ExpEntry) (i : Nat) : Bool := let e := es.getD i {}; (e.kind = 1 || e.kind = 2) && keeperOf e = b
  let moved := (List.range u.experts.length).map (· + u.first) |>.filter fun i => kept new i && !kept t.experts i
  if moved = [] then w else w.onKeeper b n fun k => { k with counts := k.counts.filter fun (i, _) => i ∉ moved }

/-- The next replica takes the update of a table; with the sixteenth the command completes (R124). -/
def Work.updateNext (w : Work) (n : Nat) : Work :=
  match w.table n with
  | none => w
  | some t =>
    match t.upd with
    | none => w
    | some u =>
      let w := w.replicaTakes u.done n t u
      if u.done + 1 < 16 then w.onTable n fun t => { t with upd := some { u with done := u.done + 1 } }
      else (w.onTable n fun t => { t with upd := none, experts := replaceRun t.experts u.first u.experts }).complete u.entry stOk

/-- Every replica that is left takes the update that runs. -/
def Work.updateEnds (w : Work) (n : Nat) : Work := each (List.range 16) (fun _ w => w.updateNext n) w

/-- Token records of a table that are open anywhere on the hub. -/
def Work.tableOpen (w : Work) (t : Nat) : Bool := w.hub.bearings.any fun (_, x) => x.recs.any fun (_, r) => r.table = t

/-- Staged gates of a table. -/
def Work.tableStaged (w : Work) (t : Nat) : Bool := w.hub.bearings.any fun (_, x) => (x.staging ++ x.arriving).any fun g => g.hdr.table = t

/-- A removal of a table begins (R124); an update that runs is finished first. -/
def Work.tableRemove (w : Work) (t : Nat) (e : Option EntryRef) : Work :=
  let n := w.deferredOf t
  ((w.updateEnds t).onTable t fun x => { x with removing := true, removeEntry := e, aborted := n }).flushTable t

/-- Free a table's replicas and what its keepers keep. -/
def Work.tableFree (w : Work) (t : Nat) : Work :=
  w.onHub fun h => { h with tables := tdel h.tables t, bearings := h.bearings.map fun (b, x) => (b, { x with keepers := tdel x.keepers t }) }

end Sys2Proof.Machine
end

