-- ==== Sys2Proof/Machine/Bearing.lean ====
section
/-! DEFINITION. The commands of the Bearing engines (04): gate staging, row zeroing, the four packet kinds, combines, outcome records, timeouts, defer passes, and the table commands. -/

namespace Sys2Proof.Machine

/-! ## Tokens -/

/-- GATE_STAGING_RELEASE: the oldest staged gate takes a free record and is scored (R126, R127); its table is what its number names now, so the checks of R125 are made again. -/
def execGateStagingRelease (b : Nat) (s : State) : Host.Outcome State Fault Refusal :=
  s.run fun w =>
    match (w.bearing b).staging, freeRec (w.bearing b) with
    | g :: r, some i =>
      let w := ((w.onBearing b fun x => { x with staging := r }).stagePump b (w.bearing b).arriving.length).gateCredits g
      match w.gateFault g, w.table g.hdr.table with
      | none, some t => w.score b i t g
      | c, _ => (w.gateReject b g (c.getD 1)).wrightRejects g
    | _, _ => w

/-- Every open rank of a token closes with one cause before dispatch (R128). -/
def Work.zeroFails (w : Work) (b i cause : Nat) : Work :=
  match tfind (w.bearing b).recs i with
  | none => w
  | some r =>
    let open_ := (r.ranks.zipIdx.filter fun (k, _) => k.cause.isNone).map (·.2)
    let w := w.onRec b i fun r => { r with phase := .running, ranks := r.ranks.map fun k => { k with expert := 0xFFF, hops := 0 } }
    (each open_ (fun j w => w.rankClose b i j cause) w).tokenSettle b i

/-- ZERO_ROW_DONE: the row is zero, and the first DISPATCH leaves; or every rank closes (R128). -/
def execZeroRowDone (b rec : Nat) (outcome : XferEnd) (s : State) : Host.Outcome State Fault Refusal :=
  s.run fun w => (w.pumpSource (.bearing b)).underOld (.bearing b) (recTag rec) fun w =>
    match tfind (w.bearing b).recs rec with
    | none => w
    | some r =>
      if r.phase ≠ .zeroing || w.homePending (.bearing b) (recTag rec) then w
      else match w.table r.table with
        | none => w
        | some t =>
          let fail (st : Nat) (w : Work) : Work :=
            (w.homeRelease (.bearing b) (recTag rec)).zeroFails b rec (if st = 4 || st = 7 then 8 else 12)
          let (outcome, w) := w.endOf (.bearing b) (recTag rec) outcome
          if outcome ≠ .ok then fail (endStatus outcome) w
          else match w.writeDva (80 + b) t.hdr.berth (rowAddr t.hdr r.row) (List.replicate (ceilDiv (rowBytes t.hdr) 128 * 128) 0) with
            | (.bad st _ _, w) => fail st w
            | (.wait, w) => w
            | (.ok _ _, w) =>
              let w := (w.homeRelease (.bearing b) (recTag rec)).onRec b rec fun r => { r with phase := .running }
              (w.dispatchRanks b rec).tokenSettle b rec

/-- A packet of the TOK network of one kind reaches its engine; from an isolated one the sender closes the rank as TARGET_DEAD (R281). -/
def Work.takeTok (w : Work) (id : Nat) (kind : PktKind) (k : Packet → Work → Work) : Work :=
  match tfind w.hub.fabric.toks id with
  | some p =>
    if p.kind ≠ kind || !w.injected id || w.tokBehind id p then w
    else
      let w := w.onFabric fun f => { f with toks := tdel f.toks id, aged := rmv f.aged id }
      if !(w.bearing p.dst).out then k p w
      else if kind = .close then w.closeIn { p with cause := 8 } else w.closeRank p 8
  | none => w

/-- DISPATCH: a token reaches its keeper (R133). -/
def execDispatch (id : Nat) (s : State) : Host.Outcome State Fault Refusal :=
  s.run fun w => w.takeTok id .dispatch fun p w => w.keeperTake p.dst false p

/-- An expert output goes to the Tally unit of its row's memory (R140), and its rank is timed no longer; one for a rank that is closed is discarded as late (R146), one of another length than OUT_BEATS closes it as BAD_OUTPUT (R138). -/
def Work.combineIn (w : Work) (id : Nat) (p : Packet) : Work :=
  if !w.rankOpen p then w.count 3 p.dst 7
  else match w.table p.otable with
    | none => w.closeRank p 14
    | some t =>
      let w := w.onRec (handleEngine p.token) (handleRec p.token) fun r => { r with ranks := r.ranks.modify p.rank fun k => { k with remote := false } }
      let base := rowAddr t.hdr p.row + if t.hdr.cmode = 1 then p.rank * slotBytes t.hdr else 0
      if p.payload.length ≠ 32 * t.hdr.outBeats then w.closeRank p 11
      else match w.probe (80 + p.dst) t.hdr.berth base (slotBytes t.hdr) true with
      | (.bad st _ _, w) => w.closeRank p (combineCause st)
      | (_, w) =>
        let w := w.onBearing p.dst fun x => { x with combining := tset x.combining id { packet := p } }
        w.homeAccess (.bearing p.dst) (combTag id) (80 + p.dst) t.hdr.berth base (slotBytes t.hdr) .combine 1

/-- COMBINE. -/
def execCombine (id : Nat) (s : State) : Host.Outcome State Fault Refusal :=
  s.run fun w => w.takeTok id .combine fun p w => w.combineIn id p

/-- TALLY_COMBINE_DONE: the row holds the sum, and the rank closes (R140-R142). -/
def execTallyCombineDone (id : Nat) (outcome : XferEnd) (s : State) : Host.Outcome State Fault Refusal :=
  s.run fun w =>
    match w.hub.bearings.findSome? fun (b, x) => (tfind x.combining id).map fun c => (b, c.packet) with
    | none => w
    | some (b, p) => (w.pumpSource (.bearing b)).underOld (.bearing b) (combTag id) fun w =>
      if w.homePending (.bearing b) (combTag id) then w
      else
        let close (cause : Nat) (w : Work) : Work :=
          let w := (w.homeRelease (.bearing b) (combTag id)).onBearing b fun x => { x with combining := tdel x.combining id }
          w.closeRank p cause
        match w.table p.otable with
        | none => close 14 w
        | some t =>
          if !w.rankOpen p then
            ((w.homeRelease (.bearing b) (combTag id)).onBearing b fun x => { x with combining := tdel x.combining id }).count 3 b 7
          else
            let (o, w) := w.endOf (.bearing b) (combTag id) outcome
            if o ≠ .ok then close (combineCause (endStatus o)) w
            else match w.tallyCombine b t.hdr p with
              | (none, w) => w
              | (some c, w) => close c w

/-- CLOSE: a closing cause reaches the origin (R138, R144, R146). -/
def execClose (id : Nat) (s : State) : Host.Outcome State Fault Refusal :=
  s.run fun w => w.takeTok id .close fun p w => w.closeIn p

/-- OUTCOME_RECORD_DONE: the record is written or its failure logged, the mark is advanced and the token record freed (R144). -/
def execOutcomeRecordDone (b rec : Nat) (outcome : XferEnd) (s : State) : Host.Outcome State Fault Refusal :=
  s.run fun w => (w.pumpSource (.bearing b)).underOld (.bearing b) (recTag rec) fun w =>
    match tfind (w.bearing b).recs rec with
    | none => w
    | some r =>
      if r.phase ≠ .outcome || w.homePending (.bearing b) (recTag rec) then w
      else match w.table r.table with
        | none => w.tokenFree b rec r
        | some t =>
          let fail (st : Nat) (w : Work) : Work :=
            let w := w.log { cls := 3, sev := 2, cause := 0x801F, unit := b, berth := some t.hdr.berth, addr := r.row, detail := r.table + st * 256 }
            (w.homeRelease (.bearing b) (recTag rec)).tokenFree b rec r
          let (outcome, w) := w.endOf (.bearing b) (recTag rec) outcome
          if outcome ≠ .ok then fail (endStatus outcome) w
          else match w.writeDva (80 + b) t.hdr.berth (t.hdr.outcomeBase + r.row * 32) (outcomeRecord r) with
            | (.bad st _ _, w) => fail st w
            | (.wait, w) => w
            | (.ok _ _, w) => (w.homeRelease (.bearing b) (recTag rec)).tokenFree b rec r

/-- BOUNCE: the origin applies its own table's policy, and its timer stops (R145, R146). -/
def execBounce (id : Nat) (s : State) : Host.Outcome State Fault Refusal :=
  s.run fun w => w.takeTok id .bounce fun p w =>
    let b := handleEngine p.token
    if !w.rankOpen p then w.count 3 b 7
    else match w.replica b p.otable with
      | none => w
      | some t =>
        let w := w.onRec b (handleRec p.token) fun r => { r with ranks := r.ranks.modify p.rank fun k => { k with remote := false } }
        w.overflow b t { p with kind := .dispatch, berth := t.hdr.berth }

/-- REMOTE_TIMEOUT: a remote rank has not closed in time (R146). -/
def execRemoteTimeout (b rec rank : Nat) (s : State) : Host.Outcome State Fault Refusal :=
  s.run fun w =>
    match tfind (w.bearing b).recs rec with
    | none => w
    | some r =>
      match r.ranks[rank]? with
      | some k => if k.remote && k.cause.isNone then (w.rankClose b rec rank 7).tokenSettle b rec else w
      | none => w

/-- DEFER_PASS_END: a defer pass goes on; once every entry of it has been read, the packets that it held are handled (R133, R136). -/
def execDeferPassEnd (b table : Nat) (s : State) : Host.Outcome State Fault Refusal :=
  s.run fun w =>
    let k := w.keeper b table
    if !k.passing then w
    else
      let w := w.deferGo table b k.todo
      if (w.keeper b table).todo ≠ 0 then w
      else
        let held := (w.keeper b table).held
        each held (fun p w => w.keeperTake b false p) (w.onKeeper b table fun k => { k with passing := false, held := [] })

/-! ## Table commands (R120-R124, R409) -/

/-- The header of a table image (R120). -/
def tabHdrOf (i : Nat) : TabHdr :=
  { berth := bits i 45 32, nexp := bits i 59 48, k := bits i 66 64 + 1, score := bits i 69 68, renorm := bit i 70, useBias := bit i 71,
    policy := bits i 73 72, ncDepth := bits i 75 74, zeroRow := bit i 76, cmode := bits i 77 77, peerIn := bit i 78,
    ptype := bits i 83 80, ctype := bits i 84 84, payloadBeats := bits i 99 88, outBeats := bits i 115 104, combineBase := bits i 184 128,
    rowStride := bits i 223 192, ntok := bits i 255 224, outcomeBase := bits i 312 256, deferBase := bits i 376 320, deferEntries := bits i 399 384,
    defaultCap := bits i 415 400, doneMark := bits i 427 416, doneEn := bit i 428, roundGate := bits i 441 432, roundEn := bit i 442,
    remoteTimeout := bits i 463 448 }

/-- An expert entry (R121). -/
def expEntryOf (x : Nat) : ExpEntry :=
  { kind := bits x 1 0, site := bits x 7 3, wright := bits x 15 8, hub := bits x 27 16, rtable := bits x 35 28, rexpert := bits x 47 36,
    cap := bits x 63 48, bias := bits x 79 64 }

/-- Row 2 of R122 for an entry: what it names exists, is enabled and has not failed at this start (R6, R534), and a hub is no greater than NHUB. -/
def Work.entryIdent (w : Work) (x : ExpEntry) : Bool :=
  match x.kind with
  | 1 => x.site < 16 && bit w.hub.board.sites x.site && !(w.site x.site).fuseBad && !(w.bearing x.site).out
  | 2 => x.wright < 64 && !(w.wright x.wright).failed && !(w.bearing (x.wright / 4)).out
  | 3 => !w.hubBeyond x.hub
  | _ => true

/-- Row 3 of R122 for an entry: a placed site or engine is granted to the berth. -/
def Work.entryOwned (w : Work) (b : Nat) (x : ExpEntry) : Bool :=
  match x.kind with
  | 1 => w.siteHeld x.site b
  | 2 => w.holder 1 x.wright = some b
  | _ => true

/-- Row 5 of R122 for an entry: fields that do not apply are zero, a remote hub is another one. -/
def Work.entryShape (w : Work) (x : ExpEntry) : Bool :=
  match x.kind with
  | 0 => x.site = 0 && x.wright = 0 && x.hub = 0 && x.rtable = 0 && x.rexpert = 0
  | 1 => x.wright = 0 && x.hub = 0 && x.rtable = 0 && x.rexpert = 0
  | 2 => x.site = 0 && x.hub = 0 && x.rtable = 0 && x.rexpert = 0
  | _ => x.site = 0 && x.wright = 0 && x.hub ≠ w.hubId

/-- Row 5 of R122 for a header and its entries. -/
def Work.tableShape (w : Work) (h : TabHdr) (es : List ExpEntry) : Bool :=
  h.k ≤ h.nexp && h.nexp ≤ 1024 && h.score ≠ 3 && h.policy ≠ 3 && h.ptype ≤ 4 && !(h.policy = 2 && h.ncDepth = 0)
    && h.payloadBeats ≠ 0 && h.outBeats ≠ 0 && h.ntok ≠ 0 && h.defaultCap ≠ 0 && h.payloadBeats ≤ 2048 && h.outBeats ≤ 2048
    && rowBytes h ≤ h.rowStride && h.rowStride % 256 = 0 && !(h.policy = 1 && h.deferEntries = 0)
    && !(h.remoteTimeout = 0 && es.any fun x => x.kind = 3) && es.all w.entryShape

/-- Bytes that the installed replicas take of the table store (R123). -/
def Work.tableStore (w : Work) : Nat := (w.hub.tables.map fun (_, t) => 256 + 16 * t.experts.length).sum

/-- Install a table image (R122, R123): its header, then its entries. -/
def Work.bearingInstall (w : Work) (e : EntryRef) (i : Nat) : Work :=
  let h := tabHdrOf i
  let n := bits i 23 16
  let es := (List.range h.nexp).map fun j => expEntryOf (bits i (2048 + 128 * j + 127) (2048 + 128 * j))
  if bits i 15 0 ≠ 1 then w.complete e stBadVersion
  else if 4096 ≤ h.berth || (!w.hub.board.berthsHigh && 256 ≤ h.berth) || !es.all w.entryIdent then w.complete e stBadIdent
  else if h.berth ≠ e.berth || w.holder 6 n ≠ some e.berth || !es.all (w.entryOwned e.berth) then w.complete e stNotOwner
  else if (w.table n).isSome then w.complete e stTableBusy
  else if !w.tableShape h es then w.complete e stBadShape
  else if 2 ^ 20 < w.tableStore + 256 + 16 * h.nexp then w.complete e stTableSpace
  else (w.onHub fun x => { x with tables := tset x.tables n { hdr := h, experts := es } }).complete e stOk

/-- BEARING_INSTALL: the header is read, then the entries that it counts; a header that shows more than 1,024 fails without them (R120, R409). -/
def execBearingInstall (e : EntryRef) (s : State) : Host.Outcome State Fault Refusal :=
  s.run fun w => w.command e 0x08 false fun x w => w.withStructure e x 256 fun i w =>
    if 1024 < bits i 59 48 then w.bearingInstall e i
    else w.withStructure e x (256 + 16 * bits i 59 48) fun i w => w.bearingInstall e i

/-- The shared checks of the commands on an installed table (R124). -/
def Work.onInstalled (w : Work) (e : EntryRef) (n : Nat) (k : BTable → Work → Work) : Work :=
  if 255 < n then w.complete e stBadIdent
  else if w.holder 6 n ≠ some e.berth then w.complete e stNotOwner
  else match w.table n with
    | none => w.complete e stNotInstalled
    | some t => if t.removing then w.complete e stNotInstalled else k t w

/-- The table that an update runs on for a ring entry, and whether one runs on the table that the entry names. -/
def Work.updating (w : Work) (e : EntryRef) : Option Nat := (w.hub.tables.find? fun (_, t) => t.upd.any fun u => u.entry = e).map (·.1)
def Work.updateBusy (w : Work) (e : EntryRef) : Bool :=
  match (w.started e).bind fun x => w.table (bits x.word 263 256) with
  | some t => t.upd.isSome
  | none => false

/-- BEARING_UPDATE: once every new entry has passed its checks the replicas take them one after another, each time the command goes on, and it is partially applied until all sixteen have them; another update of the table waits (R124, R409). -/
def execBearingUpdate (e : EntryRef) (s : State) : Host.Outcome State Fault Refusal :=
  s.run fun w => match w.updating e with
  | some n => w.updateNext n
  | none => if w.updateBusy e then w else w.command e 0x09 false fun x w =>
    let first := bits x 275 264
    let count := bits x 287 276
    w.onInstalled e (bits x 263 256) fun t w =>
      if t.experts.length < first + count then w.complete e stBadShape
      else w.withStructure e x (16 * count) fun i w =>
        let es := (List.range count).map fun j => expEntryOf (bits i (128 * j + 127) (128 * j))
        if !es.all w.entryIdent then w.complete e stBadIdent
        else if !es.all (w.entryOwned e.berth) then w.complete e stNotOwner
        else if !es.all w.entryShape || (t.hdr.remoteTimeout = 0 && es.any fun x => x.kind = 3) then w.complete e stBadShape
        else ((w.onTable (bits x 263 256) fun t => { t with upd := some { first := first, experts := es, entry := e } }).setPartial e).updateNext (bits x 263 256)

/-- BEARING_AVAIL: the availability marks of a run of experts (R124). -/
def execBearingAvail (e : EntryRef) (s : State) : Host.Outcome State Fault Refusal :=
  s.run fun w => w.command e 0x0A false fun x w =>
    let run := (List.range (bits x 287 276)).map (· + bits x 275 264)
    w.onInstalled e (bits x 263 256) fun t w =>
      if t.experts.length < bits x 275 264 + bits x 287 276 then w.complete e stBadShape
      else (w.onTable (bits x 263 256) fun t =>
        { t with unavailable := run.foldl (fun u i => if bit x 288 then rmv u i else addTo u i) t.unavailable }).complete e stOk

/-- BEARING_FLUSH: every deferred token closes as ABORTED (R124). -/
def execBearingFlush (e : EntryRef) (s : State) : Host.Outcome State Fault Refusal :=
  s.run fun w => w.command e 0x0B false fun x w =>
    w.onInstalled e (bits x 263 256) fun _ w =>
      (w.flushTable (bits x 263 256)).complete e stOk 0 (w.deferredOf (bits x 263 256))

/-- BEARING_REMOVE: the table takes no more gates, deferred tokens close, and the command waits for the records (R124). -/
def execBearingRemove (e : EntryRef) (s : State) : Host.Outcome State Fault Refusal :=
  s.run fun w => w.command e 0x0C false fun x w =>
    w.onInstalled e (bits x 263 256) fun _ w => w.tableRemove (bits x 263 256) (some e)

/-- Every token record of a table has closed: the replicas are freed (R124). -/
def Work.tableDrained (w : Work) (table : Nat) : Work :=
  match w.table table with
  | some t =>
    if !t.removing || w.tableOpen table then w
    else (w.tableFree table).completeOpt t.removeEntry stOk 0 t.aborted
  | none => w

/-- BEARING_ROUND: the round advances at every keeper of the table (R132). -/
def execBearingRound (e : EntryRef) (s : State) : Host.Outcome State Fault Refusal :=
  s.run fun w => w.command e 0x0D false fun x w =>
    w.onInstalled e (bits x 263 256) fun _ w => (w.advanceAll (bits x 263 256)).complete e stOk

end Sys2Proof.Machine
end

