-- ==== Sys2Proof/Machine/BinOps.lean ====
section
/-! DEFINITION. The shared operations of the Binnacle (18): preferences (R509), points of a throttle level (R513), changes of operating points (R508). -/

namespace Sys2Proof.Machine

/-- Change the Binnacle. -/
def Work.onBin (w : Work) (f : Bin → Bin) : Work := w.onHub fun h => { h with bin := f h.bin }

/-- A berth has work: a ring entry started and not completed, a recipe running or queued, an open token record (R509). -/
def Work.berthActive (w : Work) (b : Nat) : Bool :=
  ((List.range 4).any fun r => (w.ring b r).started ≠ [])
    || w.hub.wrights.any (fun (_, x) => (match x.run with | some r => r.launch.berth = b | none => false) || x.queue.any fun l => l.berth = b)
    || w.hub.bearings.any fun (_, x) => x.recs.any fun (_, r) => match w.table r.table with | some t => t.hdr.berth = b | none => false

/-- Berths with work. -/
def Work.activeBerths (w : Work) : List Nat := (w.hub.ten.berths.map (·.1)).filter w.berthActive

/-- Hold or cap the arithmetic preference where OP7 is retired (R518). -/
def Work.arithCap (w : Work) (op : Nat) : Nat := if w.hub.bin.op7Retired then min op 6 else op

/-- Preferences in the arithmetic, Hold and memory domains, and the hint that set the first (R509). -/
def Work.preferences (w : Work) : Nat × Nat × Nat × Nat :=
  match w.activeBerths with
  | [] => (w.arithCap w.hub.bin.body.idleArith, 7, w.hub.bin.body.idleMem, 0)
  | b :: bs =>
    let hints := (b :: bs).map fun b => (w.berth b).hint
    let top := hints.foldl (fun m h => max m (bits h 2 0)) 0
    (w.arithCap top, (if hints.all fun h => bit h 6 then 4 else 7), hints.foldl (fun m h => max m (bits h 5 3)) 0,
     (hints.find? fun h => bits h 2 0 = top).getD 0)

/-- Ceilings of a throttle level for the three domains (R513). -/
def levelArith (l : Nat) : Nat := 7 - l
def levelHold (l : Nat) : Nat := [7, 7, 7, 6, 6, 5, 4, 3].getD l 3
def levelMem (l : Nat) : Nat := [7, 7, 7, 6, 5, 4, 3, 0].getD l 0

/-- The operating point in force in a domain: 0 arithmetic, 1 Hold, 2 memory. -/
def opOf (b : Bin) (d : Nat) : Nat := if d = 0 then b.arithOp else if d = 1 then b.holdOp else b.memOp

/-- The point that a domain is at or on its way to. -/
def opTarget (b : Bin) (d : Nat) : Nat := (tfind b.pendingOp d).getD (opOf b d)

/-- The set point of VDD_ARITH at a point in mV, its trim included (R507, R517). -/
def arithMv (b : Bin) (op : Nat) : Nat := [550, 580, 620, 680, 720, 760, 800, 850].getD op 850 + tget 0 b.trims op

/-- Command the set point of a point over the AVSBus (R588); without voltage control nothing is commanded. -/
def Work.setVoltage (w : Work) (op : Nat) : Work := if w.hub.bin.avsLost then w else w.emit (.avs 0 (arithMv w.hub.bin op))

/-- Start the changes of operating points that the preferences and the level call for (R508, R509, R513). -/
def Work.retarget (w : Work) : Work :=
  let (a, h, m, _) := w.preferences
  let l := w.hub.bin.level
  each [(0, min a (levelArith l)), (1, min h (levelHold l)), (2, min m (levelMem l))] (fun (d, t) w =>
    if opTarget w.hub.bin d = t then w
    else
      let w := (w.onBin fun b => { b with pendingOp := tset b.pendingOp d t, partly := true }).count 18 0 (16 + d)
      if d = 0 then w.setVoltage t else w) w

/-- Hubs that hear of a slowed hub: the UP_HUB of its member gates, and those that its own gates have counted (R266). -/
def Work.slowedPeers (w : Work) : List Nat :=
  (w.hub.helm.gates.flatMap fun (_, g) =>
    (if g.parties ≠ 0 && g.upEn then [g.upHub] else []) ++ g.lastRemotes.map (·.1)).foldl addTo []

/-- Tell every site in service the arithmetic point and the hint that set the preference (R509, R110). -/
def Work.sendPhase (w : Work) : Work :=
  let (_, _, _, hint) := w.preferences
  each ((List.range 16).filter fun n => siteServing (w.site n)) (fun n w => w.sideband n 0x15 (pack [(3, w.hub.bin.arithOp), (5, 0), (8, hint)])) w

/-- A domain has reached its new point: sites and slowed peers hear, capacities follow (R508, R509, R514). -/
def Work.opReached (w : Work) (d : Nat) : Work :=
  match tfind w.hub.bin.pendingOp d with
  | none => w
  | some t =>
    let old := w.hub.bin.arithOp
    let w := w.onBin fun b =>
      let p := tdel b.pendingOp d
      { b with pendingOp := p, partly := p ≠ [], arithOp := if d = 0 then t else b.arithOp,
               holdOp := if d = 1 then t else b.holdOp, memOp := if d = 2 then t else b.memOp }
    if d ≠ 0 then w.derate
    else if t = old then w
    else
      let w := w.sendPhase
      let (a, _, _, _) := w.preferences
      if t < a && t < old then each w.slowedPeers (fun h w => w.helmSend 4 { dstHub := h, opPoint := t }) w else w

end Sys2Proof.Machine
end

