-- ==== Sys2Proof/Machine/Fabric.lean ====
section
/-! DEFINITION. The commands of the fabric and the Ledger (09): flits and links, ageing, requests at their home, grant acknowledgements, and the host's snoops and answers. -/

namespace Sys2Proof.Machine

/-! ## Links (R271, R275, R276, R280) -/

/-- Both routers that a bundle joins, in the Log: UNIT the first-named one, DETAIL the number of the link or bundle and the other router (R270; log 143). -/
def linkEvent (sev cause bundle number : Nat) : LogEvent :=
  { cls := 7, sev := sev, cause := cause, unit := (bundleEnds bundle).1, detail := number + 2 ^ 16 * (bundleEnds bundle).2 }

/-- A link is taken out; the flits in its retry buffers go to its bundle's other links before any new one. A bundle left without links has the routing tables re-formed, with injection held meanwhile (R280). -/
def Work.linkOut (w : Work) (l : Nat) : Work :=
  let b := bundleOf l
  let left (f : Fabric) (d : Nat) : List Nat := (tfind f.retry (2 * l + d)).toList
  let w := w.onFabric fun f =>
    { f with
      linksOut := addTo f.linksOut l
      retry := tdel (tdel f.retry (2 * l)) (2 * l + 1)
      resend := tmod [] (tmod [] f.resend (2 * b) fun x => left f 0 ++ x) (2 * b + 1) fun x => left f 1 ++ x }
  let w := w.log (linkEvent 1 0 b l)
  let w :=
    if b ∈ w.lostBundles then (w.onFabric fun f => { f with heldFrom := some (f.heldFrom.getD f.nextId) }).log (linkEvent 1 0x800F b b)
    else w
  w.derate

/-- The flit that a direction of a link must carry next, by its network: the one in its retry buffer, else the first that the bundle resends (R280). -/
def Work.flitDue (w : Work) (l dir : Nat) : Option Nat :=
  match tfind w.hub.fabric.retry (2 * l + dir) with
  | some v => some v
  | none => (tget [] w.hub.fabric.resend (2 * bundleOf l + dir)).head?

/-- A flit leaves the link's retry buffer and the bundle's list for the link. -/
def takeFlit (f : Fabric) (l dir : Nat) : Fabric :=
  if (tfind f.retry (2 * l + dir)).isSome then { f with retry := tdel f.retry (2 * l + dir) }
  else { f with resend := tmod [] f.resend (2 * bundleOf l + dir) List.tail }

/-- A flit of one direction of a link is checked (R280, R297), none before those to be resent: 16 failures in a row or more than 1,000 within 1 ms take the link out. -/
def Work.flit (w : Work) (l dir vn quality : Nat) : Work :=
  let u := 2 * l + dir
  if 303 ≤ l || 2 ≤ dir || 5 ≤ vn || l ∈ w.hub.fabric.linksOut || (w.flitDue l dir).any (· ≠ vn) then w
  else
    let stall := w.fresh.1 % 2 ^ 48
    let w := if (w.flitDue l dir).isSome then w.onFabric fun f => takeFlit f l dir else w
    let w := w.fresh.2.count 5 u (5 + vn) stall
    if quality < 2 then
      let w := (w.count 5 u vn).onFabric fun f => { f with failRow := tdel f.failRow u }
      if quality = 1 then w.count 5 u 10 else w
    else
      let row := tget 0 w.hub.fabric.failRow u + 1
      let times := w.now :: recent w.now 1000 (tget [] w.hub.fabric.failTimes u)
      let w := (w.count 5 u 11).onFabric fun f => { f with failRow := tset f.failRow u row, failTimes := tset f.failTimes u times, retry := tset f.retry u vn }
      if 16 ≤ row || 1000 < times.length then w.linkOut l else w

/-- FABRIC_FLIT. -/
def execFabricFlit (link dir vn quality : Nat) (s : State) : Host.Outcome State Fault Refusal := s.run fun w => w.flit link dir vn quality

/-- ROUTING_REFORMATION_DONE: every router holds the tables without the lost bundles, the flits of which have left by then, and injection resumes (R275, R280). -/
def execRoutingReformationDone (s : State) : Host.Outcome State Fault Refusal :=
  s.run fun w =>
    if w.hub.fabric.heldFrom.isNone then w
    else
      let lost := w.lostBundles
      let w := w.writeRoutes.onFabric fun f => { f with heldFrom := none, resend := f.resend.filter fun (k, _) => k / 2 ∉ lost }
      w.log { cls := 7, sev := 0, cause := 0x8010 }

/-- A snoop of the SNP network is named by its line and site: 16 x line + site (R98). -/
def Work.ageSnoop (w : Work) (id : Nat) : Work :=
  w.onSPort (id % 16) fun p => { p with snpQueue := p.snpQueue.map fun x => if x.line = id / 16 then { x with aged := true } else x }

/-- ARBITER_AGEING: a message in flight on a network is served as priority 3 from then on (R276). -/
def execArbiterAgeing (vn id : Nat) (s : State) : Host.Outcome State Fault Refusal :=
  s.run fun w =>
    let f := w.hub.fabric
    let age (here : Bool) : Work := if here then w.onFabric fun f => { f with aged := addTo f.aged id } else w
    match vn with
    | 0 => if (tfind f.reqs id).isSome then w.onFabric fun f => { f with reqs := tmod {} f.reqs id fun r => { r with aged := true } } else w
    | 1 => w.ageSnoop id
    | 2 => age (match tfind f.rsps id with | some r => !r.read | none => false)
    | 3 => age (match tfind f.rsps id with | some r => r.read | none => false)
    | 4 => age (tfind f.toks id).isSome
    | _ => w

/-! ## Requests at the home (R283-R290, R295) -/

/-- An earlier request of the same site and berth to one of its lines is still to be performed (R95, R277). -/
def Work.behind (w : Work) (r : MemReq) : Bool :=
  let older (x : MemReq) : Bool :=
    (reqSite r).isSome && reqSite x = reqSite r && x.berth = r.berth && x.rank < r.rank && sharesLine x r
  w.hub.fabric.reqs.any (fun (_, x) => older x) || w.hub.ledger.waits.any (fun (_, q) => q.any older)
    || w.hub.ledger.txns.any (fun (_, t) => match t.why with | .request x => older x && t.ackFrom.isNone | _ => false)

/-- An open snoop of the line awaits this write-back, or may come to await it (R103). -/
def Work.awaitedWb (w : Work) (r : MemReq) : Bool :=
  (match w.txn (reqLine r) with | some t => awaitsWb t r | none => false) || (match w.hostTxn (reqLine r) with | some t => awaitsWb t r | none => false)

/-- One of the stores of a line's home slice is full: 1,024 open transactions, 4,096 waiting requests (R286). -/
def Work.homeFull (w : Work) (l : Nat) : Bool :=
  let s := sliceOf (l * 128)
  let here (k : Nat) : Bool := sliceOf (k * 128) = s
  let waiting := ((w.hub.ledger.waits.filter fun (k, _) => here k).map fun (_, q) => q.length).sum
  1024 ≤ w.openAt l || 4096 ≤ waiting

/-- Sites with COH_AGENT in force. -/
def Work.cohSites (w : Work) : List Nat := (List.range 16).filter fun n => streamUp (w.site n) && (w.site n).port.initGot && (w.site n).port.coh

/-- A lookup meets a bad directory entry (R295): recovered from its tag copy, or its way retired with the line unknown. -/
def Work.dirError (w : Work) (l err : Nat) : Work :=
  let d := l * 128
  if err = 0 then w
  else if err = 1 then
    if (w.lineEntry l).isNone || (w.txn l).isSome || 1024 ≤ w.openAt l then w
    else
      let sites := w.cohSites
      let w := (w.setTxn l { why := .evict, waiting := sites }).count 6 (sliceOf d) 8
      let w := w.log { cls := 8, sev := 1, cause := 0, unit := sliceOf d, addr := d }
      (each sites (fun n w => w.snoop n l snpInv) w).resolve l
  else
    let way := err - 2
    if 16 ≤ way || (ledgerSet l, way) ∈ w.hub.ledger.retired then w
    else
      let lost := (w.hub.ledger.entries.filter fun (m, _) => ledgerSet m = ledgerSet l)[way]?
      let w := match lost with
        | some (m, _) => if (w.txn m).isNone then w.setEntry m none else w
        | none => w
      let w := w.onLedger fun x => { x with retired := (ledgerSet l, way) :: x.retired }
      (w.log { cls := 8, sev := 2, cause := 0x800E, unit := sliceOf d, addr := l % 32768, detail := way }).irqs w.portsUp 8

/-- HOME_REQUEST: a request reaches the home of its present line (R286, R287); a failed slice answers TARGET_DEAD, a host port that does not serve as R371, R388 and R392 say (R281). -/
def execHomeRequest (id err : Nat) (s : State) : Host.Outcome State Fault Refusal :=
  s.run fun w =>
    match tfind w.hub.fabric.reqs id with
    | none => w
    | some r =>
      let l := reqLine r
      if r.atHome || !w.injected id then w
      else if !w.awaitedWb r && (w.reqBehind id r || w.behind r || w.homeFull l) then w
      else
        let w := w.onFabric fun f => { f with reqs := tdel f.reqs id }
        let refused := if !isHost (l * 128) then none
          else if r.kind = .wbDirty || r.kind = .evictClean then (if w.portUp (hostPort (l * 128)) then none else some (7, 0))
          else w.accessCheck r.berth (l * 128)
        if sliceOf (l * 128) ∈ w.hub.fabric.deadSlices then ((w.dropPassed r).answer r 4 0 none).wakeHome l
        else match refused with
          | some (s, d) => (((w.bmeCount (l * 128) s).dropPassed r).answer r s d none).wakeHome l
          | none => (w.dirError l err).homeArrive r

/-- GRANT_ACKNOWLEDGEMENT: the answer that carries the grant stands in the site's stream; the transaction closes (R286). While the routing tables are re-formed the acknowledgement is held (R280). -/
def execGrantAcknowledgement (n line : Nat) (s : State) : Host.Outcome State Fault Refusal :=
  s.run fun w =>
    match w.txn line with
    | some t =>
      if w.hub.fabric.heldFrom.isSome || !t.placed then w
      else if t.ackFrom = some n then ((w.closeGrant line t).hostSnoopNext line n).wakeHome line
      else if t.early && t.ackFrom.isNone then w.setTxn line { t with acked := true }
      else w
    | none => w

/-! ## The host (R293, R294) -/

/-- A snoop of the host (R293): answered from the home's state as it stands, even while the line's own transaction waits for the host. A grant not yet in its site's stream goes first (R102), and so does an open snoop of the same line (log 134). -/
def Work.hostSnoop (w : Work) (port line kind : Nat) : Work :=
  if !isHost (line * 128) || hostPort (line * 128) ≠ port then w
  else if (w.hostTxn line).isSome then w.onLedger fun x => { x with hostNext := x.hostNext ++ [(line, port, kind)] }
  else (w.setHostTxn line { why := .hostSnoop port kind, hostWait := true }).hostSnoopGo line

/-- SNPINV. -/
def execSnpinv (port line : Nat) (s : State) : Host.Outcome State Fault Refusal := s.run fun w => w.hostSnoop port line 0

/-- SNPDATA. -/
def execSnpdata (port line : Nat) (s : State) : Host.Outcome State Fault Refusal := s.run fun w => w.hostSnoop port line 1

/-- SNPCUR. -/
def execSnpcur (port line : Nat) (s : State) : Host.Outcome State Fault Refusal := s.run fun w => w.hostSnoop port line 2

/-- HOST_RESPONSE: the waiting transaction completes with the host's answer; poison enters as a poisoned line (R293, R380). An answer that nothing awaits is discarded (R294). -/
def execHostResponse (port line : Nat) (poison : Bool) (data : List Byte) (s : State) : Host.Outcome State Fault Refusal :=
  s.run fun w =>
    match w.txn line with
    | some t =>
      if !t.hostWait || hostPort (line * 128) ≠ port then w
      else match t.why with
        | .request r =>
          let t := { t with hostWait := false }
          if endsCopies r.kind && wholeLine r then
            ((w.onLedger fun x => { x with hostPoison := rmv x.hostPoison line }).serveLine line t r none).wakeHome line
          else if poison then ((w.op (.poison line)).serveLine line t r none).wakeHome line
          else
            let d := slice data 0 128
            (((w.poke (line * 128) d).op (.clear line)).serveLine line t r (some d)).wakeHome line
        | _ => w
    | none => w

/-- Answer a request that waited for a host that did not answer (R294). -/
def Work.hostGone (w : Work) (r : MemReq) : Work :=
  let w := w.dropPassed r
  if readsOnly r.kind || r.kind = .rdShared || r.kind = .rdUnique then
    let (d, w) := w.junk (answerBytes r)
    w.answer r 1 0 (some d)
  else w.answer r 4 0 none

/-- A device-to-host request has gone unanswered: the line is poisoned, every waiting request ends, holders are invalidated (R294, R296). -/
def Work.hostTimedOut (w : Work) (port l : Nat) (own : List MemReq) : Work :=
  let d := l * 128
  let q := own ++ tget [] w.hub.ledger.waits l
  let w := (w.op (.poison l)).onLedger fun x => { x with hostPoison := addTo x.hostPoison l, waits := tdel x.waits l, txns := tdel x.txns l }
  let w := each q (fun r w => w.hostGone r) ((w.count 6 (sliceOf d) 7).count 6 (sliceOf d) 6)
  let w := (w.log { cls := 8, sev := 2, cause := 0, unit := sliceOf d, addr := d }).irq port 6
  let hs : List Nat := match w.lineEntry l with | some x => holdersOf x | none => []
  let w :=
    if hs = [] then w.setEntry l none
    else each hs (fun n w => w.snoop n l snpInv) (w.setTxn l { why := .evict, waiting := hs })
  w.wakeHome l

/-- HOST_TIMEOUT: with the link up, of a request that the home has outstanding at the host or of one that is at the port's queue (R294). -/
def execHostTimeout (port line : Nat) (s : State) : Host.Outcome State Fault Refusal :=
  s.run fun w =>
    let st := (w.port port).state
    if !isHost (line * 128) || hostPort (line * 128) ≠ port || (st ≠ 2 && st ≠ 3) then w
    else
      let own : List MemReq := match w.txn line with
        | some t => (match t.why with | .request r => if t.hostWait then [r] else [] | _ => [])
        | none => []
      let queued := w.hub.fabric.reqs.filter fun (_, r) => r.atHome && (linesOf r).1 ≤ line && line ≤ (linesOf r).2
      if own = [] && queued = [] then w
      else (w.onFabric fun f => { f with reqs := f.reqs.filter fun (i, _) => !(queued.any fun (j, _) => j = i) }).hostTimedOut port line (own ++ queued.map (·.2))

end Sys2Proof.Machine
end

