-- ==== Sys2Proof/Machine/SiteLink.lean ====
section
/-! DEFINITION. The commands of the site link (02) and of a site's rail (R38): the start of a site step by step (R62), frames without payload, retrain and limp service. The data frame stands with the site protocol. -/

namespace Sys2Proof.Machine

/-! ## The rail of a site (R38) -/

/-- The board's regulator reports VCSn good: SITE_PG follows (R30). -/
def Work.vcsRise (w : Work) (n : Nat) : Work :=
  (w.onSPower n fun p => { p with vcsPg := true, pgOut := true }).sitePin (.sitePg n) true

/-- VCS_PG_RISE. -/
def execVcsPgRise (n : Nat) (s : State) : Host.Outcome State Fault Refusal :=
  s.run fun w => if (w.site n).power.pwrEn then w.vcsRise n else w

/-- A site is starting and stands at a step of R62. -/
def Work.atStep (w : Work) (n k : Nat) : Bool := (w.site n).state = 6 && (w.site n).link.step = k

/-- Go to a step of R62. -/
def Work.toStep (w : Work) (n k : Nat) : Work := w.onLink n fun l => { l with step := k }

/-- SITE_RST_N_RELEASE (R38, R62 step 1). -/
def execSiteRstNRelease (n : Nat) (s : State) : Host.Outcome State Fault Refusal :=
  s.run fun w =>
    if w.atStep n 1 && (w.site n).power.vcsPg then
      ((w.onSPower n fun p => { p with rstN := true }).sitePin (.siteRstN n) true).toStep n 2
    else w

/-- VCS_PG_TIMEOUT: the rail has not risen in 20 ms (R38). -/
def execVcsPgTimeout (n : Nat) (s : State) : Host.Outcome State Fault Refusal :=
  s.run fun w => if w.atStep n 1 && !(w.site n).power.vcsPg then w.siteAbsent n 11 else w

/-- VCS_PG_FALL (R38, R72). -/
def execVcsPgFall (n : Nat) (s : State) : Host.Outcome State Fault Refusal :=
  s.run fun w =>
    let w := (w.onSPower n fun p => { p with vcsPg := false, pgOut := false }).sitePin (.sitePg n) false
    w.deadAgent n 20

/-! ## The start of a site (R62) -/

/-- SIDEBAND_UP (R62 step 2). -/
def execSidebandUp (n : Nat) (s : State) : Host.Outcome State Fault Refusal :=
  s.run fun w => if w.atStep n 2 then w.toStep n 3 else w

/-- SIDEBAND_TIMEOUT (R62 step 2, R66). -/
def execSidebandTimeout (n : Nat) (s : State) : Host.Outcome State Fault Refusal :=
  s.run fun w => if w.atStep n 2 then w.siteAbsent n 1 else w

/-- What is wrong with a capability record, by the causes of R66 and R574: 0 nothing. -/
def capFault (record : Nat) : Nat :=
  if bits record 511 480 ≠ crc32 (leBytes 60 record) then 2
  else if bits record 15 0 ≠ 1 then 3
  else if bits record 183 176 = 0 || 110 < bits record 183 176 then 2
  else if 1 < bits record 151 144 || bits record 159 152 < 1 then 4
  else 0

/-- The hub offers the token port: not cleared in SPORT_CFG, and the Bearing engine not disabled (R75). -/
def Work.offersToken (w : Work) (n : Nat) : Bool := (w.site n).port.offerToken && !(w.bearing n).out

/-- The hub record (R65): VENDOR and DEVICE of R568 identify the part. -/
def Work.hubRecord (w : Work) (n : Nat) : Nat :=
  let p := (w.site n).port
  let body := pack [(16, 1), (16, 0x1F8C), (32, 0x0416), (64, w.hub.purser.serial), (16, 0x0100), (8, 1), (8, 1),
    (1, b2n p.offerCoh), (1, b2n (w.offersToken n)), (1, b2n p.offerHelm), (5, 31), (8, 0), (8, w.siteCeiling n), (8, 105), (8, 0), (280, 0)]
  body + crc32 (leBytes 60 body) * 2 ^ 480

/-- LM_CAP (R64-R66, R75): a bad record makes the site absent; a good one fixes the options in force. -/
def execLmCap (n record : Nat) (s : State) : Host.Outcome State Fault Refusal :=
  s.run fun w =>
    if !w.atStep n 3 then w
    else if capFault record ≠ 0 then w.siteAbsent n (capFault record)
    else
      let w := w.sideband n 0x02 (w.hubRecord n)
      let tok := w.offersToken n
      let w := w.onSPort n fun p => { p with cap := record % 2 ^ 512, coh := bit record 160 && p.offerCoh, token := bit record 161 && tok,
                                             helm := bit record 162 && p.offerHelm, packed := bits record 167 163 }
      (w.onSPower n fun p => { p with limit := 8 * w.siteCeiling n, limitCause := 0 }).toStep n 4

/-- LM_CAP_TIMEOUT (R66). -/
def execLmCapTimeout (n : Nat) (s : State) : Host.Outcome State Fault Refusal :=
  s.run fun w => if w.atStep n 3 then w.siteAbsent n 1 else w

/-- BUNDLE_CLOCK_LOCK (R62 step 4). -/
def execBundleClockLock (n : Nat) (s : State) : Host.Outcome State Fault Refusal :=
  s.run fun w => if w.atStep n 4 then (w.onLink n fun l => { l with wireDone := false, wireGot := [] }).toStep n 5 else w

/-- What a receiver reports of a half (R59, R60, R63). -/
def Work.noteWires (w : Work) (n : Nat) (r : HalfFail) : Work :=
  w.onBundle n r.bundle fun b => setHalf b r.half fun x => { x with failed := r.wires, structural := r.structural || 9 ≤ r.wires.length }

/-- Send the spare map of a half, or that its bundle is out (R61, R600). -/
def Work.sendMap (w : Work) (n k h : Nat) (out : Bool) : Work :=
  let l := if out then [] else w.badWires n k h
  let wires := (List.range 9).map fun i => (10, l.getD i 0x3FF)
  w.sideband n 0x04 (pack ([(4, k), (1, h), (4, min 9 l.length), (1, b2n out), (6, 0)] ++ wires))

/-- Wires that fail at a start and are not fused go into the Log and the stored profile; one that passes leaves it (R61, R582). -/
def Work.profileHalf (w : Work) (n k h : Nat) : Work :=
  let key := halfKey n k h
  let fused := tget [] w.hub.start.fuses.wires key
  let new := (halfOf (w.bundle n k) h).failed.filter (· ∉ fused)
  let w := each new (fun i w => w.siteLog n 1 1 0x8005 i (k * 2 + h)) w
  if new = tget [] w.hub.start.profile.wires key then w
  else w.onHub fun x => { x with start := { x.start with profile := { x.start.profile with
    wires := if new = [] then tdel x.start.profile.wires key else tset x.start.profile.wires key (new.take 9), pendingWrite := true } } }

/-- A bundle is out for this start (R60, R62, R63). -/
def Work.outAtStart (w : Work) (n k why : Nat) : Work :=
  let w := w.onBundle n k fun b => { b with out := true, outCause := why }
  (w.sideband n 0x07 (pack [(4, k), (4, why)])).siteLog n 1 1 40 k why

/-- Halves of bundles in order. -/
def allHalves : List (Nat × Nat) := (List.range 32).map fun i => (i / 2, i % 2)

/-- Every wire test of step 5 has come in: the hub forms the union and sends 32 maps (R61, R62 step 6, R600). -/
def Work.mapsWhenTested (w : Work) (n : Nat) : Work :=
  let l := (w.site n).link
  if !l.wireDone || l.wireGot.length < 16 then w
  else
    let w := each allHalves (fun (k, h) w => w.profileHalf n k h) w
    let dead := (List.range 16).filter fun k => w.halfDead n k 0 || w.halfDead n k 1
    let w := each allHalves (fun (k, h) w => w.sendMap n k h (decide (k ∈ dead))) w
    (each dead (fun k w => w.outAtStart n k 0) w).toStep n 6

/-- WIRE_TEST_DONE: the hub's receivers have tested bundles 8-15 (R62 step 5). -/
def execWireTestDone (n : Nat) (fails : List HalfFail) (s : State) : Host.Outcome State Fault Refusal :=
  s.run fun w =>
    if !w.atStep n 5 then w
    else
      let w := each (fails.filter fun r => 8 ≤ r.bundle) (fun r w => w.noteWires n r) w
      (w.onLink n fun l => { l with wireDone := true }).mapsWhenTested n

/-- LM_WIRE_RESULT: the chiplet's receivers report a half of bundles 0-7 (R62 step 5, R63), at a start or in a retrain. -/
def execLmWireResult (n : Nat) (result : HalfFail) (s : State) : Host.Outcome State Fault Refusal :=
  s.run fun w =>
    if 8 ≤ result.bundle then w
    else if w.atStep n 5 then
      let w := w.noteWires n result
      (w.onLink n fun l => { l with wireGot := addTo l.wireGot (result.bundle * 2 + result.half) }).mapsWhenTested n
    else if (w.bundle n result.bundle).retraining then w.noteWires n result
    else w

/-- Every map sent at a start has been applied (R62 step 6). -/
def Work.stepWhenMapped (w : Work) (n : Nat) : Work :=
  if (w.site n).link.bundles.all fun b => b.out || (b.half0.acked && b.half1.acked) then w.toStep n 7 else w

/-- A retrained bundle carries traffic again; both ends count its frames from BSEQ 0 (log 25). -/
def Work.bundleBack (w : Work) (n k : Nat) : Work :=
  ((w.recalDone n k).onBundle n k fun b => { b with retraining := false, mapSent := false, deskewed := false, nextBseq := 0, expBseq := 0, discarding := false }).flush n

/-- LM_SPAREMAP_ACK (R63). -/
def execLmSparemapAck (n bundle half : Nat) (s : State) : Host.Outcome State Fault Refusal :=
  s.run fun w =>
    let ack (w : Work) : Work := w.onBundle n bundle fun b => setHalf b half fun x => { x with acked := true }
    if w.atStep n 6 then (ack w).stepWhenMapped n
    else if (w.bundle n bundle).retraining && (w.bundle n bundle).mapSent then ack w
    else w

/-- LM_SPAREMAP_ACK_TIMEOUT (R63): at a start the bundle is out; in service the retrain has failed. -/
def execLmSparemapAckTimeout (n bundle half : Nat) (s : State) : Host.Outcome State Fault Refusal :=
  s.run fun w =>
    let b := w.bundle n bundle
    if (halfOf b half).acked then w
    else if w.atStep n 6 then (if b.out then w else (w.outAtStart n bundle 4).stepWhenMapped n)
    else if b.retraining && b.mapSent then (w.onBundle n bundle fun b => { b with mapSent := false }).retrainMissed n bundle
    else w

/-- A retrain of a bundle has its maps applied at both ends: steps 7 and 8 of R62 follow (R68). -/
def mapped (b : Bundle) : Bool := b.retraining && b.mapSent && b.half0.acked && b.half1.acked

/-- DESKEW_DONE (R62 step 7), at a start, or of the bundles whose retrain has come to it (R68). -/
def execDeskewDone (n : Nat) (s : State) : Host.Outcome State Fault Refusal :=
  s.run fun w =>
    if w.atStep n 7 then w.toStep n 8
    else w.onLink n fun l => { l with bundles := l.bundles.map fun b => if mapped b then { b with deskewed := true } else b }

/-- Credits that the hub grants (R85). -/
def hubGrants : Credits := { reqHdr := 1024, reqData := 16384, snpHdr := 0, tokHdr := 64, tokData := 8192, hlmHdr := 256 }

/-- The bundle layer is up: the hub sends INIT (R62 step 9, R77, R82). -/
def Work.bundleLayerUp (w : Work) (n : Nat) : Work :=
  let w := (w.onLink n fun l => { l with bundles := l.bundles.map fun b => { b with active := !b.out } }).toStep n 9
  let p := (w.site n).port
  let w := w.onSPort n fun p => { p with initSent := true, toChip := hubGrants }
  w.siteSend n (initBytes p.coh p.token p.helm p.packed)

/-- Step 8 of the retrains that have come to it (R62, R68): a bundle with a CRC failure goes out with cause 1 (R600), the others return. -/
def Work.retrainEnds (w : Work) (n : Nat) (bad : List Nat) : Work :=
  each ((List.range 16).filter fun k => (w.bundle n k).deskewed) (fun k w => if k ∈ bad then w.bundleOut n k 1 else w.bundleBack n k) w

/-- IDLE_FRAME_TEST_DONE (R62 step 8, R67): a bundle with a CRC failure is out; a direction with none makes the site absent. In service it ends retrains (R68). -/
def execIdleFrameTestDone (n : Nat) (bad : List Nat) (s : State) : Host.Outcome State Fault Refusal :=
  s.run fun w =>
    if !w.atStep n 8 then w.retrainEnds n bad
    else
      let w := each (bad.filter fun k => k < 16 && !(w.bundle n k).out) (fun k w => w.outAtStart n k 1) w
      let left (base : Nat) : Bool := (List.range 8).any fun i => !(w.bundle n (base + i)).out
      if left 0 && left 8 then w.bundleLayerUp n else w.siteAbsent n 40

/-! ## Frames (R52-R58) -/

/-- Fields of a frame's header (R53). -/
def ftypeOf (bs : List Byte) : Nat := bits (leNat (bs.take 8)) 3 0
def bseqOf (bs : List Byte) : Nat := bits (leNat (bs.take 8)) 15 4
def ackSeqOf (bs : List Byte) : Nat := bits (leNat (bs.take 8)) 27 16
def ackBundleOf (bs : List Byte) : Nat := bits (leNat (bs.take 8)) 30 28
def nakOf (bs : List Byte) : Bool := bit (leNat (bs.take 8)) 31
def sseqOf (bs : List Byte) : Nat := bits (leNat (bs.take 8)) 47 32
def ackValidOf (bs : List Byte) : Bool := bit (leNat (bs.take 8)) 48

/-- A frame of 1,024 bytes whose CRC is good (R52, R54). -/
def frameGood (bs : List Byte) : Bool := bs.length = 1024 && leNat (bs.drop 1020) = crc32 (bs.take 1020)

/-- The hub hears frames of a chiplet bundle now. -/
def Work.hears (w : Work) (n k : Nat) : Bool :=
  8 ≤ k && streamUp (w.site n) && (w.bundle n k).active && !(w.bundle n k).retraining

/-- The hub sends a NAK for a chiplet bundle and discards until the frame after the last good one comes (R56); 8 in a row of one frame, or more than 64 CRC failures in 1 ms, call for a retrain (R58). -/
def Work.sendNak (w : Work) (n k : Nat) (crc : Bool) : Work :=
  let w := if crc then w.count 0 n (3 * k) else w
  let w := w.onBundle n k fun b =>
    { b with discarding := true, nakRow := if b.nakSeq = b.expBseq then b.nakRow + 1 else 1, nakSeq := b.expBseq,
             crcTimes := if crc then w.now :: recent w.now 1000 b.crcTimes else b.crcTimes }
  let w := ((w.count 0 n (3 * k + 1)).sendAck n k true).noteNak n k
  let b := w.bundle n k
  if 8 ≤ b.nakRow || 64 < (recent w.now 1000 b.crcTimes).length then w.retrain n k else w

/-- Send unacknowledged frames of a hub bundle again, with their sequence numbers (R56). -/
def Work.goBack (w : Work) (n a : Nat) : Work := each (w.bundle n a).retry (fun f w => w.putFrame n a f) w

/-- An acknowledgement of hub bundle a (R53, R56-R58): frames up to ACK_SEQ leave the retry buffer; a NAK sends the rest again. For a bundle being retrained or out it is ignored (R72). -/
def Work.ackIn (w : Work) (n : Nat) (bs : List Byte) : Work :=
  let a := ackBundleOf bs
  let b := w.bundle n a
  if !ackValidOf bs || !b.active || b.retraining then w
  else
    let w := match b.retry.findIdx? fun f => f.bseq = ackSeqOf bs with
      | some i => w.onBundle n a fun b => { b with retry := b.retry.drop (i + 1), nakRow := 0 }
      | none => w
    if !nakOf bs then w.flush n
    else
      let w := w.onBundle n a fun b => { b with nakRow := b.nakRow + 1, nakSeq := (ackSeqOf bs + 1) % 4096 }
      let w := (w.goBack n a).noteNak n a
      if 8 ≤ (w.bundle n a).nakRow then w.retrain n a else w.flush n

/-- IDLE_FRAME (R53, R54, R56). -/
def execIdleFrame (n bundle : Nat) (frame : List Byte) (s : State) : Host.Outcome State Fault Refusal :=
  s.run fun w =>
    if !w.hears n bundle then w
    else if !frameGood frame then w.sendNak n bundle true
    else if ftypeOf frame = 1 then w.ackIn n frame else w

/-- RETRAIN_REQUEST_FRAME: it asks for a retrain of the bundle that carries it (R58). -/
def execRetrainRequestFrame (n bundle : Nat) (frame : List Byte) (s : State) : Host.Outcome State Fault Refusal :=
  s.run fun w =>
    if !w.hears n bundle then w
    else if !frameGood frame then w.sendNak n bundle true
    else if ftypeOf frame = 2 then (w.ackIn n frame).retrain n bundle else w

/-- ACK_DEADLINE (R56). -/
def execAckDeadline (n bundle : Nat) (s : State) : Host.Outcome State Fault Refusal :=
  s.run fun w =>
    if (w.bundle n bundle).ackOwed && w.hears n bundle then w.sendAck n bundle (w.bundle n bundle).discarding else w

/-- ACK_TIMEOUT: no acknowledgement of a frame in 4,096 cycles counts as one NAK, and the bundle is retrained (R58). -/
def execAckTimeout (n bundle bseq : Nat) (s : State) : Host.Outcome State Fault Refusal :=
  s.run fun w =>
    if (w.bundle n bundle).retry.any (fun f => f.bseq = bseq) && !(w.bundle n bundle).retraining then
      (w.noteNak n bundle).retrain n bundle
    else w

/-! ## Retrain and limp service (R68-R72) -/

/-- LM_RETRAIN_REQ: either end asks; the hub decides and starts (R58). -/
def execLmRetrainReq (n bundle : Nat) (_fromHub : Bool) (s : State) : Host.Outcome State Fault Refusal :=
  s.run fun w => w.retrain n bundle

/-- LM_RETRAIN_ACK (R63). -/
def execLmRetrainAck (n bundle : Nat) (s : State) : Host.Outcome State Fault Refusal :=
  s.run fun w =>
    if (w.bundle n bundle).retraining then w.onBundle n bundle fun b => { b with retrainAcked := true } else w

/-- LM_RETRAIN_ACK_TIMEOUT (R63). -/
def execLmRetrainAckTimeout (n bundle : Nat) (s : State) : Host.Outcome State Fault Refusal :=
  s.run fun w =>
    if (w.bundle n bundle).retraining && !(w.bundle n bundle).retrainAcked then w.retrainMissed n bundle else w

/-- BUNDLE_RETRAIN_DONE: the wire test of a retrain has ended (R68). An unrepairable half, or more than 3 retrains in 1 s, puts the bundle out; else the maps go out, and steps 7 and 8 of R62 follow once they are acknowledged (log 38). -/
def execBundleRetrainDone (n bundle : Nat) (fails : List HalfFail) (s : State) : Host.Outcome State Fault Refusal :=
  s.run fun w =>
    let b := w.bundle n bundle
    if !b.retraining || !b.retrainAcked || b.mapSent then w
    else
      let w := each (fails.filter fun r => r.bundle = bundle) (fun r w => w.noteWires n r) w
      if w.halfDead n bundle 0 || w.halfDead n bundle 1 then w.bundleOut n bundle 2
      else if 3 < (retrainsNow w.now b).length then w.bundleOut n bundle 3
      else
        let w := w.onBundle n bundle fun b => { b with mapSent := true }
        (w.sendMap n bundle 0 false).sendMap n bundle 1 false

/-- LM_LIMP_ACK: stage 0 opens the retrain at half rate, stage 1 limp service (R63, R70). -/
def Work.limpAck (w : Work) (n stage : Nat) : Work :=
  let l := (w.site n).link
  if stage = 0 && l.limp = .ack0 then (w.onLink n fun l => { l with limp := .retrain }).limpRetrain n (limpBundles l 2 none)
  else if stage = 1 && l.limp = .ack1 then
    let entering := (w.site n).state ≠ 3
    let anew (k : Nat) : Bool := l.limpDir = 2 || (k < 8) = (l.limpDir = 0)
    let w := each ((List.range 8).filter fun k => anew k) (fun k w => w.onLink n (moveFrames k)) w
    let kept (b : Bundle) (k : Nat) : Bundle :=
      { b with active := k = l.limpTx || k = l.limpRx, retraining := false, mapSent := false, deskewed := false,
               nextBseq := 0, expBseq := 0, discarding := false, ackOwed := false }
    let w := w.onLink n fun l => { l with limp := .on, bundles := l.bundles.zipIdx.map fun (b, k) => if anew k then kept b k else b }
    let w := if entering then ((w.siteState n 3 l.limpCause).siteLog n 1 1 l.limpCause).irqs (w.portsForSite n) 2 else w
    w.flush n
  else w

/-- LM_LIMP_ACK. -/
def execLmLimpAck (n stage : Nat) (s : State) : Host.Outcome State Fault Refusal :=
  s.run fun w => w.limpAck n stage

/-- LM_LIMP_ACK_TIMEOUT: limp entry has failed, and the site is dead (R63). -/
def execLmLimpAckTimeout (n : Nat) (s : State) : Host.Outcome State Fault Refusal :=
  s.run fun w =>
    let l := (w.site n).link
    if l.limp = .ack0 || l.limp = .ack1 then w.deadAgent n 19 else w

/-- The bundle kept in a direction: of those that retrained cleanly and were not put out, the one with the fewest NAKs in 100 ms (R70; log 16). -/
def Work.keepBundle (w : Work) (n base : Nat) (clean : List Nat) : Option Nat × Work :=
  let naks (k : Nat) : Nat := (recent w.now 100000 (w.bundle n k).nakTimes).length
  let c := ((List.range 8).map (· + base)).filter fun k => k ∈ clean && !(w.bundle n k).out
  let low := c.foldl (fun m k => min m (naks k)) (naks (c.headD base))
  let best := c.filter fun k => naks k = low
  if best = [] then (none, w)
  else
    let i := Config.keepAmong w.hub.free % best.length
    (best[i]?, w.onHub fun h => { h with free := h.free + 1 })

/-- LIMP_RETRAIN_DONE (R70): the kept bundles are named, or the site is dead. -/
def execLimpRetrainDone (n : Nat) (clean : List Nat) (s : State) : Host.Outcome State Fault Refusal :=
  s.run fun w =>
    let l := (w.site n).link
    if l.limp ≠ .retrain then w
    else
      let (tx, w) := if l.limpDir = 1 then (some l.limpTx, w) else w.keepBundle n 0 clean
      let (rx, w) := if l.limpDir = 0 then (some l.limpRx, w) else w.keepBundle n 8 clean
      match tx, rx with
      | some t, some r =>
        let w := w.onLink n fun l => { l with limp := .ack1, limpTx := t, limpRx := r }
        w.sideband n 0x08 (pack [(1, 1), (3, t), (3, r)])
      | _, _ => w.deadAgent n 21

end Sys2Proof.Machine
end

