-- ==== Sys2Proof/Machine/SitePort.lean ====
section
/-! DEFINITION. The commands of the site protocol (03) but for the token port: INIT, echo, credits, requests and answers, snoops, Helm operations, sideband, exit and reclaim. -/

namespace Sys2Proof.Machine

/-! ## Start of the protocol (R77, R78, R537) -/

/-- The chiplet grants at least what R85 asks for the options in force. -/
def grantsOk (p : SPort) (c : Credits) : Bool :=
  (!p.coh || 64 ≤ c.snpHdr) && (!p.token || (4 ≤ c.tokHdr && 2048 ≤ c.tokData))

/-- INIT agrees with what the hub has computed (R77). -/
def initOk (p : SPort) (m : InitMsg) : Bool :=
  m.version = 1 && m.coh == p.coh && m.token == p.token && m.helm == p.helm && m.packed = p.packed && grantsOk p m.grants

/-- The 64 blocks of the echo test: 8 beats of PRBS31 data each (R537; log 15). -/
def echoBlock (i : Nat) : List Byte := (List.range 256).map (Config.prbs i)

/-- Send the echo test (R537). -/
def Work.echoTest (w : Work) (n : Nat) : Work :=
  let bs := (List.range 64).map echoBlock
  each bs (fun d w => w.siteSend n (echoBytes d)) (w.onSPort n fun p => { p with echoes := bs, echoLeft := 64 })

/-- The chiplet's INIT is received (R77, R82). -/
def Work.initIn (w : Work) (n : Nat) (m : InitMsg) : Work :=
  let s := w.site n
  if !streamUp s then w
  else if s.port.initGot then w.deadAgent n 19
  else if !initOk s.port m then w.siteAbsent n 5
  else (w.onSPort n fun p => { p with initGot := true, granted := m.grants, fromChip := m.grants }).echoTest n

/-- INIT. -/
def execInitMsg (n : Nat) (msg : InitMsg) (s : State) : Host.Outcome State Fault Refusal :=
  s.run fun w => w.initIn n msg

/-- INIT_TIMEOUT: no INIT in 100 microseconds (R77). -/
def execInitTimeout (n : Nat) (s : State) : Host.Outcome State Fault Refusal :=
  s.run fun w => if (w.site n).state = 6 && (w.site n).link.step = 9 && !(w.site n).port.initGot then w.siteAbsent n 5 else w

/-- The site enters service: Full, or Degraded where a bundle is out; the Log gets its state, masks and cause (R67, R78; log 126). -/
def Work.siteEnters (w : Work) (n : Nat) : Work :=
  let out := (w.site n).link.bundles.any fun b => b.out
  let w := if out then w.siteState n 2 40 else w.siteState n 1 0
  let w := w.siteLog n 1 0 (if out then 40 else 0) 0 (slinkStat (w.site n))
  let e := (w.site n).inEntry
  (w.onSite n fun s => { s with inEntry := none }).completeOpt e stOk 0 (if out then 2 else 1)

/-- An echo failure: absent at a start, dead-agent handling in service (R114, R537). -/
def Work.echoFails (w : Work) (n : Nat) : Work := if (w.site n).state = 6 then w.siteLost n 7 else w.deadAgent n 7

/-- ECHO_RSP is received. -/
def Work.echoIn (w : Work) (n : Nat) (d : List Byte) : Work :=
  w.received n {} fun w =>
    let p := (w.site n).port
    if d ∉ p.echoes then w.echoFails n
    else
      let w := w.onSPort n fun p => { p with echoes := p.echoes.erase d, echoLeft := p.echoLeft - 1 }
      if p.echoLeft = 1 && (w.site n).state = 6 then w.siteEnters n else w

/-- ECHO_RSP. -/
def execEchoRsp (n : Nat) (data : List Byte) (s : State) : Host.Outcome State Fault Refusal :=
  s.run fun w => w.echoIn n data

/-- ECHO_TIMEOUT: an ECHO not answered in 10 microseconds (R114, R537). -/
def execEchoTimeout (n : Nat) (s : State) : Host.Outcome State Fault Refusal :=
  s.run fun w => if streamUp (w.site n) && (w.site n).port.echoes ≠ [] then w.echoFails n else w

/-! ## Credits (R83, R84, R107) -/

/-- Credits held, none above the receiver's grant (R84). -/
def capCredits (top c : Credits) : Credits :=
  { reqHdr := min top.reqHdr c.reqHdr, reqData := min top.reqData c.reqData, snpHdr := min top.snpHdr c.snpHdr,
    tokHdr := min top.tokHdr c.tokHdr, tokData := min top.tokData c.tokData, hlmHdr := min top.hlmHdr c.hlmHdr }

/-- CREDIT is received: snoops and tokens that waited go out; returned TOK credits end the state of R107. -/
def Work.creditIn (w : Work) (n : Nat) (c : Credits) : Work :=
  w.received n {} fun w =>
    let w := w.onSPort n fun p => { p with fromChip := capCredits p.granted (addCredits p.fromChip c),
                                           tokWithheld := p.tokWithheld && c.tokHdr = 0 && c.tokData = 0 }
    let p := (w.site n).port
    (w.snpDrain n p.snpQueue.length).tokDrain n p.tokQueue.length

/-- CREDIT. -/
def execCredit (n : Nat) (credits : Credits) (s : State) : Host.Outcome State Fault Refusal :=
  s.run fun w => w.creditIn n credits

/-! ## Requests (R86-R97) -/

/-- RD_NC. -/
def execRdNc (n : Nat) (req : ReqHdr) (s : State) : Host.Outcome State Fault Refusal := s.run fun w => w.reqIn n 0x10 req []

/-- RD_SHARED. -/
def execRdShared (n : Nat) (req : ReqHdr) (s : State) : Host.Outcome State Fault Refusal := s.run fun w => w.reqIn n 0x11 req []

/-- RD_UNIQUE. -/
def execRdUnique (n : Nat) (req : ReqHdr) (s : State) : Host.Outcome State Fault Refusal := s.run fun w => w.reqIn n 0x12 req []

/-- UPGRADE. -/
def execUpgrade (n : Nat) (req : ReqHdr) (s : State) : Host.Outcome State Fault Refusal := s.run fun w => w.reqIn n 0x13 req []

/-- WR. -/
def execWr (n : Nat) (req : ReqHdr) (data : List Byte) (s : State) : Host.Outcome State Fault Refusal :=
  s.run fun w => w.reqIn n 0x14 req data

/-- WR_PARTIAL. -/
def execWrPartial (n : Nat) (req : ReqHdr) (data : List Byte) (s : State) : Host.Outcome State Fault Refusal :=
  s.run fun w => w.reqIn n 0x15 req data

/-- ATOMIC. -/
def execAtomic (n : Nat) (req : ReqHdr) (data : List Byte) (s : State) : Host.Outcome State Fault Refusal :=
  s.run fun w => w.reqIn n 0x16 req data

/-- REDUCE. -/
def execReduce (n : Nat) (req : ReqHdr) (data : List Byte) (s : State) : Host.Outcome State Fault Refusal :=
  s.run fun w => w.reqIn n 0x17 req data

/-- WB_DIRTY. -/
def execWbDirty (n : Nat) (req : ReqHdr) (data : List Byte) (s : State) : Host.Outcome State Fault Refusal :=
  s.run fun w => w.reqIn n 0x18 req data

/-- EVICT_CLEAN. -/
def execEvictClean (n : Nat) (req : ReqHdr) (s : State) : Host.Outcome State Fault Refusal := s.run fun w => w.reqIn n 0x19 req []

/-! ## Answers (R91-R93) -/

/-- An answer leaves the fabric for its site: the message, the grant in the stream (R286), the tag free. -/
def Work.answerOut (w : Work) (n id : Nat) (r : Rsp) (m : List Byte) : Work :=
  let w := w.onFabric fun f => { f with rsps := tdel f.rsps id }
  let w := w.siteSend n m
  let w :=
    if r.grant = 0 then w
    else match w.txn r.line with
      | some t => if t.ackFrom = some n || t.early && t.ackFrom.isNone then w.setTxn r.line { t with placed := true } else w
      | none => w
  w.answered n r.tag r.berth

/-- An answer may go into a site's stream: after the chiplet's INIT, or nowhere (R77). -/
def Work.answersGo (w : Work) (n : Nat) : Bool := !streamUp (w.site n) || (w.site n).port.initGot

/-- CMP: a dataless answer goes to the chiplet. -/
def execCmp (n id : Nat) (s : State) : Host.Outcome State Fault Refusal :=
  s.run fun w =>
    match tfind w.hub.fabric.rsps id with
    | some r => if r.site = n && !r.read && w.injected id && !w.rspBehind id r && w.answersGo n then w.answerOut n id r (cmpBytes r.status r.tag r.berth r.detail) else w
    | none => w

/-- RD_DATA: data goes to the chiplet. -/
def execRdData (n id : Nat) (s : State) : Host.Outcome State Fault Refusal :=
  s.run fun w =>
    match tfind w.hub.fabric.rsps id with
    | some r => if r.site = n && r.read && w.injected id && !w.rspBehind id r && w.answersGo n then w.answerOut n id r (rdDataBytes r.status r.tag r.berth r.grant r.fmt r.dpa r.data) else w
    | none => w

/-! ## Snoop answers (R99-R103, R114) -/

/-- An answer to a snoop that is not outstanding is discarded and recorded (R114, R582). -/
def Work.strayStag (w : Work) (n stag op : Nat) : Work := w.siteLog n 2 1 0x801C 0 (stag % 65536 + op * 65536)

/-- SNP_RSP is received. -/
def Work.snpRspIn (w : Work) (n stag final : Nat) (data wbPend : Bool) : Work :=
  w.received n {} fun w =>
    if !(w.site n).port.coh then w.unsupported n 0x31
    else if 3 < final then w.deadAgent n 19
    else match tfind (w.site n).port.snoops stag with
      | none => w.strayStag n stag 0x31
      | some x =>
        let w := w.onSPort n fun p => { p with snoops := tdel p.snoops stag }
        let d := if data then x.data else none
        let w := if x.host then w.hostSnoopAnswered n x.line final d wbPend else (w.snoopAnswered n x.line x.op final d wbPend).hostSnoopGo x.line
        w.snpDrain n (w.site n).port.snpQueue.length

/-- SNP_RSP. -/
def execSnpRsp (n stag final : Nat) (data wbPend : Bool) (s : State) : Host.Outcome State Fault Refusal :=
  s.run fun w => w.snpRspIn n stag final data wbPend

/-- SNP_DATA is received: dirty data waits for its SNP_RSP, and goes to a requester for whom the owner alone was snooped (R288). -/
def Work.snpDataIn (w : Work) (n stag : Nat) (dirty : Bool) (d : List Byte) : Work :=
  w.received n {} fun w =>
    if !(w.site n).port.coh then w.unsupported n 0x41
    else match tfind (w.site n).port.snoops stag with
      | none => w.strayStag n stag 0x41
      | some x =>
        if dirty then
          let w := w.onSPort n fun p => { p with snoops := tset p.snoops stag { x with data := some (slice d 0 128) } }
          if x.host then w else w.earlyData n x.line (slice d 0 128)
        else w

/-- SNP_DATA. -/
def execSnpData (n stag : Nat) (dirty : Bool) (data : List Byte) (s : State) : Host.Outcome State Fault Refusal :=
  s.run fun w => w.snpDataIn n stag dirty data

/-- A write-back that a site has announced is still awaited (R103). -/
def Work.awaitsWb (w : Work) (n : Nat) : Bool :=
  w.hub.ledger.txns.any (fun (_, t) => t.wbFrom = some n && t.wbReq.isNone) || w.hub.ledger.hostTxns.any (fun (_, t) => t.wbFrom = some n && t.wbReq.isNone)

/-- SNOOP_TIMEOUT: an answer, or the write-back it announced, has not come in 8 microseconds (R101, R103). -/
def execSnoopTimeout (n stag : Nat) (s : State) : Host.Outcome State Fault Refusal :=
  s.run fun w => if (tfind (w.site n).port.snoops stag).isSome || w.awaitsWb n then w.deadAgent n 16 else w

/-! ## The Helm port (R108, R109, R255-R260) -/

/-- MARK_ADD. -/
def execMarkAdd (n : Nat) (op : HlmOp) (s : State) : Host.Outcome State Fault Refusal := s.run fun w => w.hlmIn n 0 op

/-- MARK_WAIT. -/
def execMarkWait (n : Nat) (op : HlmOp) (s : State) : Host.Outcome State Fault Refusal := s.run fun w => w.hlmIn n 1 op

/-- MARK_READ. -/
def execMarkRead (n : Nat) (op : HlmOp) (s : State) : Host.Outcome State Fault Refusal := s.run fun w => w.hlmIn n 2 op

/-- GATE_ARRIVE. -/
def execGateArrive (n : Nat) (op : HlmOp) (s : State) : Host.Outcome State Fault Refusal := s.run fun w => w.hlmIn n 3 op

/-- SEM_ACQUIRE. -/
def execSemAcquire (n : Nat) (op : HlmOp) (s : State) : Host.Outcome State Fault Refusal := s.run fun w => w.hlmIn n 4 op

/-- SEM_RELEASE. -/
def execSemRelease (n : Nat) (op : HlmOp) (s : State) : Host.Outcome State Fault Refusal := s.run fun w => w.hlmIn n 5 op

/-- The Helm port of a site is in force now. -/
def helmLive (s : Site) : Bool := streamUp s && s.port.initGot && s.port.helm

/-- EVENT_WIRE_PULSE: the bound action, or the pulse is counted and discarded (R259). -/
def execEventWirePulse (n wire : Nat) (s : State) : Host.Outcome State Fault Refusal :=
  s.run fun w =>
    match (if helmLive (w.site n) then tfind w.hub.helm.bindings (n * 64 + wire) else none) with
    | none => w.count 4 0 17
    | some b =>
      match b.action with
      | 1 => (w.markAdd b.berth b.object 1).2
      | 2 => (w.gateArrive none b.berth b.object).2
      | 3 => (w.semRelease b.berth b.object 1).2
      | _ => w.count 4 0 17

/-- OUTBOUND_PULSE: one owed pulse leaves (R109, R260). -/
def execOutboundPulse (n wire : Nat) (s : State) : Host.Outcome State Fault Refusal :=
  s.run fun w =>
    let k := n * 64 + 32 + wire
    match tfind w.hub.helm.bindings k with
    | none => w
    | some b =>
      if b.owed = 0 || !helmLive (w.site n) then w
      else (w.onHelm fun h => { h with bindings := tset h.bindings k { b with owed := b.owed - 1 } }).sitePin (.eventWire n wire) true

/-! ## Power and telemetry (R110-R113) -/

/-- TJMAX of the chiplet (R64). -/
def tjmaxOf (cap : Nat) : Nat := bits cap 191 184

/-- SB_TELEM (R112, R511, R519). -/
def execSbTelem (n power tj : Nat) (selfLimit : Bool) (seq : Nat) (s : State) : Host.Outcome State Fault Refusal :=
  s.run fun w =>
    if !sidebandUp (w.site n) then w
    else
      let w := w.onSPower n fun p => { p with power := power % 4096, tj := tj % 256, selfLimit := selfLimit, seq := seq % 65536, atPmax := false }
      if tjmaxOf (w.site n).port.cap < tj % 256 then w.siteLog n 2 1 0 0 (tj % 256) else w

/-- TELEMETRY_GAP: 10 periods without SB_TELEM; the site counts at PMAX (R112). -/
def execTelemetryGap (n : Nat) (s : State) : Host.Outcome State Fault Refusal :=
  s.run fun w =>
    if siteServing (w.site n) then (w.onSPower n fun p => { p with atPmax := true }).siteLog n 2 1 0x800B else w

/-- SITE_POWER_OVER_LIMIT: the reported power has stood above the limit for more than 1 ms (R112). -/
def execSitePowerOverLimit (n : Nat) (s : State) : Host.Outcome State Fault Refusal :=
  s.run fun w =>
    let p := (w.site n).power
    if siteServing (w.site n) && p.limit < p.power then (w.siteLog n 2 1 0x800C 0 p.power).irqs (w.portsForSite n) 4 else w

/-- SB_FAULT (R113, R543). A fatal one while the dead-agent handling runs is a second cause (R117). -/
def execSbFault (n severity code detail : Nat) (s : State) : Host.Outcome State Fault Refusal :=
  s.run fun w =>
    if !sidebandUp (w.site n) then (if severity = 3 && (w.site n).reclaiming then w.deadAgent n 18 else w)
    else if severity = 3 then w.deadAgent n 18
    else w.siteLog n 2 (severity % 4) (code % 65536) 0 (detail % 2 ^ 32)

/-- SITE_THERM_N_ASSERT: the chiplet gets a limit of 0 W (R113). -/
def execSiteThermNAssert (n : Nat) (s : State) : Host.Outcome State Fault Refusal :=
  s.run fun w =>
    let w := w.onSPower n fun p => { p with thermN := false }
    if sidebandUp (w.site n) then (w.onSPower n fun p => { p with thermPending := true }).sendLimit n 0 2 else w

/-- SITE_THERM_TIMEOUT: still asserted 1 ms later (R113). -/
def execSiteThermTimeout (n : Nat) (s : State) : Host.Outcome State Fault Refusal :=
  s.run fun w =>
    let p := (w.site n).power
    if p.thermPending && !p.thermN then (w.onSPower n fun p => { p with thermPending := false }).deadAgent n 17 else w

/-- SITE_THERM_N_RELEASE: the limit of the Binnacle goes out (R113). -/
def execSiteThermNRelease (n : Nat) (s : State) : Host.Outcome State Fault Refusal :=
  s.run fun w =>
    let pending := (w.site n).power.thermPending
    let w := w.onSPower n fun p => { p with thermN := true, thermPending := false }
    if pending && sidebandUp (w.site n) then
      let (limit, cause) := w.siteLimit n
      w.sendLimit n limit cause
    else w

/-- SITE_ATTN_N_ASSERT: recorded and reported, whether or not the site is in service (R113). -/
def execSiteAttnNAssert (n : Nat) (s : State) : Host.Outcome State Fault Refusal :=
  s.run fun w => ((w.onSPower n fun p => { p with attnN := false }).siteLog n 2 0 0x800D).irqs (w.portsForSite n) 3

end Sys2Proof.Machine
end

