-- ==== Sys2Proof/Machine/SiteStream.lean ====
section
/-! DEFINITION. The stream of a site: tokens and gates (R104-R107), data frames (R52-R57), and the parsing of messages out of them (R79-R81). -/

namespace Sys2Proof.Machine

/-! ## Tokens (R104-R107) -/

/-- BEATS of a GATE that R106 allows; what else is wrong with a gate is judged by its engine (R125). -/
def gateLenOk (h : GateHdr) : Bool := 1 ≤ h.beats && h.beats ≤ 2176

/-- GATE is received: the site's own engine takes it (R106, R125). -/
def Work.gateIn (w : Work) (n : Nat) (h : GateHdr) (body : List Byte) : Work :=
  let cost : Credits := { tokHdr := 1, tokData := h.beats }
  if !gateLenOk h && streamUp (w.site n) then w.deadAgent n 19
  else w.received n cost fun w =>
    if !(w.site n).port.token then (w.unsupported n 0x52).giveBack n cost
    else
      let body := slice body 0 (32 * h.beats)
      (w.gateArrives n { hdr := h, logits := gateLogits h body, payload := body.drop (32 * logitBeats h), site := some n }).2

/-- GATE. -/
def execGate (n : Nat) (hdr : GateHdr) (body : List Byte) (s : State) : Host.Outcome State Fault Refusal :=
  s.run fun w => w.gateIn n hdr body

/-- BEATS of a TOK_OUT: none with NULL, else 1 to 2,048 (R104). -/
def outLenOk (h : TokHdr) : Bool := if h.null then h.beats = 0 else 1 ≤ h.beats && h.beats ≤ 2048

/-- A TOK_OUT answers this TOK_IN (R105). -/
def answersTok (h : TokHdr) (t : TokIn) : Bool :=
  t.hdr.token = h.token && t.hdr.table = h.table && t.hdr.expert = h.expert && t.hdr.rank = h.rank && t.hdr.berth = h.berth

/-- TOK_OUT is received: it answers one TOK_IN outstanding at the site, or is discarded and counted (R105, R140). -/
def Work.tokOutIn (w : Work) (n : Nat) (h : TokHdr) (payload : List Byte) : Work :=
  let cost : Credits := { tokHdr := 1, tokData := h.beats }
  if !outLenOk h && streamUp (w.site n) then w.deadAgent n 19
  else w.received n cost fun w =>
    let w := w.giveBack n cost
    if !(w.site n).port.token then w.unsupported n 0x51
    else match (w.site n).port.tokIns.find? (answersTok h) with
      | none => w.count 3 n 7
      | some t =>
        let w := w.onSPort n fun p => { p with tokIns := p.tokIns.eraseP (answersTok h) }
        if h.null then w.closeRank t.packet 1
        else w.combineOut t.keeper t.packet h.fmt (slice payload 0 (32 * h.beats)) false

/-- TOK_OUT. -/
def execTokOut (n : Nat) (hdr : TokHdr) (payload : List Byte) (s : State) : Host.Outcome State Fault Refusal :=
  s.run fun w => w.tokOutIn n hdr payload

/-- A token that its host does not take goes to the table's policy (R107, R149, R204); one of another hub bounces to it (R145). -/
def Work.overflowTok (w : Work) (keeper : Nat) (p : Packet) : Work :=
  match w.replica keeper p.table with
  | some t => if handleHub p.token ≠ w.hubId then (w.toOrigin { p with kind := .bounce }).count 3 keeper 6 else w.overflow keeper t p
  | none => w.closeRank p (if handleHub p.token = w.hubId then 14 else 15)

/-- TOK_CREDIT_WITHHOLD_TIMEOUT: TOK credits withheld for 1 ms; what is held goes to the overflow policy (R107, R149). -/
def execTokCreditWithholdTimeout (n : Nat) (s : State) : Host.Outcome State Fault Refusal :=
  s.run fun w =>
    let p := (w.site n).port
    if streamUp (w.site n) && p.tokIns ≠ [] && (p.fromChip.tokHdr < p.granted.tokHdr || p.fromChip.tokData < p.granted.tokData) then
      let w := w.onSPort n fun p => { p with tokWithheld := true, tokQueue := [] }
      each p.tokQueue (fun t w => w.overflowTok t.keeper t.packet) w
    else w

/-! ## Messages in the stream (R79-R81) -/

/-- Data beats that follow a header, by its opcode (R81); none where the chiplet may not send it. -/
def msgBeats (h : Nat) : Option Nat :=
  let op := bits h 7 0
  let beats := bits h 23 12
  if op = 1 then some 1
  else if op = 2 then some 0
  else if op = 4 then (if 1 ≤ beats && beats ≤ 8 then some beats else none)
  else if 0x10 ≤ op && op ≤ 0x19 then some (reqBeats op (bits h 44 42))
  else if op = 0x31 then some 0
  else if op = 0x41 then some 4
  else if op = 0x51 then (if (if bit h 57 then beats = 0 else 1 ≤ beats && beats ≤ 2048) then some beats else none)
  else if op = 0x52 then (if 1 ≤ beats && beats ≤ 2176 then some beats else none)
  else if op = 0x60 then some 0
  else none

/-- Six counts of two bytes each, as INIT's beat and CREDIT carry them (R82, R84). -/
def creditsOf (x : Nat) : Credits :=
  { reqHdr := bits x 15 0, reqData := bits x 31 16, snpHdr := bits x 47 32, tokHdr := bits x 63 48, tokData := bits x 79 64, hlmHdr := bits x 95 80 }

/-- INIT of a chiplet (R82). -/
def initOf (h : Nat) (d : List Byte) : InitMsg :=
  { version := bits h 15 8, coh := bit h 16, token := bit h 17, helm := bit h 18, packed := bits h 23 19, grants := creditsOf (leNat d) }

/-- Header of a REQ (R86). -/
def reqOf (h : Nat) : ReqHdr :=
  { prio := bits h 9 8, fence := bit h 10, pa := bit h 11, tag := bits h 27 12, berth := bits h 41 28, size := bits h 44 42,
    fmtAsk := bit h 45, opspec := bits h 63 48, addr := bits h 120 64 }

/-- Header of a TOK_OUT (R104). -/
def tokOf (h : Nat) : TokHdr :=
  { fmt := bits h 11 8, beats := bits h 23 12, berth := bits h 41 28, expert := bits h 53 42, rank := bits h 56 54, null := bit h 57,
    token := bits h 95 64, table := bits h 103 96 }

/-- Header of a GATE (R106). -/
def gateOf (h : Nat) : GateHdr :=
  { fmt := bits h 11 8, beats := bits h 23 12, berth := bits h 41 28, nlog := bits h 52 42, bf16 := bit h 53, row := bits h 95 64, table := bits h 103 96 }

/-- Fields of an HLM_OP (R108). -/
def hlmOf (h : Nat) : HlmOp :=
  { tag := bits h 27 12, berth := bits h 41 28, release := bit h 42, object := bits h 79 64, value := bits h 127 96 }

/-- One whole message of the stream. -/
def Work.message (w : Work) (n h : Nat) (d : List Byte) : Work :=
  match bits h 7 0 with
  | 0x01 => w.initIn n (initOf h d)
  | 0x02 => w.creditIn n (creditsOf (bits h 111 16))
  | 0x04 => w.echoIn n d
  | 0x31 => w.snpRspIn n (bits h 27 12) (bits h 10 8) (bit h 11) (bit h 28)
  | 0x41 => w.snpDataIn n (bits h 27 12) (bit h 8) d
  | 0x51 => w.tokOutIn n (tokOf h) d
  | 0x52 => w.gateIn n (gateOf h) d
  | 0x60 => w.hlmIn n (bits h 11 8) (hlmOf h)
  | op => w.reqIn n op (reqOf h) d

/-- Keep the bytes of a message that has not come whole. -/
def Work.keepBytes (w : Work) (n : Nat) (bs : List Byte) : Work := w.onLink n fun l => { l with rxBytes := bs }

/-- Take messages out of the bytes at hand; PAD ends the frame (R79, R80); an opcode or length that R81 does not give is fatal (R114), before the chiplet's INIT too (log 130). -/
def Work.parse (w : Work) (n : Nat) : Nat → List Byte → Work
  | 0, bs => w.keepBytes n bs
  | fuel + 1, bs =>
    if !streamUp (w.site n) then w
    else match bs with
      | [] => w.keepBytes n []
      | op :: _ =>
        if op = 0 then w.keepBytes n []
        else if bs.length < 16 then w.keepBytes n bs
        else
          let h := leNat (bs.take 16)
          match msgBeats h with
          | none => w.deadAgent n 19
          | some b =>
            if bs.length < 16 + 32 * b then w.keepBytes n bs
            else ((w.keepBytes n []).message n h ((bs.drop 16).take (32 * b))).parse n fuel (bs.drop (16 + 32 * b))

/-- The payload of the next frame in SSEQ order reaches the protocol port. -/
def Work.payloadIn (w : Work) (n : Nat) (p : List Byte) : Work :=
  let bs := (w.site n).link.rxBytes ++ p
  w.parse n bs.length bs

/-- Deliver held payloads in SSEQ order (R55). -/
def Work.deliver (w : Work) (n : Nat) : Nat → Work
  | 0 => w
  | fuel + 1 =>
    let l := (w.site n).link
    match tfind l.rxHeld l.rxSseq with
    | none => w
    | some p =>
      ((w.onLink n fun l => { l with rxHeld := tdel l.rxHeld l.rxSseq, rxSseq := (l.rxSseq + 1) % 65536 }).payloadIn n p).deliver n fuel

/-- A good data frame of a bundle: in BSEQ order it is taken, of an earlier number acknowledged again and dropped, past a gap answered with NAK (R55, R56). -/
def Work.dataIn (w : Work) (n k : Nat) (bs : List Byte) : Work :=
  let b := w.bundle n k
  let ahead := (bseqOf bs + 4096 - b.expBseq) % 4096
  if ahead = 0 then
    let w := w.onBundle n k fun b => { b with expBseq := (b.expBseq + 1) % 4096, discarding := false, ackOwed := true, nakRow := 0 }
    let w := w.onLink n fun l => { l with dataTimes := (w.now, 1) :: l.dataTimes }
    let l := (w.site n).link
    if 32768 ≤ (sseqOf bs + 65536 - l.rxSseq) % 65536 then w
    else
      let w := w.onLink n fun l => { l with rxHeld := tset l.rxHeld (sseqOf bs) (slice bs 8 1012) }
      w.deliver n (w.site n).link.rxHeld.length
  else if b.discarding then w
  else if 2048 ≤ ahead then w.onBundle n k fun b => { b with ackOwed := true }
  else w.sendNak n k false

/-- DATA_FRAME (R52-R56). -/
def execDataFrame (n bundle : Nat) (frame : List Byte) (s : State) : Host.Outcome State Fault Refusal :=
  s.run fun w =>
    if !w.hears n bundle then w
    else if !frameGood frame then w.sendNak n bundle true
    else if ftypeOf frame = 0 then (w.ackIn n frame).dataIn n bundle frame else w

end Sys2Proof.Machine
end

