-- ==== Sys2Proof/Machine/WrightOps.lean ====
section
/-! DEFINITION. The shared operations of the Wright engines (06): streams and their positions (R194), local form (R187), the end of a recipe (R202), stops, service of experts (R204-R207), loads and stores (R188-R190). -/

namespace Sys2Proof.Machine

/-! ## Statuses of R209 -/

def stMisaligned : Nat := 0x04
def stStopped : Nat := 0x01
def stDatapath : Nat := 0x09
def stEngineOut : Nat := 0x0A
def stEngineBusy : Nat := 0x0C
def stParamFault : Nat := 0x0D

/-- The Chart unit of an engine (R347). -/
def wrightUnit (x : Nat) : Nat := 16 + x

/-! ## Local form (R181, R187) -/

/-- Elements of a vector. -/
def lanes (t : Nat) : Nat := if t = 8 || t = 9 then 128 else 1024 / eBits t

/-- MX blocks of a vector. -/
def blocksPerVec (t : Nat) : Nat := if isMx t then lanes t / 32 else 0

/-- Vectors that n elements take. -/
def vecsFor (t n : Nat) : Nat := ceilDiv n (lanes t)

/-- Bit place of element j of a tile, counted from the tile's start. -/
def elemBit (t j : Nat) : Nat := j / lanes t * 1024 + j % lanes t * eBits t

/-- Codes of n elements from a tile's bytes. -/
def tileCodes (t n : Nat) (bs : List Byte) : List Nat :=
  (List.range n).map fun j => (leNat ((bs.drop (elemBit t j / 8)).take 5)) / 2 ^ (elemBit t j % 8) % 2 ^ eBits t

/-- Vector number of a local address. -/
def vecOf (a : Nat) : Nat := a % localSize / 128

/-- Vectors that n bytes from a local address touch. -/
def vecsOf (a n : Nat) : List Nat := (partsOf 128 (a % localSize) n).map (· % (localSize / 128))

/-- Some byte of a region of local memory is poisoned, or awaits a LOAD. -/
def poisonIn (m : Wright) (a n : Nat) : Bool := (vecsOf a n).any fun v => v ∈ m.poison
def pendIn (m : Wright) (a n : Nat) : Bool := (vecsOf a n).any fun v => v ∈ m.pend

/-- Bits of a region of local memory, n of them from a byte address. -/
def localBits (m : Wright) (a n : Nat) : Nat := leNat (localRead m a (ceilDiv n 8)) % 2 ^ n

/-! ## Streams (R193, R194) -/

/-- A stream of the running recipe. -/
def streamOf (r : Run) (i : Nat) : Stream := r.recipe.streams.getD i {}

/-- The parameter word that a stream adds, or 0. -/
def paramOf (r : Run) (s : Stream) : Nat := if s.param = 0 then 0 else r.params.getD (s.param - 1) 0

/-- The sum of loop indices times strides, in bytes or blocks. -/
def strideSum (r : Run) (s : Stream) : Int :=
  ((r.loops.zip s.strides).map fun ((_, _, i), d) => (i : Int) * signedOf 16 d * ((2 ^ s.sshift : Nat) : Int)).sum

/-- BASE plus parameter word: where offsets are measured from. -/
def streamOrigin (r : Run) (s : Stream) : Nat :=
  (s.base + paramOf r s) % if s.space = 0 then localSize else 2 ^ 57

/-- Position of a stream at this execution of a step: a byte address, or a block number for a device stream of an MX type. -/
def streamPos (r : Run) (s : Stream) : Nat :=
  if s.space = 1 && isMx s.etype then unsignedOf 57 (strideSum r s)
  else unsignedOf (if s.space = 0 then 21 else 57) ((s.base + paramOf r s : Nat) + strideSum r s)

/-- Where the scales of the vector at a local position lie (R187). -/
def scalePos (t : Nat) (org scaleAt pos : Nat) : Nat :=
  (scaleAt + (pos + localSize - org % localSize) % localSize / 128 * blocksPerVec t) % localSize

/-- The current step of a run. -/
def curStep (r : Run) : Step := r.recipe.steps.getD r.pc {}

/-! ## Ends and stops (R202) -/

/-- Change the run of an engine. -/
def Work.onRun (w : Work) (x : Nat) (f : Run → Run) : Work := w.onWright x fun e => { e with run := e.run.map f }

/-- The start mark of the launch at the head of an engine's queue is already waited for (R256). -/
def Work.launchWaits (w : Work) (x : Nat) : Bool :=
  (w.hub.helm.waiters ++ w.hub.helm.reading.map (·.waiter)).any fun y => y.party = .launch x

/-- The head of the launch queue begins to wait on its start mark (R201, R256). -/
def Work.headWait (w : Work) (x : Nat) : Work :=
  match (w.wright x).queue with
  | l :: _ => if l.startEn && !l.startMet && l.startFailed = 0 && !w.launchWaits x then w.markWait (.launch x) l.berth l.startMark l.startThresh else w
  | [] => w

/-- The report of a launch (R411). -/
def reportBytes (status step rejects bounds table row : Nat) (loops : List Nat) : List Byte :=
  leBytes 64 (pack ([(8, status), (8, if status = 0 then 0 else step), (16, rejects), (16, bounds), (8, table), (8, 0)]
    ++ (List.range 4).map (fun i => (32, loops.getD i 0)) ++ [(32, row)]))

/-- A launch ends: its report, then its completion (R202, R210, R411). -/
def Work.launchEnds (w : Work) (x : Nat) (l : Launch) (status : Nat) (report : List Byte) : Work :=
  let w := w.count 2 x (1 + status)
  let w := if status = 0 then w else w.viewCount l.berth 2
  let w := if l.report = 0 then w else w.hostWrite (w.funcOf l.berth) l.report report
  w.complete l.entry status

/-- A launch ends without having started. -/
def Work.launchDropped (w : Work) (x : Nat) (l : Launch) (status : Nat) : Work :=
  w.launchEnds x l status (reportBytes status 0 0 0 0 0 [])

/-- Empty the launch queue with a status; their waits on start marks, and a read of parameters, are withdrawn. -/
def Work.emptyQueue (w : Work) (x status : Nat) : Work :=
  let q := (w.wright x).queue
  let w := ((w.onWright x fun e => { e with queue := [] }).dropFetch (.wright x) 0).withdrawWaits fun p => p = .launch x
  each q (fun l w => w.launchDropped x l status) w

/-- Answer the current token with NULL: its rank closes as NULL and its slot frees (R206, R207). -/
def Work.nullAnswer (w : Work) (x : Nat) : Work :=
  match (w.wright x).run with
  | some r =>
    match r.current with
    | some p =>
      let w := w.onWright x fun e => { e with inbox := tdel e.inbox r.currentSlot, full := false }
      ((w.onRun x fun r => { r with current := none }).count 2 x 25).closeRank p 1
    | none => w
  | none => w

/-- Tokens held at the keeper go into slots that are free (R204). -/
def Work.fillInbox (w : Work) (x : Nat) : Work :=
  let q := (w.wright x).waitingToks
  each q (fun p w => w.inboxPut x p) (w.onWright x fun e => { e with waitingToks := [] })

/-- The tokens in the inbox close as NULL, and a full inbox is full no longer (R204, R205). -/
def Work.closeInbox (w : Work) (x : Nat) : Work :=
  let ps := (w.wright x).inbox.map (·.2)
  each ps (fun p w => w.closeRank p 1) (w.onWright x fun e => { e with inbox := [], full := if ps = [] then e.full else false })

/-- Tokens held at the keeper go to the overflow policy (R204). -/
def Work.spillToks (w : Work) (x : Nat) : Work :=
  let ps := (w.wright x).waitingToks
  each ps (fun p w => w.overflowTok (x / 4) p) (w.onWright x fun e => { e with waitingToks := [] })

/-- Local memory, step buffer and inbox are zeroed, poison is cleared (R180). -/
def Work.wrightZero (w : Work) (x : Nat) : Work :=
  (w.closeInbox x).onWright x fun e => { e with mem := [], poison := [], pend := [], resident := none, inboxBase := 0, slots := 0, slotBytes := 0 }

/-- A take-out that waited for its engine is complete (R203, R554). -/
def Work.outDone (w : Work) (x status : Nat) : Work :=
  match (w.wright x).draining with
  | some e => (((w.closeInbox x).spillToks x).onWright x fun y => { y with draining := none }).complete e stOk 0 status
  | none => w

/-- The running recipe has ended and its accesses are done: tokens in the inbox of an engine that was stopped close as NULL, held ones go into free slots (R204, R205); then the done mark, the report, the completion, and the stops that wait (R202). -/
def Work.runEnds (w : Work) (x : Nat) : Work :=
  match (w.wright x).run with
  | none => w
  | some r =>
    let l := r.launch
    let stopped : Bool := r.status = stStopped || r.status = stEngineOut
    let w := w.nullAnswer x
    let w := if stopped || (w.wright x).out then w.closeInbox x else w
    let stops := (w.wright x).stopEntries
    let w := (w.onWright x fun e => { e with run := none, resident := some l.recipe, stopEntries := [] }).dropFwd (.wright x) 0
    let w := if (w.wright x).out then w else w.fillInbox x
    let w := if l.doneEn && !stopped then (w.markAdd l.berth l.doneMark 1).2 else w
    let w := w.launchEnds x l r.status (reportBytes r.status r.endStep r.rejects r.bounds r.rejTable r.rejRow r.endLoops)
    each stops (fun e w => w.complete e stOk) ((w.outDone x r.status).headWait x)

/-- A recipe that ends by itself is over once its accesses are done; a stop completes by its own row (R202). -/
def Work.tryEnd (w : Work) (x : Nat) : Work :=
  match (w.wright x).run with
  | some r =>
    if r.phase = .ending && (w.wright x).accesses = [] && r.status ≠ stStopped && r.status ≠ stEngineOut then w.runEnds x else w
  | none => w

/-- The indices of the open loops, outermost first. -/
def loopIndices (r : Run) : List Nat := r.loops.map fun (_, _, i) => i

/-- A run ends at a step with a status; the first cause that is not OK stands (R202, R209). -/
def runEndsAt (r : Run) (status step : Nat) (loops : List Nat) : Run :=
  if r.phase = .ending && r.status ≠ 0 then r else { r with phase := .ending, status := status, endStep := step, endLoops := loops }

/-- Issue ends with a status; issued accesses go on (R202, R209). -/
def Work.endRun (w : Work) (x status : Nat) : Work :=
  (w.onRun x fun r => if r.phase = .ending then r else runEndsAt r status r.pc (loopIndices r)).tryEnd x

/-- An access has failed: the recipe ends at the access's step, with the loop indices it had there (R209). -/
def Work.accessFails (w : Work) (x : Nat) (a : Access) (status : Nat) : Work :=
  w.onRun x fun r => runEndsAt r status a.step a.loops

/-- Stop the running recipe of an engine (R202): its waits are abandoned, LOAD data not yet arrived is discarded, tokens in the inbox close as NULL. A recipe that an error has ended already keeps that status (R211). -/
def Work.stopRun (w : Work) (x status : Nat) : Work :=
  let w := w.withdrawWaits fun p => p = .wright x
  let w := w.nullAnswer x
  let w := w.closeInbox x
  let w := w.onWright x fun e =>
    let loads := e.accesses.filter fun a => !a.store
    { e with accesses := e.accesses.filter fun a => a.store, pend := e.pend.filter fun v => loads.all fun a => v ∉ a.vecs }
  (w.onRun x fun r => if r.phase = .ending then { r with status := if r.status = 0 || r.status = stStopped then status else r.status }
    else runEndsAt r status r.pc (loopIndices r)).tryEnd x

/-- Stop an engine (R202): queued launches end too. -/
def Work.wrightStop (w : Work) (x status : Nat) : Work := (w.emptyQueue x status).stopRun x status

/-- Take an engine out of service (R203): its experts become unavailable, queued launches end; with nothing running it is out at once. -/
def Work.wrightOut (w : Work) (x : Nat) (e : Option EntryRef) : Work :=
  let w := w.clearMarks fun k => k.kind = 2 && k.wright = x
  let w := (w.onWright x fun y => { y with out := true, draining := if e.isSome then e else y.draining }).emptyQueue x stEngineOut
  if (w.wright x).run.isNone then ((w.closeInbox x).spillToks x).outDone x 0 else w

/-- A second mismatch in a vector: the recipe ends and the engine goes out of service (R209). -/
def Work.datapathFault (w : Work) (x vec : Nat) : Work :=
  match (w.wright x).run with
  | none => w
  | some r =>
    let b := r.launch.berth
    let w := w.log { cls := 5, sev := 3, cause := stDatapath, unit := x, berth := some b, detail := r.pc + vec * 256 }
    let w := w.irqs w.portsUp 7
    let w := w.clearMarks fun k => k.kind = 2 && k.wright = x
    let w := (((w.onWright x fun y => { y with out := true }).emptyQueue x stEngineOut).nullAnswer x).closeInbox x
    (w.endRun x stDatapath).spillToks x

/-! ## Steps -/

/-- A step of an engine that may issue now. -/
def Work.stepGo (w : Work) (x : Nat) (op : Nat) (k : Run → Step → Work → Work) : Work :=
  match (w.wright x).run with
  | some r => if r.phase = .issue && r.pc < r.recipe.steps.length && (curStep r).op = op then k r (curStep r) w else w
  | none => w

/-- Issue goes on with the next step. -/
def Work.nextStep (w : Work) (x : Nat) : Work := w.onRun x fun r => { r with pc := r.pc + 1, phase := .issue }

/-- The step after the ENDLOOP that matches a LOOP. -/
def skipLoop : List Step → Nat → Nat → Nat
  | [], i, _ => i
  | s :: r, i, depth =>
    if s.op = 2 then (if depth = 0 then i + 1 else skipLoop r (i + 1) (depth - 1))
    else skipLoop r (i + 1) (if s.op = 1 then depth + 1 else depth)

/-! ## Loads and stores (R188-R190) -/

/-- Device bytes that one vector of a load reads: a 128-byte piece, or the blocks of the vector of an MX array. -/
def vecBlocks (t pos v : Nat) : List Nat := (List.range (blocksPerVec t)).map (· + pos + v * blocksPerVec t)

/-- Granule of an MX block and its index in it (R153). -/
def blockAt (t arr n : Nat) : Nat × Nat := (arr + 256 * (n / mxBlocks t), n % mxBlocks t)

/-- First byte and length of what nv vectors from a device position span. -/
def deviceSpan (t arr pos nv : Nat) : Nat × Nat :=
  if isMx t then
    let n := nv * blocksPerVec t
    (arr + 256 * (pos / mxBlocks t), 256 * ((pos + n - 1) / mxBlocks t - pos / mxBlocks t + 1))
  else (pos, 128 * nv)

/-- A granule read for a load: dense bytes, mask, poison; none where its page is held; or a status of R93. -/
inductive LoadGran where
  | gran (d : List Byte) (mask : Nat) (poison : Bool)
  | bad (status : Nat)
  | wait

/-- A mask overrun met by an engine counts at the unpacker of the site that the engine's experts number with, x div 4 (R162, R177; log 137). -/
def Work.wrightOverrun (w : Work) (x : Nat) (g : DenseGran) : Work := if g.overrun && !g.poison then w.count 1 (x / 4) 4 else w

/-- Read n bytes of a granule at a device virtual address for a load: dense memory, or through the pack of a dense view (R190). -/
def Work.loadGran (w : Work) (x tag b t a n : Nat) : LoadGran × Work :=
  let u := wrightUnit x
  let ones (k : Nat) : Nat := 2 ^ k - 1
  let dense (w : Work) : LoadGran × Work :=
    match w.engRead (.wright x) tag u b a n with
    | (.ok d ps, w) => (.gran d (ones (granElems t)) (ps ≠ []), w)
    | (.wait, w) => (.wait, w)
    | (.bad s _ _, w) => (.bad s, w)
  match w.xlateNow u b (a % 2 ^ 57) {} with
  | (.bad s _, w) => (.bad s, w)
  | (.ok e _, w) =>
    if !bit e 24 then dense w
    else match w.packFor b (a % 2 ^ 57) (bits e 39 28) with
      | none => (.bad 2, w)
      | some p =>
        if packFmt p = 5 then dense w
        else
          let k := (a % 2 ^ 57 - packDense p) / 256
          match w.packGranule u b p k 1 (some (.wright x, tag)) with
          | (.gran g, w) => (.gran (slice g.dense (a % 256) n) (g.mask / 2 ^ (a % 256 * 8 / eBits t)) g.poison, w.wrightOverrun x g)
          | (.packError, w) => (.gran (List.replicate n 0) (ones (granElems t)) true, w.packLog u b p k)
          | (.fail s _, w) => (.bad s, w)
          | (.wait, w) => (.wait, w)
  | (_, w) => (.wait, w)

/-- One vector of a load in local form: its bytes, scales, mask bits and poison. -/
structure LoadVec where
  data : List Byte := []
  scales : List Nat := []
  mask : Nat := 0
  poison : Bool := false
  deriving DecidableEq, Repr

/-- The outcome of reading vectors for a load. -/
inductive LoadRes where
  | ok (vs : List LoadVec)
  | bad (status : Nat)
  | wait
  deriving DecidableEq, Repr

/-- Read one vector at a device position. -/
def Work.loadVec (w : Work) (x : Nat) (b : Nat) (a : Access) (pos v : Nat) : LoadRes × Work :=
  let t := a.etype
  if !isMx t then
    match w.loadGran x a.id b t (pos + 128 * v) 128 with
    | (.gran d m p, w) => (.ok [{ data := d, mask := m % 2 ^ lanes t, poison := p }], w)
    | (.bad s, w) => (.bad s, w)
    | (.wait, w) => (.wait, w)
  else
    let step (acc : LoadRes × Work) (n : Nat) : LoadRes × Work :=
      match acc.1 with
      | .ok (y :: _) =>
        let (g, i) := blockAt t a.arr n
        match acc.2.loadGran x a.id b t g 256 with
        | (.gran d m p, w) =>
          let bytes := 4 * eBits t
          (.ok [{ data := y.data ++ slice d (32 + bytes * i) bytes, scales := y.scales ++ [leNat (slice d i 1)],
                  mask := y.mask + m / 2 ^ (32 * i) % 2 ^ 32 * 2 ^ (32 * y.scales.length), poison := y.poison || p }], w)
        | (.bad s, w) => (.bad s, w)
        | (.wait, w) => (.wait, w)
      | r => (r, acc.2)
    match (vecBlocks t pos v).foldl step (.ok [{}], w) with
    | (.ok [y], w) => (.ok [{ y with data := slice y.data 0 128 }], w)
    | r => r

/-- Read every vector of an access, row by row; a poisoned index poisons what it brings (R185, R242). -/
def Work.loadVecs (w : Work) (x b : Nat) (a : Access) : LoadRes × Work :=
  let all := a.rows.flatMap fun (pos, _, b) => (List.range a.nv).map fun v => (pos, v, b)
  all.foldl (fun (acc : LoadRes × Work) (pos, v, bad) =>
    match acc.1 with
    | .ok vs =>
      match acc.2.loadVec x b a pos v with
      | (.ok ys, w) => (.ok (vs ++ ys.map fun y => { y with poison := y.poison || bad }), w)
      | r => r
    | r => (r, acc.2)) (.ok [], w)

/-- Local positions of the vectors of an access, row by row. -/
def accessPlaces (a : Access) : List Nat :=
  a.rows.flatMap fun (_, off, _) => (List.range a.nv).map fun v => (a.base + off + 128 * v) % localSize

/-- Write bits into local memory without touching its poison. -/
def putLocal (m : Wright) (p width code : Nat) : Wright :=
  let b0 := p / 8
  let n := (p + width - 1) / 8 - b0 + 1
  let old := leNat (localRead m b0 n)
  let new := putBits old (p % 8 + width - 1) (p % 8) code
  { m with mem := ((leBytes n new).zipIdx).foldl (fun t (b, i) => tset t ((b0 + i) % localSize) b) m.mem }

/-- A vector's mask in the lanes of another type: a bit says that some element it covers is present (R187, R190; log 139). -/
def relane (wide lanes m : Nat) : Nat :=
  if wide = lanes then m else maskOf ((List.range lanes).filter fun k => (List.range (ceilDiv wide lanes)).any fun i => bit m (k * wide / lanes + i))

/-- Poison of vectors after writes, each of a vector from a poisoned source or not: one poisoned write poisons, other writes clear (R185). -/
def poisonAfter (poison : List Nat) (ws : List (Nat × Bool)) : List Nat :=
  ((ws.filter (·.2)).map (·.1)).foldl addTo (poison.filter fun v => ws.all fun (u, _) => u ≠ v)

/-- Write the vectors of a load into local memory: mask, scales and data, with their poison; with MODE bit 1 vectors of zero mask stay as they are, but for poisoned ones (R185, R190). -/
def loadInto (m : Wright) (a : Access) (vs : List LoadVec) : Wright :=
  let t := a.etype
  let n := a.maskLanes
  let maskPlace (i : Nat) : Nat := match a.maskAt with | some q => 8 * q + i * n | none => 0
  let all := ((accessPlaces a).zip vs).zipIdx
  let skips (y : LoadVec) : Bool := bit a.mode 1 && y.mask = 0 && !y.poison
  let poison := poisonAfter m.poison (all.flatMap fun ((p, y), i) =>
    (if a.maskAt.isSome then [(vecOf (maskPlace i / 8), y.poison)] else [])
      ++ if skips y then [] else (vecOf p, y.poison) :: (vecsOf (scalePos t a.org a.scaleAt p) (blocksPerVec t)).map fun v => (v, y.poison))
  let m := all.foldl (fun m ((p, y), i) =>
    let m := if a.maskAt.isSome then putLocal m (maskPlace i) n (relane (lanes t) n y.mask) else m
    if skips y then m
    else (y.scales.zipIdx).foldl (fun m (s, k) => putLocal m (8 * (scalePos t a.org a.scaleAt p + k)) 8 s) (localWrite m p y.data)) m
  { m with poison := poison }

/-- Device writes of one vector of a store (R187): its bytes, or the element bytes and scale of each of its blocks. -/
def storeVec (t arr pos v : Nat) (d : List Byte) (scales : List Nat) (poison : Bool) : List (Nat × List Byte × Bool) :=
  if !isMx t then [(pos + 128 * v, d, poison)]
  else ((vecBlocks t pos v).zipIdx).flatMap fun (n, k) =>
    let (g, i) := blockAt t arr n
    let bytes := 4 * eBits t
    [(g + 32 + bytes * i, slice d (bytes * k) bytes, poison), (g + i, leBytes 1 (scales.getD k 0), poison)]

/-- Two spans of device memory share a 128-byte line. -/
def spansMeet (a b : Access) : Bool :=
  a.dva / 128 ≤ (b.dva + b.len - 1) / 128 && b.dva / 128 ≤ (a.dva + a.len - 1) / 128

/-- An earlier access of the engine to the same lines is still to be done (R189). -/
def accessBlocked (e : Wright) (a : Access) : Bool :=
  (e.accesses.takeWhile fun b => b.id ≠ a.id).any fun b => spansMeet a b

/-- 128-byte reads, or writes, that an engine's memory port has outstanding at the homes and in windows (R188). -/
def Work.portBusy (w : Work) (x : Nat) (write : Bool) : Nat :=
  (((w.sourceReqs (.wright x)).filter fun r => decide (r.kind ≠ .read) = write).map fun r => ceilDiv r.bytes 128).sum

/-- Issue the pieces of an access in their order while the port has room for 1,024 reads and 512 writes: the pieces that stay (R188; log 138). -/
def Work.portIssue (w : Work) (x b tag : Nat) : List PortPiece → List PortPiece × Work
  | [] => ([], w)
  | p :: r =>
    let room := if p.kind = .read then 1024 else 512
    if room < w.portBusy x (decide (p.kind ≠ .read)) + ceilDiv p.len 128 || w.otPiece (.wright x) (wrightUnit x) b p.dva (decide (p.kind ≠ .read)) then (p :: r, w)
    else
      let w := if p.window && p.kind = .wrPartial then w.windowAccess (.wright x) tag (wrightUnit x) b p.dva p.data
        else w.homePieces (.wright x) tag (wrightUnit x) b p.dva p.len p.kind 1 p.data
      w.portIssue x b tag r

/-- The port issues what it may of an access that waits for room (R188). -/
def Work.portPump (w : Work) (x b : Nat) (a : Access) : Work :=
  let (rest, w) := w.portIssue x b a.id a.todo
  w.onWright x fun e => { e with accesses := e.accesses.map fun c => if c.id = a.id then { c with todo := rest } else c }

/-- The pieces of the writes of a store (R188): of an MX array also the partial writes of its lines, which go before the homes alone. -/
def storePieces (a : Access) : List PortPiece :=
  let split (p : Nat) (d : List Byte) (kind : ReqKind) : List PortPiece :=
    (pieces p d.length).map fun (o, n) => { kind := kind, dva := p + o, len := n, data := slice d o n }
  if isMx a.etype then
    (a.writes.flatMap fun (p, d, _) => split p d .wrPartial)
      ++ ((a.writes.flatMap fun (p, d, _) => partsOf 128 p d.length).foldl addTo []).map fun l => { kind := .wrPartial, window := false, dva := 128 * l, len := 128 }
  else a.writes.flatMap fun (p, d, _) => split p d .write

/-- Put an access in flight: its pending bits are set, and its pieces go before the homes as the port has room. -/
def Work.startAccess (w : Work) (x b : Nat) (a : Access) (spans : List (Nat × Nat)) : Work :=
  let a := { a with id := (w.wright x).nextAccess + 1 }
  let w := w.onWright x fun e => { e with nextAccess := e.nextAccess + 1, accesses := e.accesses ++ [a], pend := a.vecs.foldl addTo e.pend }
  if a.store then w.portPump x b { a with todo := storePieces a }
  else
    let packs := (spans.flatMap fun (p, n) => w.packsIn (wrightUnit x) b p n).foldl addTo []
    let w := w.onWright x fun e => { e with accesses := e.accesses.map fun c => if c.id = a.id then { c with packs := packs } else c }
    w.portPump x b { a with todo := spans.flatMap fun (p, n) => (pieces p n).map fun (o, k) => { dva := p + o, len := k } }

/-- An access is over. -/
def Work.endAccess (w : Work) (x : Nat) (a : Access) : Work :=
  let w := w.onWright x fun e => { e with accesses := e.accesses.filter fun b => b.id ≠ a.id, pend := e.pend.filter fun v => v ∉ a.vecs }
  (((w.homeRelease (.wright x) a.id).dropFwd (.wright x) a.id).dropFetch (.wright x) a.id).tryEnd x

/-- Probe every span of an access: the first failure as a status of R209, or a wait. -/
def Work.probeSpans (w : Work) (x b : Nat) (write : Bool) (spans : List (Nat × Nat)) : DvaRes × Work :=
  spans.foldl (fun (acc : DvaRes × Work) (p, n) =>
    match acc.1 with
    | .ok _ _ => acc.2.probe (wrightUnit x) b p n write
    | r => (r, acc.2)) (.ok [] [], w)

end Sys2Proof.Machine
end

