-- ==== Sys2Proof/Machine/ChartOps.lean ====
section
/-! DEFINITION. The shared operations of the Chart units (12): the scope of an invalidation and the transfers it meets (R364-R366), and the copy of a page (R363, R441). -/

namespace Sys2Proof.Machine

/-- What an invalidation covers (R364): kind 0 one page, 1 a range, 2 a berth, 3 a range of DPAs; `len` in bytes. -/
structure Scope where
  kind : Nat := 0
  berth : Nat := 0
  start : Nat := 0
  len : Nat := 1
  nonleaf : Bool := false

/-- A cached leaf lies in a scope. -/
def leafIn (s : Scope) (t : Tlb) : Bool :=
  if s.kind = 3 then rangesMeet (leafDpa t.leaf t.log2 t.base) (2 ^ t.log2) s.start s.len
  else t.berth = s.berth && (s.kind = 2 || rangesMeet t.base (2 ^ t.log2) s.start s.len)

/-- A cached non-leaf entry lies in a scope (R364). -/
def walkIn (s : Scope) (x : WalkEntry) : Bool :=
  if s.kind = 3 then rangesMeet x.table 8192 s.start s.len || rangesMeet x.next (if x.level = 3 then 512 else 8192) s.start s.len
  else x.berth = s.berth && (s.kind = 2 || rangesMeet (x.pfx * 2 ^ levelLow x.level) (2 ^ levelLow x.level) s.start s.len)

/-- A transfer under way (R365): its agent and tag, its berth, the device virtual memory it covers, and its DPA where the request carries it. -/
structure Moving where
  agent : Agent := .hub
  tag : Nat := 0
  berth : Nat := 0
  dva : Nat := 0
  len : Nat := 1
  dpa : Option Nat := none

/-- The Chart unit of an agent (R347). -/
def unitOf (a : Agent) : Nat :=
  match a with
  | .site n => n
  | .wright x => wrightUnit x
  | .bearing b => 80 + b
  | .porter p j => 96 + p * 8 + j
  | _ => 128

/-- The device side of a copy (R415): where it begins in device virtual memory; a device-to-device copy has two. -/
def copyDva (c : CopyJob) : List Nat := match c.dir with | 0 => [c.dst] | 1 => [c.src] | _ => [c.src, c.dst]

/-- Transfers under way that have issued requests. -/
def Work.transfers (w : Work) : List Moving :=
  let byReq := w.allReqs.filterMap fun r => match r.agent with
    | .site _ => if r.kind = .upgrade || r.kind = .wbDirty || r.kind = .evictClean then none
      else some { agent := r.agent, tag := r.rank, berth := r.berth, dva := r.dva, len := r.bytes, dpa := some r.dpa }
    | .hawser _ _ => some { agent := r.agent, berth := r.berth, dva := r.dva, len := r.bytes, dpa := some r.dpa }
    | _ => none
  let byRsp := w.hub.fabric.rsps.filterMap fun (_, r) =>
    ((w.site r.site).port.outstanding.find? fun o => o.tag = r.tag && o.berth = r.berth && o.opcode ≠ 0x13 && o.opcode ≠ 0x18 && o.opcode ≠ 0x19).map fun o =>
      { agent := .site r.site, tag := o.seq, berth := o.berth, dva := o.line * 128, len := 128, dpa := some (r.line * 128) }
  let byWright := w.hub.wrights.flatMap fun (x, e) => e.accesses.map fun a =>
    { agent := .wright x, tag := a.id, berth := match e.run with | some r => r.launch.berth | none => 0, dva := a.dva, len := a.len }
  let byBearing := w.hub.bearings.flatMap fun (b, x) =>
    (x.combining.filterMap fun (id, c) => (w.table c.packet.otable).map fun t =>
      { agent := .bearing b, tag := combTag id, berth := t.hdr.berth, dva := rowAddr t.hdr c.packet.row, len := rowBytes t.hdr })
    ++ (x.recs.filterMap fun (i, r) => match r.phase, w.table r.table with
      | .zeroing, some t => some { agent := .bearing b, tag := recTag i, berth := t.hdr.berth, dva := rowAddr t.hdr r.row, len := rowBytes t.hdr }
      | .outcome, some t => some { agent := .bearing b, tag := recTag i, berth := t.hdr.berth, dva := t.hdr.outcomeBase + r.row * 32, len := 32 }
      | _, _ => none)
  let byPorter := w.hub.ports.flatMap fun (p, x) => x.porters.flatMap fun (j, y) => match y.queue with
    | c :: _ => if c.issued then (copyDva c).map fun a => { agent := .porter p j, tag := c.id, berth := c.entry.berth, dva := a, len := c.len } else []
    | [] => []
  byReq ++ byRsp ++ byWright ++ byBearing ++ byPorter

/-- A transfer runs under an entry that an invalidation drops. -/
def transferIn (s : Scope) (dropped : List Tlb) (x : Moving) : Bool :=
  match s.kind, x.dpa with
  | 3, some d => rangesMeet d x.len s.start s.len
  | 3, none => dropped.any fun t => t.unit = unitOf x.agent && t.berth = x.berth && rangesMeet t.base (2 ^ t.log2) x.dva x.len
  | 2, _ => x.berth = s.berth
  | _, _ => x.berth = s.berth && (rangesMeet x.dva x.len s.start s.len
      || dropped.any fun t => t.berth = x.berth && rangesMeet t.base (2 ^ t.log2) x.dva x.len)

/-- Accesses of the hub's agents with requests that they have not issued: where each begins, and what is left of it. -/
def Work.unissued (w : Work) : List (Moving × List (Nat × Nat)) :=
  (w.hub.wrights.flatMap fun (x, e) => e.accesses.filterMap fun c =>
    if c.todo = [] then none
    else some ({ agent := .wright x, tag := c.id, berth := match e.run with | some r => r.launch.berth | none => 0, dva := c.dva }, c.todo.map fun p => (p.dva, p.len)))
  ++ (w.hub.fabric.todo.foldl (fun l p => addTo l (p.agent, p.tag)) []).filterMap fun (a, t) =>
    match w.hub.fabric.todo.filter fun p => p.agent = a && p.tag = t with
    | [] => none
    | p :: r => some ({ agent := a, tag := t, berth := p.berth, dva := p.start }, (p :: r).map fun q => (q.dva, q.len))

/-- An access that has not issued all its requests meets an invalidation: none where no request left lies in its scope, else whether one issued does (R365; log 155). -/
def cutShort (s : Scope) (dropped : List Tlb) (x : Moving) (todo : List (Nat × Nat)) : Option Bool :=
  match todo with
  | [] => none
  | (p, _) :: _ =>
    if todo.all fun (a, n) => !transferIn s dropped { x with dva := a, len := n } then none
    else some (x.dva < p && transferIn s dropped { x with len := p - x.dva })

/-- The rest of an access is never issued, and it is aborted (R365). -/
def Work.cutAccess (w : Work) (a : Agent) (tag : Nat) : Work :=
  let w := w.onFabric fun f => { f with failed := (a, tag, 8) :: f.failed, todo := f.todo.filter fun p => !(p.agent = a && p.tag = tag) }
  match a with
  | .wright x => w.onWright x fun e => { e with accesses := e.accesses.map fun k => if k.id = tag then { k with todo := [] } else k }
  | _ => w

/-- What an invalidation does to the accesses that have requests left: the rest of one that has issued requests under a dropped entry is never issued; the others translate again as they issue, and are not awaited (R365). -/
def Work.cutAccesses (w : Work) (s : Scope) (dropped : List Tlb) : List (Agent × Nat) × Work :=
  w.unissued.foldl (fun (acc : List (Agent × Nat) × Work) (x, todo) =>
    match cutShort s dropped x todo with
    | none => acc
    | some false => (acc.1 ++ [(x.agent, x.tag)], acc.2)
    | some true => (acc.1, acc.2.cutAccess x.agent x.tag)) ([], w)

/-- Start an invalidation (R365): entries in scope are dropped at every unit; the transfers under them are awaited. -/
def Work.invalidate (w : Work) (why : InvalWhy) (s : Scope) : Work :=
  let dropped := w.hub.chart.tlb.filter (leafIn s)
  let aw := (w.transfers.filter (transferIn s dropped)).foldl (fun l x => addTo l (x.agent, x.tag)) []
  let (again, w) := w.cutAccesses s dropped
  let aw := aw.filter fun x => x ∉ again
  w.onChart fun c => { c with
    tlb := c.tlb.filter fun t => !leafIn s t
    walks := c.walks.filter fun x => !(s.nonleaf && walkIn s x)
    invals := tset c.invals c.nextInval { why := why, awaited := aw, kept := dropped }
    nextInval := c.nextInval + 1 }

/-- An awaited transfer has not been answered yet. -/
def Work.transferOpen (w : Work) (a : Agent) (tag : Nat) : Bool :=
  match a with
  | .site n => (w.site n).port.outstanding.any fun o => o.seq = tag
  | .wright x => (w.wright x).accesses.any fun c => c.id = tag
  | .bearing b => (w.bearing b).combining.any (fun (id, _) => combTag id = tag)
      || (w.bearing b).recs.any fun (i, r) => recTag i = tag && r.phase ≠ .running
  | .porter p j => match (tget ({} : Porter) (w.port p).porters j).queue with | c :: _ => c.issued && c.id = tag | [] => false
  | .hawser h t => w.allReqs.any fun r => r.agent = .hawser h t
  | _ => false

/-- The transfers of an invalidation that are counted: those of the hub's own agents (R365). -/
def counted (l : List (Agent × Nat)) : List (Agent × Nat) := l.filter fun (a, _) => match a with | .hawser _ _ => false | _ => true

/-- RESULT of a completed invalidation (R366). -/
def invalResult (v : Inval) : Nat :=
  let n := (counted v.awaited).length
  min 0xFFFFFF (n - v.aborted.length) + min 0xFFFFFF v.aborted.length * 2 ^ 24

/-- An invalidation whose awaited transfers are all answered is over, and its transfers are counted (R366, R367). -/
def Work.invalEnd (w : Work) (id : Nat) (v : Inval) : Work :=
  let w := w.onChart fun c => { c with invals := tdel c.invals id }
  each (counted v.awaited) (fun (a, t) w => w.count 12 (unitOf a) (if (a, t) ∈ v.aborted then 11 else 10)) w

/-- The invalidation of a held page is over: the Ledger recalls its lines where the page is a FLIP's or has COH set (R355, R363). -/
def Work.pageRecall (w : Work) (b dva : Nat) : Work :=
  let coh (h : PageHold) : Bool :=
    let r : Root := tget {} w.hub.chart.roots b
    bit (leNat (w.get r.tableBerth r.tkgen h.leafAddr 16)) 3
  let next (h : PageHold) : PageHold :=
    if h.berth = b && h.dva = dva && h.phase = 0 then { h with phase := match h.op with | .flip _ => 1 | _ => if coh h then 1 else 2 } else h
  (w.onChart fun c => { c with holds := c.holds.map next }).pageSteps

/-- A command holds a page: it is invalidated at every unit (R355, R363, R441). -/
def Work.holdPage (w : Work) (e : EntryRef) (b : Nat) (t : Tlb) (op : PageOp) : Work :=
  let h : PageHold := { berth := b, dva := t.base, log2 := t.log2, op := op, entry := e, leafAddr := t.addr, pa := leafDpa t.leaf t.log2 t.base }
  (w.onChart fun c => { c with holds := c.holds ++ [h] }).invalidate (.page b t.base) { kind := 1, berth := b, start := t.base, len := 2 ^ t.log2 }

/-- Copy a page granule by granule, each read and written under the key given; true when poison was met, whose lines are written poisoned (R363, R441). -/
def Work.pageCopy (w : Work) (b slot genR genW src dst n : Nat) : Bool × Work :=
  (List.range (n / 256)).foldl (fun (acc : Bool × Work) i =>
    let w := acc.2
    let s := src + 256 * i
    let d := dst + 256 * i
    let bad := [0, 1].filter fun k => (s / 128 + k) ∈ w.mem.poison
    let bytes := w.get slot genR s 256
    let w := ((w.hostReqs .rdCurr s 256).holdAccess b slot genR s 256 false 3).hostReqs .wrCur d 256
    let w := (w.holdAccess b slot genW d 256 true 3).put slot genW d bytes
    (acc.1 || bad ≠ [], each bad (fun k w => w.op (.poison (d / 128 + k))) w)) (false, w)

/-- The status, DETAIL and RESULT with which a copy that fails completes (R407, R413). -/
def copyStatus (o : XferEnd) : Nat × Nat × Nat :=
  match o with
  | .ok => (stOk, 0, 0)
  | .unmapped => (stUnmapped, 0, 0)
  | .denied => (stDenied, 0, 0)
  | .poisoned => (stPoisoned, 0, 0)
  | .targetDead => (stTargetDead, 0, 0)
  | .hostLinkLost => (stLinkLost, 0, 0)
  | .aborted => (stAborted, 0, 0)
  | .completionTimeout => (0x1D, 1, 0)
  | .unsupportedRequest => (0x1D, 2, 0)
  | .completerAbort => (0x1D, 3, 0)
  | .pageFault p => (0x1C, 0, p)

end Sys2Proof.Machine
end

