-- ==== Sys2Proof/Machine/Chart.lean ====
section
/-! DEFINITION. The commands of the Chart units (12): walks, roots, invalidations, flips and moves of pages, windows, the hot table. -/

namespace Sys2Proof.Machine

/-- The held request of a site that waits on a walk of a page: the first of its berth (R94). -/
def walkWaiter (p : SPort) (b page : Nat) : Option HeldReq :=
  match p.held.find? fun h => h.req.berth = b with
  | some h => if !h.req.pa && h.req.addr / 65536 * 65536 = page then some h else none
  | none => none

/-- WALK_COMPLETE: a walk of a site port ends (R347-R353); its request walks on or completes UNMAPPED. A walk of a held page goes on until the page is free (R355, R363); the port has its sixteen oldest other walks under way at once (R347). -/
def execWalkComplete (unit berth dva : Nat) (s : State) : Host.Outcome State Fault Refusal :=
  s.run fun w =>
    let page := dva / 65536 * 65536
    let going := (w.hub.chart.pending.filter fun (u, b, p) => u = unit && !w.pageHeld b p).take 16
    if (unit, berth, page) ∉ going then w
    else
      let w := w.onChart fun c => { c with pending := rmv c.pending (unit, berth, page) }
      let w := w.walkStall unit
      match w.walk unit berth dva with
      | (some _, w) => w.pump unit
      | (none, w) =>
        match walkWaiter (w.site unit).port berth page with
        | none => w
        | some h =>
          let w := w.onSPort unit fun p => { p with held := p.held.filter fun x => x.seq ≠ h.seq }
          ((w.siteCmp unit h.req.tag berth 2 0).giveBack unit (reqCost h.opcode h.req.size)).pump unit

/-- A berth that this part has (R5, R6). -/
def Work.berthThere (w : Work) (b : Nat) : Bool := b < 4096 && (w.hub.board.berthsHigh || b < 256)

/-- CHART_ROOT (R348). -/
def execChartRoot (e : EntryRef) (s : State) : Host.Outcome State Fault Refusal :=
  s.run fun w => w.command e 0x20 false fun x w =>
    let r := bits x 383 128
    let b := bits r 13 0
    let t := bits r 29 16
    let l0 := bits r 115 64
    if !w.berthThere b || !w.berthThere t then w.complete e stBadIdent
    else if !w.isManager e.berth then w.complete e stNotOwner
    else if !w.berthInPool e b || !w.berthInPool e t then w.complete e stBadIdent
    else
      let board : Bool := match w.target l0 with | .board _ => true | _ => false
      if l0 % 8192 ≠ 0 || !board then w.complete e stBadShape
      else
        let root : Root := { tableBerth := t, valid := bit r 30, tkgen := bits r 31 31, l0 := l0 }
        ((w.onChart fun c => { c with roots := tset c.roots b root }).setPartial e).invalidate (.ends e) { kind := 2, berth := b, nonleaf := true }

/-- CHART_INVAL (R364). -/
def execChartInval (e : EntryRef) (s : State) : Host.Outcome State Fault Refusal :=
  s.run fun w => w.command e 0x21 true fun x w =>
    let r := bits x 383 128
    let b := bits r 13 0
    let k := bits r 15 14
    let start := bits r 120 64
    let n := bits r 159 128
    if k ≠ 3 && !w.berthInPool e b then w.complete e stBadIdent
    else if (k ≠ 2 && start % 65536 ≠ 0) || (n = 0 && (k = 1 || k = 3)) then w.complete e stBadShape
    else w.invalidate (.command e) { kind := k, berth := b, start := start, len := if k = 0 then 65536 else n * 65536, nonleaf := bit r 16 }

/-- The page of a berth that a command names, as a walk of the manifest unit finds it; UNMAPPED where there is none, a wait where another command holds it (R368). -/
def Work.withPage (w : Work) (e : EntryRef) (b dva : Nat) (k : Tlb → Work → Work) : Work :=
  if w.pageHeld b dva then w.keepWaiting e
  else match w.walk (129 + w.portOf e.berth) b dva with
    | (none, w) => w.complete e stUnmapped
    | (some t, w) => k t w

/-- FLIP (R355): the new BIAS of one host page of the issuing berth. -/
def execFlip (e : EntryRef) (s : State) : Host.Outcome State Fault Refusal :=
  s.run fun w => w.command e 0x19 false fun x w => w.withPage e e.berth (bits x 184 128) fun t w =>
    if !isHost (bits t.leaf 115 80 * 65536) then w.complete e stBadShape
    else (w.setPartial e).holdPage e e.berth t (.flip (bit x 256))

/-- Log2 of a page by the SIZE of MIGRATE and REKEY. -/
def pageLog2 (size : Nat) : Nat := [16, 21, 30].getD size 0

/-- MIGRATE (R363); board memory of its destination lies in the pool (R427). -/
def execMigrate (e : EntryRef) (s : State) : Host.Outcome State Fault Refusal :=
  s.run fun w => w.command e 0x1A true fun x w =>
    let b := bits x 269 256
    let dpa := bits x 243 192
    let size := bits x 271 270
    if !w.berthInPool e b || (isBoard dpa && !w.blocksInPool e dpa (2 ^ pageLog2 size / 65536)) then w.complete e stBadIdent
    else if size = 3 || dpa % 2 ^ pageLog2 size ≠ 0 then w.complete e stBadShape
    else w.withPage e b (bits x 184 128) fun t w =>
      if t.log2 ≠ pageLog2 size then w.complete e stBadShape else (w.setPartial e).holdPage e b t (.migrate dpa)

/-- REKEY (R441). -/
def execRekey (e : EntryRef) (s : State) : Host.Outcome State Fault Refusal :=
  s.run fun w => w.command e 0x36 true fun x w =>
    let b := bits x 269 256
    let size := bits x 271 270
    let gen := bits x 272 272
    if !w.berthInPool e b then w.complete e stBadIdent
    else if size = 3 then w.complete e stBadShape
    else w.withPage e b (bits x 184 128) fun t w =>
      let (slot, old) := leafKey b t.leaf
      if t.log2 ≠ pageLog2 size || !isBoard (bits t.leaf 115 80 * 65536) then w.complete e stBadShape
      else if old = gen then w.complete e stOk
      else if w.key slot gen = 0 then
        (w.log { cls := 0x0F, sev := 1, cause := 0x8008, unit := 129 + w.portOf e.berth, berth := some b, addr := bits x 184 128 }).complete e stUnmapped
      else (w.setPartial e).holdPage e b t (.rekey gen)

/-- The copy of a held page is done: its leaf is rewritten, or the command completes with the cause (R363, R413, R441). -/
def Work.pageCopied (w : Work) (h : PageHold) (outcome : XferEnd) : Work :=
  let fail (o : XferEnd) (w : Work) : Work := let (st, d, r) := copyStatus o; w.pageFree h st d r
  let n := 2 ^ h.log2
  let r : Root := tget {} w.hub.chart.roots h.berth
  let (slot, gen) := leafKey h.berth (leNat (w.get r.tableBerth r.tkgen h.leafAddr 16))
  let (dst, genW) := match h.op with | .migrate d => (d, gen) | .rekey g => (h.pa, g) | .flip _ => (h.pa, gen)
  let checks := (List.range (n / 65536)).map fun i =>
    match w.accessCheck h.berth (h.pa + 65536 * i), w.accessCheck h.berth (dst + 65536 * i) with
    | some (s, _), _ => s
    | none, some (s, _) => s
    | none, none => 0
  if outcome ≠ .ok && outcome ≠ .poisoned then fail outcome w
  else match checks.find? fun s => s ≠ 0 with
    | some s => fail (endOfStatus s) w
    | none =>
      let (bad, w) := w.pageCopy h.berth slot gen genW h.pa dst n
      let w := w.rewriteLeaf h.berth h.leafAddr fun e => match h.op with
        | .migrate d => putBits e 115 80 (d / 65536)
        | .rekey g => putBits e 7 7 g
        | .flip v => putBits e 6 6 (b2n v)
      w.pageFree h (if bad then stPoisoned else stOk) 0 0

/-- MIGRATE_COPY_DONE: once the page is invalidated and its lines are recalled. -/
def execMigrateCopyDone (berth dva : Nat) (outcome : XferEnd) (s : State) : Host.Outcome State Fault Refusal :=
  s.run fun w =>
    match w.hub.chart.holds.find? fun h => h.berth = berth && h.dva / 2 ^ h.log2 = dva / 2 ^ h.log2 with
    | none => w
    | some h =>
      let flips : Bool := match h.op with | .flip _ => true | _ => false
      if flips || h.phase = 0 || (h.phase = 1 && w.openIn h.pa (2 ^ h.log2)) then w else w.pageCopied h outcome

/-! ## Windows (R358, R359) -/

/-- WINDOW_SET: closing a window invalidates its DPA range and completes after that. -/
def execWindowSet (e : EntryRef) (s : State) : Host.Outcome State Fault Refusal :=
  s.run fun w => w.command e 0x22 true fun x w =>
    let r := bits x 383 128
    let i := bits r 7 0
    let n := bits r 88 64
    if bit r 28 then
      if w.hubBeyond (bits r 19 8) then w.complete e stBadIdent
      else if n = 0 || 2 ^ 24 < n then w.complete e stBadShape
      else (w.onChart fun c => { c with windows := tset c.windows i { hub := bits r 19 8, imp := bits r 27 20, len := n } }).complete e stOk
    else
      ((w.onChart fun c => { c with windows := tdel c.windows i }).setPartial e).invalidate (.ends e)
        { kind := 3, start := 0x0004000000000000 + i * 2 ^ 40, len := 2 ^ 40 }

/-- WINDOW_IMPORT. -/
def execWindowImport (e : EntryRef) (s : State) : Host.Outcome State Fault Refusal :=
  s.run fun w => w.command e 0x23 true fun x w =>
    let r := bits x 383 128
    let i := bits r 7 0
    let b := bits r 37 24
    let base := bits r 120 64
    let n := bits r 152 128
    if !bit r 23 then (w.onChart fun c => { c with imports := tdel c.imports i }).complete e stOk
    else if !w.berthInPool e b || (!bit r 20 && w.hubBeyond (bits r 19 8)) then w.complete e stBadIdent
    else if base % 65536 ≠ 0 || n = 0 || 2 ^ 24 < n then w.complete e stBadShape
    else
      let im : Import := { srcHub := bits r 19 8, anySrc := bit r 20, wr := bit r 21, atom := bit r 22, berth := b, base := base, len := n }
      (w.onChart fun c => { c with imports := tset c.imports i im }).complete e stOk

/-! ## The hot table (R361, R362, R571) -/

/-- A hot record (R362). -/
def hotRecord (epoch : Nat) (x : Hot) : List Byte :=
  leBytes 32 (pack [(14, x.berth), (2, x.cls), (4, x.src), (12, 0), (32, epoch), (36, x.region), (28, 0), (36, x.pa), (12, 0), (16, x.count)])

/-- Write a hot record to the ring of the port whose pool holds its berth; dropped and counted where the ring is full or not enabled. -/
def Work.hotWrite (w : Work) (x : Hot) : Work :=
  let drop (w : Work) : Work := w.count 13 0 1
  match w.portOfBerth x.berth with
  | none => drop w
  | some p =>
    let r := (w.port p).hotRing
    if !r.enable then drop w
    else if (r.tail + 1) % 2 ^ r.log2 = r.head then drop (w.onPort p fun q => { q with hotRing := { r with overflow := true } })
    else (w.onPort p fun q => { q with hotRing := { r with tail := (r.tail + 1) % 2 ^ r.log2 } }).hostWrite { port := p, func := 0 }
      (r.addr + 32 * r.tail) (hotRecord w.hub.chart.epoch x)

/-- HOT_EPOCH_END. -/
def execHotEpochEnd (s : State) : Host.Outcome State Fault Refusal :=
  s.run fun w =>
    let w := each (w.hub.chart.hot.reverse.filter fun x => w.hub.chart.hotThresh ≤ x.count) (fun x w => w.hotWrite x) w
    w.onChart fun c => { c with hot := c.hot.map fun x => { x with count := 0, src := 0 }, epoch := (c.epoch + 1) % 2 ^ 32 }

end Sys2Proof.Machine
end

