-- ==== Sys2Proof/Machine/HawserOps.lean ====
section
/-! DEFINITION. The shared operations of the Hawser fabric (17): routes and what follows a change of one (R496, R501), messages that cannot go (R500), ports that go down or retrain (R489, R504), muster (R492-R495), inbound window requests (R360). -/

namespace Sys2Proof.Machine

/-! ## Ports and muster records (R492-R495) -/

/-- The identity and revision value of this part (R7). -/
def idRev : Nat := 0x01000100

/-- The life-cycle state in a muster record. -/
def lcOf (code : Nat) : Nat := if code = 0 then 0 else if code = 0x000F then 1 else if code = 0x00FF then 2 else 3

/-- A port's muster record (R492). -/
def Work.muster (w : Work) (p : Nat) : Muster :=
  let x := w.hport p
  { hub := w.hubId, port := p, lcState := lcOf w.hub.purser.lcCode, ports := w.hub.board.hawser, view := x.view, viewCause := x.viewCause,
    serial := w.hub.purser.serial, idrev := idRev, mseq := x.mseq, configHash := Config.digest 10 [w.hub.hawser.sys] % 2 ^ 512,
    aliasDigest := Config.digest 45 [w.hub.purser.aliasKey] % 2 ^ 256 }

/-- Send a muster record on a trained port (R492). -/
def Work.sendMuster (w : Work) (p : Nat) : Work :=
  if !w.hportTrained p then w
  else (w.hwsItem p (.muster p (w.muster p))).onHPort p fun x => { x with mseq := (x.mseq + 1) % 65536 }

/-- Send a muster record on every trained port. -/
def Work.sendMusters (w : Work) : Work := each (List.range 8) (fun p w => w.sendMuster p) w

/-- Two version ranges share a version (R494). -/
def versionsMeet (a b c d : Nat) : Bool := max a c ≤ min b d

/-- Why a received muster record does not agree: the cause of R495, 0 for none (R494). -/
def Work.musterCause (w : Work) (p : Nat) (m : Muster) : Nat :=
  let x := w.hport p
  let own := lcOf w.hub.purser.lcCode
  if m.version ≠ 1 then 1
  else if w.hubBeyond m.hub || m.hub = w.hubId || (x.peerSet && m.hub ≠ x.peerHub) then 2
  else if m.configHash ≠ (w.muster p).configHash then 3
  else if !(versionsMeet 1 1 m.linkMin m.linkMax && versionsMeet 1 1 m.peerMin m.peerMax && versionsMeet 1 1 m.helmMin m.helmMax) then 4
  else if !((own = 1 || own = 2) && m.lcState = own) then 5
  else 0

/-! ## Messages that cannot go (R500) -/

/-- A packet of a rank of this hub as the origin knows it: its own table and the expert of the rank (R137, R145). -/
def Work.homeward (w : Work) (p : Packet) : Packet :=
  let e := match tfind (w.bearing (handleEngine p.token)).recs (handleRec p.token) with
    | some r => (r.ranks[p.rank]?.map fun (k : Rank) => k.expert).getD p.expert
    | none => p.expert
  { p with table := p.otable, expert := e }

/-- A message of another hub that cannot be forwarded: a request is answered, a dispatch closes its rank, another is discarded, and its source is told (R500). -/
def Work.msgDead (w : Work) (m : BodyMsg) : Work :=
  let w :=
    if m.cls = 0 then
      match w.route m.srcHub with
      | some k => w.sendBody k { cls := 1, mkind := 1, dstHub := m.srcHub, srcHub := w.hubId, tag := m.tag, opcode := 0x30, status := 4 }
      | none => w
    else if m.cls = 2 && m.packet.kind = .dispatch then w.closeRank m.packet 8
    else w
  w.sendUnreach m.srcHub m.dstHub

/-- A message is discarded under R500 for want of a way: it is neither a request, which is answered, nor a dispatch, which closes its rank. -/
def discards (m : BodyMsg) : Bool := !(m.cls = 0 || (m.cls = 2 && m.packet.kind = .dispatch))

/-- A message of another hub finds no way onward; one that is discarded is counted (R500, R506). -/
def Work.noWay (w : Work) (port : Nat) (m : BodyMsg) : Work := (if discards m then w.count 17 port 18 else w).msgDead m

/-! ## Changes of routes (R265, R501) -/

/-- What follows a change that may move routes: new requests for a hub whose next hop has changed are held while requests to it are outstanding, gates that need a lost hub break, what waits goes on (R265, R501). -/
def Work.rerouted (w old : Work) : Work :=
  let hubs := (List.range (min 1023 (max w.nhub old.nhub) + 1)).filter fun h => w.route h ≠ old.route h
  let w := each hubs (fun h w =>
    let w := if w.hub.hawser.outstanding.any fun (_, o) => o.hub = h then w.onHawser fun x => { x with holding := addTo x.holding h } else w
    if (old.route h).isSome && (w.route h).isNone then w.hubLost h else w) w
  w.winPump

/-- A body message that a port will not send finds another way, or is handled as one that cannot go (R500). -/
def Work.rehome (w : Work) (port : Nat) (x : HWait) : Work :=
  match w.route x.msg.dstHub, x.inPort with
  | some k, _ =>
    if x.msg.cls = 0 && x.inPort.isNone then
      match tfind w.hub.hawser.outstanding x.msg.tag with
      | some o => (w.onHawser fun h => { h with outstanding := tset h.outstanding x.msg.tag { o with port := k } }).sendBody k x.msg
      | none => w
    else w.sendBody k x.msg x.inPort
  | none, some (i, lane) => (w.hwsGiveBack i lane x.msg).noWay port x.msg
  | none, none =>
    if x.msg.cls = 0 then w.winEnd x.msg.tag 4 0 none
    else if x.msg.cls = 2 && x.msg.packet.kind = .dispatch then w.closeRank (w.homeward x.msg.packet) 8
    else w.count 17 port 18

/-- Body messages that wait at a port leave it. -/
def Work.rehomeAll (w : Work) (p : Nat) : Work :=
  let l := (w.hport p).bodyWait
  each l (fun x w => w.rehome p x) (w.onHPort p fun x => { x with bodyWait := [] })

/-- A port goes down to a state, 0 Absent or 5 Out of service: its unacknowledged frames are lost, window requests whose first hop it was complete TARGET_DEAD (R504). -/
def Work.hportDown (w : Work) (p state : Nat) : Work :=
  let old := w
  let mine := (w.hub.hawser.outstanding.filter fun (_, o) => o.port = p).map (·.1)
  let w := w.onHPort p fun x =>
    { dateline := x.dateline, peerSet := x.peerSet, peerHub := x.peerHub, peerSeen := x.peerSeen, mseq := x.mseq, heldOut := x.heldOut,
      state := state, training := state = 0, bodyWait := x.bodyWait }
  let w := each mine (fun t w => w.winEnd t 4 0 none) w
  ((w.rehomeAll p).log { cls := 0x11, sev := 3, cause := 0, unit := p, detail := state }).rerouted old

/-- A port retrains: routes use ALT meanwhile (R489, R490, R504). -/
def Work.hportRetrain (w : Work) (p : Nat) : Work :=
  if !w.hportTrained p then w
  else
    let old := w
    let w := (w.hwsIdle p 2 0 false).count 17 p 6
    (w.onHPort p fun x => { x with state := 4, txNaks := 0, nakRow := 0, failTimes := [] }).rerouted old

/-- A trained port decides on its link by the last muster record received: Full or Degraded once both ends agree, else Control-only with its cause (R494, R495, R504, R505). -/
def Work.linkDecide (w : Work) (p lanes : Nat) : Work :=
  let old := w
  let x := w.hport p
  let (view, cause, full) : Nat × Nat × Bool := match x.peer with
    | none => (0, 0, false)
    | some m =>
      let c := w.musterCause p m
      (if c = 0 then 1 else 2, if c ≠ 0 then c else if m.view = 2 then m.viewCause else 0, c = 0 && m.view = 1)
  let viewCause := if view = 2 then cause else 0
  let state := if full then (if lanes = 4 then 1 else 2) else 3
  let w := w.onHPort p fun x => { x with state := state, cause := if full then 0 else cause, lanes := lanes, view := view, viewCause := viewCause }
  let w := if !full && cause ≠ 0 && (x.state ≠ 3 || x.cause ≠ cause) then (w.count 17 p (8 + cause)).log { cls := 0x11, sev := 1, cause := cause, unit := p } else w
  let w := if state = 2 && x.state ≠ 2 then w.log { cls := 0x11, sev := 1, cause := 0, unit := p, detail := lanes } else w
  let w := if full && x.state = 3 then w.onHawser fun h => { h with unreachable := [] } else w
  let w := if x.view ≠ view || x.viewCause ≠ viewCause then w.sendMuster p else w
  let w := if full then w.bodyPump p else w.rehomeAll p
  w.rerouted old

/-! ## Inbound windows (R359, R360) -/

/-- A window request of another hub is checked, translated and performed; false while a held page keeps it. -/
def Work.importReq (w : Work) (m : BodyMsg) : Bool × Work :=
  let op := m.opcode
  let write : Bool := op = 0x14 || op = 0x15
  let atom : Bool := op = 0x16 || op = 0x17
  let r : MemReq := { agent := .hawser m.srcHub m.tag, kind := kindOf op, tag := m.tag }
  let ans (s d : Nat) (w : Work) : Bool × Work := (true, w.answer r s d none)
  match tfind w.hub.chart.imports m.imp with
  | none => ans 3 1 w
  | some x =>
    if w.hub.hawser.edgeOut || (!x.anySrc && x.srcHub ≠ m.srcHub) || x.len * 65536 ≤ m.offset then ans 3 1 w
    else if (write && !x.wr) || (atom && !x.atom) then ans 3 2 w
    else if !(op = 0x10 || write || atom) then ans 6 0 w
    else if (w.berth x.berth).state = .free then ans 3 0 w
    else
      let q : ReqHdr := { berth := x.berth, tag := m.tag, size := m.size, opspec := m.opspec, addr := x.base + m.offset }
      match malformed op q with
      | some d => ans 5 d w
      | none =>
        let r := { r with berth := x.berth, prio := min m.prio 2, bytes := bytesOf op q, dva := q.addr, opspec := m.opspec, data := slice m.payload 0 (32 * reqBeats op m.size) }
        match w.xlate 128 x.berth q.addr { write := write || atom, engine := false } with
        | (.bad s d, w) => ans s d w
        | (.miss, w) => (false, w)
        | (.wait, w) => (false, w)
        | (.ok e d, w) =>
          let (slot, gen) := leafKey x.berth e
          let r := { r with dpa := d, slot := slot, gen := gen, shared := bit e 6 }
          let plain (w : Work) : Bool × Work :=
            match w.target d with
            | .window win off => (true, w.windowSend r win off)
            | _ => (true, w.send { r with atHome := !bit e 3 })
          if !bit e 24 then plain w
          else match w.packFor x.berth q.addr (bits e 39 28) with
            | none => ans 2 0 w
            | some p =>
              if packFmt p = 5 then plain w
              else if op ≠ 0x10 then ans 3 2 w
              else match w.readDense 128 x.berth p q.addr r.bytes r.prio (some (r.agent, 0)) with
                | (.ok d bad, w) => (true, (w.dropFetch r.agent 0).answer r (if bad = [] then 0 else 1) 0 (some d))
                | (.bad s d _, w) => ans s d (w.dropFetch r.agent 0)
                | (.wait, w) => (false, w)

/-- Take in window requests of other hubs in order; a held one keeps those of its source and import behind it. -/
def Work.importList (w : Work) : List BodyMsg → List (Nat × Nat) → Work
  | [], _ => w
  | m :: rest, stuck =>
    let keep (w : Work) : Work := w.onHawser fun h => { h with inbound := h.inbound ++ [m] }
    if (m.srcHub, m.imp) ∈ stuck then (keep w).importList rest stuck
    else match w.importReq m with
      | (true, w) => w.importList rest stuck
      | (false, w) => (keep w).importList rest ((m.srcHub, m.imp) :: stuck)

/-- Window requests that held pages kept go on. -/
def Work.importPump (w : Work) : Work :=
  let l := w.hub.hawser.inbound
  if l = [] then w else (w.onHawser fun h => { h with inbound := [] }).importList l []

end Sys2Proof.Machine
end

