-- ==== Sys2Proof/Machine/PorterOps.lean ====
section
/-! DEFINITION. The shared operations of Porters (14): the way of a copy (R415-R417), its host translations (R356, R357), its end. -/

namespace Sys2Proof.Machine

/-- A Porter's record. -/
def Work.porter (w : Work) (p j : Nat) : Porter := tget {} (w.port p).porters j

/-- Change a Porter. -/
def Work.onPorter (w : Work) (p j : Nat) (f : Porter → Porter) : Work := w.onPort p fun x => { x with porters := tmod {} x.porters j f }

/-- The Chart unit of a Porter's device side. -/
def porterUnit (p j : Nat) : Nat := 96 + p * 8 + j

/-- PASID of a berth's host requests: 0 none, else 1 + PASID (R397, R432). -/
def Work.pasidOf (w : Work) (b : Nat) : Nat :=
  match w.bindOf b with
  | some x => if x.pasidEn then x.pasid + 1 else 0
  | none => 0

/-- A translation covers a host address of a berth. -/
def Work.covers (w : Work) (b a : Nat) (t : Atc) : Bool :=
  t.func = (w.funcOf b).func && t.pasid = w.pasidOf b && t.addr = a / 2 ^ t.log2 * 2 ^ t.log2

/-- The host side of a copy: where it begins; none for a copy within the device. -/
def copyHost (c : CopyJob) : Option Nat := if c.dir = 0 then some c.src else if c.dir = 1 then some c.dst else none

/-- The first host page of a copy that it has no translation for. -/
def Work.needsPage (w : Work) (c : CopyJob) (have_ : List Atc) : Option Nat :=
  match copyHost c with
  | none => none
  | some a => if !(w.func (w.funcOf c.entry.berth)).ats then none
    else ((partsOf 4096 a c.len).map (· * 4096)).find? fun p => have_.all fun t => !w.covers c.entry.berth p t

/-- Where a host address of a copy lies in host physical memory: through its translations, or as it is (R356). -/
def Work.hostOf (w : Work) (c : CopyJob) (a : Nat) : Nat :=
  match c.pages.find? (w.covers c.entry.berth a) with
  | some t => t.hpa + a % 2 ^ t.log2
  | none => a

/-- n bytes of host memory of a copy, and the line offsets (in bytes from the start) that are poisoned. -/
def Work.copyHostRead (w : Work) (p : Nat) (c : CopyJob) (n : Nat) : List Byte × List (Nat × Nat) :=
  let parts := linePieces c.src n
  (parts.flatMap fun (o, len) => w.mem.bytes (hostKey p (w.hostOf c (c.src + o))) len,
   parts.filter fun (o, len) => w.poisoned (hostKey p (w.hostOf c (c.src + o))) len)

/-- Bytes of a copy into host memory; lines that carry poison are marked poisoned (R417). -/
def Work.copyHostWrite (w : Work) (p : Nat) (c : CopyJob) (d : List Byte) (bad : List (Nat × Nat)) : Work :=
  let f := w.funcOf c.entry.berth
  each (linePieces c.dst d.length) (fun (o, len) w =>
    let a := w.hostOf c (c.dst + o)
    let poison := bad.any fun (x, m) => rangesMeet x m o len
    (((w.poke (hostKey p a) (slice d o len)).setPoison (hostKey p a) len poison).emit (.hostWrite f a (slice d o len))).tlp p 1) w

/-- Put the requests of a copy's device side before the homes and the windows (R284, R358). -/
def Work.copyIssue (w : Work) (p j : Nat) (c : CopyJob) : Work :=
  let b := c.entry.berth
  let ask (w : Work) (a : Nat) (kind : ReqKind) (d : List Byte) : Work := w.homeAccess (.porter p j) c.id (porterUnit p j) b a c.len kind 1 d
  if c.dir = 0 then ask w c.dst .write (w.copyHostRead p c c.len).1 else ask w c.src .read []

/-- A copy within the device has read its first n bytes: their writes go before the homes and the windows. -/
def Work.copyWrites (w : Work) (p j : Nat) (c : CopyJob) (n : Nat) : Work :=
  let b := c.entry.berth
  let u := porterUnit p j
  let w := w.onPorter p j fun y => { y with queue := y.queue.map fun x => if x.id = c.id then { x with wrote := true } else x }
  match w.engRead (.porter p j) c.id u b c.src n with
  | (.ok d _, w) => w.homeAccess (.porter p j) c.id u b c.dst n .write 1 d
  | (_, w) => w.homeAccess (.porter p j) c.id u b c.dst n .write 1

/-- A Porter sends a Translation Request (R356, R367, R395). -/
def Work.atsAsk (w : Work) (p j page : Nat) : Work := ((w.emit (.ats p j page)).count 12 (porterUnit p j) 12).tlp p 3

/-- The running copy of a Porter goes on: it translates its next host page, or its requests leave (R356, R388, R391). -/
def Work.porterGo (w : Work) (p j : Nat) : Work :=
  let x := w.porter p j
  match x.queue with
  | [] => w
  | c :: rest =>
    let f := w.funcOf c.entry.berth
    if c.issued || x.wait ≠ .none then w
    else if !w.mayIssue f then w.count 15 p 34
    else if !w.portUp p || (w.port p).state = 4 then w
    else
      let found := x.atc.filter fun t => (match copyHost c with | some a => rangesMeet t.addr (2 ^ t.log2) a c.len | none => false) && t.func = f.func && t.pasid = w.pasidOf c.entry.berth
      let c := { c with pages := c.pages ++ found }
      let w := w.onPorter p j fun y => { y with queue := c :: rest }
      match w.needsPage c c.pages with
      | some page => ((w.onPorter p j fun y => { y with wait := .translation, page := page }).atsAsk p j page)
      | none =>
        let held : Bool := (copyDva c).any fun a => (pieces a c.len).any fun (o, _) => w.pageHeld c.entry.berth ((a + o) % 2 ^ 57)
        if held then w
        else
          let c := { c with issued := true }
          let w := (w.onPorter p j fun y => { y with queue := c :: rest }).copyIssue p j c
          let packs := if c.dir = 0 then [] else w.packsIn (porterUnit p j) c.entry.berth c.src c.len
          w.onPorter p j fun y => { y with queue := { c with packs := packs } :: rest }

/-- A copy leaves its Porter; the next one goes. -/
def Work.porterNext (w : Work) (p j : Nat) (c : CopyJob) : Work :=
  let w := w.onPorter p j fun y => { y with queue := y.queue.filter (fun x => x.id ≠ c.id), wait := .none }
  (((w.homeRelease (.porter p j) c.id).dropFwd (.porter p j) c.id).dropFetch (.porter p j) c.id).porterGo p j

/-- A copy ends with a status, DETAIL, RESULT and the bytes done (R417, R418). -/
def Work.copyEnds (w : Work) (p j : Nat) (c : CopyJob) (status detail result done : Nat) : Work :=
  let w := w.count 16 (p * 8 + j) 0 done
  let w := if c.px2 then w.complete c.entry status (done % 65536) c.cookie else w.complete c.entry status detail result
  w.porterNext p j c

/-- The first n bytes of a copy are moved (R417): the status of the device side, the bytes done, and whether poison was met. -/
def Work.copyMove (w : Work) (p j : Nat) (c : CopyJob) (n : Nat) : Option (Nat × Nat × Bool) × Work :=
  let b := c.entry.berth
  let u := porterUnit p j
  let source : Option (List Byte × List (Nat × Nat)) × Option (Nat × Nat) × Work :=
    if c.dir = 0 then (some (w.copyHostRead p c n), none, w)
    else match w.engRead (.porter p j) c.id u b c.src n with
      | (.ok d ps, w) => (some (d, (linePieces c.src n).filter fun (o, _) => ((c.src + o) / 128) ∈ ps), none, w)
      | (.bad s _ o, w) => (none, some (s, o), w)
      | (.wait, w) => (none, none, w)
  match source with
  | (none, some (s, o), w) => (some (s, o, false), w)
  | (none, none, w) => (none, w)
  | (some (d, bad), _, w) =>
    if c.dir = 1 then (some (0, n, bad ≠ []), w.copyHostWrite p c d bad)
    else
      let lines := (partsOf 128 c.dst n).filter fun l => bad.any fun (o, m) => rangesMeet (c.dst + o) m (l * 128) 128
      let r := (linePieces c.dst n).foldl (fun (acc : Option (Nat × Nat) × Bool × Work) (o, len) =>
        match acc with
        | (none, false, w) =>
          match w.engWrite u b ((c.dst + o) % 2 ^ 57) (slice d o len) (decide ((c.dst + o) / 128 ∈ lines)) false with
          | (.ok _ _, w) => (none, false, w)
          | (.bad s _ _, w) => (some (s, o), false, w)
          | (.wait, w) => (none, true, w)
        | x => x) (none, false, w)
      match r with
      | (_, true, w) => (none, w)
      | (some (s, o), _, w) => (some (s, o, bad ≠ []), w)
      | (none, _, w) => (some (0, n, bad ≠ []), w)

/-- The Porter that takes the copies of a ring and direction: the (b + r) mod m-th of its m good ones (R415, R534). -/
def Work.porterFor (w : Work) (e : EntryRef) (dir : Nat) : Option Nat :=
  let p := w.portOf e.berth
  let good := ((List.range 4).map (· + if dir = 1 then 4 else 0)).filter fun j => !(w.porter p j).out
  if good = [] then none else good[(e.berth + e.ring) % good.length]?

/-- Queue a copy on its Porter; with no good one it completes TARGET_DEAD (R534). -/
def Work.copyQueue (w : Work) (c : CopyJob) : Work :=
  let p := w.portOf c.entry.berth
  match w.porterFor c.entry (if c.px2 then 0 else c.dir) with
  | none => if c.px2 then w.complete c.entry stTargetDead 0 c.cookie else w.complete c.entry stTargetDead
  | some j =>
    let c := { c with id := (w.port p).nextCopy }
    let w := w.onPort p fun x => { x with nextCopy := x.nextCopy + 1 }
    (w.onPorter p j fun y => { y with queue := y.queue ++ [c] }).porterGo p j

/-- A copy's host page cannot be reached (R356, R357, R367). -/
def Work.pageFaulted (w : Work) (p j : Nat) (c : CopyJob) (page : Nat) : Work :=
  (w.count 12 (porterUnit p j) 14).copyEnds p j c 0x1C 0 page 0

end Sys2Proof.Machine
end

