-- ==== Sys2Proof/Machine/Porters.lean ====
section
/-! DEFINITION. The commands of the Porters (R356, R357, R366, R387, R415-R419). -/

namespace Sys2Proof.Machine

/-- COPY: queued on its Porter (R415). -/
def execCopy (e : EntryRef) (s : State) : Host.Outcome State Fault Refusal :=
  s.run fun w => w.command e 0x18 false fun x w =>
    let dir := bits x 289 288
    let len := bits x 287 256
    let addr (host : Bool) (lo : Nat) : Nat := if host then bits x (lo + 63) lo else bits x (lo + 56) lo
    if dir = 3 || len = 0 then w.complete e stBadShape
    else w.copyQueue { entry := e, src := addr (dir = 0) 128, dst := addr (dir = 1) 192, len := len, dir := dir }

/-- PX2_DESCRIPTOR: the next descriptor of a PX2 ring starts on the ring's Porter (R418, R419). -/
def execPx2Descriptor (berth ring : Nat) (s : State) : Host.Outcome State Fault Refusal :=
  s.run fun w =>
    let r := w.ring berth ring
    match r.fetched with
    | [] => w
    | x :: rest =>
      if !r.px2 || r.state = 0 || r.state = 3 || !w.mayIssue (w.funcOf berth) || (w.port (w.portOf berth)).halted then w
      else
        let e : EntryRef := { berth := berth, ring := ring, index := x.index }
        let w := (w.onRing berth ring fun r => { r with fetched := rest, started := r.started ++ [{ x with progress := 1 }], fetch := (x.index + 1) % ringSize r }).count 15 (w.portOf berth) 0
        let dir := bits x.word 160 160
        let len := bits x.word 159 128
        let c : CopyJob := { entry := e, px2 := true, src := if dir = 0 then bits x.word 63 0 else bits x.word 56 0,
                             dst := if dir = 1 then bits x.word 127 64 else bits x.word 120 64, len := len, dir := dir, cookie := bits x.word 255 192 }
        if len = 0 then w.complete e stBadShape 0 c.cookie else w.copyQueue c

/-- A copy finishes or fails (R417): what lies below the bytes done is moved. Of a completion timeout the host hears as an AER non-fatal error (R387). -/
def Work.copyDone (w : Work) (p j : Nat) (outcome : XferEnd) (bytes : Nat) : Work :=
  match (w.porter p j).queue with
  | [] => w
  | c :: _ =>
    if !c.issued then w.porterGo p j
    else
     let w := w.pumpSource (.porter p j)
     if w.homePending (.porter p j) c.id then w
     else w.underOld (.porter p j) c.id fun w =>
      let (o, w) := w.endOf (.porter p j) c.id outcome
      let full : Bool := o = .ok || o = .poisoned
      let n := if full then c.len else min bytes c.len
      let w := if c.dir = 2 && !c.wrote && n ≠ 0 then w.copyWrites p j c n else w
      if w.homePending (.porter p j) c.id then w
      else
      let w := if o = .completionTimeout then w.emit (.aer (w.funcOf c.entry.berth)) else w
      let cause := match o with | .completionTimeout => some 19 | .unsupportedRequest => some 20 | .completerAbort => some 21 | _ => none
      match w.copyMove p j c n with
      | (none, w) => w
      | (some (st, done, bad), w) =>
        let (reads, w) := w.fresh
        let w := if c.dir = 0 then ((w.tlp p 0 (reads % 2 ^ 48)).tlp p 6 (reads % 2 ^ 48)).count 14 p 22 (b2n bad) else w
        let w := match cause with | some k => w.count 14 p k | none => w
        if st ≠ 0 then w.copyEnds p j c (statusOf st) 0 done done
        else if full then w.copyEnds p j c (if bad then stPoisoned else stOk) 0 c.len c.len
        else match o with
          | .hostLinkLost => (w.onRing c.entry.berth c.entry.ring fun r => { retireEntry c.entry.index r with ended := satAdd 0xFFFFFFFF r.ended 1 }).porterNext p j c
          | .pageFault page => w.pageFaulted p j c page
          | o => let (s, d, _) := copyStatus o; w.copyEnds p j c s d n n

/-- COPY_DONE. -/
def execCopyDone (port porter : Nat) (outcome : XferEnd) (bytesDone : Nat) (s : State) : Host.Outcome State Fault Refusal :=
  s.run fun w => w.copyDone port porter outcome bytesDone

/-- COMPLETION_TIMEOUT: the descriptor ends (R387). -/
def execCompletionTimeout (port porter bytesDone : Nat) (s : State) : Host.Outcome State Fault Refusal :=
  s.run fun w =>
    match (w.porter port porter).queue with
    | c :: _ => if c.issued && c.dir = 0 then w.copyDone port porter .completionTimeout bytesDone else w
    | [] => w

/-- TRANSLATION_COMPLETION (R356, R357). -/
def execTranslationCompletion (port porter : Nat) (granted : Bool) (hpa log2Size : Nat) (s : State) : Host.Outcome State Fault Refusal :=
  s.run fun w =>
    let w := w.tlp port 6
    let x := w.porter port porter
    match x.wait, x.queue with
    | .translation, c :: rest =>
      let f := w.funcOf c.entry.berth
      if granted then
        let k := max 12 log2Size
        let t : Atc := { func := f.func, pasid := w.pasidOf c.entry.berth, addr := x.page / 2 ^ k * 2 ^ k, log2 := k, hpa := hpa / 2 ^ k * 2 ^ k }
        (w.onPorter port porter fun y => { y with atc := (t :: y.atc).take 256, wait := .none, queue := { c with pages := t :: c.pages } :: rest }).porterGo port porter
      else if (w.func f).pri then
        (((w.onPorter port porter fun y => { y with wait := .prg }).emit (.pageReq port porter x.page)).count 12 (porterUnit port porter) 13).tlp port 3
      else w.pageFaulted port porter c x.page
    | _, _ => w

/-- PRG_RESPONSE: code 0 is Success; the Translation Request is sent again, or the copy ends (R357). -/
def execPrgResponse (port porter code : Nat) (s : State) : Host.Outcome State Fault Refusal :=
  s.run fun w =>
    let w := w.tlp port 7
    let x := w.porter port porter
    match x.wait, x.queue with
    | .prg, c :: _ =>
      if code = 0 then
        (w.onPorter port porter fun y => { y with wait := .translation }).atsAsk port porter x.page
      else w.pageFaulted port porter c x.page
    | _, _ => w

/-- PRI_TIMEOUT (R357). -/
def execPriTimeout (port porter : Nat) (s : State) : Host.Outcome State Fault Refusal :=
  s.run fun w =>
    let x := w.porter port porter
    match x.wait, x.queue with
    | .prg, c :: _ => if (w.port port).state = 4 then w else w.pageFaulted port porter c x.page
    | _, _ => w

/-- ATS_INVALIDATE_REQUEST: translations of the function in the range are dropped at every ATC; copies that have issued under them are awaited (R365, R366). -/
def execAtsInvalidateRequest (f : FuncRef) (addr len : Nat) (s : State) : Host.Outcome State Fault Refusal :=
  s.run fun w =>
    let w := w.tlp f.port 7
    let hit (t : Atc) : Bool := t.func = f.func && rangesMeet t.addr (2 ^ t.log2) addr len
    let running := (w.port f.port).porters.filterMap fun (j, y) => match y.queue with
      | c :: _ => if c.issued && c.pages.any hit then some (Agent.porter f.port j, c.id) else none
      | [] => none
    let w := w.onPort f.port fun x => { x with porters := x.porters.map fun (j, y) =>
      (j, { y with atc := y.atc.filter fun t => !hit t,
                   queue := y.queue.map fun c => if c.issued then c else { c with pages := c.pages.filter fun t => !hit t } }) }
    if running = [] then w.emit (.atsInvalDone f)
    else w.onChart fun c => { c with invals := tset c.invals c.nextInval { why := .ats f, awaited := running }, nextInval := c.nextInval + 1 }

end Sys2Proof.Machine
end

