-- ==== Sys2Proof/Machine/Manifests.lean ====
section
/-! DEFINITION. The commands of rings and manifest entries (14): bells, ring set-up, fetching, starting, NOP. -/

namespace Sys2Proof.Machine

/-! ## Rings and bell pages (R374, R397, R398) -/

/-- The berth that a bell page of a function serves. -/
def Work.berthAt (w : Work) (f : FuncRef) (page : Nat) : Option Nat :=
  if f.func = 0 then
    match w.bindOf page with
    | some x => if x.port = f.port && x.func = 0 then some page else none
    | none => none
  else (w.hub.ten.berths.find? fun (_, x) => match x.bind with
    | some y => y.port = f.port && y.func = f.func && y.slot = page
    | none => false).map (·.1)

/-- Berths bound to a function. -/
def Work.berthsOf (w : Work) (f : FuncRef) : List Nat :=
  let own := (w.hub.ten.berths.filter fun (b, _) => match w.bindOf b with | some y => y.port = f.port && y.func = f.func | none => false).map (·.1)
  if f.func = 0 then addTo own (w.mgr f.port) else own

/-- A write to a bell page reaches its berth; one whose berth is not bound is discarded and counted (R376), one of a TDI in ERROR or on an Insecure stream is discarded (R393, R394). -/
def Work.reach (w : Work) (f : FuncRef) (page : Nat) (k : Nat → Work → Work) : Work :=
  let w := w.tlp f.port 5
  if (w.func f).tdi = .error || !w.streamSecure f then w
  else match w.berthAt f page with
    | none => w.count 14 f.port 18
    | some b => k b w

/-! ## Fetching (R400-R405) -/

/-- Bytes of an entry. -/
def entryBytes (r : Ring) : Nat := if r.px2 then 32 else 64

/-- PHASE that a ring's next entry must carry (R400). -/
def wantPhase (r : Ring) : Nat := if r.pass % 2 = 0 then 1 else 0

/-- Start a fetch read from FETCH up to TAIL, at most 16 entries, none past the end of the ring (R403). -/
def Work.fetchGo (w : Work) (b r : Nat) : Work :=
  let x := w.ring b r
  let p := w.portOf b
  if x.state ≠ 1 || x.inFetch ≠ 0 || x.rereading || x.fetchIx = x.tail || (w.port p).halted || !w.portUp p then w
  else if !w.mayIssue (w.funcOf b) then w.count 15 p 34
  else
    let n := min 16 (if x.fetchIx < x.tail then x.tail - x.fetchIx else ringSize x - x.fetchIx)
    (w.onRing b r fun x => { x with inFetch := n }).tlp p 0

/-- An entry has become visible: it is fetched. -/
def takeEntry (word : Nat) (r : Ring) : Ring :=
  let next := (r.fetchIx + 1) % ringSize r
  { r with fetched := r.fetched ++ [{ index := r.fetchIx, word := word }], fetchIx := next, pass := if next = 0 then r.pass + 1 else r.pass,
           rereading := false, rereads := 0 }

/-- The word of the next entry as it stands in host memory. -/
def Work.entryWord (w : Work) (b : Nat) (r : Ring) : Nat :=
  leNat (w.mem.bytes (hostKey (w.portOf b) (r.base + entryBytes r * r.fetchIx)) (entryBytes r))

/-- Take entries until one still shows the wrong phase. -/
def Work.takeEntries (w : Work) (b : Nat) (r : Ring) : Nat → Ring
  | 0 => r
  | n + 1 =>
    let x := w.entryWord b r
    if entryPhase r x = wantPhase r then w.takeEntries b (takeEntry x r) n
    else { r with rereading := true, rereads := 0 }

/-- A ring stalls at its next entry: cause, Log, vector (R404, R405). -/
def Work.stall (w : Work) (b r cause : Nat) : Work :=
  let x := w.ring b r
  let w := w.onRing b r fun x => { x with state := 2, cause := cause, inFetch := 0, rereading := false, stale := if cause = 1 then satAdd 0xFFFFFFFF x.stale 1 else x.stale }
  let w := w.log { cls := 0x0E, sev := 2, cause := if cause = 1 then 0x8011 else cause, unit := r, berth := some b, addr := x.fetchIx }
  (if cause = 1 then w.count 15 (w.portOf b) 33 else w).raise (w.funcOf b) x.vector

/-- BELL (R403, R405). -/
def execBell (f : FuncRef) (page ring value : Nat) (s : State) : Host.Outcome State Fault Refusal :=
  s.run fun w => w.reach f page fun b w =>
    let r := w.ring b ring
    if !(w.port f.port).ready || (w.func f).flr || r.state = 0 || r.state = 3 then w.count 15 f.port 31
    else
      let w := w.onRing b ring fun r => { r with tail := value % 65536 % ringSize r }
      if r.state = 2 then (w.onRing b ring fun r => { r with state := 1, rereading := false, rereads := 0 }).fetchGo b ring
      else w.fetchGo b ring

/-- The fields of RING_CFG (R398). -/
def ringCfg (value : Nat) (r : Ring) : Ring :=
  { r with log2 := bits value 5 1, px2 := bit value 6, vector := bits value 26 16, enable := true }

/-- A write of RING_CFG with ENABLE set: ENABLE of a ring rises (R398, R400, R421); not on a berth that closes (R438). CAUSE keeps the last cause. -/
def Work.ringEnable (w : Work) (b ring value : Nat) : Work :=
    let r := w.ring b ring
    if r.enable then w.onRing b ring fun r => { r with px2 := bit value 6, vector := bits value 26 16 }
    else if r.state = 3 || (w.berth b).state ≠ .open then w
    else
      let n := bits value 5 1
      if n < 4 || 16 < n || (bit value 6 && n = 16) then w.onRing b ring fun r => { ringCfg value r with state := 0, cause := 5 }
      else w.onRing b ring fun r => { ringCfg value r with
        state := 1
        tail := 0
        fetch := 0
        doneIx := 0
        ended := 0
        stale := 0
        fetchIx := 0
        pass := 0
        inFetch := 0
        rereading := false
        rereads := 0
        fetched := []
        started := []
        doneSet := [] }

/-- RING_ENABLE. -/
def execRingEnable (f : FuncRef) (page ring value : Nat) (s : State) : Host.Outcome State Fault Refusal :=
  s.run fun w => w.reach f page fun b w => w.ringEnable b ring value

/-- Entries fetched and not started complete as CANCELLED; their waits are withdrawn (R422). -/
def Work.cancelFetched (w : Work) (b r : Nat) : Work :=
  let xs := (w.ring b r).fetched
  let w := (w.onRing b r fun x => { x with fetched := [], inFetch := 0, rereading := false }).withdrawWaits fun p => match p with
    | .entry b' r' _ => b' = b && r' = r
    | _ => false
  each xs (fun x w => w.finish { berth := b, ring := r, index := x.index } x stCancelled 0 (if (w.ring b r).px2 then bits x.word 255 192 else 0)) w

/-- Drain a ring (R422); a stalled one is Disabled at once (R423). -/
def Work.ringDrain (w : Work) (b r : Nat) : Work :=
  let x := w.ring b r
  let w := w.onRing b r fun x => { x with enable := false }
  if x.state = 0 || x.state = 3 then w
  else
    let w := (w.onRing b r fun x => { x with state := if x.state = 2 then 0 else 3, cause := 4 }).cancelFetched b r
    w.onRing b r fun x => if x.started = [] then { x with state := 0 } else x

/-- RING_DISABLE. -/
def execRingDisable (f : FuncRef) (page ring : Nat) (s : State) : Host.Outcome State Fault Refusal :=
  s.run fun w => w.reach f page fun b w => w.ringDrain b ring

/-- MANIFEST_FETCH: a fetch read returns (R401, R404, R405). -/
def execManifestFetch (berth ring : Nat) (outcome : XferEnd) (s : State) : Host.Outcome State Fault Refusal :=
  s.run fun w =>
    let r := w.ring berth ring
    if r.inFetch = 0 then w
    else
      let w := w.tlp (w.portOf berth) 6
      match outcome with
      | .ok => (w.onRing berth ring fun r => w.takeEntries berth { r with inFetch := 0 } r.inFetch).fetchGo berth ring
      | .hostLinkLost => w.stall berth ring 3
      | .completionTimeout => ((w.emit (.aer (w.funcOf berth))).count 14 (w.portOf berth) 19).stall berth ring 2
      | .unsupportedRequest => (w.count 14 (w.portOf berth) 20).stall berth ring 2
      | .completerAbort => (w.count 14 (w.portOf berth) 21).stall berth ring 2
      | _ => w.stall berth ring 2

/-- STALE_REREAD: the entry is read again; after the sixteenth the ring stalls (R404). -/
def execStaleReread (berth ring : Nat) (s : State) : Host.Outcome State Fault Refusal :=
  s.run fun w =>
    let r := w.ring berth ring
    let p := w.portOf berth
    if r.state ≠ 1 || !r.rereading || !w.mayIssue (w.funcOf berth) || !w.portUp p || (w.port p).halted then w
    else
      let w := (w.count 15 p 32).tlp p 0
      let x := w.entryWord berth r
      if entryPhase r x = wantPhase r then (w.onRing berth ring (takeEntry x)).fetchGo berth ring
      else if r.rereads = 15 then w.stall berth ring 1
      else w.onRing berth ring fun r => { r with rereads := r.rereads + 1 }

/-! ## Starting entries (R258, R401, R402, R509) -/

/-- The ring starts its next entry only after this one completes (R409). -/
def ringWaits (op : Nat) : Bool := !(op = 0x02 || op = 0x18 || op = 0x1B || op = 0x1C)

/-- Opcodes of R409. -/
def opcodeListed (op : Nat) : Bool :=
  op ∈ [0x01, 0x02, 0x03, 0x04, 0x05, 0x08, 0x09, 0x0A, 0x0B, 0x0C, 0x0D, 0x10, 0x11, 0x14, 0x15, 0x16, 0x18, 0x19, 0x1A, 0x1B, 0x1C, 0x1D,
        0x20, 0x21, 0x22, 0x23, 0x24, 0x25, 0x26, 0x27, 0x28, 0x30, 0x31, 0x32, 0x33, 0x34, 0x35, 0x36, 0x40, 0x41, 0x42, 0x43, 0x44]

/-- An entry starts: its hint is passed on, and its command may run. -/
def Work.entryGo (w : Work) (b r : Nat) (x : RingEntry) : Work :=
  let e : EntryRef := { berth := b, ring := r, index := x.index }
  let w := (w.onRing b r fun y => { y with fetched := y.fetched.filter (fun z => z.index ≠ x.index), started := y.started ++ [{ x with waiting := false }],
                                           fetch := (x.index + 1) % ringSize y }).count 15 (w.portOf b) 0
  if bits x.word 11 8 ≠ 1 then w.complete e stBadVersion
  else if !opcodeListed (bits x.word 7 0) then w.complete e stBadOpcode
  else if bit x.word 23 then (w.onBerth b fun y => { y with hint := bits x.word 23 16 }).retarget
  else w

/-- An entry whose wait failed completes HELM_ERROR with the cause; its command is not run (R406). -/
def Work.entryFails (w : Work) (b r : Nat) (x : RingEntry) (cause : Nat) : Work :=
  let e : EntryRef := { berth := b, ring := r, index := x.index }
  (w.onRing b r fun y => { y with fetched := y.fetched.filter (fun z => z.index ≠ x.index), fetch := (x.index + 1) % ringSize y }).finish e x stHelmError cause 0

/-- ENTRY_START. -/
def execEntryStart (berth ring : Nat) (s : State) : Host.Outcome State Fault Refusal :=
  s.run fun w =>
    let r := w.ring berth ring
    match r.fetched with
    | [] => w
    | x :: _ =>
      let blocked := r.started.any fun y => ringWaits (bits y.word 7 0)
      if r.px2 || r.state = 0 || r.state = 3 || blocked || (bit x.word 24 && r.started ≠ []) || x.waiting
          || !w.mayIssue (w.funcOf berth) || (w.port (w.portOf berth)).halted then w
      else if x.failed ≠ 0 then w.entryFails berth ring x x.failed
      else if !bit x.word 14 || x.satisfied then w.entryGo berth ring x
      else
        let w := w.onRing berth ring fun y => { y with fetched := y.fetched.map fun z => if z.index = x.index then { z with waiting := true } else z }
        let w := w.markWait (.entry berth ring x.index) berth (bits x.word 43 32) (bits x.word 95 64)
        match (w.ring berth ring).fetched with
        | y :: _ => if y.waiting then w else if y.failed ≠ 0 then w.entryFails berth ring y y.failed else w.entryGo berth ring y
        | [] => w

/-- NOP. -/
def execNop (e : EntryRef) (s : State) : Host.Outcome State Fault Refusal := s.run fun w => w.command e 0x01 false fun _ w => w.complete e stOk

end Sys2Proof.Machine
end

