-- ==== Sys2Proof/Machine/HostOps.lean ====
section
/-! DEFINITION. The shared operations of the host ports (13): what waits under Bus Master Enable (R388), resets of functions (R389, R390), the loss of a link (R294, R392). -/

namespace Sys2Proof.Machine

/-- Port state that a training gives (R371). -/
def trainedState (r : LinkTrain) : Nat :=
  if !r.cxl || r.rate < 5 then 1 else if r.width = 16 && r.rate = 6 then 3 else 2

/-- Record a result of training or retraining in the Log (R371). -/
def Work.portLog (w : Work) (p sev cause : Nat) (detail : Nat := 0) : Work :=
  w.log { cls := 0x0D, sev := sev, cause := cause, unit := p, detail := detail }

/-! ## Bus Master Enable (R385, R388) -/

/-- Owed records, then owed interrupts, leave a function that may issue again; an interrupt of a hub-wide source takes the vector now in force (R583). -/
def Work.flushOwed (w : Work) (f : FuncRef) : Work :=
  if !w.mayIssue f then w
  else
    let x := w.func f
    let w := w.onFunc f fun y => { y with owedWrites := [], owedVecs := [] }
    let w := each x.owedWrites (fun (a, d) w => w.hostWrite f a d) w
    each x.owedVecs (fun v w => if 4096 ≤ v then w.sendVector f (w.irqVector f.port (v - 4096)) v else w.sendVector f v) w

/-- Rings of a berth fetch on. -/
def Work.fetchAll (w : Work) (b : Nat) : Work := each (List.range 4) (fun r w => w.fetchGo b r) w

/-- What a function's requests had to wait for has come (R388). -/
def Work.kickFunc (w : Work) (f : FuncRef) : Work :=
  let w := w.flushOwed f
  let w := each (w.berthsOf f) (fun b w => w.fetchAll b) w
  each (List.range 8) (fun j w => match (w.porter f.port j).queue with
    | c :: _ => if w.funcOf c.entry.berth = f then w.porterGo f.port j else w
    | [] => w) w

/-- Functions of a port that have a record or a berth; PF0 is always there. -/
def Work.funcsOf (w : Work) (p : Nat) : List FuncRef :=
  let bound := (w.hub.ten.berths.filterMap fun (b, _) => w.bindOf b).filterMap fun y => if y.port = p then some y.func else none
  (bound.foldl addTo (addTo ((w.port p).funcs.map (·.1)) 0)).map fun i => { port := p, func := i }

/-- A port's link carries requests again. -/
def Work.kickPort (w : Work) (p : Nat) : Work := each (w.funcsOf p) (fun f w => w.kickFunc f) w

/-- A function may issue, or no longer may: PF0 moves the capacity of its port (R388). -/
def Work.busMaster (w : Work) (f : FuncRef) (g : Func → Func) : Work :=
  let w := w.onFunc f g
  let w := if f.func = 0 then w.derate else w
  if w.mayIssue f then w.kickFunc f else w

/-! ## Function Level Reset (R389, R420) -/

/-- Entries that a reset of their function drops are no longer named by the work that goes on without them. -/
def Work.orphan (w : Work) (pick : EntryRef → Bool) : Work :=
  let m (e : EntryRef) : EntryRef := if pick e then { berth := 4096 } else e
  let o (e : Option EntryRef) : Option EntryRef := e.map m
  w.onHub fun h => { h with
    sites := h.sites.map fun (k, s) => (k, { s with outEntry := o s.outEntry, inEntry := o s.inEntry, recal := s.recal.map fun (e, b) => (m e, b) })
    tables := h.tables.map fun (k, t) => (k, { t with removeEntry := o t.removeEntry })
    packs := h.packs.map fun (k, t) => (k, { t with removeEntry := o t.removeEntry })
    recipes := h.recipes.map fun (k, t) => (k, { t with removeEntry := o t.removeEntry })
    wrights := h.wrights.map fun (k, x) => (k, { x with draining := o x.draining, stopEntries := x.stopEntries.filter fun e => (o (some e)).isSome })
    memory := { h.memory with
      reloads := h.memory.reloads.map fun r => { r with entry := o r.entry }
      scrubs := h.memory.scrubs.map fun (k, j) => (k, { j with why := match j.why with
        | .command e => .command (m e)
        | .owner e v => .owner (m e) v
        | y => y }) }
    chart := { h.chart with
      holds := h.chart.holds.map fun x => { x with entry := m x.entry }
      invals := h.chart.invals.map fun (k, v) => (k, { v with why := match v.why with
        | .command e => .command (m e)
        | .ends e => .ends (m e)
        | y => y }) }
    ten := { h.ten with
      berths := h.ten.berths.map fun (k, b) => (k, { b with closeEntry := m b.closeEntry })
      withdrawals := h.ten.withdrawals.map fun x => { x with entry := o x.entry } } }

/-- A Porter drops the copies that a test picks, without records; one in progress counts as aborted where an invalidation awaits it (R389, R396). -/
def Work.porterDrops (w : Work) (p j : Nat) (pick : CopyJob → Bool) (aborts : Bool) : Work :=
  match (w.porter p j).queue with
  | [] => w
  | c :: _ =>
    let w := w.onPorter p j fun y => { y with queue := y.queue.filter (fun x => !pick x), wait := if pick c then .none else y.wait }
    if !pick c then w
    else
      let w := if c.issued && aborts then (w.endOf (.porter p j) c.id .aborted).2 else w
      ((w.homeRelease (.porter p j) c.id).dropFwd (.porter p j) c.id).porterGo p j

/-- An engine stops the recipes launched by entries that a test picks: they advance no done mark and write no record (R389 step 3). -/
def Work.wrightDrops (w : Work) (x : Nat) (pick : EntryRef → Bool) : Work :=
  let e := w.wright x
  let first : Bool := match e.queue with | l :: _ => pick l.entry | [] => false
  let w := w.onWright x fun y => { y with queue := y.queue.filter fun l => !pick l.entry
                                          run := y.run.map fun r => if pick r.launch.entry then { r with launch := { r.launch with doneEn := false, report := 0 } } else r }
  let w := match e.run with
    | some r => if pick r.launch.entry then w.stopRun x stStopped else w
    | none => w
  if first then (w.withdrawWaits fun p => p = .launch x).headWait x else w

/-- Entries that a ring has announced and not completed. -/
def announced (r : Ring) : Nat := r.fetched.length + r.started.length + (r.tail + ringSize r - r.fetchIx) % ringSize r

/-- A ring stops with its function: by an FLR, or by the loss of the link, which keeps DONE and the counts and adds the entries it ends (R389, R392, R420, R421). -/
def ringStops (lost : Bool) (r : Ring) : Ring :=
  if !lost then { r with fetched := [], started := [], doneSet := [], inFetch := 0, rereading := false, rereads := 0, state := 0, enable := false, partly := false }
  else { doneIx := r.doneIx, ended := if r.state = 0 then r.ended else satAdd 0xFFFFFFFF r.ended (announced r), stale := r.stale,
         cause := if r.state = 0 then r.cause else 3 }

/-- The end of a view without its record (R449). -/
def viewAbandon (v : View) : View := { v with isOpen := false, stopping := false }

/-- Steps 1 to 3 of the reset of a function (R389), by an FLR or by the loss of its link. -/
def Work.funcStops (w : Work) (f : FuncRef) (lost : Bool) : Work :=
  let bs := w.berthsOf f
  let mine (e : EntryRef) : Bool := e.berth ∈ bs
  let w := w.onFunc f fun x => { x with flr := x.flr || !lost, owedWrites := [], owedVecs := [], pendingVec := [] }
  let w := w.withdrawWaits fun p => match p with | .entry b _ _ => b ∈ bs | _ => false
  let w := each bs (fun b w => each (List.range 4) (fun r w => w.onRing b r (ringStops lost)) w) w
  let w := each (List.range 8) (fun j w =>
    (w.porterDrops f.port j (fun c => mine c.entry) !lost).onPorter f.port j fun y => { y with atc := y.atc.filter fun t => t.func ≠ f.func }) w
  let w := each (w.hub.wrights.map (·.1)) (fun x w => w.wrightDrops x mine) w
  let w := each bs (fun b w => w.onBerth b fun x => { x with view := viewAbandon x.view }) w
  w.orphan mine

/-- Step 4 (R389): registers, rings and MSI-X are back at reset values, a TDI is unlocked. -/
def Work.funcResets (w : Work) (f : FuncRef) : Work :=
  let w := each (w.berthsOf f) (fun b w => each (List.range 4) (fun r w => w.onRing b r fun _ => {}) w) w
  w.onPort f.port fun p => { p with funcs := tdel p.funcs f.func }

/-- The port page returns to its reset values with PF0 (R389, R392, R570). -/
def pageReset (p : Port) : Port :=
  { p with l1Idle := 100, hostTimeout := 10, priTimeout := 100, cntIrqEn := 0, irq := [], isr := [], log := {}, hotRing := {},
           bootSrc := 0, bootWrite := false, katEn := false, vfEnable := false }

/-! ## CXL lines of a port (R294, R390) -/

/-- A line lies in host memory of a port. -/
def hostLine (p l : Nat) : Bool := isHost (l * 128) && hostPort (l * 128) = p

/-- The first DPA of a port's host memory (R298). -/
def hostBase (p : Nat) : Nat := 0x0008000000000000 + p * 2 ^ 49

/-- What tells one request from another. -/
def reqKey (r : MemReq) : Agent × Nat × Nat × Nat := (r.agent, r.tag, r.berth, r.rank)

/-- The link-down row of R294: open requests complete HOST_LINK_LOST, every holder of the port's lines is sent SNP_INV and its dirty data is lost, the entries are freed. -/
def Work.hostLinesLost (w : Work) (p : Nat) : Work :=
  let here (l : Nat) : Bool := hostLine p l
  let led := w.hub.ledger
  let queued := (led.waits.filter fun (l, _) => here l).flatMap (·.2)
  let held := ((led.txns ++ led.hostTxns).filter fun (l, _) => here l).filterMap fun (_, t) => t.wbReq
  let opened := (led.txns.filter fun (l, _) => here l).filterMap fun (_, t) => match t.why with
    | .request r => if t.ackFrom.isNone && !t.early || w.hub.fabric.reqs.any (fun (_, x) => reqKey x = reqKey r) then some r else none
    | _ => none
  let open_ := (opened ++ queued ++ held).foldl (fun (l : List MemReq) r => if l.any fun x => reqKey x = reqKey r then l else l ++ [r]) []
  let holders := (led.entries.filter fun (l, _) => here l).flatMap fun (l, e) => (holdersOf e).map fun n => (n, l)
  let w := w.onLedger fun x => { x with
    entries := x.entries.filter fun (l, _) => !here l
    txns := x.txns.filter fun (l, _) => !here l
    hostTxns := x.hostTxns.filter fun (l, _) => !here l
    hostNext := x.hostNext.filter fun (l, _, _) => !here l
    waits := x.waits.filter fun (l, _) => !here l
    hostPoison := x.hostPoison.filter fun l => !here l }
  let w := w.onFabric fun f => { f with
    reqs := f.reqs.filter fun (_, x) => !open_.any fun r => reqKey r = reqKey x
    rsps := f.rsps.map fun (i, r) => (i, if r.grant ≠ 0 && here r.line then { r with read := false, status := 7, detail := 0, grant := 0, data := [] } else r) }
  let w := each open_ (fun r w => w.answer { r with grant := 0 } 7 0 none) w
  let w := each holders (fun (n, l) w =>
    if (w.site n).port.snoops.any fun (_, s) => s.line = l && s.op = snpInv then w else w.snoop n l snpInv) w
  w.wakeHome 0

/-- The loss of a port's link: link-down, hot reset, PERST_N (R294, R392). -/
def Work.linkLost (w : Work) (p counter : Nat) : Work :=
  let x := w.port p
  if x.state = 0 || x.state = 5 then w
  else
    let fs := w.funcsOf p
    let w := (w.count 14 p counter).onPort p fun x => { x with state := 5, width := 0, rate := 0, flit := false, cxl := false, l0p := false, l0s := [], l1 := false, before := 0, cxlReset := false, ide := [] }
    let w := each fs (fun f w => w.funcStops f true) w
    let w := w.onPort p fun x => { pageReset x with funcs := [] }
    ((w.hostLinesLost p).portLog p 2 5).derate

/-! ## TDISP (R394) -/

/-- A manager change touches what a lock has captured: the TDI enters ERROR. -/
def Work.tdiTouched (w : Work) (f : FuncRef) : Work :=
  let t := (w.func f).tdi
  if f.func ≠ 0 && (t = .locked || t = .run) then w.onFunc f fun x => { x with tdi := .error } else w

/-- The same of the function that a berth is bound to. -/
def Work.tdiOfBerth (w : Work) (b : Nat) : Work :=
  match w.bindOf b with
  | some x => w.tdiTouched { port := x.port, func := x.func }
  | none => w

end Sys2Proof.Machine
end

