-- ==== Sys2Proof/Machine/HostPort.lean ====
section
/-! DEFINITION. The commands of the host ports (13): training, placement writes, Bus Master Enable, resets, power states, interrupts, IDE and TDISP. -/

namespace Sys2Proof.Machine

/-! ## Training and readiness (R371, R372) -/

/-- PERST_N_RELEASE: the port trains. -/
def execPerstNRelease (port : Nat) (s : State) : Host.Outcome State Fault Refusal :=
  s.run fun w => w.onPort port fun p => { p with perstN := true, perstHeld := false }

/-- The port begins to serve after a training; READY rises at once where the hub has finished its start (R372, R541). -/
def Work.portTrained (w : Work) (p : Nat) (r : LinkTrain) : Work :=
  let st := trainedState r
  let w := w.onPort p fun x => { x with state := st, width := r.width, rate := r.rate, flit := r.flit, cxl := r.cxl }
  let w := (w.portLog p (if st = 3 then 0 else 1) st (r.width + 32 * r.rate)).derate
  if w.hub.start.state = 1 && !(w.port p).ready then (w.onPort p fun x => { x with ready := true }).irq p 0 else w

/-- The port may train now: its PERST_N is released and it is not held out of service. -/
def Work.mayTrain (w : Work) (p : Nat) : Bool :=
  let x := w.port p
  p < 4 && w.hub.start.hubRstN && x.perstN && !x.heldOut && (x.state = 0 || x.state = 5) && !(p ∈ w.hub.board.clocksLost)

/-- LINK_TRAINING_DONE. -/
def execLinkTrainingDone (port : Nat) (result : LinkTrain) (s : State) : Host.Outcome State Fault Refusal :=
  s.run fun w => if w.mayTrain port then w.portTrained port result else w

/-- LINK_TRAINING_TIMEOUT: no link within 1 s. -/
def execLinkTrainingTimeout (port : Nat) (s : State) : Host.Outcome State Fault Refusal :=
  s.run fun w => if w.mayTrain port then ((w.onPort port fun p => { p with state := 0 }).portLog port 1 0).derate else w

/-- CONFIG_READY: 100 ms after PERST_N is released (R372). -/
def execConfigReady (port : Nat) (s : State) : Host.Outcome State Fault Refusal :=
  s.run fun w => if (w.port port).perstN && w.hub.start.hubRstN then w.onPort port fun p => { p with configReady := true } else w

/-! ## The placement aperture (R377-R379) -/

/-- Why a placement write is discarded: the row of R378; a block under close awaits its scrub (R452). -/
def Work.placeRow (w : Work) (x : Option Place) (rid off n : Nat) : Option Nat :=
  match x with
  | none => some 1
  | some x =>
    if x.rid ≠ rid then some 1
    else if x.len * 65536 < off + n then some 2
    else
      let ok (a : Nat) : Bool := match w.target a with
        | .board _ => w.ownerOf a = 2 ^ 14 + x.berth && (w.berth x.berth).state ≠ .closing
        | .scratch p => (w.part p).holder = x.berth
        | _ => false
      if (partsOf 65536 (x.base + off) n).all fun b => ok (max (b * 65536) (x.base + off)) then none else some 3

/-- A generation of a berth that holds a key, the newer one where both do (R439). -/
def Work.currentGen (w : Work) (b : Nat) : Nat := if w.key b 0 < w.key b 1 then 1 else 0

/-- A write to the placement aperture is discarded: counted, the first of its key within any 1 ms logged. -/
def Work.placeDrop (w : Work) (p key row rid : Nat) : Work :=
  let w := w.count 14 p (14 + row)
  let first : Bool := match tfind (w.port p).placeLogged key with | some t => t + 1000 ≤ w.now | none => true
  if !first then w
  else (w.onPort p fun x => { x with placeLogged := tset x.placeLogged key w.now }).log
    { cls := 0x0D, sev := 1, cause := 0x801E, unit := p, detail := key + 4096 * row + 65536 * (rid % 65536) }

/-- PLACEMENT_WRITE: judged by the record in force, then performed as a write of its berth (R378, R379). -/
def execPlacementWrite (port rid offset : Nat) (data : List Byte) (relaxed : Bool) (s : State) : Host.Outcome State Fault Refusal :=
  s.run fun w =>
    let key := bits offset 39 28
    let off := bits offset 27 0
    let n := data.length
    if n = 0 || !w.portUp port || !w.streamSecure { port := port, func := 0 } then w
    else
      let w := w.tlp port 5
      let rec_ := tfind (w.port port).places key
      match w.placeRow rec_ rid off n, rec_ with
      | some row, _ => w.placeDrop port key row rid
      | none, some x =>
        let flag := x.flagEn && rangesMeet off n (256 * x.flagOff) 256
        let j : PlaceJob := { seq := (w.port port).nextPlace, rid := rid, key := key, relaxed := relaxed, flag := flag,
                              mark := if flag && x.markEn then some x.mark else none,
                              berth := x.berth, slot := x.berth, gen := w.currentGen x.berth, dpa := x.base + off, data := data }
        (w.onPort port fun p => { p with placing := p.placing ++ [j], nextPlace := p.nextPlace + 1 }).placePump port
      | none, none => w

/-! ## Bus Master Enable and D-states (R385, R388) -/

/-- BME_CLEAR. -/
def execBmeClear (f : FuncRef) (s : State) : Host.Outcome State Fault Refusal := s.run fun w => w.busMaster f fun x => { x with bme := false }

/-- BME_SET. -/
def execBmeSet (f : FuncRef) (s : State) : Host.Outcome State Fault Refusal :=
  s.run fun w => if w.portUp f.port && (f.func = 0 || w.vfLive f.port) then w.busMaster f fun x => { x with bme := true } else w

/-- D3HOT_ENTRY. -/
def execD3hotEntry (f : FuncRef) (s : State) : Host.Outcome State Fault Refusal := s.run fun w => w.busMaster f fun x => { x with d3hot := true }

/-- D0_RETURN. -/
def execD0Return (f : FuncRef) (s : State) : Host.Outcome State Fault Refusal := s.run fun w => w.busMaster f fun x => { x with d3hot := false }

/-! ## Function Level Reset, CXL Reset (R389, R390) -/

/-- FLR of a VF. -/
def execFlr (f : FuncRef) (s : State) : Host.Outcome State Fault Refusal :=
  s.run fun w => if f.func ≠ 0 && w.vfLive f.port && !(w.func f).flr then w.funcStops f false else w

/-- Start the reset of PF0 and of every VF (R390). -/
def Work.pf0Stops (w : Work) (p : Nat) : Work :=
  let w := w.onPort p fun x => { x with vfEnable := false }
  (each (w.funcsOf p) (fun f w => if (w.func f).flr then w else w.funcStops f false) w).derate

/-- PF0_FLR. -/
def execPf0Flr (port : Nat) (s : State) : Host.Outcome State Fault Refusal :=
  s.run fun w => if port < 4 && w.portUp port then w.pf0Stops port else w

/-- Recall every line of a port's host memory: dirty data is written back, every holder is invalidated (R390). -/
def Work.hostRecall (w : Work) (p : Nat) : Work := w.recallLines (w.trackedIn (hostBase p) (2 ^ 49)) id

/-- CXL_RESET. -/
def execCxlReset (port : Nat) (s : State) : Host.Outcome State Fault Refusal :=
  s.run fun w => if port < 4 && w.portUp port then ((w.pf0Stops port).onPort port fun x => { x with cxlReset := true }).hostRecall port else w

/-- FLR_COMPLETE: of a VF; of PF0, with its VFs, after the lines that a CXL Reset recalls are gone. -/
def execFlrComplete (f : FuncRef) (s : State) : Host.Outcome State Fault Refusal :=
  s.run fun w =>
    if !(w.func f).flr then w
    else if f.func ≠ 0 then (if (w.port f.port).vfEnable then (w.funcResets f).count 14 f.port 13 else w)
    else if (w.port f.port).cxlReset && w.openIn (hostBase f.port) (2 ^ 49) then w.hostRecall f.port
    else
      let w := each (w.funcsOf f.port) (fun g w => w.funcResets g) w
      ((w.onPort f.port fun p => { pageReset p with cxlReset := false }).count 14 f.port 12).derate

/-! ## Retrain, link-down, hot reset (R391, R392) -/

/-- LINK_RETRAIN_START: requests wait, and D is 0. -/
def execLinkRetrainStart (port : Nat) (s : State) : Host.Outcome State Fault Refusal :=
  s.run fun w =>
    let x := w.port port
    if !(x.state = 1 || x.state = 2 || x.state = 3) then w
    else ((w.onPort port fun x => { x with before := x.state, state := 4, l0s := [], l1 := false }).count 14 port 9).derate

/-- LINK_RETRAIN_END: at the same or another width and rate, or as a link-down. -/
def execLinkRetrainEnd (port : Nat) (result : Option LinkTrain) (s : State) : Host.Outcome State Fault Refusal :=
  s.run fun w =>
    if (w.port port).state ≠ 4 then w
    else match result with
      | none => w.linkLost port 10
      | some r =>
        let st := trainedState r
        let old := (w.port port).before
        let w := w.onPort port fun x => { x with state := st, width := r.width, rate := r.rate, flit := r.flit, cxl := r.cxl }
        let w := if st = old then w else w.portLog port 1 st (r.width + 32 * r.rate)
        w.derate.kickPort port

/-- LINK_DOWN. -/
def execLinkDown (port : Nat) (s : State) : Host.Outcome State Fault Refusal := s.run fun w => w.linkLost port 10

/-- HOT_RESET. -/
def execHotReset (port : Nat) (s : State) : Host.Outcome State Fault Refusal := s.run fun w => w.linkLost port 11

/-- The Purser holds off hub reset and PERST_N while it burns (R474, R525). -/
def Work.resetHeldOff (w : Work) : Bool := match w.hub.purser.intent with | some i => i.burning | none => false

/-- PERST_N_ASSERT. -/
def execPerstNAssert (port : Nat) (s : State) : Host.Outcome State Fault Refusal :=
  s.run fun w =>
    if w.resetHeldOff then w.onPort port fun x => { x with perstHeld := true }
    else (w.linkLost port 10).onPort port fun x => { x with perstN := false, configReady := false }

/-! ## Link power states (R384) -/

/-- The port's link is trained and not retraining. -/
def Work.linkIdle (w : Work) (p : Nat) : Bool :=
  let s := (w.port p).state
  s = 1 || s = 2 || s = 3

/-- L0S_ENTRY: one direction, in non-flit operation. -/
def execL0sEntry (port dir : Nat) (s : State) : Host.Outcome State Fault Refusal :=
  s.run fun w =>
    if w.linkIdle port && !(w.port port).flit && dir < 2 && dir ∉ (w.port port).l0s then
      (w.onPort port fun x => { x with l0s := addTo x.l0s dir }).count 14 port 23
    else w

/-- L0S_EXIT. -/
def execL0sExit (port dir : Nat) (s : State) : Host.Outcome State Fault Refusal :=
  s.run fun w => w.onPort port fun x => { x with l0s := rmv x.l0s dir }

/-- L0P_ENTRY: in Flit Mode, on a port with no guarantee. -/
def execL0pEntry (port width : Nat) (s : State) : Host.Outcome State Fault Refusal :=
  s.run fun w =>
    let x := w.port port
    if w.linkIdle port && x.flit && !x.l0p && width < x.width && w.guarSum (2 + port) + w.guarSum (6 + port) = 0 then
      (w.onPort port fun x => { x with l0p := true }).count 14 port 24
    else w

/-- L0P_EXIT. -/
def execL0pExit (port : Nat) (s : State) : Host.Outcome State Fault Refusal :=
  s.run fun w => w.onPort port fun x => { x with l0p := false }

/-- Nothing is outstanding, owed or fetchable at a port; an entry that waits on a mark is not fetchable (R384). -/
def Work.portQuiet (w : Work) (p : Nat) : Bool :=
  (w.port p).funcs.all (fun (_, f) => f.owedVecs = [] && f.owedWrites = []) && w.allReqs.all (fun r => !hostLine p (r.dpa / 128))
    && (w.hub.ledger.txns ++ w.hub.ledger.hostTxns).all (fun (l, _) => !hostLine p l) && (w.port p).porters.all (fun (_, x) => x.queue = [])
    && w.hub.ten.rings.all fun (k, r) => w.portOf (k / 4) ≠ p || r.state ≠ 1 || (r.inFetch = 0 && !r.rereading && r.fetchIx = r.tail)

/-- L1_ENTRY. -/
def execL1Entry (port : Nat) (s : State) : Host.Outcome State Fault Refusal :=
  s.run fun w =>
    if w.linkIdle port && !(w.port port).l1 && w.portQuiet port then (w.onPort port fun x => { x with l1 := true }).count 14 port 25 else w

/-- L1_EXIT. -/
def execL1Exit (port : Nat) (s : State) : Host.Outcome State Fault Refusal :=
  s.run fun w => w.onPort port fun x => { x with l1 := false }

/-! ## Interrupts (R383) -/

/-- The mask of a vector, or of the function, is cleared; what is pending is sent. -/
def Work.unmask (w : Work) (f : FuncRef) (vector : Option Nat) : Work :=
    let w := w.onFunc f fun x => match vector with
      | some v => { x with masked := rmv x.masked v }
      | none => { x with fmask := false }
    let x := w.func f
    let ready := x.pendingVec.filter fun v => !(x.msixEn && x.fmask) && (if x.msixEn then v else v % max 1 x.msiCount) ∉ x.masked
    each ready.reverse (fun v w => w.sendVector f v) (w.onFunc f fun y => { y with pendingVec := y.pendingVec.filter fun v => v ∉ ready })

/-- MSIX_UNMASK. -/
def execMsixUnmask (f : FuncRef) (vector : Option Nat) (s : State) : Host.Outcome State Fault Refusal := s.run fun w => w.unmask f vector

/-! ## IDE and TDISP (R393, R394) -/

/-- A SPDM session of a transport is open (R458). -/
def sessionOpen (x : Spdm) (id : Nat) : Bool := x.sessions.any fun (i, ok, _) => i = id && ok

/-- IDE_KM: the keys of a stream are programmed within a session; the stream is secure again. -/
def execIdeKm (port stream session : Nat) (s : State) : Host.Outcome State Fault Refusal :=
  s.run fun w =>
    if stream < 9 && w.portUp port && sessionOpen (tget {} w.hub.purser.doe port) session then w.onPort port fun x => { x with ide := tset x.ide stream 1 } else w

/-- IDE_INTEGRITY_FAILURE: the stream is Insecure, and every TDI bound to it enters ERROR. -/
def execIdeIntegrityFailure (port stream : Nat) (s : State) : Host.Outcome State Fault Refusal :=
  s.run fun w =>
    if tget 0 (w.port port).ide stream ≠ 1 then w
    else (w.onPort port fun x => { x with
      ide := tset x.ide stream 2
      funcs := x.funcs.map fun (i, f) => (i, if f.tdi ≠ .unlocked && f.stream = stream then { f with tdi := .error } else f) }).portLog port 2 6 stream

/-- The device-specific area of a VF's interface report: 8 bytes for each of its 16 binding slots (R464). -/
def Work.tdiReport (w : Work) (f : FuncRef) : List Byte :=
  (List.range 16).flatMap fun k =>
    match w.hub.ten.berths.find? fun (_, x) => match x.bind with | some y => y.port = f.port && y.func = f.func && y.slot = k | none => false with
    | some (b, x) => leBytes 8 (pack [(14, b), (1, 1), (17, 0), (32, x.openCount)])
    | none => leBytes 8 0

/-- TDISP messages reach the port inside an open session of its mailbox (R394, R458). -/
def Work.tdispUp (w : Work) (p : Nat) : Bool := w.portUp p && (tget ({} : Spdm) w.hub.purser.doe p).sessions.any fun (_, ok, _) => ok

/-- LOCK_INTERFACE: a VF is locked as a TDI, and its report lists BAR0 and BAR2 and its slots (R464); PF0 never may be. -/
def execLockInterface (f : FuncRef) (stream : Nat) (s : State) : Host.Outcome State Fault Refusal :=
  s.run fun w =>
    if f.func ≠ 0 && w.tdispUp f.port && w.vfLive f.port && (w.func f).tdi = .unlocked && 1 ≤ stream && stream < 9 then
      (w.onFunc f fun x => { x with tdi := .locked, stream := stream }).emit (.tdiReport f [0, 2] (w.tdiReport f))
    else w

/-- START_INTERFACE. -/
def execStartInterface (f : FuncRef) (s : State) : Host.Outcome State Fault Refusal :=
  s.run fun w => if f.func ≠ 0 && w.tdispUp f.port && (w.func f).tdi = .locked then w.onFunc f fun x => { x with tdi := .run } else w

/-- STOP_INTERFACE: the TDI is unlocked; what waited in ERROR goes on (R388, R394). -/
def execStopInterface (f : FuncRef) (s : State) : Host.Outcome State Fault Refusal :=
  s.run fun w =>
    if f.func ≠ 0 && w.tdispUp f.port && (w.func f).tdi ≠ .unlocked then
      let w := w.onFunc f fun x => { x with tdi := .unlocked, stream := 0 }
      if w.mayIssue f then w.kickFunc f else w
    else w

end Sys2Proof.Machine
end

