-- ==== Sys2Proof/Machine/MemOps.lean ====
section
/-! DEFINITION. The shared operations of the memory units (10): Tally and atomic arithmetic (R89, R320-R323), uncorrectable errors and faults (R326-R328), reloads (R330), Hold rows (R305), and how a controller serves a request (R298-R303, R314-R319). -/

namespace Sys2Proof.Machine

/-! ## Arithmetic at the memory -/

/-- Floating-point Tally operation on a target and an operand of a type (R321): ROP 0 add, 1 max, 2 min. -/
def tallyFloat (t rop x y : Nat) : Nat :=
  let a := decodeElem t x
  let b := decodeElem t y
  encodeVal t 0 false (match rop with | 0 => addVal 0 a b | 1 => maxVal a b | _ => minVal a b)

/-- Integer Tally operation of w bits (R321). -/
def tallyInt (w rop x y : Nat) : Nat :=
  match rop with
  | 0 => (x + y) % 2 ^ w
  | 1 => if signedOf w x < signedOf w y then y else x
  | _ => if signedOf w y < signedOf w x then y else x

/-- MXINT8 add of two granules (R321): each block is decoded exactly, added, and quantised once; 0xFF in either block gives 0xFF and zeros; unused bytes are zero. -/
def tallyMx (old x : List Byte) : List Byte :=
  let a := leNat old
  let b := leNat x
  let blocks := (List.range 7).map fun k =>
    let sa := a / 2 ^ (8 * k) % 256
    let sb := b / 2 ^ (8 * k) % 256
    if sa = 0xFF || sb = 0xFF then (0xFF, List.replicate 32 0)
    else
      let vs := (List.range 32).map fun i => addVal 0 (decodeScaled 11 sa (elemOf 11 a (32 * k + i))) (decodeScaled 11 sb (elemOf 11 b (32 * k + i)))
      let s := scaleCode 11 vs
      (s, vs.map (quantElem 11 0 s))
  granOf 11 (blocks.map (·.1)) (blocks.flatMap (·.2))

/-- REDUCE on the bytes of its target (R88, R90, R321): RTYPE 0 FP32, 1 BF16, 2 INT32, 3 INT64, 4 MXINT8. -/
def tallyBytes (opspec : Nat) (old x : List Byte) : List Byte :=
  let rop := bits opspec 1 0
  let on (n : Nat) (f : Nat → Nat → Nat) : List Byte :=
    ((chunks n old).zip (chunks n x)).flatMap fun (a, b) => leBytes n (f (leNat a) (leNat b))
  match bits opspec 4 2 with
  | 0 => on 4 (tallyFloat 0 rop)
  | 1 => on 2 (tallyFloat 1 rop)
  | 2 => on 4 (tallyInt 32 rop)
  | 3 => on 8 (tallyInt 64 rop)
  | _ => tallyMx old x

/-- ATOMIC (R88, R89): the new value of n bytes from the old, the operand, and for CAS the swap value. -/
def atomicValue (aop n old x swap : Nat) : Nat :=
  let w := 8 * n
  match aop with
  | 0 => x
  | 1 => if old = x then swap else old
  | 2 => (old + x) % 2 ^ w
  | 3 => old &&& x
  | 4 => old ||| x
  | 5 => old ^^^ x
  | 6 => if signedOf w old < signedOf w x then x else old
  | 7 => if signedOf w x < signedOf w old then x else old
  | 8 => max old x
  | _ => min old x

/-! ## Reloads (R328-R330) -/

/-- The origin record that covers a block of a share group (R329). -/
def Work.originOf (w : Work) (blk : Nat) : Option Origin :=
  let e := w.ownerOf (blk * 65536)
  w.hub.memory.origins.find? fun o => bits e 15 14 = 2 && o.group = bits e 7 0 && o.base / 65536 ≤ blk && blk < o.base / 65536 + o.blocks

/-- Start reloads that wait, at most 16 at once and one for a block (R330). -/
def Work.reloadPump (w : Work) : Work :=
  w.onMem fun m => { m with reloads := m.reloads.foldl (fun l r =>
    if r.running then l ++ [r]
    else
      let busy := (m.reloads.filter fun x => x.running).length + (l.filter fun x => x.running && !(m.reloads.contains x)).length
      let same := (l ++ m.reloads.filter fun x => x.running).any fun x => x.running && x.block = r.block
      l ++ [{ r with running := busy < 16 && !same }]) [] }

/-- A block becomes reload-pending; an error in a block under reload is absorbed by it (R330, R331). -/
def Work.reloadAsk (w : Work) (blk : Nat) (o : Origin) (e : Option EntryRef) : Work :=
  if e.isNone && w.hub.memory.reloads.any fun r => r.block = blk then w
  else (w.onMem fun m => { m with reloads := m.reloads ++ [{ block := blk, origin := o, entry := e }] }).reloadPump

/-- The rate at which a channel trains that fails above `best`: the target, or lower by steps of 4 Gb/s, none below 28 (R307). -/
def trainedRate (target best : Nat) : Option Nat := ((List.range 4).map fun i => target - 4 * i).find? fun r => 28 ≤ r && r ≤ best

/-! ## Uncorrectable errors (R326-R328, R582) -/

/-- The Log and the interrupts of an uncorrectable error: `cause` is the code of R582, `outcome` 0, 1 reloaded, 2 reload failed (log 30). -/
def Work.memFault (w : Work) (d cause outcome : Nat) : Work :=
  let inHold := 3 ≤ cause
  let ev (berth : Option Nat) (detail : Nat) : LogEvent :=
    { cls := if inHold then 9 else 0xA, sev := if outcome = 1 then 1 else 2, cause := 0x801A,
      unit := if !isBoard d then (d - 0x004000000000) / 2 ^ 28 else if inHold then dieOf (d / 256) else channelOf d,
      berth := berth, addr := d, detail := cause + 16 * outcome + 256 * detail }
  match w.target d with
  | .scratch p =>
    let b := (w.part p).holder
    ((w.log (ev (some b) 0)).viewCount b 9).irqs (w.portsOf [b]) 5
  | _ =>
    let e := w.ownerOf d
    match bits e 15 14 with
    | 1 => (w.log (ev (some (bits e 13 0)) 0)).faultOwners d
    | 2 => (w.log (ev none (bits e 7 0))).faultOwners d
    | _ => w.log (ev none 0)

/-- A channel is isolated: each block has lost two of its granules (R601). -/
def Work.channelLost (w : Work) : Bool := (List.range 128).any fun c => (w.channel c).isolated

/-- An uncorrectable error at a DPA: of a KIND 2 block the whole block is poisoned, and reloaded where an origin record covers it (R326-R328), but with a channel isolated (R601). -/
def Work.uncorrectable (w : Work) (d cause : Nat) : Work :=
  if isBoard d && bits (w.ownerOf d) 15 14 = 2 && !w.channelLost then
    let blk := d / 65536
    if w.hub.memory.reloads.any fun r => r.block = blk then w
    else
      let w := (each (List.range 512) (fun i w => w.op (.poison (blk * 512 + i))) w).memFault d cause 0
      match w.originOf blk with
      | some o => w.reloadAsk blk o none
      | none => w
  else
    let w := (w.op (.poison (d / 128))).memFault d cause 0
    if bits (w.ownerOf d) 15 14 = 3 then w.spillLost fun g => g = d / 256 else w

/-- The origin of a reload can be read (R330): its port is up, or its board block lets a member of the group pass; nothing of it is poisoned. -/
def Work.originReads (w : Work) (r : Reload) : Bool :=
  let a := r.origin.origin + (r.block * 65536 - r.origin.base)
  if r.origin.board then
    (ones (tget 0 w.hub.memory.member r.origin.group) 4096).any (fun b => w.ownerPasses a b) && !w.poisoned a 65536
      && !w.channelLost
  else w.portUp r.origin.port && !w.poisoned (hostKey r.origin.port a) 65536

/-- Key slot and generation of a group's blocks that a reload writes under: those of the granule as stored, else the first that holds a key. -/
def Work.groupKey (w : Work) (g a : Nat) : Nat × Nat :=
  let slot := 4096 + g
  if w.tagOf a ≠ 0 && w.tagOf a = w.key slot 1 then (slot, 1) else if w.key slot 0 ≠ 0 || w.key slot 1 = 0 then (slot, 0) else (slot, 1)

/-- The block is written whole from its origin; its poison is gone (R330). -/
def Work.reloadWrite (w : Work) (r : Reload) : Work :=
  let a := r.block * 65536
  let from_ := r.origin.origin + (a - r.origin.base)
  let (slot, gen) := w.groupKey r.origin.group a
  let bytes :=
    if r.origin.board then let (s, g) := w.storedKey from_; w.get s g from_ 65536
    else w.mem.bytes (hostKey r.origin.port from_) 65536
  (w.onMem fun m => { m with hold := m.hold.filter fun l => l.granule / 256 ≠ r.block }).put slot gen a bytes

/-- A running reload ends, failed where a channel is isolated (R601): counted, reported again with its outcome, its command told; waiting ones start (R328, R330, R332). -/
def Work.reloadEnd (w : Work) (blk : Nat) (ok : Bool) : Work :=
  match w.hub.memory.reloads.find? fun r => r.block = blk && r.running with
  | none => w
  | some r =>
    let ok := ok && !w.channelLost
    let w := w.onMem fun m => { m with reloads := m.reloads.filter fun x => !(x.block = blk && x.running) }
    let w := (if ok then w.reloadWrite r else w).count 10 0 (if ok then 0 else 1)
    let w := w.reloadPump
    match r.entry with
    | none => w.memFault (blk * 65536) 1 (if ok then 1 else 2)
    | some e =>
      let w := w.onRing e.berth e.ring fun x => { x with started := x.started.map fun y =>
        if y.index = e.index then { y with progress := y.progress + if ok then 1 else 2 ^ 32 } else y }
      if w.hub.memory.reloads.any fun x => x.entry = some e then w
      else match w.started e with
        | some y => w.complete e stOk 0 (y.progress - 1)
        | none => w

/-! ## Hold rows (R305) -/

/-- Retire a row until the next start: its line leaves use, its sectors are poisoned where they hold the only copy, and the row enters the stored profile. -/
def Work.retireRow (w : Work) (part set : Nat) : Work :=
  if (part, set) ∈ w.hub.memory.rowsRetired then w
  else
    let l := w.hub.memory.hold.find? fun l => l.part = part && setOfGranule l.granule = set
    let w := match l with | some l => w.writeBackLine l | none => w
    let w := w.onMem fun m => { m with rowsRetired := (part, set) :: m.rowsRetired }
    let w := w.onHub fun h => { h with start := { h.start with profile := { h.start.profile with holdRows := addTo h.start.profile.holdRows (part, set), pendingWrite := true } } }
    w.log { cls := 9, sev := 1, cause := 0x8014, unit := part / 16, addr := set, detail := part }

/-- Where a DPA lies in the Hold: partition and row, if a line or a scratch partition holds it. -/
def Work.holdRow (w : Work) (d : Nat) : Option (Nat × Nat) :=
  match w.target d with
  | .scratch p => some (p, d % 2 ^ 24 / 256)
  | .board _ => (w.hub.memory.hold.find? fun l => l.granule = d / 256).map fun l => (l.part, setOfGranule l.granule)
  | _ => none

/-- A corrected word of the Hold: more than 8 within 1 s retire the row (R305, R332). -/
def Work.holdCorrected (w : Work) (p set : Nat) : Work :=
  let k := p * 65536 + set
  let times := w.now :: recent w.now 1000000 (tget [] w.hub.memory.rowErrors k)
  let w := (w.count 8 (p / 16) 4).onMem fun m => { m with rowErrors := tset m.rowErrors k times }
  if 8 < times.length then
    let w := w.retireRow p set
    if (w.part p).mode = 3 then each [0, 1] (fun i w => w.op (.poison ((0x004000000000 + p * 2 ^ 24 + set * 256) / 128 + i))) w else w
  else w

/-- A SEC-DED double error in the Hold: the line is poisoned, its row retired (R305, R326). -/
def Work.holdUncorrectable (w : Work) (d p set : Nat) : Work :=
  ((w.count 8 (p / 16) 5).uncorrectable d 3).retireRow p set

/-- The refresh group of a granule returns to the base interval for the rest of the run, and in the stored profile (R325). -/
def Work.groupToBase (w : Work) (d : Nat) : Work :=
  let c := channelOf d
  let g := Config.refreshGroup c (d / 256)
  (w.onChannel c fun x => { x with bins := tset x.bins g 1 }).onHub fun h =>
    { h with start := { h.start with profile := { h.start.profile with bins := tset h.start.profile.bins (g * 128 + c) 1, pendingWrite := true } } }

/-- A channel is retrained after a fifth data CRC failure; the access waits (R306, R332). -/
def Work.channelRetrain (w : Work) (c : Nat) : Work :=
  ((w.onChannel c fun x => { x with retraining := true }).count 7 c 10).derate

/-! ## How a controller serves a request -/

/-- The request reads what lies at its address before it is done. -/
def readsMemory (r : MemReq) : Bool := !((r.kind = .wr || r.kind = .wbDirty) && r.dpa % 256 = 0 && r.bytes = 256)

/-- What an access meets in its memory (R305, R306, R326): true when the request goes on. -/
def Work.accessError (w : Work) (r : MemReq) (err : Nat) : Bool × Work :=
  let d := r.dpa
  let c := channelOf d
  match w.holdRow d, w.target d with
  | some (p, set), _ => (true, if err = 1 then w.holdCorrected p set else if err = 4 then w.holdUncorrectable d p set else w)
  | none, .board reg =>
    let a := (w.region reg).cls = 0
    match err with
    | 1 => (true, if !readsMemory r then w else if a then (w.groupToBase d).busRead r.berth (d / 256) r.prio else (w.count 7 c 11).groupToBase d)
    | 2 => if a || !readsMemory r then (true, w) else let w := (w.count 7 c 12).uncorrectable d 1; (!w.memBusy d, w)
    | 3 => if !a || !readsMemory r then (true, w) else let w := ((w.count 7 c 12).groupToBase d).uncorrectable d 2; (!w.memBusy d, w)
    | 5 => (true, w.count 7 c 9)
    | 6 => (false, (w.count 7 c 9 4).channelRetrain c)
    | _ => (true, w)
  | none, _ => (true, w)

/-- A granted read that ends without the line leaves the requester nothing (R291): its transaction closes. -/
def Work.ungrant (w : Work) (r : MemReq) : Work :=
  match reqSite r with
  | some n =>
    if r.grant = 0 then w
    else
      let l := r.dpa / 128
      let w := w.setEntry l ((w.lineEntry l).bind fun e =>
        if ownsLine (some e) n then none else some { e with sharers := e.sharers.filter (· ≠ n) })
      ((w.dropTxn l).hostSnoopNext l n).wakeHome l
  | none => w

/-- The Tally unit of a DPA, for its counters: the Hold die that holds it, else its channel; on host lines the home does the work of one (R319, R320, R332). -/
def Work.tallyUnit (w : Work) (d : Nat) : Option Nat :=
  match w.holdRow d with
  | some (p, _) => some (p / 16)
  | none => if isBoard d then some (3 + channelOf d) else none

/-- Perform a request at its memory and answer it (R87-R93, R287, R291, R316, R323). -/
def Work.perform (w : Work) (r : MemReq) : Work :=
  let d := r.dpa
  let n := if coherentKind r.kind then 128 else r.bytes
  let d := if coherentKind r.kind then d / 128 * 128 else d
  let write := endsCopies r.kind || r.kind = .wbDirty
  let bad := (partsOf 128 d n).any fun l => l ∈ w.mem.poison && r.forwarded.all fun (m, _) => m ≠ l
  let w := w.holdAccess r.berth r.slot r.gen d n write r.prio (r.kind = .reduce)
  let w := if isHost d && !r.shared then w.hostReqs (if write then .wrCur else .rdCurr) d n
    else if isHost d && !write then w.hostReqs .rdCurr d n else w
  match r.kind with
  | .wr => ((w.onLedger fun x => { x with hostPoison := x.hostPoison.filter fun l => !whole 128 d n l }).put r.slot r.gen d (slice r.data 0 n) r.poison).answer r 0 0 none
  | .wbDirty => (w.put r.slot r.gen d (slice r.data 0 128)).answer r 0 0 none
  | .wrPartial =>
    let f := bits r.opspec 4 0
    (w.put r.slot r.gen (d + f) (slice r.data f (bits r.opspec 10 5)) r.poison).answer r 0 0 none
  | .atomic =>
    let old := w.get r.slot r.gen d n
    if bad then
      let (j, w) := w.junk 32
      w.answer r 1 0 (some j)
    else
      let v := atomicValue (bits r.opspec 3 0) n (leNat old) (leNat (slice r.data 0 n)) (leNat (slice r.data n n))
      (w.put r.slot r.gen d (leBytes n v)).answer r 0 0 (some (old ++ List.replicate (32 - n) 0))
  | .reduce =>
    let old := w.get r.slot r.gen d n
    let spoilt := (partsOf 128 d n).filter fun l => r.poison || l ∈ w.mem.poison
    let w := match w.tallyUnit d with | some u => w.count 9 u (bits r.opspec 4 2) | none => w
    let w := w.put r.slot r.gen d (tallyBytes r.opspec old (slice r.data 0 n))
    let w := each spoilt (fun l w => w.op (.poison l)) w
    let w := if bad then w.log { cls := 0x0A, sev := 2, cause := 1, unit := (w.tallyUnit d).getD 0, berth := some r.berth, addr := d } else w
    w.answer r 0 0 none
  | _ =>
    if bad then
      let (j, w) := w.junk n
      (w.ungrant r).answer { r with grant := 0 } 1 0 (some j)
    else
      w.answerRead r (withForwarded r d n (w.get r.slot r.gen d n))

end Sys2Proof.Machine
end

