-- ==== Sys2Proof/Machine/Checks.lean ====
section
/-! DEFINITION. Check granules (R309, R310): where the granules of a region lie on a channel, and what a check granule holds. -/

namespace Sys2Proof.Machine

/-- One bit step of the CRC-16/CCITT: polynomial 0x1021, most significant bit first (R310). -/
def crc16Bit (c : Nat) : Nat := if bit c 15 then (2 * c % 65536) ^^^ 0x1021 else 2 * c

/-- One byte step. -/
def crc16Byte (c : Nat) (b : Byte) : Nat := (List.range 8).foldl (fun x _ => crc16Bit x) (c ^^^ b.toNat * 256)

/-- The CRC-16/CCITT of a byte string, from 0xFFFF, not reflected (R310). -/
def crc16 (bs : List Byte) : Nat := bs.foldl crc16Byte 0xFFFF

/-- A granule as its devices store it: encrypted under its key (R310, R439). -/
def Work.storedBytes (w : Work) (g : Nat) : List Byte :=
  (List.range 256).map fun i => Config.cipher (w.tagOf (g * 256)) (g * 256 + i) (w.mem.byte (g * 256 + i))

/-- Data granules that a check granule guards, and the first of them, for block m of a channel's share (R309). -/
def guarded (cls : Nat) : Nat := if cls = 0 then 31 else 7

/-- Poison bits of a block's data granules, one for each line, lowest granule and line first (R310). -/
def Work.poisonBits (w : Work) (r c cls m : Nat) : Nat :=
  pack ((List.range (2 * guarded cls)).map fun i => (1, b2n ((2 * granuleAt r c (m * guarded cls + i / 2) + i % 2) ∈ w.mem.poison)))

/-- The 256 bytes of the check granule of block m of a channel in a region, by the region's class (R310). -/
def Work.checkGranule (w : Work) (r c m : Nat) : List Byte :=
  let cls := (w.region r).cls
  let data (j : Nat) : List Byte := w.storedBytes (granuleAt r c (m * guarded cls + j))
  if cls = 0 then
    (List.range 31).flatMap (fun j => leBytes 2 (crc16 (data j))) ++ leBytes 8 (w.poisonBits r c cls m) ++ List.replicate 186 0
  else
    (List.range 7).flatMap (fun j => (List.range 2).flatMap fun h => (List.range 16).map fun i => Config.symbol (slice (data j) (128 * h) 128) i)
      ++ leBytes 32 (w.poisonBits r c cls m)

end Sys2Proof.Machine
end

