-- ==== Sys2Proof/Machine/Controllers.lean ====
section
/-! DEFINITION. The queues of the channel controllers and of the Hold, and which of their requests is served next (R315, R317, R318, R339). -/

namespace Sys2Proof.Machine

/-- A request that only reads its memory. -/
def isRead (r : MemReq) : Bool := !(endsCopies r.kind || r.kind = .wbDirty)

/-- Where a request queues at its memory: at the Hold die that holds it, or at the controller of its channel. -/
inductive Ctl where
  | hold (die : Nat)
  | channel (c : Nat)
  deriving DecidableEq, Repr

/-- The queue of a DPA; host memory has none that R317 orders. -/
def Work.ctlOf (w : Work) (d : Nat) : Option Ctl :=
  match w.holdRow d with
  | some (p, _) => some (.hold (p / 16))
  | none => if isBoard d then some (.channel (channelOf d)) else none

/-- The requests that have passed the check at a controller or a Hold die and wait there (R315). -/
def Work.queueOf (w : Work) (k : Ctl) : List MemReq := (w.hub.fabric.reqs.map (·.2)).filter fun r => r.queued.isSome && w.ctlOf r.dpa = some k

/-- One request has come to its memory before another. -/
def cameBefore (x r : MemReq) : Bool := x.queued.getD 0 < r.queued.getD 0

/-- What has come first is served first: of a granule that one of the two writes, and of one source's requests for a line (R317, R318). -/
def Work.keepsBack (w : Work) (x r : MemReq) : Bool :=
  cameBefore x r && x.dpa / 256 = r.dpa / 256 && (!isRead x || !isRead r || (w.reqFrom x = w.reqFrom r && sharesLine x r))

/-- Reads of priority 3 and the hub's own traffic (R317, R334, R339). -/
def ownTraffic (r : MemReq) : Bool := r.agent = .hub || (isRead r && 3 ≤ r.prio)

/-- The group of a request has positive credit at a channel (R338, R339). -/
def Work.credited (w : Work) (c : Nat) (r : MemReq) : Bool :=
  let i := w.groupOf r.berth * 10
  (tfind w.hub.bwr.recs i).isSome && 0 < w.creditNow i c

/-- The order of reads: the hub's own, then by priority, in each the credited groups first (R317, R339). -/
def Work.readClass (w : Work) (c : Nat) (r : MemReq) : Nat :=
  if ownTraffic r then 8 else 2 * min r.prio 2 + b2n (w.credited c r)

/-- WEIGHT of a group at the channels; W0 for RG0 and for a group without a record (R335, R339; log 147). -/
def Work.weight (w : Work) (g : Nat) : Nat :=
  match tfind w.hub.bwr.recs (g * 10) with
  | some r => if g = 0 then w.hub.bwr.w0 else r.weight
  | none => w.hub.bwr.w0

/-- Reads of a group that a channel has served in the present round. -/
def Work.servedOf (w : Work) (c g : Nat) : Nat := tget 0 w.hub.bwr.served (c * 64 + g)

/-- The round is over for some groups that wait: each has had its WEIGHT of reads. -/
def Work.roundOver (w : Work) (c : Nat) (gs : List Nat) : Bool := gs.all fun g => w.weight g ≤ w.servedOf c g

/-- A read of the remaining service may go among those of its class: in arrival order in its group, the groups by weighted round robin (R339). -/
def Work.hasTurn (w : Work) (c : Nat) (same : List MemReq) (r : MemReq) : Bool :=
  let g := w.groupOf r.berth
  (same.all fun x => w.groupOf x.berth = g → !cameBefore x r)
    && (w.servedOf c g < w.weight g || w.roundOver c (g :: same.map fun x => w.groupOf x.berth))

/-- A read in a channel's queue is the next (R317, R339): within a drain of writes, the hub's own alone. -/
def Work.readNext (w : Work) (c : Nat) (q : List MemReq) (r : MemReq) : Bool :=
  let k := w.readClass c r
  let reads := q.filter isRead
  let same := reads.filter fun x => w.readClass c x = k
  (k = 8 || !(w.channel c).draining) && reads.all (fun x => w.readClass c x ≤ k)
    && if k % 2 = 1 || k = 8 then same.all fun x => !cameBefore x r else w.hasTurn c same r

/-- A write in a channel's queue is the next (R317, R339): in a drain or when no read is ready; the hub's own first, in a drain those of credited groups before others. -/
def Work.writeNext (w : Work) (c : Nat) (q : List MemReq) (r : MemReq) : Bool :=
  let drain := (w.channel c).draining
  let cls (x : MemReq) : Nat := if ownTraffic x then 2 else b2n (drain && w.credited c x)
  q.all fun x => if isRead x then drain && !ownTraffic x else cls x < cls r || (cls x = cls r && !cameBefore x r)

/-- A request in a queue is the next to be served among the ready ones there. The Hold serves priority 3 first, and otherwise in arrival order (R317). -/
def Work.isNext (w : Work) (r : MemReq) : Bool :=
  match w.ctlOf r.dpa with
  | none => true
  | some k =>
    let q := w.queueOf k
    let ready := (q.filter fun x => !w.memBusy x.dpa).erase r
    !(q.any fun x => w.keepsBack x r) && match k with
      | .hold _ => ready.all fun x => if ownTraffic x = ownTraffic r then !cameBefore x r else ownTraffic r
      | .channel c => if isRead r then w.readNext c ready r else w.writeNext c ready r

/-- Entries of a channel's queue: 128 for reads, 64 for writes (R317). -/
def queueDepth (read : Bool) : Nat := if read then 128 else 64

/-- Entries of a channel's queue that a group holds for itself under MODE 1 or 3 (R339). -/
def reserveOf (g : Guar) (read : Bool) : Nat := if g.mode % 2 = 0 then 0 else if read then g.qshare else ceilDiv g.qshare 2

/-- A channel's queue has room for a request: an entry that no other group's reserve still holds (R317, R339). -/
def Work.hasRoom (w : Work) (r : MemReq) : Bool :=
  match w.ctlOf r.dpa with
  | some (.channel c) =>
    let q := (w.queueOf (.channel c)).filter fun x => isRead x = isRead r
    let held := (w.hub.bwr.recs.filter fun (i, _) => i % 10 = 0 && i / 10 ≠ w.groupOf r.berth).map fun (i, g) =>
      reserveOf g (isRead r) - (q.filter fun x => w.groupOf x.berth = i / 10).length
    q.length + held.sum < queueDepth (isRead r)
  | _ => true

/-- The drain of a channel's write queue begins at 48 entries and goes on until 16 remain (R317). -/
def Work.drainState (w : Work) (d : Nat) : Work :=
  if !isBoard d then w
  else
    let c := channelOf d
    let n := ((w.queueOf (.channel c)).filter fun x => !isRead x).length
    let old := (w.channel c).draining
    let new := if old then 16 < n else 48 ≤ n
    if new = old then w else w.onChannel c fun x => { x with draining := new }

/-- The weighted turn moves on as a channel serves a read of the remaining service (R339). -/
def Work.takeTurn (w : Work) (r : MemReq) : Work :=
  match w.ctlOf r.dpa with
  | some (.channel c) =>
    let k := w.readClass c r
    if !isRead r || k % 2 = 1 || k = 8 then w
    else
      let g := w.groupOf r.berth
      let waiting := (w.queueOf (.channel c)).filter fun x => isRead x && !w.memBusy x.dpa && w.readClass c x = k
      let ended := w.roundOver c (g :: waiting.map fun x => w.groupOf x.berth)
      w.onBwr fun b => { b with served := tmod 0 (if ended then b.served.filter fun (i, _) => i / 64 ≠ c else b.served) (c * 64 + g) (· + 1) }
  | _ => w

/-- What refuses a request at its memory: the check as it arrives; of one that has passed it only that its memory is lost (R314, R315, R601). The hub's own accesses need no owner. -/
def Work.refuses (w : Work) (r : MemReq) : Option (Nat × Nat) :=
  if r.kind = .wbDirty && isHost r.dpa && w.portUp (hostPort r.dpa) then none
  else (w.accessCheck r.berth r.dpa).filter fun a => !(a.1 = 3 && (r.queued.isSome || r.agent = .hub))

/-- A request that has passed the check stands in its controller's queue. -/
def Work.enqueue (w : Work) (id : Nat) (r : MemReq) : MemReq × Work :=
  if r.queued.isSome then (r, w)
  else
    let r := { r with queued := some w.hub.memory.arrivals }
    (r, ((w.onMem fun m => { m with arrivals := m.arrivals + 1 }).onFabric fun f => { f with reqs := tset f.reqs id r }).drainState r.dpa)

/-- A request at its memory (R298, R303, R314-R318, R339): refused by status, queued while there is room, served in its turn. -/
def Work.atController (w : Work) (id err : Nat) (r : MemReq) : Work :=
  let drop (w : Work) : Work := w.onFabric fun f => { f with reqs := tdel f.reqs id }
  match w.refuses r with
  | some (s, d) => ((((drop w).bmeCount r.dpa s).ungrant r).answer { r with grant := 0 } s d none).drainState r.dpa
  | none =>
    if r.queued.isNone && !w.hasRoom r then w
    else
      let (r, w) := w.enqueue id r
      if w.memBusy r.dpa || !w.isNext r then w
      else
        let (go, w) := w.accessError r err
        if !go then w else ((drop (w.takeTurn r)).perform r).drainState r.dpa

end Sys2Proof.Machine
end

