-- ==== Sys2Proof/Machine/MemCmds.lean ====
section
/-! DEFINITION. The commands of the Hold, board memory and Tally units (10): requests at their controller, ageing, retrains, refresh, temperatures, reloads, failures, zeroing and purges. -/

namespace Sys2Proof.Machine

/-- CONTROLLER_REQUEST: a request comes to its controller or is served there in its turn, or a read of a dense view whose stored bytes have come. -/
def execControllerRequest (id err : Nat) (s : State) : Host.Outcome State Fault Refusal :=
  s.run fun w =>
    match tfind w.hub.fabric.reqs id with
    | none => w.unpackAgain id
    | some r => if !r.atHome || !w.injected id || (r.queued.isNone && (w.behind r || w.memBehind id r)) then w else w.atController id err r

/-- READ_AGEING: a read that has waited rises one priority, up to 2 (R317). -/
def execReadAgeing (id : Nat) (s : State) : Host.Outcome State Fault Refusal :=
  s.run fun w =>
    match tfind w.hub.fabric.reqs id with
    | none => w
    | some r =>
      if r.queued.isNone || !isRead r || 2 ≤ r.prio then w
      else w.onFabric fun f => { f with reqs := tset f.reqs id { r with prio := r.prio + 1 } }

/-! ## Channels (R306, R307, R312, R324, R325, R601) -/

/-- A channel fails in service or is taken out (R601). -/
def Work.channelFail (w : Work) (c : Nat) : Work :=
  if 128 ≤ c || !channelServes (w.channel c) then w
  else
    let w := w.onChannel c fun x => { x with isolated := true, retraining := false, draining := false }
    let w := each (w.hub.memory.hold.filter fun l => channelOf (l.granule * 256) = c) (fun l w => w.discardLine l) w
    let owners := ((w.hub.memory.owner.map fun (b, _) => w.ownersOf (b * 65536)).flatten).foldl addTo []
    let w := w.log { cls := 0x0A, sev := 3, cause := 0, unit := c }
    let w := (each owners (fun b w => w.viewCount b 9) w).irqs (w.portsOf owners) 5
    (w.spillLost fun g => channelOf (g * 256) = c).derate

/-- CHANNEL_FAILURE. -/
def execChannelFailure (channel : Nat) (s : State) : Host.Outcome State Fault Refusal := s.run fun w => w.channelFail channel

/-- CHANNEL_RETRAIN_DONE: `rate` is the highest at which the channel trains; the channel serves again at the rate it trained; one that fails at 28 Gb/s is failed (R306, R307). -/
def execChannelRetrainDone (channel : Nat) (ok : Bool) (rate : Nat) (s : State) : Host.Outcome State Fault Refusal :=
  s.run fun w =>
    if !(w.channel channel).retraining then w
    else match (if ok then trainedRate w.hub.memory.rateRun rate else none) with
    | none => w.channelFail channel
    | some r =>
      let w := w.onChannel channel fun x => { x with retraining := false, rate := r }
      let w := if r < w.hub.memory.rateRun then w.log { cls := 0x0A, sev := 1, cause := 0x8015, unit := channel, detail := r } else w
      w.derate

/-- The bin of a refresh group, 0 to 3 for 1, 2, 4 and 8 times the base interval (R324, R325). -/
def Work.refreshBin (w : Work) (c g : Nat) : Nat :=
  let x := w.channel c
  if x.base1 then 0
  else match tfind x.bins g with
    | some _ => 0
    | none => Config.retention c g % 4

/-- REFRESH: a per-bank refresh command is issued and counted by its bin (R324, R332). -/
def execRefresh (channel group : Nat) (s : State) : Host.Outcome State Fault Refusal :=
  s.run fun w => if channel < 128 && channelServes (w.channel channel) then w.count 7 channel (13 + w.refreshBin channel group) else w

/-- DEVICE_TEMPERATURE_REPORT: over the limit, or more than 5 C over the test, the channel returns to the base interval (R325). -/
def execDeviceTemperatureReport (channel temp : Nat) (s : State) : Host.Outcome State Fault Refusal :=
  s.run fun w => w.onChannel channel fun x =>
    { x with temp := temp, base1 := x.base1 || w.hub.memory.rfshTlimit < temp || x.testTemp + 5 < temp }

/-- TEMPERATURE_RECOVERY: 3 C below the limit for 1 s, the channel returns to its profile (R325). -/
def execTemperatureRecovery (channel : Nat) (s : State) : Host.Outcome State Fault Refusal :=
  s.run fun w => if (w.channel channel).temp + 3 ≤ min w.hub.memory.rfshTlimit ((w.channel channel).testTemp + 5) then w.onChannel channel fun x => { x with base1 := false } else w

/-! ## Reloads (R330, R413) -/

/-- RELOAD_COMPLETE: the origin has been read; the block is written whole, or the origin could not be read. -/
def execReloadComplete (block : Nat) (s : State) : Host.Outcome State Fault Refusal :=
  s.run fun w =>
    match w.hub.memory.reloads.find? fun r => r.block = block && r.running with
    | some r => w.reloadEnd block (w.originReads r)
    | none => w

/-- RELOAD_TIMEOUT: the origin could not be read within 10 ms. -/
def execReloadTimeout (block : Nat) (s : State) : Host.Outcome State Fault Refusal := s.run fun w => w.reloadEnd block false

/-- RELOAD (R413): every named block under an origin record of its group is reloaded; the others count as failed. -/
def execReload (e : EntryRef) (s : State) : Host.Outcome State Fault Refusal :=
  s.run fun w => w.command e 0x1C true fun x w =>
    let dpa := bits x 179 128
    let n := bits x 287 256
    if !w.blocksInPool e dpa n then w.complete e stBadIdent
    else if dpa % 65536 ≠ 0 then w.complete e stBadShape
    else
      let blocks := (List.range n).map (· + dpa / 65536)
      let go := blocks.filterMap fun b => if !w.channelLost then (w.originOf b).map fun o => (b, o) else none
      let failed := n - go.length
      if go = [] then w.complete e stOk 0 (failed * 2 ^ 32)
      else
        let w := w.onRing e.berth e.ring fun r => { r with started := r.started.map fun y =>
          if y.index = e.index then { y with progress := 1 + failed * 2 ^ 32 } else y }
        each go (fun (b, o) w => w.reloadAsk b o (some e)) w

/-! ## The Hold (R300-R305) -/

/-- A Hold die fails in service (R302): isolated, its partitions OFF, its lines of blocks with dirty bits poisoned. -/
def Work.dieFail (w : Work) (die : Nat) : Work :=
  if 3 ≤ die || die ∈ w.hub.memory.diesOut then w
  else
    let blocks := ((w.hub.memory.hold.filter fun l => l.dirty0 || l.dirty1).map fun l => l.granule / 256).foldl addTo []
    let w := w.onMem fun m => { m with diesOut := addTo m.diesOut die, hold := m.hold.filter fun l => dieOf l.granule ≠ die,
                                       parts := m.parts.map fun (p, x) => (p, if p / 16 = die then {} else x) }
    let w := each blocks (fun b w =>
      let lines := ((List.range 256).map (· + b * 256)).filter fun g => dieOf g = die
      match lines with
      | [] => w
      | g :: rest =>
        let w := each (g :: rest) (fun g w => (w.op (.poison (2 * g))).op (.poison (2 * g + 1))) w
        if bits (w.ownerOf (b * 65536)) 15 14 = 2 then w.uncorrectable (g * 256) 4 else w.memFault (g * 256) 4 0) w
    (w.log { cls := 9, sev := 3, cause := 0, unit := die }).derate

/-- HOLD_DIE_FAILURE. -/
def execHoldDieFailure (die : Nat) (s : State) : Host.Outcome State Fault Refusal := s.run fun w => w.dieFail die

/-- A partition's new mode and holder take effect and BUSY clears (R300, R303). -/
def Work.partSettles (w : Work) (p : Nat) : Work :=
  w.onMem fun m => { m with parts := tmod {} m.parts p fun x => { mode := x.nextMode, holder := x.nextHolder, nextMode := x.nextMode, nextHolder := x.nextHolder } }

/-- Drop every Hold line that a test picks, dirty sectors discarded (R304). -/
def Work.purgeLines (w : Work) (pick : HoldLine → Bool) : Work := each (w.hub.memory.hold.filter pick) (fun l w => w.discardLine l) w

/-- Started entries of a command that run, by a test of their words. -/
def Work.runningOf (w : Work) (op : Nat) (pick : Nat → Bool) : List EntryRef :=
  w.hub.ten.rings.flatMap fun (k, r) =>
    (r.started.filter fun x => !r.px2 && x.progress ≠ 0 && bits x.word 7 0 = op && pick x.word).map fun x => { berth := k / 4, ring := k % 4, index := x.index }

/-- HOLD_PURGE: every line of a berth is invalidated, dirty sectors discarded; meanwhile the berth's requests are not allocated (R304). -/
def execHoldPurge (e : EntryRef) (s : State) : Host.Outcome State Fault Refusal :=
  s.run fun w => w.command e 0x1D true fun x w =>
    let b := bits x 269 256
    if !w.berthInPool e b then w.complete e stBadIdent
    else (w.purgeLines fun l => l.berth = b).onMem fun m => { m with purging := addTo m.purging b }

end Sys2Proof.Machine
end

