-- ==== Sys2Proof/Machine/PackCmds.lean ====
section
/-! DEFINITION. The pack commands (R156-R159, R178). -/

namespace Sys2Proof.Machine

def stPackBusy : Nat := 0x17
def stPackOverlap : Nat := 0x18

/-- Dense granules of one row of tiles: a tile has 32 rows and 32 columns (R166). -/
def tileRowGranules (p : Pack) : Nat := packCols p * tileGranules (packType p)

/-- Row 5 of R157. -/
def packShape (p : Pack) : Bool :=
  let f := packFmt p
  let t := packType p
  1 ≤ f && f ≤ 5 && t ≤ 11 && !(f = 5 && isMx t) && packDense p % 65536 = 0 && packCount p ≠ 0
    && (f = 3 || packCols p = 0) && (f ≠ 5 || packStore p = 0) && (f = 3 || f = 4 || packIndex p = 0)
    && (f ≠ 3 || (packCols p ≠ 0 && packCount p % tileRowGranules p = 0))

/-- Two dense views have an address in common. -/
def packsMeet (p q : Pack) : Bool :=
  packDense p < packDense q + 256 * packCount q && packDense q < packDense p + 256 * packCount p

/-- PACK_INSTALL (R157): the first failing check of the table completes the command. -/
def execPackInstall (e : EntryRef) (s : State) : Host.Outcome State Fault Refusal :=
  s.run fun w => w.command e 0x10 false fun x w => w.withStructure e x 64 fun i w =>
    let p : Pack := { berth := bits i 45 32, word := i }
    let n := bits i 27 16
    if bits i 15 0 ≠ 1 then w.complete e stBadVersion
    else if 4096 ≤ p.berth || (!w.hub.board.berthsHigh && 256 ≤ p.berth) then w.complete e stBadIdent
    else if p.berth ≠ e.berth || w.holder 7 n ≠ some e.berth then w.complete e stNotOwner
    else if (tfind w.hub.packs n).isSome then w.complete e stPackBusy
    else if !packShape p then w.complete e stBadShape
    else if w.hub.packs.any (fun (_, q) => q.berth = p.berth && packsMeet p q) then w.complete e stPackOverlap
    else (w.onHub fun h => { h with packs := tset h.packs n p }).complete e stOk

/-- New reads of a descriptor's view stop (R159). -/
def Work.packRemove (w : Work) (n : Nat) (e : Option EntryRef) : Work :=
  match tfind w.hub.packs n with
  | some p => w.onHub fun h => { h with packs := tset h.packs n { p with removing := true, removeEntry := e } }
  | none => w

/-- PACK_REMOVE (R159): of a number not granted NOT_OWNER, of one with nothing installed NOT_INSTALLED (R407). -/
def execPackRemove (e : EntryRef) (s : State) : Host.Outcome State Fault Refusal :=
  s.run fun w => w.command e 0x11 false fun x w =>
    let n := bits x 267 256
    if w.holder 7 n ≠ some e.berth then w.complete e stNotOwner
    else match tfind w.hub.packs n with
      | some p => if p.removing then w.complete e stNotInstalled else w.packRemove n (some e)
      | none => w.complete e stNotInstalled

/-- A read that used a descriptor has not been answered (R159). -/
def Work.packBusy (w : Work) (n : Nat) : Bool :=
  let mine (r : MemReq) : Bool := r.pack = some n
  w.hub.fabric.reqs.any (fun (_, r) => mine r) || w.hub.ledger.waits.any (fun (_, q) => q.any mine)
    || w.hub.ledger.txns.any (fun (_, t) => match t.why with | .request r => mine r | _ => false)
    || w.hub.fabric.unpacks.any (fun (_, x) => x.num = n) || w.hub.wrights.any (fun (_, e) => e.accesses.any fun a => n ∈ a.packs)
    || w.hub.ports.any (fun (_, p) => p.porters.any fun (_, x) => x.queue.any fun c => n ∈ c.packs)

/-- What the unpackers hold of a descriptor's index and stored form is dropped (R159, R175). -/
def Work.packForget (w : Work) (n : Nat) : Work :=
  w.onHub fun h => { h with sites := h.sites.map fun (k, s) => (k, { s with port := { s.port with
    ixCache := s.port.ixCache.filter fun x => x.pack ≠ n, stream := s.port.stream.filter fun x => x.pack ≠ n } }) }

/-- The last read of a descriptor has been answered: it is free (R159). -/
def Work.packDrained (w : Work) (pack : Nat) : Work :=
  match tfind w.hub.packs pack with
  | some p =>
    if !p.removing || w.packBusy pack then w
    else ((w.packForget pack).onHub fun h => { h with packs := tdel h.packs pack }).completeOpt p.removeEntry stOk
  | none => w

end Sys2Proof.Machine
end

