-- ==== Sys2Proof/Machine/Recipes.lean ====
section
/-! DEFINITION. Recipes (R191-R198) and their launches (R201, R202, R410): the manifest commands, the start of a launch, the stop. -/

namespace Sys2Proof.Machine

def stRecipeBusy : Nat := 0x19

/-! ## Images (R192-R195) -/

/-- A stream descriptor (R193). -/
def streamAt (x : Nat) : Stream :=
  { space := bits x 1 0, sshift := bits x 6 2, param := bits x 14 8, etype := bits x 19 16, base := bits x 88 32,
    strides := [bits x 111 96, bits x 127 112, bits x 143 128, bits x 159 144], scaleBase := bits x 180 160 }

/-- A step (R195). -/
def stepAt (x : Nat) : Step :=
  { op := bits x 7 0, ta := bits x 11 8, td := bits x 15 12, mode := bits x 19 16, pred := bits x 21 20, sd := bits x 29 24, sa := bits x 35 30,
    sb := bits x 41 36, sc := bits x 47 42, pm := bits x 53 48, nv := bits x 67 56 + 1, imm := bits x 127 96 }

/-- Streams and steps of an image by its header (R192). -/
def streamCount (i : Nat) : Nat := bits i 62 56
def stepCount (i : Nat) : Nat := bits i 55 48 + 1

/-- Bytes of an image by its header. -/
def imageBytes (i : Nat) : Nat := 64 + 32 * streamCount i + 16 * stepCount i

/-- The recipe that an image holds. -/
def recipeAt (i : Nat) : Recipe :=
  { berth := bits i 45 32, nparam := bits i 70 64, serve := bit i 71,
    streams := (List.range (streamCount i)).map fun k => streamAt (i / 2 ^ (512 + 256 * k) % 2 ^ 256),
    steps := (List.range (stepCount i)).map fun k => stepAt (i / 2 ^ (512 + 256 * streamCount i + 128 * k) % 2 ^ 128) }

/-! ## What a step may hold (R196, R198, R214, R219-R241) -/

/-- How a step uses a stream: local data, a local mask, a device stream, either space. -/
inductive Role where
  | data | mask | device | either
  deriving DecidableEq, Repr

/-- The streams that a step uses, with their roles (R196, R212, R222, R235). -/
def stepRoles (s : Step) : List (Nat × Role) :=
  let x := bit s.mode 3
  let core : List (Nat × Role) :=
    if s.op = 0x03 then [(s.sa, .device), (s.sd, .data)] ++ if bit s.mode 0 then [(s.pm, .mask)] else []
    else if s.op = 0x04 then [(s.sa, .data), (s.sd, .device)]
    else if s.op = 0x09 then (if bit s.mode 0 then [] else [(s.sa, .data)])
    else if s.op < 0x10 then []
    else if s.op = 0x13 then [(s.sa, .data), (s.sb, .data), (s.sc, .data), (s.sd, .data)]
    else if s.op ≤ 0x16 || s.op = 0x1D || s.op = 0x35 || s.op = 0x3B || s.op = 0x58 || s.op = 0x59 then [(s.sa, .data), (s.sb, .data), (s.sd, .data)]
    else if s.op = 0x19 || s.op = 0x29 || s.op = 0x39 then [(s.sa, .data), (s.sd, .data)] ++ if x then [(s.sb, .data)] else []
    else if s.op = 0x1A then [(s.sa, .data), (s.sd, .data)] ++ if x then [] else [(s.sb, .data), (s.sc, .data)]
    else if s.op = 0x1B then [(s.sa, .data), (s.sd, .mask)] ++ if x then [] else [(s.sb, .data)]
    else if s.op = 0x1C then [(s.sa, .data), (s.sb, .data), (s.sc, .mask), (s.sd, .data)]
    else if s.op = 0x1F then [(s.sd, .data)]
    else if s.op = 0x3A then [(s.sa, .data), (s.sd, .data)] ++ if x then [(s.sb, .data), (s.sc, .data)] else []
    else if s.op = 0x44 then [(s.sa, .data), (s.sd, .mask)]
    else if s.op = 0x48 then [(s.sa, .either), (s.sb, .data), (s.sd, .data)]
    else if s.op = 0x49 then [(s.sa, .data), (s.sb, .data), (s.sd, .either)]
    else if s.op = 0x4A then [(s.sa, .data), (s.sb, .data), (s.sd, .data)]
    else if s.op = 0x4B then [(s.sa, .data), (s.sc, .mask), (s.sd, .data)]
    else if s.op = 0x50 || s.op = 0x51 then [(s.sa, .data), (s.sd, .data), (s.sc, .data)]
    else if s.op = 0x5E then [(s.sa, .data), (s.sb, .data)]
    else [(s.sa, .data), (s.sd, .data)]
  core ++ if s.pred ≠ 0 && s.op ≠ 0x03 && 0x04 ≤ s.op then [(s.pm, .mask)] else []

/-- FP32, BF16 or FP16; any float; a plain type; an element type. -/
def isWide (t : Nat) : Bool := t ≤ 2
def isFloat (t : Nat) : Bool := t ≤ 4
def isPlain (t : Nat) : Bool := t ≤ 5
def isType (t : Nat) : Bool := t ≤ 11

/-- Type combinations of R219. -/
def typesOk (s : Step) : Bool :=
  let o := s.op
  let a := s.ta
  let d := s.td
  let x := bit s.mode 3
  if o ≤ 0x12 || o = 0x15 || o = 0x16 || o = 0x17 || o = 0x18 then (isFloat a && isFloat d) || (a = 5 && d = 5)
  else if o = 0x1A then (isFloat a && isFloat d) || (a = 5 && d = 5 && !x)
  else if o = 0x13 || o = 0x14 || o = 0x19 || (0x20 ≤ o && o ≤ 0x29) || (0x38 ≤ o && o ≤ 0x3B) then isWide a && isFloat d
  else if o = 0x1B then isPlain a && d = 0
  else if o = 0x1C || o = 0x1D || o = 0x1E || o = 0x4B then isPlain a && d = a
  else if o = 0x1F then a = 0 && isPlain d && (!x || d = 0)
  else if o = 0x30 || o = 0x31 || o = 0x34 || o = 0x35 then (isFloat a && (d = 0 || d = 1)) || (a = 5 && d = 5)
  else if o = 0x32 || o = 0x33 then (isFloat a && (d = a || d = 0)) || (a = 5 && d = 5)
  else if o = 0x40 then isPlain a && isPlain d
  else if o = 0x41 then isWide a && isMx d && isType d
  else if o = 0x42 then isMx a && isType a && isWide d
  else if o = 0x43 then isMx a && isMx d && isType a && isType d
  else if o = 0x44 then isType a && d = 0
  else if o = 0x48 || o = 0x49 then isType a && d = a
  else if o = 0x4A then a = 0 && d = 0
  else if o = 0x50 || o = 0x51 then (isFloat a || a = 5) && d = a
  else if o = 0x58 || o = 0x59 then (1 ≤ a && isType a) && d = 0
  else if o = 0x5E then (a = 0 || a = 1) && d = 0
  else true

/-- MODE values of R196 and of the catalogue's sections. -/
def modeOk (s : Step) : Bool :=
  let o := s.op
  let m := s.mode
  let x := bit m 3
  if o = 0x01 || o = 0x08 || o = 0x09 then m < 2
  else if o = 0x03 then m < 4
  else if o = 0x05 || o = 0x06 then m < 3
  else if o < 0x10 then m = 0
  else if o ≤ 0x12 || o = 0x14 || o = 0x17 || o = 0x18 then !x
  else if o = 0x1B then bits m 2 0 ≠ 7
  else if o = 0x1C then m = 0
  else if o = 0x1D then m < 4
  else if o = 0x1E then m < 3
  else if 0x20 ≤ o && o ≤ 0x27 then !x
  else if o = 0x3B || o = 0x40 || o = 0x42 then !x
  else if o = 0x41 || o = 0x43 then m < 4
  else if o = 0x44 then m = 0 || m = 8
  else if o = 0x48 || o = 0x49 then m < 3
  else if o = 0x4A then m < 4
  else if o = 0x4B then m = 0
  else if o = 0x50 || o = 0x51 then m < 2
  else if o = 0x58 || o = 0x59 then !x
  else if o = 0x5E then m < 4
  else true

/-- Codes that R196 and R212 list. -/
def opListed (o : Nat) : Bool :=
  o ≤ 0x09 || o = 0x0F || (0x10 ≤ o && o ≤ 0x29) || (0x30 ≤ o && o ≤ 0x35) || (0x38 ≤ o && o ≤ 0x3B) || (0x40 ≤ o && o ≤ 0x44)
    || (0x48 ≤ o && o ≤ 0x4B) || o = 0x50 || o = 0x51 || o = 0x58 || o = 0x59 || o = 0x5E

/-- Operators that take PRED 0 only (R220). -/
def predOk (s : Step) : Bool :=
  s.pred < 3 && (s.pred = 0 || !(s.op = 0x03 || s.op = 0x41 || s.op = 0x43 || s.op = 0x44 || s.op = 0x4B || s.op = 0x5E))

/-- Shapes that depend on the immediate and NV (R225, R237, R239). -/
def immOk (s : Step) : Bool :=
  if 0x30 ≤ s.op && s.op ≤ 0x35 then bit s.mode 3 || bits s.imm 6 0 < (if s.ta = 5 && s.td = 5 && s.op ≠ 0x32 && s.op ≠ 0x33 then 32 else lanes s.td)
  else if s.op = 0x50 then bits s.imm 7 0 + 1 ≤ s.nv * lanes s.ta
  else if s.op = 0x58 || s.op = 0x59 then s.nv * lanes s.ta = 1024
  else true

/-- A stream of a recipe fits a role. -/
def roleOk (r : Recipe) (x : Nat × Role) : Bool :=
  match r.streams[x.1]? with
  | none => false
  | some s =>
    match x.2 with
    | .data | .mask => s.space = 0
    | .device => s.space = 1
    | .either => true

/-- Loops balance and nest at most four deep (R198). -/
def loopsOk : List Step → Nat → Bool
  | [], d => d = 0
  | s :: r, d => if s.op = 1 then d < 4 && loopsOk r (d + 1) else if s.op = 2 then 0 < d && loopsOk r (d - 1) else loopsOk r d

/-- Row 5 of R198. -/
def recipeShape (r : Recipe) : Bool :=
  r.nparam ≤ 64 && r.streams.length ≤ 64
    && r.streams.all (fun s => s.space < 2 && s.sshift ≤ 30 && s.param ≤ r.nparam && (s.space = 0 || isType s.etype))
    && loopsOk r.steps 0
    && r.steps.all fun s => opListed s.op && predOk s && modeOk s && (s.op < 0x10 || typesOk s) && immOk s && (stepRoles s).all (roleOk r)
        && (r.serve || !(s.op = 0x08 || s.op = 0x09))

/-- Kind and number of the Helm object that a step names (R196). -/
def stepObject (s : Step) : Option (Nat × Nat) :=
  if s.op = 0x05 then some (if s.mode = 0 then 2 else if s.mode = 1 then 3 else 4, bits s.imm 11 0)
  else if s.op = 0x06 then some (if s.mode < 2 then 2 else 4, bits s.imm 11 0)
  else none

/-- Objects of a kind on this part. -/
def objectCount (kind : Nat) : Nat := if kind = 2 then 4096 else if kind = 3 then 1024 else 512

/-- Row 2 of R198 and R241 for a step: what it names exists, and a GATE's origin engine has not failed at this start (R6, R534). -/
def Work.stepIdent (w : Work) (s : Step) : Bool :=
  (match stepObject s with | some (k, o) => o < objectCount k | none => true) && (s.op ≠ 0x5E || (bits s.imm 4 0 < 16 && !(w.bearing (bits s.imm 4 0)).out))

/-! ## Manifest commands (R191, R198, R202) -/

/-- RECIPE_INSTALL (R198). -/
def execRecipeInstall (e : EntryRef) (s : State) : Host.Outcome State Fault Refusal :=
  s.run fun w => w.command e 0x04 false fun x w => w.withStructure e x 64 fun h w =>
    w.withStructure e x (imageBytes h) fun i w =>
      let r := recipeAt i
      let n := bits i 25 16
      if bits i 15 0 ≠ 1 then w.complete e stBadVersion
      else if 4096 ≤ r.berth || (!w.hub.board.berthsHigh && 256 ≤ r.berth) || !r.steps.all w.stepIdent then w.complete e stBadIdent
      else if r.berth ≠ e.berth || w.holder 5 n ≠ some e.berth
          || r.steps.any (fun s => match stepObject s with | some (k, o) => w.holder k o ≠ some r.berth | none => false) then w.complete e stNotOwner
      else if (tfind w.hub.recipes n).isSome then w.complete e stRecipeBusy
      else if !recipeShape r then w.complete e stBadShape
      else (w.onHub fun h => { h with recipes := tset h.recipes n r }).complete e stOk

/-- A recipe's removal begins (R191). -/
def Work.recipeRemove (w : Work) (n : Nat) (e : Option EntryRef) : Work :=
  match tfind w.hub.recipes n with
  | some r => w.onHub fun h => { h with recipes := tset h.recipes n { r with removing := true, removeEntry := e } }
  | none => w

/-- RECIPE_REMOVE (R191). -/
def execRecipeRemove (e : EntryRef) (s : State) : Host.Outcome State Fault Refusal :=
  s.run fun w => w.command e 0x05 false fun x w =>
    let n := bits x 265 256
    if w.holder 5 n ≠ some e.berth then w.complete e stNotOwner
    else match tfind w.hub.recipes n with
      | some r => if r.removing then w.complete e stNotInstalled else w.recipeRemove n (some e)
      | none => w.complete e stNotInstalled

/-- An engine runs a recipe, or a queued launch names it. -/
def Work.recipeBusy (w : Work) (n : Nat) : Bool :=
  w.hub.wrights.any fun (_, x) =>
    x.queue.any (fun l => l.recipe = n) || (match x.run with | some r => r.launch.recipe = n | none => false)

/-- The slot of a recipe being removed is freed once nothing names it; no step buffer keeps it. -/
def Work.recipeFree (w : Work) (n : Nat) : Work :=
  match tfind w.hub.recipes n with
  | some r =>
    if !r.removing || w.recipeBusy n then w
    else (w.onHub fun h => { h with recipes := tdel h.recipes n, wrights := h.wrights.map fun (k, x) =>
      (k, if x.resident = some n then { x with resident := none } else x) }).completeOpt r.removeEntry stOk
  | none => w

/-- A launch body (R410). -/
def launchAt (e : EntryRef) (x : Nat) : Launch :=
  { entry := e, berth := e.berth, recipe := bits x 145 136, param := bits x 216 160, startMark := bits x 235 224, startEn := bit x 236,
    startThresh := bits x 271 240, doneMark := bits x 283 272, doneEn := bit x 284, report := bits x 351 288,
    inboxBase := bits x 365 352 * 128, slots := bits x 371 366 + 1, slotBytes := bits x 381 372 * 128 }

/-- RECIPE_LAUNCH (R201, R410). -/
def execRecipeLaunch (e : EntryRef) (s : State) : Host.Outcome State Fault Refusal :=
  s.run fun w => w.command e 0x02 false fun x w =>
    let g := bits x 135 128
    let l := launchAt e x
    if 64 ≤ g || (w.wright g).failed then w.complete e stBadIdent
    else if w.holder 1 g ≠ some e.berth then w.complete e stNotOwner
    else match tfind w.hub.recipes l.recipe with
      | none => w.launchEnds g { l with report := 0 } stNotInstalled []
      | some r =>
        if r.berth ≠ e.berth || r.removing then w.launchEnds g { l with report := 0 } stNotInstalled []
        else if !r.serve && bits x 381 352 ≠ 0 then w.complete e stBadShape
        else if (w.wright g).out then w.launchEnds g { l with report := 0 } stEngineOut []
        else if 16 ≤ (w.wright g).queue.length then w.launchEnds g { l with report := 0 } stEngineBusy []
        else
          let head := (w.wright g).queue = []
          let w := w.onWright g fun y => { y with queue := y.queue ++ [l] }
          if head then w.headWait g else w

/-- The status of a launch whose parameter block could not be read (R209). -/
def paramStatus (s : Nat) : Nat := if s = 4 || s = 7 || s = 8 then statusOf s else stParamFault

/-- The launch of an engine begins: its parameters are read, and step 0 may issue (R201). -/
def Work.launchBegins (w : Work) (x : Nat) (l : Launch) (r : Recipe) : Work :=
  let n := 8 * r.nparam
  let u := wrightUnit x
  let start (ws : List Nat) (fail : Option Nat) (w : Work) : Work :=
    let (fs, w) := w.freshes (64 - ws.length)
    let rest := fs.map (· % 2 ^ 64)
    let w := w.onWright x fun y => { y with queue := y.queue.drop 1, resident := some l.recipe, run := some { launch := l, recipe := r, params := ws ++ rest } }
    let w := (if n = 0 then w else w.dropFetch (.wright x) 0).count 2 x 0
    match fail with
    | some s => w.endRun x s
    | none =>
      if r.serve then (w.onWright x fun y => { y with inboxBase := l.inboxBase, slots := l.slots, slotBytes := l.slotBytes, stalled := false, full := false }).fillInbox x else w
  if n = 0 then start [] none w
  else match w.readDva u l.berth l.param n 1 (some (.wright x, 0)) with
    | (.wait, w) => w
    | (.bad s _ _, w) => start [] (some (paramStatus s)) w
    | (.ok d ps, w) => if ps ≠ [] then start [] (some stParamFault) w else start ((chunks 8 d).map leNat) none w

/-- An engine that does not hold a recipe must fetch it from the store, and a granule of its image there lies on a channel out of service (R308, R601). -/
def Work.imageLost (w : Work) (x n : Nat) (r : Recipe) : Bool :=
  (w.wright x).resident ≠ some n && (List.range ((64 + 32 * r.streams.length + 16 * r.steps.length + 255) / 256)).any fun i =>
    (w.channel (channelOf (w.hubBase + n * 8192 + 256 * i))).isolated

/-- RECIPE_START: the queue head starts (R201); a start mark that failed ends the launch (R256), a lost image with TARGET_DEAD (R601). -/
def execRecipeStart (w : Nat) (s : State) : Host.Outcome State Fault Refusal :=
  s.run fun k =>
    let y := k.wright w
    match y.run, y.queue with
    | none, l :: q =>
      if y.out then k
      else if l.startFailed ≠ 0 then ((k.onWright w fun y => { y with queue := q }).launchDropped w l stHelmError).headWait w
      else if l.startEn && !l.startMet then k
      else match tfind k.hub.recipes l.recipe with
        | some r =>
          if k.imageLost w l.recipe r then ((k.onWright w fun y => { y with queue := q }).launchDropped w l stTargetDead).headWait w
          else k.launchBegins w l r
        | none => ((k.onWright w fun y => { y with queue := q }).launchDropped w l stNotInstalled).headWait w
    | _, _ => k

/-- RECIPE_STOP (R202). -/
def execRecipeStop (e : EntryRef) (s : State) : Host.Outcome State Fault Refusal :=
  s.run fun w => w.command e 0x03 false fun x w =>
    let g := bits x 263 256
    if 64 ≤ g || (w.wright g).failed then w.complete e stBadIdent
    else if w.holder 1 g ≠ some e.berth then w.complete e stNotOwner
    else
      let w := w.wrightStop g stStopped
      if (w.wright g).run.isNone then w.complete e stOk
      else w.onWright g fun y => { y with stopEntries := y.stopEntries ++ [e] }

/-- A stopped recipe is over: the issued STOREs are done (R202). -/
def Work.stopComplete (k : Work) (w : Nat) : Work :=
  let y := k.wright w
  match y.run with
  | some r =>
    if r.phase = .ending && y.accesses = [] && (r.status = stStopped || r.status = stEngineOut) then
      k.runEnds w
    else k
  | none => k

end Sys2Proof.Machine
end

