-- ==== Sys2Proof/Machine/TenancyOps.lean ====
section
/-! DEFINITION. The shared operations of tenancy (15): withdrawals (R435, R436), unbinding (R432), the retirement of keys (R442), scrubs (R444), the steps of a close (R438), and what follows when something they wait for has come. -/

namespace Sys2Proof.Machine

/-- Change the tenancy. -/
def Work.onTen (w : Work) (f : Tenancy → Tenancy) : Work := w.onHub fun h => { h with ten := f h.ten }

/-! ## Withdrawals (R428, R435, R436) -/

/-- A board line lies in a block owned by a berth, or by a share group of which it is a member (R436). -/
def Work.lineOfBerth (w : Work) (b l : Nat) : Bool := isBoard (l * 128) && b ∈ w.ownersOf (l * 128)

/-- Recall from a site its lines in a berth's blocks. -/
def Work.recallFrom (w : Work) (n b : Nat) : Work :=
  let lines := (w.hub.ledger.entries.map (·.1)).filter fun l => w.lineOfBerth b l
  w.recallLines lines fun hs => hs.filter fun m => m = n

/-- The site still holds, or is asked for, a line in a berth's blocks, or has requests of the berth that were accepted (R435, R436). -/
def Work.recallOpen (w : Work) (n b : Nat) : Bool :=
  (w.site n).port.outstanding.any (fun o => o.berth = b) || w.hub.ledger.entries.any (fun (l, e) => n ∈ holdersOf e && w.lineOfBerth b l)
    || w.hub.ledger.txns.any fun (l, t) => n ∈ t.waiting && w.lineOfBerth b l

/-- A site loses a berth (R435, R436): its experts of the berth become unavailable; others stay, so the berth's lines are recalled, or it was the last, so the site leaves and starts again. -/
def Work.siteLoses (w : Work) (n b : Nat) : Work :=
  let w := w.clearMarks (fun e => e.kind = 1 && e.site = n) (some b)
  if !siteServing (w.site n) then w
  else if w.hub.ten.sites.any fun (m, c) => m = n && c ≠ b && w.siteHeld m c then
    (w.onSite n fun s => { s with recalling := addTo s.recalling b }).recallFrom n b
  else if (w.site n).power.quiescing then w
  else (w.onSite n fun s => { s with restart := true }).siteExit n 1

/-- What a withdrawal begins, by its kind (R435); kinds 9 to 11 are regions, Hold partitions and share groups that leave a pool (R428). -/
def Work.withdrawGo (w : Work) (x : Withdrawal) : Work :=
  match x.kind with
  | 0 => w.siteLoses x.item x.berth
  | 1 => (w.clearMarks fun e => e.kind = 2 && e.wright = x.item).wrightStop x.item stStopped
  | 5 => if (tfind w.hub.recipes x.item).any fun r => !r.removing then w.recipeRemove x.item none else w
  | 6 => if (w.table x.item).any fun t => !t.removing then w.tableRemove x.item none else w
  | 7 => if (tfind w.hub.packs x.item).any fun p => !p.removing then w.packRemove x.item none else w
  | 8 => w.onBwr fun y => { y with groups := tdel y.groups x.berth }
  | 9 => w.onMem fun m => { m with owner := m.owner.filter fun (b, v) => !(b / 2 ^ 14 = x.item && (bits v 15 14 = 1 || bits v 15 14 = 2)) }
  | 10 => (w.purgeLines fun l => l.part = x.item).onMem fun m => { m with parts := tmod {} m.parts x.item fun y => { y with busy := true, nextMode := 0, nextHolder := 0 } }
  | 11 => w.onMem fun m => { m with member := tdel m.member x.item }
  | k => w.helmReset k x.item

/-- The effect of a withdrawal is complete. -/
def Work.withdrawDone (w : Work) (x : Withdrawal) : Bool :=
  match x.kind with
  | 0 =>
    let s := w.site x.item
    !s.power.quiescing && !s.reclaiming && !(siteServing s && x.berth ∈ s.recalling)
  | 1 => (w.wright x.item).run.isNone
  | 5 => (tfind w.hub.recipes x.item).isNone
  | 6 => (w.table x.item).isNone
  | 7 => (tfind w.hub.packs x.item).isNone
  | 10 => !(w.part x.item).busy
  | _ => true

/-- A withdrawal ends: the item is held no more, and what waited for the last of its run goes on. -/
def Work.withdrawEnd (w : Work) (x : Withdrawal) : Work :=
  let w := w.onTen fun t => { t with withdrawals := t.withdrawals.erase x }
  let w := match x.kind with
    | 0 => (w.onTen fun t => { t with sites := t.sites.filter fun y => y ≠ (x.item, x.berth) }).onSite x.item fun s => { s with recalling := rmv s.recalling x.berth }
    | 8 => w
    | k =>
      let w := w.onTen fun t => { t with held := tdel t.held (k * 4096 + x.item) }
      if k = 1 then (w.wrightZero x.item).spillToks x.item else w
  let w := match x.entry with
    | some e =>
      if w.hub.ten.withdrawals.any fun y => y.entry = some e then w
      else match w.started e with
        | some y => w.complete e stOk 0 (y.progress - 1)
        | none => w
    | none => w
  match x.pool with
  | some p =>
    if w.hub.ten.withdrawals.any fun y => y.pool = some p then w
    else w.onTen fun t => { t with poolPartial := maskOf ((ones t.poolPartial 4).filter fun i => i ≠ p) }
  | none => w

/-- Start the withdrawal of several items; all are out of use at once (R435). -/
def Work.withdrawAll (w : Work) (xs : List Withdrawal) : Work :=
  each xs (fun x w => w.withdrawGo x) (w.onTen fun t => { t with withdrawals := t.withdrawals ++ xs })

/-- End every withdrawal whose effect is complete. -/
def Work.settleWithdrawals (w : Work) : Work := each w.hub.ten.withdrawals (fun x w => if w.withdrawDone x then w.withdrawEnd x else w) w

/-- The items of a kind that a berth holds and that no withdrawal takes yet. -/
def Work.itemsOf (w : Work) (b kind : Nat) : List Nat :=
  let l := if kind = 0 then (w.hub.ten.sites.filter fun (_, c) => c = b).map (·.1)
    else (w.hub.ten.held.filter fun (k, c) => k / 4096 = kind && c = b).map fun (k, _) => k % 4096
  l.filter fun i => !w.hub.ten.withdrawals.any fun x => x.kind = kind && x.item = i && x.berth = b

/-- Withdraw every item of a kind from a berth, for a close. -/
def Work.withdrawKind (w : Work) (b kind : Nat) : Work :=
  w.withdrawAll ((w.itemsOf b kind).map fun i => { kind := kind, item := i, berth := b })

/-- A withdrawal of a kind from a berth runs. -/
def Work.withdrawsFrom (w : Work) (b kind : Nat) : Bool := w.hub.ten.withdrawals.any fun x => x.kind = kind && x.berth = b

/-! ## Bindings (R432) -/

/-- The rings of a berth have nothing started left. -/
def Work.ringsDrained (w : Work) (b : Nat) : Bool := (List.range 4).all fun r => (w.ring b r).started = []

/-- A binding is removed: the rings are as at reset, an open job is abandoned, a locked TDI enters ERROR (R394, R432, R449). -/
def Work.unbound (w : Work) (b : Nat) : Work :=
  let w := w.tdiOfBerth b
  let w := each (List.range 4) (fun r w => w.onRing b r fun _ => {}) w
  w.onBerth b fun x => { x with bind := none, unbind := none, view := viewAbandon x.view }

/-- An unbind whose rings have drained is over. -/
def Work.settleUnbinds (w : Work) : Work :=
  each w.hub.ten.berths (fun (b, x) w =>
    match x.unbind with
    | some e => if w.ringsDrained b then (w.unbound b).complete e stOk else w
    | none => w) w

/-! ## Retirement of keys (R442) -/

/-- A request that selected a generation before its retirement is still under way: in the fabric, at a home, a placement write. -/
def Work.keyInUse (w : Work) (r : Retire) : Bool :=
  r.awaited.any (fun (a, t) => w.transferOpen a t)
    || w.allReqs.any (fun q => q.slot = r.slot && q.gen = r.gen && isBoard q.dpa)
    || w.hub.ports.any fun (_, p) => p.placing.any fun j => j.slot = r.slot && j.gen = r.gen && isBoard j.dpa

/-- A retirement ends: lines of the generation are written back and invalidated, the key is erased. -/
def Work.retireEnd (w : Work) (r : Retire) : Work :=
  let w := each (w.hub.memory.hold.filter fun l => l.slot = r.slot && l.gen = r.gen) (fun l w => w.writeBackLine l) w
  (w.onMem fun m => { m with keys := tdel m.keys (keyIx r.slot r.gen), retiring := m.retiring.erase r }).complete r.entry stOk

/-- End the retirements that wait for nothing more. -/
def Work.settleRetires (w : Work) : Work := each w.hub.memory.retiring (fun r w => if w.keyInUse r then w else w.retireEnd r) w

/-! ## Scrubs (R437, R444) -/

/-- Blocks of a run list. -/
def runsLength (l : List (Nat × Nat)) : Nat := (l.map (·.2)).sum

/-- The k-th block of a run list. -/
def nthBlock : List (Nat × Nat) → Nat → Option Nat
  | [], _ => none
  | (a, n) :: r, k => if k < n then some (a + k) else nthBlock r (k - n)

/-- A block lies in a run list. -/
def inRuns (l : List (Nat × Nat)) (b : Nat) : Bool := l.any fun (a, n) => inRun a n b

/-- Runs of a rising list of blocks. -/
def runsOf : List Nat → List (Nat × Nat)
  | [] => []
  | b :: r =>
    match runsOf r with
    | (a, n) :: t => if a = b + 1 then (b, n + 1) :: t else (b, 1) :: (a, n) :: t
    | [] => [(b, 1)]

/-- Start a scrub under a fresh key. -/
def Work.scrubStart (w : Work) (why : ScrubWhy) (runs : List (Nat × Nat)) : Work :=
  let (k, w) := w.newKey
  w.onMem fun m => { m with scrubs := tset m.scrubs m.nextJob { why := why, runs := runs, key := k }, nextJob := m.nextJob + 1 }

/-- The granule that the next burst of a scrub writes on a channel; a block has two on each (R309). -/
def scrubGranule (j : ScrubJob) (c : Nat) : Option Nat :=
  let k := tget 0 j.written c
  (nthBlock j.runs (k / 2)).bind fun b => (((List.range 256).map (· + b * 256)).filter fun g => channelOf (g * 256) = c)[k % 2]?

/-- Data granules that the check granule of a granule serves, the last of a channel's share with fewer (R309). -/
def Work.checkedWith (w : Work) (g : Nat) : List Nat :=
  let r := g / 2 ^ 22
  let n := if (w.region r).cls = 0 then 31 else 7
  let k := g % 2 ^ 22 / 128
  ((List.range n).map (· + k / n * n)).filterMap fun i => if i * 128 < usable (w.region r).cls / 256 then some (granuleAt r (channelOf (g * 256)) i) else none

/-- A check granule that serves granules outside a scrub is read first, from the channel's cache or from the channel (R444). -/
def Work.scrubCheck (w : Work) (j : ScrubJob) (g : Nat) : Work :=
  if (w.checkedWith g).all fun x => inRuns j.runs (x / 256) then w
  else
    let (hit, w) := w.checkHit g
    if hit then w else w.count 7 (channelOf (g * 256)) 3

/-- One granule is scrubbed: zeros under the scrub key, poison cleared, its Hold line dropped (R444). -/
def Work.scrubWrite (w : Work) (key g : Nat) : Work :=
  let w := w.onMem fun m => { m with hold := m.hold.filter fun l => l.granule ≠ g, tag := tset m.tag g key }
  ((w.op (.wipe (g * 256) 256)).op (.clear (2 * g))).op (.clear (2 * g + 1))

/-- A scrub is over when every channel that is not isolated has written its granules, those of a remapped one in its reserve (R312, R446, R601). -/
def Work.scrubDone (w : Work) (j : ScrubJob) : Bool :=
  (List.range 128).all fun c => (w.channel c).isolated || 2 * runsLength j.runs ≤ tget 0 j.written c

/-- The blocks of a scrub, in order, that are done: every serving channel has written its two granules of each. -/
def Work.scrubbedBlocks (w : Work) (j : ScrubJob) : Nat :=
  (List.range 128).foldl (fun n c => if (w.channel c).isolated then n else min n (tget 0 j.written c / 2)) (runsLength j.runs)

/-- Set the owner entry of a block. -/
def Work.setOwner (w : Work) (blk v : Nat) : Work := w.onMem fun m => { m with owner := if v = 0 then tdel m.owner blk else tset m.owner blk v }

/-- Set the owner entries of runs of blocks. -/
def Work.setOwners (w : Work) (runs : List (Nat × Nat)) (v : Nat) : Work :=
  each runs (fun (a, n) w => each ((List.range n).map (· + a)) (fun b w => w.setOwner b v) w) w

/-- A scrub ends, and what waited for it goes on (R413, R437). -/
def Work.scrubEnd (w : Work) (id : Nat) (j : ScrubJob) : Work :=
  let w := w.onMem fun m => { m with scrubs := tdel m.scrubs id }
  match j.why with
  | .command e => w.complete e stOk 0 (runsLength j.runs)
  | .owner e v => (w.setOwners j.runs v).complete e stOk
  | .close _ => w

/-- The blocks of an owner change whose scrub is done get their new owner, each for itself (R315, R437). -/
def Work.scrubOwns (w : Work) (id : Nat) (j : ScrubJob) : Work :=
  match j.why with
  | .owner _ v =>
    let n := w.scrubbedBlocks j
    let done := ((List.range (n - j.owned)).map (· + j.owned)).filterMap (nthBlock j.runs)
    (w.setOwners (done.map fun b => (b, 1)) v).onMem fun m => { m with scrubs := tmod {} m.scrubs id fun y => { y with owned := max y.owned n } }
  | _ => w

/-- End the scrubs that have written everything. -/
def Work.settleScrubs (w : Work) : Work := each w.hub.memory.scrubs (fun (i, j) w => if w.scrubDone j then w.scrubEnd i j else w.scrubOwns i j) w

/-- A block is under scrub until its own granules are written (R452). -/
def Work.scrubbing (w : Work) (blk : Nat) : Bool :=
  w.hub.memory.scrubs.any fun (_, j) => inRuns j.runs blk && !((List.range (w.scrubbedBlocks j)).any fun i => nthBlock j.runs i = some blk)

/-! ## Closing a berth (R438) -/

/-- Blocks of KIND 1 that name a berth, rising. -/
def Work.blocksOf (w : Work) (b : Nat) : List Nat := (w.hub.memory.owner.filter fun (_, v) => v = 2 ^ 14 + b).map (·.1)

/-- A line of the blocks or of the SCRATCH partitions of a berth (step 8). -/
def Work.closeLine (w : Work) (b l : Nat) : Bool :=
  match w.target (l * 128) with
  | .board _ => w.ownerOf (l * 128) = 2 ^ 14 + b
  | .scratch p => (w.part p).holder = b
  | _ => false

/-- Recall every tracked line of a berth that closes. -/
def Work.closeRecall (w : Work) (b : Nat) : Work := w.recallLines ((w.hub.ledger.entries.map (·.1)).filter (w.closeLine b)) id

/-- A tracked line of a berth that closes, or a transaction of one, is left. -/
def Work.closeTracked (w : Work) (b : Nat) : Bool :=
  w.hub.ledger.entries.any (fun (l, _) => w.closeLine b l) || w.hub.ledger.txns.any fun (l, _) => w.closeLine b l

/-- Ranks still open in a table close as ABORTED (R438 step 3). -/
def Work.abortTable (w : Work) (t : Nat) : Work :=
  each w.hub.bearings (fun (b, x) w => each x.recs (fun (i, r) w =>
    if r.table ≠ t || r.phase ≠ .running then w
    else
      let open_ := (List.range r.ranks.length).filter fun k => (r.ranks.getD k {}).cause.isNone
      (each open_ (fun k w => w.rankClose b i k 14) w).tokenSettle b i) w) w

/-- Bearing tables of a berth. -/
def Work.tablesOf (w : Work) (b : Nat) : List Nat := (w.hub.tables.filter fun (_, t) => t.hdr.berth = b).map (·.1)

/-- What a step of a close does when it begins. -/
def Work.closeEnter (w : Work) (b k : Nat) : Work :=
  match k with
  | 1 => each (List.range 4) (fun r w => w.ringDrain b r) w
  | 2 => w.withdrawKind b 1
  | 3 => (each (w.tablesOf b) (fun t w => if (w.table t).any fun x => !x.removing then w.tableRemove t none else w) w).onBerth b fun x => { x with closeSince := w.now }
  | 4 => w.withdrawKind b 0
  | 5 => each [2, 3, 4] (fun k w => w.withdrawKind b k) w
  | 6 => (each [5, 6, 7] (fun k w => w.withdrawKind b k) w).onBwr fun y => { y with groups := tdel y.groups b }
  | 7 => (w.onChart fun c => { c with roots := tdel c.roots b }).invalidate (.close b) { kind := 2, berth := b, nonleaf := true }
  | 8 => (w.onBerth b fun x => { x with scanned := false }).closeRecall b
  | 9 =>
    ((w.purgeLines fun l => l.berth = b).onMem fun m => { m with purging := addTo m.purging b }).onMem fun m => { m with
      parts := m.parts.map fun (p, x) => (p, if (x.mode % 2 = 1 && x.holder = b) || (x.nextMode % 2 = 1 && x.nextHolder = b) then { x with busy := true, nextMode := 0, nextHolder := 0 } else x) }
  | 10 =>
    let bs := w.blocksOf b
    let w := (w.setOwners (runsOf bs) 0).onBerth b fun x => { x with scrubbed := bs.length }
    let w := w.onMem fun m => { m with member := m.member.map fun (g, v) => (g, putBits v b b 0) }
    if bs = [] then w else w.scrubStart (.close b) (runsOf bs)
  | 12 =>
    let x := w.berth b
    let w := w.onMem fun m => { m with keys := tdel (tdel m.keys (keyIx b 0)) (keyIx b 1) }
    let w := (w.unbound b).onBerth b fun y => { y with state := .free, closeStep := 0, closeSince := 0, scanned := false, scrubbed := 0, closeEntry := {} }
    w.complete x.closeEntry stOk 0 x.scrubbed
  | _ => w

/-- A step of a close is over. -/
def Work.closeReady (w : Work) (b k : Nat) : Bool :=
  match k with
  | 2 => !w.withdrawsFrom b 1
  | 3 => w.tablesOf b = []
  | 4 => !w.withdrawsFrom b 0
  | 6 => !(w.withdrawsFrom b 5 || w.withdrawsFrom b 6 || w.withdrawsFrom b 7)
  | 7 => w.hub.chart.invals.all fun (_, v) => v.why ≠ .close b
  | 8 => (w.berth b).scanned
  | 9 => b ∉ w.hub.memory.purging && w.hub.memory.parts.all fun (_, x) => !(x.mode % 2 = 1 && x.holder = b)
  | 10 => w.hub.memory.scrubs.all fun (_, j) => j.why ≠ .close b
  | 11 => w.ringsDrained b
  | _ => true

/-- A close goes on, step by step, as far as it can. -/
def Work.closeGo (w : Work) (b : Nat) : Nat → Work
  | 0 => w
  | fuel + 1 =>
    let x := w.berth b
    if x.state ≠ .closing || !w.closeReady b x.closeStep then w
    else ((w.onBerth b fun y => { y with closeStep := y.closeStep + 1 }).closeEnter b (x.closeStep + 1)).settleWithdrawals.closeGo b fuel

/-- Every close goes on; ranks of its tables that are open 10 ms after its third step began are aborted. -/
def Work.settleCloses (w : Work) : Work :=
  each (w.hub.ten.berths.filter fun (_, x) => x.state = .closing) (fun (b, x) w =>
    let w := if x.closeStep = 3 && x.closeSince + 10000 ≤ w.now then each (w.tablesOf b) (fun t w => w.abortTable t) w else w
    w.closeGo b 12) w

/-- What waited for something that has come goes on. -/
def Work.settle (w : Work) : Work := w.importPump.settleWithdrawals.settleUnbinds.settleRetires.settleScrubs.settleCloses

/-- Run a command's effect, then what waited for it. -/
def State.runAll (s : State) (f : Work → Work) : Host.Outcome State Fault Refusal := s.run fun w => (f w).settle

/-- A wrap of a count of TLPs raises the counter-overflow interrupt where it is enabled; the message is a TLP itself, so it goes at the next microsecond (R552, R581; log 157). -/
def Work.tlpWraps (w : Work) : Work :=
  each ((List.range 4).filter fun p => (tfind w.hub.cnt (wrapKey p)).isSome) (fun p w =>
    let w := w.onHub fun h => { h with cnt := tdel h.cnt (wrapKey p) }
    if bit (w.port p).cntIrqEn 14 && w.portUp p then w.irq p 13 else w) w

/-- A microsecond passes (log 1, log 2). -/
def Work.tick (w : Work) : Work := (w.onHub fun h => { h with now := h.now + 1 }).tlpWraps.settle

end Sys2Proof.Machine
end

