-- ==== Sys2Proof/Machine/TrustOps.lean ====
section
/-! DEFINITION. The shared operations of the Purser (16): life-cycle codes (R472), measurements (R459), berth quotes (R462, R463), the checks and replies of management orders (R465-R470). -/

namespace Sys2Proof.Machine

/-- Change the Purser. -/
def Work.onPurser (w : Work) (f : Purser → Purser) : Work := w.onHub fun h => { h with purser := f h.purser }

/-! ## Life cycle (R471, R472) -/

/-- The state that a fuse code names: 0 Maker to 4 Scrapped; none is Indeterminate. -/
def lcState (code : Nat) : Option Nat :=
  if code = 0 then some 0 else if code = 0x000F then some 1 else if code = 0x00FF then some 2
  else if code = 0x0FFF then some 3 else if code = 0xFFFF then some 4 else none

/-- The state in force, 4 for Scrapped, 5 for Indeterminate. -/
def Work.lc (w : Work) : Nat := (lcState w.hub.purser.lcCode).getD 5

/-- The hub is in reset, or Scrapped or Indeterminate: only GET_IDENTITY is answered in the last two (R471, R475). -/
def Work.mute (w : Work) : Bool := !w.hub.start.hubRstN || 4 ≤ w.lc

/-- A transition is burnt, or its burn has failed, and awaits reset (R462, R474). -/
def Work.lcPending (w : Work) : Bool := match w.hub.purser.intent with | some i => !i.burning | none => false

/-! ## Digests (log 12) -/

/-- A digest, key or signature that the Purser computes, as 64 bytes. -/
def digestBytes (what : Nat) (l : List Nat) : List Byte := leBytes 64 (Config.digest what l)

/-- A warrant's numbers. -/
def warrantNats (x : Warrant) : List Nat := [x.version, x.serial, x.id, x.floor, x.sites, x.hawser, b2n x.berthsHigh, b2n x.holdScratch]

/-- SHA-512 of the system record (R493). -/
def Work.configHash (w : Work) : Nat := Config.digest 10 [w.hub.hawser.sys]

/-- The digest of a firmware section: its index in R459 and the release that runs. -/
def Work.firmware (w : Work) (i : Nat) : Nat := tget (Config.digest 2 [i, 0]) w.hub.purser.meas i

/-- What the fuse maps hold (R534). -/
def Work.fuseNats (w : Work) : List Nat :=
  let f := w.hub.start.fuses
  f.wrights ++ f.lanes ++ (f.holdRows.flatMap fun (a, b) => [a, b]) ++ f.wires.flatMap fun (k, l) => k :: l

/-- The raw 16 bytes of measurement 7: life-cycle code, pending code, debug state, the two thermometer counts. -/
def Work.meas7 (w : Work) : List Byte :=
  let p := w.hub.purser
  leBytes 16 (pack [(16, p.lcCode), (16, if w.lcPending then p.fuseCode else 0), (8, b2n p.debugOpen), (8, p.credTherm), (8, p.warrantTherm)])

/-- The raw 24 bytes that measurement 11 gives a site: its state, MAKER_ID, PART, SERIAL and CHIP_REV (R64). -/
def Work.meas11 (w : Work) (n : Nat) : List Byte :=
  let s := w.site n
  leBytes 24 (pack [(16, s.state), (16, bits s.port.cap 31 16), (32, bits s.port.cap 63 32), (64, bits s.port.cap 127 64), (16, bits s.port.cap 143 128)])

/-- The unique device secret that the Purser drew in Maker: no path reads it, and no rule gives its value (R455; log 12). -/
def Work.uds (w : Work) : Nat := Config.digest 39 [w.hub.purser.serial]

/-- The DeviceID key: the same for the life of the unit (R455). -/
def Work.deviceId (w : Work) : Nat := Config.digest 35 [w.uds]

/-- The indices of R459, ascending. -/
def measIndices : List Nat := [1, 2, 3, 4, 5, 6, 7, 8, 9, 10, 11, 12, 0x13, 0x14, 0x15, 0x16]

/-- A measurement block (R459). -/
def Work.measurement (w : Work) (i : Nat) : List Byte :=
  match i with
  | 1 => digestBytes 1 []
  | 7 => w.meas7
  | 8 => digestBytes 8 (match w.hub.purser.warrant with | some x => warrantNats x | none => [])
  | 9 => digestBytes 9 w.fuseNats
  | 10 => leBytes 64 w.configHash
  | 11 => (List.range 16).flatMap fun n => w.meas11 n
  | 12 => digestBytes 12 (w.hub.purser.creds.flatMap fun c => [c.key, c.roles])
  | i => leBytes 64 (w.firmware i)

/-- The layers of the measured identity: CDI 0 over the Purser's firmware, the life-cycle code and the debug bit, CDI 1 over measurements 3 to 6, 8 and 9, and the key that CDI 1 gives (R456). -/
def Work.identity (w : Work) : Nat :=
  let m0 := Config.digest 36 [w.firmware 2, w.hub.purser.lcCode, b2n w.hub.purser.debugAtStart]
  let m1 := Config.digest 36 ((([3, 4, 5, 6, 8, 9].flatMap w.measurement)).map BitVec.toNat)
  Config.digest 40 [Config.digest 37 [Config.digest 37 [w.uds, m0], m1]]

/-- The digest of what signs: an Ed25519 signature by the attestation key over bytes (R456). -/
def Work.signed (w : Work) (d : List Byte) : List Byte := leBytes 64 (Config.digest 41 (w.hub.purser.aliasKey :: d.map BitVec.toNat))

/-- The certificates of a chain (R457); the attestation certificate ends it. -/
def Work.chain (w : Work) (slot : Nat) : List Byte :=
  let bytes (k : Nat) (l : List Nat) : List Byte := (List.range (Config.digest k l)).map fun i => BitVec.ofNat 8 (Config.digest (k + 1) (i :: l))
  (if slot = 0 then bytes 30 [w.deviceId] else w.hub.purser.slot1) ++ bytes 32 [w.deviceId, w.hub.purser.aliasKey]

/-! ## Berth quotes (R462, R463) -/

/-- Items of a kind of R463 that a berth has, rising. -/
def Work.quoteItems (w : Work) (b kind : Nat) : List Nat :=
  match kind with
  | 0 => (List.range 16).filter fun n => (n, b) ∈ w.hub.ten.sites
  | 8 => let g := w.groupOf b; if g = 0 then [] else [g]
  | 9 => w.blocksOf b
  | 10 => (List.range 48).filter fun p => let x := w.part p; x.mode % 2 = 1 && x.holder = b
  | 11 => (List.range 256).filter fun g => w.member g b
  | k => (w.hub.ten.held.filter fun (i, c) => i / 4096 = k && c = b).map fun (i, _) => i % 4096

/-- The grant list: one 16-byte item per run, in ascending kind and FIRST. -/
def Work.grantList (w : Work) (b : Nat) : List Byte :=
  (List.range 12).flatMap fun k => (runsOf (w.quoteItems b k)).flatMap fun (first, n) => leBytes 16 (pack [(4, k), (28, 0), (32, first), (32, n)])

/-- STATE of a berth in a quote. -/
def berthStateCode (s : BerthState) : Nat := match s with | .free => 0 | .open => 1 | .closing => 2

/-- The 256 bytes of a quote. -/
def Work.quote (w : Work) (b nonce : Nat) : List Byte :=
  let x := w.berth b
  let g := w.grantList b
  let m := measIndices.flatMap w.measurement
  leBytes 256 (pack [(16, 1), (14, b), (2, berthStateCode x.state), (3, w.lc), (1, b2n w.lcPending), (1, b2n w.hub.purser.debugOpen), (27, 0),
    (64, w.hub.purser.serial), (32, x.openCount), (32, x.debugCount), (1, b2n (w.key b 0 ≠ 0)), (1, b2n (w.key b 1 ≠ 0)), (62, 0),
    (256, nonce), (512, Config.digest 42 (m.map BitVec.toNat)), (512, Config.digest 43 (g.map BitVec.toNat)), (256, x.consent), (256, 0)])

/-! ## Management orders (R465-R470) -/

def rpOk : Nat := 0x00
def rpAccepted : Nat := 0x01
def rpBurnt : Nat := 0x02
def rpBadVersion : Nat := 0x10
def rpBadSignature : Nat := 0x11
def rpBadNonce : Nat := 0x12
def rpNotPermitted : Nat := 0x13
def rpBadShape : Nat := 0x14
def rpBusy : Nat := 0x15
def rpConsentMissing : Nat := 0x16
def rpFloor : Nat := 0x17
def rpFailed : Nat := 0x18

/-- Roles of R469. -/
def rolePower : Nat := 0
def rolePool : Nat := 1
def roleLc : Nat := 2
def roleWarrant : Nat := 3
def roleDebug : Nat := 4
def roleCred : Nat := 5
def roleFirmware : Nat := 6
def roleService : Nat := 7

/-- The order codes that R468, R555 and R556 list. -/
def orderCodes : List Nat :=
  [0x0001, 0x0002, 0x0010, 0x0011, 0x0012, 0x0020, 0x0028, 0x0030, 0x0031, 0x0038, 0x0039,
   0x0040, 0x0041, 0x0042, 0x0043, 0x0050, 0x0051, 0x0052, 0x0053, 0x0054, 0x0055, 0x0056, 0x0057]

/-- The credential of a slot, if it is in force: slot 0 alone in Maker and Returned (R471). -/
def Work.cred (w : Work) (slot : Nat) : Option Cred :=
  if slot ≠ 0 && (w.lc = 0 || w.lc = 3) then none
  else match w.hub.purser.creds[slot]? with
    | some c => if c.key = 0 then none else some c
    | none => none

/-- Answer an order (R470). -/
def Work.orderReply (w : Work) (viaEth : Bool) (order status nonce : Nat) (data : List Byte := []) : Work := w.emit (.order viaEth order status nonce data)

/-- Why an order is refused before its own checks: transport, version, signature and serial, nonce, role, shape. -/
def Work.orderBad (w : Work) (o : OrderHdr) (role : Nat) : Option Nat :=
  if !o.viaEthernet then some rpNotPermitted
  else if o.version ≠ 1 then some rpBadVersion
  else match w.cred o.cred with
    | none => some rpBadSignature
    | some c =>
      if o.sig ≠ c.key || o.serial ≠ w.hub.purser.serial then some rpBadSignature
      else if o.nonce ∉ w.hub.purser.nonces then some rpBadNonce
      else if !bit c.roles role then some rpNotPermitted
      else if !o.rsvdZero || 8000 < o.bodyLen then some rpBadShape
      else none

/-- An order of a code: refused with a status and no effect, or acted on, its nonce used (R467, R470). `bad` is the order's own check. -/
def Work.order (w : Work) (o : OrderHdr) (code role : Nat) (bad : Option Nat) (act : Work → Work) : Work :=
  if w.mute then w
  else if o.order ≠ code then (if o.order ∈ orderCodes then w else w.orderReply o.viaEthernet o.order rpBadShape o.nonce)
  else match w.orderBad o role with
    | some s => w.orderReply o.viaEthernet o.order s o.nonce
    | none => match bad with
      | some s => w.orderReply o.viaEthernet o.order s o.nonce
      | none => act (w.onPurser fun p => { p with nonces := rmv p.nonces o.nonce })

/-- The reply of an order that is done. -/
def Work.orderOk (w : Work) (o : OrderHdr) (data : List Byte := []) : Work := w.orderReply o.viaEthernet o.order rpOk o.nonce data

/-- During a start an order that changes state waits for its end; with `early`, one that a recovery acts on (R530, R541). -/
def Work.heldBack (w : Work) (c : HeldOrder) (early : Bool) (k : Work → Work) : Work :=
  if w.mute then w
  else if w.hub.start.state = 0 || (w.hub.start.state = 2 && !early) then w.onHub fun h => { h with heldOrders := h.heldOrders ++ [c] }
  else k w

/-- The first of several checks that fails. -/
def firstBad : List (Bool × Nat) → Option Nat
  | [] => none
  | (bad, s) :: r => if bad then some s else firstBad r

/-- Record a service or firmware order as the last one started (R560, R576). -/
def Work.svcOrder (w : Work) (code : Nat) (partly : Bool := false) : Work := w.onHub fun h => { h with svc := { h.svc with order := code, partly := partly } }

end Sys2Proof.Machine
end

