-- ==== Sys2Proof/Machine/Trust.lean ====
section
/-! DEFINITION. The commands of the Purser (16): SPDM (R458-R464; response codes of DSP0274), management orders (R465-R482). The burn of a transition ends with the start (19). -/

namespace Sys2Proof.Machine

/-! ## SPDM (R458) -/

/-- The session state of a transport. -/
def Work.spdmOf (w : Work) (t : Transport) : Spdm := match t with | .doe p => tget {} w.hub.purser.doe p | .i3c => w.hub.purser.i3c

/-- Change the session state of a transport. -/
def Work.onSpdm (w : Work) (t : Transport) (f : Spdm → Spdm) : Work :=
  w.onPurser fun x => match t with
    | .doe p => { x with doe := tmod {} x.doe p f }
    | .i3c => { x with i3c := f x.i3c }

/-- Send a response. -/
def Work.spdmSend (w : Work) (t : Transport) (code : Nat) (fields : List Nat) (d : List Byte := []) : Work := w.emit (.spdm t code fields d)

/-- Send ERROR with an error code. -/
def Work.spdmError (w : Work) (t : Transport) (e : Nat) : Work := w.spdmSend t 0x7F [e]

def errInvalidRequest : Nat := 0x01
def errInvalidSession : Nat := 0x02
def errUnexpectedRequest : Nat := 0x04
def errDecrypt : Nat := 0x06
def errSessionLimit : Nat := 0x0A

/-- A request reaches the responder: the Purser runs, the port's mailbox answers (R369, R372). -/
def Work.spdmUp (w : Work) (t : Transport) : Bool :=
  !w.mute && match t with | .doe p => p < 4 && w.portUp p && (w.port p).configReady | .i3c => true

/-- A request that needs a step of the connection to have been taken. -/
def Work.spdmAfter (w : Work) (t : Transport) (ok : Spdm → Bool) (k : Work → Work) : Work :=
  if !w.spdmUp t then w else if ok (w.spdmOf t) then k w else w.spdmError t errUnexpectedRequest

/-- GET_VERSION: the connection begins anew, its sessions end. -/
def execGetVersion (t : Transport) (s : State) : Host.Outcome State Fault Refusal :=
  s.run fun w => w.spdmAfter t (fun _ => true) fun w => (w.onSpdm t fun x => { versioned := true, nextSession := x.nextSession }).spdmSend t 0x04 [0x13]

/-- GET_CAPABILITIES: CERT, CHAL, MEAS with signature, KEY_EX, ENCRYPT, MAC, HBEAT, KEY_UPD. -/
def execGetCapabilities (t : Transport) (s : State) : Host.Outcome State Fault Refusal :=
  s.run fun w => w.spdmAfter t (·.versioned) fun w => (w.onSpdm t fun x => { x with capable := true }).spdmSend t 0x61 [0x000062D6]

/-- NEGOTIATE_ALGORITHMS: Ed25519, SHA-512, secp384r1, AES-256-GCM, the key schedule of SPDM. -/
def execNegotiateAlgorithms (t : Transport) (offersOurs : Bool) (s : State) : Host.Outcome State Fault Refusal :=
  s.run fun w => w.spdmAfter t (·.capable) fun w =>
    if offersOurs then (w.onSpdm t fun x => { x with negotiated := true }).spdmSend t 0x63 [0x0200, 0x0004, 0x0010, 0x0002, 0x0001]
    else w.spdmError t errInvalidRequest

/-- A certificate slot that holds a chain (R457, R471). -/
def Work.hasChain (w : Work) (slot : Nat) : Bool := slot = 0 || (slot = 1 && w.hub.purser.slot1 ≠ [] && w.lc ≠ 3)

/-- Slots that hold a chain. -/
def Work.slots (w : Work) : List Nat := [0, 1].filter w.hasChain

/-- GET_DIGESTS: the digest of the chain of each slot that has one. -/
def execGetDigests (t : Transport) (s : State) : Host.Outcome State Fault Refusal :=
  s.run fun w => w.spdmAfter t (·.negotiated) fun w =>
    w.spdmSend t 0x01 [maskOf w.slots] (w.slots.flatMap fun i => digestBytes 34 ((w.chain i).map BitVec.toNat))

/-- GET_CERTIFICATE: a portion of a chain and what remains of it. -/
def execGetCertificate (t : Transport) (slot offset length : Nat) (s : State) : Host.Outcome State Fault Refusal :=
  s.run fun w => w.spdmAfter t (·.negotiated) fun w =>
    let c := w.chain slot
    if !w.hasChain slot || c.length ≤ offset then w.spdmError t errInvalidRequest
    else
      let n := min length (c.length - offset)
      w.spdmSend t 0x02 [slot, n, c.length - offset - n] (slice c offset n)

/-- CHALLENGE: the digest of the chain and of the measurements, signed by the attestation key (R456). -/
def execChallenge (t : Transport) (slot nonce : Nat) (s : State) : Host.Outcome State Fault Refusal :=
  s.run fun w => w.spdmAfter t (·.negotiated) fun w =>
    if !w.hasChain slot then w.spdmError t errInvalidRequest
    else
      let d := digestBytes 34 ((w.chain slot).map BitVec.toNat) ++ digestBytes 42 ((measIndices.flatMap w.measurement).map BitVec.toNat)
      w.spdmSend t 0x03 [slot, nonce] (d ++ w.signed (leBytes 32 nonce ++ d))

/-- GET_MEASUREMENTS: index 0 asks for the number of blocks, 0xFF for all. -/
def execGetMeasurements (t : Transport) (index nonce : Nat) (signed : Bool) (s : State) : Host.Outcome State Fault Refusal :=
  s.run fun w => w.spdmAfter t (·.negotiated) fun w =>
    let want := if index = 0xFF then measIndices else measIndices.filter fun i => i = index
    if want = [] && index ≠ 0 then w.spdmError t errInvalidRequest
    else
      let d := want.flatMap w.measurement
      w.spdmSend t 0x60 ((if index = 0 then measIndices.length else want.length) :: want) (d ++ if signed then w.signed (leBytes 32 nonce ++ d) else [])

/-- KEY_EXCHANGE: two sessions per transport. -/
def execKeyExchange (t : Transport) (dhe : Nat) (s : State) : Host.Outcome State Fault Refusal :=
  s.run fun w => w.spdmAfter t (·.negotiated) fun w =>
    let x := w.spdmOf t
    if 2 ≤ x.sessions.length then w.spdmError t errSessionLimit
    else
      let (r, w) := w.fresh
      let share := digestBytes 44 [dhe, r]
      (w.onSpdm t fun y => { y with sessions := y.sessions ++ [(x.nextSession, false, 0)], nextSession := y.nextSession + 1 }).spdmSend t 0x64 [x.nextSession] (share ++ w.signed share)

/-- FINISH: a verified session is open; one that does not verify is gone. -/
def execFinish (t : Transport) (session : Nat) (verified : Bool) (s : State) : Host.Outcome State Fault Refusal :=
  s.run fun w => w.spdmAfter t (·.negotiated) fun w =>
    if !((w.spdmOf t).sessions.any fun (i, ok, _) => i = session && !ok) then w.spdmError t errInvalidSession
    else if verified then
      (w.onSpdm t fun x => { x with sessions := x.sessions.map fun (i, ok, k) => (i, ok || i = session, k) }).spdmSend t 0x65 [session]
    else (w.onSpdm t fun x => { x with sessions := x.sessions.filter fun (i, _, _) => i ≠ session }).spdmError t errDecrypt

/-- A request inside an open session. -/
def Work.inSession (w : Work) (t : Transport) (session : Nat) (k : Work → Work) : Work :=
  w.spdmAfter t (·.negotiated) fun w => if (w.spdmOf t).sessions.any fun (i, ok, _) => i = session && ok then k w else w.spdmError t errInvalidSession

/-- HEARTBEAT. -/
def execHeartbeat (t : Transport) (session : Nat) (s : State) : Host.Outcome State Fault Refusal :=
  s.run fun w => w.inSession t session fun w => w.spdmSend t 0x68 [session]

/-- KEY_UPDATE: the keys of the session are the next of its schedule. -/
def execKeyUpdate (t : Transport) (session : Nat) (s : State) : Host.Outcome State Fault Refusal :=
  s.run fun w => w.inSession t session fun w =>
    (w.onSpdm t fun x => { x with sessions := x.sessions.map fun (i, ok, k) => (i, ok, if i = session then k + 1 else k) }).spdmSend t 0x69 [session]

/-- END_SESSION. -/
def execEndSession (t : Transport) (session : Nat) (s : State) : Host.Outcome State Fault Refusal :=
  s.run fun w => w.inSession t session fun w =>
    (w.onSpdm t fun x => { x with sessions := x.sessions.filter fun (i, _, _) => i ≠ session }).spdmSend t 0x6C [session]

/-- BERTH_QUOTE: the quote, the grant list, and the attestation key's signature over both (R461). -/
def execBerthQuote (t : Transport) (berth nonce : Nat) (s : State) : Host.Outcome State Fault Refusal :=
  s.run fun w => w.spdmAfter t (·.negotiated) fun w =>
    if 4096 ≤ berth then w.spdmError t errInvalidRequest
    else
      let d := w.quote berth nonce ++ w.grantList berth
      w.spdmSend t 0x7E [0x1F8C, 0x0001] (d ++ w.signed d)

/-! ## Orders without signature (R467, R468) -/

/-- GET_NONCE: the sixteen newest unused nonces are kept. -/
def execGetNonce (viaEthernet : Bool) (s : State) : Host.Outcome State Fault Refusal :=
  s.run fun w =>
    if w.mute then w
    else if !viaEthernet then w.orderReply false 0x0001 rpNotPermitted 0
    else
      let (x, w) := w.fresh
      let n := x % 2 ^ 64
      (w.onPurser fun p => { p with nonces := (p.nonces ++ [n]).drop (p.nonces.length + 1 - 16) }).orderReply true 0x0001 rpOk 0 (leBytes 8 n)

/-- GET_IDENTITY: serial, life-cycle code, digest of the slot 0 chain; an Indeterminate unit reports the pattern and the intent record (R475). -/
def execGetIdentity (viaEthernet : Bool) (s : State) : Host.Outcome State Fault Refusal :=
  s.run fun w =>
    if !w.hub.start.hubRstN then w
    else
      let p := w.hub.purser
      let intent := match p.intent with | some i => leBytes 2 i.source ++ leBytes 2 i.target ++ leBytes 8 p.serial | none => []
      w.orderReply viaEthernet 0x0002 rpOk 0 (leBytes 8 p.serial ++ leBytes 2 p.lcCode ++ if w.lc = 5 then intent else digestBytes 34 ((w.chain 0).map BitVec.toNat))

/-! ## Power limits (R510) -/

/-- A field of a power-limit body is in its range. -/
def inRange (lo hi v : Nat) : Bool := lo ≤ v && v ≤ hi

/-- Every field of a body is in range, every reserved bit zero. -/
def powerOk (b : PowerBody) : Bool :=
  b.rsvdZero && b.limW.length = 4 && b.limWin.length = 4 && b.siteW.length = 16 && b.limW.all (fun v => v = 0 || inRange 100 2400 v) && b.limWin.all (inRange 1 60)
    && inRange 100 2400 b.peakW && inRange 100 540 b.hubMaxW && b.idleArith < 8 && b.idleMem < 8 && inRange 70 104 b.tThrottle && inRange 10 100 b.droopMv && b.siteW.all (inRange 1 110)

/-- A body comes into force: changed site settings reach the sites (R110, R510). -/
def Work.powerInForce (w : Work) (b : PowerBody) : Work :=
  let old := w.hub.bin.body
  let w := w.onHub fun h => { h with bin := { h.bin with body := b } }
  each ((List.range 16).filter fun n => siteServing (w.site n) && old.siteW.getD n 110 ≠ b.siteW.getD n 110) (fun n w =>
    let (l, c) := w.siteLimit n
    w.sendLimit n l c) w

/-- POWER_LIMIT acts; one that a start held back is in force from the next reset (R541). -/
def Work.doPowerLimit (w : Work) (o : OrderHdr) (body : PowerBody) (late : Bool) : Work :=
  w.order o 0x0010 rolePower (if powerOk body then none else some rpBadShape) fun w =>
    let w := (w.onPurser fun p => { p with powerStored := some body }).emit (.flash 0x02020000 [])
    (if late then w else w.powerInForce body).orderOk o

/-- POWER_LIMIT. -/
def execPowerLimit (o : OrderHdr) (body : PowerBody) (s : State) : Host.Outcome State Fault Refusal :=
  s.runAll fun w => w.heldBack (.powerLimit o body) false fun w => w.doPowerLimit o body false

/-! ## Pools and managers (R425-R428) -/

/-- Two runs share an item. -/
def runsMeet (a n b m : Nat) : Bool := n ≠ 0 && m ≠ 0 && a < b + m && b < a + n

/-- The runs of a pool by kind: berths, then kinds 2 to 7 of R433. -/
def poolRuns (p : Pool) : List (Nat × Nat) :=
  [(p.berthFirst, p.berthCount), (p.markFirst, p.markCount), (p.gateFirst, p.gateCount), (p.semFirst, p.semCount),
   (p.recipeFirst, p.recipeCount), (p.tableFirst, p.tableCount), (p.packFirst, p.packCount)]

/-- Two pools share a resource; bit 0 of REGROUPS is ignored. -/
def poolsMeet (a b : Pool) : Bool :=
  a.sites &&& b.sites ≠ 0 || (a.regroups &&& b.regroups) / 2 ≠ 0 || a.hold &&& b.hold ≠ 0 || a.wright &&& b.wright ≠ 0
    || a.regions &&& b.regions ≠ 0 || a.groups &&& b.groups ≠ 0
    || ((poolRuns a).zip (poolRuns b)).any fun ((x, n), (y, m)) => runsMeet x n y m

/-- A pool holds an item of a kind of R433, or a region (9), a Hold partition (10), a share group (11). -/
def poolHas (p : Pool) (kind i : Nat) : Bool :=
  match kind with
  | 0 => bit p.sites i
  | 1 => bit p.wright i
  | 2 => inRun p.markFirst p.markCount i
  | 3 => inRun p.gateFirst p.gateCount i
  | 4 => inRun p.semFirst p.semCount i
  | 5 => inRun p.recipeFirst p.recipeCount i
  | 6 => inRun p.tableFirst p.tableCount i
  | 7 => inRun p.packFirst p.packCount i
  | 8 => i = 0 || bit p.regroups i
  | 9 => bit p.regions i
  | 10 => bit p.hold i
  | _ => bit p.groups i

/-- A new pool of a port is refused: it would share a resource with another pool, one that still leaves another included, or contain a manager berth (R426). -/
def Work.poolRefused (w : Work) (x : Pool) : Bool :=
  ((List.range 4).any fun q => q ≠ x.port && poolsMeet x (w.pool q))
    || w.hub.ten.withdrawals.any (fun y => match y.pool with | some q => q ≠ x.port && poolHas x y.kind y.item | none => false)
    || w.hub.ten.mgr.any fun b => inRun x.berthFirst x.berthCount b

/-- What berths hold of the resources that leave a pool, and no withdrawal takes yet (R428). -/
def Work.poolLeaves (w : Work) (old new : Pool) (p : Nat) : List Withdrawal :=
  let gone (k i : Nat) : Bool := poolHas old k i && !poolHas new k i
  let held : List Withdrawal :=
    (w.hub.ten.sites.filter fun (n, _) => gone 0 n).map (fun (n, b) => { kind := 0, item := n, berth := b, pool := some p })
    ++ (w.hub.ten.held.filter fun (i, _) => gone (i / 4096) (i % 4096)).map (fun (i, b) => { kind := i / 4096, item := i % 4096, berth := b, pool := some p })
    ++ (w.hub.bwr.groups.filter fun (_, g) => gone 8 g).map (fun (b, g) => { kind := 8, item := g, berth := b, pool := some p })
    ++ ((List.range 192).filter fun r => gone 9 r && w.hub.memory.owner.any fun (b, v) => b / 2 ^ 14 = r && (bits v 15 14 = 1 || bits v 15 14 = 2)).map (fun r => { kind := 9, item := r, pool := some p })
    ++ ((List.range 48).filter fun i => gone 10 i && (w.part i).mode % 2 = 1).map (fun i => { kind := 10, item := i, berth := (w.part i).holder, pool := some p })
    ++ ((List.range 256).filter fun g => gone 11 g && tget 0 w.hub.memory.member g ≠ 0).map (fun g => { kind := 11, item := g, pool := some p })
  held.filter fun x => !w.hub.ten.withdrawals.any fun y => y.kind = x.kind && y.item = x.item && y.berth = x.berth

/-- POOL_WRITE acts. -/
def Work.doPoolWrite (w : Work) (o : OrderHdr) (x : Pool) : Work :=
  w.order o 0x0011 rolePool (firstBad [(4 ≤ x.port || 16384 < x.berthCount, rpBadShape), (w.poolRefused x, rpNotPermitted)]) fun w =>
    let xs := w.poolLeaves (w.pool x.port) x x.port
    let w := w.onTen fun t => { t with pools := tset t.pools x.port x, poolPartial := if xs = [] then t.poolPartial else t.poolPartial ||| 2 ^ x.port }
    (w.withdrawAll xs).orderOk o

/-- POOL_WRITE. -/
def execPoolWrite (o : OrderHdr) (pool : Pool) (s : State) : Host.Outcome State Fault Refusal :=
  s.runAll fun w => w.heldBack (.poolWrite o pool) false fun w => w.doPoolWrite o pool

/-- MGR_SET acts: the named ports' manager berths from the next reset; one that gives two ports the same berth is refused whole (R425, R576). -/
def Work.doMgrSet (w : Work) (o : OrderHdr) (l : List (Nat × Nat)) : Work :=
  let next := l.foldl (fun (m : List Nat) (p, b) => m.set p b) w.hub.ten.mgrNext
  w.order o 0x0012 rolePool (if l.any (fun (p, b) => 4 ≤ p || 4096 ≤ b) || !decide next.Nodup then some rpBadShape else none) fun w =>
    (w.onTen fun t => { t with mgrNext := next }).orderOk o

/-- MGR_SET. -/
def execMgrSet (o : OrderHdr) (berths : List (Nat × Nat)) (s : State) : Host.Outcome State Fault Refusal :=
  s.runAll fun w => w.heldBack (.mgrSet o berths) false fun w => w.doMgrSet o berths

/-! ## Life cycle (R472-R475) -/

/-- The transitions of R473. -/
def lcAllowed (src dst : Nat) : Bool :=
  match src, dst with
  | 0, 1 | 0, 4 | 1, 2 | 1, 3 | 1, 4 | 2, 3 | 2, 4 | 3, 4 => true
  | _, _ => false

/-- LC_TRANSITION acts: the intent is written, the burn begins. -/
def Work.doLcTransition (w : Work) (o : OrderHdr) (target : Nat) (railsOk : Bool) : Work :=
  let src := w.lc
  let bad := firstBad [
    (w.hub.purser.intent.isSome, rpBusy),
    (!(match lcState target with | some d => lcAllowed src d | none => false) || ((src = 1 || src = 2) && o.cred = 0), rpNotPermitted),
    (!railsOk, rpFailed)]
  w.order o 0x0020 roleLc bad fun w =>
    let i : Intent := { source := w.hub.purser.lcCode, target := target, burning := true, nonce := o.nonce }
    let w := w.onPurser fun p => { p with intent := some i }
    (w.emit (.flash 0x02030000 (leBytes 2 i.source ++ leBytes 2 target ++ leBytes 8 w.hub.purser.serial))).orderReply true 0x0020 rpAccepted o.nonce

/-- LC_TRANSITION. -/
def execLcTransition (o : OrderHdr) (target : Nat) (railsOk : Bool) (s : State) : Host.Outcome State Fault Refusal :=
  s.run fun w => w.heldBack (.lcTransition o target railsOk) false fun w => w.doLcTransition o target railsOk

/-! ## Warrants and credentials (R469, R481, R482) -/

/-- Set bits of a mask below n. -/
def popcount (m n : Nat) : Nat := (ones m n).length

/-- WARRANT_INSTALL acts: the floor is burnt, the warrant stored; it takes effect at the next reset (R483). -/
def Work.doWarrantInstall (w : Work) (o : OrderHdr) (x : Warrant) : Work :=
  let n := popcount x.sites 16
  let bad := firstBad [
    (w.hub.purser.intent.isSome, rpBusy),
    (x.version ≠ 1, rpBadVersion),
    (!x.sigOk || x.serial ≠ w.hub.purser.serial, rpBadSignature),
    (!x.rsvdZero || 64 < x.floor || (n ≠ 8 && n ≠ 16) || 2 ^ 16 ≤ x.sites || 2 ^ 8 ≤ x.hawser, rpBadShape),
    (x.floor < w.hub.purser.warrantTherm, rpFloor)]
  w.order o 0x0028 roleWarrant bad fun w =>
    ((w.onPurser fun p => { p with warrantStored := some x, warrantTherm := x.floor }).emit (.flash 0x02010000 [])).orderOk o

/-- WARRANT_INSTALL. -/
def execWarrantInstall (o : OrderHdr) (warrant : Warrant) (s : State) : Host.Outcome State Fault Refusal :=
  s.run fun w => w.heldBack (.warrantInstall o warrant) false fun w => w.doWarrantInstall o warrant

/-- CRED_SET acts: slots 1 to 7 are replaced whole; one that a start held back is in force from the next reset (R541). -/
def Work.doCredSet (w : Work) (o : OrderHdr) (version : Nat) (l : List Cred) (late : Bool) : Work :=
  let bad := firstBad [
    (l.length ≠ 7 || version = 0 || 64 < version || l.any (fun c => 256 ≤ c.roles), rpBadShape),
    (version ≤ w.hub.purser.credTherm, rpFloor)]
  w.order o 0x0038 roleCred bad fun w =>
    let set := w.hub.purser.creds.take 1 ++ l
    let w := w.onPurser fun p => { p with credStored := set, creds := if late then p.creds else set, credVersion := version, credTherm := version }
    (w.emit (.flash 0x02000000 [])).orderOk o

/-- CRED_SET. -/
def execCredSet (o : OrderHdr) (version : Nat) (creds : List Cred) (s : State) : Host.Outcome State Fault Refusal :=
  s.run fun w => w.heldBack (.credSet o version creds) false fun w => w.doCredSet o version creds false

/-- CERT_SET acts: in Integrator or Fielded, at most 2 KiB (R457). -/
def Work.doCertSet (w : Work) (o : OrderHdr) (chain : List Byte) : Work :=
  w.order o 0x0039 roleCred (firstBad [(w.lc ≠ 1 && w.lc ≠ 2, rpNotPermitted), (2048 < chain.length, rpBadShape)]) fun w =>
    (w.onPurser fun p => { p with slot1 := chain }).orderOk o

/-- CERT_SET. -/
def execCertSet (o : OrderHdr) (chain : List Byte) (s : State) : Host.Outcome State Fault Refusal :=
  s.run fun w => w.heldBack (.certSet o chain) false fun w => w.doCertSet o chain

/-! ## Debug (R477-R480) -/

/-- A consent record is valid for an order and a berth (R478, R479); its signature holds when the digest of what it signs under KEY is its SIG (log 12). -/
def Work.consentOk (w : Work) (b scope nonce r : Nat) : Bool :=
  let key := bits r 511 256
  bits r 15 0 = 1 && bits r 29 16 = b && bits r 31 30 = 0 && bits r 63 35 = 0 && bits r 255 192 = 0 && bits r 127 64 = w.hub.purser.serial
    && scope &&& bits r 34 32 = scope && bits r 191 128 = nonce && bits r 1023 512 = Config.digest 20 [key, bits r 511 0] % 2 ^ 512
    && ((w.berth b).consent = 0 || (w.berth b).consent = key)

/-- A nonzero reserved bit in a consent record (R466). -/
def consentRsvd (r : Nat) : Bool := bits r 31 30 ≠ 0 || bits r 63 35 ≠ 0 || bits r 255 192 ≠ 0

/-- Read the consent records of a list of pairs, each once, through the berths' tables. -/
def Work.readConsents (w : Work) : List (Nat × Nat) → List (Nat × Nat) × Work
  | [] => ([], w)
  | (b, dva) :: r =>
    let (x, w) := w.readDva 129 b (dva % 2 ^ 57) 128
    let (l, w) := w.readConsents r
    match x with
    | .ok d ps => (if ps = [] then (b, leNat d) :: l else l, w)
    | _ => (l, w)

/-- Open berths that no port manages. -/
def Work.openTenants (w : Work) : List Nat := (w.hub.ten.berths.filter fun (b, x) => x.state = .open && !w.isManager b).map (·.1)

/-- DEBUG_OPEN acts: in Fielded every open tenant berth must have consented; each that did has its key pinned and is counted. -/
def Work.doDebugOpen (w : Work) (o : OrderHdr) (scope : Nat) (pairs : List (Nat × Nat)) : Work :=
  let open_ (w : Work) : Work := (w.onPurser fun p => { p with debugOpen := true, debugScope := scope }).orderOk o
  if w.mute || o.order ≠ 0x0030 || (w.orderBad o roleDebug).isSome || w.lc ≠ 2 || 8 ≤ scope then
    w.order o 0x0030 roleDebug (if 8 ≤ scope then some rpBadShape else none) open_
  else
    let (l, w') := w.readConsents (pairs.filter fun (b, _) => b ∈ w.openTenants)
    let ok (b : Nat) : Bool := l.any fun (c, r) => c = b && w.consentOk b scope o.nonce r
    if l.any fun (_, r) => consentRsvd r then w.order o 0x0030 roleDebug (some rpBadShape) open_
    else if !w.openTenants.all ok then w.order o 0x0030 roleDebug (some rpConsentMissing) open_
    else w'.order o 0x0030 roleDebug none fun w =>
      let w := each w.openTenants (fun b w =>
        let key := ((l.find? fun (c, r) => c = b && w.consentOk b scope o.nonce r).map fun (_, r) => bits r 511 256).getD 0
        w.onBerth b fun x => { x with consent := key, debugCount := satAdd 0xFFFFFFFF x.debugCount 1 }) w
      open_ w

/-- DEBUG_OPEN. -/
def execDebugOpen (o : OrderHdr) (scope : Nat) (pairs : List (Nat × Nat)) (s : State) : Host.Outcome State Fault Refusal :=
  s.run fun w => w.heldBack (.debugOpen o scope pairs) false fun w => w.doDebugOpen o scope pairs

/-- DEBUG_CLOSE acts. -/
def Work.doDebugClose (w : Work) (o : OrderHdr) : Work :=
  w.order o 0x0031 roleDebug none fun w => (w.onPurser fun p => { p with debugOpen := false, debugScope := 0 }).orderOk o

/-- DEBUG_CLOSE. -/
def execDebugClose (o : OrderHdr) (s : State) : Host.Outcome State Fault Refusal :=
  s.run fun w => w.heldBack (.debugClose o) false fun w => w.doDebugClose o

end Sys2Proof.Machine
end

