-- ==== Sys2Proof/Machine/StartOps.lean ====
section
/-! DEFINITION. The shared operations of the start (19): the hub reset (R454, R524, R591), the steps of a start (R529, R534-R539), its stop (R538), the stored profile (R532). -/

namespace Sys2Proof.Machine

/-- Change the start. -/
def Work.onStart (w : Work) (f : Start → Start) : Work := w.onHub fun h => { h with start := f h.start }

/-! ## Hub reset (R454, R524, R525, R591) -/

/-- The records of a hub after a reset: fuses, flash, the fuse controller, the board's inputs, what the last interconnect test found (R35; log 131) and the stored key tags of board memory stay; keys are erased and the manager berths named for this reset are open. -/
def resetHub (h : Hub) (cold : Bool) : Hub :=
  let k := h.memory.nextKey
  let mgr := h.ten.mgrNext
  { now := h.now, free := h.free, sent := h.sent
    sites := h.sites.map fun (n, s) => (n, { filler := s.filler, interBad := s.interBad, power := { vcsPg := s.power.vcsPg, pgOut := s.power.pgOut, thermN := s.power.thermN, attnN := s.power.attnN } })
    ports := h.ports.map fun (p, x) => (p, { perstN := x.perstN })
    memory := { keys := mgr.foldl (fun t b => tset t (keyIx b 0) (k + b)) [], nextKey := k + 4097, hubKey := k + 4096, rate := h.memory.rate,
                tag := h.memory.tag, regions := h.memory.regions.map (fun (r, x) => (r, { key := x.key })), clamshell := h.memory.clamshell }
    ten := { berths := mgr.foldl (fun t b => tset t b { state := .open }) [], mgr := mgr, mgrNext := mgr, pools := [(0, poolReset)] }
    purser := { h.purser with nonces := [], debugOpen := false, debugScope := 0, i3c := {}, doe := [], meas := [], aliasKey := 0 }
    start := { profile := h.start.stored, stored := h.start.stored, seqA := h.start.seqA, seqB := h.start.seqB, lastWrite := h.start.lastWrite, fuses := h.start.fuses,
               flashValid := h.start.flashValid, flashVersion := h.start.flashVersion, restarted := h.start.restarted, coldPending := cold || h.start.coldPending }
    board := h.board }

/-- The hub resets (R591 step 2): sites are reset and unpowered, the Hold and the SRAM lose their contents, board memory goes into self refresh. -/
def Work.hubReset (w : Work) (cold : Bool) : Work :=
  let w := each (List.range 16) (fun n w => (w.siteReset n).sitePowerOff n) w
  let w := each w.hub.memory.hold (fun l w => w.discardLine l) w
  (w.op (.wipe 0x004000000000 (48 * 2 ^ 24))).onHub fun h => resetHub h cold

/-- A reset is asked for: held off while a life-cycle burn runs (R484, R525). -/
def Work.askReset (w : Work) (cold : Bool) : Work :=
  if w.resetHeldOff then w.onStart fun x => { x with resetHeld := true, coldPending := x.coldPending || cold }
  else w.hubReset cold

/-- A burn is over: what it held off goes on (R474 step 6). -/
def Work.burnOver (w : Work) : Work :=
  if w.hub.start.resetHeld then w.hubReset false
  else each (List.range 4) (fun p w =>
    if (w.port p).perstHeld then (w.linkLost p 10).onPort p fun x => { x with perstN := false, perstHeld := false, configReady := false } else w) w

/-! ## The stored profile (R532) -/

/-- The profile changes in service; it is written later. -/
def Work.onProfile (w : Work) (f : Profile → Profile) : Work := w.onStart fun x => { x with profile := { f x.profile with pendingWrite := true } }

/-- The copy with the lower sequence is written, then its sequence is raised above the other's. -/
def Work.profileStore (w : Work) : Work :=
  let x := w.hub.start
  let a := x.seqA ≤ x.seqB
  let p := { x.profile with pendingWrite := false, valid := true }
  let seq := max x.seqA x.seqB + 1
  (w.onStart fun y => { y with profile := p, stored := p, lastWrite := some w.now, seqA := if a then seq else y.seqA, seqB := if a then y.seqB else seq }).emit
    (.flash (if a then 0x02040000 else 0x02440000) (leBytes 8 seq))

/-! ## Stops (R538) -/

/-- A start that cannot continue stops: 1 a structure without redundancy, 2 more than four channels, 3 no site or no Wright engine, 4 a step past twice its bound. The Purser restarts the hub once, cold. -/
def Work.startStop (w : Work) (cause : Nat) : Work :=
  let w := (w.onStart fun x => { x with state := 3, cause := cause }).log { cls := 0x13, sev := 4, cause := 0x8002, detail := cause }
  if w.hub.start.restarted then w else (w.hubReset true).onStart fun x => { x with restarted := true }

/-! ## Units (R534, R535) -/

/-- A unit is kept out of service by the profile: failed at a start, at a cold start once it has failed at three (R534). -/
def profileBad (p : Profile) (cold : Bool) (u : Nat) : Bool := let n := tget 0 p.units u; if cold then 3 ≤ n else n ≠ 0

/-- The count of failing cold starts of a unit after one that tested it. -/
def profileTested (p : Profile) (bad : List Nat) (all : List Nat) : Profile :=
  { p with units := all.foldl (fun t u =>
      if u ∈ bad then tset t u (tget 0 p.units u + 1) else if 3 ≤ tget 0 p.units u then t else tdel t u) p.units, pendingWrite := true }

/-- Unit numbers that a start test found bad. -/
def badUnits (ev : StartEvent) : List Nat :=
  ev.wrightFail ++ ev.bearingFail.map (100 + ·) ++ ev.porterFail.map (200 + ·) ++ ev.holdFail.map (300 + ·) ++ ev.channelFail.map (400 + ·) ++ ev.sitePortBad.map (600 + ·)

/-- All unit numbers of the profile. -/
def allUnits : List Nat :=
  List.range 66 ++ (List.range 16).map (100 + ·) ++ (List.range 32).map (200 + ·) ++ (List.range 3).map (300 + ·) ++ (List.range 128).map (400 + ·) ++ (List.range 16).map (600 + ·)

/-- The Wright mapping (R535): each logical engine its nominal position, else the first good unused spare, A (64) before B (65); 255 for none. -/
def wrightMapOf (bad : List Nat) : List Nat :=
  ((List.range 64).foldl (fun (acc : List Nat × List Nat) n =>
    if n ∉ bad then (acc.1 ++ [n], acc.2)
    else match acc.2 with
      | s :: r => (acc.1 ++ [s], r)
      | [] => (acc.1 ++ [255], [])) ([], [64, 65].filter fun s => s ∉ bad)).1

/-- The mapping enters service, each engine's position recorded in the Log (R274, R535); an engine without a position has failed. -/
def Work.mapWrights (w : Work) (bad : List Nat) (final : Bool) : Work :=
  let m := wrightMapOf bad
  let w := w.onStart fun x => { x with wrightMap := m }
  each (List.range 64) (fun n w =>
    let p := m.getD n 255
    let w := if p = 255 then (w.onWright n fun x => { x with failed := true }).log { cls := 0x13, sev := 3, cause := 0x8004, unit := n } else w
    if final && p ≠ 255 then w.log { cls := 0x13, sev := 0, cause := 0x8003, unit := n, detail := p } else w) w

/-! ## The steps -/

/-- The set of R483 that is in force without a good warrant. -/
def defaultWarrant : Warrant := { sites := 0x00FF, hawser := 0x03 }

/-- Step 4: identity, credentials, warrant, power limits (R456, R469, R483, R510). -/
def Work.startTrust (w : Work) (ev : StartEvent) (version : Nat) : Work :=
  let p := w.hub.purser
  let credsGood := ev.credOk && p.credTherm ≤ p.credVersion
  let good := match p.warrantStored with | some x => if ev.warrantOk && p.warrantTherm ≤ x.floor then some x else none | none => none
  let x := good.getD defaultWarrant
  let meas := [2, 3, 4, 5, 6].map (fun i => (i, Config.digest 2 [i, version])) ++ [3, 4, 5, 6].map fun i => (0x10 + i, Config.digest 2 [i, version])
  let w := w.onPurser fun p => { p with
    creds := if credsGood then p.credStored else p.credStored.take 1 ++ List.replicate 7 {}
    warrant := good
    meas := meas
    debugAtStart := p.lcCode = 0 }
  let w := w.onPurser fun p => { p with aliasKey := w.identity }
  let w := w.onHub fun h => { h with
    board := { h.board with sites := x.sites, hawser := x.hawser, berthsHigh := x.berthsHigh, holdScratch := x.holdScratch }
    bin := { h.bin with body := if ev.powerBodyOk then p.powerStored.getD {} else {}, trims := h.start.profile.trims, op7Retired := h.start.profile.op7Retired,
                        arithOp := if h.start.profile.op7Retired then 6 else 7 } }
  let w := w.onHub fun h => { h with ten := { h.ten with
    pools := [(0, { poolReset with sites := x.sites, berthCount := if x.berthsHigh then 4092 else 252, regions := 2 ^ (if ev.clamshell then 192 else 96) - 1 })] } }
  if good.isNone then w.log { cls := 0x13, sev := 1, cause := 0x8006 } else w

/-- Rows that find no spare among the 16 of their bank; the others are replaced and hold lines again (R305; log 149). -/
def unspared (rows : List (Nat × Nat)) : List (Nat × Nat) :=
  (rows.foldl (fun (acc : List (Nat × Nat) × List (Nat × Nat)) x =>
    if (acc.1.filter fun y => y.1 = x.1).length < 16 then (x :: acc.1, acc.2) else (acc.1, acc.2 ++ [x])) ([], [])).2

/-- Step 5: the Quartermaster takes control of VDD_ARITH and commands the set point in force (R588). -/
def Work.takeVoltage (w : Work) : Work := w.setVoltage w.hub.bin.arithOp

/-- Steps 5 and 6: Hold dies and rows, fabric links, Bearing engines, Porters (R305, R534). -/
def Work.startUnits (w : Work) (ev : StartEvent) (cold : Bool) : Work :=
  let p := w.hub.start.profile
  let bad (u : Nat) : Bool := profileBad p cold u || (cold && u ∈ badUnits ev)
  let dies := (List.range 3).filter fun d => bad (300 + d)
  let w := w.onMem fun m => { m with diesOut := dies, rowsRetired := unspared ((w.hub.start.fuses.holdRows ++ p.holdRows).foldl addTo []) }
  let w := w.onFabric fun f => { f with linksOut := if cold then ev.linkFail.foldl addTo [] else [] }
  let w := w.writeRoutes
  let w := each ((List.range 16).filter fun b => bad (100 + b)) (fun b w => w.onHub fun h => { h with bearings := tmod {} h.bearings b fun x => { x with out := true } }) w
  let w := each ((List.range 32).filter fun j => bad (200 + j)) (fun j w => w.onPorter (j / 8) (j % 8) fun x => { x with out := true }) w
  let logged := (dies.map (300 + ·) ++ (List.range 16).map (100 + ·) ++ (List.range 32).map (200 + ·)).filter bad
  each (logged.foldl addTo []).reverse (fun u w => w.log { cls := 0x13, sev := 3, cause := 0x8004, unit := u }) w

/-- Step 8 (R307, R308, R312): channels trained, failed ones remapped, the hub's own areas set up. -/
def Work.startMemory (w : Work) (ev : StartEvent) (cold : Bool) : Work :=
  let p := w.hub.start.profile
  let rate := w.hub.memory.rate
  let trained (c : Nat) : Option Nat := trainedRate rate (((ev.channelLow.find? fun (x, _) => x = c).map (·.2)).getD (if cold || p.target ≠ rate then rate else tget rate p.rates c))
  let low (c : Nat) : Nat := (trained c).getD 28
  let lost := (List.range 128).filter fun c => c ∈ w.hub.start.fuses.lanes || c ∈ ev.channelFail || (trained c).isNone || profileBad p cold (400 + c)
  let temps : Tab Nat := if cold then ev.channelTemp.foldl (fun t (c, v) => tset t c v) [] else p.temps
  let w := w.onMem fun m => { m with
    clamshell := ev.clamshell
    rateRun := rate
    remapped := lost
    channels := (List.range 128).map fun c => (c, { rate := min rate (low c), failed := c ∈ lost, temp := tget 0 temps c, testTemp := tget 0 temps c,
                                                    bins := if cold then [] else (p.bins.filter fun (k, _) => k % 128 = c).map fun (k, v) => (k / 128, v) }) }
  let w := w.onHub fun h => { h with board := { h.board with clamshell := ev.clamshell } }
  let rates := ((List.range 128).filter fun c => (trained c).isSome).map fun c => (c, low c)
  let w := if cold then w.onStart fun x => { x with profile := { x.profile with bins := [], temps := temps, rates := rates, target := rate } }
    else if rates = p.rates && p.target = rate then w else w.onProfile fun x => { x with rates := rates, target := rate }
  let hubRegion := w.hubBase / 2 ^ 30
  let own := (List.range (w.reserved + 1)).map (hubRegion + ·)
  let w := w.onMem fun m => { m with
    regions := own.foldl (fun t r => tmod {} t r fun x => { x with hubArea := true, cls := 1 }) m.regions
    owner := ((List.range 144).map fun i => (hubRegion * 2 ^ 14 + i, 3 * 2 ^ 14 + if i < 128 then 0 else 1)).foldl (fun t (b, v) => tset t b v) m.owner }
  let w := each lost (fun c w => w.log { cls := 0x13, sev := 3, cause := 0x8004, unit := 400 + c }) w
  let w := each ((List.range 128).filter fun c => c ∉ lost && low c < rate) (fun c w => w.log { cls := 0x0A, sev := 1, cause := 0x8015, unit := c, detail := low c }) w
  (w.onStart fun x => { x with selfRefresh := false }).derate

/-- Every region is scrubbed under a key of its own that nothing holds (R444, R476, step 10). -/
def Work.scrubAll (w : Work) : Work :=
  let k := w.hub.memory.nextKey
  let w := w.onMem fun m => { m with
    nextKey := k + w.regions
    tag := []
    hold := []
    regions := (List.range w.regions).map fun r => (r, { tget ({} : Region) m.regions r with key := k + r }) }
  w.op (.wipe 0 (w.regions * 2 ^ 30))

/-- Steps 7 and 9a: the sites that are enabled and good start, the others read absent with their cause (R35, R533). A warm start has the findings of the last interconnect test and of the profile. -/
def Work.startSites (w : Work) (ev : StartEvent) (cold : Bool) : Work :=
  let p := w.hub.start.profile
  each (List.range 16) (fun n w =>
    let w := w.onSite n fun s => { s with filler := if cold then n ∈ ev.fillers else s.filler, interBad := if cold then n ∈ ev.interconnectBad else s.interBad,
                                          fuseBad := profileBad p cold (600 + n) || (cold && n ∈ ev.sitePortBad) }
    w.siteBegins n) w

/-- Steps 9b and 9d: the enabled Hawser ports try to train (R504); the edge's walker serves or not (R534). -/
def Work.startHawser (w : Work) (ev : StartEvent) : Work :=
  w.onHawser fun h => { h with
    edgeOut := ev.edgeWalkerFail
    ports := (List.range 8).foldl (fun t p => tmod {} t p fun x => { x with training := bit w.hub.board.hawser p }) h.ports }

/-- A start goes on from step 4 with an image of a release (R529, R530, R539) until its last step. -/
def Work.startGo (w : Work) (version : Nat) : Work :=
  let ev := w.hub.start.event
  let cold := w.hub.start.cold
  let w := w.startTrust ev version
  let w := w.onStart fun x => { x with state := 0, fetchPort := none, transfer := none }
  if ev.fatalUnit then w.startStop 1
  else
    let w := (w.takeVoltage.startUnits ev cold).startMemory ev cold
    if 4 < w.hub.memory.remapped.length then w.startStop 2
    else
      let w := if cold || w.hub.start.burnt then w.scrubAll else w
      let p := w.hub.start.profile
      let badPos := (List.range 66).filter fun u => u ∈ w.hub.start.fuses.wrights || profileBad p cold u || (cold && u ∈ ev.wrightFail)
      let w := w.mapWrights badPos true
      let w := if cold then w.onStart fun x => { x with profile := profileTested x.profile (badUnits ev) allUnits } else w
      if w.hub.start.wrightMap.all (fun p => p = 255) then w.startStop 3
      else ((w.startSites ev cold).startHawser ev).onStart fun x => { x with step := if cold then 11 else 5, burnt := false }

/-- A start enters recovery: the Quartermaster runs its loader and waits for an image (R530). -/
def Work.recovery (w : Work) (cause : Nat) : Work :=
  (w.onStart fun x => { x with state := 2, step := if x.cold then 3 else 1, cause := cause }).log { cls := 0x10, sev := 3, cause := cause }

/-- Step 2: the life-cycle code of the fuses is in force; what a burn brings with it is done (R454, R476). -/
def Work.startCode (w : Work) : Work :=
  let p := w.hub.purser
  let w := w.onStart fun x => { x with burnt := p.intent.isSome }
  w.onPurser fun p => { p with
    lcCode := p.fuseCode
    intent := if lcState p.fuseCode = none then p.intent else none
    credStored := if p.intent.isSome && p.fuseCode = 0x0FFF then p.credStored.take 1 ++ List.replicate 7 {} else p.credStored
    slot1 := if p.intent.isSome && p.fuseCode = 0x0FFF then [] else p.slot1
    udsBurnt := p.udsBurnt || p.fuseCode = 0xFFFF || p.fuseCode = 0 }

/-- The assembly lost power and has it again (R475, R524, R590): a burn that was cut leaves a pattern between the two codes; what no flash or fuse holds is at its reset value. -/
def Work.powerCycle (w : Work) (burnt : Nat) : Work :=
  let w := w.onPurser fun p => match p.intent with
    | some i => if i.burning then { p with fuseCode := i.source ||| (burnt &&& i.target), intent := some { i with burning := false } } else p
    | none => p
  let w := w.hubReset true
  let w := w.onTen fun t => { t with mgrNext := [0, 1, 2, 3] }
  let w := w.onMem fun m => { m with rate := 36 }
  (w.onHub fun h => { h with board := { h.board with thermtripN := true, railsBad := [] } }).hubReset true

/-- The failed wires of one half enter the site-bundle fuse map, nine at most; no fuse is ever cleared (R61). -/
def burnWires (t : Tab (List Nat)) (r : HalfFail) : Tab (List Nat) :=
  let key := (r.bundle / 16) * 32 + r.bundle % 16 * 2 + r.half % 2
  let old := tget [] t key
  let all := (List.range 520).filter fun i => i ∈ old || i ∈ r.wires || (r.structural && i < 9)
  if all = [] then t else tset t key (all.take 9)

/-- The assembly test, before the start and in Integrator alone: the failed wires it finds enter the site-bundle fuse map (R46, R61; log 131). -/
def Work.assemblyTest (w : Work) (l : List HalfFail) : Work :=
  if w.hub.purser.fuseCode ≠ 0x000F then w
  else w.onStart fun x => { x with fuses := { x.fuses with wires := l.foldl burnWires x.fuses.wires } }

/-- HUB_RST_N is released: straps are sampled, the start runs (R529, R539, R595). In Scrapped and Indeterminate it ends at step 2 (R471, R475). -/
def Work.startBegin (w : Work) (ev : StartEvent) : Work :=
  let x := w.hub.start
  let profileGood := x.stored.valid && ev.profileOk && ev.clamshell = w.hub.memory.clamshell
  let cold := x.coldPending || ev.powerOn || !profileGood
  let w := w.onStart fun y => { y with
    hubRstN := true
    state := 0
    step := if cold then 2 else 1
    cold := cold
    coldPending := false
    cause := 0
    startedAt := w.now
    event := ev
    profile := if profileGood then x.stored else {} }
  let w := w.assemblyTest ev.assembly
  let w := w.onHub fun h => { h with board := { h.board with
    thermtripN := true, strapRecovery := ev.strapRecovery, strapTest := ev.strapTest
    clocksLost := ev.refclkHpMissing ++ ev.refclkHwMissing.map (4 + ·) } }
  let w := w.startCode
  if w.mute then w
  else
    let w := if ev.strapTest && w.lc ≠ 0 then w.log { cls := 0x13, sev := 1, cause := 1 } else w
    if ev.strapRecovery then w.recovery 0
    else if !w.hub.start.flashValid || !ev.imageOk then w.recovery 3
    else w.startGo w.hub.start.flashVersion

end Sys2Proof.Machine
end

