-- ==== Sys2Proof/Machine/Binnacle.lean ====
section
/-! DEFINITION. The commands of the Binnacle (18): the throttle level (R511-R515), operating points (R508), droop (R516), ageing (R517, R518), temperature (R519), voltage control (R588). -/

namespace Sys2Proof.Machine

/-- The Binnacle runs: the hub is starting or in service. -/
def Work.binUp (w : Work) : Bool := !w.mute && w.hub.start.state ≤ 1

/-- The Binnacle's firmware is being replaced: limits are not evaluated meanwhile (R559). -/
def Work.binPaused (w : Work) : Bool := w.unitPaused 1

/-! ## Level and limits (R511-R515) -/

/-- Power of the sites in W: the last report of each, PMAX where telemetry has lapsed (R112, R511). -/
def Work.sitesW (w : Work) : Nat :=
  (((List.range 16).map fun n =>
    let s := w.site n
    if sidebandUp s then (if s.power.atPmax then 8 * pmaxOf s.port.cap else s.power.power) else 0).sum) / 8

/-- Package power in W (R511). -/
def Work.packageW (w : Work) (hubW holdW : Nat) : Nat := hubW + holdW + w.sitesW

/-- The samples of limit i's window (R511). -/
def limSamples (b : Bin) (i : Nat) : List Nat := b.hist.take (1000 * b.body.limWin.getD i 1)

/-- Enabled limits. -/
def limits (b : Bin) : List (Nat × Nat) := ((List.range 4).map fun i => (i, b.body.limW.getD i 0)).filter fun (_, v) => v ≠ 0

/-- The average of limit i's window stands above a percentage of a power: exact, with no rounding. -/
def avgOver (b : Bin) (i w percent : Nat) : Bool := let l := limSamples b i; percent * w * l.length < 100 * l.sum

/-- The average rule of R512. -/
def averageRule (b : Bin) : Bool :=
  (limits b).any fun (i, v) => avgOver b i v 100 || (avgOver b i v 98 && v < b.pkgW)

/-- A power limit is exceeded: an average, the hub's own, the peak (R510, R512). -/
def limitExceeded (b : Bin) (hubW : Nat) : Bool := ((limits b).any fun (i, v) => avgOver b i v 100) || b.body.hubMaxW < hubW || b.peakOver

/-- Every average and the last millisecond stand below 0.95 of each enabled limit (R512). -/
def averagesLow (b : Bin) : Bool :=
  (limits b).all fun (i, v) => 100 * (limSamples b i).sum < 95 * v * (limSamples b i).length && 100 * b.pkgW < 95 * v

/-- Send the limits that a change of level or of the critical state alters (R111, R513, R519); a site whose SITE_THERM_N holds it at 0 W keeps that. -/
def Work.sendLimits (w : Work) : Work :=
  each ((List.range 16).filter fun n => siteServing (w.site n) && !(w.site n).power.thermPending) (fun n w =>
    let (l, c) := w.siteLimit n
    if (w.site n).power.limit = l && (w.site n).power.limitCause = c then w else w.sendLimit n l c) w

/-- CAUSE of BIN_STAT (R515). -/
def Work.binCause (w : Work) : Nat :=
  let b := w.hub.bin
  pack [(1, b2n (averageRule b)), (1, b2n b.peakOver), (1, b2n (b.body.hubMaxW < b.hubW)), (1, b2n b.thermalHold), (1, b2n b.droopOver),
    (1, b2n ((List.range 16).any fun n => siteServing (w.site n) && (w.site n).power.atPmax))]

/-- The level and the cause after an event: points and site limits follow; the Log hears when L leaves or reaches 0 and when CAUSE changes, with the throttle interrupt at most once per 10 ms (R513, R515). -/
def Work.level (w : Work) (l : Nat) : Work :=
  let old := w.hub.bin
  let l := if old.avsLost || old.critical then 7 else min l 7
  let w := w.onBin fun b => { b with level := l, lastChange := if l = old.level then b.lastChange else w.now }
  let w := if l = old.level then w else w.count 18 0 l
  let c := w.binCause
  let w := (w.onBin fun b => { b with cause := c }).retarget.sendLimits
  if c = old.cause && (l = 0) = (old.level = 0) then w
  else
    let w := w.log { cls := 0x12, sev := 0, cause := 0x8009, detail := pack [(8, l), (8, c)] }
    let soon : Bool := match w.hub.bin.lastIrq with | some t => w.now < t + 10000 | none => false
    if soon then w else ((w.onBin fun b => { b with lastIrq := some w.now }).emit (.pldm 11)).irqs w.portsUp 11

/-! ## Temperature (R519) -/

/-- Sensors read: the thermal rule raises L from its points on and holds it until every sensor is 3 degrees below; a critical state ends once every sensor is below its throttle point. -/
def Work.sensors (w : Work) (hubTj holdTj : Nat) : Work :=
  let b := w.hub.bin
  let t := b.body.tThrottle
  let exceeds : Bool := t ≤ hubTj || 90 ≤ holdTj
  let w := w.onBin fun b => { b with
    hubTj := hubTj, holdTj := holdTj
    thermalHold := exceeds || (b.thermalHold && !(hubTj + 3 ≤ t && holdTj ≤ 87))
    critical := b.critical && exceeds }
  if !b.thermalHold && exceeds then w.count 18 0 22 else w

/-- The thermal rule raises L now. -/
def thermalRaise (b : Bin) : Bool := b.body.tThrottle ≤ b.hubTj || 90 ≤ b.holdTj

/-- THROTTLE_EVALUATION: power is added up, the rules of R512 move L by one step (R511-R515, R521, R523). -/
def execThrottleEvaluation (x : PowerSample) (s : State) : Host.Outcome State Fault Refusal :=
  s.run fun w =>
    if !w.binUp then w
    else
      let pkg := w.packageW x.hubW x.holdW
      let w := w.onBin fun b => { b with energy := b.energy + 1000 * (x.hubW + x.holdW), pkgEnergy := b.pkgEnergy + 1000 * pkg,
                                         pkgW := pkg, hubW := x.hubW, hist := (pkg :: b.hist).take 60000, droopOver := x.stretchOver }
      if w.binPaused then w
      else
        let w := w.sensors x.hubTj x.holdTj
        let b := w.hub.bin
        let avg := averageRule b
        let hub : Bool := b.body.hubMaxW < x.hubW
        let rise := avg || hub || thermalRaise b || b.droopOver
        let hold := rise || b.thermalHold || b.peakOver
        let l := if rise then b.level + 1
          else if !hold && averagesLow b && b.lastChange + 10000 ≤ w.now then b.level - 1 else b.level
        let w := (w.level l).count 18 0 (8 + w.hub.bin.level)
        let late : Bool := match w.hub.bin.lastExcess with | some t => t + 100000 ≤ w.now | none => true
        if w.hub.bin.level = 7 && limitExceeded b x.hubW && late then
          (w.onBin fun b => { b with lastExcess := some w.now }).log { cls := 0x12, sev := 0, cause := 0x8009, addr := 0, detail := pack [(8, 7), (8, w.hub.bin.cause), (16, pkg)] }
        else w

/-- PEAK_CHECK: over PEAK_W, L rises by 2 at once (R512). -/
def execPeakCheck (hubW holdW : Nat) (s : State) : Host.Outcome State Fault Refusal :=
  s.run fun w =>
    if !w.binUp || w.binPaused then w
    else
      let exceeds : Bool := w.hub.bin.body.peakW < w.packageW hubW holdW
      let w := w.onBin fun b => { b with peakOver := exceeds }
      w.level (if exceeds then w.hub.bin.level + 2 else w.hub.bin.level)

/-- OP_CHANGE_DONE: a domain has reached its point; a change of the arithmetic point waits while its clock is stretched (R508, R522). -/
def execOpChangeDone (domain : Nat) (s : State) : Host.Outcome State Fault Refusal :=
  s.run fun w => if !w.binUp || (domain = 0 && w.hub.bin.stretched) then w else w.opReached domain

/-- DROOP_DETECT: the arithmetic clock runs at half its frequency (R516). -/
def execDroopDetect (s : State) : Host.Outcome State Fault Refusal :=
  s.run fun w => if !w.binUp || w.hub.bin.stretched then w else (w.onBin fun b => { b with stretched := true }).count 18 0 19

/-- DROOP_RECOVERY: the full clock returns; how many cycles were stretched is a matter of time (R516, R523). -/
def execDroopRecovery (s : State) : Host.Outcome State Fault Refusal :=
  s.run fun w =>
    if !w.hub.bin.stretched then w
    else
      let (n, w) := w.fresh
      (w.onBin fun b => { b with stretched := false }).count 18 0 20 (n % 2 ^ 48)

/-- A point's voltage rises by 5 mV, at most 60 mV over its base; OP7, needing more, is retired (R517, R518). -/
def Work.trimUp (w : Work) (op : Nat) : Work :=
  let v := tget 0 w.hub.bin.trims op
  if v + 5 ≤ 60 then
    let w := (w.onBin fun b => { b with trims := tset b.trims op (v + 5) }).count 18 0 21
    let w := w.onProfile fun p => { p with trims := tset p.trims op (v + 5) }
    if opTarget w.hub.bin 0 = op then w.setVoltage op else w
  else if op = 7 && !w.hub.bin.op7Retired then
    let w := (w.onBin fun b => { b with op7Retired := true }).onProfile fun p => { p with op7Retired := true }
    (((w.log { cls := 0x12, sev := 1, cause := 0x800A }).emit (.pldm 11)).irqs w.portsUp 11).retarget
  else w

/-- AGEING_MEASUREMENT: `short` are the points whose slack is below its floor (R517). -/
def execAgeingMeasurement (short : List Nat) (s : State) : Host.Outcome State Fault Refusal :=
  s.run fun w => if !w.binUp then w else each ((List.range 8).filter fun p => p ∈ short) (fun p w => w.trimUp p) w

/-- SENSOR_THRESHOLD: a sensor crosses its throttle point (R519). -/
def execSensorThreshold (hubTj holdTj : Nat) (s : State) : Host.Outcome State Fault Refusal :=
  s.run fun w => if !w.binUp || w.binPaused then w else let w := w.sensors hubTj holdTj; w.level w.hub.bin.level

/-- THERMAL_CRITICAL: L becomes 7 and every site gets 0 W (R519). -/
def execThermalCritical (s : State) : Host.Outcome State Fault Refusal :=
  s.run fun w =>
    if !w.binUp || w.hub.bin.critical then w
    else
      let w := ((w.onBin fun b => { b with critical := true, thermalHold := true }).count 18 0 23).level 7
      let w := w.log { cls := 0x12, sev := 0, cause := 0x8009, detail := pack [(8, 7), (8, w.hub.bin.cause)] }
      (w.emit (.pldm 12)).irqs w.portsUp 12

/-- HUB_THERMTRIP: HUB_THERMTRIP_N is asserted and the hub held in reset; the next start is cold (R519, R591). -/
def execHubThermtrip (s : State) : Host.Outcome State Fault Refusal :=
  s.run fun w =>
    let w := (w.emit (.pin .thermtripN false)).onHub fun h => { h with board := { h.board with thermtripN := false } }
    w.askReset true

/-- AVSBUS_FAILURE: the third failed transaction in a row; L is held at 7 and a change under way stops at the point reached (R588, R599). -/
def execAvsbusFailure (s : State) : Host.Outcome State Fault Refusal :=
  s.run fun w =>
    if !w.binUp || w.hub.bin.avsLost then w
    else
      let w := w.onBin fun b => { b with avsLost := true, pendingOp := tdel b.pendingOp 0, partly := tdel b.pendingOp 0 ≠ [] }
      (w.level 7).log { cls := 0x12, sev := 3, cause := 0x8009, detail := pack [(8, 7), (8, w.hub.bin.cause)] }

end Sys2Proof.Machine
end

