-- ==== Sys2Proof/Machine/RecipeSteps.lean ====
section
/-! DEFINITION. The control and movement steps of a recipe (R196, R197, R206, R207), the ends of its accesses (R186, R189, R190), and the stall of expert service (R204). -/

namespace Sys2Proof.Machine

/-- NOP. -/
def execStepNop (w : Nat) (s : State) : Host.Outcome State Fault Refusal :=
  s.run fun k => k.stepGo w 0x00 fun _ _ k => k.nextStep w

/-- LOOP: a count of 0 goes past the matching ENDLOOP (R196). -/
def execLoopStep (w : Nat) (s : State) : Host.Outcome State Fault Refusal :=
  s.run fun k => k.stepGo w 0x01 fun r st k =>
    let n := if bit st.mode 0 then r.params.getD (bits st.imm 5 0) 0 % 2 ^ 32 else bits st.imm 23 0
    if n = 0 then k.onRun w fun r => { r with pc := skipLoop (r.recipe.steps.drop (r.pc + 1)) (r.pc + 1) 0 }
    else k.onRun w fun r => { r with loops := r.loops ++ [(r.pc + 1, n, 0)], pc := r.pc + 1 }

/-- ENDLOOP. -/
def execEndloop (w : Nat) (s : State) : Host.Outcome State Fault Refusal :=
  s.run fun k => k.stepGo w 0x02 fun r _ k =>
    match r.loops.getLast? with
    | some (start, n, i) =>
      if i + 1 < n then k.onRun w fun r => { r with loops := r.loops.dropLast ++ [(start, n, i + 1)], pc := start }
      else k.onRun w fun r => { r with loops := r.loops.dropLast, pc := r.pc + 1 }
    | none => k.nextStep w

/-- Scale bytes of a tile of local vectors: where they lie and how many. -/
def scaleSpan (t org scaleAt pos nv : Nat) : Nat × Nat := (scalePos t org scaleAt pos, nv * blocksPerVec t)

/-- LOAD (R188, R190, R194): it waits while a destination vector awaits an earlier LOAD. -/
def execLoadStep (w : Nat) (s : State) : Host.Outcome State Fault Refusal :=
  s.run fun k => k.stepGo w 0x03 fun r st k =>
    let src := streamOf r st.sa
    let dst := streamOf r st.sd
    let t := src.etype
    let pos := streamPos r src
    let base := streamPos r dst
    let pm := streamPos r (streamOf r st.pm)
    let masked := bit st.mode 0
    if base % 128 ≠ 0 || (!isMx t && pos % 128 ≠ 0) || (masked && pm % 4 ≠ 0) then k.endRun w stMisaligned
    else
      let arr := streamOrigin r src
      let (dva, len) := deviceSpan t arr pos st.nv
      let (sp, sn) := scaleSpan t (streamOrigin r dst) dst.scaleBase base st.nv
      let vecs := vecsOf base (128 * st.nv) ++ (if masked then vecsOf pm (st.nv * lanes st.ta / 8) else []) ++ vecsOf sp sn
      if vecs.any fun v => v ∈ (k.wright w).pend then k
      else
        let b := r.launch.berth
        match k.probeSpans w b false [(dva, len)] with
        | (.wait, k) => k
        | (.bad s _ _, k) => k.endRun w (statusOf s)
        | (.ok _ _, k) =>
          let a : Access := { step := r.pc, loops := loopIndices r, dva := dva, len := len, etype := t, arr := arr, rows := [(pos, 0, false)], nv := st.nv, base := base,
                              org := streamOrigin r dst, scaleAt := dst.scaleBase, maskAt := if masked then some pm else none, maskLanes := lanes st.ta, mode := st.mode, vecs := vecs }
          (k.startAccess w b a [(dva, len)]).nextStep w

/-- The berth that an engine's accesses carry: that of its launch (R180). -/
def Work.engineBerth (k : Work) (x : Nat) : Nat :=
  match (k.wright x).run with
  | some r => r.launch.berth
  | none => 0

/-- Vectors whose data did not arrive, or arrived poisoned, are written poisoned (R185, R211). -/
def Work.loadPoisoned (k : Work) (x : Nat) (a : Access) : Work :=
  let n := a.rows.length * a.nv
  let (d, k) := k.junk (128 * n)
  let vs := (List.range n).map fun i => { data := slice d (128 * i) 128, scales := List.replicate (blocksPerVec a.etype) 0, mask := 2 ^ lanes a.etype - 1, poison := true }
  k.onWright x fun e => loadInto e a vs

/-- LOAD_DATA_RETURN: the data is written and its pending bits cleared; a failed transfer ends the recipe (R186, R190, R209). -/
def execLoadDataReturn (w id : Nat) (outcome : XferEnd) (s : State) : Host.Outcome State Fault Refusal :=
  s.run fun k => k.underOld (.wright w) id fun k =>
    match (k.wright w).accesses.find? fun a => a.id = id && !a.store with
    | none => k
    | some a =>
      let k := k.portPump w (k.engineBerth w) a
      if k.homePending (.wright w) id || accessBlocked (k.wright w) a then k
      else
       let (o, k) := k.endOf (.wright w) id outcome
       match o with
        | .ok =>
          match k.loadVecs w (k.engineBerth w) a with
          | (.ok vs, k) => ((k.onWright w fun e => loadInto e a vs).count 2 w 20 (128 * vs.length)).endAccess w a
          | (.bad s, k) => ((if s = 7 then k.loadPoisoned w a else k).accessFails w a (statusOf s)).endAccess w a
          | (.wait, k) => k
        | .poisoned => (k.loadPoisoned w a).endAccess w a
        | .hostLinkLost => ((k.loadPoisoned w a).accessFails w a stLinkLost).endAccess w a
        | o => (k.accessFails w a (statusOf (endStatus o))).endAccess w a

/-- STORE: the bytes are taken at issue (R183, R187, R196); under PRED 1 vectors of zero mask are not written. -/
def execStoreStep (w : Nat) (s : State) : Host.Outcome State Fault Refusal :=
  s.run fun k => k.stepGo w 0x04 fun r st k =>
    let src := streamOf r st.sa
    let dst := streamOf r st.sd
    let t := dst.etype
    let pos := streamPos r dst
    let base := streamPos r src
    let pm := streamPos r (streamOf r st.pm)
    let n := lanes st.ta
    let m := k.wright w
    let (sp, sn) := scaleSpan t (streamOrigin r src) src.scaleBase base st.nv
    if base % 128 ≠ 0 || (!isMx t && pos % 128 ≠ 0) || (st.pred ≠ 0 && pm % 4 ≠ 0) then k.endRun w stMisaligned
    else if pendIn m base (128 * st.nv) || pendIn m sp sn || (st.pred ≠ 0 && pendIn m pm (st.nv * n / 8)) then k
    else
      let mask := localBits m pm (st.nv * n)
      let go := (List.range st.nv).filter fun v => st.pred ≠ 1 || bits mask (v * n + n - 1) (v * n) ≠ 0
      let skipped := st.nv - go.length
      let k := if go = [] then k.count 2 w 16 else k.count 2 w 17 skipped
      let k := k.viewCount r.launch.berth 1 (if go = [] then 1 else skipped)
      if go = [] then k.nextStep w
      else
        let arr := streamOrigin r dst
        let writes := go.flatMap fun v =>
          let a := base + 128 * v
          let sa := scalePos t (streamOrigin r src) src.scaleBase a
          storeVec t arr pos v (localRead m a 128) ((List.range (blocksPerVec t)).map fun i => leNat (localRead m (sa + i) 1)) (poisonIn m a 128 || poisonIn m sa (blocksPerVec t))
        let (dva, len) := deviceSpan t arr pos st.nv
        match k.probeSpans w r.launch.berth true (writes.map fun (p, d, _) => (p, d.length)) with
        | (.wait, k) => k
        | (.bad s _ _, k) => k.endRun w (statusOf s)
        | (.ok _ _, k) =>
          let a : Access := { store := true, step := r.pc, loops := loopIndices r, nv := go.length, dva := dva, len := len, etype := t, writes := writes }
          ((k.startAccess w r.launch.berth a []).count 2 w 21 (128 * go.length)).nextStep w

/-- Perform the writes of a store, in order, until one fails. -/
def Work.storeWrites (k : Work) (x b : Nat) (ws : List (Nat × List Byte × Bool)) : DvaRes × Work :=
  ws.foldl (fun (acc : DvaRes × Work) (p, d, bad) =>
    match acc.1 with
    | .ok _ _ => acc.2.engWrite (wrightUnit x) b p d bad
    | r => (r, acc.2)) (.ok [] [], k)

/-- STORE_COMPLETE: the write is done (R189); a failed one ends the recipe (R209). -/
def execStoreComplete (w id : Nat) (outcome : XferEnd) (s : State) : Host.Outcome State Fault Refusal :=
  s.run fun k => k.underOld (.wright w) id fun k =>
    match (k.wright w).accesses.find? fun a => a.id = id && a.store with
    | none => k
    | some a =>
      let k := k.portPump w (k.engineBerth w) a
      if k.homePending (.wright w) id || accessBlocked (k.wright w) a then k
      else
       let (outcome, k) := k.endOf (.wright w) id outcome
       if outcome = .ok || outcome = .poisoned then
        match k.storeWrites w (k.engineBerth w) a.writes with
        | (.wait, k) => k
        | (.bad s _ _, k) => (k.accessFails w a (statusOf s)).endAccess w a
        | (.ok _ _, k) => k.endAccess w a
      else (k.accessFails w a (statusOf (endStatus outcome))).endAccess w a

/-- A wait of a step that the Helm has answered goes on, or ends the recipe (R197). -/
def Work.waitDone (k : Work) (x : Nat) : Work :=
  match (k.wright x).run with
  | some r =>
    if r.phase ≠ .helm then k
    else match r.waitMet with
      | some 0 => (k.onRun x fun r => { r with waitMet := none }).nextStep x
      | some _ => k.endRun x stHelmError
      | none => k
  | none => k

/-- WAIT (R196, R256); it waits at its Helm port while the Helm pauses (R559). -/
def execWaitStep (w : Nat) (s : State) : Host.Outcome State Fault Refusal :=
  s.run fun k => k.stepGo w 0x05 fun r st k =>
    if k.helmPaused then k
    else
    let obj := bits st.imm 11 0
    let b := r.launch.berth
    let k := k.onRun w fun r => { r with phase := .helm, waitMet := none }
    match st.mode with
    | 0 => (k.markWait (.wright w) b obj (r.params.getD st.sb 0 % 2 ^ 32)).waitDone w
    | 1 =>
      let (c, k) := k.gateArrive (some (.wright w)) b obj
      if c = 0 then k.waitDone w else k.endRun w stHelmError
    | _ => (k.semAcquire (.wright w) b obj 1).waitDone w

/-- WAIT_SATISFIED: issue resumes (R197). A start mark that is met makes its launch eligible (R201). -/
def execWaitSatisfied (w : Nat) (s : State) : Host.Outcome State Fault Refusal := s.run fun k => k.waitDone w

/-- SIGNAL: performed only after every earlier STORE has completed (R197). -/
def execSignalStep (w : Nat) (s : State) : Host.Outcome State Fault Refusal :=
  s.run fun k => k.stepGo w 0x06 fun r st k =>
    if k.helmPaused || (k.wright w).accesses.any fun a => a.store then k
    else
      let obj := bits st.imm 11 0
      let b := r.launch.berth
      let (c, k) := match st.mode with
        | 0 => k.markAdd b obj 1
        | 1 => k.markAdd b obj (r.params.getD st.sb 0 % 2 ^ 32)
        | _ => k.semRelease b obj 1
      if c = 0 then k.nextStep w else k.endRun w stHelmError

/-- FENCE: it waits for every earlier LOAD and STORE (R189). -/
def execFenceStep (w : Nat) (s : State) : Host.Outcome State Fault Refusal :=
  s.run fun k => k.stepGo w 0x07 fun _ _ k => if (k.wright w).accesses = [] then k.nextStep w else k

/-- Make a token of the inbox the current token and write its four parameter words (R206). -/
def Work.takeToken (k : Work) (x : Nat) (a : Nat) (p : Packet) : Work :=
  (k.onRun x fun r =>
    let imm := (curStep r).imm
    { r with current := some p, currentSlot := a,
             params := (((r.params.set 60 a).set 61 p.expert).set 62 p.rank).set 63 (p.expert * imm % 2 ^ 64) }).nextStep x

/-- INBOX (R206). -/
def execInbox (w : Nat) (s : State) : Host.Outcome State Fault Refusal :=
  s.run fun k => k.stepGo w 0x08 fun _ st k =>
    let k := (k.nullAnswer w).fillInbox w
    match (k.wright w).inbox with
    | (a, p) :: _ => k.takeToken w a p
    | [] => if bit st.mode 0 then k.endRun w stOk else k.onRun w fun r => { r with phase := .inbox }

/-- INBOX_TOKEN_PRESENT: the INBOX that waits completes (R206). -/
def execInboxTokenPresent (w : Nat) (s : State) : Host.Outcome State Fault Refusal :=
  s.run fun k =>
    match (k.wright w).run, (k.wright w).inbox with
    | some r, (a, p) :: _ => if r.phase = .inbox then k.takeToken w a p else k
    | _, _ => k

/-- A slot of the inbox is free: a held token takes it, and a full inbox is full no longer (R204, R207). -/
def Work.slotFreed (k : Work) (x slot : Nat) : Work :=
  (k.onWright x fun e => { e with inbox := tdel e.inbox slot, full := false }).fillInbox x

/-- ANSWER (R207). -/
def execAnswer (w : Nat) (s : State) : Host.Outcome State Fault Refusal :=
  s.run fun k => k.stepGo w 0x09 fun r st k =>
    match r.current with
    | none => (k.count 2 w 26).nextStep w
    | some p =>
      if bit st.mode 0 then ((k.nullAnswer w).slotFreed w r.currentSlot).nextStep w
      else
        let pos := streamPos r (streamOf r st.sa)
        let n := 32 * (match k.table p.table with | some t => t.hdr.outBeats | none => 0)
        let m := k.wright w
        if pos % 128 ≠ 0 then k.endRun w stMisaligned
        else if pendIn m pos n then k
        else
          let k := k.combineOut (w / 4) p 0 (localRead m pos n) (poisonIn m pos n)
          (((k.onRun w fun r => { r with current := none }).count 2 w 24).slotFreed w r.currentSlot).nextStep w

/-- HALT, and the end of the step list (R196). -/
def execHalt (w : Nat) (s : State) : Host.Outcome State Fault Refusal :=
  s.run fun k =>
    match (k.wright w).run with
    | some r => if r.phase = .issue && (r.recipe.steps.length ≤ r.pc || (curStep r).op = 0x0F) then k.endRun w stOk else k
    | none => k

/-- SERVE_STALL_TIMEOUT: no SERVE recipe has run while tokens wait, or the inbox has stayed full, for 1 ms; held tokens go to the overflow policy (R204). -/
def execServeStallTimeout (w : Nat) (s : State) : Host.Outcome State Fault Refusal :=
  s.run fun k =>
    let e := k.wright w
    let serving := match e.run with | some r => r.recipe.serve | none => false
    let waits := e.inbox ≠ [] || e.waitingToks ≠ []
    let full := 0 < e.slots && e.slots ≤ e.inbox.length
    if waits && (!serving || full) then (k.onWright w fun e => { e with stalled := e.stalled || !serving, full := e.full || full }).spillToks w else k

end Sys2Proof.Machine
end

