-- ==== Sys2Proof/Machine/CatalogueOps.lean ====
section
/-! DEFINITION. What the catalogue operators compute (07): sources and masks, the kinds of operator of R220, and how a step's results enter local memory (R185, R199, R209, R242). -/

namespace Sys2Proof.Machine

/-! ## Sources -/

/-- An operator at work: the engine, its run, its step. -/
structure Op where
  m : Wright
  r : Run
  st : Step

/-- Position of a stream field. -/
def Op.pos (c : Op) (i : Nat) : Nat := streamPos c.r (streamOf c.r i)

/-- RND and the bits SAT and X of MODE (R214). -/
def Op.rnd (c : Op) : Nat := bits c.st.mode 1 0
def Op.sat (c : Op) : Bool := bit c.st.mode 2
def Op.x (c : Op) : Bool := bit c.st.mode 3

/-- A source tile: its type, place, element codes and scales. -/
structure Src where
  t : Nat
  pos : Nat
  codes : List Nat
  scaleAt : Nat := 0
  scales : List Nat := []

/-- The first n elements of a tile of a stream, in a type. -/
def Op.src (c : Op) (i t n : Nat) : Src :=
  let s := streamOf c.r i
  let p := c.pos i
  let nv := vecsFor t n
  let sp := scalePos t (streamOrigin c.r s) s.scaleBase p
  { t := t, pos := p, codes := tileCodes t n (localRead c.m p (128 * nv)), scaleAt := sp,
    scales := (localRead c.m sp (nv * blocksPerVec t)).map BitVec.toNat }

/-- Code and value of an element (R213). -/
def Src.code (s : Src) (j : Nat) : Nat := s.codes.getD j 0
def Src.val (s : Src) (j : Nat) : Val := if isMx s.t then decodeScaled s.t (s.scales.getD (j / 32) 0) (s.code j) else decodeElem s.t (s.code j)

/-- An element of INT8 or INT32 read as an integer. -/
def Src.int (s : Src) (j : Nat) : Int := signedOf (eBits s.t) (s.code j)

/-- Regions of local memory that elements lo to lo + n - 1 of a source lie in. -/
def Src.regs (s : Src) (lo n : Nat) : List (Nat × Nat) :=
  let v0 := lo / lanes s.t
  let v1 := (lo + n - 1) / lanes s.t
  if n = 0 then [] else
    (s.pos + 128 * v0, 128 * (v1 + 1 - v0)) :: if isMx s.t then [(s.scaleAt + v0 * blocksPerVec s.t, (v1 + 1 - v0) * blocksPerVec s.t)] else []

/-- Some region is poisoned. -/
def badRegs (m : Wright) (l : List (Nat × Nat)) : Bool := l.any fun (a, n) => poisonIn m a n

/-- Mask bits of the step: all ones without PRED (R199). -/
def Op.mask (c : Op) (n : Nat) : Nat := if c.st.pred = 0 then 2 ^ n - 1 else localBits c.m (c.pos c.st.pm) n

/-- The region of the step's mask. -/
def Op.maskRegs (c : Op) (n : Nat) : List (Nat × Nat) := if c.st.pred = 0 then [] else [(c.pos c.st.pm, ceilDiv n 8)]

/-- Vectors of L elements that issue under the mask (R199): all of them but those that PRED 1 skips. -/
def Op.issues (c : Op) (mask L : Nat) : List Nat :=
  (List.range c.st.nv).filter fun v => c.st.pred ≠ 1 || bits mask (v * L + L - 1) (v * L) ≠ 0

/-! ## Results -/

/-- What a step does to its engine: regions read, bit writes (place, width, code, issue) applied in order, vectors written poisoned by an issue, whole vectors moved in order (place, bytes, poison, issue), parameter words, out-of-bounds indices, an access of a device stream, and what issued or was skipped. -/
structure OpOut where
  reads : List (Nat × Nat) := []
  writes : List (Nat × Nat × Nat × Nat) := []
  bad : List (Nat × Nat) := []
  moves : List (Nat × List Byte × Bool × Nat) := []
  params : List (Nat × Nat) := []
  bounds : Nat := 0
  access : Option (Access × List (Nat × Nat)) := none
  issued : Nat := 0
  skipped : Nat := 0
  tileSkipped : Bool := false

/-- Vectors that a result's writes touch. -/
def OpOut.vecs (o : OpOut) : List Nat :=
  (o.writes.map fun (p, _, _, _) => vecOf (p / 8)) ++ (o.moves.flatMap fun (a, d, _, _) => vecsOf a d.length)

/-- Results before a faulting issue enter local memory; poison follows R185. -/
def applyOut (m : Wright) (o : OpOut) (limit : Option Nat) : Wright :=
  let live (i : Nat) : Bool := match limit with | some v => i < v | none => true
  let ws := o.writes.filter fun (_, _, _, i) => live i
  let m := ws.foldl (fun m (p, n, c, _) => putLocal m p n c) m
  let bad := (o.bad.filter fun (_, i) => live i).map (·.1)
  let touched := ws.map fun (p, _, _, _) => vecOf (p / 8)
  let m := { m with poison := bad.foldl addTo (m.poison.filter fun v => v ∉ touched) }
  (o.moves.filter fun (_, _, _, i) => live i).foldl (fun m (a, d, b, _) => localWrite m a d b) m

/-- Streams of a step lie as R194 asks. -/
def Op.aligned (c : Op) : Bool :=
  (stepRoles c.st).all fun (i, role) =>
    let s := streamOf c.r i
    let p := streamPos c.r s
    match role with
    | .mask => p % 4 = 0
    | _ => if s.space = 1 then isMx s.etype || p % 128 = 0 else p % 128 = 0

/-- The engine as the SEC-DED leaves it that read for an operator: a vector with an uncorrectable error is poisoned (R185). -/
def struck (m : Wright) (ev : OpEvent) : Wright := { m with poison := ev.upset.foldl addTo m.poison }

/-- Stall cycles of an engine, which hang on its pipeline and on its walks, count by a free value (R184, R188, R210; log 138). -/
def Work.stallCount (w : Work) (x c : Nat) : Work :=
  w.fresh.2.count 2 x c (w.fresh.1 % 2 ^ 48)

/-- Run one catalogue operator on an engine (R199, R209, R242): it waits on pending vectors, ends misaligned, and never writes a vector that failed its check twice. -/
def Work.runOp (k : Work) (ev : OpEvent) (op : Nat) (f : Op → OpOut) : Work :=
  k.stepGo ev.engine op fun r st k =>
    let x := ev.engine
    let c : Op := { m := struck (k.wright x) ev, r := r, st := st }
    if !c.aligned then k.endRun x stMisaligned
    else
      let o := f c
      if o.reads.any (fun (a, n) => pendIn c.m a n) || o.vecs.any (fun v => v ∈ c.m.pend) then k
      else
        let done (k : Work) : Work :=
          let k := (k.onWright x fun m => applyOut (struck m ev) o ev.twice).onRun x fun r =>
            { r with params := o.params.foldl (fun ps (i, v) => ps.set i v) r.params, bounds := min 0xFFFF (r.bounds + o.bounds) }
          let k := ((k.count 2 x 15 o.issued).count 2 x 16 (b2n o.tileSkipped)).count 2 x 17 o.skipped
          let k := ((k.viewCount r.launch.berth 0 o.issued).viewCount r.launch.berth 1 (b2n o.tileSkipped + o.skipped)).count 2 x 22 ev.once.length
          let k := (k.count 2 x 23 ev.corrected).stallCount x 18
          match ev.twice with
          | some v => k.datapathFault x v
          | none => k.nextStep x
        match o.access with
        | none => done k
        | some (a, spans) =>
          match k.probeSpans x r.launch.berth a.store (if a.store then a.writes.map fun (p, d, _) => (p, d.length) else spans) with
          | (.wait, k) => k
          | (.bad s _ _, k) => ((k.onWright x fun m => struck m ev).count 2 x 23 ev.corrected).endRun x (statusOf s)
          | (.ok _ _, k) =>
            if ev.twice.isSome then done k
            else done ((k.startAccess x r.launch.berth a spans).count 2 x 21 (if a.store then 128 * a.nv else 0))

/-! ## Matched operators (R220) -/

/-- A step whose every vector was skipped. -/
def skippedOut (reads : List (Nat × Nat)) : OpOut := { reads := reads, tileSkipped := true }

/-- Element j of the result from element j of the sources, under the mask: `regs` gives the regions an issue reads, `td` and `dst` the result's type and place, `width` 1 for a mask result. -/
def Op.matched (c : Op) (L n : Nat) (regs : Nat → List (Nat × Nat)) (dst : Nat) (place : Nat → Nat) (width : Nat) (f : Nat → Nat) : OpOut :=
  let mask := c.mask n
  let go := c.issues mask L
  let reads := c.maskRegs n ++ go.flatMap regs
  if c.st.pred = 1 && mask = 0 then skippedOut reads
  else
    let elems (v : Nat) : List Nat := (List.range L).map (· + v * L)
    { reads := reads,
      writes := go.flatMap fun v => ((elems v).filter fun j => bit mask j).map fun j => (8 * dst + place j, width, f j, v),
      bad := (go.filter fun v => badRegs c.m (regs v)).flatMap fun v => ((elems v).map fun j => (vecOf (dst + place j / 8), v)),
      issued := go.length, skipped := c.st.nv - go.length }

/-- Bytes 96-127 of each vector of a six-bit type that element writes touch are written as zero (R181). -/
def sixTail (t : Nat) (ws : List (Nat × Nat × Nat × Nat)) : List (Nat × Nat × Nat × Nat) :=
  if t = 8 || t = 9 then ws ++ (ws.map fun (p, _, _, i) => (p / 1024 * 1024 + 768, 256, 0, i)) else ws

/-- The bytes of a vector as a type moves them: of a six-bit type bytes 96-127 are not read, and are zero where written (R181). -/
def vectorBytes (t : Nat) (d : List Byte) : List Byte := if t = 8 || t = 9 then slice (slice d 0 96) 0 128 else d

/-- A matched operator of TA sources with a result in a type. -/
def Op.elementwise (c : Op) (srcs : List Src) (td : Nat) (f : Nat → Nat) : OpOut :=
  let L := lanes c.st.ta
  c.matched L (c.st.nv * L) (fun v => srcs.flatMap fun s => s.regs (v * L) L) (c.pos c.st.sd) (elemBit td) (eBits td) f

/-- Elements of the tile in TA. -/
def Op.n (c : Op) : Nat := c.st.nv * lanes c.st.ta

/-- Source tiles of the step's fields in TA. -/
def Op.a (c : Op) : Src := c.src c.st.sa c.st.ta c.n
def Op.b (c : Op) : Src := c.src c.st.sb c.st.ta c.n
def Op.c3 (c : Op) : Src := c.src c.st.sc c.st.ta c.n

/-- An integer result in INT8: wrapped, or saturated with SAT (R217). -/
def Op.int8 (c : Op) (i : Int) : Nat := unsignedOf 8 (if c.sat then satInt 8 i else i)

/-- A float result in TD (R213, R217). -/
def Op.enc (c : Op) (v : Val) : Nat := encodeVal c.st.td c.rnd c.sat v

/-- Elementwise arithmetic of two sources (R221). -/
def Op.arith2 (c : Op) (fv : Val → Val → Val) (fi : Int → Int → Int) : OpOut :=
  let a := c.a
  let b := c.b
  c.elementwise [a, b] c.st.td fun j => if c.st.ta = 5 then c.int8 (fi (a.int j) (b.int j)) else c.enc (fv (a.val j) (b.val j))

/-- ABS and NEG: with TA = TD a float changes only its sign bit (R216). -/
def Op.signOp (c : Op) (fv : Val → Val) (fi : Int → Int) (fs : Nat → Nat) : OpOut :=
  let a := c.a
  c.elementwise [a] c.st.td fun j =>
    if c.st.ta = 5 then c.int8 (fi (a.int j)) else if c.st.ta = c.st.td then fs (a.code j) else c.enc (fv (a.val j))

/-- Sign bit of a float type. -/
def signOf (t : Nat) : Nat := 2 ^ (eBits t - 1)

/-- One source through a function of values (R221, R223). -/
def Op.unary (c : Op) (fv : Val → Val) : OpOut :=
  let a := c.a
  c.elementwise [a] c.st.td fun j => c.enc (fv (a.val j))

/-- The condition that a CMP selects (R222). -/
def cmpHolds (cond : Nat) (a b : Val) : Bool :=
  let un := a.isNan || b.isNan
  let lt := !un && ltVal a b
  let gt := !un && ltVal b a
  let eq := !un && !lt && !gt
  match cond with
  | 0 => eq
  | 1 => !eq
  | 2 => lt
  | 3 => lt || eq
  | 4 => gt
  | 5 => gt || eq
  | _ => un

/-- A mask result: one bit per element of SA (R222, R233). -/
def Op.maskResult (c : Op) (srcs : List Src) (f : Nat → Bool) : OpOut :=
  let L := lanes c.st.ta
  c.matched L c.n (fun v => srcs.flatMap fun s => s.regs (v * L) L) (c.pos c.st.sd) (fun j => j) 1 fun j => b2n (f j)

/-! ## Reductions (R225, R226) -/

/-- Fold values pair by pair, level by level; an absent value passes its partner through. -/
def treeFold (f : Val → Val → Val) : Nat → List (Option Val) → Option Val
  | 0, l => (l.headD none)
  | fuel + 1, l =>
    if l.length ≤ 1 then l.headD none
    else treeFold f fuel ((chunks 2 l).map fun p =>
      match p with
      | [some a, some b] => some (f a b)
      | [some a, none] => some a
      | [none, b] => b
      | [a] => a
      | _ => none)

/-- Addition rounded to FP32. -/
def add32 (a b : Val) : Val := v32 (addVal 0 a b)

/-- The partial of one lane: a sum of products, each step fused (R226). -/
def lanePartial (terms : List (Val × Val)) : Option Val :=
  terms.foldl (fun p (a, b) => match p with
    | none => some (v32 (mulVal a b))
    | some s => some (v32 (addVal 0 s (mulVal a b)))) none

/-- Included elements of a lane, in vector order, among the vectors that issue. -/
def laneElems (mask L : Nat) (go : List Nat) (k : Nat) : List Nat := (go.map fun v => v * L + k).filter fun j => bit mask j

/-- A sum in the order of R226 over the included elements: the lanes' partials, then the tree. -/
def sumR226 (mask L : Nat) (go : List Nat) (term : Nat → Val × Val) : Option Val :=
  treeFold add32 10 ((List.range L).map fun k => lanePartial ((laneElems mask L go k).map term))

/-- One. -/
def one32 : Val := .fin false 1 0

/-- How a reduction folds: a sum of products, or an extreme. -/
inductive RedKind where
  | sum | max | min | amax
  deriving DecidableEq, Repr

/-- A reduction of floats over some elements of lanes: the value, or none where nothing is included. -/
def redFloat (kind : RedKind) (mask L : Nat) (go : List Nat) (ks : List Nat) (term : Nat → Val × Val) : Option Val :=
  let js := ks.flatMap (laneElems mask L go)
  match kind with
  | .sum => treeFold add32 10 (ks.map fun k => lanePartial ((laneElems mask L go k).map term))
  | .max => if js = [] then none else some ((js.map fun j => (term j).1).foldl maxVal (.inf true))
  | .min => if js = [] then none else some ((js.map fun j => (term j).1).foldl minVal (.inf false))
  | .amax => if js = [] then none else some ((js.map fun j => absVal (term j).1).foldl maxVal (.fin false 0 0))

/-- A reduction of integers, exact. -/
def redInt (kind : RedKind) (js : List Nat) (term : Nat → Int × Int) : Option Int :=
  if js = [] then none
  else match kind with
    | .sum => some ((js.map fun j => (term j).1 * (term j).2).sum)
    | .max => some ((js.map fun j => (term j).1).foldl max (-128))
    | .min => some ((js.map fun j => (term j).1).foldl min 127)
    | .amax => some ((js.map fun j => ((term j).1.natAbs : Int)).foldl max 0)

/-- A reduction (R225, R226): `term` gives the two factors of an element. -/
def Op.reduce (c : Op) (kind : RedKind) (srcs : List Src) (fv : Nat → Val × Val) (fi : Nat → Int × Int) : OpOut :=
  let L := lanes c.st.ta
  let mask := c.mask c.n
  let go := c.issues mask L
  let reads := c.maskRegs c.n ++ go.flatMap fun v => srcs.flatMap fun s => s.regs (v * L) L
  if c.st.pred = 1 && mask = 0 then skippedOut reads
  else
    let isInt := c.st.ta = 5
    let wide : Bool := isInt && (kind = .sum || kind = .amax)
    let td := if wide then 0 else c.st.td
    let lane := bit c.st.mode 3
    let acc := bit c.st.mode 2
    let outs : List (Nat × List Nat) := if lane then (List.range L).map fun k => (k, [k]) else [(bits c.st.imm 6 0, List.range L)]
    let dst := c.pos c.st.sd
    let old := c.src c.st.sd td (if lane then L else lanes td)
    let result (k : Nat) (ks : List Nat) : Option Nat :=
      if isInt then
        let w := if wide then 32 else 8
        let fold (d r : Int) : Int := match kind with | .sum => d + r | .max | .amax => max d r | .min => min d r
        match redInt kind (ks.flatMap (laneElems mask L go)) fi with
        | some r => some (unsignedOf w (satInt w (if acc then fold (signedOf w (old.code k)) r else r)))
        | none => if acc then none else some (match kind with | .sum | .amax => 0 | .max => 0x80 | .min => 0x7F)
      else
        let fold (d r : Val) : Val := match kind with | .sum => addVal c.rnd d r | .max | .amax => maxVal d r | .min => minVal d r
        match redFloat kind mask L go ks fv with
        | some r => some (encodeVal td c.rnd false (if acc then fold (old.val k) r else r))
        | none => if acc then none else some (encodeVal td c.rnd false (match kind with | .sum | .amax => .fin false 0 0 | .max => .inf true | .min => .inf false))
    let places := outs.map fun (k, _) => (vecOf (dst + elemBit td k / 8), c.st.nv)
    let oldBad : Bool := acc && outs.any fun (k, _) => poisonIn c.m (dst + elemBit td k / 8) 1
    { reads := reads ++ if acc then (outs.map fun (k, _) => (dst + elemBit td k / 8, 1)) else [],
      writes := outs.filterMap fun (k, ks) => (result k ks).map fun r => (8 * dst + elemBit td k, eBits td, r, c.st.nv),
      bad := if oldBad || go.any (fun v => badRegs c.m (srcs.flatMap fun s => s.regs (v * L) L)) then places else [],
      issued := go.length, skipped := c.st.nv - go.length }

/-! ## Rows (R227, R228) -/

/-- A row operator: the included elements give statistics, and each included element its result. A poisoned source vector poisons every result (R242). -/
def Op.rowOp (c : Op) (srcs : List Src) (f : List Nat → List Val) : OpOut :=
  let L := lanes c.st.ta
  let mask := c.mask c.n
  let go := c.issues mask L
  let regs := go.flatMap fun v => srcs.flatMap fun s => s.regs (v * L) L
  let reads := c.maskRegs c.n ++ regs
  if c.st.pred = 1 && mask = 0 then skippedOut reads
  else
    let row := (go.flatMap fun v => (List.range L).map (· + v * L)).filter fun j => bit mask j
    let dst := c.pos c.st.sd
    { reads := reads,
      writes := (row.zip (f row)).map fun (j, v) => (8 * dst + elemBit c.st.td j, eBits c.st.td, c.enc v, j / L),
      bad := if badRegs c.m regs then row.map fun j => (vecOf (dst + elemBit c.st.td j / 8), j / L) else [],
      issued := go.length, skipped := c.st.nv - go.length }

/-- Number of elements, exact in FP32. -/
def countVal (row : List Nat) : Val := ofInt row.length

/-- Sum of products over a row in the order of R226. -/
def rowSum (L : Nat) (row : List Nat) (term : Nat → Val × Val) : Val :=
  (sumR226 (maskOf row) L ((row.map (· / L)).eraseDups) term).getD (.fin false 0 0)

/-! ## Microscaling (R231, R232) -/

/-- QUANT and REQUANT (R231, R232): blocks of 32 elements, their scales to SD's scale area. -/
def Op.quant (c : Op) (a : Src) : OpOut :=
  let L := lanes c.st.ta
  let td := c.st.td
  let s := streamOf c.r c.st.sd
  let dst := c.pos c.st.sd
  let sp := scalePos td (streamOrigin c.r s) s.scaleBase dst
  let regs (v : Nat) : List (Nat × Nat) := a.regs (v * L) L
  let blocks := List.range (c.n / 32)
  let scales := blocks.map fun k => scaleCode td ((List.range 32).map fun i => a.val (32 * k + i))
  let issue (j : Nat) : Nat := j / L
  { reads := (List.range c.st.nv).flatMap regs,
      writes := sixTail td ((List.range c.n).map fun j => (8 * dst + elemBit td j, eBits td, quantElem td c.rnd (scales.getD (j / 32) 0) (a.val j), issue j))
        ++ blocks.map fun k => (8 * (sp + k), 8, scales.getD k 0, issue (32 * k + 31)),
      bad := ((List.range c.st.nv).filter fun v => badRegs c.m (regs v)).flatMap fun v =>
        ((List.range L).map fun i => (vecOf (dst + elemBit td (v * L + i) / 8), v)) ++ (List.range (ceilDiv L 32)).map fun i => (vecOf (sp + v * L / 32 + i), v),
      issued := c.st.nv }

/-! ## Gather, scatter, compaction (R234-R236) -/

/-- Where an index points: a row, or out of bounds and what MODE does then: none moves nothing. -/
def boundIndex (mode nrow : Nat) (i : Int) : Option Nat × Bool :=
  if 0 ≤ i && i < nrow then (some i.toNat, false)
  else if mode = 2 then (some (if i < 0 then 0 else nrow - 1), true)
  else (none, true)

/-- Indices that move: their place, where they point, whether out of bounds, poison of the index vector. -/
def Op.indices (c : Op) : List (Nat × Option Nat × Bool × Bool) :=
  let ix := c.src c.st.sb 0 c.st.nv
  let nrow := c.r.params.getD (bits c.st.imm 17 12) 0 % 2 ^ 32
  let mask := c.mask c.st.nv
  ((List.range c.st.nv).filter fun j => bit mask j).map fun j =>
    let (into, out) := boundIndex (bits c.st.mode 1 0) nrow (ix.int j)
    (j, into, out, poisonIn c.m (ix.pos + 4 * j) 4)

/-- Vectors of a row. -/
def Op.rowVecs (c : Op) : Nat := bits c.st.imm 11 0 + 1

/-- The region of the index tile, and of the mask. -/
def Op.indexRegs (c : Op) : List (Nat × Nat) := (c.pos c.st.sb, 4 * c.st.nv) :: c.maskRegs c.st.nv

/-- The scale bytes of n vectors of a local stream from a position (R187). -/
def Op.scaleRegs (c : Op) (i pos n : Nat) : List (Nat × Nat) :=
  let s := streamOf c.r i
  if isMx c.st.ta then [(scalePos c.st.ta (streamOrigin c.r s) s.scaleBase pos, n * blocksPerVec c.st.ta)] else []

/-- Regions of a row of vectors of a local stream, its scales among them. -/
def Op.rowRegs (c : Op) (i pos : Nat) : List (Nat × Nat) := (pos, 128 * c.rowVecs) :: c.scaleRegs i pos c.rowVecs

/-- Move a row of vectors, with its scales, inside local memory: moves, scale writes, and the scale vectors that a poisoned source vector poisons. -/
def Op.rowMove (c : Op) (src dst : Nat) (from_ into : Nat) (bad : Bool) (issue : Nat) :
    List (Nat × List Byte × Bool × Nat) × List (Nat × Nat × Nat × Nat) × List (Nat × Nat) :=
  let t := c.st.ta
  let s := streamOf c.r src
  let d := streamOf c.r dst
  let vs := List.range c.rowVecs
  let hurt (v : Nat) : Bool := bad || badRegs c.m ((from_ + 128 * v, 128) :: c.scaleRegs src (from_ + 128 * v) 1)
  (vs.map fun v => (into + 128 * v, vectorBytes t (localRead c.m (from_ + 128 * v) 128), hurt v, issue),
   vs.flatMap fun v => (List.range (blocksPerVec t)).map fun i =>
     (8 * (scalePos t (streamOrigin c.r d) d.scaleBase (into + 128 * v) + i), 8,
      leNat (localRead c.m (scalePos t (streamOrigin c.r s) s.scaleBase (from_ + 128 * v) + i) 1), issue),
   (vs.filter hurt).flatMap fun v => (c.scaleRegs dst (into + 128 * v) 1).flatMap fun (a, n) => (vecsOf a n).map fun u => (u, issue))

/-- GATHER (R234): from local memory at once, from a device stream by an access. -/
def Op.gather (c : Op) : OpOut :=
  let ix := c.indices
  let rv := c.rowVecs
  let s := streamOf c.r c.st.sa
  let d := streamOf c.r c.st.sd
  let dst := c.pos c.st.sd
  let oob := (ix.filter fun (_, _, o, _) => o).length
  let skipped := c.st.pred = 1 && ix = []
  let zeros := if bits c.st.mode 1 0 = 0 then (ix.filter fun (_, t, _, _) => t.isNone).flatMap fun (j, _, _, b) =>
      (List.range rv).map fun v => (dst + (j * rv + v) * 128, List.replicate 128 0, b, j) else []
  let rows := ix.filterMap fun (j, t, _, b) => t.map fun r => (j, r, b)
  if skipped then skippedOut c.indexRegs
  else if s.space = 0 then
    let ms := rows.map fun (j, r, b) => c.rowMove c.st.sa c.st.sd (c.pos c.st.sa + r * rv * 128) (dst + j * rv * 128) b j
    { reads := c.indexRegs ++ rows.flatMap (fun (_, r, _) => c.rowRegs c.st.sa (c.pos c.st.sa + r * rv * 128)),
      writes := ms.flatMap (·.2.1), bad := ms.flatMap (·.2.2), moves := zeros ++ ms.flatMap (·.1), bounds := oob, issued := ix.length * rv }
  else
    let t := s.etype
    let pos := c.pos c.st.sa
    let arr := streamOrigin c.r s
    let at_ (r : Nat) : Nat := pos + r * rv * if isMx t then blocksPerVec t else 128
    let spans := rows.map fun (_, r, _) => deviceSpan t arr (at_ r) rv
    let lo := spans.foldl (fun x (a, _) => min x a) (2 ^ 57)
    let hi := spans.foldl (fun x (a, n) => max x (a + n)) 0
    let into := rows.flatMap fun (j, _, _) => c.rowRegs c.st.sd (dst + j * rv * 128)
    let vecs := into.flatMap fun (p, n) => vecsOf p n
    let a : Access := { step := c.r.pc, loops := loopIndices c.r, dva := lo, len := hi - lo, etype := t, arr := arr, rows := rows.map fun (j, r, b) => (at_ r, j * rv * 128, b),
                        nv := rv, base := dst, org := streamOrigin c.r d, scaleAt := d.scaleBase, vecs := vecs }
    { reads := c.indexRegs ++ into, moves := zeros, bounds := oob, issued := ix.length * rv,
      access := if rows = [] then none else some (a, spans) }

/-- SCATTER (R235): rows in index order, to local memory or by an access. -/
def Op.scatter (c : Op) : OpOut :=
  let ix := c.indices
  let rv := c.rowVecs
  let s := streamOf c.r c.st.sa
  let d := streamOf c.r c.st.sd
  let src := c.pos c.st.sa
  let dst := c.pos c.st.sd
  let oob := (ix.filter fun (_, _, o, _) => o).length
  let rows := ix.filterMap fun (j, t, _, b) => t.map fun r => (j, r, b)
  let reads := c.indexRegs ++ rows.flatMap fun (j, _, _) => c.rowRegs c.st.sa (src + j * rv * 128)
  if c.st.pred = 1 && ix = [] then skippedOut reads
  else if d.space = 0 then
    let ms := rows.map fun (j, r, b) => c.rowMove c.st.sa c.st.sd (src + j * rv * 128) (dst + r * rv * 128) b j
    { reads := reads, writes := ms.flatMap (·.2.1), bad := ms.flatMap (·.2.2), moves := ms.flatMap (·.1), bounds := oob, issued := ix.length * rv }
  else
    let t := d.etype
    let arr := streamOrigin c.r d
    let writes := rows.flatMap fun (j, r, b) => (List.range rv).flatMap fun v =>
      let p := src + (j * rv + v) * 128
      storeVec t arr (dst + r * rv * if isMx t then blocksPerVec t else 128) v (localRead c.m p 128)
        ((List.range (blocksPerVec t)).map fun i => leNat (localRead c.m (scalePos t (streamOrigin c.r s) s.scaleBase p + i) 1)) (b || badRegs c.m ((p, 128) :: c.scaleRegs c.st.sa p 1))
    let lo := writes.foldl (fun x (a, _, _) => min x a) (2 ^ 57)
    let hi := writes.foldl (fun x (a, d, _) => max x (a + d.length)) 0
    let a : Access := { store := true, step := c.r.pc, loops := loopIndices c.r, nv := rows.length * rv, dva := lo, len := hi - lo, etype := t, writes := writes }
    { reads := reads, bounds := oob, issued := ix.length * rv, access := if writes = [] then none else some (a, []) }

/-- SCATTER_ADD (R235): each row is added in index order, each add rounded to FP32. -/
def Op.scatterAdd (c : Op) : OpOut :=
  let ix := c.indices
  let rv := c.rowVecs
  let src := c.pos c.st.sa
  let dst := c.pos c.st.sd
  let rows := ix.filterMap fun (j, t, _, b) => t.map fun r => (j, r, b)
  let reads := c.indexRegs ++ rows.flatMap fun (j, r, _) => [(src + j * rv * 128, 128 * rv), (dst + r * rv * 128, 128 * rv)]
  if c.st.pred = 1 && ix = [] then skippedOut reads
  else
    let vecs := rows.flatMap fun (j, r, b) => (List.range rv).map fun v => (src + (j * rv + v) * 128, dst + (r * rv + v) * 128, b, j)
    let step (acc : Wright × List (Nat × List Byte × Bool × Nat)) (x : Nat × Nat × Bool × Nat) : Wright × List (Nat × List Byte × Bool × Nat) :=
      let (p, q, b, j) := x
      let xs := tileCodes 0 32 (localRead acc.1 p 128)
      let ys := tileCodes 0 32 (localRead acc.1 q 128)
      let out := (ys.zip xs).flatMap fun (y, x) => leBytes 4 (encodeVal 0 c.rnd c.sat (addVal c.rnd (f32 y) (f32 x)))
      let bad := b || poisonIn acc.1 p 128 || poisonIn acc.1 q 128
      (localWrite acc.1 q out bad, acc.2 ++ [(q, out, bad, j)])
    { reads := reads, moves := (vecs.foldl step (c.m, [])).2, bounds := (ix.filter fun (_, _, o, _) => o).length, issued := ix.length * rv }

/-- COMPACT (R236): kept elements, consecutively; the count to a parameter word. -/
def Op.compact (c : Op) : OpOut :=
  let a := c.a
  let L := lanes c.st.ta
  let keep := localBits c.m (c.pos c.st.sc) c.n
  let js := (List.range c.n).filter fun j => bit keep j
  let dst := c.pos c.st.sd
  let regs (v : Nat) : List (Nat × Nat) := a.regs (v * L) L ++ [(c.pos c.st.sc + v * L / 8, ceilDiv L 8)]
  { reads := (List.range c.st.nv).flatMap regs,
    writes := (js.zipIdx).map fun (j, i) => (8 * dst + elemBit c.st.td i, eBits c.st.td, a.code j, j / L),
    bad := (js.zipIdx).filterMap fun (j, i) => if badRegs c.m (regs (j / L)) then some (vecOf (dst + elemBit c.st.td i / 8), j / L) else none,
    params := [(bits c.st.imm 5 0, js.length)], issued := c.st.nv }

/-! ## Top-k (R237, R238) -/

/-- The order of R237: descending, or ascending; a NaN after every number; equal values by index. -/
def rankBefore (asc : Bool) (a b : Nat × Val) : Bool :=
  if a.2.isNan then (b.2.isNan && a.1 < b.1)
  else if b.2.isNan then true
  else
    let first := if asc then ltVal a.2 b.2 else ltVal b.2 a.2
    let later := if asc then ltVal b.2 a.2 else ltVal a.2 b.2
    if first then true else if later then false else a.1 < b.1

/-- Insertion in the order of R237. -/
def insertRank (asc : Bool) (x : Nat × Val) : List (Nat × Val) → List (Nat × Val)
  | [] => [x]
  | y :: r => if rankBefore asc x y then x :: y :: r else y :: insertRank asc x r

/-- TOPK and ARGMAX (R237, R238): values to SD, INT32 indices to SC. -/
def Op.topk (c : Op) (k : Nat) : OpOut :=
  let L := lanes c.st.ta
  let a := c.a
  let mask := c.mask c.n
  let go := c.issues mask L
  let regs := go.flatMap fun v => a.regs (v * L) L
  let reads := c.maskRegs c.n ++ regs
  if c.st.pred = 1 && mask = 0 then skippedOut reads
  else
    let row := (go.flatMap fun v => (List.range L).map (· + v * L)).filter fun j => bit mask j
    let order := ((row.map fun j => (j, a.val j)).foldr (insertRank (bit c.st.mode 0)) []).map (·.1)
    let dv := c.pos c.st.sd
    let di := c.pos c.st.sc
    let ta := c.st.ta
    let out (i : Nat) : List (Nat × Nat × Nat × Nat) :=
      match order[i]? with
      | some j => [(8 * dv + elemBit ta i, eBits ta, if (a.val j).isNan then nanCode ta else a.code j, c.st.nv), (8 * di + elemBit 0 i, 32, j, c.st.nv)]
      | none => [(8 * di + elemBit 0 i, 32, 0xFFFFFFFF, c.st.nv)]
    let writes := (List.range k).flatMap out
    { reads := reads, writes := writes,
      bad := if badRegs c.m regs then writes.map fun (p, _, _, i) => (vecOf (p / 8), i) else [],
      issued := go.length, skipped := c.st.nv - go.length }

/-! ## Matrix-vector products (R239, R240) -/

/-- MATVEC, or VECMAT with the roles of row and column exchanged: 32 terms and the old value are summed exactly and rounded once. -/
def Op.matrix (c : Op) (byRow : Bool) : OpOut :=
  let L := lanes c.st.ta
  let a := c.src c.st.sa c.st.ta 1024
  let x := c.src c.st.sb 0 32
  let y := c.src c.st.sd 0 32
  let mask := c.mask 1024
  let go := c.issues mask L
  let regs := (go.flatMap fun v => a.regs (v * L) L) ++ x.regs 0 32 ++ y.regs 0 32
  let reads := c.maskRegs 1024 ++ regs
  if c.st.pred = 1 && mask = 0 then skippedOut reads
  else
    let term (i j : Nat) : Option Val :=
      let e := if byRow then 32 * i + j else 32 * j + i
      if bit mask e then some (mulVal (a.val e) (x.val j)) else none
    { reads := reads,
      writes := (List.range 32).map fun i =>
        (8 * y.pos + 32 * i, 32, encodeVal 0 c.rnd c.sat (sumVal c.rnd (y.val i :: (List.range 32).filterMap (term i))), c.st.nv),
      bad := if badRegs c.m regs then [(vecOf y.pos, c.st.nv)] else [],
      issued := go.length, skipped := c.st.nv - go.length }

end Sys2Proof.Machine
end

