-- ==== Sys2Proof/Machine/Catalogue.lean ====
section
/-! DEFINITION. The commands of the operator catalogue (R212): one operator each. -/

namespace Sys2Proof.Machine

/-- ADD (R221). -/
def execAdd (ev : OpEvent) (s : State) : Host.Outcome State Fault Refusal :=
  s.run fun k => k.runOp ev 0x10 fun c => c.arith2 (addVal c.rnd) (· + ·)

/-- SUB (R221). -/
def execSub (ev : OpEvent) (s : State) : Host.Outcome State Fault Refusal :=
  s.run fun k => k.runOp ev 0x11 fun c => c.arith2 (fun a b => addVal c.rnd a (negVal b)) (· - ·)

/-- MUL (R221). -/
def execMul (ev : OpEvent) (s : State) : Host.Outcome State Fault Refusal :=
  s.run fun k => k.runOp ev 0x12 fun c => c.arith2 mulVal (· * ·)

/-- FMA (R221): one rounding; with X, SC is in TD. -/
def execFma (ev : OpEvent) (s : State) : Host.Outcome State Fault Refusal :=
  s.run fun k => k.runOp ev 0x13 fun c =>
    let z := if c.x then c.src c.st.sc c.st.td c.n else c.c3
    let a := c.a
    let b := c.b
    c.elementwise [a, b, z] c.st.td fun j => c.enc (sumVal c.rnd [mulVal (a.val j) (b.val j), z.val j])

/-- DIV (R221). -/
def execDiv (ev : OpEvent) (s : State) : Host.Outcome State Fault Refusal :=
  s.run fun k => k.runOp ev 0x14 fun c =>
    let a := c.a
    let b := c.b
    c.elementwise [a, b] c.st.td fun j => c.enc (divVal (a.val j) (b.val j))

/-- MAX (R221). -/
def execMax (ev : OpEvent) (s : State) : Host.Outcome State Fault Refusal :=
  s.run fun k => k.runOp ev 0x15 fun c => c.arith2 (if c.x then maxNum else maxVal) max

/-- MIN (R221). -/
def execMin (ev : OpEvent) (s : State) : Host.Outcome State Fault Refusal :=
  s.run fun k => k.runOp ev 0x16 fun c => c.arith2 (if c.x then minNum else minVal) min

/-- ABS (R221). -/
def execAbs (ev : OpEvent) (s : State) : Host.Outcome State Fault Refusal :=
  s.run fun k => k.runOp ev 0x17 fun c => c.signOp absVal (fun i => (i.natAbs : Int)) fun a => a % signOf c.st.ta

/-- NEG (R221). -/
def execNeg (ev : OpEvent) (s : State) : Host.Outcome State Fault Refusal :=
  s.run fun k => k.runOp ev 0x18 fun c => c.signOp negVal (fun i => -i) fun a => a ^^^ signOf c.st.ta

/-- SCALE (R221): the factor is IMM; with X, SB is added in the same rounding. -/
def execScale (ev : OpEvent) (s : State) : Host.Outcome State Fault Refusal :=
  s.run fun k => k.runOp ev 0x19 fun c =>
    let a := c.a
    let b := c.b
    c.elementwise (if c.x then [a, b] else [a]) c.st.td fun j =>
      let p := mulVal (a.val j) (f32 c.st.imm)
      c.enc (if c.x then addVal c.rnd p (b.val j) else p)

/-- CLAMP (R221): the bounds are SB and SC, or with X the halves of IMM in BF16. -/
def execClamp (ev : OpEvent) (s : State) : Host.Outcome State Fault Refusal :=
  s.run fun k => k.runOp ev 0x1A fun c =>
    let a := c.a
    let lo := c.b
    let hi := c.c3
    c.elementwise (if c.x then [a] else [a, lo, hi]) c.st.td fun j =>
      if c.st.ta = 5 then c.int8 (min (max (a.int j) (lo.int j)) (hi.int j))
      else if c.x then c.enc (minVal (maxVal (a.val j) (decodeElem 1 (bits c.st.imm 15 0))) (decodeElem 1 (bits c.st.imm 31 16)))
      else c.enc (minVal (maxVal (a.val j) (lo.val j)) (hi.val j))

/-- CMP (R222): one mask bit per element. -/
def execCmpOp (ev : OpEvent) (s : State) : Host.Outcome State Fault Refusal :=
  s.run fun k => k.runOp ev 0x1B fun c =>
    let a := c.a
    let b := c.b
    let imm := if c.st.ta = 5 then decodeElem 5 (bits c.st.imm 7 0) else f32 c.st.imm
    c.maskResult (if c.x then [a] else [a, b]) fun j => cmpHolds (bits c.st.mode 2 0) (a.val j) (if c.x then imm else b.val j)

/-- SEL (R222): bits of a where the mask of SC is 1, of b where it is 0. -/
def execSel (ev : OpEvent) (s : State) : Host.Outcome State Fault Refusal :=
  s.run fun k => k.runOp ev 0x1C fun c =>
    let a := c.a
    let b := c.b
    let L := lanes c.st.ta
    let sel := localBits c.m (c.pos c.st.sc) c.n
    c.matched L c.n (fun v => a.regs (v * L) L ++ b.regs (v * L) L ++ [(c.pos c.st.sc + v * L / 8, ceilDiv L 8)]) (c.pos c.st.sd) (elemBit c.st.td) (eBits c.st.td)
      fun j => if bit sel j then a.code j else b.code j

/-- BITOP (R222). -/
def execBitop (ev : OpEvent) (s : State) : Host.Outcome State Fault Refusal :=
  s.run fun k => k.runOp ev 0x1D fun c =>
    let a := c.a
    let b := c.b
    c.elementwise [a, b] c.st.td fun j =>
      match c.rnd with
      | 0 => a.code j &&& b.code j
      | 1 => a.code j ||| b.code j
      | 2 => a.code j ^^^ b.code j
      | _ => a.code j &&& (2 ^ eBits c.st.ta - 1 - b.code j)

/-- SHIFT (R222): a count at or above the width gives 0, or copies of the sign. -/
def execShift (ev : OpEvent) (s : State) : Host.Outcome State Fault Refusal :=
  s.run fun k => k.runOp ev 0x1E fun c =>
    let a := c.a
    let n := bits c.st.imm 4 0
    let width := eBits c.st.ta
    c.elementwise [a] c.st.td fun j =>
      match c.rnd with
      | 0 => a.code j * 2 ^ n % 2 ^ width
      | 1 => a.code j / 2 ^ n
      | _ => unsignedOf width (a.int j / ((2 ^ n : Nat) : Int))

/-- FILL (R222): IMM converted to TD, or with X the INT32 elements IMM + j; elements are counted by TD. -/
def execFill (ev : OpEvent) (s : State) : Host.Outcome State Fault Refusal :=
  s.run fun k => k.runOp ev 0x1F fun c =>
    let L := lanes c.st.td
    c.matched L (c.st.nv * L) (fun _ => []) (c.pos c.st.sd) (elemBit c.st.td) (eBits c.st.td) fun j =>
      if c.x then (c.st.imm + j) % 2 ^ 32 else c.enc (f32 c.st.imm)

/-- EXP (R223, R224). -/
def execExp (ev : OpEvent) (s : State) : Host.Outcome State Fault Refusal :=
  s.run fun k => k.runOp ev 0x20 fun c => c.unary expVal

/-- EXP2 (R223, R224). -/
def execExp2 (ev : OpEvent) (s : State) : Host.Outcome State Fault Refusal :=
  s.run fun k => k.runOp ev 0x21 fun c => c.unary exp2Val

/-- LOG (R223, R224). -/
def execLog (ev : OpEvent) (s : State) : Host.Outcome State Fault Refusal :=
  s.run fun k => k.runOp ev 0x22 fun c => c.unary logVal

/-- RECIP (R223, R224). -/
def execRecip (ev : OpEvent) (s : State) : Host.Outcome State Fault Refusal :=
  s.run fun k => k.runOp ev 0x23 fun c => c.unary recipVal

/-- SQRT (R223, R224). -/
def execSqrt (ev : OpEvent) (s : State) : Host.Outcome State Fault Refusal :=
  s.run fun k => k.runOp ev 0x24 fun c => c.unary sqrtVal

/-- RSQRT (R223, R224). -/
def execRsqrt (ev : OpEvent) (s : State) : Host.Outcome State Fault Refusal :=
  s.run fun k => k.runOp ev 0x25 fun c => c.unary rsqrtVal

/-- TANH (R223, R224). -/
def execTanh (ev : OpEvent) (s : State) : Host.Outcome State Fault Refusal :=
  s.run fun k => k.runOp ev 0x26 fun c => c.unary tanhVal

/-- SIGMOID (R223, R224). -/
def execSigmoid (ev : OpEvent) (s : State) : Host.Outcome State Fault Refusal :=
  s.run fun k => k.runOp ev 0x27 fun c => c.unary sigmoidVal

/-- GELU (R223, R224). -/
def execGelu (ev : OpEvent) (s : State) : Host.Outcome State Fault Refusal :=
  s.run fun k => k.runOp ev 0x28 fun c => c.unary (geluVal c.x)

/-- SILU (R223, R224): with X, multiplied by SB. -/
def execSilu (ev : OpEvent) (s : State) : Host.Outcome State Fault Refusal :=
  s.run fun k => k.runOp ev 0x29 fun c =>
    let a := c.a
    let b := c.b
    c.elementwise (if c.x then [a, b] else [a]) c.st.td fun j => c.enc (if c.x then mulVal (siluVal (a.val j)) (b.val j) else siluVal (a.val j))

/-- RSUM (R225, R226). -/
def execRsum (ev : OpEvent) (s : State) : Host.Outcome State Fault Refusal :=
  s.run fun k => k.runOp ev 0x30 fun c =>
    let a := c.a
    c.reduce .sum [a] (fun j => (a.val j, one32)) fun j => (a.int j, 1)

/-- RSUMSQ (R225, R226). -/
def execRsumsq (ev : OpEvent) (s : State) : Host.Outcome State Fault Refusal :=
  s.run fun k => k.runOp ev 0x31 fun c =>
    let a := c.a
    c.reduce .sum [a] (fun j => (a.val j, a.val j)) fun j => (a.int j, a.int j)

/-- RMAX (R225, R226). -/
def execRmax (ev : OpEvent) (s : State) : Host.Outcome State Fault Refusal :=
  s.run fun k => k.runOp ev 0x32 fun c =>
    let a := c.a
    c.reduce .max [a] (fun j => (a.val j, one32)) fun j => (a.int j, 1)

/-- RMIN (R225, R226). -/
def execRmin (ev : OpEvent) (s : State) : Host.Outcome State Fault Refusal :=
  s.run fun k => k.runOp ev 0x33 fun c =>
    let a := c.a
    c.reduce .min [a] (fun j => (a.val j, one32)) fun j => (a.int j, 1)

/-- RAMAX (R225, R226). -/
def execRamax (ev : OpEvent) (s : State) : Host.Outcome State Fault Refusal :=
  s.run fun k => k.runOp ev 0x34 fun c =>
    let a := c.a
    c.reduce .amax [a] (fun j => (a.val j, one32)) fun j => (a.int j, 1)

/-- RDOT (R225, R226). -/
def execRdot (ev : OpEvent) (s : State) : Host.Outcome State Fault Refusal :=
  s.run fun k => k.runOp ev 0x35 fun c =>
    let a := c.a
    let b := c.b
    c.reduce .sum [a, b] (fun j => (a.val j, b.val j)) fun j => (a.int j, b.int j)

/-- SOFTMAX, or log-softmax with X (R227). -/
def execSoftmax (ev : OpEvent) (s : State) : Host.Outcome State Fault Refusal :=
  s.run fun k => k.runOp ev 0x38 fun c =>
    let a := c.a
    c.rowOp [a] fun row => if c.x then logSoftmaxRow c.rnd (row.map a.val) else softmaxRow (row.map a.val)

/-- RMSNORM (R228): a NaN or an infinity makes every result NaN. -/
def execRmsnorm (ev : OpEvent) (s : State) : Host.Outcome State Fault Refusal :=
  s.run fun k => k.runOp ev 0x39 fun c =>
    let a := c.a
    let g := c.b
    c.rowOp (if c.x then [a, g] else [a]) fun row =>
      if row.any fun j => (a.val j).isNan || (a.val j).isInf then row.map fun _ => .nan
      else
        let n := countVal row
        let q := rowSum (lanes c.st.ta) row fun j => (a.val j, a.val j)
        let r := rsqrtVal (v32 (divVal (addVal 0 q (mulVal (f32 c.st.imm) n)) n))
        row.map fun j =>
          let t := v32 (mulVal (a.val j) r)
          if c.x then mulVal t (g.val j) else t

/-- LAYERNORM (R228): with X, scaled by SB and shifted by SC. -/
def execLayernorm (ev : OpEvent) (s : State) : Host.Outcome State Fault Refusal :=
  s.run fun k => k.runOp ev 0x3A fun c =>
    let a := c.a
    let g := c.b
    let z := c.c3
    c.rowOp (if c.x then [a, g, z] else [a]) fun row =>
      if row.any fun j => (a.val j).isNan || (a.val j).isInf then row.map fun _ => .nan
      else
        let n := countVal row
        let mean := negVal (v32 (divVal (rowSum (lanes c.st.ta) row fun j => (a.val j, one32)) n))
        let off (j : Nat) : Val := addVal 0 (a.val j) mean
        let v := v32 (divVal (rowSum (lanes c.st.ta) row fun j => (off j, off j)) n)
        let r := rsqrtVal (v32 (addVal 0 v (f32 c.st.imm)))
        row.map fun j =>
          let t := v32 (mulVal (off j) r)
          if c.x then sumVal c.rnd [mulVal t (g.val j), z.val j] else t

/-- ROPE (R229): pairs are rotated. -/
def execRope (ev : OpEvent) (s : State) : Host.Outcome State Fault Refusal :=
  s.run fun k => k.runOp ev 0x3B fun c =>
    let a := c.a
    let b := c.b
    c.elementwise [a, b] c.st.td fun j =>
      let i := j / 2 * 2
      if j % 2 = 0 then c.enc (sumVal c.rnd [mulVal (a.val i) (b.val i), negVal (mulVal (a.val (i + 1)) (b.val (i + 1)))])
      else c.enc (sumVal c.rnd [mulVal (a.val i) (b.val (i + 1)), mulVal (a.val (i + 1)) (b.val i)])

/-- CVT (R230): with TA = TD bits are copied. -/
def execCvt (ev : OpEvent) (s : State) : Host.Outcome State Fault Refusal :=
  s.run fun k => k.runOp ev 0x40 fun c =>
    let a := c.a
    c.elementwise [a] c.st.td fun j => if c.st.ta = c.st.td then a.code j else c.enc (a.val j)

/-- QUANT (R231). -/
def execQuant (ev : OpEvent) (s : State) : Host.Outcome State Fault Refusal :=
  s.run fun k => k.runOp ev 0x41 fun c => c.quant c.a

/-- DEQUANT (R232). -/
def execDequant (ev : OpEvent) (s : State) : Host.Outcome State Fault Refusal :=
  s.run fun k => k.runOp ev 0x42 fun c => c.unary fun v => v

/-- REQUANT (R232). -/
def execRequant (ev : OpEvent) (s : State) : Host.Outcome State Fault Refusal :=
  s.run fun k => k.runOp ev 0x43 fun c => c.quant c.a

/-- NZMASK (R233): by value, or with X by bit pattern. -/
def execNzmask (ev : OpEvent) (s : State) : Host.Outcome State Fault Refusal :=
  s.run fun k => k.runOp ev 0x44 fun c =>
    let a := c.a
    c.maskResult [a] fun j => if c.x then a.code j ≠ 0 else !(a.val j).isZero

/-- GATHER (R234). -/
def execGather (ev : OpEvent) (s : State) : Host.Outcome State Fault Refusal :=
  s.run fun k => k.runOp ev 0x48 fun c => c.gather

/-- SCATTER (R235). -/
def execScatter (ev : OpEvent) (s : State) : Host.Outcome State Fault Refusal :=
  s.run fun k => k.runOp ev 0x49 fun c => c.scatter

/-- SCATTER_ADD (R235). -/
def execScatterAdd (ev : OpEvent) (s : State) : Host.Outcome State Fault Refusal :=
  s.run fun k => k.runOp ev 0x4A fun c => c.scatterAdd

/-- COMPACT (R236). -/
def execCompact (ev : OpEvent) (s : State) : Host.Outcome State Fault Refusal :=
  s.run fun k => k.runOp ev 0x4B fun c => c.compact

/-- TOPK (R237). -/
def execTopk (ev : OpEvent) (s : State) : Host.Outcome State Fault Refusal :=
  s.run fun k => k.runOp ev 0x50 fun c => c.topk (bits c.st.imm 7 0 + 1)

/-- ARGMAX (R238). -/
def execArgmax (ev : OpEvent) (s : State) : Host.Outcome State Fault Refusal :=
  s.run fun k => k.runOp ev 0x51 fun c => c.topk 1

/-- MATVEC (R239, R240). -/
def execMatvec (ev : OpEvent) (s : State) : Host.Outcome State Fault Refusal :=
  s.run fun k => k.runOp ev 0x58 fun c => c.matrix true

/-- VECMAT (R239, R240). -/
def execVecmat (ev : OpEvent) (s : State) : Host.Outcome State Fault Refusal :=
  s.run fun k => k.runOp ev 0x59 fun c => c.matrix false

/-! ## The gate operator (R208, R241) -/

/-- The gate that a GATE step sends (R241). -/
def Op.gate (c : Op) (x berth : Nat) : Staged :=
  let imm := c.st.imm
  let nlog := bits imm 28 19 + 1
  let ls := c.src c.st.sa c.st.ta nlog
  let payload := localRead c.m (c.pos c.st.sb) (128 * c.st.nv - 32 * bits c.st.mode 1 0)
  let row := (c.r.params.getD (bits imm 18 13) 0 % 2 ^ 32 + (match c.r.loops.getLast? with | some (_, _, i) => i | none => 0)) % 2 ^ 32
  let h : GateHdr := { beats := 0, berth := berth, nlog := nlog, bf16 := c.st.ta = 1, row := row, table := bits imm 12 5 }
  { hdr := { h with beats := logitBeats h + payload.length / 32 }, logits := ls.codes, payload := payload, wright := some x, launch := c.r.launch.entry }

/-- GATE, the catalogue operator: it waits while the origin's gate staging is full (R208, R241, R242). -/
def execGateOperator (ev : OpEvent) (s : State) : Host.Outcome State Fault Refusal :=
  s.run fun k => k.stepGo ev.engine 0x5E fun r st k =>
    let x := ev.engine
    let c : Op := { m := struck (k.wright x) ev, r := r, st := st }
    let g := c.gate x r.launch.berth
    let b := bits st.imm 4 0
    let regs := (c.src st.sa st.ta g.hdr.nlog).regs 0 g.hdr.nlog ++ [(c.pos st.sb, g.payload.length)]
    if !c.aligned then k.endRun x stMisaligned
    else if regs.any fun (a, n) => pendIn c.m a n then k
    else if 8192 < stagedBeats (k.bearing b) + g.hdr.beats then k
    else
      let k := ((k.count 2 x 15 (vecsFor st.ta g.hdr.nlog + st.nv)).viewCount r.launch.berth 0 (vecsFor st.ta g.hdr.nlog + st.nv)).count 2 x 22 ev.once.length
      let k := ((k.onWright x fun m => struck m ev).count 2 x 23 ev.corrected).stallCount x 18
      match ev.twice with
      | some v => k.datapathFault x v
      | none =>
        if badRegs c.m regs then (k.gateRejected x r.launch.entry g.hdr.table g.hdr.row).nextStep x
        else match k.gateArrives b g with
          | (some _, k) => (k.gateRejected x r.launch.entry g.hdr.table g.hdr.row).nextStep x
          | (none, k) => k.nextStep x

end Sys2Proof.Machine
end

