-- ==== Sys2Proof/Machine/Hawser.lean ====
section
/-! DEFINITION. The commands of the Hawser fabric (17): frames (R487-R489), training (R490, R504), muster (R492-R495), body messages (R497-R502), unreachable hubs (R500). -/

namespace Sys2Proof.Machine

/-! ## Frames (R487-R489) -/

/-- A frame of 536 bytes whose CRC is good: over bytes 0-3 and 8-535 (R488). -/
def hwsGood (bs : List Byte) : Bool := bs.length = 536 && leNat (slice bs 4 4) = crc32 (bs.take 4 ++ bs.drop 8)

/-- A frame failed: NAK goes out and frames are discarded until the one after the last good one comes; 8 NAKs of one frame in a row, or more than 64 failures in 1 ms, call for a retrain (R489). -/
def Work.hwsFail (w : Work) (p : Nat) (bad : Bool) : Work :=
  let w := w.onHPort p fun x =>
    { x with
      discarding := true
      nakRow := if x.nakSeq = x.expFseq then x.nakRow + 1 else 1
      nakSeq := x.expFseq
      failTimes := if bad then w.now :: recent w.now 1000 x.failTimes else x.failTimes }
  let x := w.hport p
  let w := (w.count 17 p 3).hwsIdle p 1 ((x.expFseq + 4095) % 4096) true
  if 8 ≤ x.nakRow || 64 < x.failTimes.length then w.hportRetrain p else w

/-- The acknowledgement of a frame: frames up to ACK_SEQ leave the retry buffer, a NAK sends the rest again (R488, R489). -/
def Work.hwsAck (w : Work) (p hdr : Nat) : Work :=
  if !bit hdr 28 then w
  else
    let seq := bits hdr 27 16
    let w : Work := match (w.hport p).retry.findIdx? fun (s, _) => s = seq with
      | some i => w.onHPort p fun x => { x with retry := x.retry.drop (i + 1), txNaks := 0 }
      | none => w
    if !bit hdr 29 then w.hwsDrain p (w.hport p).txWait.length
    else
      let w := w.onHPort p fun x => { x with txNaks := if x.txNakSeq = seq then x.txNaks + 1 else 1, txNakSeq := seq }
      let w : Work := each (w.hport p).retry (fun (_, o) w => (w.emit o).count 17 p 0) w
      if 8 ≤ (w.hport p).txNaks then w.hportRetrain p else w.hwsDrain p (w.hport p).txWait.length

/-- The credits of a sideband slot (R491, R497). -/
def Work.hwsCredits (w : Work) (p slot : Nat) : Work :=
  if bits slot 1 0 ≠ 3 then w
  else (w.onHPort p fun x => { x with credits := (List.range 6).foldl (fun t c => tmod 0 t c (· + bits slot (17 + 16 * c) (2 + 16 * c))) x.credits }).bodyPump p

/-- HAWSER_FRAME: checked, acknowledged, taken in FSEQ order; a frame of an earlier number is acknowledged again, one past a gap answered with NAK (R489). What else it carries is a command of its own. -/
def execHawserFrame (port : Nat) (frame : List Byte) (corrected : Nat) (fecOk : Bool) (s : State) : Host.Outcome State Fault Refusal :=
  s.run fun w =>
    if !w.hportTrained port then w
    else
      let w := w.count 17 port 1
      let w := if corrected = 0 then w else w.count 17 port 4 corrected
      if !fecOk then (w.count 17 port 5).hwsFail port true
      else if !hwsGood frame then (w.count 17 port 2).hwsFail port true
      else
        let hdr := leNat (frame.take 4)
        let w := w.hwsAck port hdr
        if bits hdr 3 0 = 2 then w.hportRetrain port
        else if bits hdr 3 0 ≠ 0 || !w.hportTrained port then w
        else
          let x := w.hport port
          let ahead := (bits hdr 15 4 + 4096 - x.expFseq) % 4096
          if ahead = 0 then
            let w := w.onHPort port fun x => { x with expFseq := (x.expFseq + 1) % 4096, discarding := false, nakRow := 0 }
            (w.hwsIdle port 1 x.expFseq false).hwsCredits port (leNat (slice frame 8 16))
          else if x.discarding then w
          else if 2048 ≤ ahead then w.hwsIdle port 1 ((x.expFseq + 4095) % 4096) false
          else w.hwsFail port false

/-! ## Training (R490, R504) -/

/-- A port may train: the hub runs, the warrant enables the port, it is not taken out, its reference clock is there (R486, R504, R593). -/
def Work.hportMayTrain (w : Work) (p : Nat) : Bool :=
  !w.mute && w.hub.start.state ≤ 1 && bit w.hub.board.hawser p && !(w.hport p).heldOut && (4 + p / 2) ∉ w.hub.board.clocksLost

/-- The width that passing lanes give, as lanes remap (R490). -/
def hwsWidth (passing : List Nat) : Nat :=
  let n := ((List.range 4).filter fun l => l ∈ passing).length
  if n = 4 then 4 else if 2 ≤ n then 2 else n

/-- HAWSER_TRAINING_DONE: `passing` are the lanes that passed; none leaves the port Absent. Unacknowledged frames are sent again; a new link begins with full credits and sends its muster record (R490, R492, R497, R504). -/
def execHawserTrainingDone (port : Nat) (passing : List Nat) (s : State) : Host.Outcome State Fault Refusal :=
  s.run fun w =>
    let x := w.hport port
    let n := hwsWidth passing
    if !w.hportMayTrain port || !(x.state = 4 || (x.state = 0 && x.training)) then w
    else if n = 0 then (if x.state = 4 then w.hportDown port 0 else w.onHPort port fun x => { x with training := false })
    else if x.state = 4 then
      let w := w.linkDecide port n
      let w := each (w.hport port).retry (fun (_, o) w => (w.emit o).count 17 port 0) w
      w.hwsDrain port (w.hport port).txWait.length
    else
      let w := w.onHPort port fun x => { x with state := 3, training := false, credits := (List.range 6).map fun c => (c, 192) }
      (w.linkDecide port n).sendMuster port

/-- HAWSER_TRAINING_RETRY: an Absent port tries again (R504). -/
def execHawserTrainingRetry (port : Nat) (s : State) : Host.Outcome State Fault Refusal :=
  s.run fun w => if w.hportMayTrain port && (w.hport port).state = 0 then w.onHPort port fun x => { x with training := true } else w

/-- HAWSER_LANE_LOSS (R489, R504). -/
def execHawserLaneLoss (port lane : Nat) (s : State) : Host.Outcome State Fault Refusal :=
  s.run fun w => if w.hportTrained port && lane < 4 then (w.count 17 port 7).hportRetrain port else w

/-! ## Muster (R492-R495) -/

/-- MUSTER_RECORD: the link is decided again (R494). -/
def execMusterRecord (port : Nat) (m : Muster) (s : State) : Host.Outcome State Fault Refusal :=
  s.run fun w =>
    if !w.hportTrained port then w
    else ((w.count 17 port 8).onHPort port fun x => { x with peer := some m, peerSeen := m.hub % 4096 }).linkDecide port (w.hport port).lanes

/-- MUSTER_PERIODIC (R492). -/
def execMusterPeriodic (port : Nat) (s : State) : Host.Outcome State Fault Refusal := s.run fun w => w.sendMuster port

/-! ## Body messages (R497-R502) -/

/-- A body message of a class and kind reaches the hub: on a link that has become control-only it is discarded; one for this hub is taken, another is forwarded, or handled as one that cannot go (R496, R498, R500, R505). -/
def Work.bodyIn (w : Work) (port : Nat) (m : BodyMsg) (cls mkind : Nat) (k : Work → Work) : Work :=
  if !w.hportTrained port || m.cls ≠ cls || m.mkind ≠ mkind then w
  else if !w.hportUp port then ((w.hwsGiveBack port m.lane m).count 17 port 18).msgDead m
  else if m.dstHub = w.hubId then k (w.hwsGiveBack port m.lane m)
  else if m.hops = 15 then
    (((w.hwsGiveBack port m.lane m).count 17 port 17).log { cls := 0x11, sev := 2, cause := 4, unit := port, detail := m.dstHub }).msgDead m
  else match w.route m.dstHub with
    | some q => w.sendBody q { m with hops := m.hops + 1 } (some (port, m.lane))
    | none => (w.hwsGiveBack port m.lane m).noWay port m

/-- WINDOW_REQUEST (R360). -/
def execWindowRequest (port : Nat) (m : BodyMsg) (s : State) : Host.Outcome State Fault Refusal :=
  s.run fun w => w.bodyIn port m 0 0 fun w => (w.onHawser fun h => { h with inbound := h.inbound ++ [m] }).importPump

/-- WINDOW_ANSWER: a late one is discarded and counted (R501). -/
def execWindowAnswer (port : Nat) (m : BodyMsg) (s : State) : Host.Outcome State Fault Refusal :=
  s.runAll fun w => w.bodyIn port m 1 1 fun w =>
    match tfind w.hub.hawser.outstanding m.tag with
    | some o => if o.hub = m.srcHub then w.winEnd m.tag m.status m.detail (if m.opcode = 0x40 then some m.payload else none) else w.count 17 port 19
    | none => w.count 17 port 19

/-- REQ_TIMEOUT (R501): a request that still waits for credits at its port is not sent any more. -/
def execReqTimeout (tag : Nat) (s : State) : Host.Outcome State Fault Refusal :=
  s.runAll fun w =>
    match tfind w.hub.hawser.outstanding tag with
    | some o =>
      let mine (x : HWait) : Bool := x.inPort = none && x.msg.cls = 0 && x.msg.tag = tag
      (if (w.hport o.port).bodyWait.any mine then w.onHPort o.port fun x => { x with bodyWait := x.bodyWait.filter fun y => !mine y } else w).winEnd tag 4 0 none
    | none => w

/-- ROUTED_TOKEN_PACKET: a DISPATCH goes to the keeper of its expert, other kinds to the engine named in TOKEN (R145, R502). -/
def execRoutedTokenPacket (port : Nat) (m : BodyMsg) (s : State) : Host.Outcome State Fault Refusal :=
  s.run fun w => w.bodyIn port m 2 2 fun w =>
    let p := m.packet
    if p.kind = .dispatch then
      let dst := match w.table p.table with
        | some t => let e := expertOf t p.expert; if e.kind = 1 || e.kind = 2 then keeperOf e else 0
        | none => 0
      w.sendTok { p with dst := dst, hub := w.hubId }
    else w.sendTok { w.homeward p with dst := handleEngine p.token, hub := w.hubId }

/-- STALL_LIMIT_EXPIRY: a message that has waited STALL_LIMIT at an input is discarded and handled as one whose destination is unreachable (R498). -/
def execStallLimitExpiry (port : Nat) (m : BodyMsg) (s : State) : Host.Outcome State Fault Refusal :=
  s.run fun w =>
    let mine (x : HWait) : Bool := x.inPort = some (port, m.lane) && { x.msg with lane := m.lane } = { m with hops := m.hops + 1 }
    match (List.range 8).find? fun q => (w.hport q).bodyWait.any mine with
    | none => w
    | some q =>
      let w := w.onHPort q fun x => { x with bodyWait := x.bodyWait.eraseP mine }
      let w := ((w.hwsGiveBack port m.lane m).count 17 port 17).log { cls := 0x11, sev := 2, cause := 4, unit := port, detail := m.dstHub }
      (w.msgDead m).bodyPump q

/-! ## Unreachable hubs (R500) -/

/-- UNREACH: the destination is unreachable from here for UNREACH_HOLD; one for another hub is forwarded (R491, R500). -/
def execUnreach (port hub dest : Nat) (s : State) : Host.Outcome State Fault Refusal :=
  s.runAll fun w =>
    if !w.hportTrained port then w
    else if hub ≠ w.hubId then w.sendUnreach hub dest
    else if dest = w.hubId then w
    else (w.onHawser fun h => { h with unreachable := addTo h.unreachable dest }).rerouted w

/-- UNREACH_HOLD_EXPIRY (R500). -/
def execUnreachHoldExpiry (hub : Nat) (s : State) : Host.Outcome State Fault Refusal :=
  s.runAll fun w => (w.onHawser fun h => { h with unreachable := rmv h.unreachable hub }).rerouted w

end Sys2Proof.Machine
end

