-- ==== Sys2Proof/Machine/HelmCmds.lean ====
section
/-! DEFINITION. The commands of the Helm (08): timeouts, configuration, bindings, status, and the messages between hubs (R263-R266). -/

namespace Sys2Proof.Machine

/-- GATE_TIMEOUT: the time from a generation's first arrival has run out (R253). -/
def execGateTimeout (gate : Nat) (s : State) : Host.Outcome State Fault Refusal :=
  s.run fun w =>
    let x := w.gate gate
    if x.timeout ≠ 0 && x.firstAt.isSome && !x.broken then w.gateBreak gate 6 else w

/-- Kind of a Helm object in R247 and R412 as a kind of R433. -/
def helmKind (k : Nat) : Nat := k + 2

/-- Objects of a kind on this part (R244). -/
def helmObjects (k : Nat) : Nat := if k = 0 then 4096 else if k = 1 then 1024 else if k = 2 then 512 else 65536

/-- A mark's new value: waiters that it satisfies are released (R249, R269), outbound bindings whose THRESHOLD it reaches owe pulses (R260). -/
def Work.markConfig (w : Work) (m value : Nat) (clear : Bool) : Work :=
  let w := w.onMark m fun x => { value := value, sat := x.sat && !clear }
  (if (w.mark m).sat then w else w.serveMark m).markPulses m

/-- A gate's new configuration: an open generation breaks first; generation and count are 0 (R247, R253). -/
def Work.gateConfig (w : Work) (g rec_ : Nat) : Work :=
  let x := w.gate g
  let w := if x.count ≠ 0 || x.next ≠ 0 then w.gateBreak g 5 else w
  w.onGate g fun x =>
    { lastWait := x.lastWait, waitSum := x.waitSum, releases := x.releases, peerSlowed := x.peerSlowed, slowedHub := x.slowedHub,
      parties := bits rec_ 70 64, upEn := bit rec_ 71, upHub := bits rec_ 83 72, upGate := bits rec_ 93 84, acceptRemote := bit rec_ 94,
      timeout := bits rec_ 111 96 }

/-- A semaphore's new configuration (R254, R269). -/
def Work.semConfig (w : Work) (o count top : Nat) : Work :=
  let w := w.onSem o fun _ => { count := if top = 0 then 0 else count, max := top }
  let (ws, w) := w.takeWaiters fun x => match x.what with | .sem k u => k = o && top < u | _ => false
  let w := each ws (fun x w => w.failWaiter x (if top = 0 then 3 else 7)) w
  w.serveSem o w.hub.helm.waiters.length

/-- HELM_CONFIG (R247). -/
def execHelmConfig (e : EntryRef) (s : State) : Host.Outcome State Fault Refusal :=
  s.run fun w => w.command e 0x14 false fun x w =>
    let r := bits x 255 128
    let kind := bits r 1 0
    let o := bits r 19 4
    let b := bits r 33 20
    if helmObjects kind ≤ o || (kind = 1 && (w.hubBeyond (bits r 83 72) || (bit r 71 && bits r 70 64 = 0))) then w.complete e stBadIdent
    else if b ≠ e.berth then w.complete e stNotOwner
    else if kind < 3 && w.holder (helmKind kind) o ≠ some b then (w.helmError b o 2).complete e stHelmError 2
    else if kind = 3 || (kind = 1 && 64 < bits r 70 64) || (kind = 2 && bits r 95 80 ≠ 0 && bits r 95 80 < bits r 79 64) then w.complete e stBadShape
    else
      let w := match kind with
        | 0 => w.markConfig o (bits r 95 64) (bit r 96)
        | 1 => w.gateConfig o r
        | _ => w.semConfig o (bits r 79 64) (bits r 95 80)
      w.complete e stOk

/-- The Helm kind (R433) of a binding's object; none where the ACTION is unbound or reserved (R259). -/
def bindKind (dir action : Nat) : Option Nat :=
  if dir = 0 then (match action with | 1 => some 2 | 2 => some 3 | 3 => some 4 | _ => none)
  else match action with | 1 => some 3 | 2 => some 2 | _ => none

/-- HELM_BIND (R259): owed pulses of the old binding are discarded (R269). -/
def execHelmBind (e : EntryRef) (s : State) : Host.Outcome State Fault Refusal :=
  s.run fun w => w.command e 0x15 false fun x w =>
    let r := bits x 255 128
    let site := bits r 4 0
    let dir := bits r 5 5
    let action := bits r 13 11
    let o := bits r 31 16
    let b := bits r 45 32
    let kind := bindKind dir action
    let key := site * 64 + dir * 32 + bits r 10 6
    let inRange : Bool := match kind with | some k => o < helmObjects (k - 2) | none => true
    let held : Bool := match kind with | some k => w.holder k o = some b | none => true
    if 16 ≤ site || !bit w.hub.board.sites site || !inRange then w.complete e stBadIdent
    else if b ≠ e.berth || !w.siteHeld site b then w.complete e stNotOwner
    else if !held then (w.helmError b o 2).complete e stHelmError 2
    else if kind.isNone && action ≠ 0 then w.complete e stBadShape
    else
      let n : Binding := { action := action, object := o, berth := b, threshold := bits r 95 64, step := bits r 111 96 }
      (w.onHelm fun h => { h with bindings := if action = 0 then tdel h.bindings key else tset h.bindings key n }).complete e stOk

/-- The status record of an object (R268, R412). -/
def Work.helmStatus (w : Work) (kind o : Nat) : List Byte :=
  match kind with
  | 0 => leBytes 32 (pack [(32, (w.mark o).value), (1, b2n (w.mark o).sat)])
  | 1 =>
    let g := w.gate o
    leBytes 32 (pack [(16, g.gen), (7, g.count), (1, b2n g.broken), (4, g.cause), (1, b2n g.peerSlowed), (3, 0), (12, g.slowedHub), (20, 0),
      (32, g.lastWait), (32, g.releases), (48, g.waitSum)])
  | _ =>
    let n := (w.hub.helm.waiters.filter fun x => match x.what with | .sem k _ => k = o | _ => false).length
    leBytes 32 (pack [(16, (w.sem o).count), (16, n)])

/-- HELM_READ (R268, R412): the status goes to REPORT before the completion. -/
def execHelmRead (e : EntryRef) (s : State) : Host.Outcome State Fault Refusal :=
  s.run fun w => w.command e 0x16 false fun x w =>
    let kind := bits x 257 256
    let o := bits x 275 260
    if kind = 3 then w.complete e stBadShape
    else if w.holder (helmKind kind) o ≠ some e.berth then (w.helmError e.berth o 2).complete e stHelmError 2
    else (w.hostWrite (w.funcOf e.berth) (bits x 191 128) (w.helmStatus kind o)).complete e stOk 0 (if kind = 0 then (w.mark o).value else 0)

/-! ## Messages between hubs -/

/-- The gate that a message names can take part in a tree: configured and granted (R265). -/
def Work.gateLive (w : Work) (g : Nat) : Bool := (w.gate g).parties ≠ 0 && (w.holder 3 g).isSome

/-- Answer a message with REJECT (R265). -/
def Work.helmReject (w : Work) (m : HelmMsg) : Work :=
  w.helmSend 3 { dstHub := m.srcHub, dstGate := m.srcGate, srcGate := m.dstGate, gen := m.gen, cause := 0xB }

/-- An error at a gate, logged for the berth that holds it. -/
def Work.gateError (w : Work) (g cause : Nat) : Work := w.helmError ((w.holder 3 g).getD 0) g cause

/-- An ARRIVE is taken (R263-R265): counted as one arrival when its generation is the gate's. -/
def Work.arriveTaken (w : Work) (m : HelmMsg) : Work :=
  let g := m.dstGate
  let x := w.gate g
  if !w.gateLive g || !x.acceptRemote then w.helmReject m
  else if x.broken then w.gateError g 5
  else if m.gen ≠ x.gen then w.gateBreak g 0xD
  else ((w.onGate g fun x => { x with remotes := addTo x.remotes (m.srcHub, m.srcGate) }).count 4 0 1).gateCount g false

/-- A RELEASE is taken (R263-R265): it releases the member that waits for it in that generation. -/
def Work.releaseTaken (w : Work) (m : HelmMsg) : Work :=
  let g := m.dstGate
  let x := w.gate g
  if !w.gateLive g then w.helmReject m
  else if x.broken then w.gateError g 0xD
  else if x.upEn && x.sentArrive && m.gen = x.gen then w.gateRelease g
  else w.gateBreak g 0xD

/-- A SLOWED is taken (R266): the gates that stand with the slowed hub show it, and the notice is logged. -/
def Work.slowedTaken (w : Work) (m : HelmMsg) : Work :=
  let with_ (x : HGate) : Bool := (x.upEn && x.upHub = m.srcHub) || (x.remotes ++ x.lastRemotes).any fun (h, _) => h = m.srcHub
  let w := w.onHelm fun h => { h with gates := h.gates.map fun (k, x) => (k, if with_ x then { x with peerSlowed := true, slowedHub := m.srcHub } else x) }
  w.log { cls := 6, sev := 0, cause := 0, unit := m.srcHub, detail := m.opPoint }

/-- A message of another hub for this one (R263-R266, R500): BREAK and REJECT break the gate with the cause that they carry. -/
def Work.helmTake (w : Work) (kind : Nat) (m : HelmMsg) : Work :=
  match kind with
  | 0 => w.arriveTaken m
  | 1 => w.releaseTaken m
  | 2 | 3 => w.gateBreak m.dstGate m.cause
  | 4 => w.slowedTaken m
  | _ => w

/-- Operations held at the Helm ports are applied in order (R559). -/
def Work.helmApplyHeld (w : Work) : Work :=
  let l := w.hub.helm.held
  each l (fun o w => match o with
    | .add b m v => (w.markAdd b m v).2
    | .wait p b m t => w.markWait p b m t
    | .arrive b g => (w.gateArrive none b g).2
    | .release b x u => (w.semRelease b x u).2
    | .msg kind m => w.helmTake kind m) (w.onHelm fun h => { h with held := [] })

/-- A Helm message reaches this hub on a trained port, also where the link has turned control-only since it was sent: one for another hub is forwarded, one for this hub is held while the Helm pauses (R491, R505, R559). -/
def Work.helmIn (w : Work) (port kind : Nat) (m : HelmMsg) : Work :=
  if !w.hportTrained port then w
  else if m.dstHub = w.hubId then (if w.helmPaused then w.helmHold (.msg kind m) else w.helmTake kind m)
  else match w.route m.dstHub with
    | some p => w.hwsItem p (.helm p kind { m with hkind := kind })
    | none =>
      let w := if kind = 0 then w.helmSend 3 { dstHub := m.srcHub, dstGate := m.srcGate, srcGate := m.dstGate, gen := m.gen, cause := 0xC } else w.count 17 port 18
      w.sendUnreach m.srcHub m.dstHub

/-- ARRIVE (R263-R265). -/
def execArriveMsg (port : Nat) (m : HelmMsg) (s : State) : Host.Outcome State Fault Refusal := s.run fun w => w.helmIn port 0 m

/-- RELEASE (R263-R265). -/
def execReleaseMsg (port : Nat) (m : HelmMsg) (s : State) : Host.Outcome State Fault Refusal := s.run fun w => w.helmIn port 1 m

/-- BREAK: the receiver's gate breaks with the same cause (R265). -/
def execBreakMsg (port : Nat) (m : HelmMsg) (s : State) : Host.Outcome State Fault Refusal := s.run fun w => w.helmIn port 2 m

/-- REJECT: the gate breaks with the cause it carries, REMOTE_REJECT or REMOTE_UNREACHABLE (R265, R500). -/
def execRejectMsg (port : Nat) (m : HelmMsg) (s : State) : Host.Outcome State Fault Refusal := s.run fun w => w.helmIn port 3 m

/-- SLOWED (R266). -/
def execSlowedMsg (port : Nat) (m : HelmMsg) (s : State) : Host.Outcome State Fault Refusal := s.run fun w => w.helmIn port 4 m

end Sys2Proof.Machine
end

