-- ==== Sys2Proof/Machine/Regulation.lean ====
section
/-! DEFINITION. The commands of bandwidth regulation (11): GUARANTEE_SET and the end of a monitoring window. -/

namespace Sys2Proof.Machine

def stOverAdmit : Nat := 0x1A
def stQueueSpace : Nat := 0x1B

/-- The resource of R566 that RES and PORT of a record name. -/
def resIndex (res port : Nat) : Nat := if res = 0 then 0 else if res = 1 then 1 else if res = 2 then 2 + port else 6 + port

/-- QSHARE and OT_MAX lie in their ranges for the MODE (R336). -/
def guarShapeOk (res port weight mode qshare otMax : Nat) : Bool :=
  let q := mode = 1 || mode = 3
  let o := mode = 2 || mode = 3
  weight ≠ 0 && (if q then qshare ≤ 64 else qshare = 0) && (if o then 1 ≤ otMax && otMax ≤ 1024 else otMax = 0) && (2 ≤ res || port = 0)

/-- The QSHARE of all groups fits the queues of a controller (R336). -/
def queuesFit (l : List Guar) : Bool :=
  (l.map fun g => g.qshare).sum ≤ 64 && (l.map fun g => ceilDiv g.qshare 2).sum ≤ 32

/-- GUARANTEE_SET (R336, R337): admitted if the sum stays within nine tenths of D, or if it lowers the guarantee. A port with a guarantee is not in L0p (R384). -/
def execGuaranteeSet (e : EntryRef) (s : State) : Host.Outcome State Fault Refusal :=
  s.run fun w => w.command e 0x27 true fun x w =>
    let r := bits x 383 128
    let g := bits r 5 0
    let res := bits r 9 8
    let port := bits r 11 10
    let k := resIndex res port
    let i := g * 10 + k
    let mode := bits r 41 40
    let new : Guar := { guar := bits r 31 16, weight := bits r 39 32, mode := mode, qshare := bits r 54 48, otMax := bits r 74 64, port := w.portOf e.berth }
    let old : Guar := tget {} w.hub.bwr.recs i
    let others := (w.hub.bwr.recs.filter fun (j, _) => j % 10 = k && j ≠ i).map (·.2)
    if g = 0 || !w.itemInPool e 8 g then w.complete e stBadIdent
    else if !guarShapeOk res port new.weight mode new.qshare new.otMax then w.complete e stBadShape
    else if old.guar ≤ new.guar && 9 * w.capacity k < 10000 * ((others.map fun o => o.guar).sum + new.guar) then w.complete e stOverAdmit
    else if !queuesFit (new :: others) then w.complete e stQueueSpace
    else
      let w := (w.settleCredits k).onBwr fun b => { b with recs := if new.guar = 0 then tdel b.recs i else tset b.recs i new }
      let w := if new.guar ≠ 0 && 2 ≤ k then w.onPort port fun p => { p with l0p := false } else w
      (w.derateOne k).complete e stOk

/-- A site granted to a berth of a group is degraded or in limp service (R343). -/
def Work.groupSiteWeak (w : Work) (g : Nat) : Bool :=
  w.hub.ten.sites.any fun (n, b) => w.groupOf b = g && ((w.site n).state = 2 || (w.site n).state = 3)

/-- A backlogged window was charged too little (R343, R344, R383). -/
def Work.guarMiss (w : Work) (g k bytes causes : Nat) : Work :=
  let i := g * 10 + k
  let r : Guar := tget {} w.hub.bwr.recs i
  let w := w.count 11 i 2
  let w := each ((w.hub.bwr.groups.filter fun (_, h) => h = g).map (·.1)) (fun b w => w.viewCount b 7) w
  let w := w.log { cls := 0x0B, sev := if causes = 0 then 2 else 1, cause := if causes = 0 then 0x8013 else 0x8012, unit := i, addr := bytes, detail := causes + r.guar * 65536 }
  let quiet := match tfind w.hub.bwr.missIrq i with | some t => w.now < t + 10000 | none => false
  if tget false w.hub.bwr.lastMiss i || quiet then w
  else ((w.onBwr fun b => { b with missIrq := tset b.missIrq i w.now }).irq r.port 9).emit (.pldm 9)

/-- REGULATION_WINDOW_END: the window of a group and resource is judged and the next begins (R342-R344). -/
def execRegulationWindowEnd (ev : WindowEvent) (s : State) : Host.Outcome State Fault Refusal :=
  s.run fun w =>
    let g := ev.group
    let k := ev.res
    let i := g * 10 + k
    if g = 0 || 64 ≤ g || 10 ≤ k then w
    else
      let bytes := tget 0 w.hub.bwr.charged i
      let live := w.capacity k ≠ 0
      let w := if ev.backlogged && live then w.count 11 i 1 else w
      let miss : Bool := match tfind w.hub.bwr.recs i with
        | some r => live && ev.backlogged && 256 * bytes < r.guar * 1000 * w.hub.bwr.window * (256 - w.hub.bwr.tol)
        | none => false
      let causes := tget 0 w.hub.bwr.causes i ||| w.derateCauses k ||| pack [(6, 0), (1, b2n ev.otLimited), (1, b2n (w.groupSiteWeak g))]
      let w := if miss then w.guarMiss g k bytes causes else w
      w.onBwr fun b => { b with charged := tdel b.charged i, lastMiss := tset b.lastMiss i miss, causes := tset b.causes i (w.derateCauses k) }

end Sys2Proof.Machine
end

