-- ==== Sys2Proof/Machine/RegisterOps.lean ====
section
/-! DEFINITION. The registers (21): where each lies (R566, R567, R579), what it reads as in management space, and what a write does to it (R13, R14, R565, R570-R578). -/

namespace Sys2Proof.Machine

/-- The 8-byte registers. Those of the port page name their port; `counter` is one of R580 by its offset. -/
inductive Reg where
  | idRev (hi : Nat) | qmStart | bootSrc (p : Nat) | bootCtl (p : Nat) | hptStat (p : Nat) | hptCfg (p : Nat) | ldgCfg (p : Nat) | chartCfg (p : Nat)
  | chartHot (p hi : Nat) | cntIrqEn (p : Nat) | hptIrq (p i : Nat) | hptIsr (p i : Nat) | logBase (p : Nat) | logCfg (p : Nat)
  | logStat (port : Option Nat) | logLost (port : Option Nat) (c : Nat)
  | tenMgr | tenStat | tenCfg | svcStat | cntCfg | sportCfg (n : Nat) | slinkStat (n : Nat) | memCfg | memRegion (r : Nat) | holdPart (p : Nat)
  | bwrCfg | bwrStat (k hi : Nat) | bwrBerth (i : Nat) | binStat | binEnergy | binPkgEnergy | hwsSys (i : Nat) | hwsPort (k : Nat) | hwsId | hwsRoute (i : Nat)
  | counter (o : Nat) | vfStat (p v : Nat) | vfIsr (p v : Nat) | msix (p v i : Nat)
  | rsvd
  deriving DecidableEq, Repr

/-! ## Maps -/

/-- The port page of a port (R566); `o` is the offset of an 8-byte register. -/
def pageReg (p o : Nat) : Reg :=
  if o < 0x10 then .idRev (o / 8)
  else if o = 0x10 then .qmStart
  else if o = 0x18 then .bootSrc p
  else if o = 0x20 then .bootCtl p
  else if o = 0x28 then .hptStat p
  else if o = 0x30 then .hptCfg p
  else if o = 0x38 then .ldgCfg p
  else if o = 0x40 then .chartCfg p
  else if o = 0x50 then .chartHot p 0
  else if o = 0x58 then .chartHot p 1
  else if o = 0x60 then .cntIrqEn p
  else if 0x80 ≤ o && o < 0xA0 then .hptIrq p ((o - 0x80) / 8)
  else if 0x100 ≤ o && o < 0x200 then .hptIsr p ((o - 0x100) / 8)
  else if o = 0x200 then .logBase p
  else if o = 0x208 then .logCfg p
  else if o = 0x210 then .logStat (some p)
  else if 0x300 ≤ o && o < 0x400 then .logLost (some p) ((o - 0x300) / 8)
  else .rsvd

/-- The hub registers (R566). -/
def hubReg (o : Nat) : Reg :=
  if o = 0x1000 then .tenMgr
  else if o = 0x1008 then .tenStat
  else if o = 0x1010 then .tenCfg
  else if o = 0x1100 then .svcStat
  else if o = 0x1200 then .cntCfg
  else if 0x10000 ≤ o && o < 0x10400 then
    let n := (o - 0x10000) / 0x40
    if o % 0x40 = 0 then .sportCfg n else if o % 0x40 = 8 then .slinkStat n else .rsvd
  else if o = 0x20000 then .memCfg
  else if 0x20100 ≤ o && o < 0x20700 then .memRegion ((o - 0x20100) / 8)
  else if 0x21000 ≤ o && o < 0x21180 then .holdPart ((o - 0x21000) / 8)
  else if o = 0x40000 then .bwrCfg
  else if 0x40100 ≤ o && o < 0x401A0 then .bwrStat ((o - 0x40100) / 16) (o % 16 / 8)
  else if 0x41000 ≤ o && o < 0x42000 then .bwrBerth ((o - 0x41000) / 8)
  else if o = 0x60000 then .binStat
  else if o = 0x60008 then .binEnergy
  else if o = 0x60010 then .binPkgEnergy
  else if 0x70000 ≤ o && o < 0x70100 then .hwsSys ((o - 0x70000) / 8)
  else if 0x70100 ≤ o && o < 0x70180 then (if o % 16 = 0 then .hwsPort ((o - 0x70100) / 16) else .rsvd)
  else if o = 0x70180 then .hwsId
  else if 0x71000 ≤ o && o < 0x73000 then .hwsRoute ((o - 0x71000) / 8)
  else if (cntAt o).isSome then .counter o
  else .rsvd

/-- The register at an offset of PF0 BAR0 of a port (R566). -/
def barReg (p o : Nat) : Reg :=
  if o < 0x1000 then pageReg p o
  else if 0x01000000 ≤ o && o < 0x01008000 then .msix p 0 ((o - 0x01000000) / 8)
  else hubReg o

/-- The register at an offset of a VF's BAR0 (R567). -/
def vfReg (p v o : Nat) : Reg :=
  if o < 0x10 then .idRev (o / 8)
  else if o = 0x10 then .vfStat p v
  else if o = 0x18 then .vfIsr p v
  else if 0x8000 ≤ o && o < 0x8400 then .msix p v ((o - 0x8000) / 8)
  else .rsvd

/-- The register at an offset of management space (R579). -/
def mgmtReg (o : Nat) : Reg :=
  if o < 0x10 then .idRev (o / 8)
  else if 0x1000 ≤ o && o < 0x2000 then hubReg o
  else if 0x10000 ≤ o && o < 0x02000000 then hubReg o
  else if 0x02000000 ≤ o && o < 0x02004000 then pageReg ((o - 0x02000000) / 0x1000) (o % 0x1000)
  else if o = 0x02004000 then .logStat none
  else if 0x02004100 ≤ o && o < 0x02004200 then .logLost none ((o - 0x02004100) / 8)
  else .rsvd

/-! ## Values -/

/-- What LOG_STAT shows of a Log (R549). -/
def logStatValue (r : LogRing) : Nat := pack [(16, r.tail), (16, r.head), (1, b2n (logFull r)), (1, b2n r.lost)]

/-- The management Log, with its 4,096 slots. -/
def Work.mlogRing (w : Work) : LogRing := { w.hub.mlog with log2 := 12 }

/-- The unit of the last service action is still on its way. Actions are numbered by the KIND of R555: 0-5 for UNIT_OUT and UNIT_IN, 10-13 for RECAL, a bundle as site * 16 + bundle. -/
def Work.svcActive (w : Work) : Bool :=
  match w.hub.svc.action with
    | some (0, n) => (w.site n).power.quiescing || (w.site n).reclaiming || (w.site n).state = 6
    | some (1, g) => (w.wright g).out && (w.wright g).run.isSome
    | some (4, k) => (w.hport k).training && (w.hport k).state = 0
    | some (10, i) => (w.bundle (i / 16) (i % 16)).retraining
    | some (11, c) => (w.channel c).retraining
    | some (12, p) => (w.port p).state = 4
    | some (13, k) => (w.hport k).state = 4
    | _ => false

/-- The last service or firmware order is partially applied (R560). -/
def Work.svcPartial (w : Work) : Bool := w.hub.svc.partly || w.svcActive

/-- The value of a register with every unit visible (R579). -/
def Work.regValue (w : Work) (r : Reg) : Nat :=
  let h := w.hub
  match r with
  | .idRev 0 => pack [(16, 0x1F8C), (16, 0x0416), (32, idRev)]
  | .idRev _ => pack [(16, h.board.sites), (8, h.board.hawser), (1, b2n h.board.berthsHigh), (1, b2n h.board.holdScratch), (1, b2n h.board.clamshell)]
  | .qmStart => pack [(4, h.start.step), (3, h.start.state), (1, b2n h.start.cold), (8, h.start.cause), (32, min 0xFFFFFFFF ((h.now - h.start.startedAt) / 1000))]
  | .bootSrc p => (w.port p).bootSrc
  | .bootCtl p => let x := w.port p; pack [(1, 0), (1, b2n x.bootWrite), (1, b2n x.katEn), (5, 0), (4, x.bootResult)]
  | .hptStat p => let x := w.port p; pack [(3, x.state), (1, b2n x.ready), (5, x.width), (3, x.rate), (1, b2n x.flit), (1, b2n x.cxl), (1, b2n x.l0p)]
  | .hptCfg p => (w.port p).l1Idle
  | .ldgCfg p => (w.port p).hostTimeout
  | .chartCfg p => pack [(8, (w.port p).priTimeout), (10, h.chart.hotEpoch), (16, h.chart.hotThresh)]
  | .chartHot p 0 => let x := (w.port p).hotRing; pack [(1, b2n x.enable), (5, x.log2), (1, b2n x.overflow), (5, 0), (52, x.addr / 4096)]
  | .chartHot p _ => let x := (w.port p).hotRing; pack [(16, x.tail), (16, x.head)]
  | .cntIrqEn p => (w.port p).cntIrqEn
  | .hptIrq p i => pack ((List.range 4).map fun j => (16, w.irqVector p (4 * i + j)))
  | .hptIsr p i => tget 0 (w.port p).isr i
  | .logBase p => (w.port p).log.base
  | .logCfg p => let x := (w.port p).log; pack [(1, b2n x.enable), (5, x.log2), (1, 0), (3, x.minSev)]
  | .logStat (some p) => logStatValue (w.port p).log
  | .logStat none => logStatValue w.mlogRing
  | .logLost (some p) c => tget 0 (w.port p).log.lostCount c
  | .logLost none c => tget 0 h.mlog.lostCount c
  | .tenMgr => pack (h.ten.mgrNext.map fun b => (16, b % 16384))
  | .tenStat => h.ten.poolPartial % 16
  | .tenCfg => h.ten.scrubInterval
  | .svcStat => pack [(16, h.svc.order), (1, b2n w.svcPartial)]
  | .cntCfg => h.svc.sharedPort
  | .sportCfg n => let x := (w.site n).port; pack [(1, b2n x.offerCoh), (1, b2n x.offerToken), (1, b2n x.offerHelm)]
  | .slinkStat n =>
    slinkStat (w.site n)
  | .memCfg => pack [(6, h.memory.rate), (8, h.memory.rfshTlimit), (1, b2n h.memory.clamshell), (3, h.memory.remapped.length)]
  | .memRegion r => let x := w.region r; pack [(2, x.cls), (1, b2n x.busy), (1, b2n x.hubArea), (1, b2n (r < w.regions))]
  | .holdPart p => let x := w.part p; pack [(2, x.mode), (14, 0), (14, x.holder), (1, b2n x.busy)]
  | .bwrCfg => pack [(8, h.bwr.w0), (14, h.bwr.window), (6, h.bwr.tol)]
  | .bwrStat k 0 => pack [(32, (tget ({} : BwrRes) h.bwr.res k).dcap), (32, 1000 * w.guarSum k)]
  | .bwrStat k _ =>
    let x : BwrRes := tget {} h.bwr.res k
    let partly : Bool := match x.changedAt with | some t => w.now < t + 10 | none => false
    pack [(16, x.scale), (8, x.cause), (1, b2n partly)]
  | .bwrBerth i => pack ((List.range 8).map fun j => (8, w.groupOf (8 * i + j)))
  | .binStat =>
    let b := h.bin
    pack [(3, b.level), (3, b.arithOp), (3, b.holdOp), (3, b.memOp), (6, b.cause), (1, b2n b.partly), (1, b2n b.op7Retired), (12, 0), (16, b.pkgW), (8, b.hubTj), (8, b.holdTj)]
  | .binEnergy => h.bin.energy % 2 ^ 64
  | .binPkgEnergy => h.bin.pkgEnergy % 2 ^ 64
  | .hwsSys i => bits h.hawser.sys (64 * i + 63) (64 * i)
  | .hwsPort k =>
    let x := w.hport k
    pack [(3, x.state), (4, if x.state = 3 then x.cause else 0), (3, x.lanes), (1, b2n x.dateline), (1, b2n x.peerSet), (12, x.peerHub), (12, x.peerSeen)]
  | .hwsId => w.hubId
  | .hwsRoute i => pack ((List.range 4).map fun j => (16, tget 0 h.hawser.routes (4 * i + j)))
  | .counter o => tget 0 h.cnt o
  | .vfStat p _ => pack [(3, (w.port p).state), (1, b2n (w.port p).ready)]
  | .vfIsr p v => (w.func { port := p, func := v }).isr
  | .msix _ _ _ => 0
  | .rsvd => 0

/-! ## Writes -/

/-- A value with the masked bits replaced. -/
def merged (old v m : Nat) : Nat := old - (old &&& m) + (v &&& m)

/-- A field of a written register: its new value where it lies in range, else the old one (R565). -/
def fieldIn (old new hi lo : Nat) (ok : Nat → Bool) : Nat := if ok (bits new hi lo) then bits new hi lo else bits old hi lo

/-- A write touches a field. -/
def touches (m hi lo : Nat) : Bool := bits m hi lo ≠ 0

/-- A write that the port may not make is counted under R376; one that a pool rule refuses is also logged, once per register within 1 ms (R565). -/
def Work.regRefused (w : Work) (p o : Nat) (pool : Bool) : Work :=
  let w := w.count 14 p 18
  let late : Bool := match tfind (w.port p).regLogged o with | some t => t + 1000 ≤ w.now | none => true
  if pool && late then
    (w.onPort p fun x => { x with regLogged := tset x.regLogged o w.now }).log { cls := 0x14, sev := 1, cause := 0x8019, unit := p, addr := o }
  else w

/-- The priority section of a port's Log is emptied: its slots read as zero (R549, R551). -/
def Work.priEmpty (w : Work) (p : Nat) : Work :=
  let r := (w.port p).log
  let w := w.onPort p fun x => { x with log := { x.log with pri := [] } }
  if r.log2 = 0 || !r.enable then w else w.hostWrite { port := p, func := 0 } (r.base + 32 * 2 ^ r.log2) (List.replicate 512 0)

/-- A write of LOG_CFG (R549). -/
def Work.writeLogCfg (w : Work) (p v m : Nat) : Work :=
  let old := (w.port p).log
  let cur := w.regValue (.logCfg p)
  let new := merged cur v m
  let w := w.onPort p fun x => { x with log := { x.log with
    enable := bit new 0
    log2 := if old.enable then old.log2 else fieldIn cur new 5 1 fun n => 6 ≤ n && n ≤ 16
    minSev := bits new 9 7 } }
  if bit new 0 && !old.enable then (w.onPort p fun x => { x with log := { x.log with tail := 0, head := 0, passes := 0 } }).priEmpty p
  else if bit (v &&& m) 6 then w.priEmpty p
  else w

/-- A write of LOG_STAT: HEAD is advanced, LOST cleared; when space returns the gap entry follows (R549, R550). -/
def Work.writeLogStat (w : Work) (port : Option Nat) (v m : Nat) : Work :=
  let r := match port with | some p => (w.port p).log | none => w.mlogRing
  let new := merged (logStatValue r) v m
  let upd (x : LogRing) : LogRing := { x with head := if touches m 31 16 && bits new 31 16 < 2 ^ r.log2 then bits new 31 16 else x.head,
                                              lost := x.lost && !bit (v &&& m) 33 }
  let w := match port with
    | some p => w.onPort p fun x => { x with log := upd x.log }
    | none => w.onHub fun h => { h with mlog := upd h.mlog }
  w.logGap port

/-- A write of CHART_HOT (R571). -/
def Work.writeChartHot (w : Work) (p v m : Nat) : Work :=
  let old := (w.port p).hotRing
  let cur := w.regValue (.chartHot p 0)
  let new := merged cur v m
  let rise : Bool := bit new 0 && !old.enable
  w.onPort p fun x => { x with hotRing := { x.hotRing with
    enable := bit new 0
    log2 := if old.enable then old.log2 else fieldIn cur new 5 1 fun n => 4 ≤ n && n ≤ 16
    addr := if old.enable then old.addr else bits new 63 12 * 4096
    overflow := old.overflow && !bit (v &&& m) 6
    tail := if rise then 0 else old.tail
    head := if rise then 0 else old.head } }

/-- GO of BOOT_CTL starts a fetch of the first header of an image in recovery; otherwise it is ignored (R530, R531). -/
def Work.writeBootCtl (w : Work) (p v m : Nat) : Work :=
  let new := merged (w.regValue (.bootCtl p)) v m
  let w := w.onPort p fun x => { x with bootWrite := bit new 1, katEn := bit new 2 }
  if bit (v &&& m) 0 && w.hub.start.state = 2 && w.hub.start.fetchPort.isNone then
    let w := (w.onStart fun x => { x with fetchPort := some p }).onPort p fun x => { x with bootResult := 1 }
    (w.emit (.bootRead p (w.port p).bootSrc 256)).tlp p 0
  else w

/-- Some block of a region has an owner other than KIND 0, the hub's own areas apart (R575). -/
def Work.regionOwned (w : Work) (r : Nat) : Bool := w.hub.memory.owner.any fun (b, v) => b / 2 ^ 14 = r && bits v 15 14 ≠ 0

/-- A CLASS write: refused while BUSY, in a hub area, where nothing is installed or owned; an accepted change zeroes the region (R308, R575). -/
def Work.writeRegion (w : Work) (r v m : Nat) : Work :=
  let x := w.region r
  let cls := bits (merged x.cls v m) 1 0
  if cls = 3 || cls = x.cls || x.busy || x.hubArea || w.regions ≤ r || w.regionOwned r then w
  else w.onMem fun y => { y with regions := tmod {} y.regions r fun x => { x with busy := true, nextCls := cls } }

/-- A HOLD_PART write of the manager of a port, or of management: refused while BUSY, for a holder outside the pool or not Open, for SCRATCH without the warrant; else the partition is purged or zeroed before the new mode takes effect (R300, R303, R427, R575). -/
def Work.writePart (w : Work) (src : Option Nat) (p v m : Nat) : Work :=
  let x := w.part p
  let new := merged (w.regValue (.holdPart p)) v m
  let mode := bits new 1 0
  let holder := bits new 29 16
  let held : Bool := mode % 2 = 1
  if x.busy || (mode = x.mode && holder = x.holder) || (!held && holder ≠ 0) || (p / 16) ∈ w.hub.memory.diesOut then w
  else if held && (4096 ≤ holder || (w.berth holder).state ≠ .open
      || (match src with | some q => !(inRun (w.pool q).berthFirst (w.pool q).berthCount holder || w.mgr q = holder) | none => false)) then
    match src with
    | some q => w.regRefused q (0x21000 + 8 * p) true
    | none => w.log { cls := 0x14, sev := 1, cause := 0x8019, addr := 0x21000 + 8 * p }
  else if mode = 3 && !w.hub.board.holdScratch then w
  else (w.purgeLines fun l => l.part = p).onMem fun y => { y with parts := tmod {} y.parts p fun x => { x with busy := true, nextMode := mode, nextHolder := holder } }

/-- Berth b of a BWR_BERTH byte moves to a group; RG0 is no entry (R434). -/
def Work.setGroup (w : Work) (b g : Nat) : Work := w.onBwr fun y => { y with groups := if g = 0 then tdel y.groups b else tset y.groups b g }

/-- A BWR_BERTH write, byte by byte: through a port, berths of its pool that name RG0 or a group of the pool; other bytes are refused (R577). -/
def Work.writeBwrBerth (w : Work) (src : Option Nat) (i v m : Nat) : Work :=
  let bytes := (List.range 8).filter fun j => bits m (8 * j + 5) (8 * j) ≠ 0
  let new (j : Nat) : Nat := bits (merged (w.groupOf (8 * i + j)) (bits v (8 * j + 7) (8 * j)) (bits m (8 * j + 7) (8 * j))) 5 0
  let ok (j : Nat) : Bool := match src with
    | some p => inRun (w.pool p).berthFirst (w.pool p).berthCount (8 * i + j) && (new j = 0 || bit (w.pool p).regroups (new j))
    | none => true
  let w' := each (bytes.filter ok) (fun j w => w.setGroup (8 * i + j) (new j)) w
  match src with
  | some p => if bytes.all ok then w' else w'.regRefused p (0x41000 + 8 * i) true
  | none => w'

/-- A write of BWR_CFG; a changed WINDOW ends the current window unjudged (R335, R342, R576). -/
def Work.writeBwrCfg (w : Work) (v m : Nat) : Work :=
  let cur := w.regValue .bwrCfg
  let new := merged cur v m
  let win := fieldIn cur new 21 8 fun n => 10 ≤ n && n ≤ 10000
  let w' := w.onBwr fun b => { b with w0 := fieldIn cur new 7 0 (fun n => n ≠ 0), tol := fieldIn cur new 27 22 fun n => n ≤ 32, window := win }
  if win = w.hub.bwr.window then w'
  else w'.onBwr fun b => { b with
    charged := []
    causes := ((List.range 640).map fun i => (i, w.derateCauses (i % 10))).filter fun (_, c) => c ≠ 0 }

/-- A write of MEM_CFG: RATE waits for the next start, RFSH_TLIMIT applies at once (R325, R575). -/
def Work.writeMemCfg (w : Work) (v m : Nat) : Work :=
  let cur := w.regValue .memCfg
  let new := merged cur v m
  let w := w.onMem fun y => { y with rate := fieldIn cur new 5 0 (fun n => n % 2 = 0 && 28 ≤ n && n ≤ 40), rfshTlimit := fieldIn cur new 13 6 fun n => 60 ≤ n && n ≤ 95 }
  w.onMem fun y => { y with channels := y.channels.map fun (c, x) => (c, if y.rfshTlimit < x.temp then { x with base1 := true } else x) }

/-- A write of one 8-byte part of HWS_SYS: each field in its range, reserved bits zero (R493). -/
def sysPart (i cur new : Nat) : Nat :=
  match i with
  | 0 => new
  | 1 => pack [(16, bits new 15 0), (16, bits new 31 16), (12, bits new 43 32), (4, 0), (16, fieldIn cur new 63 48 fun n => n ≠ 0)]
  | 2 => pack [(16, fieldIn cur new 15 0 fun n => n ≠ 0), (16, fieldIn cur new 31 16 fun n => n ≠ 0 && n ≤ 1000)]
  | _ => 0

/-- A write of HWS_SYS, HWS_ID, HWS_PORT or HWS_ROUTE: routes follow; a changed record or number goes out in new muster records (R492, R501, R602). -/
def Work.writeHws (w : Work) (r : Reg) (v m : Nat) : Work :=
  let cur := w.regValue r
  let new := merged cur v m
  match r with
  | .hwsSys i =>
    let x := sysPart i cur new
    if x = cur then w else ((w.onHawser fun h => { h with sys := putBits h.sys (64 * i + 63) (64 * i) x }).sendMusters).rerouted w
  | .hwsId =>
    let x := fieldIn cur new 11 0 fun n => n < 1024
    if x = cur then w else ((w.onHawser fun h => { h with id := x }).sendMusters).rerouted w
  | .hwsPort k => w.onHPort k fun x => { x with dateline := bit new 10, peerSet := bit new 11, peerHub := bits new 23 12 }
  | .hwsRoute i =>
    (w.onHawser fun h => { h with routes := (List.range 4).foldl (fun t j => tset t (4 * i + j) (bits new (16 * j + 7) (16 * j))) h.routes }).rerouted w
  | _ => w

/-- A write of an MSI-X table word: address and data are kept, the mask bit masks or unmasks its vector (R383). -/
def Work.writeMsix (w : Work) (p v i x m : Nat) : Work :=
  let f : FuncRef := { port := p, func := v }
  let w := w.onFunc f fun y => { y with msix := tset y.msix i (merged (tget 0 y.msix i) x (if i % 2 = 1 then m % 2 ^ 32 else m)) }
  if i % 2 = 0 || !bit m 32 then w
  else if bit x 32 then w.onFunc f fun y => { y with masked := addTo y.masked (i / 2) }
  else if (i / 2) ∈ (w.func f).masked then w.unmask f (some (i / 2))
  else w

/-- A write of masked bits to a register, from management or through PF0 BAR0 of a port (R565, R577-R579); `o` is its offset. -/
def Work.writeReg (w : Work) (src : Option Nat) (o : Nat) (r : Reg) (v m : Nat) : Work :=
  let cur := w.regValue r
  let new := merged cur v m
  let own (hit : Bool) (k : Work → Work) : Work := match src with
    | none => k w
    | some p => if hit then w.regRefused p o false else w
  let pooled (ok : Pool → Bool) (k : Work → Work) : Work := match src with
    | none => k w
    | some p => if ok (w.pool p) then k w else w.regRefused p o true
  match r with
  | .bootSrc p => w.onPort p fun x => { x with bootSrc := bits new 63 12 * 4096 }
  | .bootCtl p => w.writeBootCtl p v m
  | .hptCfg p => w.onPort p fun x => { x with l1Idle := fieldIn cur new 9 0 fun n => 1 ≤ n && n ≤ 1000 }
  | .ldgCfg p => w.onPort p fun x => { x with hostTimeout := fieldIn cur new 7 0 fun n => n ≠ 0 }
  | .chartCfg p =>
    let w' := w.onPort p fun x => { x with priTimeout := fieldIn cur new 7 0 fun n => n ≠ 0 }
    match src with
    | none => w'.onChart fun c => { c with hotEpoch := fieldIn cur new 17 8 (fun n => 1 ≤ n && n ≤ 1000), hotThresh := fieldIn cur new 33 18 fun n => n ≠ 0 }
    | some q => if touches m 33 8 then w'.regRefused q o false else w'
  | .chartHot p 0 => w.writeChartHot p v m
  | .chartHot p _ => w.onPort p fun x => { x with hotRing := { x.hotRing with head := bits new 31 16 } }
  | .cntIrqEn p => w.onPort p fun x => { x with cntIrqEn := new % 2 ^ 19 }
  | .hptIrq p i => w.onPort p fun x => { x with irq := (List.range 4).foldl (fun t j => tset t (4 * i + j) (bits new (16 * j + 10) (16 * j))) x.irq }
  | .hptIsr p i => w.onPort p fun x => { x with isr := tset x.isr i (cur - (cur &&& (v &&& m))) }
  | .logBase p => if (w.port p).log.enable then w else w.onPort p fun x => { x with log := { x.log with base := bits new 63 12 * 4096 } }
  | .logCfg p => w.writeLogCfg p v m
  | .logStat port => w.writeLogStat port v m
  | .tenCfg => own (touches m 12 0) fun w => w.onTen fun t => { t with scrubInterval := fieldIn cur new 12 0 fun n => 64 ≤ n && n ≤ 4096 }
  | .cntCfg => own (touches m 1 0) fun w => w.onHub fun h => { h with svc := { h.svc with sharedPort := bits new 1 0 } }
  | .sportCfg n => pooled (fun p => bit p.sites n) fun w => w.onSPort n fun x => { x with offerCoh := bit new 0, offerToken := bit new 1, offerHelm := bit new 2 }
  | .memCfg => own (touches m 13 0) fun w => w.writeMemCfg v m
  | .memRegion r => pooled (fun p => bit p.regions r) fun w => w.writeRegion r v m
  | .holdPart i => pooled (fun p => bit p.hold i) fun w => w.writePart src i v m
  | .bwrCfg => own (touches m 27 0) fun w => w.writeBwrCfg v m
  | .bwrBerth i => w.writeBwrBerth src i v m
  | .hwsSys i => own (touches m 63 0 && i < 3) fun w => w.writeHws r v m
  | .hwsPort _ => own (touches m 23 10) fun w => w.writeHws r v m
  | .hwsId => own (touches m 11 0) fun w => w.writeHws r v m
  | .hwsRoute _ => own (touches m 63 0) fun w => w.writeHws r v m
  | .counter o =>
    let may : Bool := match src, cntAt o with | some p, some (k, i) => w.mayRead p k i | _, _ => true
    if may && bit (v &&& m) 63 then w.onHub fun h => { h with cnt := tset h.cnt o (cur % 2 ^ 63) } else w
  | .vfIsr p x => w.onFunc { port := p, func := x } fun y => { y with isr := cur - (cur &&& (v &&& m)) }
  | .msix p x i => w.writeMsix p x i v m
  | .idRev _ | .qmStart | .hptStat _ | .logLost _ _ | .tenMgr | .tenStat | .svcStat | .slinkStat _ | .bwrStat _ _ | .binStat | .binEnergy | .binPkgEnergy | .vfStat _ _ | .rsvd => w

/-- What a read does to a register: LOG_LOST clears (R13, R549). -/
def Work.readReg (w : Work) (r : Reg) : Nat × Work :=
  (w.regValue r, match r with
    | .logLost (some p) c => w.onPort p fun x => { x with log := { x.log with lostCount := tdel x.log.lostCount c } }
    | .logLost none c => w.onHub fun h => { h with mlog := { h.mlog with lostCount := tdel h.mlog.lostCount c } }
    | _ => w)

/-- A register of a bell page, not a bell (R398): RING_BASE and CPL_BASE while the ring is neither enabled nor draining, RING_CFG with what ENABLE does. -/
def Work.writeRing (w : Work) (b o v m : Nat) : Work :=
  let ring := (o - 0x100) / 0x40
  let x := w.ring b ring
  let locked : Bool := x.enable || x.state = 3
  if o < 0x100 || 0x200 ≤ o then w
  else match o % 0x40 with
    | 0 => if locked then w else w.onRing b ring fun r => { r with base := bits (merged r.base v m) 63 12 * 4096 }
    | 8 =>
      let cur := pack [(1, b2n x.enable), (5, x.log2), (1, b2n x.px2), (9, 0), (11, x.vector)]
      let new := merged cur v m
      let new := if locked then putBits new 5 1 x.log2 else new
      if bit new 0 && !x.enable then w.ringEnable b ring new
      else if x.enable && !bit new 0 then (w.onRing b ring fun r => { r with vector := bits new 26 16 }).ringDrain b ring
      else w.onRing b ring fun r => { r with log2 := if locked then r.log2 else fieldIn cur new 5 1 (fun n => 4 ≤ n && n ≤ 16), px2 := bit new 6, vector := bits new 26 16 }
    | 16 => if locked then w else w.onRing b ring fun r => { r with cplBase := bits (merged r.cplBase v m) 63 12 * 4096 }
    | _ => w

end Sys2Proof.Machine
end

