-- ==== Sys2Proof/Machine/Registers.lean ====
section
/-! DEFINITION. The commands that write registers (21): REG_WRITE and what it alone may write (R563, R578), host writes to BAR0 and BAR2 (R376, R564-R567), recovery (R530). -/

namespace Sys2Proof.Machine

/-! ## REG_WRITE (R555, R563) -/

/-- A service or firmware order waits while the Quartermaster's firmware is replaced, and for the end of a start (R541, R559). -/
def Work.heldService (w : Work) (c : HeldOrder) (early : Bool) (k : Work → Work) : Work :=
  if w.svcPaused && !w.mute then w.onHub fun h => { h with heldOrders := h.heldOrders ++ [c] } else w.heldBack c early k

/-- Bytes of management space (R562). -/
def mgmtSize : Nat := 0x03000000

/-- REG_WRITE acts: the masked bits are written, the reply carries the register's value afterwards. -/
def Work.doRegWrite (w : Work) (o : OrderHdr) (offset value mask : Nat) : Work :=
  w.order o 0x0051 roleService (if offset % 8 ≠ 0 || mgmtSize ≤ offset then some rpBadShape else none) fun w =>
    let r := mgmtReg offset
    let w := (w.svcOrder 0x0051).writeReg none offset r (value % 2 ^ 64) (mask % 2 ^ 64)
    let (v, w) := w.readReg r
    w.orderOk o (leBytes 8 v)

/-- A REG_WRITE order. -/
def Work.regWrite (w : Work) (o : OrderHdr) (offset value mask : Nat) : Work :=
  w.heldService (.regWrite o offset value mask) false fun w => w.doRegWrite o offset value mask

/-- REG_WRITE. -/
def execRegWrite (o : OrderHdr) (offset value mask : Nat) (s : State) : Host.Outcome State Fault Refusal :=
  s.runAll fun w => w.regWrite o offset value mask

/-- HWS_ID_WRITE: a REG_WRITE of the hub number (R602). -/
def execHwsIdWrite (o : OrderHdr) (value : Nat) (s : State) : Host.Outcome State Fault Refusal :=
  s.runAll fun w => w.regWrite o 0x70180 value (2 ^ 64 - 1)

/-- HWS_SYS_WRITE: a REG_WRITE of one register of the system record (R492, R493). -/
def execHwsSysWrite (o : OrderHdr) (index value mask : Nat) (s : State) : Host.Outcome State Fault Refusal :=
  s.runAll fun w => w.regWrite o (0x70000 + 8 * (index % 32)) value mask

/-- BWR_CFG_WINDOW_WRITE: a REG_WRITE of WINDOW (R576). -/
def execBwrCfgWindowWrite (o : OrderHdr) (window : Nat) (s : State) : Host.Outcome State Fault Refusal :=
  s.runAll fun w => w.regWrite o 0x40000 (window % 2 ^ 14 * 2 ^ 8) (pack [(8, 0), (14, 2 ^ 14 - 1)])

/-! ## Writes of a host (R376, R564) -/

/-- The hub hears a host's write to the BARs of a function: its link is up, its function answers configuration requests, its stream is not Insecure (R393). -/
def Work.barOpen (w : Work) (f : FuncRef) : Bool :=
  w.hub.start.hubRstN && w.portUp f.port && (w.port f.port).configReady && (f.func = 0 || w.vfLive f.port) && w.streamSecure f

/-- Writes that a recovery takes: the loader serves QM_START and BOOT_CTL alone (R530). -/
def Work.barServes (w : Work) (r : Reg) : Bool :=
  w.hub.start.state ≠ 2 || match r with | .bootSrc _ | .bootCtl _ => true | _ => false

/-- A masked write of a host to a register of PF0 BAR0, at its offset. -/
def Work.hostReg (w : Work) (p o v m : Nat) : Work :=
  let f : FuncRef := { port := p, func := 0 }
  if !w.barOpen f then w
  else
    let w := w.tlp p 5
    if (w.func f).flr || (w.func f).d3hot then w.count 14 p 18
    else if w.barServes (barReg p o) then w.writeReg (some p) o (barReg p o) v m else w

/-- A host's write of 4 or 8 aligned bytes to a BAR; any other is discarded and counted, one to a TDI in ERROR is discarded (R376, R394). -/
def Work.barWrite (w : Work) (f : FuncRef) (offset width value : Nat) : Work :=
  if !w.barOpen f then w
  else
    let w := w.tlp f.port 5
    let o := offset / 8 * 8
    let lo := 8 * (offset % 8)
    let v := value % 2 ^ (8 * width) * 2 ^ lo
    let m := (2 ^ (8 * width) - 1) * 2 ^ lo
    if (width ≠ 4 && width ≠ 8) || offset % width ≠ 0 || (w.func f).flr || (w.func f).d3hot then w.count 14 f.port 18
    else if (w.func f).tdi = .error then w
    else if 2 ^ 32 ≤ offset then
      (if w.hub.start.state = 2 then w
       else match w.berthAt f ((offset - 2 ^ 32) / 4096) with
         | none => w.count 14 f.port 18
         | some b => w.writeRing b (o % 4096) v m)
    else
      let r := if f.func = 0 then barReg f.port o else vfReg f.port f.func o
      if w.barServes r then w.writeReg (some f.port) o r v m else w

/-- REGISTER_WRITE: through a BAR of a function (offsets of BAR2 from 2^32), or in management space by a write that the Purser has accepted. -/
def execRegisterWrite (src : Option FuncRef) (offset width value : Nat) (s : State) : Host.Outcome State Fault Refusal :=
  s.runAll fun w =>
    match src with
    | some f => w.barWrite f offset width value
    | none =>
      if w.mute || w.hub.start.state = 0 || w.hub.start.state = 2 || width ≠ 8 || offset % 8 ≠ 0 || mgmtSize ≤ offset then w
      else w.writeReg none offset (mgmtReg offset) (value % 2 ^ 64) (2 ^ 64 - 1)

/-- A write that comes through a port, or from management where the Purser has accepted it, to a register of the shared map. -/
def Work.sharedReg (w : Work) (src : Option Nat) (o v m : Nat) : Work :=
  match src with
  | some p => w.hostReg p o v m
  | none => if w.mute || w.hub.start.state = 0 || w.hub.start.state = 2 then w else w.writeReg none o (mgmtReg o) v m

/-- BWR_BERTH_WRITE: the byte of one berth (R434, R577). -/
def execBwrBerthWrite (src : Option Nat) (berth group : Nat) (s : State) : Host.Outcome State Fault Refusal :=
  s.runAll fun w =>
    let b := berth % 4096
    w.sharedReg src (0x41000 + 8 * (b / 8)) (group % 2 ^ 8 * 2 ^ (8 * (b % 8))) ((2 ^ 8 - 1) * 2 ^ (8 * (b % 8)))

/-- MEM_REGION_CLASS_WRITE (R575). -/
def execMemRegionClassWrite (src : Option Nat) (region cls : Nat) (s : State) : Host.Outcome State Fault Refusal :=
  s.runAll fun w => w.sharedReg src (0x20100 + 8 * (region % 192)) cls 3

/-- HOLD_PART_WRITE (R300, R575). -/
def execHoldPartWrite (src : Option Nat) (part mode holder : Nat) (s : State) : Host.Outcome State Fault Refusal :=
  s.runAll fun w => w.sharedReg src (0x21000 + 8 * (part % 48)) (pack [(2, mode), (14, 0), (14, holder)]) (2 ^ 64 - 1)

/-- LOG_ENABLE: a write of LOG_CFG (R549). -/
def execLogEnable (port value : Nat) (s : State) : Host.Outcome State Fault Refusal :=
  s.runAll fun w => w.hostReg port 0x208 (value % 2 ^ 64) (2 ^ 64 - 1)

/-- PRI_CLEAR (R549). -/
def execPriClear (port : Nat) (s : State) : Host.Outcome State Fault Refusal :=
  s.runAll fun w => w.hostReg port 0x208 0x40 0x40

/-- LOG_HEAD_WRITE: HEAD of a port's Log, or of the management Log by a write that the Purser has accepted (R549, R550, R579). -/
def execLogHeadWrite (port : Option Nat) (head : Nat) (s : State) : Host.Outcome State Fault Refusal :=
  s.runAll fun w =>
    match port with
    | some p => w.hostReg p 0x210 (head % 2 ^ 16 * 2 ^ 16) 0xFFFF0000
    | none => if w.mute || w.hub.start.state = 0 || w.hub.start.state = 2 then w else w.writeReg none 0x02004000 (.logStat none) (head % 2 ^ 16 * 2 ^ 16) 0xFFFF0000

/-- CHART_HOT_ENABLE: a write of CHART_HOT (R571). -/
def execChartHotEnable (port value : Nat) (s : State) : Host.Outcome State Fault Refusal :=
  s.runAll fun w => w.hostReg port 0x50 (value % 2 ^ 64) (2 ^ 64 - 1)

/-- BOOT_CTL_GO: a write of BOOT_CTL with GO set (R530, R531). -/
def execBootCtlGo (port value : Nat) (s : State) : Host.Outcome State Fault Refusal :=
  s.runAll fun w => w.hostReg port 0x20 (value % 2 ^ 64 ||| 1) (2 ^ 64 - 1)

/-! ## Boot images (R527, R528, R530) -/

/-- No two sections of an image overlap. -/
def sectionsApart : List (Nat × Nat × Nat) → Bool
  | [] => true
  | (_, a, n) :: r => r.all (fun (_, b, m) => a + n ≤ b || b + m ≤ a) && sectionsApart r

/-- The checks of an image but for its signature (R528): each of TYPE 1 to 6 once, every section inside. -/
def imageShape (f : ImageFacts) : Bool :=
  f.format = 1 && f.rsvdZero && 4096 ≤ f.imageLen && f.imageLen ≤ 2 ^ 25 && f.revMin ≤ idRev && idRev ≤ f.revMax
    && f.sections.length = 6 && [1, 2, 3, 4, 5, 6].all (fun t => f.sections.any fun (x, _, _) => x = t)
    && f.sections.all (fun (_, a, n) => a + n ≤ f.imageLen) && sectionsApart f.sections

/-- The Purser accepts an image. -/
def imageOk (f : ImageFacts) : Bool := f.sigOk && imageShape f

/-- An image is the boot image of the flash. -/
def Work.flashHolds (w : Work) (version : Nat) : Work := w.onStart fun x => { x with flashValid := true, flashVersion := version }

/-- RECOVERY_IMAGE_FETCHED: the image that a port's GO asked for has come or its fetch has failed; one that passes runs from step 4, and is written to flash where WRITE is set (R530, R531). An ordered image is checked by its own IMAGE_COMMIT, and one that comes after another was accepted is discarded (R541). -/
def execRecoveryImageFetched (port : Option Nat) (outcome : XferEnd) (facts : ImageFacts) (flashOk : Bool) (s : State) : Host.Outcome State Fault Refusal :=
  s.runAll fun w =>
    match port with
    | none => w
    | some p =>
      if w.hub.start.state ≠ 2 || w.hub.start.fetchPort ≠ some p then w
      else
        let w := w.onStart fun x => { x with fetchPort := none }
        let result (n : Nat) (w : Work) : Work := w.onPort p fun x => { x with bootResult := n }
        let fail (n : Nat) : Work := (result n w).log { cls := 0x10, sev := 1, cause := n, unit := p }
        if outcome ≠ .ok then fail 5
        else if !facts.sigOk then fail 3
        else if !imageShape facts then fail 4
        else if (w.port p).bootWrite && !flashOk then ((fail 6).onStart fun x => { x with flashValid := false }).startGo facts.version
        else
          let w := result 2 w
          let w := if (w.port p).bootWrite then (w.flashHolds facts.version).emit (.flash 0 []) else w
          w.startGo facts.version

end Sys2Proof.Machine
end

