-- ==== Sys2Proof/Machine/Tenancy.lean ====
section
/-! DEFINITION. The commands of tenancy (15): berths, bindings, grants, keys, owners, scrubs, views; the service commands of the manager (R554); and the events on which a withdrawal or a close may wait. -/

namespace Sys2Proof.Machine

/-- A berth of the issuing manager's pool that is Open; else BAD_IDENT, or NOT_OWNER with DETAIL 2 (R427, R431). -/
def Work.openBerth (w : Work) (e : EntryRef) (b : Nat) (k : Work → Work) : Work :=
  if !w.berthInPool e b then w.complete e stBadIdent
  else if (w.berth b).state ≠ .open then w.complete e stNotOwner 2
  else k w

/-! ## Berth life (R429-R432, R438) -/

/-- BERTH_OPEN (R431); none in Returned (R471), none while a debug session is open (R480). -/
def execBerthOpen (e : EntryRef) (s : State) : Host.Outcome State Fault Refusal :=
  s.runAll fun w => w.command e 0x30 true fun x w =>
    let b := bits x 141 128
    if !w.berthInPool e b then w.complete e stBadIdent
    else if (w.berth b).state ≠ .free || w.hub.purser.lcCode = 0x0FFF then w.complete e stNotOwner 2
    else if w.hub.purser.debugOpen then w.complete e stNotOwner 4
    else
      let (k, w) := w.newKey
      let w := w.onMem fun m => { m with keys := tset (tdel m.keys (keyIx b 1)) (keyIx b 0) k }
      let w := w.onBerth b fun y =>
        { y with
          state := .open
          bind := none
          hint := 0xBF
          view := {}
          openCount := satAdd 0xFFFFFFFF y.openCount 1
          debugCount := 0
          consent := 0 }
      let w := w.onBwr fun y => { y with groups := tdel y.groups b }
      match tfind w.hub.chart.roots b with
      | none => w.complete e stOk
      | some _ => ((w.onChart fun c => { c with roots := tdel c.roots b }).setPartial e).invalidate (.ends e) { kind := 2, berth := b, nonleaf := true }

/-- BERTH_CLOSE (R438). -/
def execBerthClose (e : EntryRef) (s : State) : Host.Outcome State Fault Refusal :=
  s.runAll fun w => w.command e 0x31 true fun x w =>
    let b := bits x 141 128
    if !w.berthInPool e b then w.complete e stBadIdent
    else if w.isManager b || (w.berth b).state ≠ .open then w.complete e stNotOwner 2
    else (w.setPartial e).onBerth b fun y => { y with state := .closing, closeStep := 0, closeEntry := e, view := viewAbandon y.view }

/-- BERTH_BIND (R432). -/
def execBerthBind (e : EntryRef) (s : State) : Host.Outcome State Fault Refusal :=
  s.runAll fun w => w.command e 0x32 true fun x w =>
    let b := bits x 141 128
    let fn : FuncRef := { port := w.portOf e.berth, func := bits x 151 144 }
    let slot := bits x 155 152
    w.openBerth e b fun w =>
      if fn.func = 0 && slot ≠ 0 then w.complete e stBadShape
      else if bit x 156 then
        if w.isManager b || (w.berth b).bind.isNone || (w.berth b).unbind.isSome then w.complete e stNotOwner 3
        else each (List.range 4) (fun r w => w.ringDrain b r) (w.onBerth b fun y => { y with unbind := some e })
      else if (w.bindOf b).isSome || (fn.func ≠ 0 && (w.berthAt fn slot).isSome) then w.complete e stNotOwner 3
      else
        let w := w.tdiTouched fn
        (w.onBerth b fun y => { y with bind := some { port := fn.port, func := fn.func, slot := slot, pasidEn := bit x 157, pasid := bits x 179 160 } }).complete e stOk

/-! ## Grants (R433-R436) -/

/-- GRANT of a regulation group maps the berth to it, its withdrawal back to RG0 (R434). -/
def Work.grantGroup (w : Work) (e : EntryRef) (b g : Nat) (withdraw : Bool) : Work :=
  if withdraw then
    if w.groupOf b ≠ g then w.complete e stNotOwner 1
    else (w.onBwr fun y => { y with groups := tdel y.groups b }).complete e stOk 0 (b2n (g ≠ 0))
  else (w.onBwr fun y => { y with groups := if g = 0 then tdel y.groups b else tset y.groups b g }).complete e stOk 0 (b2n (w.groupOf b ≠ g))

/-- A berth holds an item, and no withdrawal takes it. -/
def Work.holds (w : Work) (b kind i : Nat) : Bool := if kind = 0 then w.siteHeld i b else w.holder kind i = some b

/-- An item may be granted to a berth: a site unless it is being withdrawn from it, another item unless another berth holds it or it is being withdrawn (R434, R452). -/
def Work.grantable (w : Work) (b kind i : Nat) : Bool :=
  if kind = 0 then !w.hub.ten.withdrawals.any fun x => x.kind = 0 && x.item = i && x.berth = b
  else !w.withdrawing kind i && (w.heldBy kind i).all fun c => c = b

/-- GRANT (R433, R434). -/
def execGrant (e : EntryRef) (s : State) : Host.Outcome State Fault Refusal :=
  s.runAll fun w => w.command e 0x33 true fun x w =>
    let b := bits x 141 128
    let kind := bits x 147 144
    let first := bits x 167 152
    let n := bits x 183 168
    w.openBerth e b fun w =>
      if 8 < kind || n = 0 || 4096 < n || (kind = 8 && n ≠ 1) then w.complete e stBadShape
      else
        let items := (List.range n).map (· + first)
        if !items.all (w.itemInPool e kind) then w.complete e stBadIdent
        else if kind = 8 then w.grantGroup e b first (bit x 148)
        else if bit x 148 then
          if !items.all (w.holds b kind) then w.complete e stNotOwner 1
          else
            let w := (w.setPartial e).onRing e.berth e.ring fun r => { r with started := r.started.map fun y =>
              if y.index = e.index then { y with progress := 1 + n } else y }
            w.withdrawAll (items.map fun i => { kind := kind, item := i, berth := b, entry := some e })
        else if !items.all (w.grantable b kind) then w.complete e stNotOwner 1
        else
          let new := items.filter fun i => !w.holds b kind i
          let w := w.onTen fun t => if kind = 0 then { t with sites := new.foldl (fun l i => (i, b) :: l) t.sites }
            else { t with held := new.foldl (fun h i => tset h (kind * 4096 + i) b) t.held }
          w.complete e stOk 0 new.length

/-! ## Keys (R439-R442) -/

/-- The slot that a key command names, when it may: of a berth or a share group of the pool (R440). -/
def Work.keySlot (w : Work) (e : EntryRef) (x : Nat) (k : Nat → Work → Work) : Work :=
  let slot := bits x 141 128
  if bit x 142 then
    if 255 < slot || !bit (w.poolOf e).groups slot then w.complete e stBadIdent else k (4096 + slot) w
  else if !w.berthInPool e slot then w.complete e stBadIdent
  else k slot w

/-- KEY_NEW (R440). -/
def execKeyNew (e : EntryRef) (s : State) : Host.Outcome State Fault Refusal :=
  s.runAll fun w => w.command e 0x34 true fun x w => w.keySlot e x fun slot w =>
    let gen := bits x 143 143
    if w.key slot gen ≠ 0 then w.complete e stBadShape 1
    else
      let (k, w) := w.newKey
      (w.onMem fun m => { m with keys := tset m.keys (keyIx slot gen) k }).complete e stOk

/-- Berths whose transfers may be under a slot: its own, or the members of its group. -/
def Work.slotBerths (w : Work) (slot : Nat) : List Nat :=
  if slot < 4096 then [slot] else (w.transfers.map fun m => m.berth).foldl addTo []

/-- KEY_RETIRE (R442). -/
def execKeyRetire (e : EntryRef) (s : State) : Host.Outcome State Fault Refusal :=
  s.runAll fun w => w.command e 0x35 true fun x w => w.keySlot e x fun slot w =>
    let gen := bits x 143 143
    if w.key slot gen = 0 || w.keyGone slot gen then w.complete e stOk
    else
      let bs := w.slotBerths slot
      let aw := (w.transfers.filter fun m => m.berth ∈ bs).foldl (fun l m => addTo l (m.agent, m.tag)) []
      (w.setPartial e).onMem fun m => { m with retiring := m.retiring ++ [{ slot := slot, gen := gen, entry := e, awaited := aw }] }

/-! ## Owners, groups, origins, placement (R313-R315, R329, R377, R437) -/

/-- The owner that an entry names, when the command may name it: BAD_IDENT outside the pool and for the hub's own KIND; NOT_OWNER of a berth that is not Open. -/
def Work.ownerOk (w : Work) (e : EntryRef) (v : Nat) (k : Work → Work) : Work :=
  match bits v 15 14 with
  | 0 => k w
  | 1 => w.openBerth e (bits v 13 0) k
  | 2 => if 255 < bits v 13 0 || !bit (w.poolOf e).groups (bits v 7 0) then w.complete e stBadIdent else k w
  | _ => w.complete e stBadIdent

/-- A block moves from one owner directly to a different owner (R437). -/
def ownerMoves (old new : Nat) : Bool :=
  let owned (v : Nat) : Bool := bits v 15 14 = 1 || bits v 15 14 = 2
  owned old && owned new && old ≠ new

/-- OWNER_SET (R315, R437): it waits for blocks under scrub and regions that are BUSY; blocks that change owner are scrubbed first. -/
def execOwnerSet (e : EntryRef) (s : State) : Host.Outcome State Fault Refusal :=
  s.runAll fun w => w.command e 0x24 true fun x w =>
    let dpa := bits x 179 128
    let n := bits x 287 256
    let v := bits x 303 288
    let first := dpa / 65536
    let blocks := (List.range n).map (· + first)
    if !w.blocksInPool e dpa n then w.complete e stBadIdent
    else w.ownerOk e v fun w =>
      if dpa % 65536 ≠ 0 || n = 0 then w.complete e stBadShape
      else if blocks.any fun b => bits (w.ownerOf (b * 65536)) 15 14 = 3 then w.complete e stBadIdent
      else if blocks.any (fun b => w.scrubbing b || (w.region (b / 16384)).busy) then w.keepWaiting e
      else
        let move := blocks.filter fun b => ownerMoves (w.ownerOf (b * 65536)) v
        if move = [] then (w.setOwners [(first, n)] v).complete e stOk
        else
          let keep := blocks.filter fun b => b ∉ move
          (((w.setPartial e).setOwners (runsOf keep) v).setOwners (runsOf move) 0).scrubStart (.owner e v) (runsOf move)

/-- GROUP_SET (R315): the vector is written whole. -/
def execGroupSet (e : EntryRef) (s : State) : Host.Outcome State Fault Refusal :=
  s.runAll fun w => w.command e 0x25 true fun x w =>
    let g := bits x 263 256
    if !bit (w.poolOf e).groups g then w.complete e stBadIdent
    else w.withStructure e x 512 fun v w =>
      let bs := ones v 4096
      if !bs.all (w.berthInPool e) then w.complete e stBadIdent
      else if !bs.all (fun b => (w.berth b).state = .open) then w.complete e stNotOwner 2
      else (w.onMem fun m => { m with member := if v = 0 then tdel m.member g else tset m.member g v }).complete e stOk

/-- ORIGIN_REGISTER (R329), its checks in the order given there. -/
def execOriginRegister (e : EntryRef) (s : State) : Host.Outcome State Fault Refusal :=
  s.runAll fun w => w.command e 0x26 true fun x w =>
    let r := bits x 383 128
    let o : Origin := { group := bits r 7 0, board := bit r 8, port := bits r 10 9, blocks := bits r 31 16, base := bits r 115 64, origin := bits r 191 128 }
    let inside (a : Nat) : Bool := a + o.blocks * 65536 ≤ w.regions * 2 ^ 30
    let same (y : Origin) : Bool := y.group = o.group && y.base = o.base
    let old := w.hub.memory.origins
    if !bit (w.poolOf e).groups o.group then w.complete e stBadIdent
    else if o.blocks = 0 || o.base % 65536 ≠ 0 || o.origin % 65536 ≠ 0 || !inside o.base || (o.board && (!inside o.origin || o.port ≠ 0)) then w.complete e stBadShape
    else if old.any same then (w.onMem fun m => { m with origins := m.origins.map fun y => if same y then o else y }).complete e stOk
    else if 1024 ≤ old.length then w.complete e stTableSpace
    else (w.onMem fun m => { m with origins := m.origins ++ [o] }).complete e stOk

/-- The memory of a placement record lies where R377 allows it. -/
def placeBase (d : Nat) : Bool := isBoard d || (0x004000000000 ≤ d && d < 0x004030000000)

/-- The memory that a placement record names lies in the issuing manager's pool (R427). -/
def Work.placePool (w : Work) (e : EntryRef) (x : Place) : Bool :=
  if isBoard x.base then w.blocksInPool e x.base x.len
  else (partsOf (2 ^ 24) (x.base - 0x004000000000) (x.len * 65536)).all fun p => p < 48 && bit (w.poolOf e).hold p

/-- PLACE_SET (R377), for the issuing port. -/
def execPlaceSet (e : EntryRef) (s : State) : Host.Outcome State Fault Refusal :=
  s.runAll fun w => w.command e 0x28 true fun x w =>
    let r := bits x 383 128
    let key := bits r 11 0
    let p := w.portOf e.berth
    let pl : Place := { rid := bits r 31 16, berth := bits r 45 32, base := bits r 115 64, len := bits r 140 128, flagOff := bits r 163 144,
                        flagEn := bit r 164, markEn := bit r 165, mark := bits r 179 168 }
    let touched (w : Work) : Work := match tfind (w.port p).places key with
      | some old => w.tdiOfBerth old.berth
      | none => w
    if !bit r 12 then ((touched w).onPort p fun q => { q with places := tdel q.places key }).complete e stOk
    else w.openBerth e pl.berth fun w =>
      if placeBase pl.base && !w.placePool e pl then w.complete e stBadIdent
      else if pl.markEn && w.holder 2 pl.mark ≠ some pl.berth then w.complete e stNotOwner
      else if pl.base % 65536 ≠ 0 || !placeBase pl.base || pl.len = 0 || 4096 < pl.len then w.complete e stBadShape
      else ((touched w).tdiOfBerth pl.berth |>.onPort p fun q => { q with places := tset q.places key pl }).complete e stOk

/-! ## Scrub (R413, R444) -/

/-- SCRUB. -/
def execScrub (e : EntryRef) (s : State) : Host.Outcome State Fault Refusal :=
  s.runAll fun w => w.command e 0x1B true fun x w =>
    let dpa := bits x 179 128
    let n := bits x 287 256
    if !w.blocksInPool e dpa n then w.complete e stBadIdent
    else if dpa % 65536 ≠ 0 then w.complete e stBadShape
    else if ((List.range n).map (· + dpa / 65536)).any (fun b => bits (w.ownerOf (b * 65536)) 15 14 ≠ 0) then w.complete e stNotOwner 1
    else if n = 0 then w.complete e stOk
    else w.scrubStart (.command e) [(dpa / 65536, n)]

/-- SCRUB_BURST: the next granule of a scrub on a channel. -/
def execScrubBurst (job channel : Nat) (s : State) : Host.Outcome State Fault Refusal :=
  s.runAll fun w =>
    match tfind w.hub.memory.scrubs job with
    | none => w
    | some j =>
      if 128 ≤ channel || (w.channel channel).isolated then w
      else match scrubGranule j channel with
        | none => w
        | some g => (((w.scrubCheck j g).scrubWrite j.key g).count 7 channel 7).onMem fun m => { m with scrubs := tmod {} m.scrubs job fun y => { y with written := tmod 0 y.written channel (· + 1) } }

/-- REGION_ZEROING_DONE: the whole region has been scrubbed under a key that is erased, and has its new class (R308, R575). -/
def execRegionZeroingDone (region : Nat) (s : State) : Host.Outcome State Fault Refusal :=
  s.runAll fun w =>
    if !(w.region region).busy then w
    else
      let lo := region * 2 ^ 22
      let (k, w) := w.newKey
      let w := w.onMem fun m => { m with
        hold := m.hold.filter fun l => !inRun lo (2 ^ 22) l.granule
        tag := m.tag.filter fun (g, _) => !inRun lo (2 ^ 22) g
        regions := tmod {} m.regions region fun x => { x with key := k, cls := x.nextCls, busy := false } }
      w.op (.wipe (region * 2 ^ 30) (2 ^ 30))

/-! ## What a tenant sees (R447-R450) -/

/-- VIEW_START: a job opens at the start of the current window. -/
def execViewStart (berth : Nat) (s : State) : Host.Outcome State Fault Refusal :=
  s.runAll fun w =>
    if (w.bindOf berth).isNone || (w.berth berth).view.isOpen then w
    else
      let others := w.hub.ten.berths.filter fun (_, x) => x.view.isOpen
      let w := each others (fun (b, _) w => w.onBerth b fun x => { x with view := { x.view with concurrent := satAdd 0xFFFF x.view.concurrent 1 } }) w
      w.onBerth berth fun x => { x with view := { x.view with
        isOpen := true
        stopping := false
        valid := false
        startWin := w.hub.ten.window
        startEnergy := w.hub.ten.windowEnergy
        concurrent := min 0xFFFF (1 + others.length) } }

/-- VIEW_STOP: the open job closes at the end of the current window. -/
def execViewStop (berth : Nat) (s : State) : Host.Outcome State Fault Refusal :=
  s.runAll fun w =>
    if (w.bindOf berth).isNone || !(w.berth berth).view.isOpen then w
    else w.onBerth berth fun x => { x with view := { x.view with stopping := true } }

/-- Units of the counters of R450. -/
def viewUnits : List Nat := [2 ^ 20, 2 ^ 20, 1, 2 ^ 10, 1, 2 ^ 30, 2 ^ 30, 1, 2 ^ 10, 1]

/-- A view at a window boundary: the record of the job closed one boundary ago is written, a stopping job closes, the counters are shown. -/
def viewBoundary (window energy : Nat) (v : View) : View :=
  let v := match v.ended with
    | some (j, c, d) => { v with joules := j, conc := c, duration := d, valid := true, ended := none }
    | none => v
  let v := if v.isOpen && v.stopping then
      { v with isOpen := false, stopping := false
               ended := some (min 0xFFFFFFFF ((energy - v.startEnergy) / 10 ^ 6), v.concurrent, min 0x7FFF (window - v.startWin)) }
    else v
  { v with shown := (List.range 10).map fun i => (i, min 0xFFFFFFFF (tget 0 v.counts i / viewUnits.getD i 1)) }

/-- VIEW_WINDOW_END. `watts` is the hub's mean power over the window, rounded down to 5 W here (R448). -/
def execViewWindowEnd (watts : Nat) (s : State) : Host.Outcome State Fault Refusal :=
  s.runAll fun w =>
    let win := w.hub.ten.window + 1
    let energy := w.hub.bin.energy
    w.onTen fun t => { t with
      window := win
      windowEnergy := energy
      watts := watts / 5 * 5 % 2 ^ 16
      berths := t.berths.map fun (b, x) => (b, { x with view := viewBoundary win energy x.view }) }

/-! ## Service commands of the manager (R554) -/

/-- A site is taken out by orderly exit (R115, R554, R557); true when something is left to wait for. -/
def Work.siteTakeOut (w : Work) (n : Nat) : Bool × Work :=
  let s := w.site n
  if siteServing s then (true, if s.power.quiescing then w.onSite n fun s => { s with restart := false } else (w.onSite n fun s => { s with restart := false }).siteExit n 0)
  else (s.state = 4 && s.reclaiming, w)

/-- SITE_OUT: RESULT 0 clean, 1 when dead-agent handling ran. -/
def execSiteOut (e : EntryRef) (s : State) : Host.Outcome State Fault Refusal :=
  s.runAll fun w => w.command e 0x40 true fun x w =>
    let n := bits x 260 256
    if !w.itemInPool e 0 n then w.complete e stBadIdent
    else if (w.site n).state = 6 || (w.site n).outEntry.isSome then w.keepWaiting e
    else
      let (waits, w) := w.siteTakeOut n
      if waits then (w.setPartial e).onSite n fun s => { s with outEntry := some e }
      else w.complete e stOk 0 (b2n ((w.site n).state = 4))

/-- The interconnect test at a return to service (R35, R533): what it, the warrant, the start tests or the fuse map find keeps the site absent. -/
def Work.siteTested (w : Work) (n test : Nat) : Work :=
  (w.onSite n fun s => { s with filler := test = 2, interBad := test = 1 }).siteBegins n

/-- SITE_IN: RESULT is the state reached. -/
def execSiteIn (e : EntryRef) (test : Nat) (s : State) : Host.Outcome State Fault Refusal :=
  s.runAll fun w => w.command e 0x41 true fun x w =>
    let n := bits x 260 256
    let st := (w.site n).state
    if !w.itemInPool e 0 n then w.complete e stBadIdent
    else if siteServing (w.site n) then w.complete e stOk 0 st
    else if st = 6 || (w.site n).reclaiming then w.keepWaiting e
    else ((w.setPartial e).onSite n fun s => { s with inEntry := some e }).siteTested n test

/-- An engine goes out (R203): logged, its recipe drains, or is stopped at once. -/
def Work.engineOut (w : Work) (g : Nat) (e : Option EntryRef) (drain : Nat) : Work :=
  let w := (w.log { cls := 5, sev := 3, cause := stEngineOut, unit := g }).wrightOut g e
  if drain = 0 then w.stopRun g stEngineOut else w

/-- WRIGHT_OUT: RESULT is the status with which the running recipe ended. -/
def execWrightOut (e : EntryRef) (s : State) : Host.Outcome State Fault Refusal :=
  s.runAll fun w => w.command e 0x42 true fun x w =>
    let g := bits x 263 256
    if !w.itemInPool e 1 g then w.complete e stBadIdent
    else if (w.wright g).draining.isSome then w.keepWaiting e
    else if (w.wright g).out && (w.wright g).run.isNone then w.complete e stOk
    else (w.setPartial e).engineOut g (some e) (bits x 287 272)

/-- DRAIN_TIMEOUT: the recipe that still runs on an engine going out is stopped with ENGINE_OUT (R203). -/
def execDrainTimeout (x : Nat) (s : State) : Host.Outcome State Fault Refusal :=
  s.runAll fun w => if (w.wright x).draining.isSome && (w.wright x).run.isSome then w.stopRun x stEngineOut else w

/-- An engine returns: zeroed after its known-answer run passed (R180, R536). -/
def Work.engineIn (w : Work) (g : Nat) : Work := (w.wrightZero g).onWright g fun y => { y with out := false }

/-- WRIGHT_IN: RESULT 0 passed, 1 failed and left out. -/
def execWrightIn (e : EntryRef) (passed : Bool) (s : State) : Host.Outcome State Fault Refusal :=
  s.runAll fun w => w.command e 0x43 true fun x w =>
    let g := bits x 263 256
    if !w.itemInPool e 1 g then w.complete e stBadIdent
    else if !(w.wright g).out then w.complete e stOk
    else if (w.wright g).run.isSome then w.keepWaiting e
    else if passed then (w.engineIn g).complete e stOk
    else (w.log { cls := 5, sev := 3, cause := stDatapath, unit := g }).complete e stOk 0 1

/-- SITE_RECAL: one bundle retrains (R68). -/
def execSiteRecal (e : EntryRef) (s : State) : Host.Outcome State Fault Refusal :=
  s.runAll fun w => w.command e 0x44 true fun x w =>
    let n := bits x 260 256
    let k := bits x 264 261
    if !w.itemInPool e 0 n then w.complete e stBadIdent
    else if !siteServing (w.site n) || !(w.bundle n k).active then w.complete e stTargetDead
    else if (w.site n).recal.isSome || ((w.site n).link.limp ≠ .off && (w.site n).link.limp ≠ .on) then w.keepWaiting e
    else (w.onSite n fun s => { s with recal := some (e, k) }).retrain n k

/-! ## Events on which withdrawals and closes wait -/

/-- BEARING_REMOVE_DRAINED (R124). -/
def execBearingRemoveDrained (table : Nat) (s : State) : Host.Outcome State Fault Refusal := s.runAll fun w => w.tableDrained table

/-- PACK_REMOVE_DRAINED (R159). -/
def execPackRemoveDrained (pack : Nat) (s : State) : Host.Outcome State Fault Refusal := s.runAll fun w => w.packDrained pack

/-- RECIPE_REMOVE_DRAINED (R191). -/
def execRecipeRemoveDrained (recipe : Nat) (s : State) : Host.Outcome State Fault Refusal := s.runAll fun w => w.recipeFree recipe

/-- RECIPE_STOP_COMPLETE (R202). -/
def execRecipeStopComplete (x : Nat) (s : State) : Host.Outcome State Fault Refusal := s.runAll fun w => w.stopComplete x

/-- SB_QUIESCE_DONE (R115). -/
def execSbQuiesceDone (n : Nat) (clean : Bool) (s : State) : Host.Outcome State Fault Refusal :=
  s.runAll fun w =>
    if !((w.site n).power.quiescing && siteServing (w.site n)) then w
    else if clean then w.siteLeave n else w.deadAgent n 22

/-- QUIESCE_TIMEOUT: no SB_QUIESCE_DONE in 100 ms (R115). -/
def execQuiesceTimeout (n : Nat) (s : State) : Host.Outcome State Fault Refusal :=
  s.runAll fun w => if (w.site n).power.quiescing && siteServing (w.site n) then w.deadAgent n 22 else w

/-- RECLAIM_DONE (R116 steps 3 and 4, R292), of a dead site or of one lost during its start (log 127): once every request of the site is performed. Where one of them waits for the dead site itself, what the site owes there is settled first. -/
def execReclaimDone (n : Nat) (s : State) : Host.Outcome State Fault Refusal :=
  s.runAll fun w =>
    if ((w.site n).state = 4 || (w.site n).state = 0) && (w.site n).reclaiming then
      if !w.siteBusy n then w.reclaim n
      else
        let w := w.unblockOwn n
        if w.siteBusy n then w else w.reclaim n
    else w

/-- SCRATCH_ZEROING_DONE: a partition that enters or leaves SCRATCH, or changes holder in it, is zeroed (R303). -/
def execScratchZeroingDone (part : Nat) (s : State) : Host.Outcome State Fault Refusal :=
  s.runAll fun w =>
    let x := w.part part
    if !x.busy || (x.mode ≠ 3 && x.nextMode ≠ 3) then w
    else (w.op (.wipe (0x004000000000 + part * 2 ^ 24) (2 ^ 24))).partSettles part

/-- HOLD_PURGE_DONE: the scan for a partition or for a berth is over (R300, R304). -/
def execHoldPurgeDone (part : Option Nat) (berth : Nat) (s : State) : Host.Outcome State Fault Refusal :=
  s.runAll fun w =>
    match part with
    | some p =>
      let x := w.part p
      if !x.busy || x.mode = 3 || x.nextMode = 3 then w
      else (w.purgeLines fun l => l.part = p).partSettles p
    | none =>
      if berth ∉ w.hub.memory.purging then w
      else
        let w := (w.purgeLines fun l => l.berth = berth).onMem fun m => { m with purging := rmv m.purging berth }
        each (w.runningOf 0x1D fun x => bits x 269 256 = berth) (fun e w => w.complete e stOk) w

/-- What follows an invalidation (R348, R355, R358, R364, R366). -/
def Work.invalNext (w : Work) (v : Inval) : Work :=
  match v.why with
  | .command e => w.complete e stOk 0 (invalResult v)
  | .ends e => w.complete e stOk
  | .page b dva => w.pageRecall b dva
  | .close _ => w
  | .ats f => w.emit (.atsInvalDone f)

/-- INVALIDATION_COMPLETE (R366). -/
def execInvalidationComplete (id : Nat) (s : State) : Host.Outcome State Fault Refusal :=
  s.runAll fun w =>
    match tfind w.hub.chart.invals id with
    | none => w
    | some v => if v.awaited.any fun (a, t) => w.transferOpen a t then w else (w.invalEnd id v).invalNext v

/-- RECALL_SCAN_DONE: the scan for a site that loses a berth, or for a berth that closes, is over when no line is left; what has come since is recalled (R436, R438). -/
def execRecallScanDone (n : Option Nat) (berth : Nat) (s : State) : Host.Outcome State Fault Refusal :=
  s.runAll fun w =>
    match n with
    | some n =>
      if berth ∉ (w.site n).recalling then w
      else
        let w := w.recallFrom n berth
        if w.recallOpen n berth then w else w.onSite n fun s => { s with recalling := rmv s.recalling berth }
    | none =>
      if (w.berth berth).state ≠ .closing || (w.berth berth).closeStep ≠ 8 then w
      else
        let w := w.closeRecall berth
        if w.closeTracked berth then w else w.onBerth berth fun x => { x with scanned := true }

end Sys2Proof.Machine
end

