-- ==== Sys2Proof/Machine/Service.lean ====
section
/-! DEFINITION. The service and firmware orders (20): the management Log, resets, units out and in, recalibration, Assured mode (R544, R555-R558); image transfers (R556) and live replacement (R559). -/

namespace Sys2Proof.Machine

/-- Change the service state. -/
def Work.onSvc (w : Work) (f : Svc → Svc) : Work := w.onHub fun h => { h with svc := f h.svc }

/-! ## Orders on the hub (R544, R555) -/

/-- Entries of the management Log from FIRST, or of its priority section; an empty slot reads as zero. -/
def Work.logEntries (w : Work) (first count : Nat) (pri : Bool) : List Byte :=
  (List.range count).flatMap fun i => leBytes 32 (if pri then w.hub.mlog.pri.getD (first + i) 0 else tget 0 w.hub.mlog.store ((first + i) % 4096))

/-- LOG_READ acts: HEAD of the ring is advanced, and space that returns is used (R550, R555). -/
def Work.doLogRead (w : Work) (o : OrderHdr) (first count : Nat) (pri : Bool) : Work :=
  w.order o 0x0050 roleService (if count = 0 || 240 < count || 65536 ≤ first then some rpBadShape else none) fun w =>
    let data := w.logEntries first count pri
    let w := (w.svcOrder 0x0050).orderOk o data
    if pri then w else (w.onHub fun h => { h with mlog := { h.mlog with head := (first + count) % 4096 } }).logGap none

/-- LOG_READ. -/
def execLogRead (o : OrderHdr) (first count : Nat) (pri : Bool) (s : State) : Host.Outcome State Fault Refusal :=
  s.runAll fun w => w.heldService (.logRead o first count pri) true fun w => w.doLogRead o first count pri

/-- RESET acts (R524, R538, R555). -/
def Work.doReset (w : Work) (o : OrderHdr) (cold discard : Bool) : Work :=
  w.order o 0x0052 roleService none fun w =>
    let w := (w.svcOrder 0x0052).orderOk o
    let w := w.onStart fun x => { x with restarted := false, stored := if discard then { x.stored with valid := false } else x.stored }
    w.askReset cold

/-- RESET; it proceeds during UNIT_REPLACE (R561). -/
def execResetOrder (o : OrderHdr) (cold discard : Bool) (s : State) : Host.Outcome State Fault Refusal :=
  s.runAll fun w => w.heldBack (.reset o cold discard) true fun w => w.doReset o cold discard

/-- DEAD_AGENT acts (R116, R555). -/
def Work.doDeadAgent (w : Work) (o : OrderHdr) (site : Nat) : Work :=
  w.order o 0x0056 roleService (if 16 ≤ site then some rpBadShape else none) fun w => ((w.svcOrder 0x0056).deadAgent site 23).orderOk o

/-- DEAD_AGENT. -/
def execDeadAgent (o : OrderHdr) (site : Nat) (s : State) : Host.Outcome State Fault Refusal :=
  s.runAll fun w => w.heldService (.deadAgent o site) false fun w => w.doDeadAgent o site

/-- ASSURED acts. -/
def Work.doAssured (w : Work) (o : OrderHdr) (enable : Bool) : Work :=
  w.order o 0x0057 roleService none fun w =>
    (((w.svcOrder 0x0057).onSvc fun x => { x with assured := enable }).log { cls := 0x15, sev := 0, cause := 0x8017, detail := b2n enable }).orderOk o

/-- ASSURED. -/
def execAssured (o : OrderHdr) (enable : Bool) (s : State) : Host.Outcome State Fault Refusal :=
  s.runAll fun w => w.heldService (.assured o enable) false fun w => w.doAssured o enable

/-! ## Units (R557, R558) -/

/-- Units of a KIND of UNIT_OUT: sites, Wright engines, channels, Hold dies, Hawser ports, host ports. -/
def kindUnits (kind : Nat) : Nat := [16, 64, 128, 3, 8, 4].getD kind 0

/-- A unit goes out of service; one that is out, or that the warrant does not enable, stays as it is (R5). -/
def Work.unitGoesOut (w : Work) (kind unit : Nat) : Work :=
  match kind with
  | 0 => (w.siteTakeOut unit).2
  | 1 => if (w.wright unit).out then w else w.engineOut unit none 0
  | 2 => w.channelFail unit
  | 3 => w.dieFail unit
  | 4 => if (w.hport unit).heldOut || !bit w.hub.board.hawser unit then w else (w.onHPort unit fun x => { x with heldOut := true }).hportDown unit 5
  | _ =>
    if (w.port unit).heldOut then w
    else (((w.onPort unit fun x => { x with heldOut := true }).linkLost unit 10).onPort unit fun x => { x with state := 0 }).log { cls := 0x0D, sev := 3, cause := 0, unit := unit }

/-- UNIT_OUT acts; PARTIAL shows a unit that is still on its way. -/
def Work.doUnitOut (w : Work) (o : OrderHdr) (kind unit : Nat) : Work :=
  w.order o 0x0053 roleService (if kindUnits kind ≤ unit then some rpBadShape else none) fun w =>
    (((w.svcOrder 0x0053).onSvc fun x => { x with action := some (kind, unit) }).unitGoesOut kind unit).orderOk o

/-- UNIT_OUT. -/
def execUnitOut (o : OrderHdr) (kind unit : Nat) (s : State) : Host.Outcome State Fault Refusal :=
  s.runAll fun w => w.heldService (.unitOut o kind unit) false fun w => w.doUnitOut o kind unit

/-- Why a unit may not return now: a channel never in service, a site or engine that is still on its way out; or it failed its test. -/
def Work.unitStays (w : Work) (kind unit : Nat) (passed : Bool) : Option Nat :=
  match kind with
  | 0 => if (w.site unit).state = 6 || (w.site unit).reclaiming then some rpNotPermitted else none
  | 1 => if !(w.wright unit).out then none else if (w.wright unit).failed || (w.wright unit).run.isSome then some rpNotPermitted else if passed then none else some rpFailed
  | 2 => some rpNotPermitted
  | 3 => if unit ∉ w.hub.memory.diesOut || passed then none else some rpFailed
  | _ => none

/-- A unit returns to service; one that serves stays as it is. -/
def Work.unitReturns (w : Work) (kind unit : Nat) (passed : Bool) : Work :=
  match kind with
  | 0 => if siteServing (w.site unit) then w else w.siteTested unit (if passed then 0 else 1)
  | 1 => if (w.wright unit).out then w.engineIn unit else w
  | 3 =>
    if unit ∉ w.hub.memory.diesOut then w
    else (w.onMem fun m => { m with diesOut := rmv m.diesOut unit, parts := m.parts.map fun (p, x) => (p, if p / 16 = unit then {} else x) }).derate
  | 4 => if (w.hport unit).heldOut then w.onHPort unit fun x => { x with heldOut := false, state := 0, training := true } else w
  | 5 => w.onPort unit fun x => { x with heldOut := false }
  | _ => w

/-- UNIT_IN acts. -/
def Work.doUnitIn (w : Work) (o : OrderHdr) (kind unit : Nat) (passed : Bool) : Work :=
  w.order o 0x0054 roleService (if kindUnits kind ≤ unit then some rpBadShape else w.unitStays kind unit passed) fun w =>
    (((w.svcOrder 0x0054).onSvc fun x => { x with action := some (kind, unit) }).unitReturns kind unit passed).orderOk o

/-- UNIT_IN. -/
def execUnitIn (o : OrderHdr) (kind unit : Nat) (passed : Bool) (s : State) : Host.Outcome State Fault Refusal :=
  s.runAll fun w => w.heldService (.unitIn o kind unit passed) false fun w => w.doUnitIn o kind unit passed

/-- What RECAL may not name (R558): a unit out of range, or one that is not in service. -/
def Work.recalBad (w : Work) (kind unit lane : Nat) : Option Nat :=
  let need (shape ok : Bool) : Option Nat := if !shape then some rpBadShape else if ok then none else some rpNotPermitted
  match kind with
  | 0 => need (unit < 16 && lane < 16) (siteServing (w.site unit) && (w.bundle unit lane).active)
  | 1 => need (unit < 128) (channelServes (w.channel unit))
  | 2 => need (unit < 4 && lane < 16) (w.linkIdle unit)
  | 3 => need (unit < 8 && lane < 4) (w.hportTrained unit)
  | _ => some rpBadShape

/-- The procedure of a RECAL. -/
def Work.recalGo (w : Work) (kind unit lane : Nat) : Work :=
  match kind with
  | 0 => w.retrain unit lane
  | 1 => w.channelRetrain unit
  | 2 => ((w.onPort unit fun x => { x with before := x.state, state := 4, l0s := [], l1 := false }).count 14 unit 9).derate
  | _ => w.hportRetrain unit

/-- RECAL acts. -/
def Work.doRecal (w : Work) (o : OrderHdr) (kind unit lane : Nat) : Work :=
  w.order o 0x0055 roleService (w.recalBad kind unit lane) fun w =>
    (((w.svcOrder 0x0055).onSvc fun x => { x with action := some (10 + kind, if kind = 0 then unit * 16 + lane else unit) }).recalGo kind unit lane).orderOk o

/-- RECAL. -/
def execRecal (o : OrderHdr) (kind unit lane : Nat) (s : State) : Host.Outcome State Fault Refusal :=
  s.runAll fun w => w.heldService (.recal o kind unit lane) false fun w => w.doRecal o kind unit lane

/-! ## Image transfers (R556) -/

/-- IMAGE_BEGIN acts; in service the image in flash is no longer valid. -/
def Work.doImageBegin (w : Work) (o : OrderHdr) (len : Nat) : Work :=
  w.order o 0x0040 roleFirmware (if len < 4096 || 2 ^ 25 < len then some rpBadShape else none) fun w =>
    let rec_ : Bool := w.hub.start.state = 2
    let w := (w.svcOrder 0x0040).onStart fun x => { x with transfer := some { len := len, recovery := rec_ }, flashValid := rec_ && x.flashValid }
    (if rec_ then w else w.emit (.flash 0 [])).orderOk o

/-- IMAGE_BEGIN. -/
def execImageBegin (o : OrderHdr) (imageLen : Nat) (s : State) : Host.Outcome State Fault Refusal :=
  s.runAll fun w => w.heldService (.imageBegin o imageLen) true fun w => w.doImageBegin o imageLen

/-- IMAGE_CHUNK acts: its bytes are kept in Hold die H0 in recovery, written to flash in service. -/
def Work.doImageChunk (w : Work) (o : OrderHdr) (offset : Nat) (data : List Byte) : Work :=
  let bad := match w.hub.start.transfer with
    | none => some rpNotPermitted
    | some t => if 7936 < data.length || t.len < offset + data.length then some rpBadShape else none
  w.order o 0x0041 roleFirmware bad fun w =>
    let w := w.svcOrder 0x0041
    match w.hub.start.transfer with
    | none => w
    | some t =>
      if t.recovery then (w.onStart fun x => { x with transfer := some { t with chunks := tset t.chunks offset data } }).orderOk o
      else (w.emit (.flash offset data)).orderOk o

/-- IMAGE_CHUNK. -/
def execImageChunk (o : OrderHdr) (offset : Nat) (data : List Byte) (s : State) : Host.Outcome State Fault Refusal :=
  s.runAll fun w => w.heldService (.imageChunk o offset data) true fun w => w.doImageChunk o offset data

/-- The status of a reply for an image that fails its check (R470, R528). -/
def imageBad (f : ImageFacts) : Option Nat :=
  firstBad [(!f.sigOk, rpBadSignature), (f.format ≠ 1 || idRev < f.revMin || f.revMax < idRev, rpBadVersion), (!imageShape f, rpBadShape)]

/-- IMAGE_COMMIT acts: in recovery an image that passes is run with RUN and written with WRITE; in service it becomes the boot image, or none is left. -/
def Work.doImageCommit (w : Work) (o : OrderHdr) (write run : Bool) (facts : ImageFacts) : Work :=
  match w.hub.start.transfer with
  | none => w.order o 0x0042 roleFirmware (some rpNotPermitted) id
  | some t =>
    w.order o 0x0042 roleFirmware none fun w =>
      let w := (w.svcOrder 0x0042).onStart fun x => { x with transfer := none }
      match imageBad facts with
      | some s => (w.log { cls := 0x10, sev := 1, cause := s }).orderReply o.viaEthernet o.order s o.nonce
      | none =>
        if !t.recovery then (w.flashHolds facts.version).orderOk o
        else
          let w := if write then each t.chunks (fun (a, d) w => w.emit (.flash a d)) (w.flashHolds facts.version) else w
          let w := w.orderOk o
          if !run then w
          else
            let w := match w.hub.start.fetchPort with | some p => w.onPort p fun x => { x with bootResult := 2 } | none => w
            w.startGo facts.version

/-- IMAGE_COMMIT; one that waits for the end of a start is acted on in service, where WRITE and RUN are ignored. -/
def execImageCommit (o : OrderHdr) (write run : Bool) (facts : ImageFacts) (s : State) : Host.Outcome State Fault Refusal :=
  s.runAll fun w => w.heldService (.imageCommit o facts) true fun w => w.doImageCommit o write run facts

/-! ## Live replacement (R559, R561) -/

/-- Instances of a unit of UNIT_REPLACE: ports for units 3 and 4. -/
def replaceUnits (unit : Nat) : Nat := [8, 8, 8, 4, 8].getD unit 0

/-- The measurement that a replaced unit changes (R459, R460). -/
def replaceIndex (unit : Nat) : Nat := [0x13, 0x14, 0x15, 0x15, 0x16].getD unit 0x13

/-- UNIT_REPLACE acts: the image in flash is checked again, the unit pauses; fetch stops, or a port retrains. -/
def Work.doUnitReplace (w : Work) (o : OrderHdr) (unit inst : Nat) (facts : ImageFacts) : Work :=
  let bad := if replaceUnits unit ≤ inst then some rpBadShape else if !w.hub.start.flashValid then some rpBadSignature else imageBad facts
  w.order o 0x0043 roleFirmware bad fun w =>
    let w := (w.svcOrder 0x0043 true).onSvc fun x => { x with replacing := some (unit, inst), replaceNonce := o.nonce, replaceVersion := facts.version }
    match unit with
    | 3 => w.onPort inst fun x => { x with halted := true }
    | 4 => w.hportRetrain inst
    | _ => w

/-- UNIT_REPLACE: one at a time, the next waits (R560). -/
def execUnitReplace (o : OrderHdr) (unit inst : Nat) (facts : ImageFacts) (s : State) : Host.Outcome State Fault Refusal :=
  s.runAll fun w =>
    let c : HeldOrder := .unitReplace o unit inst facts
    if w.hub.svc.replacing.isSome && !w.mute then w.onHub fun h => { h with heldOrders := h.heldOrders ++ [c] }
    else w.heldService c false fun w => w.doUnitReplace o unit inst facts

/-- The drain of a replacement is over: no routing re-formation, no started Porter descriptor of the port; the port has retrained. -/
def Work.replaceDrained (w : Work) (unit inst : Nat) : Bool :=
  match unit with
  | 0 => w.hub.fabric.heldFrom.isNone && !w.svcActive
  | 3 => (w.port inst).porters.all fun (_, x) => x.queue = []
  | 4 => (w.hport inst).state ≠ 4
  | _ => true

/-- A held order of service or firmware: it waits while the Quartermaster's firmware is replaced, UNIT_REPLACE also for the end of one before it. -/
def Work.stillHeld (w : Work) (c : HeldOrder) : Bool :=
  match c with
  | .imageBegin _ _ | .imageChunk _ _ _ | .imageCommit _ _ | .logRead _ _ _ _ | .regWrite _ _ _ _ | .unitOut _ _ _ | .unitIn _ _ _ _ | .recal _ _ _ _
  | .deadAgent _ _ | .assured _ _ => w.svcPaused
  | .unitReplace _ _ _ _ => w.svcPaused || w.hub.svc.replacing.isSome
  | .powerLimit _ _ | .poolWrite _ _ | .mgrSet _ _ | .lcTransition _ _ _ | .warrantInstall _ _ | .debugOpen _ _ _ | .debugClose _ | .credSet _ _ _ | .certSet _ _
  | .reset _ _ _ => false

/-- A held order acts; `late`: it waited for the end of a start (R541). -/
def Work.heldGo (w : Work) (late : Bool) (c : HeldOrder) : Work :=
  match c with
  | .powerLimit o b => w.doPowerLimit o b late
  | .poolWrite o p => w.doPoolWrite o p
  | .mgrSet o l => w.doMgrSet o l
  | .lcTransition o t ok => w.doLcTransition o t ok
  | .warrantInstall o x => w.doWarrantInstall o x
  | .debugOpen o s l => w.doDebugOpen o s l
  | .debugClose o => w.doDebugClose o
  | .credSet o v l => w.doCredSet o v l late
  | .certSet o d => w.doCertSet o d
  | .imageBegin o n => w.doImageBegin o n
  | .imageChunk o a d => w.doImageChunk o a d
  | .imageCommit o f => w.doImageCommit o false false f
  | .unitReplace o u i f => w.doUnitReplace o u i f
  | .logRead o a n p => w.doLogRead o a n p
  | .regWrite o a v m => w.doRegWrite o a v m
  | .reset o c d => w.doReset o c d
  | .unitOut o k u => w.doUnitOut o k u
  | .unitIn o k u ok => w.doUnitIn o k u ok
  | .recal o k u l => w.doRecal o k u l
  | .deadAgent o n => w.doDeadAgent o n
  | .assured o e => w.doAssured o e

/-- Held orders act, oldest first. -/
def Work.runHeld (w : Work) (late : Bool) : Work :=
  let l := w.hub.heldOrders
  each l (fun c w => if w.stillHeld c then w.onHub fun h => { h with heldOrders := h.heldOrders ++ [c] } else w.heldGo late c) (w.onHub fun h => { h with heldOrders := [] })

/-- A replaced unit goes on: held Helm operations are applied in order, a port's fetch resumes. -/
def Work.unitResumes (w : Work) (unit inst : Nat) : Work :=
  match unit with
  | 2 => each (List.range 16) (fun n w => w.hlmPump n) w.helmApplyHeld
  | 3 => (w.onPort inst fun x => { x with halted := false }).kickPort inst
  | _ => w

/-- A fault while a unit is replaced: it is taken out of service (R561). -/
def Work.unitAbandoned (w : Work) (unit inst : Nat) : Work :=
  let w := w.log { cls := 0x14, sev := 3, cause := 0, unit := unit, detail := inst }
  if unit = 4 then (w.onHPort inst fun x => { x with heldOut := true }).hportDown inst 5 else w.onSvc fun x => { x with out := addTo x.out (unit, inst) }

/-- UNIT_REPLACE_DONE: the unit runs its new firmware, or the replacement is abandoned. -/
def execUnitReplaceDone (ok : Bool) (s : State) : Host.Outcome State Fault Refusal :=
  s.runAll fun w =>
    match w.hub.svc.replacing with
    | none => w
    | some (u, i) =>
      let free (w : Work) : Work := w.onSvc fun x => { x with replacing := none, partly := false }
      let nonce := w.hub.svc.replaceNonce
      if !ok then (((free w).unitAbandoned u i).orderReply true 0x0043 rpFailed nonce).runHeld false
      else if !w.replaceDrained u i then w
      else
        let k := replaceIndex u
        let w := w.onPurser fun p => { p with meas := tset p.meas k (Config.digest 2 [k - 0x10, w.hub.svc.replaceVersion]) }
        let w := ((free w).onSvc fun x => { x with out := rmv x.out (u, i) }).log { cls := 0x14, sev := 0, cause := 0x8016, unit := u, detail := i }
        ((w.unitResumes u i).orderReply true 0x0043 rpOk nonce).runHeld false

end Sys2Proof.Machine
end

