-- ==== Sys2Proof/Machine/Start.lean ====
section
/-! DEFINITION. The commands of the start (19), of power, reset and clocks (22), of Assured mode (20); the end of a life-cycle burn (R474). -/

namespace Sys2Proof.Machine

/-! ## Reset and start (R524, R529, R538, R539, R591) -/

/-- HUB_RST_N_ASSERT: the next path is cold where a cold start is abandoned before its step 12 (R541); a hub in reset stays there. -/
def execHubRstNAssert (s : State) : Host.Outcome State Fault Refusal :=
  s.runAll fun w =>
    let cold : Bool := w.hub.start.cold && w.hub.start.state ≠ 1
    let w := w.onStart fun x => { x with restarted := false }
    if w.hub.start.hubRstN then w.askReset cold else w

/-- The hub may leave reset: no trip, no rail out of range, its core clock runs (R519, R593, R599). -/
def Work.mayLeaveReset (w : Work) : Bool :=
  let b := w.hub.board
  !w.hub.start.hubRstN && b.thermtripN && b.railsBad = [] && 8 ∉ b.clocksLost

/-- HUB_RST_N_RELEASE: also the end of a reset that the hub gave itself. -/
def execHubRstNRelease (ev : StartEvent) (s : State) : Host.Outcome State Fault Refusal :=
  s.runAll fun w =>
    let w := if ev.powerOn then w.powerCycle ev.burnPattern else w
    if w.mayLeaveReset then w.startBegin ev else w

/-- The last step of the start that runs has been reached: step 11 of a cold one, step 5 of a warm one (R529, R539). -/
def Work.startRuns (w : Work) : Bool :=
  let x := w.hub.start
  !w.mute && x.state = 0 && x.step = (if x.cold then 11 else 5)

/-- The host part of the Porters' known-answer run (R536): 64 KiB at BOOT_SRC, whose content the manual leaves open, where the host allows it; else it is skipped and recorded. -/
def Work.porterTest (w : Work) (p : Nat) : Work :=
  let f : FuncRef := { port := p, func := 0 }
  if w.portUp p && (w.func f).bme && (w.port p).katEn then
    let (x, w) := w.fresh
    w.hostWrite f (w.port p).bootSrc (leBytes 65536 x)
  else w.log { cls := 0x13, sev := 0, cause := 0, unit := p }

/-- READY rises at a port, its interrupt follows (R372). -/
def Work.readyRises (w : Work) (p : Nat) : Work := (w.onPort p fun x => { x with ready := true }).irq p 0

/-- START_COMPLETE: with no site in service the start stops; else the profile is written, READY rises, held orders act (R529, R538, R541). -/
def execStartComplete (s : State) : Host.Outcome State Fault Refusal :=
  s.runAll fun w =>
    if !w.startRuns then w
    else if !(List.range 16).any fun n => siteServing (w.site n) then w.startStop 3
    else
      let cold := w.hub.start.cold
      let w := if cold then (each (List.range 4) (fun p w => w.porterTest p) w).profileStore else w
      let w := w.onStart fun x => { x with state := 1, step := if cold then 12 else 6, restarted := false }
      ((each w.portsUp (fun p w => w.readyRises p) w).log { cls := 0x13, sev := 0, cause := 0x8001 }).runHeld true

/-- START_STEP_TIMEOUT: a step has taken more than twice its bound. -/
def execStartStepTimeout (s : State) : Host.Outcome State Fault Refusal :=
  s.runAll fun w => if w.startRuns then w.startStop 4 else w

/-- PROFILE_WRITE: at most once per 10 s (R532). -/
def execProfileWrite (s : State) : Host.Outcome State Fault Refusal :=
  s.runAll fun w =>
    let x := w.hub.start
    let due : Bool := match x.lastWrite with | some t => t + 10000000 ≤ w.now | none => true
    if !w.mute && x.state = 1 && x.profile.pendingWrite && due then w.profileStore else w

/-! ## Rails and clocks (R593, R599) -/

/-- Change the board. -/
def Work.onBoard (w : Work) (f : Board → Board) : Work := w.onHub fun h => { h with board := f h.board }

/-- The bond-face outputs that show a rail go low (R39). -/
def Work.facesLow (w : Work) : Work :=
  each (List.range 16) (fun n w => if (w.site n).power.pgOut then (w.onSPower n fun p => { p with pgOut := false }).sitePin (.sitePg n) false else w) w

/-- RAIL_OUT_OF_RANGE: for more than 10 us while HUB_RST_N is high the hub resets, its next path cold; a burn governs (R475). Its outputs towards the sites are low (R39). -/
def execRailOutOfRange (rail : Nat) (s : State) : Host.Outcome State Fault Refusal :=
  s.runAll fun w =>
    let w := (w.onBoard fun b => { b with railsBad := addTo b.railsBad rail }).facesLow
    if w.hub.start.hubRstN then w.askReset true else w

/-- RAIL_BACK_IN_RANGE. -/
def execRailBackInRange (rail : Nat) (s : State) : Host.Outcome State Fault Refusal :=
  s.runAll fun w => w.onBoard fun b => { b with railsBad := rmv b.railsBad rail }

/-- REFCLK_LOSS: of a host port a link-down, of a pair of Hawser ports both down, of the core a reset until it returns. -/
def execRefclkLoss (clock : Nat) (s : State) : Host.Outcome State Fault Refusal :=
  s.runAll fun w =>
    if 9 ≤ clock || clock ∈ w.hub.board.clocksLost then w
    else
      let w := w.onBoard fun b => { b with clocksLost := addTo b.clocksLost clock }
      if !w.hub.start.hubRstN then w
      else if clock < 4 then w.linkLost clock 10
      else if clock < 8 then each [2 * (clock - 4), 2 * (clock - 4) + 1] (fun k w => if w.hportTrained k || (w.hport k).state = 4 then w.hportDown k 0 else w) w
      else (w.log { cls := 0x13, sev := 4, cause := 0, unit := clock }).askReset true

/-- REFCLK_RETURN. -/
def execRefclkReturn (clock : Nat) (s : State) : Host.Outcome State Fault Refusal :=
  s.runAll fun w => w.onBoard fun b => { b with clocksLost := rmv b.clocksLost clock }

/-! ## Assured mode and the detection of faults (R545, R546, R561) -/

/-- An engine of a hub in service fails a test: it is taken out under R209. -/
def Work.engineFails (w : Work) (x : Nat) : Work :=
  match (w.wright x).run with
  | some _ => w.datapathFault x 0
  | none => ((w.log { cls := 5, sev := 3, cause := stDatapath, unit := x }).irqs w.portsUp 7).wrightOut x none

/-- A Wright engine serves. -/
def Work.wrightServes (w : Work) (x : Nat) : Bool := x < 64 && !(w.wright x).out && !(w.wright x).failed

/-- The hub serves. -/
def Work.serves (w : Work) : Bool := !w.mute && w.hub.start.state = 1

/-- SELF_TEST_SLICE: a slice leaves the running recipe as it was; one that finds a fault takes the engine out. -/
def execSelfTestSlice (x : Nat) (passed : Bool) (s : State) : Host.Outcome State Fault Refusal :=
  s.runAll fun w => if w.serves && w.hub.svc.assured && w.wrightServes x && !passed then w.engineFails x else w

/-- CHECKER_INJECTION: a checker that does not flag its error is recorded (R545). -/
def execCheckerInjection (checker : Nat) (flagged : Bool) (s : State) : Host.Outcome State Fault Refusal :=
  s.runAll fun w => if w.serves && w.hub.svc.assured && !flagged then w.log { cls := 0x15, sev := 2, cause := 0x8018, unit := checker } else w

/-- PATROL: every array is read; corrected words are those of Hold rows, uncorrectable ones lie at DPAs (R305, R326, R545). -/
def execPatrol (corrected : List (Nat × Nat)) (uncorrectable : List Nat) (s : State) : Host.Outcome State Fault Refusal :=
  s.runAll fun w =>
    if !w.serves || !w.hub.svc.assured then w
    else
      let w := each corrected (fun (p, set) w => if p < 48 && set < 65536 then w.holdCorrected p set else w) w
      each uncorrectable (fun d w => match w.holdRow d with | some (p, set) => w.holdUncorrectable d p set | none => w) w

/-- CLOCK_CHECK: a deviation above 2% is a fault of the domain (R546). -/
def execClockCheck (domain : Nat) (deviationOver : Bool) (s : State) : Host.Outcome State Fault Refusal :=
  s.runAll fun w => if w.serves && deviationOver then w.log { cls := 0x15, sev := 3, cause := 0, unit := domain } else w

/-- A home slice fails (R281): what it holds, and every later request to it, is answered TARGET_DEAD. -/
def Work.sliceFail (w : Work) (k : Nat) : Work :=
  if k ∈ w.hub.fabric.deadSlices then w
  else
    let here (l : Nat) : Bool := sliceOf (l * 128) = k
    let open_ := (w.hub.ledger.txns.filter fun (l, _) => here l).filterMap fun (_, t) => match t.why with
      | .request r => if t.passed || t.early || t.ackFrom.isSome then none else some r
      | _ => none
    let asked := open_ ++ (w.hub.ledger.waits.filter fun (l, _) => here l).flatMap (·.2)
    let w := w.onLedger fun x => { x with txns := x.txns.filter fun (l, _) => !here l, waits := x.waits.filter fun (l, _) => !here l }
    let w := (w.onFabric fun f => { f with deadSlices := addTo f.deadSlices k }).log { cls := 8, sev := 3, cause := 0, unit := k }
    (each asked (fun r w => (w.dropPassed r).answer r 4 0 none) w).wakeHome 0

/-- WATCHDOG_EXPIRY: a control-logic fault is detected; the unit, numbered as in the profile with logical Wright engines, goes out of service where it can (R543, R546). -/
def execWatchdogExpiry (unit : Nat) (s : State) : Host.Outcome State Fault Refusal :=
  s.runAll fun w =>
    if !w.serves then w
    else
      let w := w.log { cls := 0x15, sev := 3, cause := 1, unit := unit }
      if w.wrightServes unit then w.engineFails unit
      else if 300 ≤ unit && unit < 303 then w.dieFail (unit - 300)
      else if 400 ≤ unit && unit < 528 then w.channelFail (unit - 400)
      else if 700 ≤ unit && unit < 732 then w.sliceFail (unit - 700)
      else w

/-! ## The end of a burn (R474) -/

/-- LC_BURN_DONE: the verify read of the fuses, in which only bits of the target can have been added; missing bits are burnt once more. -/
def execLcBurnDone (readBack : Nat) (s : State) : Host.Outcome State Fault Refusal :=
  s.runAll fun w =>
    match w.hub.purser.intent with
    | none => w
    | some i =>
      if !i.burning then w
      else
        let code := i.source ||| (readBack &&& i.target)
        let ends (st sev : Nat) : Work :=
          let w := w.onPurser fun p => { p with fuseCode := code, intent := some { i with burning := false } }
          ((w.orderReply true 0x0020 st i.nonce).log { cls := 0x10, sev := sev, cause := st, detail := code }).burnOver
        if code = i.target then ends rpBurnt 0
        else if !i.retried then w.onPurser fun p => { p with fuseCode := code, intent := some { i with retried := true } }
        else ends rpFailed 3

end Sys2Proof.Machine
end

