-- ==== Sys2Proof/Machine/Dispatch.lean ====
section
/-! DEFINITION. The dispatch: one arm per command, each a direct call of that command's meaning. -/

namespace Sys2Proof.Machine

/-- A command's effect on everything but the queue. -/
def exec (i : Instr) (s : State) : Host.Outcome State Fault Refusal :=
  match i with
  | .vcsPgRise n => Sys2Proof.Machine.execVcsPgRise n s
  | .siteRstNRelease n => Sys2Proof.Machine.execSiteRstNRelease n s
  | .vcsPgTimeout n => Sys2Proof.Machine.execVcsPgTimeout n s
  | .vcsPgFall n => Sys2Proof.Machine.execVcsPgFall n s
  | .sidebandUp n => Sys2Proof.Machine.execSidebandUp n s
  | .sidebandTimeout n => Sys2Proof.Machine.execSidebandTimeout n s
  | .lmCap n record => Sys2Proof.Machine.execLmCap n record s
  | .bundleClockLock n => Sys2Proof.Machine.execBundleClockLock n s
  | .wireTestDone n fails => Sys2Proof.Machine.execWireTestDone n fails s
  | .lmWireResult n result => Sys2Proof.Machine.execLmWireResult n result s
  | .lmSparemapAck n bundle half => Sys2Proof.Machine.execLmSparemapAck n bundle half s
  | .lmSparemapAckTimeout n bundle half => Sys2Proof.Machine.execLmSparemapAckTimeout n bundle half s
  | .deskewDone n => Sys2Proof.Machine.execDeskewDone n s
  | .idleFrameTestDone n bad => Sys2Proof.Machine.execIdleFrameTestDone n bad s
  | .dataFrame n bundle frame => Sys2Proof.Machine.execDataFrame n bundle frame s
  | .idleFrame n bundle frame => Sys2Proof.Machine.execIdleFrame n bundle frame s
  | .retrainRequestFrame n bundle frame => Sys2Proof.Machine.execRetrainRequestFrame n bundle frame s
  | .ackDeadline n bundle => Sys2Proof.Machine.execAckDeadline n bundle s
  | .ackTimeout n bundle bseq => Sys2Proof.Machine.execAckTimeout n bundle bseq s
  | .lmRetrainReq n bundle fromHub => Sys2Proof.Machine.execLmRetrainReq n bundle fromHub s
  | .lmRetrainAck n bundle => Sys2Proof.Machine.execLmRetrainAck n bundle s
  | .lmRetrainAckTimeout n bundle => Sys2Proof.Machine.execLmRetrainAckTimeout n bundle s
  | .bundleRetrainDone n bundle fails => Sys2Proof.Machine.execBundleRetrainDone n bundle fails s
  | .lmLimpAck n stage => Sys2Proof.Machine.execLmLimpAck n stage s
  | .lmLimpAckTimeout n => Sys2Proof.Machine.execLmLimpAckTimeout n s
  | .limpRetrainDone n clean => Sys2Proof.Machine.execLimpRetrainDone n clean s
  | .initMsg n msg => Sys2Proof.Machine.execInitMsg n msg s
  | .initTimeout n => Sys2Proof.Machine.execInitTimeout n s
  | .echoRsp n data => Sys2Proof.Machine.execEchoRsp n data s
  | .echoTimeout n => Sys2Proof.Machine.execEchoTimeout n s
  | .credit n credits => Sys2Proof.Machine.execCredit n credits s
  | .rdNc n req => Sys2Proof.Machine.execRdNc n req s
  | .rdShared n req => Sys2Proof.Machine.execRdShared n req s
  | .rdUnique n req => Sys2Proof.Machine.execRdUnique n req s
  | .upgrade n req => Sys2Proof.Machine.execUpgrade n req s
  | .wr n req data => Sys2Proof.Machine.execWr n req data s
  | .wrPartial n req data => Sys2Proof.Machine.execWrPartial n req data s
  | .atomic n req data => Sys2Proof.Machine.execAtomic n req data s
  | .reduce n req data => Sys2Proof.Machine.execReduce n req data s
  | .wbDirty n req data => Sys2Proof.Machine.execWbDirty n req data s
  | .evictClean n req => Sys2Proof.Machine.execEvictClean n req s
  | .cmp n id => Sys2Proof.Machine.execCmp n id s
  | .rdData n id => Sys2Proof.Machine.execRdData n id s
  | .snpRsp n stag final data wbPend => Sys2Proof.Machine.execSnpRsp n stag final data wbPend s
  | .snpData n stag dirty data => Sys2Proof.Machine.execSnpData n stag dirty data s
  | .snoopTimeout n stag => Sys2Proof.Machine.execSnoopTimeout n stag s
  | .gate n hdr body => Sys2Proof.Machine.execGate n hdr body s
  | .tokOut n hdr payload => Sys2Proof.Machine.execTokOut n hdr payload s
  | .tokCreditWithholdTimeout n => Sys2Proof.Machine.execTokCreditWithholdTimeout n s
  | .markAdd n op => Sys2Proof.Machine.execMarkAdd n op s
  | .markWait n op => Sys2Proof.Machine.execMarkWait n op s
  | .markRead n op => Sys2Proof.Machine.execMarkRead n op s
  | .gateArrive n op => Sys2Proof.Machine.execGateArrive n op s
  | .semAcquire n op => Sys2Proof.Machine.execSemAcquire n op s
  | .semRelease n op => Sys2Proof.Machine.execSemRelease n op s
  | .eventWirePulse n wire => Sys2Proof.Machine.execEventWirePulse n wire s
  | .outboundPulse n wire => Sys2Proof.Machine.execOutboundPulse n wire s
  | .sbTelem n power tj selfLimit seq => Sys2Proof.Machine.execSbTelem n power tj selfLimit seq s
  | .telemetryGap n => Sys2Proof.Machine.execTelemetryGap n s
  | .sitePowerOverLimit n => Sys2Proof.Machine.execSitePowerOverLimit n s
  | .sbFault n severity code detail => Sys2Proof.Machine.execSbFault n severity code detail s
  | .siteThermNAssert n => Sys2Proof.Machine.execSiteThermNAssert n s
  | .siteThermTimeout n => Sys2Proof.Machine.execSiteThermTimeout n s
  | .siteThermNRelease n => Sys2Proof.Machine.execSiteThermNRelease n s
  | .siteAttnNAssert n => Sys2Proof.Machine.execSiteAttnNAssert n s
  | .sbQuiesceDone n clean => Sys2Proof.Machine.execSbQuiesceDone n clean s
  | .quiesceTimeout n => Sys2Proof.Machine.execQuiesceTimeout n s
  | .reclaimDone n => Sys2Proof.Machine.execReclaimDone n s
  | .gateStagingRelease b => Sys2Proof.Machine.execGateStagingRelease b s
  | .zeroRowDone b rec outcome => Sys2Proof.Machine.execZeroRowDone b rec outcome s
  | .dispatch id => Sys2Proof.Machine.execDispatch id s
  | .combine id => Sys2Proof.Machine.execCombine id s
  | .tallyCombineDone id outcome => Sys2Proof.Machine.execTallyCombineDone id outcome s
  | .close id => Sys2Proof.Machine.execClose id s
  | .outcomeRecordDone b rec outcome => Sys2Proof.Machine.execOutcomeRecordDone b rec outcome s
  | .bounce id => Sys2Proof.Machine.execBounce id s
  | .remoteTimeout b rec rank => Sys2Proof.Machine.execRemoteTimeout b rec rank s
  | .deferPassEnd b table => Sys2Proof.Machine.execDeferPassEnd b table s
  | .bearingInstall e => Sys2Proof.Machine.execBearingInstall e s
  | .bearingUpdate e => Sys2Proof.Machine.execBearingUpdate e s
  | .bearingAvail e => Sys2Proof.Machine.execBearingAvail e s
  | .bearingFlush e => Sys2Proof.Machine.execBearingFlush e s
  | .bearingRemove e => Sys2Proof.Machine.execBearingRemove e s
  | .bearingRemoveDrained table => Sys2Proof.Machine.execBearingRemoveDrained table s
  | .bearingRound e => Sys2Proof.Machine.execBearingRound e s
  | .packInstall e => Sys2Proof.Machine.execPackInstall e s
  | .packRemove e => Sys2Proof.Machine.execPackRemove e s
  | .packRemoveDrained pack => Sys2Proof.Machine.execPackRemoveDrained pack s
  | .recipeInstall e => Sys2Proof.Machine.execRecipeInstall e s
  | .recipeRemove e => Sys2Proof.Machine.execRecipeRemove e s
  | .recipeRemoveDrained recipe => Sys2Proof.Machine.execRecipeRemoveDrained recipe s
  | .recipeLaunch e => Sys2Proof.Machine.execRecipeLaunch e s
  | .recipeStart w => Sys2Proof.Machine.execRecipeStart w s
  | .recipeStop e => Sys2Proof.Machine.execRecipeStop e s
  | .recipeStopComplete w => Sys2Proof.Machine.execRecipeStopComplete w s
  | .stepNop w => Sys2Proof.Machine.execStepNop w s
  | .loopStep w => Sys2Proof.Machine.execLoopStep w s
  | .endloop w => Sys2Proof.Machine.execEndloop w s
  | .loadStep w => Sys2Proof.Machine.execLoadStep w s
  | .loadDataReturn w id outcome => Sys2Proof.Machine.execLoadDataReturn w id outcome s
  | .storeStep w => Sys2Proof.Machine.execStoreStep w s
  | .waitStep w => Sys2Proof.Machine.execWaitStep w s
  | .waitSatisfied w => Sys2Proof.Machine.execWaitSatisfied w s
  | .signalStep w => Sys2Proof.Machine.execSignalStep w s
  | .fenceStep w => Sys2Proof.Machine.execFenceStep w s
  | .inbox w => Sys2Proof.Machine.execInbox w s
  | .inboxTokenPresent w => Sys2Proof.Machine.execInboxTokenPresent w s
  | .answer w => Sys2Proof.Machine.execAnswer w s
  | .halt w => Sys2Proof.Machine.execHalt w s
  | .serveStallTimeout w => Sys2Proof.Machine.execServeStallTimeout w s
  | .add ev => Sys2Proof.Machine.execAdd ev s
  | .sub ev => Sys2Proof.Machine.execSub ev s
  | .mul ev => Sys2Proof.Machine.execMul ev s
  | .fma ev => Sys2Proof.Machine.execFma ev s
  | .div ev => Sys2Proof.Machine.execDiv ev s
  | .max ev => Sys2Proof.Machine.execMax ev s
  | .min ev => Sys2Proof.Machine.execMin ev s
  | .abs ev => Sys2Proof.Machine.execAbs ev s
  | .neg ev => Sys2Proof.Machine.execNeg ev s
  | .scale ev => Sys2Proof.Machine.execScale ev s
  | .clamp ev => Sys2Proof.Machine.execClamp ev s
  | .cmpOp ev => Sys2Proof.Machine.execCmpOp ev s
  | .sel ev => Sys2Proof.Machine.execSel ev s
  | .bitop ev => Sys2Proof.Machine.execBitop ev s
  | .shift ev => Sys2Proof.Machine.execShift ev s
  | .fill ev => Sys2Proof.Machine.execFill ev s
  | .exp ev => Sys2Proof.Machine.execExp ev s
  | .exp2 ev => Sys2Proof.Machine.execExp2 ev s
  | .log ev => Sys2Proof.Machine.execLog ev s
  | .recip ev => Sys2Proof.Machine.execRecip ev s
  | .sqrt ev => Sys2Proof.Machine.execSqrt ev s
  | .rsqrt ev => Sys2Proof.Machine.execRsqrt ev s
  | .tanh ev => Sys2Proof.Machine.execTanh ev s
  | .sigmoid ev => Sys2Proof.Machine.execSigmoid ev s
  | .gelu ev => Sys2Proof.Machine.execGelu ev s
  | .silu ev => Sys2Proof.Machine.execSilu ev s
  | .rsum ev => Sys2Proof.Machine.execRsum ev s
  | .rsumsq ev => Sys2Proof.Machine.execRsumsq ev s
  | .rmax ev => Sys2Proof.Machine.execRmax ev s
  | .rmin ev => Sys2Proof.Machine.execRmin ev s
  | .ramax ev => Sys2Proof.Machine.execRamax ev s
  | .rdot ev => Sys2Proof.Machine.execRdot ev s
  | .softmax ev => Sys2Proof.Machine.execSoftmax ev s
  | .rmsnorm ev => Sys2Proof.Machine.execRmsnorm ev s
  | .layernorm ev => Sys2Proof.Machine.execLayernorm ev s
  | .rope ev => Sys2Proof.Machine.execRope ev s
  | .cvt ev => Sys2Proof.Machine.execCvt ev s
  | .quant ev => Sys2Proof.Machine.execQuant ev s
  | .dequant ev => Sys2Proof.Machine.execDequant ev s
  | .requant ev => Sys2Proof.Machine.execRequant ev s
  | .nzmask ev => Sys2Proof.Machine.execNzmask ev s
  | .gather ev => Sys2Proof.Machine.execGather ev s
  | .scatter ev => Sys2Proof.Machine.execScatter ev s
  | .scatterAdd ev => Sys2Proof.Machine.execScatterAdd ev s
  | .compact ev => Sys2Proof.Machine.execCompact ev s
  | .topk ev => Sys2Proof.Machine.execTopk ev s
  | .argmax ev => Sys2Proof.Machine.execArgmax ev s
  | .matvec ev => Sys2Proof.Machine.execMatvec ev s
  | .vecmat ev => Sys2Proof.Machine.execVecmat ev s
  | .gateOperator ev => Sys2Proof.Machine.execGateOperator ev s
  | .gateTimeout gate => Sys2Proof.Machine.execGateTimeout gate s
  | .helmConfig e => Sys2Proof.Machine.execHelmConfig e s
  | .helmBind e => Sys2Proof.Machine.execHelmBind e s
  | .helmRead e => Sys2Proof.Machine.execHelmRead e s
  | .fabricFlit link dir vn quality => Sys2Proof.Machine.execFabricFlit link dir vn quality s
  | .routingReformationDone => Sys2Proof.Machine.execRoutingReformationDone s
  | .arbiterAgeing vn id => Sys2Proof.Machine.execArbiterAgeing vn id s
  | .homeRequest id err => Sys2Proof.Machine.execHomeRequest id err s
  | .grantAcknowledgement n line => Sys2Proof.Machine.execGrantAcknowledgement n line s
  | .snpinv port line => Sys2Proof.Machine.execSnpinv port line s
  | .snpdata port line => Sys2Proof.Machine.execSnpdata port line s
  | .snpcur port line => Sys2Proof.Machine.execSnpcur port line s
  | .hostResponse port line poison data => Sys2Proof.Machine.execHostResponse port line poison data s
  | .hostTimeout port line => Sys2Proof.Machine.execHostTimeout port line s
  | .controllerRequest id err => Sys2Proof.Machine.execControllerRequest id err s
  | .readAgeing id => Sys2Proof.Machine.execReadAgeing id s
  | .channelRetrainDone channel ok rate => Sys2Proof.Machine.execChannelRetrainDone channel ok rate s
  | .refresh channel group => Sys2Proof.Machine.execRefresh channel group s
  | .deviceTemperatureReport channel temp => Sys2Proof.Machine.execDeviceTemperatureReport channel temp s
  | .temperatureRecovery channel => Sys2Proof.Machine.execTemperatureRecovery channel s
  | .reloadComplete block => Sys2Proof.Machine.execReloadComplete block s
  | .reloadTimeout block => Sys2Proof.Machine.execReloadTimeout block s
  | .holdDieFailure die => Sys2Proof.Machine.execHoldDieFailure die s
  | .channelFailure channel => Sys2Proof.Machine.execChannelFailure channel s
  | .scratchZeroingDone part => Sys2Proof.Machine.execScratchZeroingDone part s
  | .holdPurge e => Sys2Proof.Machine.execHoldPurge e s
  | .holdPurgeDone part berth => Sys2Proof.Machine.execHoldPurgeDone part berth s
  | .regionZeroingDone region => Sys2Proof.Machine.execRegionZeroingDone region s
  | .guaranteeSet e => Sys2Proof.Machine.execGuaranteeSet e s
  | .regulationWindowEnd ev => Sys2Proof.Machine.execRegulationWindowEnd ev s
  | .walkComplete unit berth dva => Sys2Proof.Machine.execWalkComplete unit berth dva s
  | .chartRoot e => Sys2Proof.Machine.execChartRoot e s
  | .chartInval e => Sys2Proof.Machine.execChartInval e s
  | .invalidationComplete id => Sys2Proof.Machine.execInvalidationComplete id s
  | .flip e => Sys2Proof.Machine.execFlip e s
  | .migrate e => Sys2Proof.Machine.execMigrate e s
  | .windowSet e => Sys2Proof.Machine.execWindowSet e s
  | .windowImport e => Sys2Proof.Machine.execWindowImport e s
  | .translationCompletion port porter granted hpa log2Size => Sys2Proof.Machine.execTranslationCompletion port porter granted hpa log2Size s
  | .prgResponse port porter code => Sys2Proof.Machine.execPrgResponse port porter code s
  | .priTimeout port porter => Sys2Proof.Machine.execPriTimeout port porter s
  | .atsInvalidateRequest f addr len => Sys2Proof.Machine.execAtsInvalidateRequest f addr len s
  | .hotEpochEnd => Sys2Proof.Machine.execHotEpochEnd s
  | .perstNRelease port => Sys2Proof.Machine.execPerstNRelease port s
  | .linkTrainingDone port result => Sys2Proof.Machine.execLinkTrainingDone port result s
  | .linkTrainingTimeout port => Sys2Proof.Machine.execLinkTrainingTimeout port s
  | .configReady port => Sys2Proof.Machine.execConfigReady port s
  | .bell f page ring value => Sys2Proof.Machine.execBell f page ring value s
  | .ringEnable f page ring value => Sys2Proof.Machine.execRingEnable f page ring value s
  | .ringDisable f page ring => Sys2Proof.Machine.execRingDisable f page ring s
  | .manifestFetch berth ring outcome => Sys2Proof.Machine.execManifestFetch berth ring outcome s
  | .staleReread berth ring => Sys2Proof.Machine.execStaleReread berth ring s
  | .entryStart berth ring => Sys2Proof.Machine.execEntryStart berth ring s
  | .nop e => Sys2Proof.Machine.execNop e s
  | .copy e => Sys2Proof.Machine.execCopy e s
  | .copyDone port porter outcome bytesDone => Sys2Proof.Machine.execCopyDone port porter outcome bytesDone s
  | .px2Descriptor berth ring => Sys2Proof.Machine.execPx2Descriptor berth ring s
  | .completionTimeout port porter bytesDone => Sys2Proof.Machine.execCompletionTimeout port porter bytesDone s
  | .placementWrite port rid offset data relaxed => Sys2Proof.Machine.execPlacementWrite port rid offset data relaxed s
  | .bmeClear f => Sys2Proof.Machine.execBmeClear f s
  | .bmeSet f => Sys2Proof.Machine.execBmeSet f s
  | .flr f => Sys2Proof.Machine.execFlr f s
  | .flrComplete f => Sys2Proof.Machine.execFlrComplete f s
  | .pf0Flr port => Sys2Proof.Machine.execPf0Flr port s
  | .cxlReset port => Sys2Proof.Machine.execCxlReset port s
  | .d3hotEntry f => Sys2Proof.Machine.execD3hotEntry f s
  | .d0Return f => Sys2Proof.Machine.execD0Return f s
  | .linkRetrainStart port => Sys2Proof.Machine.execLinkRetrainStart port s
  | .linkRetrainEnd port result => Sys2Proof.Machine.execLinkRetrainEnd port result s
  | .linkDown port => Sys2Proof.Machine.execLinkDown port s
  | .hotReset port => Sys2Proof.Machine.execHotReset port s
  | .perstNAssert port => Sys2Proof.Machine.execPerstNAssert port s
  | .l0sEntry port dir => Sys2Proof.Machine.execL0sEntry port dir s
  | .l0pEntry port width => Sys2Proof.Machine.execL0pEntry port width s
  | .l1Entry port => Sys2Proof.Machine.execL1Entry port s
  | .l1Exit port => Sys2Proof.Machine.execL1Exit port s
  | .msixUnmask f vector => Sys2Proof.Machine.execMsixUnmask f vector s
  | .ideKm port stream session => Sys2Proof.Machine.execIdeKm port stream session s
  | .ideIntegrityFailure port stream => Sys2Proof.Machine.execIdeIntegrityFailure port stream s
  | .lockInterface f stream => Sys2Proof.Machine.execLockInterface f stream s
  | .stopInterface f => Sys2Proof.Machine.execStopInterface f s
  | .berthOpen e => Sys2Proof.Machine.execBerthOpen e s
  | .berthClose e => Sys2Proof.Machine.execBerthClose e s
  | .berthBind e => Sys2Proof.Machine.execBerthBind e s
  | .grant e => Sys2Proof.Machine.execGrant e s
  | .keyNew e => Sys2Proof.Machine.execKeyNew e s
  | .keyRetire e => Sys2Proof.Machine.execKeyRetire e s
  | .rekey e => Sys2Proof.Machine.execRekey e s
  | .ownerSet e => Sys2Proof.Machine.execOwnerSet e s
  | .groupSet e => Sys2Proof.Machine.execGroupSet e s
  | .originRegister e => Sys2Proof.Machine.execOriginRegister e s
  | .placeSet e => Sys2Proof.Machine.execPlaceSet e s
  | .scrub e => Sys2Proof.Machine.execScrub e s
  | .scrubBurst job channel => Sys2Proof.Machine.execScrubBurst job channel s
  | .reload e => Sys2Proof.Machine.execReload e s
  | .viewStart berth => Sys2Proof.Machine.execViewStart berth s
  | .viewStop berth => Sys2Proof.Machine.execViewStop berth s
  | .viewWindowEnd watts => Sys2Proof.Machine.execViewWindowEnd watts s
  | .siteOut e => Sys2Proof.Machine.execSiteOut e s
  | .siteIn e test => Sys2Proof.Machine.execSiteIn e test s
  | .wrightOut e => Sys2Proof.Machine.execWrightOut e s
  | .drainTimeout w => Sys2Proof.Machine.execDrainTimeout w s
  | .wrightIn e passed => Sys2Proof.Machine.execWrightIn e passed s
  | .siteRecal e => Sys2Proof.Machine.execSiteRecal e s
  | .getVersion t => Sys2Proof.Machine.execGetVersion t s
  | .getCapabilities t => Sys2Proof.Machine.execGetCapabilities t s
  | .negotiateAlgorithms t offersOurs => Sys2Proof.Machine.execNegotiateAlgorithms t offersOurs s
  | .getDigests t => Sys2Proof.Machine.execGetDigests t s
  | .getCertificate t slot offset length => Sys2Proof.Machine.execGetCertificate t slot offset length s
  | .challenge t slot nonce => Sys2Proof.Machine.execChallenge t slot nonce s
  | .getMeasurements t index nonce signed => Sys2Proof.Machine.execGetMeasurements t index nonce signed s
  | .keyExchange t dhe => Sys2Proof.Machine.execKeyExchange t dhe s
  | .finish t session verified => Sys2Proof.Machine.execFinish t session verified s
  | .heartbeat t session => Sys2Proof.Machine.execHeartbeat t session s
  | .keyUpdate t session => Sys2Proof.Machine.execKeyUpdate t session s
  | .endSession t session => Sys2Proof.Machine.execEndSession t session s
  | .berthQuote t berth nonce => Sys2Proof.Machine.execBerthQuote t berth nonce s
  | .getNonce viaEthernet => Sys2Proof.Machine.execGetNonce viaEthernet s
  | .getIdentity viaEthernet => Sys2Proof.Machine.execGetIdentity viaEthernet s
  | .powerLimit o body => Sys2Proof.Machine.execPowerLimit o body s
  | .poolWrite o pool => Sys2Proof.Machine.execPoolWrite o pool s
  | .mgrSet o berths => Sys2Proof.Machine.execMgrSet o berths s
  | .lcTransition o target railsOk => Sys2Proof.Machine.execLcTransition o target railsOk s
  | .lcBurnDone readBack => Sys2Proof.Machine.execLcBurnDone readBack s
  | .warrantInstall o warrant => Sys2Proof.Machine.execWarrantInstall o warrant s
  | .debugOpen o scope pairs => Sys2Proof.Machine.execDebugOpen o scope pairs s
  | .debugClose o => Sys2Proof.Machine.execDebugClose o s
  | .credSet o version creds => Sys2Proof.Machine.execCredSet o version creds s
  | .certSet o chain => Sys2Proof.Machine.execCertSet o chain s
  | .imageBegin o imageLen => Sys2Proof.Machine.execImageBegin o imageLen s
  | .imageChunk o offset data => Sys2Proof.Machine.execImageChunk o offset data s
  | .imageCommit o write run facts => Sys2Proof.Machine.execImageCommit o write run facts s
  | .unitReplace o unit inst facts => Sys2Proof.Machine.execUnitReplace o unit inst facts s
  | .logRead o first count pri => Sys2Proof.Machine.execLogRead o first count pri s
  | .regWrite o offset value mask => Sys2Proof.Machine.execRegWrite o offset value mask s
  | .resetOrder o cold discard => Sys2Proof.Machine.execResetOrder o cold discard s
  | .unitOut o kind unit => Sys2Proof.Machine.execUnitOut o kind unit s
  | .unitIn o kind unit passed => Sys2Proof.Machine.execUnitIn o kind unit passed s
  | .recal o kind unit lane => Sys2Proof.Machine.execRecal o kind unit lane s
  | .deadAgent o site => Sys2Proof.Machine.execDeadAgent o site s
  | .assured o enable => Sys2Proof.Machine.execAssured o enable s
  | .hwsIdWrite o value => Sys2Proof.Machine.execHwsIdWrite o value s
  | .hwsSysWrite o index value mask => Sys2Proof.Machine.execHwsSysWrite o index value mask s
  | .bwrCfgWindowWrite o window => Sys2Proof.Machine.execBwrCfgWindowWrite o window s
  | .bwrBerthWrite src berth group => Sys2Proof.Machine.execBwrBerthWrite src berth group s
  | .memRegionClassWrite src region cls => Sys2Proof.Machine.execMemRegionClassWrite src region cls s
  | .holdPartWrite src part mode holder => Sys2Proof.Machine.execHoldPartWrite src part mode holder s
  | .logEnable port value => Sys2Proof.Machine.execLogEnable port value s
  | .priClear port => Sys2Proof.Machine.execPriClear port s
  | .logHeadWrite port head => Sys2Proof.Machine.execLogHeadWrite port head s
  | .chartHotEnable port value => Sys2Proof.Machine.execChartHotEnable port value s
  | .bootCtlGo port value => Sys2Proof.Machine.execBootCtlGo port value s
  | .recoveryImageFetched port outcome facts flashOk => Sys2Proof.Machine.execRecoveryImageFetched port outcome facts flashOk s
  | .registerWrite src offset width value => Sys2Proof.Machine.execRegisterWrite src offset width value s
  | .hawserFrame port frame corrected fecOk => Sys2Proof.Machine.execHawserFrame port frame corrected fecOk s
  | .hawserTrainingDone port passing => Sys2Proof.Machine.execHawserTrainingDone port passing s
  | .hawserLaneLoss port lane => Sys2Proof.Machine.execHawserLaneLoss port lane s
  | .hawserTrainingRetry port => Sys2Proof.Machine.execHawserTrainingRetry port s
  | .musterRecord port m => Sys2Proof.Machine.execMusterRecord port m s
  | .musterPeriodic port => Sys2Proof.Machine.execMusterPeriodic port s
  | .windowRequest port m => Sys2Proof.Machine.execWindowRequest port m s
  | .windowAnswer port m => Sys2Proof.Machine.execWindowAnswer port m s
  | .reqTimeout tag => Sys2Proof.Machine.execReqTimeout tag s
  | .routedTokenPacket port m => Sys2Proof.Machine.execRoutedTokenPacket port m s
  | .unreach port hub dest => Sys2Proof.Machine.execUnreach port hub dest s
  | .unreachHoldExpiry hub => Sys2Proof.Machine.execUnreachHoldExpiry hub s
  | .stallLimitExpiry port m => Sys2Proof.Machine.execStallLimitExpiry port m s
  | .arriveMsg port m => Sys2Proof.Machine.execArriveMsg port m s
  | .releaseMsg port m => Sys2Proof.Machine.execReleaseMsg port m s
  | .breakMsg port m => Sys2Proof.Machine.execBreakMsg port m s
  | .rejectMsg port m => Sys2Proof.Machine.execRejectMsg port m s
  | .slowedMsg port m => Sys2Proof.Machine.execSlowedMsg port m s
  | .throttleEvaluation sample => Sys2Proof.Machine.execThrottleEvaluation sample s
  | .peakCheck hubW holdW => Sys2Proof.Machine.execPeakCheck hubW holdW s
  | .opChangeDone domain => Sys2Proof.Machine.execOpChangeDone domain s
  | .droopDetect => Sys2Proof.Machine.execDroopDetect s
  | .droopRecovery => Sys2Proof.Machine.execDroopRecovery s
  | .ageingMeasurement short => Sys2Proof.Machine.execAgeingMeasurement short s
  | .sensorThreshold hubTj holdTj => Sys2Proof.Machine.execSensorThreshold hubTj holdTj s
  | .thermalCritical => Sys2Proof.Machine.execThermalCritical s
  | .hubThermtrip => Sys2Proof.Machine.execHubThermtrip s
  | .avsbusFailure => Sys2Proof.Machine.execAvsbusFailure s
  | .hubRstNAssert => Sys2Proof.Machine.execHubRstNAssert s
  | .hubRstNRelease ev => Sys2Proof.Machine.execHubRstNRelease ev s
  | .startComplete => Sys2Proof.Machine.execStartComplete s
  | .startStepTimeout => Sys2Proof.Machine.execStartStepTimeout s
  | .profileWrite => Sys2Proof.Machine.execProfileWrite s
  | .railOutOfRange rail => Sys2Proof.Machine.execRailOutOfRange rail s
  | .refclkLoss clock => Sys2Proof.Machine.execRefclkLoss clock s
  | .selfTestSlice w passed => Sys2Proof.Machine.execSelfTestSlice w passed s
  | .checkerInjection checker flagged => Sys2Proof.Machine.execCheckerInjection checker flagged s
  | .patrol corrected uncorrectable => Sys2Proof.Machine.execPatrol corrected uncorrectable s
  | .clockCheck domain deviationOver => Sys2Proof.Machine.execClockCheck domain deviationOver s
  | .watchdogExpiry unit => Sys2Proof.Machine.execWatchdogExpiry unit s
  | .lmCapTimeout n => Sys2Proof.Machine.execLmCapTimeout n s
  | .storeComplete w id outcome => Sys2Proof.Machine.execStoreComplete w id outcome s
  | .recallScanDone n berth => Sys2Proof.Machine.execRecallScanDone n berth s
  | .migrateCopyDone berth dva outcome => Sys2Proof.Machine.execMigrateCopyDone berth dva outcome s
  | .l0sExit port dir => Sys2Proof.Machine.execL0sExit port dir s
  | .l0pExit port => Sys2Proof.Machine.execL0pExit port s
  | .startInterface f => Sys2Proof.Machine.execStartInterface f s
  | .refclkReturn clock => Sys2Proof.Machine.execRefclkReturn clock s
  | .railBackInRange rail => Sys2Proof.Machine.execRailBackInRange rail s
  | .unitReplaceDone ok => Sys2Proof.Machine.execUnitReplaceDone ok s

end Sys2Proof.Machine
end

