-- ==== Sys2Proof/Machine/RegisterReads.lean ====
section
/-! DEFINITION. What the hub answers to a host's read of its BARs (R376, R398, R447, R564, R566, R567, R577, R580). The table has no row for such a read (log 159): no command calls `Work.barRead`. -/

namespace Sys2Proof.Machine

/-- A register as the manager of a port sees it through PF0 BAR0: units outside its pool, and what only management reads, read as zero (R566, R577, R580). -/
def Work.seenReg (w : Work) (p : Nat) (r : Reg) : Nat :=
  let pl := w.pool p
  let v := w.regValue r
  match r with
  | .sportCfg n | .slinkStat n => if bit pl.sites n then v else 0
  | .memRegion n => if bit pl.regions n then v else 0
  | .holdPart n => if bit pl.hold n then v else 0
  | .bwrStat k _ => if k = 0 || k = 1 || k = 2 + p || k = 6 + p then v else 0
  | .bwrBerth i => pack ((List.range 8).map fun j => (8, if inRun pl.berthFirst pl.berthCount (8 * i + j) then w.groupOf (8 * i + j) else 0))
  | .svcStat | .cntCfg => 0
  | .counter o => (match cntAt o with | some (k, i) => if w.mayRead p k i then v else 0 | none => 0)
  | .msix p u i => tget 0 (w.func { port := p, func := u }).msix i
  | _ => v

/-- Word i, of 8 bytes, of a berth's view block (R447-R450). -/
def Work.viewWord (w : Work) (b i : Nat) : Nat :=
  let x := (w.berth b).view
  match i with
  | 0 => pack [(16, w.hub.ten.watts), (16, w.hub.ten.window)]
  | 1 => pack [(2, 0), (1, b2n x.isOpen)]
  | 2 => pack [(32, x.joules), (16, x.conc), (15, x.duration), (1, b2n x.valid)]
  | _ => if i < 8 then pack [(32, tget 0 x.shown (2 * (i - 3))), (32, tget 0 x.shown (2 * (i - 3) + 1))] else 0

/-- A register of a bell page (R398): a bell reads as zero. -/
def Work.ringReg (w : Work) (b o : Nat) : Nat :=
  let x := w.ring b ((o - 0x100) / 0x40)
  if o < 0x100 || 0x200 ≤ o then 0
  else match o % 0x40 with
    | 0 => x.base
    | 8 => pack [(1, b2n x.enable), (5, x.log2), (1, b2n x.px2), (9, 0), (11, x.vector)]
    | 16 => x.cplBase
    | 24 => pack [(3, x.state), (1, b2n x.partly), (4, x.cause), (8, 0), (16, x.fetch), (16, x.doneIx), (16, if x.state = 2 then x.fetchIx else x.doneIx)]
    | 32 => pack [(32, x.ended), (32, x.stale)]
    | _ => 0

/-- Pending bits of a function's vectors from 64 i on (R383). -/
def Work.pbaWord (w : Work) (f : FuncRef) (i : Nat) : Nat :=
  pack ((List.range 64).map fun j => (1, b2n ((64 * i + j) ∈ (w.func f).pendingVec)))

/-- The 8-byte word at an offset of a function's BAR0, or of BAR2 from 2^32 on; none where no access is accepted (R376, R566, R567). -/
def Work.barWord (w : Work) (f : FuncRef) (o : Nat) : Option Nat :=
  if 2 ^ 32 ≤ o then (w.berthAt f ((o - 2 ^ 32) / 4096)).map fun b => w.ringReg b (o % 4096)
  else if f.func = 0 then
    if 0x01008000 ≤ o && o < 0x01008100 then some (w.pbaWord f ((o - 0x01008000) / 8))
    else if 0x01800000 ≤ o && o < 0x01900000 then
      some (match w.berthAt f ((o - 0x01800000) / 256) with | some b => w.viewWord b (o % 256 / 8) | none => 0)
    else some (w.seenReg f.port (barReg f.port o))
  else if o = 0xC000 then some (w.pbaWord f 0)
  else if 0x4000 ≤ o && o < 0x5000 then some (match w.berthAt f ((o - 0x4000) / 256) with | some b => w.viewWord b (o % 256 / 8) | none => 0)
  else some (w.seenReg f.port (vfReg f.port f.func o))

/-- A host's read of a BAR: its data, and the hub after it. An aligned read of 4 or 8 bytes answers the register, and clears a count of lost entries (R13, R549); any other answers all-ones and is counted (R376), as does one of a function in reset or D3hot; a TDI in ERROR answers all-ones (R394). -/
def Work.barRead (w : Work) (f : FuncRef) (o width : Nat) : Nat × Work :=
  let ones := 2 ^ (8 * width) - 1
  let w := (w.tlp f.port 4).tlp f.port 2
  let refused : Nat × Work := (ones, w.count 14 f.port 18)
  if (width ≠ 4 && width ≠ 8) || o % width ≠ 0 || (w.func f).flr || (w.func f).d3hot then refused
  else if (w.func f).tdi = .error then (ones, w)
  else match w.barWord f (o / 8 * 8) with
    | none => refused
    | some v =>
      let w := if o < 2 ^ 32 && f.func = 0 then (w.readReg (barReg f.port (o / 8 * 8))).2 else w
      (bits v (8 * (o % 8) + 8 * width - 1) (8 * (o % 8)), w)

end Sys2Proof.Machine
end

