-- ==== Sys2Proof/WellFormed.lean ====
section
/-! DEFINITION. Which commands are well formed: every operand within the range that the manual gives its field. The machine does not lean on it: a command out of range finds no such unit and has no effect (log 20). -/

namespace Sys2Proof

/-- A value fits in w bits. -/
def fits (w v : Nat) : Bool := v < 2 ^ w

/-- A manifest entry's place (R397, R429). -/
def entryOk (e : EntryRef) : Bool := e.berth < 4096 && e.ring < 4 && fits 20 e.index

/-- A function of a host port (R374). -/
def funcOk (f : FuncRef) : Bool := f.port < 4 && f.func ≤ 255

/-- Header fields of a REQ message (R86). -/
def reqOk (r : ReqHdr) : Bool :=
  fits 2 r.prio && fits 16 r.tag && fits 14 r.berth && fits 8 r.size && fits 16 r.opspec && fits 57 r.addr

/-- Header fields of a token message (R104). -/
def tokOk (h : TokHdr) : Bool :=
  fits 4 h.fmt && fits 12 h.beats && fits 14 h.berth && fits 12 h.expert && fits 3 h.rank && fits 32 h.token && fits 8 h.table

/-- Header fields of a GATE (R106). -/
def gateOk (h : GateHdr) : Bool :=
  fits 4 h.fmt && fits 12 h.beats && fits 14 h.berth && fits 12 h.nlog && fits 32 h.row && fits 8 h.table

/-- Fields of an HLM_OP (R108). -/
def hlmFits (h : HlmOp) : Bool := fits 16 h.tag && fits 14 h.berth && fits 16 h.object && fits 32 h.value

/-- An engine that exists (R179). -/
def evOk (e : OpEvent) : Bool := e.engine < 64 && e.upset.all fun v => fits 14 v

/-- Fields of an order's header (R466). -/
def orderOk (o : OrderHdr) : Bool := fits 16 o.order && fits 64 o.nonce && fits 8 o.cred

/-- Fields of a body message between hubs (R499). -/
def bodyOk (m : BodyMsg) : Bool := fits 12 m.dstHub && fits 12 m.srcHub && m.lane < 2 && fits 16 m.tag

/-- Fields of a Helm message between hubs (R491). -/
def helmOk (m : HelmMsg) : Bool := fits 12 m.dstHub && fits 12 m.srcHub && fits 16 m.gen

/-- Six credit counts of 16 bits (R82, R84). -/
def creditsOk (c : Credits) : Bool :=
  fits 16 c.reqHdr && fits 16 c.reqData && fits 16 c.snpHdr && fits 16 c.tokHdr && fits 16 c.tokData && fits 16 c.hlmHdr

/-- INIT (R82). -/
def initFits (m : InitMsg) : Bool := fits 8 m.version && fits 5 m.packed && creditsOk m.grants

/-- A half of a bundle and its wires (R29, R59). -/
def failOk (h : HalfFail) : Bool := h.bundle < 16 && h.half < 2

/-- A transport of SPDM (R458). -/
def transportOk : Transport → Bool
  | .doe p => p < 4
  | .i3c => true

/-- Every operand of a command lies in its range. -/
def Instr.wellFormed : Instr → Bool
  | .vcsPgRise n => n < 16
  | .siteRstNRelease n => n < 16
  | .vcsPgTimeout n => n < 16
  | .vcsPgFall n => n < 16
  | .sidebandUp n => n < 16
  | .sidebandTimeout n => n < 16
  | .lmCap n _ => n < 16
  | .bundleClockLock n => n < 16
  | .wireTestDone n _ => n < 16
  | .lmWireResult n result => n < 16 && failOk result
  | .lmSparemapAck n bundle half => n < 16 && bundle < 16 && half < 2
  | .lmSparemapAckTimeout n bundle half => n < 16 && bundle < 16 && half < 2
  | .deskewDone n => n < 16
  | .idleFrameTestDone n _ => n < 16
  | .dataFrame n bundle _ => n < 16 && bundle < 16
  | .idleFrame n bundle _ => n < 16 && bundle < 16
  | .retrainRequestFrame n bundle _ => n < 16 && bundle < 16
  | .ackDeadline n bundle => n < 16 && bundle < 16
  | .ackTimeout n bundle _ => n < 16 && bundle < 16
  | .lmRetrainReq n bundle _ => n < 16 && bundle < 16
  | .lmRetrainAck n bundle => n < 16 && bundle < 16
  | .lmRetrainAckTimeout n bundle => n < 16 && bundle < 16
  | .bundleRetrainDone n bundle _ => n < 16 && bundle < 16
  | .lmLimpAck n _ => n < 16
  | .lmLimpAckTimeout n => n < 16
  | .limpRetrainDone n _ => n < 16
  | .initMsg n msg => n < 16 && initFits msg
  | .initTimeout n => n < 16
  | .echoRsp n _ => n < 16
  | .echoTimeout n => n < 16
  | .credit n credits => n < 16 && creditsOk credits
  | .rdNc n req => n < 16 && reqOk req
  | .rdShared n req => n < 16 && reqOk req
  | .rdUnique n req => n < 16 && reqOk req
  | .upgrade n req => n < 16 && reqOk req
  | .wr n req _ => n < 16 && reqOk req
  | .wrPartial n req _ => n < 16 && reqOk req
  | .atomic n req _ => n < 16 && reqOk req
  | .reduce n req _ => n < 16 && reqOk req
  | .wbDirty n req _ => n < 16 && reqOk req
  | .evictClean n req => n < 16 && reqOk req
  | .cmp n _ => n < 16
  | .rdData n _ => n < 16
  | .snpRsp n _ _ _ _ => n < 16
  | .snpData n _ _ _ => n < 16
  | .snoopTimeout n _ => n < 16
  | .gate n hdr _ => n < 16 && gateOk hdr
  | .tokOut n hdr _ => n < 16 && tokOk hdr
  | .tokCreditWithholdTimeout n => n < 16
  | .markAdd n op => n < 16 && hlmFits op
  | .markWait n op => n < 16 && hlmFits op
  | .markRead n op => n < 16 && hlmFits op
  | .gateArrive n op => n < 16 && hlmFits op
  | .semAcquire n op => n < 16 && hlmFits op
  | .semRelease n op => n < 16 && hlmFits op
  | .eventWirePulse n wire => n < 16 && wire < 32
  | .outboundPulse n wire => n < 16 && wire < 32
  | .sbTelem n _ _ _ _ => n < 16
  | .telemetryGap n => n < 16
  | .sitePowerOverLimit n => n < 16
  | .sbFault n _ _ _ => n < 16
  | .siteThermNAssert n => n < 16
  | .siteThermTimeout n => n < 16
  | .siteThermNRelease n => n < 16
  | .siteAttnNAssert n => n < 16
  | .sbQuiesceDone n _ => n < 16
  | .quiesceTimeout n => n < 16
  | .reclaimDone n => n < 16
  | .gateStagingRelease b => b < 16
  | .zeroRowDone b _ _ => b < 16
  | .dispatch _ => true
  | .combine _ => true
  | .tallyCombineDone _ _ => true
  | .close _ => true
  | .outcomeRecordDone b _ _ => b < 16
  | .bounce _ => true
  | .remoteTimeout b _ _ => b < 16
  | .deferPassEnd b table => b < 16 && table < 256
  | .bearingInstall e => entryOk e
  | .bearingUpdate e => entryOk e
  | .bearingAvail e => entryOk e
  | .bearingFlush e => entryOk e
  | .bearingRemove e => entryOk e
  | .bearingRemoveDrained table => table < 256
  | .bearingRound e => entryOk e
  | .packInstall e => entryOk e
  | .packRemove e => entryOk e
  | .packRemoveDrained pack => pack < 4096
  | .recipeInstall e => entryOk e
  | .recipeRemove e => entryOk e
  | .recipeRemoveDrained recipe => recipe < 1024
  | .recipeLaunch e => entryOk e
  | .recipeStart w => w < 64
  | .recipeStop e => entryOk e
  | .recipeStopComplete w => w < 64
  | .stepNop w => w < 64
  | .loopStep w => w < 64
  | .endloop w => w < 64
  | .loadStep w => w < 64
  | .loadDataReturn w _ _ => w < 64
  | .storeStep w => w < 64
  | .waitStep w => w < 64
  | .waitSatisfied w => w < 64
  | .signalStep w => w < 64
  | .fenceStep w => w < 64
  | .inbox w => w < 64
  | .inboxTokenPresent w => w < 64
  | .answer w => w < 64
  | .halt w => w < 64
  | .serveStallTimeout w => w < 64
  | .add ev => evOk ev
  | .sub ev => evOk ev
  | .mul ev => evOk ev
  | .fma ev => evOk ev
  | .div ev => evOk ev
  | .max ev => evOk ev
  | .min ev => evOk ev
  | .abs ev => evOk ev
  | .neg ev => evOk ev
  | .scale ev => evOk ev
  | .clamp ev => evOk ev
  | .cmpOp ev => evOk ev
  | .sel ev => evOk ev
  | .bitop ev => evOk ev
  | .shift ev => evOk ev
  | .fill ev => evOk ev
  | .exp ev => evOk ev
  | .exp2 ev => evOk ev
  | .log ev => evOk ev
  | .recip ev => evOk ev
  | .sqrt ev => evOk ev
  | .rsqrt ev => evOk ev
  | .tanh ev => evOk ev
  | .sigmoid ev => evOk ev
  | .gelu ev => evOk ev
  | .silu ev => evOk ev
  | .rsum ev => evOk ev
  | .rsumsq ev => evOk ev
  | .rmax ev => evOk ev
  | .rmin ev => evOk ev
  | .ramax ev => evOk ev
  | .rdot ev => evOk ev
  | .softmax ev => evOk ev
  | .rmsnorm ev => evOk ev
  | .layernorm ev => evOk ev
  | .rope ev => evOk ev
  | .cvt ev => evOk ev
  | .quant ev => evOk ev
  | .dequant ev => evOk ev
  | .requant ev => evOk ev
  | .nzmask ev => evOk ev
  | .gather ev => evOk ev
  | .scatter ev => evOk ev
  | .scatterAdd ev => evOk ev
  | .compact ev => evOk ev
  | .topk ev => evOk ev
  | .argmax ev => evOk ev
  | .matvec ev => evOk ev
  | .vecmat ev => evOk ev
  | .gateOperator ev => evOk ev
  | .gateTimeout gate0 => gate0 < 1024
  | .helmConfig e => entryOk e
  | .helmBind e => entryOk e
  | .helmRead e => entryOk e
  | .fabricFlit link dir vn quality => link < 303 && dir < 2 && vn < 5 && quality < 3
  | .routingReformationDone => true
  | .arbiterAgeing vn _ => vn < 5
  | .homeRequest _ err => err < 18
  | .grantAcknowledgement n _ => n < 16
  | .snpinv port _ => port < 4
  | .snpdata port _ => port < 4
  | .snpcur port _ => port < 4
  | .hostResponse port _ _ _ => port < 4
  | .hostTimeout port _ => port < 4
  | .controllerRequest _ err => err < 18
  | .readAgeing _ => true
  | .channelRetrainDone channel _ _ => channel < 128
  | .refresh channel group => channel < 128 && group < 256
  | .deviceTemperatureReport channel _ => channel < 128
  | .temperatureRecovery channel => channel < 128
  | .reloadComplete _ => true
  | .reloadTimeout _ => true
  | .holdDieFailure die => die < 3
  | .channelFailure channel => channel < 128
  | .scratchZeroingDone part => part < 48
  | .holdPurge e => entryOk e
  | .holdPurgeDone _ berth => berth < 4096
  | .regionZeroingDone region => region < 192
  | .guaranteeSet e => entryOk e
  | .regulationWindowEnd _ => true
  | .walkComplete _ berth _ => berth < 4096
  | .chartRoot e => entryOk e
  | .chartInval e => entryOk e
  | .invalidationComplete _ => true
  | .flip e => entryOk e
  | .migrate e => entryOk e
  | .windowSet e => entryOk e
  | .windowImport e => entryOk e
  | .translationCompletion port porter _ _ _ => port < 4 && porter < 8
  | .prgResponse port porter _ => port < 4 && porter < 8
  | .priTimeout port porter => port < 4 && porter < 8
  | .atsInvalidateRequest f _ _ => funcOk f
  | .hotEpochEnd => true
  | .perstNRelease port => port < 4
  | .linkTrainingDone port _ => port < 4
  | .linkTrainingTimeout port => port < 4
  | .configReady port => port < 4
  | .bell f page ring _ => funcOk f && page < 4096 && ring < 4
  | .ringEnable f page ring _ => funcOk f && page < 4096 && ring < 4
  | .ringDisable f page ring => funcOk f && page < 4096 && ring < 4
  | .manifestFetch berth ring _ => berth < 4096 && ring < 4
  | .staleReread berth ring => berth < 4096 && ring < 4
  | .entryStart berth ring => berth < 4096 && ring < 4
  | .nop e => entryOk e
  | .copy e => entryOk e
  | .copyDone port porter _ _ => port < 4 && porter < 8
  | .px2Descriptor berth ring => berth < 4096 && ring < 4
  | .completionTimeout port porter _ => port < 4 && porter < 8
  | .placementWrite port _ _ _ _ => port < 4
  | .bmeClear f => funcOk f
  | .bmeSet f => funcOk f
  | .flr f => funcOk f
  | .flrComplete f => funcOk f
  | .pf0Flr port => port < 4
  | .cxlReset port => port < 4
  | .d3hotEntry f => funcOk f
  | .d0Return f => funcOk f
  | .linkRetrainStart port => port < 4
  | .linkRetrainEnd port _ => port < 4
  | .linkDown port => port < 4
  | .hotReset port => port < 4
  | .perstNAssert port => port < 4
  | .l0sEntry port dir => port < 4 && dir < 2
  | .l0pEntry port _ => port < 4
  | .l1Entry port => port < 4
  | .l1Exit port => port < 4
  | .msixUnmask f _ => funcOk f
  | .ideKm port _ _ => port < 4
  | .ideIntegrityFailure port _ => port < 4
  | .lockInterface f _ => funcOk f
  | .stopInterface f => funcOk f
  | .berthOpen e => entryOk e
  | .berthClose e => entryOk e
  | .berthBind e => entryOk e
  | .grant e => entryOk e
  | .keyNew e => entryOk e
  | .keyRetire e => entryOk e
  | .rekey e => entryOk e
  | .ownerSet e => entryOk e
  | .groupSet e => entryOk e
  | .originRegister e => entryOk e
  | .placeSet e => entryOk e
  | .scrub e => entryOk e
  | .scrubBurst _ channel => channel < 128
  | .reload e => entryOk e
  | .viewStart berth => berth < 4096
  | .viewStop berth => berth < 4096
  | .viewWindowEnd _ => true
  | .siteOut e => entryOk e
  | .siteIn e _ => entryOk e
  | .wrightOut e => entryOk e
  | .drainTimeout w => w < 64
  | .wrightIn e _ => entryOk e
  | .siteRecal e => entryOk e
  | .getVersion t => transportOk t
  | .getCapabilities t => transportOk t
  | .negotiateAlgorithms t _ => transportOk t
  | .getDigests t => transportOk t
  | .getCertificate t _ _ _ => transportOk t
  | .challenge t _ _ => transportOk t
  | .getMeasurements t _ _ _ => transportOk t
  | .keyExchange t _ => transportOk t
  | .finish t _ _ => transportOk t
  | .heartbeat t _ => transportOk t
  | .keyUpdate t _ => transportOk t
  | .endSession t _ => transportOk t
  | .berthQuote t berth _ => transportOk t && berth < 4096
  | .getNonce _ => true
  | .getIdentity _ => true
  | .powerLimit o _ => orderOk o
  | .poolWrite o _ => orderOk o
  | .mgrSet o _ => orderOk o
  | .lcTransition o _ _ => orderOk o
  | .lcBurnDone _ => true
  | .warrantInstall o _ => orderOk o
  | .debugOpen o _ _ => orderOk o
  | .debugClose o => orderOk o
  | .credSet o _ _ => orderOk o
  | .certSet o _ => orderOk o
  | .imageBegin o _ => orderOk o
  | .imageChunk o _ _ => orderOk o
  | .imageCommit o _ _ _ => orderOk o
  | .unitReplace o _ _ _ => orderOk o
  | .logRead o _ _ _ => orderOk o
  | .regWrite o _ _ _ => orderOk o
  | .resetOrder o _ _ => orderOk o
  | .unitOut o _ _ => orderOk o
  | .unitIn o _ _ _ => orderOk o
  | .recal o _ _ _ => orderOk o
  | .deadAgent o _ => orderOk o
  | .assured o _ => orderOk o
  | .hwsIdWrite o _ => orderOk o
  | .hwsSysWrite o _ _ _ => orderOk o
  | .bwrCfgWindowWrite o _ => orderOk o
  | .bwrBerthWrite _ berth group => berth < 4096 && group < 256
  | .memRegionClassWrite _ region cls => region < 192 && cls < 3
  | .holdPartWrite _ part _ _ => part < 48
  | .logEnable port _ => port < 4
  | .priClear port => port < 4
  | .logHeadWrite _ _ => true
  | .chartHotEnable port _ => port < 4
  | .bootCtlGo port _ => port < 4
  | .recoveryImageFetched _ _ _ _ => true
  | .registerWrite _ _ _ _ => true
  | .hawserFrame port _ _ _ => port < 8
  | .hawserTrainingDone port _ => port < 8
  | .hawserLaneLoss port lane => port < 8 && lane < 64
  | .hawserTrainingRetry port => port < 8
  | .musterRecord port _ => port < 8
  | .musterPeriodic port => port < 8
  | .windowRequest port m => port < 8 && bodyOk m
  | .windowAnswer port m => port < 8 && bodyOk m
  | .reqTimeout tag => tag < 65536
  | .routedTokenPacket port m => port < 8 && bodyOk m
  | .unreach port hub dest => port < 8 && hub < 1024 && dest < 1024
  | .unreachHoldExpiry hub => hub < 1024
  | .stallLimitExpiry port m => port < 8 && bodyOk m
  | .arriveMsg port m => port < 8 && helmOk m
  | .releaseMsg port m => port < 8 && helmOk m
  | .breakMsg port m => port < 8 && helmOk m
  | .rejectMsg port m => port < 8 && helmOk m
  | .slowedMsg port m => port < 8 && helmOk m
  | .throttleEvaluation _ => true
  | .peakCheck _ _ => true
  | .opChangeDone domain => domain < 3
  | .droopDetect => true
  | .droopRecovery => true
  | .ageingMeasurement _ => true
  | .sensorThreshold _ _ => true
  | .thermalCritical => true
  | .hubThermtrip => true
  | .avsbusFailure => true
  | .hubRstNAssert => true
  | .hubRstNRelease _ => true
  | .startComplete => true
  | .startStepTimeout => true
  | .profileWrite => true
  | .railOutOfRange _ => true
  | .refclkLoss _ => true
  | .selfTestSlice w _ => w < 64
  | .checkerInjection _ _ => true
  | .patrol _ _ => true
  | .clockCheck domain _ => domain < 8
  | .watchdogExpiry _ => true
  | .lmCapTimeout n => n < 16
  | .storeComplete w _ _ => w < 64
  | .recallScanDone _ berth => berth < 4096
  | .migrateCopyDone berth _ _ => berth < 4096
  | .l0sExit port dir => port < 4 && dir < 2
  | .l0pExit port => port < 4
  | .startInterface f => funcOk f
  | .refclkReturn _ => true
  | .railBackInRange _ => true
  | .unitReplaceDone _ => true

end Sys2Proof
end

