-- ==== Sys2Proof/Safety.lean ====
section
/-! DEFINITION. The terms of the claims: safe states and steps, what a command does, what waits to be settled. -/

namespace Sys2Proof.Machine

/-- A safe state: memory keeps its canonical form. -/
def State.Safe (s : State) : Prop := s.mem.wf = true

/-- The state has its commands well formed. -/
def State.commandsOk (s : State) : Bool := s.pending.all Instr.wellFormed

/-- A step answers a next state: it neither faults nor refuses. -/
def State.Steps (s : State) : Prop := ∃ t, step s = .next t

/-- The work with which a command begins on a state: what the readers of the model read (sites, ports, berths, registers). -/
def State.work (s : State) : Work := { mem := s.mem, writes := [], hub := s.hub }

/-- A command answers a next state of which P holds. -/
def Does (c : Instr) (s : State) (P : State → Prop) : Prop := ∃ t, exec c s = .next t ∧ P t

/-- Nothing waits for what a command may bring: no held import, withdrawal, unbinding, retirement, scrub or close runs. -/
abbrev State.Calm (s : State) : Prop :=
  s.hub.hawser.inbound = [] ∧ s.hub.ten.withdrawals = [] ∧ s.hub.memory.retiring = [] ∧ s.hub.memory.scrubs = []
    ∧ (∀ x ∈ s.hub.ten.berths, x.2.unbind = none) ∧ ∀ x ∈ s.hub.ten.berths, x.2.state ≠ .closing

/-! ## Manifest entries -/

/-- An entry that has started and waits for its command: its opcode, no command running on it, a ring that is no PX2 ring, neither mark nor interrupt at its completion, service not paused. -/
abbrev State.Issued (s : State) (e : EntryRef) (x : RingEntry) (opcode : Nat) : Prop :=
  s.work.started e = some x ∧ x.progress = 0 ∧ bits x.word 7 0 = opcode ∧ (s.work.ring e.berth e.ring).px2 = false
    ∧ bit x.word 15 = false ∧ bit x.word 13 = false ∧ s.work.svcPaused = false

/-- From s to t an entry has left its ring, its completion record (R406) written if its function may issue requests. -/
abbrev State.Completes (s t : State) (e : EntryRef) (x : RingEntry) (status detail result : Nat) : Prop :=
  let f := s.work.funcOf e.berth
  t.work.started e = none ∧ (s.work.portUp f.port = true → s.work.mayIssue f = true →
    Out.hostWrite f ((s.work.ring e.berth e.ring).cplBase + 16 * e.index)
      (leBytes 16 (pack [(16, e.index), (1, bits x.word 12 12), (7, 0), (8, status), (16, detail), (16, 0), (64, result)])) ∈ t.hub.sent)

/-- The n bytes of host memory that an entry's pointer names, as one word. -/
def State.hostWord (s : State) (e : EntryRef) (x : RingEntry) (n : Nat) : Nat :=
  leNat (s.mem.bytes (hostKey (s.work.funcOf e.berth).port (bits x.word 191 128)) n)

/-- An entry's pointer names n bytes of host memory that can be read and hold no poison. -/
abbrev State.HostReads (s : State) (e : EntryRef) (x : RingEntry) (n : Nat) : Prop :=
  bit x.word 192 = true ∧ s.work.portUp (s.work.funcOf e.berth).port = true
    ∧ s.work.poisoned (hostKey (s.work.funcOf e.berth).port (bits x.word 191 128)) n = false

/-- No access is kept under old translations or keys, and none has failed at a home. -/
abbrev State.Current (s : State) : Prop :=
  s.hub.chart.invals = [] ∧ s.hub.memory.retiring = [] ∧ s.hub.fabric.failed = [] ∧ s.hub.ledger.txns = []

/-- An address lies in a window. -/
def isWindow (x : Target) : Bool := match x with | .window _ _ => true | _ => false

/-! ## Frames -/

/-- A hub without what reports change: port records, counters, emissions, the management Log. -/
def quietHub (h : Hub) : Hub := { h with ports := [], cnt := [], sent := [], mlog := {} }

/-- Only blocks that f puts back, and what reports change, have changed: the queue and every other block are as before. -/
abbrev Within (s t : State) (f : Hub → Hub) : Prop := t.pending = s.pending ∧ quietHub t.hub = quietHub (f s.hub)

/-- Memory and the queue are as before, and every block of the hub but those that f puts back. -/
abbrev Exactly (s t : State) (f : Hub → Hub) : Prop := t.pending = s.pending ∧ t.mem = s.mem ∧ t.hub = f s.hub

/-! ## Operators of the catalogue -/

/-- The operator at the step where a run of an event's engine stands, its local memory as the SEC-DED left it. -/
def State.opAt (s : State) (ev : OpEvent) (r : Run) : Op := { m := struck (s.work.wright ev.engine) ev, r := r, st := curStep r }

/-- The step of an engine is one of an opcode, and may issue. -/
abbrev State.CanIssue (s : State) (x op : Nat) (r : Run) : Prop :=
  (s.work.wright x).run = some r ∧ r.phase = .issue ∧ r.pc < r.recipe.steps.length ∧ (curStep r).op = op

/-- The streams of the step lie as R194 asks, and nothing that it reads or writes awaits a LOAD. -/
abbrev State.Free (s : State) (ev : OpEvent) (r : Run) (o : OpOut) : Prop :=
  let m := s.work.wright ev.engine
  (s.opAt ev r).aligned = true ∧ (o.reads.any fun (a, n) => pendIn m a n) = false ∧ (o.vecs.any fun v => v ∈ m.pend) = false

/-- From s to t what a step gives has entered local memory, and issue has gone on; of the hub only the engines, views, the free values taken and what reports change have changed, memory not. -/
abbrev State.Gives (s t : State) (ev : OpEvent) (r : Run) (o : OpOut) : Prop :=
  t.work.wright ev.engine = { applyOut (struck (s.work.wright ev.engine) ev) o none with run := some { r with
    pc := r.pc + 1, params := o.params.foldl (fun ps (i, v) => ps.set i v) r.params, bounds := min 0xFFFF (r.bounds + o.bounds) } }
  ∧ t.mem = s.mem ∧ Within s t (fun h => { h with wrights := t.hub.wrights, ten := t.hub.ten, free := t.hub.free })

/-- A command is the operator of an opcode that gives what f says: wherever its step may issue, is free, starts no access of a device stream, and fails no check twice. -/
def Operates (c : OpEvent → Instr) (op : Nat) (f : Op → OpOut) : Prop :=
  ∀ (s : State) (ev : OpEvent) (r : Run), s.CanIssue ev.engine op r → ev.twice = none → (f (s.opAt ev r)).access = none →
    s.Free ev r (f (s.opAt ev r)) → Does (c ev) s fun t => s.Gives t ev r (f (s.opAt ev r))

/-- The commands of the catalogue with their opcodes (R212). -/
def catalogue : List ((OpEvent → Instr) × Nat) :=
  [(.add, 0x10), (.sub, 0x11), (.mul, 0x12), (.fma, 0x13), (.div, 0x14), (.max, 0x15), (.min, 0x16), (.abs, 0x17), (.neg, 0x18), (.scale, 0x19), (.clamp, 0x1A),
   (.cmpOp, 0x1B), (.sel, 0x1C), (.bitop, 0x1D), (.shift, 0x1E), (.fill, 0x1F)]
  ++ [(.exp, 0x20), (.exp2, 0x21), (.log, 0x22), (.recip, 0x23), (.sqrt, 0x24), (.rsqrt, 0x25), (.tanh, 0x26), (.sigmoid, 0x27), (.gelu, 0x28), (.silu, 0x29)]
  ++ [(.rsum, 0x30), (.rsumsq, 0x31), (.rmax, 0x32), (.rmin, 0x33), (.ramax, 0x34), (.rdot, 0x35), (.softmax, 0x38), (.rmsnorm, 0x39), (.layernorm, 0x3A), (.rope, 0x3B)]
  ++ [(.cvt, 0x40), (.quant, 0x41), (.dequant, 0x42), (.requant, 0x43), (.nzmask, 0x44), (.gather, 0x48), (.scatter, 0x49), (.scatterAdd, 0x4A), (.compact, 0x4B),
      (.topk, 0x50), (.argmax, 0x51), (.matvec, 0x58), (.vecmat, 0x59), (.gateOperator, 0x5E)]

end Sys2Proof.Machine
end

