-- ==== Sys2Proof/Certificates/Slice0/Obligations.lean ====
section
/-! DEFINITION. The statements for the provers. -/

open Sys2Proof Sys2Proof.Machine

/-! ## Site links (02) -/

/-- R35, R38, R62, R66, R541, R574: the steps of a site's start that a command alone brings, and what ends a start. In turn the rail rises and SITE_PG follows; SITE_RST_N is released with the rail good and step 2 begins; the sideband comes up and step 3 begins; the bundle clocks lock and step 5 begins with no wire test in; the bundles are deskewed and step 8 begins. Of the state only the site and the emissions change. A start ends, with the cause that SLINK_STAT shows: the rail does not rise (11) or falls (20), no sideband or no capability record comes in time (1). The site is absent, in reset, its rail off; other sites, and every block but those that reports change, are as before. -/
def Obligations.SiteStart : Prop :=
  let gone (s t : State) (n cause : Nat) : Prop :=
    (t.work.site n).state = 0 ∧ (t.work.site n).cause = cause ∧ (t.work.site n).power.pwrEn = false ∧ (t.work.site n).power.rstN = false
    ∧ Within s t (fun h => { h with sites := t.hub.sites }) ∧ ∀ m, m ≠ n → t.work.site m = s.work.site m
  (∀ s n, (s.work.site n).power.pwrEn = true → Does (.vcsPgRise n) s fun t =>
    t.work.site n = { s.work.site n with power := { (s.work.site n).power with vcsPg := true, pgOut := true } }
    ∧ t.hub.sent = .pin (.sitePg n) true :: s.hub.sent
    ∧ Exactly s t (fun h => { h with sites := t.hub.sites, sent := t.hub.sent }) ∧ ∀ m, m ≠ n → t.work.site m = s.work.site m)
  ∧ (∀ s n, s.work.atStep n 1 = true → (s.work.site n).power.vcsPg = true → Does (.siteRstNRelease n) s fun t =>
    t.work.site n = { s.work.site n with power := { (s.work.site n).power with rstN := true }, link := { (s.work.site n).link with step := 2 } }
    ∧ t.hub.sent = .pin (.siteRstN n) true :: s.hub.sent
    ∧ Exactly s t (fun h => { h with sites := t.hub.sites, sent := t.hub.sent }) ∧ ∀ m, m ≠ n → t.work.site m = s.work.site m)
  ∧ (∀ s n, s.work.atStep n 2 = true → Does (.sidebandUp n) s fun t =>
    t.work.site n = { s.work.site n with link := { (s.work.site n).link with step := 3 } }
    ∧ Exactly s t (fun h => { h with sites := t.hub.sites }) ∧ ∀ m, m ≠ n → t.work.site m = s.work.site m)
  ∧ (∀ s n, s.work.atStep n 4 = true → Does (.bundleClockLock n) s fun t =>
    t.work.site n = { s.work.site n with link := { (s.work.site n).link with step := 5, wireDone := false, wireGot := [] } }
    ∧ Exactly s t (fun h => { h with sites := t.hub.sites }) ∧ ∀ m, m ≠ n → t.work.site m = s.work.site m)
  ∧ (∀ s n, s.work.atStep n 7 = true → Does (.deskewDone n) s fun t =>
    t.work.site n = { s.work.site n with link := { (s.work.site n).link with step := 8 } }
    ∧ Exactly s t (fun h => { h with sites := t.hub.sites }) ∧ ∀ m, m ≠ n → t.work.site m = s.work.site m)
  ∧ (∀ s n, s.work.atStep n 1 = true → (s.work.site n).power.vcsPg = false → (s.work.site n).inEntry = none → Does (.vcsPgTimeout n) s fun t => gone s t n 11)
  ∧ (∀ s n, s.work.atStep n 2 = true → (s.work.site n).inEntry = none → Does (.sidebandTimeout n) s fun t => gone s t n 1)
  ∧ (∀ s n, s.work.atStep n 3 = true → (s.work.site n).inEntry = none → Does (.lmCapTimeout n) s fun t => gone s t n 1)
  ∧ ∀ s n, (s.work.site n).state = 6 → (s.work.site n).inEntry = none → (s.work.site n).port.initGot = false → Does (.vcsPgFall n) s fun t => gone s t n 20 ∧ (t.work.site n).power.vcsPg = false

/-- R59-R63, R66, R67, R75: the reports of a site's start: a good capability record fixes the options that both ends offer, and step 4 begins; a wire test and a report of a half are noted until all have come; the acknowledgement of a spare map is noted, a missing one puts its bundle out with cause 4; clean test frames bring the bundle layer up, and step 9 begins with INIT sent. -/
def Obligations.SiteStartReports : Prop :=
  (∀ s n record, s.work.atStep n 3 = true → capFault record = 0 → Does (.lmCap n record) s fun t =>
    (t.work.site n).link.step = 4 ∧ (t.work.site n).port.cap = record % 2 ^ 512
    ∧ (t.work.site n).port.coh = (bit record 160 && (s.work.site n).port.offerCoh)
    ∧ (t.work.site n).port.token = (bit record 161 && s.work.offersToken n)
    ∧ (t.work.site n).port.helm = (bit record 162 && (s.work.site n).port.offerHelm)
    ∧ Exactly s t (fun h => { h with sites := t.hub.sites, sent := t.hub.sent }))
  ∧ (∀ s n, s.work.atStep n 5 = true → (s.work.site n).link.wireGot.length < 16 → Does (.wireTestDone n []) s fun t =>
    t.work.site n = { s.work.site n with link := { (s.work.site n).link with wireDone := true } }
    ∧ Exactly s t (fun h => { h with sites := t.hub.sites }))
  ∧ (∀ s n r, s.work.atStep n 5 = true → r.bundle < 8 → (s.work.site n).link.wireDone = false → Does (.lmWireResult n r) s fun t =>
    (r.bundle * 2 + r.half) ∈ (t.work.site n).link.wireGot ∧ (t.work.site n).link.step = 5
    ∧ Exactly s t (fun h => { h with sites := t.hub.sites }))
  ∧ (∀ s n k half, s.work.atStep n 6 = true → k < (s.work.site n).link.bundles.length → Does (.lmSparemapAck n k half) s fun t =>
    (halfOf (t.work.bundle n k) half).acked = true ∧ Exactly s t (fun h => { h with sites := t.hub.sites }))
  ∧ (∀ s n k half, s.work.atStep n 6 = true → k < (s.work.site n).link.bundles.length → (halfOf (s.work.bundle n k) half).acked = false → (s.work.bundle n k).out = false →
    Does (.lmSparemapAckTimeout n k half) s fun t =>
      (t.work.bundle n k).out = true ∧ (t.work.bundle n k).outCause = 4 ∧ Within s t (fun h => { h with sites := t.hub.sites }))
  ∧ ∀ s n, s.work.atStep n 8 = true → (∃ i < 8, (s.work.bundle n i).out = false) → (∃ i < 8, (s.work.bundle n (8 + i)).out = false) →
    Does (.idleFrameTestDone n []) s fun t =>
      (t.work.site n).link.step = 9 ∧ (t.work.site n).port.initSent = true ∧ (t.work.site n).state = 6
      ∧ Exactly s t (fun h => { h with sites := t.hub.sites, sent := t.hub.sent })

/-- R53, R56-R58: an idle frame that acknowledges takes the frames up to its ACK_SEQ out of the retry buffer; an acknowledgement owed at its deadline leaves in an idle frame; a retrain request, and a frame that no acknowledgement has come for, retrain their bundle where another of its direction carries traffic. -/
def Obligations.SiteFrames : Prop :=
  (∀ s n k frame i, s.work.hears n k = true → frameGood frame = true → ftypeOf frame = 1 → ackValidOf frame = true → nakOf frame = false →
    (s.work.bundle n (ackBundleOf frame)).active = true → (s.work.bundle n (ackBundleOf frame)).retraining = false →
    (s.work.bundle n (ackBundleOf frame)).retry.findIdx? (fun f => decide (f.bseq = ackSeqOf frame)) = some i →
    (s.work.site n).link.txQueue = [] → (s.work.site n).link.resend = [] → ackBundleOf frame < (s.work.site n).link.bundles.length →
    Does (.idleFrame n k frame) s fun t =>
      t.work.bundle n (ackBundleOf frame) = { s.work.bundle n (ackBundleOf frame) with retry := (s.work.bundle n (ackBundleOf frame)).retry.drop (i + 1), nakRow := 0 }
      ∧ Exactly s t (fun h => { h with sites := t.hub.sites }))
  ∧ (∀ s n k o, s.work.hears n k = true → (s.work.bundle n k).ackOwed = true → ackBundle (s.work.site n).link k = some o → k < (s.work.site n).link.bundles.length →
    Does (.ackDeadline n k) s fun t =>
      (t.work.bundle n k).ackOwed = false
      ∧ t.hub.sent = .frame n o (frameBytes 1 0 (ackBits (((s.work.bundle n k).expBseq + 4095) % 4096) k (s.work.bundle n k).discarding) 0 []) :: s.hub.sent
      ∧ Exactly s t (fun h => { h with sites := t.hub.sites, sent := t.hub.sent }))
  ∧ ∀ s n k frame, s.work.hears n k = true → frameGood frame = true → ftypeOf frame = 2 → ackValidOf frame = false →
    (s.work.site n).link.limp = .off → siteServing (s.work.site n) = true → othersOf (s.work.site n).link k ≠ [] → (s.work.bundle n k).retry = [] →
    (s.work.site n).link.txQueue = [] → (s.work.site n).link.resend = [] → k < (s.work.site n).link.bundles.length →
    Does (.retrainRequestFrame n k frame) s fun t =>
      (t.work.bundle n k).retraining = true ∧ (t.work.bundle n k).retrainAcked = false ∧ Within s t (fun h => { h with sites := t.hub.sites })

/-- R58, R63, R68: retrains in service. An acknowledgement that does not come, and a request of either end, take the bundle out of use until it is acknowledged, its frames moved; the acknowledgement is noted; a missing one starts the retrain again, or past three in one second the bundle is out with cause 4; clean results send both spare maps. -/
def Obligations.SiteRetrains : Prop :=
  let able (s : State) (n k : Nat) : Prop := (s.work.bundle n k).active = true ∧ (s.work.bundle n k).retraining = false ∧ siteServing (s.work.site n) = true
    ∧ (s.work.site n).link.limp = .off ∧ othersOf (s.work.site n).link k ≠ []
  let retrains (s t : State) (n k : Nat) : Prop := (t.work.bundle n k).retraining = true ∧ (t.work.bundle n k).retrainAcked = false
    ∧ Out.sideband n 5 k ∈ t.hub.sent ∧ Within s t (fun h => { h with sites := t.hub.sites })
  (∀ s n k x, able s n k → (s.work.bundle n k).retry.any (fun f => f.bseq = x) = true →
    ((nakRate s.work.now (s.work.site n).link).1 + 1) * 1000000 ≤ (nakRate s.work.now (s.work.site n).link).2 →
    Does (.ackTimeout n k x) s fun t => retrains s t n k)
  ∧ (∀ s n k fromHub, able s n k → Does (.lmRetrainReq n k fromHub) s fun t => retrains s t n k)
  ∧ (∀ s n k, (s.work.bundle n k).retraining = true → Does (.lmRetrainAck n k) s fun t =>
    t.work.bundle n k = { s.work.bundle n k with retrainAcked := true } ∧ Exactly s t (fun h => { h with sites := t.hub.sites }))
  ∧ (∀ s n k, (s.work.bundle n k).retraining = true → (s.work.bundle n k).retrainAcked = false →
    (retrainsNow s.work.now (s.work.bundle n k)).length ≤ 3 → Does (.lmRetrainAckTimeout n k) s fun t => retrains s t n k)
  ∧ (∀ s n k, (s.work.bundle n k).retraining = true → (s.work.bundle n k).retrainAcked = false → (s.work.bundle n k).active = true →
    3 < (retrainsNow s.work.now (s.work.bundle n k)).length → (s.work.site n).link.limp = .off →
    1 < (activeBundles (s.work.site n).link (k < 8)).length → (s.work.site n).recal = none → Does (.lmRetrainAckTimeout n k) s fun t =>
      (t.work.bundle n k).out = true ∧ (t.work.bundle n k).outCause = 4 ∧ (t.work.site n).state = 2
      ∧ Within s t (fun h => { h with sites := t.hub.sites }))
  ∧ ∀ s n k, (s.work.bundle n k).retraining = true → (s.work.bundle n k).retrainAcked = true → (s.work.bundle n k).mapSent = false →
    s.work.halfDead n k 0 = false → s.work.halfDead n k 1 = false → (retrainsNow s.work.now (s.work.bundle n k)).length ≤ 3 →
    Does (.bundleRetrainDone n k []) s fun t =>
      t.work.bundle n k = { s.work.bundle n k with mapSent := true } ∧ Exactly s t (fun h => { h with sites := t.hub.sites, sent := t.hub.sent })

/-- R63, R70, R116: limp service. The acknowledgement of stage 0 opens the retrain at half rate, asked for bundle by bundle of those that are not out; its end names a clean bundle of each direction and asks again; the acknowledgement of stage 1 brings limp service, in each direction that was retrained only the kept bundle active; a missing acknowledgement makes the site dead with cause 19, in reset. -/
def Obligations.SiteLimp : Prop :=
  (∀ s n, (s.work.site n).link.limp = .ack0 → Does (.lmLimpAck n 0) s fun t =>
    (t.work.site n).link.limp = .retrain ∧ (∀ k < 16, (s.work.bundle n k).out = false → Out.sideband n 5 k ∈ t.hub.sent)
    ∧ Within s t (fun h => { h with sites := t.hub.sites }))
  ∧ (∀ s n, (s.work.site n).link.limp = .ack1 → Does (.lmLimpAck n 1) s fun t =>
    (t.work.site n).link.limp = .on ∧ ((s.work.site n).state ≠ 3 → (t.work.site n).state = 3 ∧ (t.work.site n).cause = (s.work.site n).link.limpCause)
    ∧ (∀ k < (s.work.site n).link.bundles.length, if (s.work.site n).link.limpDir = 2 ∨ (k < 8 ↔ (s.work.site n).link.limpDir = 0)
        then ((t.work.bundle n k).active = true ↔ k = (s.work.site n).link.limpTx ∨ k = (s.work.site n).link.limpRx)
        else (t.work.bundle n k).active = (s.work.bundle n k).active)
    ∧ Within s t (fun h => { h with sites := t.hub.sites }))
  ∧ (∀ s n, (s.work.site n).link.limp = .ack0 ∨ (s.work.site n).link.limp = .ack1 → siteServing (s.work.site n) = true → (s.work.site n).recal = none →
    (s.work.site n).port.tokIns = [] → (s.work.site n).port.tokQueue = [] → Does (.lmLimpAckTimeout n) s fun t =>
      (t.work.site n).state = 4 ∧ (t.work.site n).cause = 19 ∧ (t.work.site n).reclaiming = true ∧ (t.work.site n).power.rstN = false
      ∧ n ∈ t.hub.ledger.reclaiming)
  ∧ ∀ s n clean, (s.work.site n).link.limp = .retrain → (s.work.site n).link.limpDir = 2 →
    (∃ k < 8, k ∈ clean ∧ (s.work.bundle n k).out = false) → (∃ k < 8, k + 8 ∈ clean ∧ (s.work.bundle n (k + 8)).out = false) →
    Does (.limpRetrainDone n clean) s fun t =>
      (t.work.site n).link.limp = .ack1 ∧ (t.work.site n).link.limpTx < 8 ∧ (t.work.site n).link.limpTx ∈ clean
      ∧ 8 ≤ (t.work.site n).link.limpRx ∧ (t.work.site n).link.limpRx < 16 ∧ (t.work.site n).link.limpRx ∈ clean
      ∧ Exactly s t (fun h => { h with sites := t.hub.sites, sent := t.hub.sent, free := t.hub.free })

/-! ## Streams and routed tokens (03, 04) -/

/-- R55, R56, R79, R104-R107, R125-R127: what comes in a site's stream. A data frame in order moves the expected numbers and owes an acknowledgement (here its payload holds no message); a gate that passes the checks takes a free token record, its row to be zeroed; an answer to a token leaves the list and closes its rank as NULL or becomes a COMBINE; credits withheld block the site. -/
def Obligations.SiteStreams : Prop :=
  (∀ s n k frame, s.work.hears n k = true → frameGood frame = true → ftypeOf frame = 0 → ackValidOf frame = false →
    bseqOf frame = (s.work.bundle n k).expBseq → sseqOf frame = (s.work.site n).link.rxSseq →
    (s.work.site n).link.rxHeld = [] → (s.work.site n).link.rxBytes = [] → frame.getD 8 1 = 0 → k < (s.work.site n).link.bundles.length →
    Does (.dataFrame n k frame) s fun t =>
      t.work.bundle n k = { s.work.bundle n k with expBseq := ((s.work.bundle n k).expBseq + 1) % 4096, discarding := false, ackOwed := true, nakRow := 0 }
      ∧ (t.work.site n).link.rxSseq = ((s.work.site n).link.rxSseq + 1) % 65536 ∧ Exactly s t (fun h => { h with sites := t.hub.sites }))
  ∧ (∀ s n hdr body c tb i, streamUp (s.work.site n) = true → (s.work.site n).port.initGot = true → (s.work.site n).port.token = true →
    spend (s.work.site n).port.toChip { tokHdr := 1, tokData := hdr.beats } = some c → gateLenOk hdr = true →
    s.work.gateFault { hdr := hdr, logits := gateLogits hdr (slice body 0 (32 * hdr.beats)), payload := (slice body 0 (32 * hdr.beats)).drop (32 * logitBeats hdr), site := some n } = none →
    s.work.table hdr.table = some tb → tb.hdr.zeroRow = true → (s.work.bearing n).staging = [] → freeRec (s.work.bearing n) = some i →
    Does (.gate n hdr body) s fun t =>
      (tfind (t.work.bearing n).recs i).map (fun y => (y.table, y.row, y.phase)) = some (hdr.table, hdr.row, .zeroing))
  ∧ (∀ s n hdr payload c x, streamUp (s.work.site n) = true → (s.work.site n).port.initGot = true → (s.work.site n).port.token = true →
    spend (s.work.site n).port.toChip { tokHdr := 1, tokData := hdr.beats } = some c → outLenOk hdr = true → hdr.null = true →
    (s.work.site n).port.tokIns.find? (answersTok hdr) = some x → handleHub x.packet.token = s.work.hubId → Does (.tokOut n hdr payload) s fun t =>
      (t.work.site n).port.tokIns = (s.work.site n).port.tokIns.eraseP (answersTok hdr)
      ∧ (tfind t.hub.fabric.toks s.hub.fabric.nextId).map (fun p => (p.kind, p.cause, p.token)) = some (.close, 1, x.packet.token))
  ∧ (∀ s n hdr payload c x tb d, streamUp (s.work.site n) = true → (s.work.site n).port.initGot = true → (s.work.site n).port.token = true →
    spend (s.work.site n).port.toChip { tokHdr := 1, tokData := hdr.beats } = some c → outLenOk hdr = true → hdr.null = false → hdr.fmt = 0 ∨ hdr.fmt = 5 →
    (s.work.site n).port.tokIns.find? (answersTok hdr) = some x → handleHub x.packet.token = s.work.hubId → s.work.table x.packet.table = some tb →
    densePayload tb.hdr.ptype hdr.fmt tb.hdr.outBeats (slice payload 0 (32 * hdr.beats)) = some d → Does (.tokOut n hdr payload) s fun t =>
      (t.work.site n).port.tokIns = (s.work.site n).port.tokIns.eraseP (answersTok hdr)
      ∧ (tfind t.hub.fabric.toks s.hub.fabric.nextId).map (fun p => (p.kind, p.payload, p.token)) = some (.combine, d, x.packet.token))
  ∧ ∀ s n, streamUp (s.work.site n) = true → (s.work.site n).port.tokIns ≠ [] → (s.work.site n).port.tokQueue = [] →
    (s.work.site n).port.fromChip.tokHdr < (s.work.site n).port.granted.tokHdr → Does (.tokCreditWithholdTimeout n) s fun t =>
      (t.work.site n).port.tokWithheld = true ∧ Exactly s t (fun h => { h with sites := t.hub.sites })

/-- R126-R128, R133, R140: a staged gate takes a free record, its row to be zeroed; a row zeroed lets the token run; a token with room is counted and leaves the network; an expert output is handed to its Tally unit. -/
def Obligations.BearingTokens : Prop :=
  (∀ s b g r i tb, (s.work.bearing b).staging = g :: r → freeRec (s.work.bearing b) = some i → g.site = none → s.work.table g.hdr.table = some tb →
    s.work.gateFault g = none → tb.hdr.zeroRow = true → (s.work.bearing b).arriving = [] → Does (.gateStagingRelease b) s fun t =>
      (t.work.bearing b).staging = r ∧ (tfind (t.work.bearing b).recs i).map (fun y => (y.table, y.row, y.phase)) = some (g.hdr.table, g.hdr.row, .zeroing))
  ∧ (∀ s b i r tb, s.Current → tfind (s.work.bearing b).recs i = some r → r.phase = .zeroing → s.work.homePending (.bearing b) (recTag i) = false →
    s.work.table r.table = some tb → (r.ranks.any fun k => k.cause.isNone) = true →
    (s.work.writeDva (80 + b) tb.hdr.berth (rowAddr tb.hdr r.row) (List.replicate (ceilDiv (rowBytes tb.hdr) 128 * 128) 0)).1 = .ok [] [] →
    Does (.zeroRowDone b i .ok) s fun t => (tfind (t.work.bearing b).recs i).map (·.phase) = some .running)
  ∧ (∀ s id p tb, tfind s.hub.fabric.toks id = some p → p.kind = .dispatch → s.work.injected id = true → s.work.tokBehind id p = false → (s.work.bearing p.dst).out = false →
    s.work.replica p.dst p.table = some tb → handleHub p.token = s.work.hubId → (expertOf tb p.expert).kind = 1 ∨ (expertOf tb p.expert).kind = 2 →
    keeperOf (expertOf tb p.expert) = p.dst → (s.work.keeper p.dst p.table).passing = false → available tb p.expert = true →
    (capOf tb (expertOf tb p.expert)).all (fun c => tget 0 (s.work.keeper p.dst p.table).counts p.expert < c) = true →
    s.work.hostBlocked (expertOf tb p.expert) = false → ((expertOf tb p.expert).kind = 1 → siteServing (s.work.site (expertOf tb p.expert).site) = true) →
    Does (.dispatch id) s fun t =>
      tget 0 (t.work.keeper p.dst p.table).counts p.expert = min 0xFFFFFFFF (tget 0 (s.work.keeper p.dst p.table).counts p.expert + 1)
      ∧ t.hub.fabric.toks = tdel s.hub.fabric.toks id)
  ∧ ∀ s id p tb, tfind s.hub.fabric.toks id = some p → p.kind = .combine → s.work.injected id = true → s.work.tokBehind id p = false → (s.work.bearing p.dst).out = false →
    s.work.rankOpen p = true → s.work.table p.otable = some tb → p.payload.length = 32 * tb.hdr.outBeats →
    (((s.work.onFabric fun f => { f with toks := tdel f.toks id, aged := rmv f.aged id }).onRec (handleEngine p.token) (handleRec p.token) fun r =>
      { r with ranks := r.ranks.modify p.rank fun k => { k with remote := false } }).probe (80 + p.dst) tb.hdr.berth
      (rowAddr tb.hdr p.row + if tb.hdr.cmode = 1 then p.rank * slotBytes tb.hdr else 0) (slotBytes tb.hdr) true).1 = .ok [] [] →
    Does (.combine id) s fun t => tfind (t.work.bearing p.dst).combining id = some { packet := p }

/-- R134, R138, R140-R146: an output summed closes its rank as OK at the origin; a CLOSE closes the rank with its cause while others of its token stay open; the outcome record written frees the token record; a bounced rank is no longer timed and closes by the origin's policy; a remote rank that is not closed in time closes with cause 7; a defer pass that has read its entries and held nothing ends. -/
def Obligations.BearingEnds : Prop :=
  (∀ s id b p tb, s.Current → s.hub.bearings.findSome? (fun (j, y) => (tfind y.combining id).map fun c => (j, c.packet)) = some (b, p) →
    s.work.homePending (.bearing b) (combTag id) = false → s.work.table p.otable = some tb → s.work.rankOpen p = true →
    (s.work.tallyCombine b tb.hdr p).1 = some 0 → handleHub p.token = s.work.hubId → Does (.tallyCombineDone id .ok) s fun t =>
      (t.work.bearing b).combining = tdel (s.work.bearing b).combining id
      ∧ (tfind t.hub.fabric.toks s.hub.fabric.nextId).map (fun q => (q.kind, q.cause, q.token)) = some (.close, 0, p.token))
  ∧ (∀ s id p r, tfind s.hub.fabric.toks id = some p → p.kind = .close → s.work.injected id = true → s.work.tokBehind id p = false → (s.work.bearing p.dst).out = false → s.work.rankOpen p = true →
    tfind (s.work.bearing (handleEngine p.token)).recs (handleRec p.token) = some r →
    (r.ranks.zipIdx.any fun (k, j) => k.cause.isNone && decide (j ≠ p.rank)) = true → Does (.close id) s fun t =>
      (tfind (t.work.bearing (handleEngine p.token)).recs (handleRec p.token)).map (fun y => (y.ranks.getD p.rank {}).cause) = some (some p.cause)
      ∧ t.hub.fabric.toks = tdel s.hub.fabric.toks id)
  ∧ (∀ s b i r tb, s.Current → tfind (s.work.bearing b).recs i = some r → r.phase = .outcome → s.work.homePending (.bearing b) (recTag i) = false →
    s.work.table r.table = some tb → (s.work.writeDva (80 + b) tb.hdr.berth (tb.hdr.outcomeBase + r.row * 32) (outcomeRecord r)).1 = .ok [] [] →
    Does (.outcomeRecordDone b i .ok) s fun t => (t.work.bearing b).recs = tdel (s.work.bearing b).recs i)
  ∧ (∀ s id p tb, tfind s.hub.fabric.toks id = some p → p.kind = .bounce → s.work.injected id = true → s.work.tokBehind id p = false → (s.work.bearing p.dst).out = false → s.work.rankOpen p = true →
    s.work.replica (handleEngine p.token) p.otable = some tb → tb.hdr.policy = 0 → handleHub p.token = s.work.hubId → Does (.bounce id) s fun t =>
      (tfind (t.work.bearing (handleEngine p.token)).recs (handleRec p.token)).map (fun y => (y.ranks.getD p.rank {}).remote) = some false
      ∧ (tfind t.hub.fabric.toks s.hub.fabric.nextId).map (fun q => (q.kind, q.cause)) = some (.close, if available tb p.expert then 2 else 5))
  ∧ (∀ s b i k r x, tfind (s.work.bearing b).recs i = some r → r.ranks[k]? = some x → x.remote = true → x.cause = none →
    (r.ranks.zipIdx.any fun (y, j) => y.cause.isNone && decide (j ≠ k)) = true → Does (.remoteTimeout b i k) s fun t =>
      (tfind (t.work.bearing b).recs i).map (fun y => (y.ranks.getD k {}).cause) = some (some 7))
  ∧ ∀ s b n, (s.work.keeper b n).passing = true → (s.work.keeper b n).held = [] → (s.work.keeper b n).todo = 0 → Does (.deferPassEnd b n) s fun t =>
    t.work.keeper b n = { s.work.keeper b n with passing := false } ∧ Exactly s t (fun h => { h with bearings := t.hub.bearings })

/-- R120-R124, R132, R406: the commands on tables. An image in host memory that passes every check is installed; an update that passes its checks is taken by one replica after another, each step of the command one, with no other replica touched, and completes with the sixteenth; availability, flush, removal and round act on the installed table; each but the removal, which waits for its records, completes with status OK. -/
def Obligations.BearingTables : Prop :=
  (∀ s e x n i h es, s.Issued e x 0x08 → s.HostReads e x 256 → bits (s.hostWord e x 256) 59 48 ≤ 1024 → n = 256 + 16 * bits (s.hostWord e x 256) 59 48 →
    s.HostReads e x n → i = s.hostWord e x n → h = tabHdrOf i →
    es = (List.range h.nexp).map (fun j => expEntryOf (bits i (2048 + 128 * j + 127) (2048 + 128 * j))) →
    bits i 15 0 = 1 → h.berth = e.berth → e.berth < 4096 → s.hub.board.berthsHigh = true → es.all s.work.entryIdent = true →
    es.all (s.work.entryOwned e.berth) = true → s.work.holder 6 (bits i 23 16) = some e.berth → s.work.table (bits i 23 16) = none →
    s.work.tableShape h es = true → s.work.tableStore + 256 + 16 * h.nexp ≤ 2 ^ 20 → Does (.bearingInstall e) s fun t =>
      t.work.table (bits i 23 16) = some { hdr := h, experts := es } ∧ s.Completes t e x 0 0 0)
  ∧ (∀ s e x tb n es, s.Issued e x 0x09 → s.work.holder 6 (bits x.word 263 256) = some e.berth → s.work.table (bits x.word 263 256) = some tb → tb.removing = false →
    tb.upd = none → (∀ y ∈ s.hub.tables, y.2.upd = none) → n = bits x.word 287 276 → bits x.word 275 264 + n ≤ tb.experts.length → s.HostReads e x (16 * n) →
    es = (List.range n).map (fun j => expEntryOf (bits (s.hostWord e x (16 * n)) (128 * j + 127) (128 * j))) →
    es.all s.work.entryIdent = true → es.all (s.work.entryOwned e.berth) = true → es.all s.work.entryShape = true → es.all (fun y => y.kind ≠ 3) = true →
    Does (.bearingUpdate e) s fun t =>
      t.work.table (bits x.word 263 256) = some { tb with upd := some { first := bits x.word 275 264, experts := es, done := 1, entry := e } }
      ∧ ∀ b, t.work.replica b (bits x.word 263 256) = some (if b < 1 then { t.work.table (bits x.word 263 256) |>.getD {} with experts := replaceRun tb.experts (bits x.word 275 264) es }
          else t.work.table (bits x.word 263 256) |>.getD {}))
  ∧ (∀ s e n tb u, s.work.updating e = some n → s.work.table n = some tb → tb.upd = some u → u.done + 1 < 16 → Does (.bearingUpdate e) s fun t =>
      t.work.table n = some { tb with upd := some { u with done := u.done + 1 } } ∧ Exactly s t (fun h => { h with tables := t.hub.tables, bearings := t.hub.bearings }))
  ∧ (∀ s e x n tb u, s.work.updating e = some n → s.work.table n = some tb → tb.upd = some u → u.done = 15 → u.entry = e →
    s.work.started e = some x → (s.work.ring e.berth e.ring).px2 = false → bit x.word 15 = false → bit x.word 13 = false → Does (.bearingUpdate e) s fun t =>
      t.work.table n = some { tb with upd := none, experts := replaceRun tb.experts u.first u.experts } ∧ s.Completes t e x 0 0 0)
  ∧ (∀ s e x tb, s.Issued e x 0x0A → s.work.holder 6 (bits x.word 263 256) = some e.berth → s.work.table (bits x.word 263 256) = some tb → tb.removing = false →
    bits x.word 275 264 + bits x.word 287 276 ≤ tb.experts.length → Does (.bearingAvail e) s fun t =>
      (t.work.table (bits x.word 263 256)).map (fun y => { y with unavailable := [] }) = some { tb with unavailable := [] }
      ∧ (∀ i, i ∈ ((t.work.table (bits x.word 263 256)).getD {}).unavailable ↔
        if bits x.word 275 264 ≤ i ∧ i < bits x.word 275 264 + bits x.word 287 276 then bit x.word 288 = false else i ∈ tb.unavailable)
      ∧ s.Completes t e x 0 0 0)
  ∧ (∀ s e x tb, s.Issued e x 0x0B → s.work.holder 6 (bits x.word 263 256) = some e.berth → s.work.table (bits x.word 263 256) = some tb → tb.removing = false →
    Does (.bearingFlush e) s fun t => (∀ b < 16, (t.work.keeper b (bits x.word 263 256)).ring = []) ∧ s.Completes t e x 0 0 (s.work.deferredOf (bits x.word 263 256)))
  ∧ (∀ s e x tb, s.Issued e x 0x0C → s.work.holder 6 (bits x.word 263 256) = some e.berth → s.work.table (bits x.word 263 256) = some tb → tb.removing = false →
    tb.upd = none → Does (.bearingRemove e) s fun t =>
      t.work.table (bits x.word 263 256) = some { tb with removing := true, removeEntry := some e, aborted := s.work.deferredOf (bits x.word 263 256) }
      ∧ ∀ b < 16, (t.work.keeper b (bits x.word 263 256)).ring = [])
  ∧ ∀ s e x tb, s.Issued e x 0x0D → s.work.holder 6 (bits x.word 263 256) = some e.berth → s.work.table (bits x.word 263 256) = some tb → tb.removing = false →
    (∀ b < 16, (s.work.keeper b (bits x.word 263 256)).ring = []) → Does (.bearingRound e) s fun t =>
      (∀ b < 16, t.work.keeper b (bits x.word 263 256) = { s.work.keeper b (bits x.word 263 256) with round := ((s.work.keeper b (bits x.word 263 256)).round + 1) % 2 ^ 32, counts := [], ring := [], todo := 0 })
      ∧ s.Completes t e x 0 0 0

/-! ## The site protocol (03) -/

/-- R77, R78, R82, R84, R537: the start of the protocol. An INIT that agrees is taken with its grants, and 64 echoes go out; none in time makes the site absent with cause 5; the last echo brings Full service; a missing echo at a start makes it absent with cause 7; a CREDIT adds to what the hub may send, up to the grants. -/
def Obligations.SiteProtocolStart : Prop :=
  (∀ s n m, streamUp (s.work.site n) = true → (s.work.site n).port.initGot = false → initOk (s.work.site n).port m = true → Does (.initMsg n m) s fun t =>
    (t.work.site n).port.initGot = true ∧ (t.work.site n).port.granted = m.grants ∧ (t.work.site n).port.fromChip = m.grants ∧ (t.work.site n).port.echoLeft = 64
    ∧ Exactly s t (fun h => { h with sites := t.hub.sites, sent := t.hub.sent }))
  ∧ (∀ s n, (s.work.site n).state = 6 → (s.work.site n).link.step = 9 → (s.work.site n).port.initGot = false → (s.work.site n).inEntry = none → Does (.initTimeout n) s fun t =>
    (t.work.site n).state = 0 ∧ (t.work.site n).cause = 5 ∧ (t.work.site n).power.pwrEn = false ∧ Within s t (fun h => { h with sites := t.hub.sites }))
  ∧ (∀ s n d, streamUp (s.work.site n) = true → (s.work.site n).state = 6 → (s.work.site n).port.initGot = true → d ∈ (s.work.site n).port.echoes →
    (s.work.site n).port.echoLeft = 1 → ((s.work.site n).link.bundles.any fun b => b.out) = false → (s.work.site n).inEntry = none → Does (.echoRsp n d) s fun t =>
      (t.work.site n).state = 1 ∧ (t.work.site n).cause = 0 ∧ (t.work.site n).port.echoes = (s.work.site n).port.echoes.erase d
      ∧ t.mem = s.mem ∧ Within s t (fun h => { h with sites := t.hub.sites }))
  ∧ (∀ s n, streamUp (s.work.site n) = true → (s.work.site n).state = 6 → (s.work.site n).port.echoes ≠ [] → (s.work.site n).inEntry = none → Does (.echoTimeout n) s fun t =>
    (t.work.site n).state = 0 ∧ (t.work.site n).cause = 7 ∧ (t.work.site n).power.pwrEn = false ∧ (t.work.site n).power.rstN = false ∧ (t.work.site n).link = {}
    ∧ (t.work.site n).port = freshPort (s.work.site n).port)
  ∧ ∀ s n c, streamUp (s.work.site n) = true → (s.work.site n).port.initGot = true → (s.work.site n).port.snpQueue = [] → (s.work.site n).port.tokQueue = [] →
    Does (.credit n c) s fun t =>
      (t.work.site n).port.fromChip = capCredits (s.work.site n).port.granted (addCredits (s.work.site n).port.fromChip c)
      ∧ Exactly s t (fun h => { h with sites := t.hub.sites })

/-- R86-R97, R278, R286, R347-R352: requests and answers. One by device virtual address whose page the port's TLB holds, and whose leaf allows it, enters the fabric with its kind, tag, berth and the translated address; UPGRADE, WB_DIRTY and EVICT_CLEAN enter by their physical address. The tag is outstanding, memory as before. Answers leave the fabric for their site: the message is put into the stream, in a frame of its own (the model's choice, log 18) on the next bundle that takes one, and the tag is free. -/
def Obligations.SiteRequests : Prop :=
  let admits (s : State) (n op : Nat) (q : ReqHdr) : Prop := streamUp (s.work.site n) = true ∧ (s.work.site n).port.initGot = true
    ∧ (isCohOp op = true → (s.work.site n).port.coh = true) ∧ (spend (s.work.site n).port.toChip (reqCost op q.size)).isSome = true ∧ malformed op q = none
    ∧ q.fence = false ∧ (s.work.site n).port.held = [] ∧ s.work.siteHeld n q.berth = true
  let enters (s t : State) (n op : Nat) (q : ReqHdr) (dpa : Nat) : Prop :=
    (tfind t.hub.fabric.reqs s.hub.fabric.nextId).map (fun r => (r.agent, r.kind, r.tag, r.berth, r.dpa)) = some (.site n, kindOf op, q.tag, q.berth, dpa)
    ∧ (t.work.site n).port.outstanding = (s.work.site n).port.outstanding ++ [{ tag := q.tag, berth := q.berth, opcode := op, line := q.addr / 128, seq := (s.work.site n).port.reqSeq }]
    ∧ (t.work.site n).port.held = [] ∧ t.mem = s.mem
  let ready (s : State) (n k : Nat) : Prop := streamUp (s.work.site n) = true ∧ (s.work.site n).link.txQueue = [] ∧ (s.work.site n).link.resend = []
    ∧ (s.work.site n).link.limp = .off ∧ windowOpen (s.work.site n).link = true ∧ nextBundle (s.work.site n).link = some k ∧ (s.work.bundle n (k + 8)).ackOwed = false
    ∧ (s.work.site n).port.held = [] ∧ (s.work.site n).port.hlmHeld = []
  let leaves (s t : State) (n id k : Nat) (r : Rsp) (m : List Byte) : Prop :=
    Out.frame n k (frameBytes 0 (s.work.bundle n k).nextBseq 0 (s.work.site n).link.txSseq m) ∈ t.hub.sent ∧ t.hub.fabric.rsps = tdel s.hub.fabric.rsps id
    ∧ (t.work.site n).port.outstanding = (s.work.site n).port.outstanding.eraseP (fun o => o.tag = r.tag && o.berth = r.berth)
    ∧ Exactly s t (fun h => { h with sites := t.hub.sites, sent := t.hub.sent, fabric := t.hub.fabric })
  (∀ s n q d op c tl, (op, c) ∈ [(0x10, Instr.rdNc n q), (0x11, .rdShared n q), (0x12, .rdUnique n q), (0x14, .wr n q d), (0x15, .wrPartial n q d), (0x16, .atomic n q d), (0x17, .reduce n q d)] →
    admits s n op q → s.work.pageHeld q.berth q.addr = false →
    s.hub.chart.tlb.find? (fun y => y.unit = n && y.berth = q.berth && y.base = q.addr / 2 ^ y.log2 * 2 ^ y.log2) = some tl →
    (s.work.leafCheck n q.berth q.addr tl.leaf tl.log2 { write := op = 0x14 || op = 0x15 || op = 0x16 || op = 0x17, coherent := isCohOp op }).1 = .ok tl.leaf (leafDpa tl.leaf tl.log2 q.addr) →
    bit tl.leaf 24 = false → isWindow (s.work.target (leafDpa tl.leaf tl.log2 q.addr)) = false →
    s.work.otStops (.site n) q.berth (leafDpa tl.leaf tl.log2 q.addr) (movesDown (kindOf op)) = false → Does c s fun t => enters s t n op q (leafDpa tl.leaf tl.log2 q.addr))
  ∧ (∀ s n q d op c, (op, c) ∈ [(0x13, Instr.upgrade n q), (0x18, .wbDirty n q d), (0x19, .evictClean n q)] → admits s n op q →
    isWindow (s.work.target q.addr) = false → (op = 0x13 → s.work.accessCheck q.berth q.addr = none ∧ s.work.otStops (.site n) q.berth q.addr false = false) → Does c s fun t => enters s t n op q q.addr)
  ∧ (∀ s n id k r, ready s n k → tfind s.hub.fabric.rsps id = some r → r.site = n → r.read = false → s.work.injected id = true → s.work.rspBehind id r = false → r.grant = 0 →
    Does (.cmp n id) s fun t => leaves s t n id k r (cmpBytes r.status r.tag r.berth r.detail))
  ∧ ∀ s n id k r, ready s n k → tfind s.hub.fabric.rsps id = some r → r.site = n → r.read = true → s.work.injected id = true → s.work.rspBehind id r = false → r.grant = 0 → r.data.length ≤ 256 →
    Does (.rdData n id) s fun t => leaves s t n id k r (rdDataBytes r.status r.tag r.berth r.grant r.fmt r.dpa r.data)

/-- R98-R103, R116: answers to snoops. Dirty data waits at its snoop; the last answer of a recall, FINAL I of the one sharer, frees the entry and the transaction; an answer that does not come makes the site dead with cause 16. -/
def Obligations.SiteSnoops : Prop :=
  (∀ s n stag d x, streamUp (s.work.site n) = true → (s.work.site n).port.initGot = true → (s.work.site n).port.coh = true → tfind (s.work.site n).port.snoops stag = some x →
    Does (.snpData n stag true d) s fun t =>
      tfind (t.work.site n).port.snoops stag = some { x with data := some (slice d 0 128) } ∧ Exactly s t (fun h => { h with sites := t.hub.sites }))
  ∧ (∀ s n stag x y e, streamUp (s.work.site n) = true → (s.work.site n).port.initGot = true → (s.work.site n).port.coh = true → tfind (s.work.site n).port.snoops stag = some x →
    x.host = false → (s.work.site n).port.snpQueue = [] → s.hub.ledger.txns = [(x.line, y)] → s.hub.ledger.entries = [(x.line, e)] → s.hub.ledger.waits = [] → s.hub.chart.holds = [] →
    y = { why := .recall, waiting := [n] } → e.st = .S → e.sharers = [n] → Does (.snpRsp n stag 0 false false) s fun t =>
      t.hub.ledger.txns = [] ∧ t.hub.ledger.entries = [] ∧ (t.work.site n).port.snoops = tdel (s.work.site n).port.snoops stag ∧ t.mem = s.mem)
  ∧ ∀ s n stag, (tfind (s.work.site n).port.snoops stag).isSome = true → siteServing (s.work.site n) = true → (s.work.site n).recal = none →
    (s.work.site n).port.tokIns = [] → (s.work.site n).port.tokQueue = [] → Does (.snoopTimeout n stag) s fun t =>
      (t.work.site n).state = 4 ∧ (t.work.site n).cause = 16 ∧ (t.work.site n).reclaiming = true ∧ (t.work.site n).power.rstN = false

/-- R108, R109, R245-R260: Helm operations of a site. MARK_ADD adds; MARK_WAIT past the value waits; MARK_READ is answered with the value; an arrival that is not the last counts; SEM_ACQUIRE takes units that are there, SEM_RELEASE gives them back; a pulse in does the bound action, a pulse owed goes out. -/
def Obligations.SiteHelm : Prop :=
  let takes (s : State) (n : Nat) (o : HlmOp) : Prop := streamUp (s.work.site n) = true ∧ (s.work.site n).port.initGot = true ∧ (s.work.site n).port.helm = true
    ∧ 0 < (s.work.site n).port.toChip.hlmHdr ∧ (s.work.site n).port.hlmHeld = [] ∧ s.work.unitPaused 2 = false ∧ o.release = false
  (∀ s n o, takes s n o → hlmOk 0 o = true → s.work.holder 2 o.object = some o.berth → (s.work.mark o.object).sat = false → (s.work.mark o.object).value + o.value ≤ 0xFFFFFFFF →
    Does (.markAdd n o) s fun t => (t.work.mark o.object).value = (s.work.mark o.object).value + o.value ∧ (t.work.mark o.object).sat = false)
  ∧ (∀ s n o, takes s n o → hlmOk 1 o = true → s.work.holder 2 o.object = some o.berth → (s.work.mark o.object).sat = false → (s.work.mark o.object).value < o.value →
    s.hub.helm.waiters.length < 16384 → Does (.markWait n o) s fun t =>
      t.hub.helm.waiters = s.hub.helm.waiters ++ [{ party := .site n o.tag o.berth, what := .mark o.object o.value, berth := o.berth }])
  ∧ (∀ s n o k, takes s n o → hlmOk 2 o = true → s.work.holder 2 o.object = some o.berth → (s.work.mark o.object).sat = false → (s.work.site n).link.txQueue = [] →
    (s.work.site n).link.resend = [] → (s.work.site n).link.limp = .off → windowOpen (s.work.site n).link = true → nextBundle (s.work.site n).link = some k →
    (s.work.bundle n (k + 8)).ackOwed = false → Does (.markRead n o) s fun t =>
      Out.frame n k (frameBytes 0 (s.work.bundle n k).nextBseq 0 (s.work.site n).link.txSseq (notifyBytes 0 o.tag o.berth (s.work.mark o.object).value)) ∈ t.hub.sent
      ∧ t.hub.helm = s.hub.helm)
  ∧ (∀ s n o, takes s n o → hlmOk 3 o = true → o.value = 1 → s.work.holder 3 o.object = some o.berth → (s.work.gate o.object).broken = false → (s.work.gate o.object).sentArrive = false →
    (s.work.gate o.object).count + 1 < (s.work.gate o.object).parties → Does (.gateArrive n o) s fun t =>
      (t.work.gate o.object).count = (s.work.gate o.object).count + 1 ∧ (t.work.gate o.object).gen = (s.work.gate o.object).gen)
  ∧ (∀ s n o, takes s n o → hlmOk 4 o = true → s.work.holder 4 o.object = some o.berth → 0 < o.value → o.value ≤ (s.work.sem o.object).count → (s.work.sem o.object).count ≤ (s.work.sem o.object).max →
    s.hub.helm.waiters = [] → Does (.semAcquire n o) s fun t => (t.work.sem o.object).count = (s.work.sem o.object).count - o.value)
  ∧ (∀ s n o, takes s n o → hlmOk 5 o = true → s.work.holder 4 o.object = some o.berth → 0 < (s.work.sem o.object).max → (s.work.sem o.object).count + o.value ≤ (s.work.sem o.object).max →
    s.hub.helm.waiters = [] → Does (.semRelease n o) s fun t => (t.work.sem o.object).count = (s.work.sem o.object).count + o.value)
  ∧ (∀ s n wire b, helmLive (s.work.site n) = true → tfind s.hub.helm.bindings (n * 64 + wire) = some b → b.action = 1 → s.work.helmPaused = false → s.work.holder 2 b.object = some b.berth →
    (s.work.mark b.object).sat = false → (s.work.mark b.object).value < 0xFFFFFFFF → Does (.eventWirePulse n wire) s fun t =>
      (t.work.mark b.object).value = (s.work.mark b.object).value + 1)
  ∧ ∀ s n wire b, helmLive (s.work.site n) = true → tfind s.hub.helm.bindings (n * 64 + 32 + wire) = some b → 0 < b.owed → Does (.outboundPulse n wire) s fun t =>
    tfind t.hub.helm.bindings (n * 64 + 32 + wire) = some { b with owed := b.owed - 1 } ∧ t.hub.sent = .pin (.eventWire n wire) true :: s.hub.sent
    ∧ Exactly s t (fun h => { h with helm := t.hub.helm, sent := t.hub.sent })

/-- R110-R113, R543: power and attention of a site. Telemetry is kept; a gap counts the site at PMAX; a report above the limit is logged and raised; a fault of severity below 3 is logged, leaving the site as it is, one of severity 3 kills it with cause 18; SITE_THERM_N brings a limit of 0 W, its release the Binnacle's limit again, its standing past 1 ms death with cause 17 and the rail off; SITE_ATTN_N is noted. -/
def Obligations.SitePower : Prop :=
  (∀ s n p tj self q, sidebandUp (s.work.site n) = true → Does (.sbTelem n p tj self q) s fun t =>
    t.work.site n = { s.work.site n with power := { (s.work.site n).power with power := p % 4096, tj := tj % 256, selfLimit := self, seq := q % 65536, atPmax := false } }
    ∧ Within s t (fun h => { h with sites := t.hub.sites }))
  ∧ (∀ s n, siteServing (s.work.site n) = true → Does (.telemetryGap n) s fun t =>
    t.work.site n = { s.work.site n with power := { (s.work.site n).power with atPmax := true } } ∧ Within s t (fun h => { h with sites := t.hub.sites }))
  ∧ (∀ s n, siteServing (s.work.site n) = true → (s.work.site n).power.limit < (s.work.site n).power.power → (s.hub.mlog.tail + 1) % 4096 ≠ s.hub.mlog.head →
    Does (.sitePowerOverLimit n) s fun t => t.hub.mlog.tail = (s.hub.mlog.tail + 1) % 4096 ∧ bits (tget 0 t.hub.mlog.store s.hub.mlog.tail) 31 16 = 0x800C ∧ Within s t id)
  ∧ (∀ s n sev code detail, sidebandUp (s.work.site n) = true → sev < 3 → (s.hub.mlog.tail + 1) % 4096 ≠ s.hub.mlog.head → Does (.sbFault n sev code detail) s fun t =>
    t.hub.mlog.tail = (s.hub.mlog.tail + 1) % 4096 ∧ bits (tget 0 t.hub.mlog.store s.hub.mlog.tail) 31 16 = code % 65536 ∧ Within s t id)
  ∧ (∀ s n code detail, siteServing (s.work.site n) = true → (s.work.site n).recal = none → (s.work.site n).port.tokIns = [] → (s.work.site n).port.tokQueue = [] →
    Does (.sbFault n 3 code detail) s fun t => (t.work.site n).state = 4 ∧ (t.work.site n).cause = 18 ∧ (t.work.site n).power.rstN = false)
  ∧ (∀ s n, sidebandUp (s.work.site n) = true → Does (.siteThermNAssert n) s fun t =>
    t.work.site n = { s.work.site n with power := { (s.work.site n).power with thermN := false, thermPending := true, limit := 0, limitCause := 2 } }
    ∧ t.hub.sent = .sideband n 0x10 (pack [(12, 0), (4, 2)]) :: s.hub.sent ∧ Exactly s t (fun h => { h with sites := t.hub.sites, sent := t.hub.sent }))
  ∧ (∀ s n, (s.work.site n).power.thermPending = true → (s.work.site n).power.thermN = false → siteServing (s.work.site n) = true → (s.work.site n).recal = none →
    (s.work.site n).port.tokIns = [] → (s.work.site n).port.tokQueue = [] → Does (.siteThermTimeout n) s fun t =>
      (t.work.site n).state = 4 ∧ (t.work.site n).cause = 17 ∧ (t.work.site n).power.rstN = false)
  ∧ (∀ s n, (s.work.site n).power.thermPending = true → sidebandUp (s.work.site n) = true → Does (.siteThermNRelease n) s fun t =>
    t.work.site n = { s.work.site n with power := { (s.work.site n).power with thermN := true, thermPending := false, limit := (s.work.siteLimit n).1, limitCause := (s.work.siteLimit n).2 } }
    ∧ Exactly s t (fun h => { h with sites := t.hub.sites, sent := t.hub.sent }))
  ∧ ∀ s n, Does (.siteAttnNAssert n) s fun t =>
    t.work.site n = { s.work.site n with power := { (s.work.site n).power with attnN := false } } ∧ Within s t (fun h => { h with sites := t.hub.sites })

/-! ## Packs and recipes (05, 06) -/

/-- R156, R157, R159, R406: an image in host memory that passes every check of R157 is installed under its number and PACK_INSTALL completes with status OK; PACK_REMOVE closes the descriptor to new reads. Of the hub only the packs, the issuing ring and what reports change have changed. -/
def Obligations.Packs : Prop :=
  (∀ s e x i n, s.Issued e x 0x10 → s.HostReads e x 64 → i = s.hostWord e x 64 → n = bits i 27 16 → bits i 15 0 = 1 → bits i 45 32 = e.berth → e.berth < 4096 →
    s.hub.board.berthsHigh = true → s.work.holder 7 n = some e.berth → tfind s.hub.packs n = none → packShape { berth := e.berth, word := i } = true →
    (∀ y ∈ s.hub.packs, y.2.berth = e.berth → packsMeet { berth := e.berth, word := i } y.2 = false) → Does (.packInstall e) s fun t =>
      tfind t.hub.packs n = some { berth := e.berth, word := i } ∧ (∀ m, m ≠ n → tfind t.hub.packs m = tfind s.hub.packs m) ∧ s.Completes t e x 0 0 0
      ∧ Within s t (fun h => { h with packs := t.hub.packs, ten := t.hub.ten }))
  ∧ ∀ s e x p n, s.Issued e x 0x11 → n = bits x.word 267 256 → s.work.holder 7 n = some e.berth → tfind s.hub.packs n = some p → p.removing = false →
    Does (.packRemove e) s fun t =>
      tfind t.hub.packs n = some { p with removing := true, removeEntry := some e } ∧ (∀ m, m ≠ n → tfind t.hub.packs m = tfind s.hub.packs m)
      ∧ Exactly s t (fun h => { h with packs := t.hub.packs, ten := t.hub.ten })

/-- R191, R192, R198, R201, R202, R410: an image that passes every check is installed; removal closes it; a launch goes to the end of its engine's queue; the head of the queue starts at step 0 with no loop open, its parameters read; RECIPE_STOP ends issue with STOPPED, LOADs discarded, and waits for the STOREs. -/
def Obligations.Recipes : Prop :=
  (∀ s e x k i r n, s.Issued e x 0x04 → s.HostReads e x 64 → k = s.hostWord e x 64 → s.HostReads e x (imageBytes k) → i = s.hostWord e x (imageBytes k) →
    r = recipeAt i → n = bits i 25 16 → bits i 15 0 = 1 → r.berth = e.berth → e.berth < 4096 → s.hub.board.berthsHigh = true → r.steps.all s.work.stepIdent = true →
    s.work.holder 5 n = some e.berth → (∀ st ∈ r.steps, stepObject st = none) → tfind s.hub.recipes n = none → recipeShape r = true → Does (.recipeInstall e) s fun t =>
      tfind t.hub.recipes n = some r ∧ (∀ m, m ≠ n → tfind t.hub.recipes m = tfind s.hub.recipes m) ∧ s.Completes t e x 0 0 0
      ∧ Within s t (fun h => { h with recipes := t.hub.recipes, ten := t.hub.ten }))
  ∧ (∀ s e x r n, s.Issued e x 0x05 → n = bits x.word 265 256 → s.work.holder 5 n = some e.berth → tfind s.hub.recipes n = some r → r.removing = false →
    Does (.recipeRemove e) s fun t =>
      tfind t.hub.recipes n = some { r with removing := true, removeEntry := some e } ∧ (∀ m, m ≠ n → tfind t.hub.recipes m = tfind s.hub.recipes m)
      ∧ Exactly s t (fun h => { h with recipes := t.hub.recipes, ten := t.hub.ten }))
  ∧ (∀ s e x g l r, s.Issued e x 0x02 → g = bits x.word 135 128 → g < 64 → (s.work.wright g).failed = false → s.work.holder 1 g = some e.berth → l = launchAt e x.word →
    tfind s.hub.recipes l.recipe = some r → r.berth = e.berth → r.removing = false → (r.serve = true ∨ bits x.word 381 352 = 0) → (s.work.wright g).out = false →
    (s.work.wright g).queue.length < 16 → ((s.work.wright g).queue ≠ [] ∨ l.startEn = false) → Does (.recipeLaunch e) s fun t =>
      t.work.wright g = { s.work.wright g with queue := (s.work.wright g).queue ++ [l] } ∧ (∀ y, y ≠ g → t.work.wright y = s.work.wright y)
      ∧ Exactly s t (fun h => { h with wrights := t.hub.wrights, ten := t.hub.ten }))
  ∧ (∀ s g l q r, (s.work.wright g).run = none → (s.work.wright g).queue = l :: q → (s.work.wright g).out = false → l.startFailed = 0 → (l.startEn = false ∨ l.startMet = true) →
    tfind s.hub.recipes l.recipe = some r → s.work.imageLost g l.recipe r = false → r.nparam = 0 → r.serve = false → Does (.recipeStart g) s fun t =>
      (∃ ps, ps.length = 64 ∧ t.work.wright g = { s.work.wright g with queue := q, resident := some l.recipe, run := some { launch := l, recipe := r, params := ps } })
      ∧ t.mem = s.mem ∧ Within s t (fun h => { h with wrights := t.hub.wrights, free := t.hub.free }))
  ∧ (∀ s g l q r d, (s.work.wright g).run = none → (s.work.wright g).queue = l :: q → (s.work.wright g).out = false → l.startFailed = 0 → (l.startEn = false ∨ l.startMet = true) →
    tfind s.hub.recipes l.recipe = some r → s.work.imageLost g l.recipe r = false → 0 < r.nparam → r.nparam ≤ 64 → r.serve = false →
    (s.work.readDva (wrightUnit g) l.berth l.param (8 * r.nparam) 1 (some (.wright g, 0))).1 = .ok d [] → Does (.recipeStart g) s fun t =>
      (t.work.wright g).queue = q ∧ (t.work.wright g).run.map (fun y => (y.launch, y.recipe, y.pc, y.loops)) = some (l, r, 0, [])
      ∧ (t.work.wright g).run.map (fun y => y.params.take r.nparam) = some (((chunks 8 d).map leNat).take r.nparam))
  ∧ ∀ s e x g r, s.Issued e x 0x03 → g = bits x.word 263 256 → g < 64 → (s.work.wright g).failed = false → s.work.holder 1 g = some e.berth → (s.work.wright g).run = some r →
    r.phase = .issue → r.current = none → (s.work.wright g).inbox = [] → (s.work.wright g).queue = [] → Does (.recipeStop e) s fun t =>
      (t.work.wright g).run.map (fun y => (y.phase, y.status, y.endStep)) = some (.ending, 1, r.pc) ∧ (t.work.wright g).stopEntries = (s.work.wright g).stopEntries ++ [e]
      ∧ (t.work.wright g).accesses = (s.work.wright g).accesses.filter (fun a => a.store) ∧ t.mem = s.mem

/-- R189, R194-R197, R248: control steps. NOP goes on; LOOP opens a loop or, with count 0, goes past its ENDLOOP; ENDLOOP goes back or closes it; FENCE waits for every earlier access; WAIT on a mark that has its value goes on, and a wait that is satisfied resumes issue; SIGNAL adds to its mark once no STORE is in flight; HALT ends issue with status OK, and with no access left the launch completes. -/
def Obligations.ControlSteps : Prop :=
  let goes (s t : State) (g : Nat) (r : Run) : Prop := t.work.wright g = { s.work.wright g with run := some r } ∧ (∀ y, y ≠ g → t.work.wright y = s.work.wright y)
    ∧ Exactly s t (fun h => { h with wrights := t.hub.wrights })
  let count (r : Run) : Nat := if bit (curStep r).mode 0 then r.params.getD (bits (curStep r).imm 5 0) 0 % 2 ^ 32 else bits (curStep r).imm 23 0
  (∀ s g r, s.CanIssue g 0x00 r → Does (.stepNop g) s fun t => goes s t g { r with pc := r.pc + 1 })
  ∧ (∀ s g r, s.CanIssue g 0x01 r → 0 < count r → Does (.loopStep g) s fun t => goes s t g { r with loops := r.loops ++ [(r.pc + 1, count r, 0)], pc := r.pc + 1 })
  ∧ (∀ s g r, s.CanIssue g 0x01 r → count r = 0 → Does (.loopStep g) s fun t => goes s t g { r with pc := skipLoop (r.recipe.steps.drop (r.pc + 1)) (r.pc + 1) 0 })
  ∧ (∀ s g r ls a n i, s.CanIssue g 0x02 r → r.loops = ls ++ [(a, n, i)] → i + 1 < n → Does (.endloop g) s fun t => goes s t g { r with loops := ls ++ [(a, n, i + 1)], pc := a })
  ∧ (∀ s g r ls a n i, s.CanIssue g 0x02 r → r.loops = ls ++ [(a, n, i)] → n ≤ i + 1 → Does (.endloop g) s fun t => goes s t g { r with loops := ls, pc := r.pc + 1 })
  ∧ (∀ s g r, s.CanIssue g 0x07 r → Does (.fenceStep g) s fun t => goes s t g { r with pc := if (s.work.wright g).accesses = [] then r.pc + 1 else r.pc })
  ∧ (∀ s g r m v, s.CanIssue g 0x05 r → s.work.helmPaused = false → (curStep r).mode = 0 → m = bits (curStep r).imm 11 0 → v = r.params.getD (curStep r).sb 0 % 2 ^ 32 →
    s.work.holder 2 m = some r.launch.berth → (s.work.mark m).sat = false → v ≤ (s.work.mark m).value → Does (.waitStep g) s fun t =>
      t.work.wright g = { s.work.wright g with run := some { r with pc := r.pc + 1, waitMet := none } } ∧ t.hub.helm = s.hub.helm ∧ t.mem = s.mem)
  ∧ (∀ s g r m v, s.CanIssue g 0x05 r → s.work.helmPaused = false → (curStep r).mode = 0 → m = bits (curStep r).imm 11 0 → v = r.params.getD (curStep r).sb 0 % 2 ^ 32 →
    s.work.holder 2 m = some r.launch.berth → (s.work.mark m).sat = false → (s.work.mark m).value < v → s.hub.helm.waiters.length < 16384 → Does (.waitStep g) s fun t =>
      t.work.wright g = { s.work.wright g with run := some { r with phase := .helm, waitMet := none } }
      ∧ t.hub.helm.waiters = s.hub.helm.waiters ++ [{ party := .wright g, what := .mark m v, berth := r.launch.berth }])
  ∧ (∀ s g r, (s.work.wright g).run = some r → r.phase = .helm → r.waitMet = some 0 → Does (.waitSatisfied g) s fun t =>
    goes s t g { r with pc := r.pc + 1, phase := .issue, waitMet := none })
  ∧ (∀ s g r m, s.CanIssue g 0x06 r → s.work.helmPaused = false → (curStep r).mode = 0 → m = bits (curStep r).imm 11 0 → (∀ a ∈ (s.work.wright g).accesses, a.store = false) →
    s.work.holder 2 m = some r.launch.berth → (s.work.mark m).sat = false → (s.work.mark m).value < 0xFFFFFFFF → s.hub.helm.waiters = [] → Does (.signalStep g) s fun t =>
      (t.work.mark m).value = (s.work.mark m).value + 1 ∧ t.work.wright g = { s.work.wright g with run := some { r with pc := r.pc + 1 } })
  ∧ (∀ s g r, s.CanIssue g 0x0F r → (s.work.wright g).accesses ≠ [] → Does (.halt g) s fun t =>
    goes s t g { r with phase := .ending, status := 0, endStep := r.pc, endLoops := r.loops.map fun (_, _, i) => i })
  ∧ ∀ s g r y, s.CanIssue g 0x0F r → (s.work.wright g).accesses = [] → r.current = none → r.launch.doneEn = false → r.launch.report = 0 → (s.work.wright g).draining = none →
    (s.work.wright g).queue = [] → s.work.started r.launch.entry = some y → (s.work.ring r.launch.entry.berth r.launch.entry.ring).px2 = false → bit y.word 15 = false → bit y.word 13 = false →
    Does (.halt g) s fun t => (t.work.wright g).run = none ∧ s.Completes t r.launch.entry y 0 0 0

/-- R186-R190, R194, R196: accesses. LOAD puts an access in flight, its vectors pending, and issue goes on; its data is written and its vectors pend no more; STORE takes its bytes at issue, and its writes are done at its completion. -/
def Obligations.AccessSteps : Prop :=
  let place (r : Run) (i : Nat) : Nat := streamPos r (streamOf r i)
  let span (r : Run) (i : Nat) : Nat × Nat := deviceSpan (streamOf r i).etype (streamOrigin r (streamOf r i)) (place r i) (curStep r).nv
  (∀ s g r d p, s.CanIssue g 0x03 r → (curStep r).mode = 0 → isMx (streamOf r (curStep r).sa).etype = false → place r (curStep r).sd % 128 = 0 → place r (curStep r).sa % 128 = 0 →
    (s.work.wright g).pend = [] → (s.work.probeSpans g r.launch.berth false [span r (curStep r).sa]).1 = .ok d p → Does (.loadStep g) s fun t =>
      (∃ a, (t.work.wright g).accesses = (s.work.wright g).accesses ++ [a] ∧ a.id = (s.work.wright g).nextAccess + 1 ∧ a.store = false
        ∧ (a.dva, a.len) = span r (curStep r).sa ∧ a.rows = [(place r (curStep r).sa, 0, false)] ∧ a.nv = (curStep r).nv ∧ a.base = place r (curStep r).sd
        ∧ ∀ v ∈ vecsOf (place r (curStep r).sd) (128 * (curStep r).nv), v ∈ (t.work.wright g).pend)
      ∧ (t.work.wright g).run = some { r with pc := r.pc + 1 } ∧ (t.work.wright g).mem = (s.work.wright g).mem)
  ∧ (∀ s g r a vs, s.Current → (s.work.wright g).run = some r → r.phase = .issue → (s.work.wright g).accesses = [a] → a.store = false → s.work.homePending (.wright g) a.id = false →
    (s.work.loadVecs g r.launch.berth a).1 = .ok vs → Does (.loadDataReturn g a.id .ok) s fun t =>
      t.work.wright g = { loadInto (s.work.wright g) a vs with accesses := [], pend := (s.work.wright g).pend.filter fun v => v ∉ a.vecs })
  ∧ (∀ s g r m d p ws, s.CanIssue g 0x04 r → (curStep r).pred = 0 → (curStep r).mode = 0 → 0 < (curStep r).nv → isMx (streamOf r (curStep r).sd).etype = false →
    place r (curStep r).sa % 128 = 0 → place r (curStep r).sd % 128 = 0 → m = s.work.wright g → m.pend = [] →
    ws = (List.range (curStep r).nv).map (fun v => (place r (curStep r).sd + 128 * v, localRead m (place r (curStep r).sa + 128 * v) 128, poisonIn m (place r (curStep r).sa + 128 * v) 128)) →
    (s.work.probeSpans g r.launch.berth true (ws.map fun y => (y.1, y.2.1.length))).1 = .ok d p → Does (.storeStep g) s fun t =>
      (∃ a, (t.work.wright g).accesses = m.accesses ++ [a] ∧ a.id = m.nextAccess + 1 ∧ a.store = true ∧ a.writes = ws)
      ∧ (t.work.wright g).run = some { r with pc := r.pc + 1 } ∧ (t.work.wright g).mem = m.mem)
  ∧ ∀ s g r a d p, s.Current → (s.work.wright g).run = some r → r.phase = .issue → (s.work.wright g).accesses = [a] → a.store = true → s.work.homePending (.wright g) a.id = false →
    (s.work.storeWrites g r.launch.berth a.writes).1 = .ok d p → Does (.storeComplete g a.id .ok) s fun t =>
      (t.work.wright g).accesses = [] ∧ (t.work.wright g).run = some r ∧ t.mem = (s.commit (s.work.storeWrites g r.launch.berth a.writes).2).mem

/-- R204, R206, R207: the service of an expert. INBOX makes the token of the lowest slot the current token and writes parameter words 60 to 63, or waits for one; ANSWER sends the output as a COMBINE to the token's origin and frees the slot; with no current token it goes on; tokens that wait for a SERVE recipe past the limit stall the engine. -/
def Obligations.ExpertService : Prop :=
  let takes (r : Run) (a : Nat) (p : Packet) : Run := { r with
    current := some p, currentSlot := a, pc := r.pc + 1, phase := .issue,
    params := (((r.params.set 60 a).set 61 p.expert).set 62 p.rank).set 63 (p.expert * (curStep r).imm % 2 ^ 64) }
  (∀ s g r a p q, s.CanIssue g 0x08 r → r.current = none → (s.work.wright g).waitingToks = [] → (s.work.wright g).inbox = (a, p) :: q → Does (.inbox g) s fun t =>
    t.work.wright g = { s.work.wright g with run := some (takes r a p) } ∧ Exactly s t (fun h => { h with wrights := t.hub.wrights }))
  ∧ (∀ s g r, s.CanIssue g 0x08 r → bit (curStep r).mode 0 = false → r.current = none → (s.work.wright g).waitingToks = [] → (s.work.wright g).inbox = [] → Does (.inbox g) s fun t =>
    t.work.wright g = { s.work.wright g with run := some { r with phase := .inbox } } ∧ Exactly s t (fun h => { h with wrights := t.hub.wrights }))
  ∧ (∀ s g r a p q, (s.work.wright g).run = some r → r.phase = .inbox → (s.work.wright g).inbox = (a, p) :: q → Does (.inboxTokenPresent g) s fun t =>
    t.work.wright g = { s.work.wright g with run := some (takes r a p) } ∧ Exactly s t (fun h => { h with wrights := t.hub.wrights }))
  ∧ (∀ s g r, s.CanIssue g 0x09 r → r.current = none → Does (.answer g) s fun t =>
    t.work.wright g = { s.work.wright g with run := some { r with pc := r.pc + 1 } } ∧ t.mem = s.mem ∧ Within s t (fun h => { h with wrights := t.hub.wrights }))
  ∧ (∀ s g r p tb a n, s.CanIssue g 0x09 r → r.current = some p → bit (curStep r).mode 0 = false → s.work.table p.table = some tb → handleHub p.token = s.work.hubId →
    n = 32 * tb.hdr.outBeats → a = streamPos r (streamOf r (curStep r).sa) → a % 128 = 0 → (s.work.wright g).pend = [] → (s.work.wright g).waitingToks = [] →
    Does (.answer g) s fun t =>
      (∃ y ∈ t.hub.fabric.toks, y.2 = { p with
        kind := .combine, fmt := 0, beats := tb.hdr.outBeats, payload := localRead (s.work.wright g) a n, poison := poisonIn (s.work.wright g) a n, dst := g / 4, hub := s.work.hubId })
      ∧ (t.work.wright g).inbox = tdel (s.work.wright g).inbox r.currentSlot ∧ (t.work.wright g).run = some { r with pc := r.pc + 1, current := none })
  ∧ ∀ s g, (s.work.wright g).run = none → (s.work.wright g).inbox ≠ [] → (s.work.wright g).waitingToks = [] → Does (.serveStallTimeout g) s fun t =>
    t.work.wright g = { s.work.wright g with
      stalled := true, full := (s.work.wright g).full || (decide (0 < (s.work.wright g).slots) && decide ((s.work.wright g).slots ≤ (s.work.wright g).inbox.length)) } ∧ Exactly s t (fun h => { h with wrights := t.hub.wrights })

/-! ## The operator catalogue (07) -/

/-- R221: arithmetic. Each operator gives its result wherever its step may issue: ADD, SUB, MUL, MAX, MIN of two sources, in INT8 as integers; FMA with one rounding; DIV; ABS and NEG; SCALE by IMM; CLAMP between SB and SC or the halves of IMM. -/
def Obligations.Arithmetic : Prop :=
  Operates .add 0x10 (fun c => c.arith2 (addVal c.rnd) (· + ·))
  ∧ Operates .sub 0x11 (fun c => c.arith2 (fun a b => addVal c.rnd a (negVal b)) (· - ·))
  ∧ Operates .mul 0x12 (fun c => c.arith2 mulVal (· * ·))
  ∧ Operates .max 0x15 (fun c => c.arith2 (if c.x then maxNum else maxVal) max)
  ∧ Operates .min 0x16 (fun c => c.arith2 (if c.x then minNum else minVal) min)
  ∧ Operates .fma 0x13 (fun c => let z := if c.x then c.src c.st.sc c.st.td c.n else c.c3
      c.elementwise [c.a, c.b, z] c.st.td fun j => c.enc (sumVal c.rnd [mulVal (c.a.val j) (c.b.val j), z.val j]))
  ∧ Operates .div 0x14 (fun c => c.elementwise [c.a, c.b] c.st.td fun j => c.enc (divVal (c.a.val j) (c.b.val j)))
  ∧ Operates .abs 0x17 (fun c => c.signOp absVal (fun i => (i.natAbs : Int)) fun a => a % signOf c.st.ta)
  ∧ Operates .neg 0x18 (fun c => c.signOp negVal (fun i => -i) fun a => a ^^^ signOf c.st.ta)
  ∧ Operates .scale 0x19 (fun c => c.elementwise (if c.x then [c.a, c.b] else [c.a]) c.st.td fun j =>
      c.enc (if c.x then addVal c.rnd (mulVal (c.a.val j) (f32 c.st.imm)) (c.b.val j) else mulVal (c.a.val j) (f32 c.st.imm)))
  ∧ Operates .clamp 0x1A (fun c => c.elementwise (if c.x then [c.a] else [c.a, c.b, c.c3]) c.st.td fun j =>
      if c.st.ta = 5 then c.int8 (min (max (c.a.int j) (c.b.int j)) (c.c3.int j))
      else if c.x then c.enc (minVal (maxVal (c.a.val j) (decodeElem 1 (bits c.st.imm 15 0))) (decodeElem 1 (bits c.st.imm 31 16)))
      else c.enc (minVal (maxVal (c.a.val j) (c.b.val j)) (c.c3.val j)))

/-- R199, R213, R217, R221: ADD of one vector of FP32 without a mask, element by element: each of the 32 elements of the result is the rounded sum of the elements of the sources, and no other byte of local memory changes. -/
def Obligations.AddElements : Prop :=
  ∀ s ev r g p, g = ev.engine → s.CanIssue g 0x10 r → ev.twice = none → (s.opAt ev r).aligned = true → (s.work.wright g).pend = [] → (curStep r).nv = 1 → (curStep r).ta = 0 →
    (curStep r).td = 0 → (curStep r).pred = 0 → p = (s.opAt ev r).pos (curStep r).sd → Does (.add ev) s fun t =>
      (∀ j < 32, leNat (localRead (t.work.wright g) (p + 4 * j) 4) = (s.opAt ev r).enc (addVal (s.opAt ev r).rnd ((s.opAt ev r).a.val j) ((s.opAt ev r).b.val j)) % 2 ^ 32)
      ∧ (∀ a n, a + n ≤ p → localRead (t.work.wright g) a n = localRead (s.work.wright g) a n)
      ∧ ∀ a n, p + 128 ≤ a → a + n ≤ localSize → localRead (t.work.wright g) a n = localRead (s.work.wright g) a n

/-- R222, R233: comparison, selection, bits, fill and masks of non-zero elements. -/
def Obligations.Logic : Prop :=
  Operates .cmpOp 0x1B (fun c => c.maskResult (if c.x then [c.a] else [c.a, c.b]) fun j =>
      cmpHolds (bits c.st.mode 2 0) (c.a.val j) (if c.x then (if c.st.ta = 5 then decodeElem 5 (bits c.st.imm 7 0) else f32 c.st.imm) else c.b.val j))
  ∧ Operates .sel 0x1C (fun c => c.matched (lanes c.st.ta) c.n
      (fun v => c.a.regs (v * lanes c.st.ta) (lanes c.st.ta) ++ c.b.regs (v * lanes c.st.ta) (lanes c.st.ta) ++ [(c.pos c.st.sc + v * lanes c.st.ta / 8, ceilDiv (lanes c.st.ta) 8)])
      (c.pos c.st.sd) (elemBit c.st.td) (eBits c.st.td) fun j => if bit (localBits c.m (c.pos c.st.sc) c.n) j then c.a.code j else c.b.code j)
  ∧ Operates .bitop 0x1D (fun c => c.elementwise [c.a, c.b] c.st.td fun j => match c.rnd with
      | 0 => c.a.code j &&& c.b.code j
      | 1 => c.a.code j ||| c.b.code j
      | 2 => c.a.code j ^^^ c.b.code j
      | _ => c.a.code j &&& (2 ^ eBits c.st.ta - 1 - c.b.code j))
  ∧ Operates .shift 0x1E (fun c => c.elementwise [c.a] c.st.td fun j => match c.rnd with
      | 0 => c.a.code j * 2 ^ bits c.st.imm 4 0 % 2 ^ eBits c.st.ta
      | 1 => c.a.code j / 2 ^ bits c.st.imm 4 0
      | _ => unsignedOf (eBits c.st.ta) (c.a.int j / ((2 ^ bits c.st.imm 4 0 : Nat) : Int)))
  ∧ Operates .fill 0x1F (fun c => c.matched (lanes c.st.td) (c.st.nv * lanes c.st.td) (fun _ => []) (c.pos c.st.sd) (elemBit c.st.td) (eBits c.st.td) fun j =>
      if c.x then (c.st.imm + j) % 2 ^ 32 else c.enc (f32 c.st.imm))
  ∧ Operates .nzmask 0x44 (fun c => c.maskResult [c.a] fun j => if c.x then c.a.code j ≠ 0 else !(c.a.val j).isZero)

/-- R230: CVT converts each element exactly and rounds it to TD under RND and SAT as R217 says; with TA = TD it copies bits. -/
def Obligations.Conversion : Prop :=
  Operates .cvt 0x40 (fun c => c.elementwise [c.a] c.st.td fun j => if c.st.ta = c.st.td then c.a.code j else c.enc (c.a.val j))

/-- R223, R224, R232: functions of one source, each value rounded once to the result's type; SILU with X is multiplied by SB; DEQUANT gives the scaled value. -/
def Obligations.Functions : Prop :=
  (∀ y ∈ [(Instr.exp, 0x20, expVal), (.exp2, 0x21, exp2Val), (.log, 0x22, logVal), (.recip, 0x23, recipVal), (.sqrt, 0x24, sqrtVal), (.rsqrt, 0x25, rsqrtVal),
      (.tanh, 0x26, tanhVal), (.sigmoid, 0x27, sigmoidVal), (.dequant, 0x42, fun v => v)], Operates y.1 y.2.1 fun c => c.unary y.2.2)
  ∧ Operates .gelu 0x28 (fun c => c.unary (geluVal c.x))
  ∧ Operates .silu 0x29 (fun c => c.elementwise (if c.x then [c.a, c.b] else [c.a]) c.st.td fun j =>
      c.enc (if c.x then mulVal (siluVal (c.a.val j)) (c.b.val j) else siluVal (c.a.val j)))

/-- R225-R229: reductions over the included elements, integers exact; row operators, whose statistics are of the included elements; ROPE rotates pairs. -/
def Obligations.Reductions : Prop :=
  Operates .rsum 0x30 (fun c => c.reduce .sum [c.a] (fun j => (c.a.val j, one32)) fun j => (c.a.int j, 1))
  ∧ Operates .rsumsq 0x31 (fun c => c.reduce .sum [c.a] (fun j => (c.a.val j, c.a.val j)) fun j => (c.a.int j, c.a.int j))
  ∧ Operates .rmax 0x32 (fun c => c.reduce .max [c.a] (fun j => (c.a.val j, one32)) fun j => (c.a.int j, 1))
  ∧ Operates .rmin 0x33 (fun c => c.reduce .min [c.a] (fun j => (c.a.val j, one32)) fun j => (c.a.int j, 1))
  ∧ Operates .ramax 0x34 (fun c => c.reduce .amax [c.a] (fun j => (c.a.val j, one32)) fun j => (c.a.int j, 1))
  ∧ Operates .rdot 0x35 (fun c => c.reduce .sum [c.a, c.b] (fun j => (c.a.val j, c.b.val j)) fun j => (c.a.int j, c.b.int j))
  ∧ Operates .softmax 0x38 (fun c => c.rowOp [c.a] fun row => if c.x then logSoftmaxRow c.rnd (row.map c.a.val) else softmaxRow (row.map c.a.val))
  ∧ Operates .rmsnorm 0x39 (fun c => c.rowOp (if c.x then [c.a, c.b] else [c.a]) fun row =>
      if row.any (fun j => (c.a.val j).isNan || (c.a.val j).isInf) then row.map fun _ => .nan
      else
        let q := rowSum (lanes c.st.ta) row fun j => (c.a.val j, c.a.val j)
        let r := rsqrtVal (v32 (divVal (addVal 0 q (mulVal (f32 c.st.imm) (countVal row))) (countVal row)))
        row.map fun j => if c.x then mulVal (v32 (mulVal (c.a.val j) r)) (c.b.val j) else v32 (mulVal (c.a.val j) r))
  ∧ Operates .layernorm 0x3A (fun c => c.rowOp (if c.x then [c.a, c.b, c.c3] else [c.a]) fun row =>
      if row.any (fun j => (c.a.val j).isNan || (c.a.val j).isInf) then row.map fun _ => .nan
      else
        let mean := v32 (divVal (rowSum (lanes c.st.ta) row fun j => (c.a.val j, one32)) (countVal row))
        let off (j : Nat) : Val := addVal 0 (c.a.val j) (negVal mean)
        let r := rsqrtVal (v32 (addVal 0 (v32 (divVal (rowSum (lanes c.st.ta) row fun j => (off j, off j)) (countVal row))) (f32 c.st.imm)))
        row.map fun j => if c.x then sumVal c.rnd [mulVal (v32 (mulVal (off j) r)) (c.b.val j), c.c3.val j] else v32 (mulVal (off j) r))
  ∧ Operates .rope 0x3B (fun c => c.elementwise [c.a, c.b] c.st.td fun j =>
      let i := j / 2 * 2
      if j % 2 = 0 then c.enc (sumVal c.rnd [mulVal (c.a.val i) (c.b.val i), negVal (mulVal (c.a.val (i + 1)) (c.b.val (i + 1)))])
      else c.enc (sumVal c.rnd [mulVal (c.a.val i) (c.b.val (i + 1)), mulVal (c.a.val (i + 1)) (c.b.val i)]))

/-- R231, R232, R234-R240: quantisation in blocks of 32; gathers and scatters, of a device stream by an access that the step puts in flight; compaction; the k best; matrix-vector products. -/
def Obligations.Moves : Prop :=
  let starts (c : OpEvent → Instr) (op : Nat) (f : Op → OpOut) : Prop :=
    ∀ (s : State) (ev : OpEvent) (r : Run) (a : Access) (spans : List (Nat × Nat)) (d : List Byte) (p : List Nat), s.CanIssue ev.engine op r → ev.twice = none →
      (f (s.opAt ev r)).access = some (a, spans) → s.Free ev r (f (s.opAt ev r)) →
      (s.work.probeSpans ev.engine r.launch.berth a.store (if a.store then a.writes.map fun y => (y.1, y.2.1.length) else spans)).1 = .ok d p → Does (c ev) s fun t =>
        (∃ packs todo, (t.work.wright ev.engine).accesses = (s.work.wright ev.engine).accesses ++ [{ a with id := (s.work.wright ev.engine).nextAccess + 1, packs := packs, todo := todo }])
        ∧ (t.work.wright ev.engine).run = some { r with pc := r.pc + 1, bounds := min 0xFFFF (r.bounds + (f (s.opAt ev r)).bounds) }
  Operates .quant 0x41 (fun c => c.quant c.a)
  ∧ Operates .requant 0x43 (fun c => c.quant c.a)
  ∧ Operates .gather 0x48 Op.gather ∧ starts .gather 0x48 Op.gather
  ∧ Operates .scatter 0x49 Op.scatter ∧ starts .scatter 0x49 Op.scatter
  ∧ Operates .scatterAdd 0x4A Op.scatterAdd
  ∧ Operates .compact 0x4B Op.compact
  ∧ Operates .topk 0x50 (fun c => c.topk (bits c.st.imm 7 0 + 1))
  ∧ Operates .argmax 0x51 (fun c => c.topk 1)
  ∧ Operates .matvec 0x58 (fun c => c.matrix true)
  ∧ Operates .vecmat 0x59 (fun c => c.matrix false)

/-- R194, R209: every command of the catalogue ends its recipe with MISALIGNED at its step where a stream does not lie as R194 asks, its earlier accesses left to complete; local memory, and every other engine, is as before. -/
def Obligations.OperatorsMisaligned : Prop :=
  ∀ y ∈ catalogue, ∀ (s : State) (ev : OpEvent) (r : Run), s.CanIssue ev.engine y.2 r → (s.opAt ev r).aligned = false → (s.work.wright ev.engine).accesses ≠ [] →
    Does (y.1 ev) s fun t =>
      t.work.wright ev.engine = { s.work.wright ev.engine with run := some { r with phase := .ending, status := 4, endStep := r.pc, endLoops := r.loops.map fun z => z.2.2 } }
      ∧ Exactly s t (fun h => { h with wrights := t.hub.wrights }) ∧ ∀ g, g ≠ ev.engine → t.work.wright g = s.work.wright g

/-- R208, R241: with no load pending, a GATE step waits, nothing changed, while the origin's gate staging is full; a gate that passes the checks of R125 takes a free token record there, and the step is done. -/
def Obligations.GateOperator : Prop :=
  (∀ s ev r g, g = ev.engine → s.CanIssue g 0x5E r → (s.opAt ev r).aligned = true → (s.work.wright g).pend = [] →
    8192 < stagedBeats (s.work.bearing (bits (curStep r).imm 4 0)) + ((s.opAt ev r).gate g r.launch.berth).hdr.beats → Does (.gateOperator ev) s fun t => t = s)
  ∧ ∀ s ev r g b y tb i, g = ev.engine → ev.twice = none → ev.upset = [] → s.CanIssue g 0x5E r → (s.opAt ev r).aligned = true → (s.work.wright g).pend = [] → (s.work.wright g).poison = [] →
    b = bits (curStep r).imm 4 0 → y = (s.opAt ev r).gate g r.launch.berth → stagedBeats (s.work.bearing b) + y.hdr.beats ≤ 8192 → s.work.gateFault y = none →
    s.work.table y.hdr.table = some tb → tb.hdr.zeroRow = true → (s.work.bearing b).staging = [] → freeRec (s.work.bearing b) = some i → Does (.gateOperator ev) s fun t =>
      (tfind (t.work.bearing b).recs i).map (fun z => (z.table, z.row, z.phase)) = some (y.hdr.table, y.hdr.row, .zeroing)
      ∧ (t.work.wright g).run = some { r with pc := r.pc + 1 }

/-! ## The Helm (08) -/

/-- R247, R253, R259, R268, R269, R406, R412: the commands of the Helm. With no waiter: a mark, gate or semaphore takes the values of its record, a mark that so reaches the THRESHOLD of its outbound binding owes a pulse for each step, a binding is made or removed, each completing with status OK; HELM_READ answers a mark's value and writes its record; the timeout of a gate breaks it with cause 6. -/
def Obligations.HelmCommands : Prop :=
  (∀ s e x r o, s.Issued e x 0x14 → s.work.helmPaused = false → r = bits x.word 255 128 → o = bits r 19 4 → bits r 1 0 = 0 → o < 4096 → bits r 33 20 = e.berth → s.work.holder 2 o = some e.berth →
    s.hub.helm.waiters = [] → (∀ k ∈ s.work.bindingsOf 2 o, bits r 95 64 < (tget {} s.hub.helm.bindings k).threshold) → Does (.helmConfig e) s fun t =>
      t.work.mark o = { value := bits r 95 64, sat := (s.work.mark o).sat && !bit r 96 } ∧ (∀ m, m ≠ o → t.work.mark m = s.work.mark m)
      ∧ s.Completes t e x 0 0 0 ∧ Within s t (fun h => { h with helm := t.hub.helm, ten := t.hub.ten }))
  ∧ (∀ s e x r o k b n, s.Issued e x 0x14 → s.work.helmPaused = false → r = bits x.word 255 128 → o = bits r 19 4 → bits r 1 0 = 0 → o < 4096 → bits r 33 20 = e.berth → s.work.holder 2 o = some e.berth →
    s.hub.helm.waiters = [] → s.work.bindingsOf 2 o = [k] → tfind s.hub.helm.bindings k = some b → b.threshold ≤ bits r 95 64 → b.step ≠ 0 →
    n = (bits r 95 64 - b.threshold) / b.step + 1 → b.owed + n ≤ 0xFFFF → Does (.helmConfig e) s fun t =>
      tfind t.hub.helm.bindings k = some { b with owed := b.owed + n, threshold := b.threshold + n * b.step } ∧ s.Completes t e x 0 0 0)
  ∧ (∀ s e x r o, s.Issued e x 0x14 → s.work.helmPaused = false → r = bits x.word 255 128 → o = bits r 19 4 → bits r 1 0 = 1 → o < 1024 → bits r 33 20 = e.berth → s.work.holder 3 o = some e.berth →
    s.work.hubBeyond (bits r 83 72) = false → (bit r 71 = true → bits r 70 64 ≠ 0) → bits r 70 64 ≤ 64 → (s.work.gate o).count = 0 → (s.work.gate o).next = 0 → Does (.helmConfig e) s fun t =>
      (t.work.gate o).parties = bits r 70 64 ∧ (t.work.gate o).upEn = bit r 71 ∧ (t.work.gate o).upHub = bits r 83 72 ∧ (t.work.gate o).upGate = bits r 93 84
      ∧ (t.work.gate o).acceptRemote = bit r 94 ∧ (t.work.gate o).timeout = bits r 111 96 ∧ (t.work.gate o).gen = 0 ∧ (t.work.gate o).count = 0 ∧ (t.work.gate o).broken = false
      ∧ (∀ g, g ≠ o → t.work.gate g = s.work.gate g) ∧ s.Completes t e x 0 0 0 ∧ Within s t (fun h => { h with helm := t.hub.helm, ten := t.hub.ten }))
  ∧ (∀ s e x r o, s.Issued e x 0x14 → s.work.helmPaused = false → r = bits x.word 255 128 → o = bits r 19 4 → bits r 1 0 = 2 → o < 512 → bits r 33 20 = e.berth → s.work.holder 4 o = some e.berth →
    bits r 79 64 ≤ bits r 95 80 → s.hub.helm.waiters = [] → Does (.helmConfig e) s fun t =>
      t.work.sem o = { count := bits r 79 64, max := bits r 95 80 } ∧ (∀ g, g ≠ o → t.work.sem g = s.work.sem g)
      ∧ s.Completes t e x 0 0 0 ∧ Within s t (fun h => { h with helm := t.hub.helm, ten := t.hub.ten }))
  ∧ (∀ s e x r k, s.Issued e x 0x15 → s.work.helmPaused = false → r = bits x.word 255 128 → bits r 4 0 < 16 → bit s.hub.board.sites (bits r 4 0) = true → s.work.siteHeld (bits r 4 0) e.berth = true → bits r 45 32 = e.berth →
    bindKind (bits r 5 5) (bits r 13 11) = some k → bits r 31 16 < helmObjects (k - 2) → s.work.holder k (bits r 31 16) = some e.berth → bits r 13 11 ≠ 0 → Does (.helmBind e) s fun t =>
      tfind t.hub.helm.bindings (bits r 4 0 * 64 + bits r 5 5 * 32 + bits r 10 6)
        = some { action := bits r 13 11, object := bits r 31 16, berth := e.berth, threshold := bits r 95 64, step := bits r 111 96 }
      ∧ s.Completes t e x 0 0 0 ∧ Within s t (fun h => { h with helm := t.hub.helm, ten := t.hub.ten }))
  ∧ (∀ s e x r, s.Issued e x 0x15 → s.work.helmPaused = false → r = bits x.word 255 128 → bits r 4 0 < 16 → bit s.hub.board.sites (bits r 4 0) = true → s.work.siteHeld (bits r 4 0) e.berth = true → bits r 45 32 = e.berth →
    bits r 13 11 = 0 → Does (.helmBind e) s fun t =>
      t.hub.helm.bindings = tdel s.hub.helm.bindings (bits r 4 0 * 64 + bits r 5 5 * 32 + bits r 10 6)
      ∧ s.Completes t e x 0 0 0 ∧ Within s t (fun h => { h with helm := t.hub.helm, ten := t.hub.ten }))
  ∧ (∀ s e x o, s.Issued e x 0x16 → s.work.helmPaused = false → o = bits x.word 275 260 → bits x.word 257 256 = 0 → s.work.holder 2 o = some e.berth → Does (.helmRead e) s fun t =>
    (s.work.portUp (s.work.funcOf e.berth).port = true → s.work.mayIssue (s.work.funcOf e.berth) = true →
      Out.hostWrite (s.work.funcOf e.berth) (bits x.word 191 128) (leBytes 32 (pack [(32, (s.work.mark o).value), (1, b2n (s.work.mark o).sat)])) ∈ t.hub.sent)
    ∧ s.Completes t e x 0 0 (s.work.mark o).value ∧ Within s t (fun h => { h with ten := t.hub.ten }))
  ∧ ∀ s g, (s.work.gate g).timeout ≠ 0 → (s.work.gate g).firstAt.isSome = true → (s.work.gate g).broken = false → (s.work.gate g).parties ≠ 0 → s.hub.helm.waiters = [] →
    Does (.gateTimeout g) s fun t => t.work.gate g = { s.work.gate g with broken := true, cause := 6 }

/-- R263-R266, R491, R559: messages between hubs that reach their gate. ARRIVE of the gate's generation counts one arrival; RELEASE releases the member that waits for it; BREAK and REJECT break the gate with the cause they carry; SLOWED marks the gates that stand with the slowed hub. While the Helm's microcode is being replaced, a message is held at its port behind those held before it. -/
def Obligations.HelmMessages : Prop :=
  let reaches (s : State) (p : Nat) (m : HelmMsg) : Prop := s.work.hportTrained p = true ∧ m.dstHub = s.work.hubId ∧ s.work.helmPaused = false
  (∀ s p m, reaches s p m → s.work.gateLive m.dstGate = true → (s.work.gate m.dstGate).acceptRemote = true → (s.work.gate m.dstGate).broken = false → m.gen = (s.work.gate m.dstGate).gen →
    (s.work.gate m.dstGate).sentArrive = false → (s.work.gate m.dstGate).count + 1 < (s.work.gate m.dstGate).parties → Does (.arriveMsg p m) s fun t =>
      (t.work.gate m.dstGate).count = (s.work.gate m.dstGate).count + 1 ∧ (m.srcHub, m.srcGate) ∈ (t.work.gate m.dstGate).remotes
      ∧ (t.work.gate m.dstGate).gen = (s.work.gate m.dstGate).gen ∧ Within s t (fun h => { h with helm := t.hub.helm }))
  ∧ (∀ s p m, reaches s p m → s.work.gateLive m.dstGate = true → (s.work.gate m.dstGate).broken = false → (s.work.gate m.dstGate).upEn = true → (s.work.gate m.dstGate).sentArrive = true →
    m.gen = (s.work.gate m.dstGate).gen → (s.work.gate m.dstGate).next < (s.work.gate m.dstGate).parties → s.hub.helm.waiters = [] → s.hub.helm.bindings = [] → s.hub.tables = [] →
    (s.work.gate m.dstGate).remotes = [] → Does (.releaseMsg p m) s fun t =>
      (t.work.gate m.dstGate).gen = ((s.work.gate m.dstGate).gen + 1) % 65536 ∧ (t.work.gate m.dstGate).count = (s.work.gate m.dstGate).next
      ∧ (t.work.gate m.dstGate).sentArrive = false ∧ (∀ at_, (s.work.gate m.dstGate).localAt = some at_ → (t.work.gate m.dstGate).lastWait = min 0xFFFFFFFF ((s.hub.now - at_) * 1200))
      ∧ Within s t (fun h => { h with helm := t.hub.helm, free := t.hub.free }))
  ∧ (∀ s p m c, c ∈ [Instr.breakMsg p m, .rejectMsg p m] → reaches s p m → (s.work.gate m.dstGate).broken = false → (s.work.gate m.dstGate).parties ≠ 0 → s.hub.helm.waiters = [] →
    Does c s fun t => t.work.gate m.dstGate = { s.work.gate m.dstGate with broken := true, cause := m.cause })
  ∧ (∀ s p m g, reaches s p m → (s.work.gate g).upEn = true → (s.work.gate g).upHub = m.srcHub → (tfind s.hub.helm.gates g).isSome = true → Does (.slowedMsg p m) s fun t =>
    t.work.gate g = { s.work.gate g with peerSlowed := true, slowedHub := m.srcHub } ∧ Within s t (fun h => { h with helm := t.hub.helm }))
  ∧ ∀ s p m k c, (k, c) ∈ [(0, Instr.arriveMsg p m), (1, .releaseMsg p m), (2, .breakMsg p m), (3, .rejectMsg p m), (4, .slowedMsg p m)] → s.work.hportTrained p = true → m.dstHub = s.work.hubId → s.work.helmPaused = true →
    Does c s fun t => Exactly s t (fun h => { h with helm := { h.helm with held := h.helm.held ++ [.msg k m] } })

/-! ## The fabric and the Ledger (09) -/

/-- R275, R276, R280, R297: links and networks. A good flit ends the row of failures of its link's direction, one that was due to be resent is so no more; a failed one is counted there and stands in the retry buffer, and the 16th in a row takes the link out, its flit first among those that the bundle resends; the routing tables re-formed, injection resumes; a message that has waited is served as priority 3. -/
def Obligations.FabricLinks : Prop :=
  (∀ s l d v q, l < 303 → d < 2 → v < 5 → q < 2 → l ∉ s.hub.fabric.linksOut → s.work.flitDue l d = none → Does (.fabricFlit l d v q) s fun t =>
    t.hub.fabric = { s.hub.fabric with failRow := tdel s.hub.fabric.failRow (2 * l + d) } ∧ Within s t (fun h => { h with fabric := t.hub.fabric, free := t.hub.free }))
  ∧ (∀ s l d v q, l < 303 → d < 2 → v < 5 → q < 2 → l ∉ s.hub.fabric.linksOut → s.work.flitDue l d = some v → Does (.fabricFlit l d v q) s fun t =>
    t.hub.fabric = { takeFlit s.hub.fabric l d with failRow := tdel s.hub.fabric.failRow (2 * l + d) } ∧ Within s t (fun h => { h with fabric := t.hub.fabric, free := t.hub.free }))
  ∧ (∀ s l d v, l < 303 → d < 2 → v < 5 → l ∉ s.hub.fabric.linksOut → s.work.flitDue l d = none ∨ s.work.flitDue l d = some v → tget 0 s.hub.fabric.failRow (2 * l + d) + 1 < 16 →
    (recent s.work.now 1000 (tget [] s.hub.fabric.failTimes (2 * l + d))).length < 1000 → Does (.fabricFlit l d v 2) s fun t =>
      tget 0 t.hub.fabric.failRow (2 * l + d) = tget 0 s.hub.fabric.failRow (2 * l + d) + 1 ∧ tfind t.hub.fabric.retry (2 * l + d) = some v
      ∧ t.hub.fabric.linksOut = s.hub.fabric.linksOut ∧ Within s t (fun h => { h with fabric := t.hub.fabric, free := t.hub.free }))
  ∧ (∀ s l d v, l < 303 → d < 2 → v < 5 → l ∉ s.hub.fabric.linksOut → s.work.flitDue l d = some v → 15 ≤ tget 0 s.hub.fabric.failRow (2 * l + d) → Does (.fabricFlit l d v 2) s fun t =>
    l ∈ t.hub.fabric.linksOut ∧ (tget [] t.hub.fabric.resend (2 * bundleOf l + d)).head? = some v)
  ∧ (∀ s k, s.hub.fabric.heldFrom = some k → Does .routingReformationDone s fun t =>
    t.hub.fabric = { s.hub.fabric with heldFrom := none, tables := routeTables s.work.lostBundles, resend := s.hub.fabric.resend.filter fun x => x.1 / 2 ∉ s.work.lostBundles } ∧ Within s t (fun h => { h with fabric := t.hub.fabric }))
  ∧ (∀ s id r, tfind s.hub.fabric.reqs id = some r → Does (.arbiterAgeing 0 id) s fun t =>
    tfind t.hub.fabric.reqs id = some { r with aged := true } ∧ Exactly s t (fun h => { h with fabric := t.hub.fabric }))
  ∧ (∀ s n l, n < 16 → Does (.arbiterAgeing 1 (16 * l + n)) s fun t =>
    (t.work.site n).port.snpQueue = (s.work.site n).port.snpQueue.map (fun x => if x.line = l then { x with aged := true } else x)
    ∧ Exactly s t (fun h => { h with sites := t.hub.sites }))
  ∧ ∀ s v id, v = 2 ∧ (∃ r, tfind s.hub.fabric.rsps id = some r ∧ r.read = false) ∨ v = 3 ∧ (∃ r, tfind s.hub.fabric.rsps id = some r ∧ r.read = true)
      ∨ v = 4 ∧ (tfind s.hub.fabric.toks id).isSome = true → Does (.arbiterAgeing v id) s fun t =>
    id ∈ t.hub.fabric.aged ∧ Exactly s t (fun h => { h with fabric := t.hub.fabric })

/-- R284, R286-R288: requests at the home of their line, no transaction open. A site's RD_NC of a line that no site holds goes on to its controller; RD_SHARED of such a line grants it to the site, in E, the transaction open until the grant is acknowledged; the acknowledgement closes it. -/
def Obligations.HomeRequests : Prop :=
  let comes (s : State) (id : Nat) (r : MemReq) : Prop := tfind s.hub.fabric.reqs id = some r ∧ r.atHome = false ∧ s.work.injected id = true ∧ s.work.reqBehind id r = false ∧ s.work.behind r = false
    ∧ s.work.homeFull (reqLine r) = false ∧ isHost (reqLine r * 128) = false ∧ sliceOf (reqLine r * 128) ∉ s.hub.fabric.deadSlices ∧ s.work.lineEntry (reqLine r) = none
    ∧ reqLine r ∉ s.hub.ledger.hostPoison ∧ s.hub.ledger.txns = [] ∧ s.hub.ledger.waits = [] ∧ tfind s.hub.ledger.hostTxns (reqLine r) = none ∧ s.hub.chart.holds = []
  (∀ s id r n, comes s id r → r.kind = .rdNc → r.agent = .site n → r.done = 0 → r.forwarded = [] → (partsOf 128 r.dpa r.bytes).length = 1 → Does (.homeRequest id 0) s fun t =>
    tfind t.hub.fabric.reqs s.hub.fabric.nextId = some { r with atHome := true, viaHome := true, prio := s.work.sendPrio { r with atHome := true, viaHome := true } } ∧ t.hub.ledger.txns = [] ∧ t.mem = s.mem)
  ∧ (∀ s id r n, comes s id r → r.kind = .rdShared → r.agent = .site n → r.shared = false → r.done = 0 →
    (s.hub.ledger.entries.filter fun y => ledgerSet y.1 = ledgerSet (reqLine r)).length < 16 - (s.hub.ledger.retired.filter fun y => y.1 = ledgerSet (reqLine r)).length → Does (.homeRequest id 0) s fun t =>
      t.work.lineEntry (reqLine r) = some { st := .EM, owner := n, slot := r.slot, gen := r.gen, born := s.hub.ledger.births }
      ∧ (t.work.txn (reqLine r)).map (fun x => (x.ackFrom, x.waiting)) = some (some n, [])
      ∧ tfind t.hub.fabric.reqs s.hub.fabric.nextId = some { r with atHome := true, viaHome := true, grant := 2, prio := s.work.sendPrio { r with atHome := true, viaHome := true } } ∧ t.mem = s.mem)
  ∧ ∀ s n l x, s.hub.ledger.txns = [(l, x)] → x.ackFrom = some n → x.placed = true → x.after = [] → s.hub.fabric.heldFrom = none → s.hub.ledger.hostTxns = [] → s.hub.ledger.waits = [] → s.hub.chart.holds = [] → Does (.grantAcknowledgement n l) s fun t =>
    t.hub.ledger = { s.hub.ledger with txns := [] } ∧ Exactly s t (fun h => { h with ledger := t.hub.ledger })

/-- R293, R294, R380: the host. A snoop of the host on a line that no site holds is answered at once without data; on a line that sites hold it waits for them; the host's answer to RD_SHARED enters memory and shares the line to its site; a request that the host has not answered leaves the line poisoned and is answered with status 1. -/
def Obligations.HostLines : Prop :=
  let snoops (k : Nat) (p l : Nat) : Instr := if k = 0 then .snpinv p l else if k = 1 then .snpdata p l else .snpcur p l
  (∀ s k p l, isHost (l * 128) = true → hostPort (l * 128) = p → tfind s.hub.ledger.hostTxns l = none → s.work.txn l = none → s.work.lineEntry l = none → s.hub.ledger.hostNext = [] → s.hub.ledger.waits = [] → s.hub.chart.holds = [] → k < 3 → Does (snoops k p l) s fun t =>
    t.hub.sent = .cacheSnoopRsp p (l * 128) false [] :: s.hub.sent ∧ t.hub.sites = s.hub.sites ∧ t.mem = s.mem)
  ∧ (∀ s k p l x hs, isHost (l * 128) = true → hostPort (l * 128) = p → tfind s.hub.ledger.hostTxns l = none → s.work.txn l = none → s.work.lineEntry l = some x → k < 3 →
    hs = (if k = 0 then holdersOf x else if x.st = .S then [] else [x.owner]) → hs ≠ [] → Does (snoops k p l) s fun t =>
      (tfind t.hub.ledger.hostTxns l).map (fun y => (y.why, y.waiting)) = some (.hostSnoop p k, hs) ∧ t.work.lineEntry l = some x ∧ t.mem = s.mem)
  ∧ (∀ s p l x r n data, s.hub.ledger.txns = [(l, x)] → x.why = .request r → x.hostWait = true → x.dirty = none → x.early = false → hostPort (l * 128) = p → isHost (l * 128) = true → r.kind = .rdShared →
    r.agent = .site n → r.shared = true → s.work.lineEntry l = none → s.hub.ledger.waits = [] → s.hub.chart.holds = [] → data.length = 128 → reqLine r = l → Does (.hostResponse p l false data) s fun t =>
      t.mem.bytes (l * 128) 128 = data ∧ t.work.lineEntry l = some { st := .S, sharers := [n], slot := r.slot, gen := r.gen, shared := true, host := 1, born := s.hub.ledger.births }
      ∧ (t.work.txn l).map (fun y => y.ackFrom) = some (some n)
      ∧ tfind t.hub.fabric.rsps s.hub.fabric.nextId = some { site := n, tag := r.tag, berth := r.berth, read := true, grant := 1, dpa := l * 128, line := l, data := data, src := s.work.answerEnd r, prio := reqPrio r })
  ∧ ∀ s p l x r n, s.hub.ledger.txns = [(l, x)] → x.why = .request r → x.hostWait = true → hostPort (l * 128) = p → isHost (l * 128) = true → (s.work.port p).state = 2 → r.kind = .rdShared →
    r.agent = .site n → r.done = 0 → s.work.lineEntry l = none → s.hub.ledger.waits = [] → s.hub.chart.holds = [] → s.hub.fabric.reqs = [] → Does (.hostTimeout p l) s fun t =>
      l ∈ t.hub.ledger.hostPoison ∧ t.hub.ledger.txns = [] ∧ l ∈ t.mem.poison
      ∧ (tfind t.hub.fabric.rsps s.hub.fabric.nextId).map (fun y => (y.site, y.tag, y.status)) = some (n, r.tag, 1)

/-! ## Memory (10, 11) -/

/-- R87-R93, R276, R315-R318, R321, R339: requests at their memory. Where none waits there, a write stores its bytes, an atomic and a reduction the value of their tables, each answered; a read is answered with the bytes under its key. One that waits there and is not the next stays as it is; a ready read of priority 3 at a channel comes before every write of another granule that is not the hub's own. -/
def Obligations.Controllers : Prop :=
  let served (s : State) (id : Nat) (r : MemReq) : Prop := tfind s.hub.fabric.reqs id = some r ∧ r.atHome = true ∧ s.work.injected id = true ∧ s.work.behind r = false
    ∧ r.queued = none ∧ s.work.memBehind id r = false ∧ (∀ x ∈ s.hub.fabric.reqs, x.2.queued = none) ∧ s.work.accessCheck r.berth r.dpa = none ∧ s.work.memBusy r.dpa = false ∧ isHost r.dpa = false ∧ isBoard r.dpa = false ∧ r.pack = none
  (∀ s id r n, served s id r → r.kind = .wr → r.agent = .site n → 0 < r.bytes → r.data.length = r.bytes → Does (.controllerRequest id 0) s fun t =>
    t.mem.bytes r.dpa r.bytes = r.data ∧ (∀ a, a < r.dpa ∨ r.dpa + r.bytes ≤ a → t.mem.byte a = s.mem.byte a)
    ∧ tfind t.hub.fabric.rsps s.hub.fabric.nextId = some { site := n, tag := r.tag, berth := r.berth, line := reqLine r, src := s.work.answerEnd r, prio := reqPrio r })
  ∧ (∀ s id r n, served s id r → r.kind = .rdNc → r.agent = .site n → r.grant = 0 → s.work.poisoned r.dpa r.bytes = false → Does (.controllerRequest id 0) s fun t =>
    tfind t.hub.fabric.rsps s.hub.fabric.nextId = some { site := n, tag := r.tag, berth := r.berth, read := true, line := reqLine r, data := s.mem.bytes r.dpa r.bytes, src := s.work.answerEnd r, prio := reqPrio r } ∧ t.mem = s.mem)
  ∧ (∀ s id r n, served s id r → r.kind = .atomic → r.agent = .site n → s.work.poisoned r.dpa r.bytes = false → 0 < r.bytes → Does (.controllerRequest id 0) s fun t =>
    t.mem.bytes r.dpa r.bytes = leBytes r.bytes (atomicValue (bits r.opspec 3 0) r.bytes (leNat (s.mem.bytes r.dpa r.bytes)) (leNat (slice r.data 0 r.bytes)) (leNat (slice r.data r.bytes r.bytes)))
    ∧ (tfind t.hub.fabric.rsps s.hub.fabric.nextId).map (fun y => y.data) = some (s.mem.bytes r.dpa r.bytes ++ List.replicate (32 - r.bytes) 0))
  ∧ (∀ s id err r, tfind s.hub.fabric.reqs id = some r → r.atHome = true → s.work.injected id = true → r.queued.isSome = true → s.work.refuses r = none →
    s.work.isNext r = false → Does (.controllerRequest id err) s fun t => t.mem = s.mem ∧ Exactly s t fun h => h)
  ∧ (∀ (s : State) c x r, x ∈ s.work.queueOf (.channel c) → r ∈ s.work.queueOf (.channel c) → s.work.memBusy x.dpa = false → isRead x = true → x.prio = 3 → isRead r = false → r.agent ≠ .hub →
    s.work.isNext r = false)
  ∧ ∀ s id r n, served s id r → r.kind = .reduce → r.agent = .site n → s.work.poisoned r.dpa r.bytes = false → bits r.opspec 4 2 < 4 → r.bytes % 8 = 0 → 0 < r.bytes → r.data.length = r.bytes →
    Does (.controllerRequest id 0) s fun t =>
      t.mem.bytes r.dpa r.bytes = tallyBytes r.opspec (s.mem.bytes r.dpa r.bytes) r.data
      ∧ (tfind t.hub.fabric.rsps s.hub.fabric.nextId).map (fun y => (y.site, y.tag, y.status)) = some (n, r.tag, 0)

/-- R306, R307, R309, R317, R324, R325, R601: channels. Granule k of a channel's share of a region lies on that channel. A read that has waited in its controller's queue rises one priority; a failed channel is isolated; a retrain brings the channel back at the rate it trained, or isolates it; refreshes only count; a hot report returns the channel to the base interval, its recovery to its profile. -/
def Obligations.Channels : Prop :=
  (∀ s id r, tfind s.hub.fabric.reqs id = some r → r.queued.isSome = true → isRead r = true → r.prio < 2 → Does (.readAgeing id) s fun t =>
    tfind t.hub.fabric.reqs id = some { r with prio := r.prio + 1 } ∧ Exactly s t (fun h => { h with fabric := t.hub.fabric }))
  ∧ (∀ s c, c < 128 → channelServes (s.work.channel c) = true → s.hub.memory.hold = [] → s.hub.helm.waiters = [] → Does (.channelFailure c) s fun t =>
    t.work.channel c = { s.work.channel c with isolated := true, retraining := false, draining := false } ∧ (∀ d, d ≠ c → t.work.channel d = s.work.channel d))
  ∧ (∀ s c rate r, (s.work.channel c).retraining = true → trainedRate s.hub.memory.rateRun rate = some r → Does (.channelRetrainDone c true rate) s fun t =>
    t.work.channel c = { s.work.channel c with retraining := false, rate := r } ∧ (∀ d, d ≠ c → t.work.channel d = s.work.channel d)
    ∧ Within s t (fun h => { h with memory := t.hub.memory, bwr := t.hub.bwr }))
  ∧ (∀ s c ok rate, c < 128 → (s.work.channel c).retraining = true → channelServes (s.work.channel c) = true → ok = false ∨ trainedRate s.hub.memory.rateRun rate = none → s.hub.memory.hold = [] → s.hub.helm.waiters = [] →
    Does (.channelRetrainDone c ok rate) s fun t => t.work.channel c = { s.work.channel c with isolated := true, retraining := false, draining := false })
  ∧ (∀ r c k, c < 128 → k < 2 ^ 15 → channelOf (granuleAt r c k * 256) = c)
  ∧ (∀ s c g, Does (.refresh c g) s fun t => t.mem = s.mem ∧ Within s t id)
  ∧ (∀ s c temp, Does (.deviceTemperatureReport c temp) s fun t =>
    t.work.channel c = { s.work.channel c with
      temp := temp, base1 := (s.work.channel c).base1 || decide (s.hub.memory.rfshTlimit < temp) || decide ((s.work.channel c).testTemp + 5 < temp) }
    ∧ Exactly s t (fun h => { h with memory := t.hub.memory }))
  ∧ ∀ s c, (s.work.channel c).temp + 3 ≤ s.hub.memory.rfshTlimit → (s.work.channel c).temp ≤ (s.work.channel c).testTemp + 2 → Does (.temperatureRecovery c) s fun t =>
    t.work.channel c = { s.work.channel c with base1 := false } ∧ Exactly s t (fun h => { h with memory := t.hub.memory })

/-- R302, R304, R328-R330, R332, R413: reloads and the Hold. A reload from host memory writes the whole block and is over; one whose origin is not read in time is over, memory as it was; RELOAD puts its blocks under reload; a Hold die that fails holds no line and its partitions are OFF; HOLD_PURGE drops every line of its berth. -/
def Obligations.Reloads : Prop :=
  (∀ s b o, s.hub.memory.reloads = [{ block := b, running := true, origin := o }] → o.board = false → s.work.portUp o.port = true → b = o.base / 65536 → o.base % 65536 = 0 →
    o.origin + 65536 ≤ 2 ^ 49 → s.work.poisoned (hostKey o.port o.origin) 65536 = false → isBoard (b * 65536) = true → Does (.reloadComplete b) s fun t =>
      t.hub.memory.reloads = [] ∧ ∀ i, i < 65536 → t.mem.byte (b * 65536 + i) = s.mem.byte (hostKey o.port o.origin + i))
  ∧ (∀ s b r, s.hub.memory.reloads = [r] → r.block = b → r.running = true → r.entry = none → Does (.reloadTimeout b) s fun t => t.hub.memory.reloads = [])
  ∧ (∀ s e x d n, s.Issued e x 0x1C → s.work.isManager e.berth = true → d = bits x.word 179 128 → n = bits x.word 287 256 → s.work.blocksInPool e d n = true → d % 65536 = 0 → 0 < n → n ≤ 16 →
    (∀ c < 128, channelServes (s.work.channel c) = true) → (∀ i < n, (s.work.originOf (d / 65536 + i)).isSome = true) → s.hub.memory.reloads = [] → Does (.reload e) s fun t =>
      t.hub.memory.reloads.map (fun r => (r.block, r.running, r.entry)) = (List.range n).map (fun i => (d / 65536 + i, true, some e)) ∧ t.mem = s.mem)
  ∧ (∀ s die, die < 3 → die ∉ s.hub.memory.diesOut → s.hub.memory.hold = [] → Does (.holdDieFailure die) s fun t =>
    die ∈ t.hub.memory.diesOut ∧ (∀ p, p / 16 = die → t.work.part p = {}) ∧ ∀ p, p / 16 ≠ die → t.work.part p = s.work.part p)
  ∧ ∀ s e x b, s.Issued e x 0x1D → s.work.isManager e.berth = true → b = bits x.word 269 256 → s.work.berthInPool e b = true → Does (.holdPurge e) s fun t =>
    b ∈ t.hub.memory.purging ∧ ∀ l, l ∈ t.hub.memory.hold ↔ l ∈ s.hub.memory.hold ∧ l.berth ≠ b

/-- R335-R338, R342-R344: guarantees. GUARANTEE_SET with a sum within nine tenths of the capacity records the guarantee and completes with status OK; the end of a window begins the next with nothing charged, and a backlogged window charged too little is a miss. -/
def Obligations.Guarantees : Prop :=
  (∀ s e x r g k q others, s.Issued e x 0x27 → s.work.isManager e.berth = true → r = bits x.word 383 128 → g = bits r 5 0 → k = resIndex (bits r 9 8) (bits r 11 10) → g ≠ 0 →
    s.work.itemInPool e 8 g = true → q = { guar := bits r 31 16, weight := bits r 39 32, mode := bits r 41 40, qshare := bits r 54 48, otMax := bits r 74 64, port := s.work.portOf e.berth } →
    guarShapeOk (bits r 9 8) (bits r 11 10) q.weight q.mode q.qshare q.otMax = true → others = (s.hub.bwr.recs.filter fun (y : Nat × Guar) => y.1 % 10 = k && y.1 ≠ g * 10 + k).map (fun y => y.2) →
    10000 * ((others.map fun y => y.guar).sum + q.guar) ≤ 9 * s.work.capacity k → queuesFit (q :: others) = true → q.guar ≠ 0 → Does (.guaranteeSet e) s fun t =>
      tfind t.hub.bwr.recs (g * 10 + k) = some q ∧ (∀ j, j ≠ g * 10 + k → tfind t.hub.bwr.recs j = tfind s.hub.bwr.recs j)
      ∧ s.Completes t e x 0 0 0 ∧ Within s t (fun h => { h with bwr := t.hub.bwr, ten := t.hub.ten }))
  ∧ (∀ s g k b o, g ≠ 0 → g < 64 → k < 10 → tfind s.hub.bwr.recs (g * 10 + k) = none → Does (.regulationWindowEnd { group := g, res := k, backlogged := b, otLimited := o }) s fun t =>
    t.hub.bwr.charged = tdel s.hub.bwr.charged (g * 10 + k) ∧ tget true t.hub.bwr.lastMiss (g * 10 + k) = false ∧ t.mem = s.mem ∧ Within s t (fun h => { h with bwr := t.hub.bwr }))
  ∧ ∀ s g k o q, g ≠ 0 → g < 64 → k < 10 → tfind s.hub.bwr.recs (g * 10 + k) = some q → s.work.capacity k ≠ 0 →
    256 * tget 0 s.hub.bwr.charged (g * 10 + k) < q.guar * 1000 * s.hub.bwr.window * (256 - s.hub.bwr.tol) →
    Does (.regulationWindowEnd { group := g, res := k, backlogged := true, otLimited := o }) s fun t =>
      tget false t.hub.bwr.lastMiss (g * 10 + k) = true ∧ t.hub.bwr.charged = tdel s.hub.bwr.charged (g * 10 + k)

/-! ## The Chart units (12) -/

/-- R347-R353, R364-R366: walks, roots, invalidations. A walk of a site port that finds a leaf fills the TLB; CHART_ROOT writes the root of a berth and drops its cached leaves; CHART_INVAL drops exactly the cached leaves in its scope, and awaits what runs under them. -/
def Obligations.ChartWalks : Prop :=
  (∀ s u b dva r leaf log2 a n es, (u, b, dva / 65536 * 65536) ∈ (s.hub.chart.pending.filter fun (v, c, p) => v = u && !s.work.pageHeld c p).take 16 → r = tget ({} : Root) s.hub.chart.roots b → r.valid = true →
    s.work.keyGone r.tableBerth r.tkgen = false → s.work.walkFrom r u b dva [0, 1, 2, 3, 4] r.l0 [] [] = (.leaf leaf log2 a, n, es) → s.work.classBad leaf = false → (s.work.site u).port.held = [] →
    Does (.walkComplete u b dva) s fun t =>
      { unit := u, berth := b, base := dva / 2 ^ log2 * 2 ^ log2, log2 := log2, leaf := leaf, addr := a } ∈ t.hub.chart.tlb
      ∧ (u, b, dva / 65536 * 65536) ∉ t.hub.chart.pending ∧ t.mem = s.mem ∧ Within s t (fun h => { h with chart := t.hub.chart, free := t.hub.free, memory := t.hub.memory, bwr := t.hub.bwr }))
  ∧ (∀ s e x r b, s.Issued e x 0x20 → s.work.isManager e.berth = true → r = bits x.word 383 128 → b = bits r 13 0 → s.work.berthThere b = true → s.work.berthThere (bits r 29 16) = true →
    s.work.berthInPool e b = true → s.work.berthInPool e (bits r 29 16) = true → bits r 115 64 % 8192 = 0 → (∃ g < 192, s.work.target (bits r 115 64) = .board g) → Does (.chartRoot e) s fun t =>
      tfind t.hub.chart.roots b = some { tableBerth := bits r 29 16, valid := bit r 30, tkgen := bits r 31 31, l0 := bits r 115 64 }
      ∧ (∀ y, y ∈ t.hub.chart.tlb ↔ y ∈ s.hub.chart.tlb ∧ y.berth ≠ b) ∧ Exactly s t (fun h => { h with chart := t.hub.chart, ten := t.hub.ten }))
  ∧ ∀ s e x r k, s.Issued e x 0x21 → s.work.isManager e.berth = true → r = bits x.word 383 128 → k = bits r 15 14 → (k ≠ 3 → s.work.berthInPool e (bits r 13 0) = true) →
    (k ≠ 2 → bits r 120 64 % 65536 = 0) → (k = 1 ∨ k = 3 → bits r 159 128 ≠ 0) → Does (.chartInval e) s fun t =>
      (∀ y, y ∈ t.hub.chart.tlb ↔ y ∈ s.hub.chart.tlb ∧ leafIn { kind := k, berth := bits r 13 0, start := bits r 120 64, len := if k = 0 then 65536 else bits r 159 128 * 65536 } y = false)
      ∧ (tfind t.hub.chart.invals s.hub.chart.nextInval).map (fun y => y.why) = some (.command e) ∧ Exactly s t (fun h => { h with chart := t.hub.chart, ten := t.hub.ten })

/-- R355, R363, R368, R441: pages. FLIP of a host page, MIGRATE and REKEY hold the page that the walk finds, drop its cached leaves and wait; the end of the copy frees the page, and its command completes, with the cause where the copy failed. -/
def Obligations.Pages : Prop :=
  let holds (s t : State) (e : EntryRef) (b : Nat) (y : Tlb) (op : PageOp) : Prop :=
    t.hub.chart.holds = s.hub.chart.holds ++ [{ berth := b, dva := y.base, log2 := y.log2, op := op, entry := e, leafAddr := y.addr, pa := leafDpa y.leaf y.log2 y.base }]
    ∧ ∀ z ∈ t.hub.chart.tlb, z.berth = b → rangesMeet z.base (2 ^ z.log2) y.base (2 ^ y.log2) = false
  (∀ s e x y, s.Issued e x 0x19 → s.work.pageHeld e.berth (bits x.word 184 128) = false → ((s.work.markRunning e).walk (129 + s.work.portOf e.berth) e.berth (bits x.word 184 128)).1 = some y →
    isHost (bits y.leaf 115 80 * 65536) = true → Does (.flip e) s fun t => holds s t e e.berth y (.flip (bit x.word 256)) ∧ t.mem = s.mem)
  ∧ (∀ s e x b y, s.Issued e x 0x1A → s.work.isManager e.berth = true → b = bits x.word 269 256 → s.work.berthInPool e b = true → bits x.word 271 270 < 3 →
    bits x.word 243 192 % 2 ^ pageLog2 (bits x.word 271 270) = 0 → s.work.pageHeld b (bits x.word 184 128) = false →
    ((s.work.markRunning e).walk (129 + s.work.portOf e.berth) b (bits x.word 184 128)).1 = some y → y.log2 = pageLog2 (bits x.word 271 270) → Does (.migrate e) s fun t =>
      holds s t e b y (.migrate (bits x.word 243 192)) ∧ t.mem = s.mem)
  ∧ (∀ s e x b y g, s.Issued e x 0x36 → s.work.isManager e.berth = true → b = bits x.word 269 256 → s.work.berthInPool e b = true → bits x.word 271 270 < 3 → g = bits x.word 272 272 →
    s.work.pageHeld b (bits x.word 184 128) = false → ((s.work.markRunning e).walk (129 + s.work.portOf e.berth) b (bits x.word 184 128)).1 = some y →
    y.log2 = pageLog2 (bits x.word 271 270) → isBoard (bits y.leaf 115 80 * 65536) = true → (leafKey b y.leaf).2 ≠ g → s.work.key (leafKey b y.leaf).1 g ≠ 0 → Does (.rekey e) s fun t =>
      holds s t e b y (.rekey g) ∧ t.mem = s.mem)
  ∧ (∀ s h x d o y, s.hub.chart.holds = [h] → h.op = .migrate d → h.phase = 2 → (o, x) ∈ [(XferEnd.targetDead, 8), (.denied, 3), (.unmapped, 2)] →
    s.work.started h.entry = some y → (s.work.ring h.entry.berth h.entry.ring).px2 = false → bit y.word 15 = false → bit y.word 13 = false → Does (.migrateCopyDone h.berth h.dva o) s fun t =>
      t.hub.chart.holds = [] ∧ s.Completes t h.entry y x 0 0)
  ∧ ∀ s h d y, s.hub.chart.holds = [h] → h.op = .migrate d → h.phase = 2 → h.log2 = 16 → s.mem.poison = [] → s.work.accessCheck h.berth h.pa = none → s.work.accessCheck h.berth d = none →
    s.work.started h.entry = some y → (s.work.ring h.entry.berth h.entry.ring).px2 = false → bit y.word 15 = false → bit y.word 13 = false → Does (.migrateCopyDone h.berth h.dva .ok) s fun t =>
      t.hub.chart.holds = [] ∧ s.Completes t h.entry y 0 0 0

/-- R358, R359, R361, R362, R571: windows and the hot table. WINDOW_SET opens a window, or closes one and invalidates what lies in it; WINDOW_IMPORT makes or removes an import; the end of an epoch clears the counts and sources, and the next epoch begins. -/
def Obligations.Windows : Prop :=
  (∀ s e x r, s.Issued e x 0x22 → s.work.isManager e.berth = true → r = bits x.word 383 128 → bit r 28 = true → s.work.hubBeyond (bits r 19 8) = false → bits r 88 64 ≠ 0 → bits r 88 64 ≤ 2 ^ 24 →
    Does (.windowSet e) s fun t =>
      tfind t.hub.chart.windows (bits r 7 0) = some { hub := bits r 19 8, imp := bits r 27 20, len := bits r 88 64 } ∧ (∀ i, i ≠ bits r 7 0 → tfind t.hub.chart.windows i = tfind s.hub.chart.windows i)
      ∧ s.Completes t e x 0 0 0 ∧ Within s t (fun h => { h with chart := t.hub.chart, ten := t.hub.ten }))
  ∧ (∀ s e x r, s.Issued e x 0x22 → s.work.isManager e.berth = true → r = bits x.word 383 128 → bit r 28 = false → Does (.windowSet e) s fun t =>
    t.hub.chart.windows = tdel s.hub.chart.windows (bits r 7 0) ∧ (tfind t.hub.chart.invals s.hub.chart.nextInval).map (fun y => y.why) = some (.ends e)
    ∧ Exactly s t (fun h => { h with chart := t.hub.chart, ten := t.hub.ten }))
  ∧ (∀ s e x r, s.Issued e x 0x23 → s.work.isManager e.berth = true → r = bits x.word 383 128 → bit r 23 = true → s.work.berthInPool e (bits r 37 24) = true →
    (bit r 20 = false → s.work.hubBeyond (bits r 19 8) = false) → bits r 120 64 % 65536 = 0 → bits r 152 128 ≠ 0 → bits r 152 128 ≤ 2 ^ 24 → Does (.windowImport e) s fun t =>
      tfind t.hub.chart.imports (bits r 7 0)
        = some { srcHub := bits r 19 8, anySrc := bit r 20, wr := bit r 21, atom := bit r 22, berth := bits r 37 24, base := bits r 120 64, len := bits r 152 128 }
      ∧ s.Completes t e x 0 0 0 ∧ Within s t (fun h => { h with chart := t.hub.chart, ten := t.hub.ten }))
  ∧ (∀ s e x r, s.Issued e x 0x23 → s.work.isManager e.berth = true → r = bits x.word 383 128 → bit r 23 = false → Does (.windowImport e) s fun t =>
    t.hub.chart.imports = tdel s.hub.chart.imports (bits r 7 0) ∧ s.Completes t e x 0 0 0 ∧ Within s t (fun h => { h with chart := t.hub.chart, ten := t.hub.ten }))
  ∧ ∀ s, Does .hotEpochEnd s fun t =>
    t.hub.chart = { s.hub.chart with hot := s.hub.chart.hot.map fun y => { y with count := 0, src := 0 }, epoch := (s.hub.chart.epoch + 1) % 2 ^ 32 }
    ∧ Within s t (fun h => { h with chart := t.hub.chart })

/-! ## Manifests, rings and Porters (14) -/

/-- R356, R357, R365, R387: the host pages of a copy. A translation granted enters the ATC; one refused is asked of the host where the function may, else the copy ends; a response of success asks again, any other, and none in time, ends the copy with status 0x1C; an invalidation drops the translations in its range at every ATC, and is answered at once where no copy runs under them. -/
def Obligations.HostPages : Prop :=
  let faults (s t : State) (p j : Nat) (x : RingEntry) (c : CopyJob) : Prop := (t.work.porter p j).queue = [] ∧ s.Completes t c.entry x 0x1C 0 (s.work.porter p j).page
  let copies (s : State) (p j : Nat) (x : RingEntry) (c : CopyJob) : Prop := (s.work.porter p j).queue = [c] ∧ c.px2 = false ∧ s.work.started c.entry = some x
    ∧ (s.work.ring c.entry.berth c.entry.ring).px2 = false ∧ bit x.word 15 = false ∧ bit x.word 13 = false ∧ s.Current
  (∀ s p j c q a n f, (s.work.porter p j).wait = .translation → (s.work.porter p j).queue = c :: q → f = s.work.funcOf c.entry.berth → 12 ≤ n → Does (.translationCompletion p j true a n) s fun t =>
    { func := f.func, pasid := s.work.pasidOf c.entry.berth, addr := (s.work.porter p j).page / 2 ^ n * 2 ^ n, log2 := n, hpa := a / 2 ^ n * 2 ^ n } ∈ (t.work.porter p j).atc)
  ∧ (∀ s p j c q a n, (s.work.porter p j).wait = .translation → (s.work.porter p j).queue = c :: q → (s.work.func (s.work.funcOf c.entry.berth)).pri = true →
    Does (.translationCompletion p j false a n) s fun t => t.work.porter p j = { s.work.porter p j with wait := .prg } ∧ .pageReq p j (s.work.porter p j).page ∈ t.hub.sent ∧ t.mem = s.mem)
  ∧ (∀ s p j c x a n, copies s p j x c → (s.work.porter p j).wait = .translation → (s.work.func (s.work.funcOf c.entry.berth)).pri = false → Does (.translationCompletion p j false a n) s fun t => faults s t p j x c)
  ∧ (∀ s p j c q, (s.work.porter p j).wait = .prg → (s.work.porter p j).queue = c :: q → Does (.prgResponse p j 0) s fun t =>
    t.work.porter p j = { s.work.porter p j with wait := .translation } ∧ .ats p j (s.work.porter p j).page ∈ t.hub.sent ∧ t.mem = s.mem)
  ∧ (∀ s p j c x code, copies s p j x c → (s.work.porter p j).wait = .prg → code ≠ 0 → Does (.prgResponse p j code) s fun t => faults s t p j x c)
  ∧ (∀ s p j c x, copies s p j x c → (s.work.porter p j).wait = .prg → (s.work.port p).state ≠ 4 → Does (.priTimeout p j) s fun t => faults s t p j x c)
  ∧ (∀ s f a n, (∀ y ∈ (s.work.port f.port).porters, y.2.queue = []) → Does (.atsInvalidateRequest f a n) s fun t =>
    t.hub.sent = .atsInvalDone f :: s.hub.sent ∧ t.mem = s.mem
    ∧ ∀ j z, z ∈ (t.work.porter f.port j).atc ↔ z ∈ (s.work.porter f.port j).atc ∧ ¬(z.func = f.func ∧ rangesMeet z.addr (2 ^ z.log2) a n = true))
  ∧ ∀ s f a n c y, (s.work.port f.port).porters = [(0, y)] → y.queue = [c] → c.issued = true → c.pages.any (fun z => z.func = f.func && rangesMeet z.addr (2 ^ z.log2) a n) = true →
    Does (.atsInvalidateRequest f a n) s fun t =>
      tfind t.hub.chart.invals s.hub.chart.nextInval = some { why := .ats f, awaited := [(.porter f.port 0, c.id)] } ∧ t.hub.sent = s.hub.sent

/-- R387, R415, R417-R419: copies. COPY, and a descriptor of a PX2 ring, go to the end of the queue of the Porter that takes them; a copy that is done leaves its Porter and completes with status OK and its length; a completion timeout ends it with status 0x1D, DETAIL 1 and the bytes done, the host hearing an error. -/
def Obligations.Copies : Prop :=
  (∀ s e x p j c q, s.Issued e x 0x18 → bits x.word 289 288 < 3 → bits x.word 287 256 ≠ 0 → p = s.work.portOf e.berth → s.work.porterFor e (bits x.word 289 288) = some j →
    (s.work.porter p j).queue = c :: q → c.issued = true → Does (.copy e) s fun t =>
      (∃ y, (t.work.porter p j).queue = c :: q ++ [y] ∧ y.entry = e ∧ y.dir = bits x.word 289 288 ∧ y.len = bits x.word 287 256
        ∧ y.src = (if y.dir = 0 then bits x.word 191 128 else bits x.word 184 128) ∧ y.dst = if y.dir = 1 then bits x.word 255 192 else bits x.word 248 192) ∧ t.mem = s.mem)
  ∧ (∀ s e x p j, s.Issued e x 0x18 → bits x.word 289 288 < 3 → bits x.word 287 256 ≠ 0 → p = s.work.portOf e.berth → s.work.porterFor e (bits x.word 289 288) = some j →
    (s.work.porter p j).queue = [] → (s.work.porter p j).wait = .none → (s.work.func (s.work.funcOf e.berth)).ats = false → s.work.mayIssue (s.work.funcOf e.berth) = true →
    s.work.portUp p = true → (s.work.port p).state ≠ 4 → s.hub.chart.holds = [] → Does (.copy e) s fun t =>
      (t.work.porter p j).queue.map (fun y => (y.entry, y.len, y.issued)) = [(e, bits x.word 287 256, true)])
  ∧ (∀ s b r x y p j c q, (s.work.ring b r).fetched = x :: y → (s.work.ring b r).px2 = true → (s.work.ring b r).state = 1 → s.work.mayIssue (s.work.funcOf b) = true → p = s.work.portOf b →
    (s.work.port p).halted = false → bits x.word 159 128 ≠ 0 → s.work.porterFor { berth := b, ring := r, index := x.index } 0 = some j → (s.work.porter p j).queue = c :: q → c.issued = true →
    Does (.px2Descriptor b r) s fun t => (t.work.ring b r).fetched = y ∧ (t.work.ring b r).started = (s.work.ring b r).started ++ [{ x with progress := 1 }]
      ∧ ∃ z, (t.work.porter p j).queue = c :: q ++ [z] ∧ z.px2 = true ∧ z.len = bits x.word 159 128 ∧ z.dir = bits x.word 160 160 ∧ z.cookie = bits x.word 255 192)
  ∧ (∀ s p j c x, s.Current → (s.work.porter p j).queue = [c] → c.issued = true → c.px2 = false → c.dir = 1 → s.work.homePending (.porter p j) c.id = false → s.work.started c.entry = some x →
    (s.work.ring c.entry.berth c.entry.ring).px2 = false → bit x.word 15 = false → bit x.word 13 = false → (s.work.copyMove p j c c.len).1 = some (0, c.len, false) → Does (.copyDone p j .ok c.len) s fun t =>
      (t.work.porter p j).queue = [] ∧ s.Completes t c.entry x 0 0 c.len)
  ∧ ∀ s p j c x n m w, s.Current → (s.work.porter p j).queue = [c] → c.issued = true → c.px2 = false → c.dir = 0 → s.work.homePending (.porter p j) c.id = false → s.work.started c.entry = some x →
    (s.work.ring c.entry.berth c.entry.ring).px2 = false → bit x.word 15 = false → bit x.word 13 = false → w = s.work.emit (.aer (s.work.funcOf c.entry.berth)) →
    (w.copyMove p j c (min n c.len)).1 = some (0, m, false) → Does (.completionTimeout p j n) s fun t =>
      (t.work.porter p j).queue = [] ∧ s.Completes t c.entry x 0x1D 1 (min n c.len) ∧ .aer (s.work.funcOf c.entry.berth) ∈ t.hub.sent

/-- R258, R398-R406, R421-R423: rings. A bell moves TAIL, and a stalled ring runs again; RING_ENABLE starts an empty ring, or leaves it disabled with cause 5 where its size is none of the ring's; RING_DISABLE disables a ring that holds nothing; a fetch brings the next entry if its phase shows it, and a lost link stalls the ring; an entry read again and still stale stalls the ring at the sixteenth time; an entry without wait starts; NOP completes with status OK. -/
def Obligations.Rings : Prop :=
  let reaches (s : State) (f : FuncRef) (page b : Nat) : Prop := (s.work.func f).tdi ≠ .error ∧ s.work.streamSecure f = true ∧ s.work.berthAt f page = some b
  (∀ s f page r v b, reaches s f page b → (s.work.port f.port).ready = true → (s.work.func f).flr = false → (s.work.ring b r).state = 1 ∨ (s.work.ring b r).state = 2 → Does (.bell f page r v) s fun t =>
    (t.work.ring b r).tail = v % 65536 % ringSize (s.work.ring b r) ∧ (t.work.ring b r).state = 1 ∧ t.mem = s.mem ∧ Within s t (fun h => { h with ten := t.hub.ten }))
  ∧ (∀ s f page r v b, reaches s f page b → (s.work.ring b r).enable = false → (s.work.ring b r).state ≠ 3 → (s.work.berth b).state = .open → 4 ≤ bits v 5 1 → bits v 5 1 ≤ 16 →
    (bit v 6 = true → bits v 5 1 < 16) → Does (.ringEnable f page r v) s fun t =>
      t.work.ring b r = { log2 := bits v 5 1, px2 := bit v 6, vector := bits v 26 16, enable := true, state := 1, base := (s.work.ring b r).base, cplBase := (s.work.ring b r).cplBase, partly := (s.work.ring b r).partly }
      ∧ t.mem = s.mem ∧ Within s t (fun h => { h with ten := t.hub.ten }))
  ∧ (∀ s f page r v b, reaches s f page b → (s.work.ring b r).enable = false → (s.work.ring b r).state ≠ 3 → (s.work.berth b).state = .open → bits v 5 1 < 4 ∨ 16 < bits v 5 1 →
    Does (.ringEnable f page r v) s fun t => (t.work.ring b r).state = 0 ∧ (t.work.ring b r).cause = 5)
  ∧ (∀ s f page r b, reaches s f page b → (s.work.ring b r).state = 1 → (s.work.ring b r).fetched = [] → (s.work.ring b r).started = [] → s.hub.helm.waiters = [] ∧ s.hub.helm.held = [] → Does (.ringDisable f page r) s fun t =>
    t.work.ring b r = { s.work.ring b r with enable := false, state := 0, cause := 4, inFetch := 0, rereading := false })
  ∧ (∀ s b r x, (s.work.ring b r).inFetch = 1 → x = s.work.entryWord b (s.work.ring b r) → entryPhase (s.work.ring b r) x = wantPhase (s.work.ring b r) →
    (takeEntry x (s.work.ring b r)).fetchIx = (s.work.ring b r).tail → Does (.manifestFetch b r .ok) s fun t =>
      t.work.ring b r = takeEntry x { s.work.ring b r with inFetch := 0 } ∧ t.mem = s.mem ∧ Within s t (fun h => { h with ten := t.hub.ten }))
  ∧ (∀ s b r, (s.work.ring b r).inFetch ≠ 0 → Does (.manifestFetch b r .hostLinkLost) s fun t => (t.work.ring b r).state = 2 ∧ (t.work.ring b r).cause = 3 ∧ Within s t (fun h => { h with ten := t.hub.ten }))
  ∧ (∀ s b r x, (s.work.ring b r).state = 1 → (s.work.ring b r).rereading = true → s.work.mayIssue (s.work.funcOf b) = true → s.work.portUp (s.work.portOf b) = true → (s.work.port (s.work.portOf b)).halted = false →
    x = s.work.entryWord b (s.work.ring b r) → entryPhase (s.work.ring b r) x ≠ wantPhase (s.work.ring b r) → (s.work.ring b r).rereads < 15 → Does (.staleReread b r) s fun t =>
      t.work.ring b r = { s.work.ring b r with rereads := (s.work.ring b r).rereads + 1 } ∧ t.mem = s.mem ∧ Within s t (fun h => { h with ten := t.hub.ten }))
  ∧ (∀ s b r x, (s.work.ring b r).state = 1 → (s.work.ring b r).rereading = true → s.work.mayIssue (s.work.funcOf b) = true → s.work.portUp (s.work.portOf b) = true → (s.work.port (s.work.portOf b)).halted = false →
    x = s.work.entryWord b (s.work.ring b r) → entryPhase (s.work.ring b r) x ≠ wantPhase (s.work.ring b r) → (s.work.ring b r).rereads = 15 → Does (.staleReread b r) s fun t =>
      (t.work.ring b r).state = 2 ∧ (t.work.ring b r).cause = 1 ∧ Within s t (fun h => { h with ten := t.hub.ten }))
  ∧ (∀ s b r x y, (s.work.ring b r).fetched = x :: y → (s.work.ring b r).px2 = false → (s.work.ring b r).state = 1 → (s.work.ring b r).started = [] → x.waiting = false → x.failed = 0 → bit x.word 14 = false →
    bits x.word 11 8 = 1 → opcodeListed (bits x.word 7 0) = true → bit x.word 23 = false → s.work.mayIssue (s.work.funcOf b) = true → (s.work.port (s.work.portOf b)).halted = false → Does (.entryStart b r) s fun t =>
      t.work.ring b r = { s.work.ring b r with
        fetched := (x :: y).filter fun z => z.index ≠ x.index, started := [x], fetch := (x.index + 1) % ringSize (s.work.ring b r) }
      ∧ t.mem = s.mem ∧ Within s t (fun h => { h with ten := t.hub.ten }))
  ∧ ∀ s e x, s.Issued e x 0x01 → Does (.nop e) s fun t => s.Completes t e x 0 0 0 ∧ Within s t (fun h => { h with ten := t.hub.ten })

/-! ## Host ports (13) -/

/-- R371-R373, R384, R391, R392: links of the ports. PERST_N released, and 100 ms later configuration ready; a training that ends well puts the port into the state of its width, rate and CXL, one that does not leaves it without link; a retrain keeps the state for its end; a link-down, hot reset or PERST_N, on a port with no copies and no lines tracked, ends every function and stops the rings of its berths with cause 3; L0s, L0p and L1 come and go. -/
def Obligations.PortLinks : Prop :=
  let bwr (s t : State) : Prop := Within s t (fun h => { h with bwr := t.hub.bwr })
  let quiet (s : State) (p : Nat) : Prop := (s.work.port p).state ≠ 0 ∧ (s.work.port p).state ≠ 5 ∧ (s.work.port p).porters = [] ∧ s.hub.wrights = [] ∧ s.hub.helm.waiters = [] ∧ s.hub.helm.held = []
    ∧ s.hub.helm.sems = [] ∧ s.hub.ledger = {} ∧ s.hub.chart.holds = []
  let lost (s t : State) (p : Nat) : Prop := (t.work.port p).state = 5 ∧ (t.work.port p).funcs.map (·.1) = [] ∧ (t.work.port p).ide = [] ∧ (t.work.port p).vfEnable = false
    ∧ ((t.work.port p).l1Idle, (t.work.port p).hostTimeout, (t.work.port p).priTimeout) = (100, 10, 100)
    ∧ ∀ b r, b ∈ s.work.berthsOf { port := p, func := 0 } → r < 4 → t.work.ring b r = ringStops true (s.work.ring b r)
  (∀ s p, Does (.perstNRelease p) s fun t => t.work.port p = { s.work.port p with perstN := true, perstHeld := false }
    ∧ Exactly s t (fun h => { h with ports := t.hub.ports }) ∧ ∀ q, q ≠ p → t.work.port q = s.work.port q)
  ∧ (∀ s p, (s.work.port p).perstN = true → s.hub.start.hubRstN = true → Does (.configReady p) s fun t => t.work.port p = { s.work.port p with configReady := true }
    ∧ Exactly s t (fun h => { h with ports := t.hub.ports }) ∧ ∀ q, q ≠ p → t.work.port q = s.work.port q)
  ∧ (∀ s p r, s.work.mayTrain p = true → Does (.linkTrainingDone p r) s fun t =>
    ((t.work.port p).state, (t.work.port p).width, (t.work.port p).rate, (t.work.port p).flit, (t.work.port p).cxl) = (trainedState r, r.width, r.rate, r.flit, r.cxl)
    ∧ (s.hub.start.state = 1 → (t.work.port p).ready = true) ∧ bwr s t)
  ∧ (∀ s p, s.work.mayTrain p = true → Does (.linkTrainingTimeout p) s fun t => (t.work.port p).state = 0 ∧ bwr s t)
  ∧ (∀ s p, s.work.linkIdle p = true → Does (.linkRetrainStart p) s fun t =>
    (t.work.port p).state = 4 ∧ (t.work.port p).before = (s.work.port p).state ∧ bwr s t ∧ t.mem = s.mem)
  ∧ (∀ s p r, (s.work.port p).state = 4 → (s.work.port p).porters = [] → s.hub.ten.rings = [] → (∀ x ∈ (s.work.port p).funcs, x.2.owedWrites = [] ∧ x.2.owedVecs = []) →
    Does (.linkRetrainEnd p (some r)) s fun t =>
      ((t.work.port p).state, (t.work.port p).width, (t.work.port p).rate, (t.work.port p).flit, (t.work.port p).cxl) = (trainedState r, r.width, r.rate, r.flit, r.cxl) ∧ bwr s t)
  ∧ (∀ s p c, c ∈ [Instr.linkDown p, .hotReset p] → quiet s p → Does c s fun t => lost s t p)
  ∧ (∀ s p, quiet s p → (s.work.port p).state = 4 → Does (.linkRetrainEnd p none) s fun t => lost s t p)
  ∧ (∀ s p, quiet s p → s.work.resetHeldOff = false → Does (.perstNAssert p) s fun t => lost s t p ∧ (t.work.port p).perstN = false ∧ (t.work.port p).configReady = false)
  ∧ (∀ s p, s.work.resetHeldOff = true → Does (.perstNAssert p) s fun t => t.work.port p = { s.work.port p with perstHeld := true } ∧ Exactly s t (fun h => { h with ports := t.hub.ports }))
  ∧ (∀ s p d, s.work.linkIdle p = true → (s.work.port p).flit = false → d < 2 → d ∉ (s.work.port p).l0s → Does (.l0sEntry p d) s fun t =>
    d ∈ (t.work.port p).l0s ∧ Within s t id ∧ t.mem = s.mem)
  ∧ (∀ s p d, Does (.l0sExit p d) s fun t => t.work.port p = { s.work.port p with l0s := rmv (s.work.port p).l0s d } ∧ Exactly s t (fun h => { h with ports := t.hub.ports }))
  ∧ (∀ s p n, s.work.linkIdle p = true → (s.work.port p).flit = true → n < (s.work.port p).width → s.work.guarSum (2 + p) = 0 → s.work.guarSum (6 + p) = 0 → Does (.l0pEntry p n) s fun t =>
    (t.work.port p).l0p = true ∧ Within s t id ∧ t.mem = s.mem)
  ∧ (∀ s p, Does (.l0pExit p) s fun t => t.work.port p = { s.work.port p with l0p := false } ∧ Exactly s t (fun h => { h with ports := t.hub.ports }))
  ∧ (∀ s p, s.work.linkIdle p = true → s.work.portQuiet p = true → Does (.l1Entry p) s fun t => (t.work.port p).l1 = true ∧ Within s t id ∧ t.mem = s.mem)
  ∧ ∀ s p, Does (.l1Exit p) s fun t => t.work.port p = { s.work.port p with l1 := false } ∧ Exactly s t (fun h => { h with ports := t.hub.ports })

/-- R378, R379, R383, R385, R388-R390, R393, R394: functions of the ports. A placement write that its record admits goes as a write of its berth, another is discarded; without Bus Master Enable or in D3hot a function issues nothing, and with it again what it owed leaves; resets stop the rings of the function's berths and, complete, leave the function as after reset; a mask cleared sends what is pending; keys make a stream secure, a failure makes it insecure and its interfaces go to ERROR; an interface is locked, started and stopped. -/
def Obligations.PortFunctions : Prop :=
  let bwr (s t : State) : Prop := Within s t (fun h => { h with bwr := t.hub.bwr })
  let still (s : State) (p : Nat) : Prop := (s.work.port p).porters = [] ∧ s.hub.wrights = [] ∧ s.hub.helm.waiters = [] ∧ s.hub.helm.held = [] ∧ s.hub.helm.sems = []
  let stops (s t : State) (f : FuncRef) : Prop := (t.work.func f).flr = true ∧ (t.work.func f).owedWrites = [] ∧ (t.work.func f).pendingVec = []
    ∧ ∀ b r, b ∈ s.work.berthsOf f → r < 4 → t.work.ring b r = ringStops false (s.work.ring b r)
  (∀ s p rid a d x b, b = s.work.currentGen x.berth → d ≠ [] → s.work.portUp p = true → s.work.streamSecure { port := p, func := 0 } = true → tfind (s.work.port p).places (bits a 39 28) = some x → s.work.placeRow (some x) rid (bits a 27 0) d.length = none →
    (s.work.port p).placing = [] → d.length ≤ 64 → (x.base + bits a 27 0) % 256 + d.length ≤ 256 → Does (.placementWrite p rid a d false) s fun t =>
      (∃ r, tfind t.hub.fabric.reqs s.hub.fabric.nextId = some r ∧ r.agent = .placement p ∧ r.kind = .wr ∧ r.berth = x.berth ∧ r.slot = x.berth ∧ r.gen = b ∧ r.dpa = x.base + bits a 27 0 ∧ r.data = d)
      ∧ t.mem = s.mem ∧ Within s t (fun h => { h with fabric := t.hub.fabric }))
  ∧ (∀ s p rid a d relaxed n, d ≠ [] → s.work.portUp p = true → s.work.placeRow (tfind (s.work.port p).places (bits a 39 28)) rid (bits a 27 0) d.length = some n →
    Does (.placementWrite p rid a d relaxed) s fun t => (t.work.port p).placing = (s.work.port p).placing ∧ Within s t id)
  ∧ (∀ s f, Does (.bmeClear f) s fun t => (t.work.func f).bme = false ∧ bwr s t ∧ t.mem = s.mem)
  ∧ (∀ s f, Does (.d3hotEntry f) s fun t => (t.work.func f).d3hot = true ∧ bwr s t ∧ t.mem = s.mem)
  ∧ (∀ s f c, c = Instr.bmeSet f ∧ (f.func = 0 ∨ s.work.vfLive f.port = true) ∧ (s.work.func f).d3hot = false ∨ c = .d0Return f ∧ (s.work.func f).bme = true →
    s.work.portUp f.port = true → (s.work.func f).flr = false → (s.work.func f).tdi ≠ .error → (s.work.port f.port).porters = [] → s.hub.ten.rings = [] → Does c s fun t =>
      t.work.mayIssue f = true ∧ (t.work.func f).owedWrites = [] ∧ (∀ y ∈ (s.work.func f).owedWrites, Out.hostWrite f y.1 y.2 ∈ t.hub.sent) ∧ bwr s t)
  ∧ (∀ s f, f.func ≠ 0 → s.work.vfLive f.port = true → (s.work.func f).flr = false → still s f.port → Does (.flr f) s fun t => stops s t f)
  ∧ (∀ s p f, p < 4 → s.work.portUp p = true → (∀ y ∈ (s.work.port p).funcs, y.2.flr = false) → still s p → f = { port := p, func := 0 } → Does (.pf0Flr p) s fun t =>
    stops s t f ∧ (t.work.port p).vfEnable = false)
  ∧ (∀ s p f, p < 4 → s.work.portUp p = true → (∀ y ∈ (s.work.port p).funcs, y.2.flr = false) → still s p → s.hub.ledger.entries = [] → f = { port := p, func := 0 } → Does (.cxlReset p) s fun t =>
    stops s t f ∧ (t.work.port p).vfEnable = false ∧ (t.work.port p).cxlReset = true)
  ∧ (∀ s f, f.func ≠ 0 → (s.work.port f.port).vfEnable = true → (s.work.func f).flr = true → Does (.flrComplete f) s fun t =>
    t.work.func f = {} ∧ (∀ b r, b ∈ s.work.berthsOf f → r < 4 → t.work.ring b r = {}) ∧ t.mem = s.mem ∧ Within s t (fun h => { h with ten := t.hub.ten }))
  ∧ (∀ s f, f.func = 0 → (s.work.func f).flr = true → (s.work.port f.port).cxlReset = false → Does (.flrComplete f) s fun t =>
    (∀ y ∈ (s.work.port f.port).funcs, (tget {} (t.work.port f.port).funcs y.1).bme = false ∧ (tget {} (t.work.port f.port).funcs y.1).flr = false) ∧ (t.work.port f.port).hostTimeout = 10
    ∧ (∀ b r, b ∈ s.work.berthsOf f → r < 4 → t.work.ring b r = {}) ∧ t.mem = s.mem ∧ Within s t (fun h => { h with ten := t.hub.ten, bwr := t.hub.bwr }))
  ∧ (∀ s f v, (s.work.func f).msixEn = true → (s.work.func f).fmask = false → (s.work.func f).pendingVec = [v] → v ∉ rmv (s.work.func f).masked v → s.work.mayIssue f = true → Does (.msixUnmask f (some v)) s fun t =>
    .msix f v ∈ t.hub.sent ∧ (t.work.func f).pendingVec = [] ∧ v ∉ (t.work.func f).masked ∧ Within s t id ∧ t.mem = s.mem)
  ∧ (∀ s f, (s.work.func f).pendingVec = [] → Does (.msixUnmask f none) s fun t => t.work.func f = { s.work.func f with fmask := false } ∧ Exactly s t (fun h => { h with ports := t.hub.ports }))
  ∧ (∀ s p n id, n < 9 → s.work.portUp p = true → sessionOpen (tget {} s.hub.purser.doe p) id = true → Does (.ideKm p n id) s fun t =>
    tget 0 (t.work.port p).ide n = 1 ∧ Exactly s t (fun h => { h with ports := t.hub.ports }))
  ∧ (∀ s p n, tget 0 (s.work.port p).ide n = 1 → Does (.ideIntegrityFailure p n) s fun t => tget 0 (t.work.port p).ide n = 2 ∧ Within s t id
    ∧ ∀ i f, tfind (s.work.port p).funcs i = some f → f.tdi ≠ .unlocked → f.stream = n → (t.work.func { port := p, func := i }).tdi = .error)
  ∧ (∀ s f n, f.func ≠ 0 → s.work.tdispUp f.port = true → s.work.vfLive f.port = true → (s.work.func f).tdi = .unlocked → 1 ≤ n → n < 9 → Does (.lockInterface f n) s fun t =>
    t.work.func f = { s.work.func f with tdi := .locked, stream := n } ∧ t.hub.sent.length = s.hub.sent.length + 1 ∧ Exactly s t (fun h => { h with ports := t.hub.ports, sent := t.hub.sent }))
  ∧ (∀ s f, f.func ≠ 0 → s.work.tdispUp f.port = true → (s.work.func f).tdi = .locked → Does (.startInterface f) s fun t =>
    t.work.func f = { s.work.func f with tdi := .run } ∧ Exactly s t (fun h => { h with ports := t.hub.ports }))
  ∧ ∀ s f, f.func ≠ 0 → s.work.tdispUp f.port = true → (s.work.func f).tdi ≠ .unlocked → (s.work.func f).bme = false → Does (.stopInterface f) s fun t =>
    t.work.func f = { s.work.func f with tdi := .unlocked, stream := 0 } ∧ Exactly s t (fun h => { h with ports := t.hub.ports })

/-! ## Tenancy (15) -/

/-- R429-R435, R438-R442, R313-R315, R329, R377: the manager's commands over tenants, each completing with status OK. A free berth opens with a fresh key; a berth that holds nothing closes up to the invalidation of its translations; a berth is bound and unbound, granted items that it then holds, mapped to a regulation group, and a mark is withdrawn from it; a key is new, a retired one that nothing uses is gone; owners, share groups, origins and placement records are as the entry says; a block that goes from one owner to another, and one to be scrubbed, come under a scrub with a fresh key. -/
def Obligations.Tenants : Prop :=
  let by_ (s : State) (e : EntryRef) (x : RingEntry) (op : Nat) : Prop := s.Issued e x op ∧ s.work.isManager e.berth = true ∧ s.Calm
  let opened (s : State) (e : EntryRef) (b : Nat) : Prop := s.work.berthInPool e b = true ∧ (s.work.berth b).state = .open
  let serves (s : State) : Prop := ∃ c < 128, channelServes (s.work.channel c) = true
  let ten (s t : State) : Prop := Within s t (fun h => { h with ten := t.hub.ten })
  let mem (s t : State) : Prop := Within s t (fun h => { h with ten := t.hub.ten, memory := t.hub.memory })
  (∀ s e x b, by_ s e x 0x30 → b = bits x.word 141 128 → s.work.berthInPool e b = true → (s.work.berth b).state = .free → s.hub.purser.lcCode ≠ 0x0FFF → s.hub.purser.debugOpen = false →
    tfind s.hub.chart.roots b = none → Does (.berthOpen e) s fun t =>
      t.work.berth b = { s.work.berth b with state := .open, bind := none, hint := 0xBF, view := {}, openCount := satAdd 0xFFFFFFFF (s.work.berth b).openCount 1, debugCount := 0, consent := 0 }
      ∧ t.work.key b 0 = s.hub.memory.nextKey ∧ t.work.key b 1 = 0 ∧ t.work.groupOf b = 0 ∧ s.Completes t e x 0 0 0
      ∧ Within s t (fun h => { h with ten := t.hub.ten, memory := t.hub.memory, bwr := t.hub.bwr }))
  ∧ (∀ s e x b, by_ s e x 0x31 → b = bits x.word 141 128 → opened s e b → s.work.isManager b = false → (∀ k < 8, s.work.itemsOf b k = []) → s.work.tablesOf b = [] →
    (∀ r < 4, (s.work.ring b r).state = 0) → Does (.berthClose e) s fun t =>
      (t.work.berth b).state = .closing ∧ (t.work.berth b).closeStep = 7 ∧ (t.work.berth b).closeEntry = e ∧ tfind t.hub.chart.roots b = none
      ∧ (t.hub.chart.invals.any fun v => v.2.why = .close b) = true ∧ (∀ c, c ≠ b → t.work.berth c = s.work.berth c) ∧ t.mem = s.mem)
  ∧ (∀ s e x b f, by_ s e x 0x32 → b = bits x.word 141 128 → f = { port := s.work.portOf e.berth, func := bits x.word 151 144 } → opened s e b → bit x.word 156 = false → s.work.bindOf b = none →
    (f.func = 0 ∧ bits x.word 155 152 = 0 ∨ f.func ≠ 0 ∧ s.work.berthAt f (bits x.word 155 152) = none) → Does (.berthBind e) s fun t =>
      (t.work.berth b).bind = some { port := f.port, func := f.func, slot := bits x.word 155 152, pasidEn := bit x.word 157, pasid := bits x.word 179 160 }
      ∧ (∀ c, c ≠ b → t.work.berth c = s.work.berth c) ∧ s.Completes t e x 0 0 0 ∧ ten s t)
  ∧ (∀ s e x b, by_ s e x 0x32 → b = bits x.word 141 128 → opened s e b → bit x.word 156 = true → bits x.word 151 144 ≠ 0 ∨ bits x.word 155 152 = 0 → s.work.isManager b = false → (s.work.berth b).bind ≠ none →
    (∀ r < 4, (s.work.ring b r).state = 0 ∧ (s.work.ring b r).started = []) → Does (.berthBind e) s fun t =>
      (t.work.berth b).bind = none ∧ (∀ r < 4, t.work.ring b r = {}) ∧ s.Completes t e x 0 0 0 ∧ ten s t)
  ∧ (∀ s e x b k l, by_ s e x 0x33 → b = bits x.word 141 128 → k = bits x.word 147 144 → l = (List.range (bits x.word 183 168)).map (· + bits x.word 167 152) → opened s e b → k < 8 →
    0 < bits x.word 183 168 → bits x.word 183 168 ≤ 4096 → l.all (s.work.itemInPool e k) = true → l.all (s.work.grantable b k) = true → bit x.word 148 = false → Does (.grant e) s fun t =>
      (∀ i ∈ l, t.work.holds b k i = true) ∧ (∀ c j i, i < 4096 → t.work.holds c j i = true → s.work.holds c j i = true ∨ c = b ∧ j = k ∧ i ∈ l)
      ∧ s.Completes t e x 0 0 (l.filter fun i => !s.work.holds b k i).length ∧ ten s t)
  ∧ (∀ s e x b g, by_ s e x 0x33 → b = bits x.word 141 128 → bits x.word 147 144 = 8 → bits x.word 183 168 = 1 → g = bits x.word 167 152 → opened s e b → s.work.itemInPool e 8 g = true →
    bit x.word 148 = false → Does (.grant e) s fun t =>
      t.work.groupOf b = g ∧ (∀ c, c ≠ b → t.work.groupOf c = s.work.groupOf c) ∧ s.Completes t e x 0 0 (b2n (s.work.groupOf b ≠ g))
      ∧ Within s t (fun h => { h with ten := t.hub.ten, bwr := t.hub.bwr }))
  ∧ (∀ s e x b i, by_ s e x 0x33 → b = bits x.word 141 128 → bits x.word 147 144 = 2 → bits x.word 183 168 = 1 → i = bits x.word 167 152 → opened s e b → s.work.itemInPool e 2 i = true →
    bit x.word 148 = true → s.work.holder 2 i = some b → s.hub.helm.waiters = [] ∧ s.hub.helm.held = [] → Does (.grant e) s fun t =>
      t.work.holder 2 i = none ∧ t.work.mark i = {} ∧ s.Completes t e x 0 0 1 ∧ Within s t (fun h => { h with ten := t.hub.ten, helm := t.hub.helm }))
  ∧ (∀ s e x b c g, by_ s e x 0x35 → b = bits x.word 141 128 → g = bits x.word 143 143 → (bit x.word 142 = false ∧ opened s e b ∧ c = b ∨ bit x.word 142 = true ∧ b < 256 ∧ bit (s.work.poolOf e).groups b = true ∧ c = 4096 + b) →
    s.work.key c g ≠ 0 → s.work.transfers = [] → s.work.allReqs = [] → (s.hub.ports.all fun p => p.2.placing = []) = true → s.hub.memory.hold = [] → Does (.keyRetire e) s fun t =>
      t.work.key c g = 0 ∧ (∀ d j, j < 2 → (d, j) ≠ (c, g) → t.work.key d j = s.work.key d j) ∧ s.Completes t e x 0 0 0 ∧ mem s t)
  ∧ (∀ s e x a n v, by_ s e x 0x24 → a = bits x.word 179 128 → n = bits x.word 287 256 → v = bits x.word 303 288 → s.work.blocksInPool e a n = true → bits v 15 14 = 0 ∨ bits v 15 14 = 1 ∧ opened s e (bits v 13 0) →
    a % 65536 = 0 → n ≠ 0 → (∀ i < n, bits (s.work.ownerOf (a + i * 65536)) 15 14 ≠ 3 ∧ ownerMoves (s.work.ownerOf (a + i * 65536)) v = false ∧ (s.work.region ((a / 65536 + i) / 16384)).busy = false) →
    Does (.ownerSet e) s fun t =>
      (∀ i < n, t.work.ownerOf (a + i * 65536) = v) ∧ (∀ d, d < a ∨ a + n * 65536 ≤ d → t.work.ownerOf d = s.work.ownerOf d) ∧ s.Completes t e x 0 0 0 ∧ mem s t)
  ∧ (∀ s e x a v, by_ s e x 0x24 → a = bits x.word 179 128 → bits x.word 287 256 = 1 → v = bits x.word 303 288 → s.work.blocksInPool e a 1 = true → bits v 15 14 = 1 → opened s e (bits v 13 0) →
    a % 65536 = 0 → ownerMoves (s.work.ownerOf a) v = true → (s.work.region (a / 65536 / 16384)).busy = false → serves s → Does (.ownerSet e) s fun t =>
      t.work.ownerOf a = 0 ∧ t.hub.memory.scrubs = [(s.hub.memory.nextJob, { why := .owner e v, runs := [(a / 65536, 1)], key := s.hub.memory.nextKey })] ∧ mem s t)
  ∧ (∀ s e x g v, by_ s e x 0x25 → g = bits x.word 263 256 → bit (s.work.poolOf e).groups g = true → s.HostReads e x 512 → v = s.hostWord e x 512 → (ones v 4096).all (s.work.berthInPool e) = true →
    (ones v 4096).all (fun b => (s.work.berth b).state = .open) = true → Does (.groupSet e) s fun t =>
      tget 0 t.hub.memory.member g = v ∧ (∀ k, k ≠ g → tget 0 t.hub.memory.member k = tget 0 s.hub.memory.member k) ∧ s.Completes t e x 0 0 0 ∧ mem s t)
  ∧ (∀ s e x r, by_ s e x 0x26 → r = bits x.word 383 128 → bit (s.work.poolOf e).groups (bits r 7 0) = true → bits r 31 16 ≠ 0 → bits r 115 64 % 65536 = 0 → bits r 191 128 % 65536 = 0 →
    bits r 115 64 + bits r 31 16 * 65536 ≤ s.work.regions * 2 ^ 30 → (bit r 8 = true → bits r 191 128 + bits r 31 16 * 65536 ≤ s.work.regions * 2 ^ 30 ∧ bits r 10 9 = 0) →
    (s.hub.memory.origins.any fun y => y.group = bits r 7 0 && y.base = bits r 115 64) = false → s.hub.memory.origins.length < 1024 → Does (.originRegister e) s fun t =>
      t.hub.memory.origins = s.hub.memory.origins ++ [{ group := bits r 7 0, board := bit r 8, port := bits r 10 9, blocks := bits r 31 16, base := bits r 115 64, origin := bits r 191 128 }]
      ∧ s.Completes t e x 0 0 0 ∧ mem s t)
  ∧ (∀ s e x r p, by_ s e x 0x28 → r = bits x.word 383 128 → p = s.work.portOf e.berth → bit r 12 = true → opened s e (bits r 45 32) → (bit r 165 = true → s.work.holder 2 (bits r 179 168) = some (bits r 45 32)) →
    bits r 115 64 % 65536 = 0 → placeBase (bits r 115 64) = true → 0 < bits r 140 128 → bits r 140 128 ≤ 4096 → Does (.placeSet e) s fun t =>
      tfind (t.work.port p).places (bits r 11 0) = some { rid := bits r 31 16, berth := bits r 45 32, base := bits r 115 64, len := bits r 140 128, flagOff := bits r 163 144, flagEn := bit r 164, markEn := bit r 165, mark := bits r 179 168 }
      ∧ s.Completes t e x 0 0 0 ∧ ten s t)
  ∧ (∀ s e x r p, by_ s e x 0x28 → r = bits x.word 383 128 → p = s.work.portOf e.berth → bit r 12 = false → Does (.placeSet e) s fun t =>
      (t.work.port p).places = tdel (s.work.port p).places (bits r 11 0) ∧ s.Completes t e x 0 0 0 ∧ ten s t)
  ∧ ∀ s e x a n, by_ s e x 0x1B → a = bits x.word 179 128 → n = bits x.word 287 256 → s.work.blocksInPool e a n = true → a % 65536 = 0 → n ≠ 0 →
    (∀ i < n, bits (s.work.ownerOf (a + i * 65536)) 15 14 = 0) → serves s → Does (.scrub e) s fun t =>
      t.hub.memory.scrubs = [(s.hub.memory.nextJob, { why := .command e, runs := [(a / 65536, n)], key := s.hub.memory.nextKey })] ∧ t.mem = s.mem ∧ mem s t

/-- R440: KEY_NEW fills an empty generation with a fresh key; on a generation that holds a key it completes as BAD_SHAPE with DETAIL 1, on a slot outside the pool as BAD_IDENT. A berth of the pool that is not Open is turned away by R431 before either. -/
def Obligations.KeyNew : Prop :=
  let by_ (s : State) (e : EntryRef) (x : RingEntry) (op : Nat) : Prop := s.Issued e x op ∧ s.work.isManager e.berth = true ∧ s.Calm
  let opened (s : State) (e : EntryRef) (b : Nat) : Prop := s.work.berthInPool e b = true ∧ (s.work.berth b).state = .open
  let mem (s t : State) : Prop := Within s t (fun h => { h with ten := t.hub.ten, memory := t.hub.memory })
  (∀ s e x b c g, by_ s e x 0x34 → b = bits x.word 141 128 → g = bits x.word 143 143 → (bit x.word 142 = false ∧ opened s e b ∧ c = b ∨ bit x.word 142 = true ∧ b < 256 ∧ bit (s.work.poolOf e).groups b = true ∧ c = 4096 + b) →
    s.work.key c g = 0 → Does (.keyNew e) s fun t =>
      t.work.key c g = s.hub.memory.nextKey ∧ t.hub.memory.nextKey = s.hub.memory.nextKey + 1 ∧ (∀ d j, j < 2 → (d, j) ≠ (c, g) → t.work.key d j = s.work.key d j) ∧ s.Completes t e x 0 0 0 ∧ mem s t)
  ∧ (∀ s e x b c g, by_ s e x 0x34 → b = bits x.word 141 128 → g = bits x.word 143 143 → (bit x.word 142 = false ∧ opened s e b ∧ c = b ∨ bit x.word 142 = true ∧ b < 256 ∧ bit (s.work.poolOf e).groups b = true ∧ c = 4096 + b) →
    s.work.key c g ≠ 0 → Does (.keyNew e) s fun t =>
      t.hub.memory = s.hub.memory ∧ s.Completes t e x stBadShape 1 0 ∧ mem s t)
  ∧ ∀ s e x b, by_ s e x 0x34 → b = bits x.word 141 128 → (bit x.word 142 = false ∧ s.work.berthInPool e b = false ∨ bit x.word 142 = true ∧ (256 ≤ b ∨ bit (s.work.poolOf e).groups b = false)) →
    Does (.keyNew e) s fun t => t.hub.memory = s.hub.memory ∧ s.Completes t e x stBadIdent 0 0 ∧ mem s t

/-- R447-R449, R554, R68, R115, R180, R203: what a tenant sees, and the manager's service commands. A job opens, is asked to close, and a window ends; a site is taken out at once or by an orderly exit, and comes in; an engine goes out, comes in, or stays out; a bundle retrains on command. -/
def Obligations.TenantService : Prop :=
  let by_ (s : State) (e : EntryRef) (x : RingEntry) (op : Nat) : Prop := s.Issued e x op ∧ s.work.isManager e.berth = true ∧ s.Calm
  let ten (s t : State) : Prop := Within s t (fun h => { h with ten := t.hub.ten })
  (∀ s b, s.Calm → s.work.bindOf b ≠ none → (s.work.berth b).view.isOpen = false → Does (.viewStart b) s fun t =>
    (t.work.berth b).view = { (s.work.berth b).view with isOpen := true, stopping := false, valid := false, startWin := s.hub.ten.window, startEnergy := s.hub.ten.windowEnergy, concurrent := min 0xFFFF (1 + (s.hub.ten.berths.filter fun y => y.2.view.isOpen).length) }
    ∧ Exactly s t (fun h => { h with ten := t.hub.ten }))
  ∧ (∀ s b, s.Calm → s.work.bindOf b ≠ none → (s.work.berth b).view.isOpen = true → Does (.viewStop b) s fun t =>
    t.work.berth b = { s.work.berth b with view := { (s.work.berth b).view with stopping := true } } ∧ Exactly s t (fun h => { h with ten := t.hub.ten }))
  ∧ (∀ s n, s.Calm → Does (.viewWindowEnd n) s fun t => Exactly s t (fun h => { h with ten := { h.ten with
    window := h.ten.window + 1, windowEnergy := h.bin.energy, watts := n / 5 * 5 % 2 ^ 16,
    berths := h.ten.berths.map fun (b, y) => (b, { y with view := viewBoundary (h.ten.window + 1) h.bin.energy y.view }) } }))
  ∧ (∀ s e x n, by_ s e x 0x40 → n = bits x.word 260 256 → s.work.itemInPool e 0 n = true → (s.work.site n).outEntry = none → (s.work.site n).state = 0 ∨ (s.work.site n).state = 5 → Does (.siteOut e) s fun t =>
    s.Completes t e x 0 0 0 ∧ ten s t)
  ∧ (∀ s e x n, by_ s e x 0x40 → n = bits x.word 260 256 → s.work.itemInPool e 0 n = true → (s.work.site n).outEntry = none → siteServing (s.work.site n) = true → Does (.siteOut e) s fun t =>
    (t.work.site n).outEntry = some e ∧ (t.work.site n).power.quiescing = true ∧ (t.work.site n).restart = false ∧ (t.work.site n).state = (s.work.site n).state
    ∧ ((s.work.site n).power.quiescing = false → Out.sideband n 0x13 0 ∈ t.hub.sent))
  ∧ (∀ s e x n k, by_ s e x 0x41 → n = bits x.word 260 256 → s.work.itemInPool e 0 n = true → siteServing (s.work.site n) = true → Does (.siteIn e k) s fun t =>
    s.Completes t e x 0 0 (s.work.site n).state ∧ ten s t)
  ∧ (∀ s e x n, by_ s e x 0x41 → n = bits x.word 260 256 → s.work.itemInPool e 0 n = true → (s.work.site n).state = 0 ∨ (s.work.site n).state = 5 → (s.work.site n).reclaiming = false →
    bit s.hub.board.sites n = true → (s.work.site n).fuseBad = false → s.work.fusedOut n = false → Does (.siteIn e 0) s fun t =>
      (t.work.site n).state = 6 ∧ (t.work.site n).link.step = 1 ∧ (t.work.site n).inEntry = some e ∧ (t.work.site n).power.pwrEn = true ∧ t.mem = s.mem
      ∧ Within s t (fun h => { h with ten := t.hub.ten, sites := t.hub.sites }))
  ∧ (∀ s e x g, by_ s e x 0x42 → g = bits x.word 263 256 → s.work.itemInPool e 1 g = true → (s.work.wright g).draining = none → (s.work.wright g).out = true → (s.work.wright g).run = none → Does (.wrightOut e) s fun t =>
    s.Completes t e x 0 0 0 ∧ ten s t)
  ∧ (∀ s e x g r, by_ s e x 0x42 → g = bits x.word 263 256 → s.work.itemInPool e 1 g = true → (s.work.wright g).draining = none → (s.work.wright g).run = some r → (s.work.wright g).queue = [] → bits x.word 287 272 ≠ 0 → s.hub.helm.waiters = [] ∧ s.hub.helm.held = [] →
    Does (.wrightOut e) s fun t => t.work.wright g = { s.work.wright g with out := true, draining := some e } ∧ ∀ h, h ≠ g → t.work.wright h = s.work.wright h)
  ∧ (∀ s g r, s.Calm → (s.work.wright g).draining ≠ none → (s.work.wright g).run = some r → r.phase ≠ .ending → s.hub.helm.waiters = [] ∧ s.hub.helm.held = [] → s.hub.helm.sems = [] → Does (.drainTimeout g) s fun t =>
    (t.work.wright g).run.map (fun y => (y.phase, y.status, y.endStep)) = some (.ending, stEngineOut, r.pc) ∧ (t.work.wright g).accesses = (s.work.wright g).accesses.filter fun a => a.store)
  ∧ (∀ s e x g, by_ s e x 0x43 → g = bits x.word 263 256 → s.work.itemInPool e 1 g = true → (s.work.wright g).out = true → (s.work.wright g).run = none → Does (.wrightIn e true) s fun t =>
    (t.work.wright g).out = false ∧ (t.work.wright g).mem = [] ∧ (t.work.wright g).poison = [] ∧ s.Completes t e x 0 0 0)
  ∧ (∀ s e x g, by_ s e x 0x43 → g = bits x.word 263 256 → s.work.itemInPool e 1 g = true → (s.work.wright g).out = true → (s.work.wright g).run = none → Does (.wrightIn e false) s fun t =>
    t.work.wright g = s.work.wright g ∧ s.Completes t e x 0 0 1 ∧ ten s t)
  ∧ ∀ s e x n k, by_ s e x 0x44 → n = bits x.word 260 256 → k = bits x.word 264 261 → s.work.itemInPool e 0 n = true → siteServing (s.work.site n) = true → (s.work.bundle n k).active = true →
    (s.work.bundle n k).retraining = false → (s.work.site n).recal = none → (s.work.site n).link.limp = .off → othersOf (s.work.site n).link k ≠ [] → Does (.siteRecal e) s fun t =>
      (t.work.site n).recal = some (e, k) ∧ (t.work.bundle n k).retraining = true ∧ Within s t (fun h => { h with ten := t.hub.ten, sites := t.hub.sites })

/-- R115, R116, R124, R159, R191, R202, R300, R303, R304, R308, R366, R436, R438, R444: events for which commands, withdrawals and closes wait. A removed table, descriptor or recipe that nothing uses is gone and its command completes; a stopped recipe is over; a site is out at the end of its exit, dead where it does not quiesce; a partition or a region is zeroed and settled; purges, invalidations and recall scans end; a burst of a scrub zeroes one granule under the scrub's key. -/
def Obligations.TenantEvents : Prop :=
  let waits (s : State) (e : EntryRef) (x : RingEntry) : Prop := s.work.started e = some x ∧ (s.work.ring e.berth e.ring).px2 = false ∧ bit x.word 15 = false ∧ bit x.word 13 = false ∧ s.Calm
  let alone (s : State) (n : Nat) : Prop := s.Calm ∧ (s.work.site n).recal = none ∧ (s.work.site n).port.tokIns = [] ∧ (s.work.site n).port.tokQueue = [] ∧ siteServing (s.work.site n) = true
    ∧ (s.work.site n).power.quiescing = true ∧ s.hub.helm.waiters = [] ∧ s.hub.helm.held = [] ∧ s.hub.helm.sems = []
  (∀ s e x b y, waits s e x → s.work.table b = some y → y.removing = true → y.removeEntry = some e → s.work.tableOpen b = false → Does (.bearingRemoveDrained b) s fun t =>
    t.work.table b = none ∧ (∀ c, c ≠ b → t.work.table c = s.work.table c) ∧ s.Completes t e x 0 0 y.aborted ∧ Within s t (fun h => { h with ten := t.hub.ten, tables := t.hub.tables, bearings := t.hub.bearings }))
  ∧ (∀ s e x b y, waits s e x → tfind s.hub.packs b = some y → y.removing = true → y.removeEntry = some e → s.work.packBusy b = false → Does (.packRemoveDrained b) s fun t =>
    t.hub.packs = tdel s.hub.packs b ∧ s.Completes t e x 0 0 0 ∧ Within s t (fun h => { h with ten := t.hub.ten, packs := t.hub.packs }))
  ∧ (∀ s e x b y, waits s e x → tfind s.hub.recipes b = some y → y.removing = true → y.removeEntry = some e → s.work.recipeBusy b = false → Does (.recipeRemoveDrained b) s fun t =>
    t.hub.recipes = tdel s.hub.recipes b ∧ (∀ g, (t.work.wright g).resident ≠ some b) ∧ s.Completes t e x 0 0 0
    ∧ Within s t (fun h => { h with ten := t.hub.ten, recipes := t.hub.recipes, wrights := t.hub.wrights }))
  ∧ (∀ s g r, s.Calm → (s.work.wright g).run = some r → r.phase = .ending → r.status = stStopped ∨ r.status = stEngineOut → (s.work.wright g).accesses = [] → (s.work.wright g).queue = [] →
    (s.work.wright g).draining = none → (s.work.wright g).stopEntries = [] → r.current = none → (s.work.wright g).inbox = [] → s.work.started r.launch.entry = none → Does (.recipeStopComplete g) s fun t =>
      (t.work.wright g).run = none ∧ (t.work.wright g).resident = some r.launch.recipe)
  ∧ (∀ s n, alone s n → (s.work.site n).restart = false → (s.work.site n).outEntry = none → Does (.sbQuiesceDone n true) s fun t =>
    (t.work.site n).state = 5 ∧ (t.work.site n).cause = 32 ∧ (t.work.site n).power.quiescing = false ∧ (t.work.site n).power.rstN = false ∧ (t.work.site n).power.pwrEn = false)
  ∧ (∀ s n c, alone s n → c ∈ [Instr.sbQuiesceDone n false, .quiesceTimeout n] → Does c s fun t =>
    (t.work.site n).state = 4 ∧ (t.work.site n).cause = 22 ∧ (t.work.site n).reclaiming = true ∧ (t.work.site n).power.rstN = false ∧ n ∈ t.hub.ledger.reclaiming)
  ∧ (∀ s n, s.Calm → (s.work.site n).state = 4 → (s.work.site n).reclaiming = true → s.work.siteBusy n = false → (s.work.site n).outEntry = none → s.hub.ledger.entries = [] → s.hub.ledger.txns = [] →
    s.hub.ledger.hostTxns = [] → s.hub.ledger.waits = [] → s.hub.chart.holds = [] → Does (.reclaimDone n) s fun t =>
      (t.work.site n).reclaiming = false ∧ (t.work.site n).state = 4 ∧ (t.work.site n).port.outstanding = [] ∧ n ∉ t.hub.ledger.reclaiming ∧ ∀ y ∈ t.hub.fabric.rsps, y.2.site ≠ n)
  ∧ (∀ s p x, s.Calm → s.mem.wf = true → x = s.work.part p → x.busy = true → x.mode = 3 ∨ x.nextMode = 3 → Does (.scratchZeroingDone p) s fun t =>
    t.work.part p = { mode := x.nextMode, holder := x.nextHolder, nextMode := x.nextMode, nextHolder := x.nextHolder } ∧ (∀ i < 2 ^ 24, t.mem.byte (0x004000000000 + p * 2 ^ 24 + i) = 0)
    ∧ (∀ a, a < 0x004000000000 + p * 2 ^ 24 ∨ 0x004000000000 + (p + 1) * 2 ^ 24 ≤ a → t.mem.byte a = s.mem.byte a) ∧ Within s t (fun h => { h with memory := t.hub.memory }))
  ∧ (∀ s p x, s.Calm → x = s.work.part p → x.busy = true → x.mode ≠ 3 → x.nextMode ≠ 3 → (∀ l ∈ s.hub.memory.hold, l.part ≠ p) → Does (.holdPurgeDone (some p) 0) s fun t =>
    t.work.part p = { mode := x.nextMode, holder := x.nextHolder, nextMode := x.nextMode, nextHolder := x.nextHolder } ∧ Exactly s t (fun h => { h with memory := t.hub.memory }))
  ∧ (∀ s b, s.Calm → b ∈ s.hub.memory.purging → (∀ l ∈ s.hub.memory.hold, l.berth ≠ b) → s.hub.ten.rings = [] → Does (.holdPurgeDone none b) s fun t =>
    b ∉ t.hub.memory.purging ∧ Exactly s t (fun h => { h with memory := t.hub.memory }))
  ∧ (∀ s r, s.Calm → s.mem.wf = true → (s.work.region r).busy = true → Does (.regionZeroingDone r) s fun t =>
    (t.work.region r).cls = (s.work.region r).nextCls ∧ (t.work.region r).busy = false ∧ (t.work.region r).key = s.hub.memory.nextKey
    ∧ (∀ i < 2 ^ 30, t.mem.byte (r * 2 ^ 30 + i) = 0) ∧ (∀ a, a < r * 2 ^ 30 ∨ (r + 1) * 2 ^ 30 ≤ a → t.mem.byte a = s.mem.byte a) ∧ Within s t (fun h => { h with memory := t.hub.memory }))
  ∧ (∀ s i v e x, waits s e x → tfind s.hub.chart.invals i = some v → v.why = .command e → (v.awaited.any fun (a, k) => s.work.transferOpen a k) = false → Does (.invalidationComplete i) s fun t =>
    t.hub.chart = { s.hub.chart with invals := tdel s.hub.chart.invals i } ∧ s.Completes t e x 0 0 (invalResult v) ∧ Within s t (fun h => { h with ten := t.hub.ten, chart := t.hub.chart }))
  ∧ (∀ s i v f, s.Calm → tfind s.hub.chart.invals i = some v → v.why = .ats f → (v.awaited.any fun (a, k) => s.work.transferOpen a k) = false → Does (.invalidationComplete i) s fun t =>
    t.hub.chart = { s.hub.chart with invals := tdel s.hub.chart.invals i } ∧ .atsInvalDone f ∈ t.hub.sent ∧ t.mem = s.mem)
  ∧ (∀ s n b, s.Calm → b ∈ (s.work.site n).recalling → s.hub.ledger.entries = [] → s.hub.ledger.txns = [] → Does (.recallScanDone (some n) b) s fun t =>
    t.work.site n = { s.work.site n with recalling := rmv (s.work.site n).recalling b } ∧ Exactly s t (fun h => { h with sites := t.hub.sites }))
  ∧ (∀ s b y, s.hub.hawser.inbound = [] → s.hub.ten.withdrawals = [] → s.hub.memory.retiring = [] → s.hub.memory.scrubs = [] → s.hub.ten.berths = [(b, y)] → y.unbind = none → y.state = .closing → y.closeStep = 8 →
    s.hub.ledger.entries = [] → s.hub.ledger.txns = [] → s.hub.memory.hold = [] → Does (.recallScanDone none b) s fun t =>
      (t.work.berth b).closeStep = 9 ∧ b ∈ t.hub.memory.purging ∧ t.mem = s.mem)
  ∧ ∀ s j k c g i, s.hub.hawser.inbound = [] → s.hub.ten.withdrawals = [] → s.hub.memory.retiring = [] → s.hub.ten.berths = [] → s.mem.wf = true → s.hub.memory.scrubs = [(j, k)] → c < 128 → channelServes (s.work.channel c) = true →
    scrubGranule k c = some g → i < 128 → i ≠ c → channelServes (s.work.channel i) = true → tget 0 k.written i < 2 * runsLength k.runs → Does (.scrubBurst j c) s fun t =>
      tfind t.hub.memory.tag g = some k.key ∧ (∀ a, t.mem.byte a = if a / 256 = g then 0 else s.mem.byte a) ∧ 2 * g ∉ t.mem.poison ∧ 2 * g + 1 ∉ t.mem.poison
      ∧ Within s t (fun h => { h with memory := t.hub.memory })

/-! ## Trust (16) -/

/-- R456-R458, R461: the Purser as SPDM responder. The connection's three steps are taken in their order; certificates, measurements and quotes are answered, signed where asked by the attestation key; a key exchange opens one of two sessions, a further one is answered with SessionLimitExceeded; FINISH completes it or, not verified, ends it; requests inside an open session are answered. -/
def Obligations.Attestation : Prop :=
  let ready (s : State) (p : Transport) : Prop := s.work.spdmUp p = true ∧ (s.work.spdmOf p).negotiated = true
  let inside (s : State) (p : Transport) (n : Nat) : Prop := s.work.spdmUp p = true ∧ (s.work.spdmOf p).negotiated = true ∧ ((s.work.spdmOf p).sessions.any fun (i, ok, _) => i = n && ok) = true
  let replies (s t : State) (p : Transport) (code : Nat) (l : List Nat) (d : List Byte) : Prop :=
    t.hub.sent = .spdm p code l d :: s.hub.sent ∧ Exactly s t (fun h => { h with sent := t.hub.sent, purser := t.hub.purser })
  (∀ s p, s.work.spdmUp p = true → Does (.getVersion p) s fun t =>
    t.work.spdmOf p = { versioned := true, nextSession := (s.work.spdmOf p).nextSession } ∧ replies s t p 0x04 [0x13] [])
  ∧ (∀ s p, s.work.spdmUp p = true → (s.work.spdmOf p).versioned = true → Does (.getCapabilities p) s fun t =>
    t.work.spdmOf p = { s.work.spdmOf p with capable := true } ∧ replies s t p 0x61 [0x62D6] [])
  ∧ (∀ s p, s.work.spdmUp p = true → (s.work.spdmOf p).capable = true → Does (.negotiateAlgorithms p true) s fun t =>
    t.work.spdmOf p = { s.work.spdmOf p with negotiated := true } ∧ replies s t p 0x63 [0x0200, 0x0004, 0x0010, 0x0002, 0x0001] [])
  ∧ (∀ s p, ready s p → Does (.getDigests p) s fun t => (∃ d, replies s t p 0x01 [maskOf s.work.slots] d ∧ d.length = 64 * s.work.slots.length) ∧ t.hub.purser = s.hub.purser)
  ∧ (∀ s p k a n, ready s p → s.work.hasChain k = true → a + n ≤ (s.work.chain k).length → 0 < n → Does (.getCertificate p k a n) s fun t =>
    replies s t p 0x02 [k, n, (s.work.chain k).length - a - n] (slice (s.work.chain k) a n) ∧ t.hub.purser = s.hub.purser)
  ∧ (∀ s p k n, ready s p → s.work.hasChain k = true → Does (.challenge p k n) s fun t =>
    (∃ d, replies s t p 0x03 [k, n] (d ++ s.work.signed (leBytes 32 n ++ d)) ∧ d.length = 128) ∧ t.hub.purser = s.hub.purser)
  ∧ (∀ s p i n, ready s p → i ∈ measIndices → Does (.getMeasurements p i n true) s fun t =>
    replies s t p 0x60 [1, i] (s.work.measurement i ++ s.work.signed (leBytes 32 n ++ s.work.measurement i)) ∧ t.hub.purser = s.hub.purser)
  ∧ (∀ s p x, ready s p → (s.work.spdmOf p).sessions.length < 2 → Does (.keyExchange p x) s fun t =>
    t.work.spdmOf p = { s.work.spdmOf p with sessions := (s.work.spdmOf p).sessions ++ [((s.work.spdmOf p).nextSession, false, 0)], nextSession := (s.work.spdmOf p).nextSession + 1 }
    ∧ (∃ d, t.hub.sent = .spdm p 0x64 [(s.work.spdmOf p).nextSession] d :: s.hub.sent) ∧ t.mem = s.mem)
  ∧ (∀ s p x, ready s p → 2 ≤ (s.work.spdmOf p).sessions.length → Does (.keyExchange p x) s fun t => replies s t p 0x7F [0x0A] [] ∧ t.hub.purser = s.hub.purser)
  ∧ (∀ s p n, ready s p → ((s.work.spdmOf p).sessions.any fun (i, ok, _) => i = n && !ok) = true → Does (.finish p n true) s fun t =>
    ((t.work.spdmOf p).sessions.any fun (i, ok, _) => i = n && ok) = true ∧ (t.work.spdmOf p).sessions.length = (s.work.spdmOf p).sessions.length ∧ replies s t p 0x65 [n] [])
  ∧ (∀ s p n, ready s p → ((s.work.spdmOf p).sessions.any fun (i, ok, _) => i = n && !ok) = true → Does (.finish p n false) s fun t =>
    ((t.work.spdmOf p).sessions.any fun (i, _, _) => i = n) = false ∧ replies s t p 0x7F [0x06] [])
  ∧ (∀ s p n, inside s p n → Does (.heartbeat p n) s fun t => replies s t p 0x68 [n] [] ∧ t.hub.purser = s.hub.purser)
  ∧ (∀ s p n, inside s p n → Does (.keyUpdate p n) s fun t =>
    (t.work.spdmOf p).sessions = (s.work.spdmOf p).sessions.map (fun (i, ok, k) => (i, ok, if i = n then k + 1 else k)) ∧ replies s t p 0x69 [n] [])
  ∧ (∀ s p n, inside s p n → Does (.endSession p n) s fun t => ((t.work.spdmOf p).sessions.any fun (i, _, _) => i = n) = false ∧ replies s t p 0x6C [n] [])
  ∧ ∀ s p b n, ready s p → b < 4096 → Does (.berthQuote p b n) s fun t =>
    replies s t p 0x7E [0x1F8C, 0x0001] (s.work.quote b n ++ s.work.grantList b ++ s.work.signed (s.work.quote b n ++ s.work.grantList b)) ∧ t.hub.purser = s.hub.purser

/-- R425, R426, R457, R465-R470, R473, R474, R477-R480, R482, R483, R510: management orders to the Purser. GET_NONCE gives a nonce that is then unused, GET_IDENTITY the serial and the life-cycle code; an order that passes every check acts, its nonce used, and is answered OK; one that R465 to R469 refuse is answered with that status and changes nothing. -/
def Obligations.Orders : Prop :=
  let passes (s : State) (o : OrderHdr) (code role : Nat) : Prop := s.Calm ∧ s.work.mute = false ∧ s.hub.start.state = 1 ∧ o.order = code ∧ s.work.orderBad o role = none
  let done (s t : State) (o : OrderHdr) (st : Nat) : Prop := t.hub.purser.nonces = rmv s.hub.purser.nonces o.nonce ∧ .order true o.order st o.nonce [] ∈ t.hub.sent ∧ t.mem = s.mem
  let purser (s t : State) : Prop := Exactly s t (fun h => { h with purser := t.hub.purser, sent := t.hub.sent })
  (∀ s, s.work.mute = false → Does (.getNonce true) s fun t => ∃ n < 2 ^ 64, t.hub.purser.nonces = (s.hub.purser.nonces ++ [n]).drop (s.hub.purser.nonces.length + 1 - 16)
    ∧ t.hub.sent = .order true 0x0001 0 0 (leBytes 8 n) :: s.hub.sent ∧ Exactly s t (fun h => { h with purser := t.hub.purser, sent := t.hub.sent, free := t.hub.free }))
  ∧ (∀ s v, s.hub.start.hubRstN = true → s.work.lc ≠ 5 → Does (.getIdentity v) s fun t => (∃ d, d.length = 64
    ∧ t.hub.sent = .order v 0x0002 0 0 (leBytes 8 s.hub.purser.serial ++ leBytes 2 s.hub.purser.lcCode ++ d) :: s.hub.sent) ∧ Exactly s t (fun h => { h with sent := t.hub.sent }))
  ∧ (∀ s o b, passes s o 0x0010 0 → powerOk b = true → (∀ n < 16, siteServing (s.work.site n) = false) → Does (.powerLimit o b) s fun t =>
    t.hub.purser.powerStored = some b ∧ t.hub.bin = { s.hub.bin with body := b } ∧ done s t o 0 ∧ Exactly s t (fun h => { h with purser := t.hub.purser, bin := t.hub.bin, sent := t.hub.sent }))
  ∧ (∀ s o x, passes s o 0x0011 1 → x.port < 4 → x.berthCount ≤ 16384 → s.work.poolRefused x = false → s.work.poolLeaves (s.work.pool x.port) x x.port = [] → Does (.poolWrite o x) s fun t =>
    t.work.pool x.port = x ∧ (∀ p, p ≠ x.port → t.work.pool p = s.work.pool p) ∧ done s t o 0 ∧ Exactly s t (fun h => { h with ten := t.hub.ten, purser := t.hub.purser, sent := t.hub.sent }))
  ∧ (∀ s o p b, passes s o 0x0012 1 → p < 4 → b < 4096 → (s.hub.ten.mgrNext.set p b).Nodup → Does (.mgrSet o [(p, b)]) s fun t =>
    t.hub.ten = { s.hub.ten with mgrNext := s.hub.ten.mgrNext.set p b } ∧ done s t o 0 ∧ Exactly s t (fun h => { h with ten := t.hub.ten, purser := t.hub.purser, sent := t.hub.sent }))
  ∧ (∀ s o c d, passes s o 0x0020 2 → s.hub.purser.intent = none → lcState c = some d → lcAllowed s.work.lc d = true → o.cred ≠ 0 → Does (.lcTransition o c true) s fun t =>
    t.hub.purser.intent = some { source := s.hub.purser.lcCode, target := c, burning := true, nonce := o.nonce } ∧ t.hub.purser.lcCode = s.hub.purser.lcCode ∧ done s t o 1 ∧ purser s t)
  ∧ (∀ s o x, passes s o 0x0028 3 → s.hub.purser.intent = none → x.version = 1 → x.sigOk = true → x.serial = s.hub.purser.serial → x.rsvdZero = true → x.floor ≤ 64 → popcount x.sites 16 = 8 ∨ popcount x.sites 16 = 16 →
    x.sites < 2 ^ 16 → x.hawser < 2 ^ 8 → s.hub.purser.warrantTherm ≤ x.floor → Does (.warrantInstall o x) s fun t =>
      t.hub.purser = { s.hub.purser with nonces := rmv s.hub.purser.nonces o.nonce, warrantStored := some x, warrantTherm := x.floor } ∧ done s t o 0 ∧ purser s t)
  ∧ (∀ s o n, passes s o 0x0030 4 → n < 8 → s.work.lc ≠ 2 → Does (.debugOpen o n []) s fun t =>
    t.hub.purser = { s.hub.purser with nonces := rmv s.hub.purser.nonces o.nonce, debugOpen := true, debugScope := n } ∧ done s t o 0 ∧ purser s t)
  ∧ (∀ s o n, passes s o 0x0030 4 → n < 8 → s.work.lc = 2 → s.work.openTenants ≠ [] → Does (.debugOpen o n []) s fun t =>
    t.hub.sent = .order o.viaEthernet 0x0030 0x16 o.nonce [] :: s.hub.sent ∧ Exactly s t (fun h => { h with sent := t.hub.sent }))
  ∧ (∀ s o, passes s o 0x0031 4 → Does (.debugClose o) s fun t =>
    t.hub.purser = { s.hub.purser with nonces := rmv s.hub.purser.nonces o.nonce, debugOpen := false, debugScope := 0 } ∧ done s t o 0 ∧ purser s t)
  ∧ (∀ s o v l, passes s o 0x0038 5 → l.length = 7 → (∀ c ∈ l, c.roles < 256) → s.hub.purser.credTherm < v → v ≤ 64 → Does (.credSet o v l) s fun t =>
    t.hub.purser.creds = s.hub.purser.creds.take 1 ++ l ∧ t.hub.purser.credStored = t.hub.purser.creds ∧ t.hub.purser.credTherm = v ∧ t.hub.purser.credVersion = v ∧ done s t o 0 ∧ purser s t)
  ∧ (∀ s o d, passes s o 0x0039 5 → s.work.lc = 1 ∨ s.work.lc = 2 → d.length ≤ 2048 → Does (.certSet o d) s fun t =>
    t.hub.purser = { s.hub.purser with nonces := rmv s.hub.purser.nonces o.nonce, slot1 := d } ∧ done s t o 0 ∧ purser s t)
  ∧ ∀ s o c k r st b x l n d, s.Calm → s.work.mute = false → s.hub.start.state = 1 →
    (c, k, r) ∈ [(Instr.powerLimit o b, 0x0010, 0), (.poolWrite o x, 0x0011, 1), (.mgrSet o l, 0x0012, 1), (.lcTransition o n true, 0x0020, 2), (.debugOpen o n l, 0x0030, 4), (.debugClose o, 0x0031, 4), (.certSet o d, 0x0039, 5)] →
    o.order = k → s.work.orderBad o r = some st → Does c s fun t =>
      t.hub.sent = .order o.viaEthernet k st o.nonce [] :: s.hub.sent ∧ Exactly s t (fun h => { h with sent := t.hub.sent })

/-! ## Service, start, registers (19-22) -/

/-- R116, R203, R524, R528, R530, R538, R544, R555-R561: service and firmware orders that pass every check act and are answered OK. Entries of the management Log are read and HEAD is advanced; a reset puts the hub into reset with its blocks as after one; a site is declared dead with cause 23; Assured mode is set; an engine goes out and comes in, a port comes in; a bundle retrains; an image transfer begins, takes chunks and ends with the boot image; a unit is replaced, and done runs the release's firmware. -/
def Obligations.HubOrders : Prop :=
  let passes (s : State) (o : OrderHdr) (code role : Nat) : Prop := s.Calm ∧ s.work.mute = false ∧ s.work.svcPaused = false ∧ s.hub.start.state = 1 ∧ o.order = code ∧ s.work.orderBad o role = none
  let done (s t : State) (o : OrderHdr) (d : List Byte) : Prop := t.hub.svc.order = o.order ∧ t.hub.purser.nonces = rmv s.hub.purser.nonces o.nonce ∧ .order true o.order 0 o.nonce d ∈ t.hub.sent
  (∀ s o a n, passes s o 0x0050 7 → 0 < n → n ≤ 240 → a < 65536 → s.hub.mlog.gapCount = 0 → Does (.logRead o a n false) s fun t =>
    done s t o (s.work.logEntries a n false) ∧ t.hub.mlog = { s.hub.mlog with head := (a + n) % 4096 } ∧ Exactly s t (fun h => { h with svc := t.hub.svc, purser := t.hub.purser, mlog := t.hub.mlog, sent := t.hub.sent }))
  ∧ (∀ s o x, passes s o 0x0052 7 → s.work.resetHeldOff = false → s.mem.wf = true → Does (.resetOrder o x false) s fun t =>
    t.hub.start.hubRstN = false ∧ (t.hub.ledger, t.hub.fabric) = ({}, {}) ∧ t.hub.chart = {} ∧ t.hub.helm = {} ∧ t.hub.bearings.length + t.hub.tables.length + t.hub.wrights.length = 0 ∧ t.hub.memory.owner.length = 0
    ∧ t.hub.ten.mgr = s.hub.ten.mgrNext ∧ t.hub.purser.nonces = [] ∧ t.hub.purser.warrantStored = s.hub.purser.warrantStored ∧ t.mem.byte 0x004000000000 = 0)
  ∧ (∀ s o n, passes s o 0x0056 7 → n < 16 → siteServing (s.work.site n) = true → (s.work.site n).recal = none → (s.work.site n).port.tokIns = [] → (s.work.site n).port.tokQueue = [] → s.hub.helm.waiters = [] ∧ s.hub.helm.held = [] → s.hub.helm.sems = [] →
    Does (.deadAgent o n) s fun t => (t.work.site n).state = 4 ∧ (t.work.site n).cause = 23 ∧ (t.work.site n).reclaiming = true ∧ (t.work.site n).power.rstN = false ∧ done s t o [])
  ∧ (∀ s o b, passes s o 0x0057 7 → Does (.assured o b) s fun t => t.hub.svc.assured = b ∧ done s t o [] ∧ Within s t (fun h => { h with svc := t.hub.svc, purser := t.hub.purser }))
  ∧ (∀ s o g, passes s o 0x0053 7 → g < 64 → (s.work.wright g).out = false → (s.work.wright g).run = none → (s.work.wright g).queue = [] → s.hub.helm.waiters = [] ∧ s.hub.helm.held = [] → s.hub.helm.sems = [] → Does (.unitOut o 1 g) s fun t =>
    (t.work.wright g).out = true ∧ (t.work.wright g).run = none ∧ t.hub.svc.action = some (1, g) ∧ done s t o [])
  ∧ (∀ s o g, passes s o 0x0054 7 → g < 64 → (s.work.wright g).out = true → (s.work.wright g).failed = false → (s.work.wright g).run = none → Does (.unitIn o 1 g true) s fun t =>
    (t.work.wright g).out = false ∧ (t.work.wright g).mem = [] ∧ t.hub.svc.action = some (1, g) ∧ done s t o [])
  ∧ (∀ s o p b, passes s o 0x0054 7 → p < 4 → Does (.unitIn o 5 p b) s fun t =>
    t.work.port p = { s.work.port p with heldOut := false } ∧ done s t o [] ∧ Exactly s t (fun h => { h with ports := t.hub.ports, svc := t.hub.svc, purser := t.hub.purser, sent := t.hub.sent }))
  ∧ (∀ s o n k, passes s o 0x0055 7 → n < 16 → k < 16 → siteServing (s.work.site n) = true → (s.work.bundle n k).active = true → (s.work.bundle n k).retraining = false → (s.work.site n).link.limp = .off →
    othersOf (s.work.site n).link k ≠ [] → Does (.recal o 0 n k) s fun t =>
      (t.work.bundle n k).retraining = true ∧ t.hub.svc.action = some (10, n * 16 + k) ∧ done s t o [] ∧ Within s t (fun h => { h with sites := t.hub.sites, svc := t.hub.svc, purser := t.hub.purser }))
  ∧ (∀ s o n, passes s o 0x0040 6 → 4096 ≤ n → n ≤ 2 ^ 25 → Does (.imageBegin o n) s fun t =>
    t.hub.start = { s.hub.start with transfer := some { len := n }, flashValid := false } ∧ done s t o [] ∧ Exactly s t (fun h => { h with start := t.hub.start, svc := t.hub.svc, purser := t.hub.purser, sent := t.hub.sent }))
  ∧ (∀ s o a d x, passes s o 0x0041 6 → s.hub.start.transfer = some x → x.recovery = false → d.length ≤ 7936 → a + d.length ≤ x.len → Does (.imageChunk o a d) s fun t =>
    .flash a d ∈ t.hub.sent ∧ done s t o [] ∧ Exactly s t (fun h => { h with svc := t.hub.svc, purser := t.hub.purser, sent := t.hub.sent }))
  ∧ (∀ s o x f b c, passes s o 0x0042 6 → s.hub.start.transfer = some x → x.recovery = false → imageBad f = none → Does (.imageCommit o b c f) s fun t =>
    t.hub.start = { s.hub.start with transfer := none, flashValid := true, flashVersion := f.version } ∧ done s t o []
    ∧ Exactly s t (fun h => { h with start := t.hub.start, svc := t.hub.svc, purser := t.hub.purser, sent := t.hub.sent }))
  ∧ (∀ s o u i f, passes s o 0x0043 6 → s.hub.svc.replacing = none → u < 3 → i < 8 → s.hub.start.flashValid = true → imageBad f = none → Does (.unitReplace o u i f) s fun t =>
    t.hub.svc = { s.hub.svc with order := 0x0043, partly := true, replacing := some (u, i), replaceNonce := o.nonce, replaceVersion := f.version }
    ∧ t.hub.purser.nonces = rmv s.hub.purser.nonces o.nonce ∧ Exactly s t (fun h => { h with svc := t.hub.svc, purser := t.hub.purser }))
  ∧ ∀ s i, s.Calm → s.hub.svc.replacing = some (0, i) → s.work.replaceDrained 0 i = true → s.hub.heldOrders = [] → Does (.unitReplaceDone true) s fun t =>
    t.hub.svc.replacing = none ∧ t.hub.svc.partly = false ∧ tfind t.hub.purser.meas 0x13 = some (Config.digest 2 [3, s.hub.svc.replaceVersion]) ∧ .order true 0x0043 0 s.hub.svc.replaceNonce [] ∈ t.hub.sent
    ∧ Within s t (fun h => { h with svc := t.hub.svc, purser := t.hub.purser })

/-- R474, R524, R529, R530, R532, R536, R538, R539, R541, R545, R546, R591, R593, R599: resets and starts, and the detection of faults. A burn that reads back its target is done, one that lacks bits is burnt once more; HUB_RST_N and a bad rail reset the hub; its release starts it, to recovery where the strap asks for it, to its last step where nothing is found bad; the end of a warm start puts the hub in service; a second start that takes too long stops with cause 4; the profile is written to the copy of lower sequence; rails and clocks are noted; a failed slice takes its engine out; checkers, clocks and watchdogs are recorded. That a start runs whole at the release of the hub is the model's choice (log 99). -/
def Obligations.Starts : Prop :=
  let assured (s : State) : Prop := s.Calm ∧ s.work.serves = true ∧ s.hub.svc.assured = true
  let idle (s : State) (g : Nat) : Prop := s.work.wrightServes g = true ∧ (s.work.wright g).run = none ∧ (s.work.wright g).queue = [] ∧ s.hub.helm.waiters = [] ∧ s.hub.helm.held = [] ∧ s.hub.helm.sems = []
  (∀ s i n, s.Calm → s.hub.purser.intent = some i → i.burning = true → i.source ||| (n &&& i.target) = i.target → s.hub.start.resetHeld = false → (∀ p < 4, (s.work.port p).perstHeld = false) → Does (.lcBurnDone n) s fun t =>
    t.hub.purser = { s.hub.purser with fuseCode := i.target, intent := some { i with burning := false } } ∧ .order true 0x0020 2 i.nonce [] ∈ t.hub.sent ∧ Within s t (fun h => { h with purser := t.hub.purser }))
  ∧ (∀ s i n, s.Calm → s.hub.purser.intent = some i → i.burning = true → i.source ||| (n &&& i.target) ≠ i.target → i.retried = false → Does (.lcBurnDone n) s fun t =>
    t.hub.purser = { s.hub.purser with fuseCode := i.source ||| (n &&& i.target), intent := some { i with retried := true } } ∧ Exactly s t (fun h => { h with purser := t.hub.purser }))
  ∧ (∀ s, s.hub.start.hubRstN = true → s.work.resetHeldOff = false → Does .hubRstNAssert s fun t =>
    t.hub.start.hubRstN = false ∧ t.hub.start.coldPending = (s.hub.start.cold && decide (s.hub.start.state ≠ 1) || s.hub.start.coldPending) ∧ t.hub.purser.serial = s.hub.purser.serial ∧ t.hub.purser.nonces = []
    ∧ t.hub.ten.mgr = s.hub.ten.mgrNext ∧ (t.hub.hawser, t.hub.bin) = ({}, {}) ∧ ∀ n < 16, (t.work.site n).power.pwrEn = false ∧ (t.work.site n).power.rstN = false)
  ∧ (∀ s r, s.hub.start.hubRstN = true → s.work.resetHeldOff = false → Does (.railOutOfRange r) s fun t =>
    t.hub.start.hubRstN = false ∧ t.hub.start.coldPending = true ∧ r ∈ t.hub.board.railsBad)
  ∧ (∀ s x d, s.Calm → x.powerOn = false → s.work.mayLeaveReset = true → lcState s.hub.purser.fuseCode = some d → d ≠ 4 → x.strapRecovery = true → Does (.hubRstNRelease x) s fun t =>
    t.hub.start.hubRstN = true ∧ t.hub.start.state = 2 ∧ t.hub.start.cause = 0 ∧ t.hub.purser.lcCode = s.hub.purser.fuseCode
    ∧ (t.hub.start.cold = true → t.hub.start.step = 3) ∧ (t.hub.start.cold = false → t.hub.start.step = 1) ∧ Within s t (fun h => { h with start := t.hub.start, board := t.hub.board, purser := t.hub.purser }))
  ∧ (∀ s d, s.Calm → s.work.mayLeaveReset = true → lcState s.hub.purser.fuseCode = some d → d ≠ 4 → s.hub.start.flashValid = true → s.hub.start.stored.valid = true → s.hub.start.stored.units = [] → s.hub.start.coldPending = false →
    s.hub.start.fuses.lanes = [] → s.hub.start.fuses.wrights = [] → s.hub.sites = [] → s.hub.purser.intent = none → 28 ≤ s.hub.memory.rate → s.hub.memory.clamshell = false →
    s.hub.start.stored.rates = [] → Does (.hubRstNRelease {}) s fun t =>
      t.hub.start.hubRstN = true ∧ t.hub.start.state = 0 ∧ t.hub.start.step = 5 ∧ t.hub.start.cold = false ∧ t.hub.start.wrightMap = List.range 64 ∧ t.hub.start.selfRefresh = false
      ∧ t.hub.purser.warrant = s.hub.purser.warrantStored.bind fun y => if s.hub.purser.warrantTherm ≤ y.floor then some y else none)
  ∧ (∀ s, s.Calm → s.work.startRuns = true → s.hub.start.cold = false → ((List.range 16).any fun n => siteServing (s.work.site n)) = true → s.hub.heldOrders = [] → Does .startComplete s fun t =>
    t.hub.start = { s.hub.start with state := 1, step := 6, restarted := false } ∧ (∀ p ∈ s.work.portsUp, (t.work.port p).ready = true) ∧ Within s t (fun h => { h with start := t.hub.start }))
  ∧ (∀ s, s.Calm → s.work.startRuns = true → s.hub.start.restarted = true → Does .startStepTimeout s fun t =>
    t.hub.start = { s.hub.start with state := 3, cause := 4 } ∧ Within s t (fun h => { h with start := t.hub.start }))
  ∧ (∀ s, s.Calm → s.work.serves = true → s.hub.start.profile.pendingWrite = true → s.hub.start.lastWrite = none → Does .profileWrite s fun t =>
    t.hub.start.profile = { s.hub.start.profile with pendingWrite := false, valid := true } ∧ t.hub.start.stored = t.hub.start.profile ∧ t.hub.start.lastWrite = some s.hub.now
    ∧ (if s.hub.start.seqA ≤ s.hub.start.seqB then t.hub.start.seqA = s.hub.start.seqB + 1 ∧ t.hub.start.seqB = s.hub.start.seqB else t.hub.start.seqB = s.hub.start.seqA + 1 ∧ t.hub.start.seqA = s.hub.start.seqA)
    ∧ Exactly s t (fun h => { h with start := t.hub.start, sent := t.hub.sent }))
  ∧ (∀ s r, s.Calm → Does (.railBackInRange r) s fun t => Exactly s t (fun h => { h with board := { h.board with railsBad := rmv h.board.railsBad r } }))
  ∧ (∀ s c, s.Calm → c < 9 → c ∉ s.hub.board.clocksLost → s.hub.start.hubRstN = false → Does (.refclkLoss c) s fun t => c ∈ t.hub.board.clocksLost ∧ Exactly s t (fun h => { h with board := t.hub.board }))
  ∧ (∀ s, 8 ∉ s.hub.board.clocksLost → s.hub.start.hubRstN = true → s.work.resetHeldOff = false → Does (.refclkLoss 8) s fun t => t.hub.start.hubRstN = false ∧ t.hub.start.coldPending = true ∧ 8 ∈ t.hub.board.clocksLost)
  ∧ (∀ s c, s.Calm → Does (.refclkReturn c) s fun t => Exactly s t (fun h => { h with board := { h.board with clocksLost := rmv h.board.clocksLost c } }))
  ∧ (∀ s g, assured s → Does (.selfTestSlice g true) s fun t => Exactly s t id)
  ∧ (∀ s g, assured s → idle s g → Does (.selfTestSlice g false) s fun t => (t.work.wright g).out = true ∧ (t.work.wright g).run = none)
  ∧ (∀ s g, s.Calm → s.work.serves = true → idle s g → Does (.watchdogExpiry g) s fun t => (t.work.wright g).out = true ∧ (t.work.wright g).run = none)
  ∧ (∀ s c, assured s → Does (.checkerInjection c false) s fun t => t.hub.mlog ≠ s.hub.mlog ∧ Within s t id)
  ∧ (∀ s c, s.Calm → s.work.serves = true → Does (.clockCheck c true) s fun t => t.hub.mlog ≠ s.hub.mlog ∧ Within s t id)
  ∧ ∀ s p n, assured s → p < 48 → n < 65536 → (recent s.hub.now 1000000 (tget [] s.hub.memory.rowErrors (p * 65536 + n))).length < 8 → Does (.patrol [(p, n)] []) s fun t =>
    tget [] t.hub.memory.rowErrors (p * 65536 + n) = s.hub.now :: recent s.hub.now 1000000 (tget [] s.hub.memory.rowErrors (p * 65536 + n)) ∧ t.mem = s.mem ∧ Within s t (fun h => { h with memory := t.hub.memory })

/-- R13, R14, R300, R308, R335, R376, R398, R434, R493, R528, R530, R549, R563-R566, R570, R571, R575-R579, R602: writes of registers. An accepted REG_WRITE changes its register and is answered with its value; so do those of the hub number, the system record and the regulation window; a host's write changes a register of its port, or the base of a ring that is not enabled; one that only management may make changes nothing; a berth moves to a group, a region and a partition become busy for their new class and mode; a Log is enabled with its pointers at 0, its priority section emptied, its HEAD advanced; CHART_HOT is enabled. A manager's read of a register answers its value, zero for a unit outside its pool and for SVC_STAT, and all-ones where it is not aligned. GO asks for an image in recovery, and one that passes runs. -/
def Obligations.RegisterWrites : Prop :=
  let passes (s : State) (o : OrderHdr) : Prop := s.Calm ∧ s.work.mute = false ∧ s.work.svcPaused = false ∧ s.hub.start.state = 1 ∧ o.order = 0x0051 ∧ s.work.orderBad o 7 = none
  let apart (s : State) : Prop := s.hub.hawser.ports = [] ∧ s.hub.hawser.outstanding = [] ∧ s.hub.hawser.winWait = [] ∧ s.hub.helm.gates = []
  let told (t : State) (o : OrderHdr) (v : Nat) : Prop := .order true 0x0051 0 o.nonce (leBytes 8 v) ∈ t.hub.sent ∧ t.hub.svc.order = 0x0051
  let host (s : State) (p : Nat) : Prop := s.Calm ∧ s.work.barOpen { port := p, func := 0 } = true ∧ (s.work.func { port := p, func := 0 }).flr = false ∧ (s.work.func { port := p, func := 0 }).d3hot = false
  let serves (s : State) (p : Nat) : Prop := host s p ∧ s.hub.start.state = 1
  (∀ s o v, passes s o → 64 ≤ bits v 12 0 → bits v 12 0 ≤ 4096 → Does (.regWrite o 0x1010 v (2 ^ 64 - 1)) s fun t =>
    t.hub.ten = { s.hub.ten with scrubInterval := bits v 12 0 } ∧ told t o (bits v 12 0) ∧ Exactly s t (fun h => { h with ten := t.hub.ten, svc := t.hub.svc, purser := t.hub.purser, sent := t.hub.sent }))
  ∧ (∀ s o v, passes s o → apart s → v < 1024 → Does (.hwsIdWrite o v) s fun t => t.hub.hawser.id = v ∧ told t o v)
  ∧ (∀ s o v, passes s o → apart s → v < 2 ^ 64 → Does (.hwsSysWrite o 0 v (2 ^ 64 - 1)) s fun t =>
    bits t.hub.hawser.sys 63 0 = v ∧ bits t.hub.hawser.sys 191 64 = bits s.hub.hawser.sys 191 64 ∧ told t o v)
  ∧ (∀ s o n, passes s o → 10 ≤ n → n ≤ 10000 → Does (.bwrCfgWindowWrite o n) s fun t =>
    t.hub.bwr.window = n ∧ (t.hub.bwr.groups, t.hub.bwr.recs, t.hub.bwr.res) = (s.hub.bwr.groups, s.hub.bwr.recs, s.hub.bwr.res) ∧ Exactly s t (fun h => { h with bwr := t.hub.bwr, svc := t.hub.svc, purser := t.hub.purser, sent := t.hub.sent }))
  ∧ (∀ s p v, serves s p → 1 ≤ bits v 9 0 → bits v 9 0 ≤ 1000 → v < 2 ^ 64 → Does (.registerWrite (some { port := p, func := 0 }) 0x30 8 v) s fun t =>
    t.work.port p = { s.work.port p with l1Idle := bits v 9 0 } ∧ Within s t id ∧ t.mem = s.mem ∧ ∀ q, q ≠ p → t.work.port q = s.work.port q)
  ∧ (∀ s f b page r v, s.Calm → s.hub.start.state = 1 → s.work.barOpen f = true → (s.work.func f).flr = false → (s.work.func f).d3hot = false → (s.work.func f).tdi ≠ .error → s.work.berthAt f page = some b → r < 4 →
    (s.work.ring b r).enable = false → (s.work.ring b r).state ≠ 3 → v < 2 ^ 64 → Does (.registerWrite (some f) (2 ^ 32 + 4096 * page + 0x100 + 0x40 * r) 8 v) s fun t =>
      t.work.ring b r = { s.work.ring b r with base := v / 4096 * 4096 } ∧ Within s t (fun h => { h with ten := t.hub.ten }) ∧ t.mem = s.mem)
  ∧ (∀ s p v, serves s p → Does (.registerWrite (some { port := p, func := 0 }) 0x1010 8 v) s fun t => t.hub.ten = s.hub.ten ∧ Within s t id ∧ t.mem = s.mem)
  ∧ (∀ s p b g, serves s p → b < 4096 → g < 64 → 0 < g → inRun (s.work.pool p).berthFirst (s.work.pool p).berthCount b = true → bit (s.work.pool p).regroups g = true → Does (.bwrBerthWrite (some p) b g) s fun t =>
    t.work.groupOf b = g ∧ (∀ c, c ≠ b → t.work.groupOf c = s.work.groupOf c) ∧ Within s t (fun h => { h with bwr := t.hub.bwr }) ∧ t.mem = s.mem)
  ∧ (∀ s p r c, serves s p → r < s.work.regions → c < 3 → bit (s.work.pool p).regions r = true → c ≠ (s.work.region r).cls → (s.work.region r).busy = false → (s.work.region r).hubArea = false →
    s.work.regionOwned r = false → Does (.memRegionClassWrite (some p) r c) s fun t =>
      t.work.region r = { s.work.region r with busy := true, nextCls := c } ∧ (∀ k, k ≠ r → t.work.region k = s.work.region k) ∧ Within s t (fun h => { h with memory := t.hub.memory }) ∧ t.mem = s.mem)
  ∧ (∀ s p i b, serves s p → i < 48 → bit (s.work.pool p).hold i = true → (s.work.part i).busy = false → (s.work.part i).mode = 0 → i / 16 ∉ s.hub.memory.diesOut → b < 4096 → (s.work.berth b).state = .open →
    inRun (s.work.pool p).berthFirst (s.work.pool p).berthCount b = true → (∀ l ∈ s.hub.memory.hold, l.part ≠ i) → Does (.holdPartWrite (some p) i 1 b) s fun t =>
      t.work.part i = { s.work.part i with busy := true, nextMode := 1, nextHolder := b } ∧ (∀ k, k ≠ i → t.work.part k = s.work.part k) ∧ Within s t (fun h => { h with memory := t.hub.memory }) ∧ t.mem = s.mem)
  ∧ (∀ s p v, serves s p → (s.work.port p).log.enable = false → bit v 0 = true → 6 ≤ bits v 5 1 → bits v 5 1 ≤ 16 → v < 2 ^ 64 → Does (.logEnable p v) s fun t =>
    (t.work.port p).log = { (s.work.port p).log with enable := true, log2 := bits v 5 1, minSev := bits v 9 7, tail := 0, head := 0, passes := 0, pri := [] } ∧ Within s t id)
  ∧ (∀ s p, serves s p → (s.work.port p).log.minSev < 8 → (s.work.port p).log.log2 < 32 → Does (.priClear p) s fun t => (t.work.port p).log = { (s.work.port p).log with pri := [] } ∧ Within s t id)
  ∧ (∀ s p n, serves s p → n < 2 ^ (s.work.port p).log.log2 → n < 65536 → (s.work.port p).log.gapCount = 0 → Does (.logHeadWrite (some p) n) s fun t =>
    (t.work.port p).log = { (s.work.port p).log with head := n } ∧ Within s t id ∧ t.mem = s.mem)
  ∧ (∀ s n, s.Calm → s.work.mute = false → s.hub.start.state = 1 → n < 4096 → s.hub.mlog.gapCount = 0 → Does (.logHeadWrite none n) s fun t =>
    t.hub.mlog = { s.hub.mlog with head := n } ∧ Exactly s t (fun h => { h with mlog := t.hub.mlog }))
  ∧ (∀ s p v, serves s p → (s.work.port p).hotRing.enable = false → bit v 0 = true → 4 ≤ bits v 5 1 → bits v 5 1 ≤ 16 → v < 2 ^ 64 → Does (.chartHotEnable p v) s fun t =>
    ((t.work.port p).hotRing.enable, (t.work.port p).hotRing.log2, (t.work.port p).hotRing.addr, (t.work.port p).hotRing.tail, (t.work.port p).hotRing.head) = (true, bits v 5 1, v / 4096 * 4096, 0, 0)
    ∧ Within s t id ∧ t.mem = s.mem)
  ∧ (∀ s p v, host s p → s.hub.start.state = 2 → s.hub.start.fetchPort = none → v < 2 ^ 64 → Does (.bootCtlGo p v) s fun t =>
    t.hub.start = { s.hub.start with fetchPort := some p } ∧ .bootRead p (s.work.port p).bootSrc 256 ∈ t.hub.sent ∧ (t.work.port p).bootResult = 1 ∧ (t.work.port p).bootWrite = bit v 1 ∧ t.mem = s.mem)
  ∧ (∀ s p f b, s.Calm → s.hub.start.state = 2 → s.hub.start.fetchPort = some p → f.sigOk = false → Does (.recoveryImageFetched (some p) .ok f b) s fun t =>
    t.hub.start = { s.hub.start with fetchPort := none } ∧ (t.work.port p).bootResult = 3 ∧ Within s t (fun h => { h with start := t.hub.start }))
  ∧ (∀ (s : State) p r n, s.work.streamSecure { port := p, func := 0 } = true → (s.work.func { port := p, func := 0 }).flr = false → (s.work.func { port := p, func := 0 }).d3hot = false →
    (s.work.func { port := p, func := 0 }).tdi = .unlocked → (r, n) ∈ [(Reg.binStat, 0x60000), (.memCfg, 0x20000), (.svcStat, 0x1100), (.slinkStat 7, 0x101C8), (.holdPart 5, 0x21028)] →
    (s.work.barRead { port := p, func := 0 } n 8).1 = s.work.seenReg p r % 2 ^ 64 ∧ (s.work.barRead { port := p, func := 0 } (n + 1) 8).1 = 2 ^ 64 - 1
    ∧ (bit (s.work.pool p).sites 7 = false → s.work.seenReg p (.slinkStat 7) = 0) ∧ (bit (s.work.pool p).hold 5 = false → s.work.seenReg p (.holdPart 5) = 0) ∧ s.work.seenReg p .svcStat = 0)
  ∧ ∀ s p f b, s.Calm → s.hub.start.state = 2 → s.hub.start.fetchPort = some p → f.sigOk = true → imageShape f = true → (s.work.port p).bootWrite = false → s.hub.start.event = {} → s.hub.start.cold = false → s.hub.start.burnt = false →
    s.hub.start.profile.units = [] → s.hub.start.profile.rates = [] → 28 ≤ s.hub.memory.rate → s.hub.start.fuses.lanes = [] → s.hub.start.fuses.wrights = [] → s.hub.sites = [] → Does (.recoveryImageFetched (some p) .ok f b) s fun t =>
      t.hub.start.state = 0 ∧ t.hub.start.step = 5 ∧ t.hub.start.fetchPort = none ∧ t.hub.start.wrightMap = List.range 64 ∧ (t.work.port p).bootResult = 2

/-! ## Hawser (17) -/

/-- R145, R359, R360, R488-R492, R494-R502, R504, R505: the fabric between hubs. A good frame in order is acknowledged and its credits join the port's; an acknowledgement frees the retry buffer; a frame that is bad or past a gap is answered with NAK. Training gives a Control-only link with full credits that sends its muster record; a record that agrees makes the link Full, one that does not leaves it Control-only with the cause; lost lanes bring a retrain. A window request goes on into the fabric under the import's berth, one without an import is DENIED; an answer or a timeout ends the request it names; a routed packet goes to its keeper; a message stalled too long is given up; an UNREACH marks its hub until its hold ends. One item goes in a frame (the model's choice, log 105). Where the Logs hear, memory below the hosts' is as before. -/
def Obligations.HawserLinks : Prop :=
  let lone (s : State) : Prop := s.hub.hawser.routes = [] ∧ s.hub.hawser.outstanding = [] ∧ s.hub.hawser.winWait = [] ∧ s.hub.helm.gates = []
  let ready (x : HPort) : Prop := x.txWait = [] ∧ x.retry.length < 250
  let apart (s t : State) (p : Nat) : Prop := t.mem = s.mem ∧ Within s t (fun h => { h with hawser := t.hub.hawser }) ∧ ∀ q, q ≠ p → t.work.hport q = s.work.hport q
  let logs (s t : State) : Prop := ∀ a < 0x0008000000000000, t.mem.byte a = s.mem.byte a
  let hdr (frame : List Byte) : Nat := leNat (frame.take 4)
  (∀ s p frame, s.work.hportTrained p = true → hwsGood frame = true → bits (hdr frame) 3 0 = 0 → bit (hdr frame) 28 = false → bits (hdr frame) 15 4 = (s.work.hport p).expFseq →
    bits (leNat (slice frame 8 16)) 1 0 ≠ 3 → Does (.hawserFrame p frame 0 true) s fun t =>
      t.work.hport p = { s.work.hport p with expFseq := ((s.work.hport p).expFseq + 1) % 4096, discarding := false, nakRow := 0 }
      ∧ .hawserFrame p 1 (s.work.hport p).expFseq false ∈ t.hub.sent ∧ apart s t p)
  ∧ (∀ s p frame, s.work.hportTrained p = true → hwsGood frame = true → bits (hdr frame) 3 0 = 0 → bit (hdr frame) 28 = false → bits (hdr frame) 15 4 = (s.work.hport p).expFseq →
    bits (leNat (slice frame 8 16)) 1 0 = 3 → (s.work.hport p).bodyWait = [] → Does (.hawserFrame p frame 0 true) s fun t =>
      (∀ c < 6, tget 0 (t.work.hport p).credits c = tget 0 (s.work.hport p).credits c + bits (leNat (slice frame 8 16)) (17 + 16 * c) (2 + 16 * c))
      ∧ (t.work.hport p).expFseq = ((s.work.hport p).expFseq + 1) % 4096 ∧ .hawserFrame p 1 (s.work.hport p).expFseq false ∈ t.hub.sent ∧ apart s t p)
  ∧ (∀ s p frame i, s.work.hportTrained p = true → hwsGood frame = true → bits (hdr frame) 3 0 = 1 → bit (hdr frame) 28 = true → bit (hdr frame) 29 = false →
    (s.work.hport p).retry.findIdx? (fun x => decide (x.1 = bits (hdr frame) 27 16)) = some i → (s.work.hport p).txWait = [] → Does (.hawserFrame p frame 0 true) s fun t =>
      t.work.hport p = { s.work.hport p with retry := (s.work.hport p).retry.drop (i + 1), txNaks := 0 } ∧ apart s t p)
  ∧ (∀ s p frame n ok, s.work.hportTrained p = true → ok = false ∨ hwsGood frame = false → (s.work.hport p).nakRow < 7 → (s.work.hport p).failTimes = [] →
    Does (.hawserFrame p frame n ok) s fun t =>
      (t.work.hport p).discarding = true ∧ (t.work.hport p).failTimes = [s.hub.now] ∧ (t.work.hport p).expFseq = (s.work.hport p).expFseq
      ∧ .hawserFrame p 1 (((s.work.hport p).expFseq + 4095) % 4096) true ∈ t.hub.sent ∧ apart s t p)
  ∧ (∀ s p l, s.work.hportMayTrain p = true → s.work.hport p = { training := true, dateline := (s.work.hport p).dateline, mseq := (s.work.hport p).mseq } → lone s → 0 < hwsWidth l →
    Does (.hawserTrainingDone p l) s fun t =>
      (t.work.hport p).state = 3 ∧ (t.work.hport p).training = false ∧ (t.work.hport p).lanes = hwsWidth l ∧ (∀ c < 6, tget 0 (t.work.hport p).credits c = 192)
      ∧ .muster p (s.work.muster p) ∈ t.hub.sent ∧ apart s t p)
  ∧ (∀ s p l, s.work.hportMayTrain p = true → (s.work.hport p).state = 0 → (s.work.hport p).training = true → hwsWidth l = 0 → Does (.hawserTrainingDone p l) s fun t =>
    t.work.hport p = { s.work.hport p with training := false } ∧ Exactly s t (fun h => { h with hawser := t.hub.hawser }))
  ∧ (∀ s p, s.work.hportMayTrain p = true → (s.work.hport p).state = 0 → Does (.hawserTrainingRetry p) s fun t =>
    t.work.hport p = { s.work.hport p with training := true } ∧ Exactly s t (fun h => { h with hawser := t.hub.hawser }))
  ∧ (∀ s p l, s.work.hportTrained p = true → l < 4 → lone s → Does (.hawserLaneLoss p l) s fun t =>
    (t.work.hport p).state = 4 ∧ (t.work.hport p).retry = (s.work.hport p).retry ∧ .hawserFrame p 2 0 false ∈ t.hub.sent ∧ apart s t p)
  ∧ (∀ s p m, s.work.hportTrained p = true → s.work.musterCause p m = 0 → m.view = 1 → (s.work.hport p).bodyWait = [] → lone s → Does (.musterRecord p m) s fun t =>
    (t.work.hport p).state = (if (s.work.hport p).lanes = 4 then 1 else 2) ∧ (t.work.hport p).cause = 0 ∧ (t.work.hport p).view = 1 ∧ (t.work.hport p).peer = some m ∧ logs s t ∧ Within s t (fun h => { h with hawser := t.hub.hawser }) ∧ ∀ q, q ≠ p → t.work.hport q = s.work.hport q)
  ∧ (∀ s p m, s.work.hportTrained p = true → s.work.musterCause p m ≠ 0 → (s.work.hport p).bodyWait = [] → lone s → Does (.musterRecord p m) s fun t =>
    (t.work.hport p).state = 3 ∧ (t.work.hport p).cause = s.work.musterCause p m ∧ (t.work.hport p).view = 2 ∧ (t.work.hport p).viewCause = s.work.musterCause p m ∧ logs s t ∧ Within s t (fun h => { h with hawser := t.hub.hawser }) ∧ ∀ q, q ≠ p → t.work.hport q = s.work.hport q)
  ∧ (∀ s p, s.work.hportTrained p = true → ready (s.work.hport p) → Does (.musterPeriodic p) s fun t =>
    .muster p (s.work.muster p) ∈ t.hub.sent ∧ (t.work.hport p).mseq = ((s.work.hport p).mseq + 1) % 65536 ∧ apart s t p)
  ∧ (∀ s p (m : BodyMsg) x e d, s.work.hportUp p = true → m.cls = 0 → m.mkind = 0 → m.dstHub = s.work.hubId → s.hub.hawser.inbound = [] → m.opcode = 0x10 ∨ m.opcode = 0x14 →
    tfind s.hub.chart.imports m.imp = some x → s.hub.hawser.edgeOut = false → (s.work.berth x.berth).state ≠ .free → x.anySrc = true ∨ x.srcHub = m.srcHub → m.offset < x.len * 65536 → (m.opcode = 0x14 → x.wr = true) →
    malformed m.opcode { berth := x.berth, tag := m.tag, size := m.size, opspec := m.opspec, addr := x.base + m.offset } = none →
    ((s.work.hwsGiveBack p m.lane m).xlate 128 x.berth (x.base + m.offset) { write := decide (m.opcode = 0x14), engine := false }).1 = .ok e d → bit e 24 = false →
    isWindow (s.work.target d) = false → Does (.windowRequest p m) s fun t =>
      (∃ r, tfind t.hub.fabric.reqs s.hub.fabric.nextId = some r ∧ r.agent = .hawser m.srcHub m.tag ∧ r.kind = kindOf m.opcode ∧ r.berth = x.berth ∧ r.dpa = d
        ∧ r.data = slice m.payload 0 (32 * reqBeats m.opcode m.size)) ∧ t.hub.hawser.inbound = [] ∧ t.mem = s.mem)
  ∧ (∀ s p q (m : BodyMsg), s.work.hportUp p = true → m.cls = 0 → m.mkind = 0 → m.dstHub = s.work.hubId → s.hub.hawser.inbound = [] → tfind s.hub.chart.imports m.imp = none →
    s.work.route m.srcHub = some q → (s.work.hport q).dateline = false → ready (s.work.hport p) → ready (s.work.hport q) → (s.work.hport q).bodyWait = [] → 0 < tget 0 (s.work.hport q).credits 2 →
    Does (.windowRequest p m) s fun t =>
      .body q { cls := 1, mkind := 1, dstHub := m.srcHub, srcHub := s.work.hubId, tag := m.tag, opcode := 0x30, status := 3, detail := 1 } ∈ t.hub.sent
      ∧ t.mem = s.mem ∧ Within s t (fun h => { h with hawser := t.hub.hawser }))
  ∧ (∀ s p (m : BodyMsg) o n, s.Calm → s.work.hportUp p = true → m.cls = 1 → m.mkind = 1 → m.dstHub = s.work.hubId → tfind s.hub.hawser.outstanding m.tag = some o → o.hub = m.srcHub →
    o.req.agent = .site n → s.hub.hawser.winWait = [] → Does (.windowAnswer p m) s fun t =>
      tfind t.hub.hawser.outstanding m.tag = none ∧ (∃ r, tfind t.hub.fabric.rsps s.hub.fabric.nextId = some r ∧ r.site = n ∧ r.tag = o.req.tag ∧ r.status = m.status
        ∧ (if m.opcode = 0x40 then r.read = true ∧ r.data = m.payload else r.read = false ∧ r.detail = m.detail))
      ∧ t.mem = s.mem ∧ Within s t (fun h => { h with hawser := t.hub.hawser, fabric := t.hub.fabric }))
  ∧ (∀ s p (m : BodyMsg), s.Calm → s.work.hportUp p = true → m.cls = 1 → m.mkind = 1 → m.dstHub = s.work.hubId → tfind s.hub.hawser.outstanding m.tag = none → Does (.windowAnswer p m) s fun t =>
    t.hub.hawser.outstanding = s.hub.hawser.outstanding ∧ apart s t p)
  ∧ (∀ s g o n, s.Calm → tfind s.hub.hawser.outstanding g = some o → o.req.agent = .site n → s.hub.hawser.winWait = [] → Does (.reqTimeout g) s fun t =>
    tfind t.hub.hawser.outstanding g = none ∧ (∃ r, tfind t.hub.fabric.rsps s.hub.fabric.nextId = some r ∧ r.site = n ∧ r.tag = o.req.tag ∧ r.status = 4 ∧ r.read = false)
    ∧ Exactly s t (fun h => { h with hawser := t.hub.hawser, fabric := t.hub.fabric }))
  ∧ (∀ s p (m : BodyMsg) x, s.work.hportUp p = true → m.cls = 2 → m.mkind = 2 → m.dstHub = s.work.hubId → m.packet.kind = .dispatch → s.work.table m.packet.table = some x →
    (expertOf x m.packet.expert).kind = 1 ∨ (expertOf x m.packet.expert).kind = 2 → Does (.routedTokenPacket p m) s fun t =>
      tfind t.hub.fabric.toks s.hub.fabric.nextId = some { m.packet with dst := keeperOf (expertOf x m.packet.expert), hub := s.work.hubId }
      ∧ t.mem = s.mem ∧ Within s t (fun h => { h with hawser := t.hub.hawser, fabric := t.hub.fabric }))
  ∧ (∀ s p (m : BodyMsg), s.work.hportUp p = true → m.cls = 2 → m.mkind = 2 → m.dstHub = s.work.hubId → m.packet.kind ≠ .dispatch → Does (.routedTokenPacket p m) s fun t =>
    tfind t.hub.fabric.toks s.hub.fabric.nextId = some { s.work.homeward m.packet with dst := handleEngine m.packet.token, hub := s.work.hubId }
    ∧ t.mem = s.mem ∧ Within s t (fun h => { h with hawser := t.hub.hawser, fabric := t.hub.fabric }))
  ∧ (∀ s p q (m : BodyMsg), (s.work.hport q).bodyWait = [{ inPort := some (p, m.lane), msg := { m with hops := m.hops + 1 } }] → q < 8 → (∀ k < 8, k ≠ q → (s.work.hport k).bodyWait = []) →
    m.cls = 1 → s.work.controlRoute m.srcHub = some p → ready (s.work.hport p) → Does (.stallLimitExpiry p m) s fun t =>
      (t.work.hport q).bodyWait = [] ∧ .unreach p m.srcHub m.dstHub ∈ t.hub.sent ∧ .hawserCredit p (m.cls * 2 + m.lane) (msgUnits m) ∈ t.hub.sent
      ∧ logs s t ∧ Within s t (fun h => { h with hawser := t.hub.hawser }))
  ∧ (∀ s p d, s.Calm → s.work.hportTrained p = true → lone s → d ≠ s.work.hubId → Does (.unreach p s.work.hubId d) s fun t =>
    t.hub.hawser = { s.hub.hawser with unreachable := addTo s.hub.hawser.unreachable d } ∧ Exactly s t (fun h => { h with hawser := t.hub.hawser }))
  ∧ (∀ s p q h d, s.Calm → s.work.hportTrained p = true → h ≠ s.work.hubId → s.work.controlRoute h = some q → ready (s.work.hport q) → Does (.unreach p h d) s fun t =>
    .unreach q h d ∈ t.hub.sent ∧ t.hub.hawser.unreachable = s.hub.hawser.unreachable ∧ apart s t q)
  ∧ ∀ s d, s.Calm → lone s → Does (.unreachHoldExpiry d) s fun t =>
    t.hub.hawser = { s.hub.hawser with unreachable := rmv s.hub.hawser.unreachable d } ∧ Exactly s t (fun h => { h with hawser := t.hub.hawser })

/-! ## Binnacle (18) -/

/-- R507-R519, R522, R523, R588, R591: power and temperature. An evaluation adds up power and energy, and moves the throttle level one step up where the hub's own limit is passed, one step down once every average is low for long; a peak over PEAK_W moves it two steps. A change of an operating point ends at its target, a droop stretches the arithmetic clock until it recovers. A point that has aged gains 5 mV. A sensor past its throttle point holds the level, the critical state and the loss of voltage control put it at 7, a thermal trip resets the hub cold. How power is averaged and when the thermal rule ends are readings of the model (log 102, log 103). Where the Logs hear, memory below the hosts' is as before. -/
def Obligations.PowerControl : Prop :=
  let up (s : State) : Prop := s.work.binUp = true ∧ s.work.binPaused = false
  let free (s : State) : Prop := s.hub.bin.avsLost = false ∧ s.hub.bin.critical = false
  let measured (s : State) (x : PowerSample) : Bin := { s.hub.bin with pkgW := s.work.packageW x.hubW x.holdW, hist := (s.work.packageW x.hubW x.holdW :: s.hub.bin.hist).take 60000 }
  let noted (s t : State) (x : PowerSample) : Prop := t.hub.bin.pkgW = s.work.packageW x.hubW x.holdW ∧ t.hub.bin.hist = (measured s x).hist ∧ t.hub.bin.hubW = x.hubW
    ∧ t.hub.bin.energy = s.hub.bin.energy + 1000 * (x.hubW + x.holdW) ∧ t.hub.bin.pkgEnergy = s.hub.bin.pkgEnergy + 1000 * s.work.packageW x.hubW x.holdW ∧ t.hub.bin.droopOver = x.stretchOver
  let apart (s t : State) : Prop := (∀ a < 0x0008000000000000, t.mem.byte a = s.mem.byte a) ∧ Within s t (fun h => { h with bin := t.hub.bin, sites := t.hub.sites })
  let cool (s : State) (h m : Nat) : Prop := h + 3 ≤ s.hub.bin.body.tThrottle ∧ m ≤ 87
  (∀ s x, up s → free s → s.hub.bin.body.hubMaxW < x.hubW → Does (.throttleEvaluation x) s fun t =>
    t.hub.bin.level = min 7 (s.hub.bin.level + 1) ∧ noted s t x ∧ (t.hub.bin.hubTj, t.hub.bin.holdTj) = (x.hubTj, x.holdTj) ∧ apart s t)
  ∧ (∀ s x, up s → free s → 0 < s.hub.bin.level → s.hub.bin.level ≤ 7 → x.hubW ≤ s.hub.bin.body.hubMaxW → cool s x.hubTj x.holdTj → x.stretchOver = false → s.hub.bin.peakOver = false →
    averagesLow (measured s x) = true → s.hub.bin.lastChange + 10000 ≤ s.hub.now → Does (.throttleEvaluation x) s fun t =>
      t.hub.bin.level = s.hub.bin.level - 1 ∧ t.hub.bin.lastChange = s.hub.now ∧ noted s t x ∧ t.hub.bin.thermalHold = false ∧ apart s t)
  ∧ (∀ s x, s.work.binUp = true → s.work.binPaused = true → Does (.throttleEvaluation x) s fun t => noted s t x ∧ t.hub.bin.level = s.hub.bin.level ∧ Exactly s t (fun h => { h with bin := t.hub.bin }))
  ∧ (∀ s h m, up s → free s → s.hub.bin.body.peakW < s.work.packageW h m → Does (.peakCheck h m) s fun t =>
    t.hub.bin.peakOver = true ∧ t.hub.bin.level = min 7 (s.hub.bin.level + 2) ∧ apart s t)
  ∧ (∀ s h m, up s → free s → s.hub.bin.level ≤ 7 → s.work.packageW h m ≤ s.hub.bin.body.peakW → Does (.peakCheck h m) s fun t =>
    t.hub.bin.peakOver = false ∧ t.hub.bin.level = s.hub.bin.level ∧ apart s t)
  ∧ (∀ s v, s.work.binUp = true → s.hub.bin.stretched = false → tfind s.hub.bin.pendingOp 0 = some v → Does (.opChangeDone 0) s fun t =>
    opOf t.hub.bin 0 = v ∧ (∀ k < 3, k ≠ 0 → opOf t.hub.bin k = opOf s.hub.bin k) ∧ t.hub.bin.pendingOp = tdel s.hub.bin.pendingOp 0 ∧ t.hub.bin.level = s.hub.bin.level ∧ t.mem = s.mem)
  ∧ (∀ s d v, s.work.binUp = true → d = 1 ∨ d = 2 → tfind s.hub.bin.pendingOp d = some v → Does (.opChangeDone d) s fun t =>
    opOf t.hub.bin d = v ∧ (∀ k < 3, k ≠ d → opOf t.hub.bin k = opOf s.hub.bin k) ∧ t.hub.bin.pendingOp = tdel s.hub.bin.pendingOp d ∧ t.hub.bin.level = s.hub.bin.level ∧ t.mem = s.mem)
  ∧ (∀ s, s.hub.bin.stretched = true → Does (.opChangeDone 0) s fun t => Exactly s t id)
  ∧ (∀ s, s.work.binUp = true → s.hub.bin.stretched = false → Does .droopDetect s fun t =>
    t.hub.bin = { s.hub.bin with stretched := true } ∧ t.mem = s.mem ∧ Within s t (fun h => { h with bin := t.hub.bin }))
  ∧ (∀ s, s.hub.bin.stretched = true → Does .droopRecovery s fun t =>
    t.hub.bin = { s.hub.bin with stretched := false } ∧ t.mem = s.mem ∧ Within s t (fun h => { h with bin := t.hub.bin, free := t.hub.free }))
  ∧ (∀ s p, s.work.binUp = true → p < 8 → tget 0 s.hub.bin.trims p + 5 ≤ 60 → Does (.ageingMeasurement [p]) s fun t =>
    t.hub.bin = { s.hub.bin with trims := tset s.hub.bin.trims p (tget 0 s.hub.bin.trims p + 5) } ∧ tget 0 t.hub.start.profile.trims p = tget 0 s.hub.bin.trims p + 5
    ∧ (opTarget s.hub.bin 0 = p → s.hub.bin.avsLost = false → .avs 0 (arithMv s.hub.bin p + 5) ∈ t.hub.sent)
    ∧ t.mem = s.mem ∧ Within s t (fun h => { h with bin := t.hub.bin, start := t.hub.start }))
  ∧ (∀ s h m, up s → free s → s.hub.bin.level ≤ 7 → s.hub.bin.body.tThrottle ≤ h ∨ 90 ≤ m → Does (.sensorThreshold h m) s fun t =>
    t.hub.bin.thermalHold = true ∧ (t.hub.bin.hubTj, t.hub.bin.holdTj) = (h, m) ∧ t.hub.bin.level = s.hub.bin.level ∧ apart s t)
  ∧ (∀ s h m, up s → cool s h m → Does (.sensorThreshold h m) s fun t => t.hub.bin.thermalHold = false ∧ t.hub.bin.critical = false ∧ apart s t)
  ∧ (∀ s, s.work.binUp = true → s.hub.bin.critical = false → Does .thermalCritical s fun t =>
    t.hub.bin.critical = true ∧ t.hub.bin.level = 7 ∧ t.hub.bin.thermalHold = true ∧ .pldm 12 ∈ t.hub.sent ∧ apart s t)
  ∧ (∀ s, s.hub.start.hubRstN = true → s.work.resetHeldOff = false → Does .hubThermtrip s fun t =>
    t.hub.board.thermtripN = false ∧ t.hub.start.hubRstN = false ∧ t.hub.start.coldPending = true)
  ∧ ∀ s, s.work.binUp = true → s.hub.bin.avsLost = false → Does .avsbusFailure s fun t =>
    t.hub.bin.avsLost = true ∧ t.hub.bin.level = 7 ∧ (∀ r v, .avs r v ∈ t.hub.sent → .avs r v ∈ s.hub.sent) ∧ apart s t

/-- R518: no measurement of ageing takes a point more than 60 mV over its base voltage. Where OP7 needs more it is retired, in the Binnacle and for the life of the unit in the profile: the arithmetic preference is OP6 at most, BIN_STAT shows it, the Log has an entry, the throttle interrupt is raised on the management port and on every port in service. No SLOWED goes out, neither then nor when the arithmetic clock reaches the preference that is left. -/
def Obligations.OpSevenRetired : Prop :=
  let told (s t : State) : Prop := ∀ q k m, .helm q k m ∈ t.hub.sent → .helm q k m ∈ s.hub.sent
  (∀ s l, (∀ p < 8, tget 0 s.hub.bin.trims p ≤ 60) → Does (.ageingMeasurement l) s fun t => ∀ p < 8, tget 0 t.hub.bin.trims p ≤ 60)
  ∧ (∀ s l, s.work.binUp = true → 7 ∈ l → 55 < tget 0 s.hub.bin.trims 7 → s.hub.bin.op7Retired = false → Does (.ageingMeasurement l) s fun t =>
    t.hub.bin.op7Retired = true ∧ t.hub.start.profile.op7Retired = true ∧ tget 0 t.hub.bin.trims 7 = tget 0 s.hub.bin.trims 7 ∧ t.work.preferences.1 ≤ 6
    ∧ t.hub.mlog.seq = (s.hub.mlog.seq + 1) % 2 ^ 32 ∧ .pldm 11 ∈ t.hub.sent
    ∧ (∀ p ∈ s.work.portsUp, bit (tget 0 (t.work.port p).isr (s.work.irqVector p 11 / 64)) (s.work.irqVector p 11 % 64) = true)
    ∧ told s t ∧ (∀ a < 0x0008000000000000, t.mem.byte a = s.mem.byte a) ∧ Within s t (fun h => { h with bin := t.hub.bin, start := t.hub.start }))
  ∧ ∀ s v, s.work.binUp = true → s.hub.bin.op7Retired = true → s.hub.bin.stretched = false → tfind s.hub.bin.pendingOp 0 = some v → s.work.preferences.1 ≤ v → Does (.opChangeDone 0) s fun t =>
    t.hub.bin.arithOp = v ∧ t.work.preferences.1 ≤ 6 ∧ told s t

/-! ## The whole machine -/

/-- Log 1: a step takes the command at the front of the queue, and is that command on the state with the queue's rest; with no command waiting a microsecond of the block's own clock passes, which is the model's choice. -/
def Obligations.StepTakesFront : Prop :=
  (∀ c s, step { s with pending := c :: s.pending } = exec c s)
  ∧ ∀ s, s.pending = [] → step s = s.run Work.tick

/-- R246, R300, R335, R342, R398, R425, R426, R429, R510, R515, R602: what reset leaves. Memory is in its canonical form and lists nothing (that a byte nothing has written reads 0 is the model's choice, log 5); no command waits; P0 to P3 are managed by the Open berths 0 to 3 with no other berth open, every berth in RG0, every ring disabled; every Helm object in its start state; every partition OFF; the Binnacle at level 0 and OP7 with the default limits; no hub beyond this one. -/
def Obligations.ResetState : Prop :=
  let s := State.reset
  s.Safe ∧ s.mem.byte 0x004000000000 = 0 ∧ s.pending = []
  ∧ (∀ p < 4, s.work.mgr p = p ∧ (s.work.berth p).state = .open) ∧ (∀ b < 4096, 4 ≤ b → (s.work.berth b).state = .free) ∧ (∀ b, s.work.groupOf b = 0) ∧ (∀ b r, s.work.ring b r = {})
  ∧ (∀ m, s.work.mark m = {}) ∧ (∀ g, s.work.gate g = {}) ∧ (∀ i, s.work.part i = {}) ∧ (s.work.pool 0).berthFirst = 4 ∧ (s.work.pool 0).berthCount = 4092
  ∧ (s.hub.bin.level, s.hub.bin.arithOp, s.hub.bin.holdOp, s.hub.bin.memOp) = (0, 7, 7, 7) ∧ (s.hub.bin.body.peakW, s.hub.bin.body.hubMaxW) = (2400, 540) ∧ s.hub.bwr.window = 1000
  ∧ s.work.nhub = 0 ∧ s.work.hubId = 0

/-- An invariant of every step: from a safe state a step, of any command, well formed or not, or of none, neither faults nor refuses; memory keeps its canonical form, and the queue loses its front alone. -/
def Obligations.StepKeepsMemory : Prop :=
  ∀ s, s.Safe → ∃ t, step s = .next t ∧ t.Safe ∧ t.pending = s.pending.tail
end

