-- ==== Sys2Proof/Laws/State.lean ====
section
/-! SUPPORT. What each update of the work changes and what it leaves alone: one lemma per field per update (Machine/State.lean). -/

namespace Sys2Proof.Machine

variable (w : Work)

/-! ## The state and a command's work -/

@[simp] theorem commit_pending (s : State) : (s.commit w).pending = s.pending := rfl
@[simp] theorem commit_hub (s : State) : (s.commit w).hub = w.hub := rfl
@[simp] theorem commit_mem (s : State) : (s.commit w).mem = s.mem.applyAll w.writes.reverse := rfl

/-! ## Memory -/

@[simp] theorem op_hub (o : MemOp) : (w.op o).hub = w.hub := rfl
@[simp] theorem op_mem (o : MemOp) : (w.op o).mem = w.mem.apply o := rfl
@[simp] theorem op_writes (o : MemOp) : (w.op o).writes = o :: w.writes := rfl
@[simp] theorem onHub_hub (f : Hub → Hub) : (w.onHub f).hub = f w.hub := rfl
@[simp] theorem onHub_mem (f : Hub → Hub) : (w.onHub f).mem = w.mem := rfl
@[simp] theorem onHub_writes (f : Hub → Hub) : (w.onHub f).writes = w.writes := rfl

/-! ## onPort -/

@[simp] theorem onPort_mem (p : Nat) (f : Port → Port) : (w.onPort p f).mem = w.mem := rfl
@[simp] theorem onPort_writes (p : Nat) (f : Port → Port) : (w.onPort p f).writes = w.writes := rfl
@[simp] theorem onPort_now (p : Nat) (f : Port → Port) : (w.onPort p f).hub.now = w.hub.now := rfl
@[simp] theorem onPort_free (p : Nat) (f : Port → Port) : (w.onPort p f).hub.free = w.hub.free := rfl
@[simp] theorem onPort_sent (p : Nat) (f : Port → Port) : (w.onPort p f).hub.sent = w.hub.sent := rfl
@[simp] theorem onPort_cnt (p : Nat) (f : Port → Port) : (w.onPort p f).hub.cnt = w.hub.cnt := rfl
@[simp] theorem onPort_sites (p : Nat) (f : Port → Port) : (w.onPort p f).hub.sites = w.hub.sites := rfl
@[simp] theorem onPort_fabric (p : Nat) (f : Port → Port) : (w.onPort p f).hub.fabric = w.hub.fabric := rfl
@[simp] theorem onPort_ledger (p : Nat) (f : Port → Port) : (w.onPort p f).hub.ledger = w.hub.ledger := rfl
@[simp] theorem onPort_memory (p : Nat) (f : Port → Port) : (w.onPort p f).hub.memory = w.hub.memory := rfl
@[simp] theorem onPort_bwr (p : Nat) (f : Port → Port) : (w.onPort p f).hub.bwr = w.hub.bwr := rfl
@[simp] theorem onPort_chart (p : Nat) (f : Port → Port) : (w.onPort p f).hub.chart = w.hub.chart := rfl
@[simp] theorem onPort_helm (p : Nat) (f : Port → Port) : (w.onPort p f).hub.helm = w.hub.helm := rfl
@[simp] theorem onPort_ports (p : Nat) (f : Port → Port) : (w.onPort p f).hub.ports = tmod {} w.hub.ports p f := rfl
@[simp] theorem onPort_ten (p : Nat) (f : Port → Port) : (w.onPort p f).hub.ten = w.hub.ten := rfl
@[simp] theorem onPort_bearings (p : Nat) (f : Port → Port) : (w.onPort p f).hub.bearings = w.hub.bearings := rfl
@[simp] theorem onPort_tables (p : Nat) (f : Port → Port) : (w.onPort p f).hub.tables = w.hub.tables := rfl
@[simp] theorem onPort_packs (p : Nat) (f : Port → Port) : (w.onPort p f).hub.packs = w.hub.packs := rfl
@[simp] theorem onPort_recipes (p : Nat) (f : Port → Port) : (w.onPort p f).hub.recipes = w.hub.recipes := rfl
@[simp] theorem onPort_wrights (p : Nat) (f : Port → Port) : (w.onPort p f).hub.wrights = w.hub.wrights := rfl
@[simp] theorem onPort_purser (p : Nat) (f : Port → Port) : (w.onPort p f).hub.purser = w.hub.purser := rfl
@[simp] theorem onPort_hawser (p : Nat) (f : Port → Port) : (w.onPort p f).hub.hawser = w.hub.hawser := rfl
@[simp] theorem onPort_bin (p : Nat) (f : Port → Port) : (w.onPort p f).hub.bin = w.hub.bin := rfl
@[simp] theorem onPort_start (p : Nat) (f : Port → Port) : (w.onPort p f).hub.start = w.hub.start := rfl
@[simp] theorem onPort_svc (p : Nat) (f : Port → Port) : (w.onPort p f).hub.svc = w.hub.svc := rfl
@[simp] theorem onPort_mlog (p : Nat) (f : Port → Port) : (w.onPort p f).hub.mlog = w.hub.mlog := rfl
@[simp] theorem onPort_board (p : Nat) (f : Port → Port) : (w.onPort p f).hub.board = w.hub.board := rfl
@[simp] theorem onPort_heldOrders (p : Nat) (f : Port → Port) : (w.onPort p f).hub.heldOrders = w.hub.heldOrders := rfl

/-! ## onBerth -/

@[simp] theorem onBerth_mem (b : Nat) (f : Berth → Berth) : (w.onBerth b f).mem = w.mem := rfl
@[simp] theorem onBerth_writes (b : Nat) (f : Berth → Berth) : (w.onBerth b f).writes = w.writes := rfl
@[simp] theorem onBerth_now (b : Nat) (f : Berth → Berth) : (w.onBerth b f).hub.now = w.hub.now := rfl
@[simp] theorem onBerth_free (b : Nat) (f : Berth → Berth) : (w.onBerth b f).hub.free = w.hub.free := rfl
@[simp] theorem onBerth_sent (b : Nat) (f : Berth → Berth) : (w.onBerth b f).hub.sent = w.hub.sent := rfl
@[simp] theorem onBerth_cnt (b : Nat) (f : Berth → Berth) : (w.onBerth b f).hub.cnt = w.hub.cnt := rfl
@[simp] theorem onBerth_sites (b : Nat) (f : Berth → Berth) : (w.onBerth b f).hub.sites = w.hub.sites := rfl
@[simp] theorem onBerth_fabric (b : Nat) (f : Berth → Berth) : (w.onBerth b f).hub.fabric = w.hub.fabric := rfl
@[simp] theorem onBerth_ledger (b : Nat) (f : Berth → Berth) : (w.onBerth b f).hub.ledger = w.hub.ledger := rfl
@[simp] theorem onBerth_memory (b : Nat) (f : Berth → Berth) : (w.onBerth b f).hub.memory = w.hub.memory := rfl
@[simp] theorem onBerth_bwr (b : Nat) (f : Berth → Berth) : (w.onBerth b f).hub.bwr = w.hub.bwr := rfl
@[simp] theorem onBerth_chart (b : Nat) (f : Berth → Berth) : (w.onBerth b f).hub.chart = w.hub.chart := rfl
@[simp] theorem onBerth_helm (b : Nat) (f : Berth → Berth) : (w.onBerth b f).hub.helm = w.hub.helm := rfl
@[simp] theorem onBerth_ports (b : Nat) (f : Berth → Berth) : (w.onBerth b f).hub.ports = w.hub.ports := rfl
@[simp] theorem onBerth_ten (b : Nat) (f : Berth → Berth) : (w.onBerth b f).hub.ten = { w.hub.ten with berths := tmod {} w.hub.ten.berths b f } := rfl
@[simp] theorem onBerth_bearings (b : Nat) (f : Berth → Berth) : (w.onBerth b f).hub.bearings = w.hub.bearings := rfl
@[simp] theorem onBerth_tables (b : Nat) (f : Berth → Berth) : (w.onBerth b f).hub.tables = w.hub.tables := rfl
@[simp] theorem onBerth_packs (b : Nat) (f : Berth → Berth) : (w.onBerth b f).hub.packs = w.hub.packs := rfl
@[simp] theorem onBerth_recipes (b : Nat) (f : Berth → Berth) : (w.onBerth b f).hub.recipes = w.hub.recipes := rfl
@[simp] theorem onBerth_wrights (b : Nat) (f : Berth → Berth) : (w.onBerth b f).hub.wrights = w.hub.wrights := rfl
@[simp] theorem onBerth_purser (b : Nat) (f : Berth → Berth) : (w.onBerth b f).hub.purser = w.hub.purser := rfl
@[simp] theorem onBerth_hawser (b : Nat) (f : Berth → Berth) : (w.onBerth b f).hub.hawser = w.hub.hawser := rfl
@[simp] theorem onBerth_bin (b : Nat) (f : Berth → Berth) : (w.onBerth b f).hub.bin = w.hub.bin := rfl
@[simp] theorem onBerth_start (b : Nat) (f : Berth → Berth) : (w.onBerth b f).hub.start = w.hub.start := rfl
@[simp] theorem onBerth_svc (b : Nat) (f : Berth → Berth) : (w.onBerth b f).hub.svc = w.hub.svc := rfl
@[simp] theorem onBerth_mlog (b : Nat) (f : Berth → Berth) : (w.onBerth b f).hub.mlog = w.hub.mlog := rfl
@[simp] theorem onBerth_board (b : Nat) (f : Berth → Berth) : (w.onBerth b f).hub.board = w.hub.board := rfl
@[simp] theorem onBerth_heldOrders (b : Nat) (f : Berth → Berth) : (w.onBerth b f).hub.heldOrders = w.hub.heldOrders := rfl

/-! ## onRing -/

@[simp] theorem onRing_mem (b r : Nat) (f : Ring → Ring) : (w.onRing b r f).mem = w.mem := rfl
@[simp] theorem onRing_writes (b r : Nat) (f : Ring → Ring) : (w.onRing b r f).writes = w.writes := rfl
@[simp] theorem onRing_now (b r : Nat) (f : Ring → Ring) : (w.onRing b r f).hub.now = w.hub.now := rfl
@[simp] theorem onRing_free (b r : Nat) (f : Ring → Ring) : (w.onRing b r f).hub.free = w.hub.free := rfl
@[simp] theorem onRing_sent (b r : Nat) (f : Ring → Ring) : (w.onRing b r f).hub.sent = w.hub.sent := rfl
@[simp] theorem onRing_cnt (b r : Nat) (f : Ring → Ring) : (w.onRing b r f).hub.cnt = w.hub.cnt := rfl
@[simp] theorem onRing_sites (b r : Nat) (f : Ring → Ring) : (w.onRing b r f).hub.sites = w.hub.sites := rfl
@[simp] theorem onRing_fabric (b r : Nat) (f : Ring → Ring) : (w.onRing b r f).hub.fabric = w.hub.fabric := rfl
@[simp] theorem onRing_ledger (b r : Nat) (f : Ring → Ring) : (w.onRing b r f).hub.ledger = w.hub.ledger := rfl
@[simp] theorem onRing_memory (b r : Nat) (f : Ring → Ring) : (w.onRing b r f).hub.memory = w.hub.memory := rfl
@[simp] theorem onRing_bwr (b r : Nat) (f : Ring → Ring) : (w.onRing b r f).hub.bwr = w.hub.bwr := rfl
@[simp] theorem onRing_chart (b r : Nat) (f : Ring → Ring) : (w.onRing b r f).hub.chart = w.hub.chart := rfl
@[simp] theorem onRing_helm (b r : Nat) (f : Ring → Ring) : (w.onRing b r f).hub.helm = w.hub.helm := rfl
@[simp] theorem onRing_ports (b r : Nat) (f : Ring → Ring) : (w.onRing b r f).hub.ports = w.hub.ports := rfl
@[simp] theorem onRing_ten (b r : Nat) (f : Ring → Ring) : (w.onRing b r f).hub.ten = { w.hub.ten with rings := tmod {} w.hub.ten.rings (b * 4 + r) f } := rfl
@[simp] theorem onRing_bearings (b r : Nat) (f : Ring → Ring) : (w.onRing b r f).hub.bearings = w.hub.bearings := rfl
@[simp] theorem onRing_tables (b r : Nat) (f : Ring → Ring) : (w.onRing b r f).hub.tables = w.hub.tables := rfl
@[simp] theorem onRing_packs (b r : Nat) (f : Ring → Ring) : (w.onRing b r f).hub.packs = w.hub.packs := rfl
@[simp] theorem onRing_recipes (b r : Nat) (f : Ring → Ring) : (w.onRing b r f).hub.recipes = w.hub.recipes := rfl
@[simp] theorem onRing_wrights (b r : Nat) (f : Ring → Ring) : (w.onRing b r f).hub.wrights = w.hub.wrights := rfl
@[simp] theorem onRing_purser (b r : Nat) (f : Ring → Ring) : (w.onRing b r f).hub.purser = w.hub.purser := rfl
@[simp] theorem onRing_hawser (b r : Nat) (f : Ring → Ring) : (w.onRing b r f).hub.hawser = w.hub.hawser := rfl
@[simp] theorem onRing_bin (b r : Nat) (f : Ring → Ring) : (w.onRing b r f).hub.bin = w.hub.bin := rfl
@[simp] theorem onRing_start (b r : Nat) (f : Ring → Ring) : (w.onRing b r f).hub.start = w.hub.start := rfl
@[simp] theorem onRing_svc (b r : Nat) (f : Ring → Ring) : (w.onRing b r f).hub.svc = w.hub.svc := rfl
@[simp] theorem onRing_mlog (b r : Nat) (f : Ring → Ring) : (w.onRing b r f).hub.mlog = w.hub.mlog := rfl
@[simp] theorem onRing_board (b r : Nat) (f : Ring → Ring) : (w.onRing b r f).hub.board = w.hub.board := rfl
@[simp] theorem onRing_heldOrders (b r : Nat) (f : Ring → Ring) : (w.onRing b r f).hub.heldOrders = w.hub.heldOrders := rfl

/-! ## onTen -/

@[simp] theorem onTen_mem (f : Tenancy → Tenancy) : (w.onTen f).mem = w.mem := rfl
@[simp] theorem onTen_writes (f : Tenancy → Tenancy) : (w.onTen f).writes = w.writes := rfl
@[simp] theorem onTen_now (f : Tenancy → Tenancy) : (w.onTen f).hub.now = w.hub.now := rfl
@[simp] theorem onTen_free (f : Tenancy → Tenancy) : (w.onTen f).hub.free = w.hub.free := rfl
@[simp] theorem onTen_sent (f : Tenancy → Tenancy) : (w.onTen f).hub.sent = w.hub.sent := rfl
@[simp] theorem onTen_cnt (f : Tenancy → Tenancy) : (w.onTen f).hub.cnt = w.hub.cnt := rfl
@[simp] theorem onTen_sites (f : Tenancy → Tenancy) : (w.onTen f).hub.sites = w.hub.sites := rfl
@[simp] theorem onTen_fabric (f : Tenancy → Tenancy) : (w.onTen f).hub.fabric = w.hub.fabric := rfl
@[simp] theorem onTen_ledger (f : Tenancy → Tenancy) : (w.onTen f).hub.ledger = w.hub.ledger := rfl
@[simp] theorem onTen_memory (f : Tenancy → Tenancy) : (w.onTen f).hub.memory = w.hub.memory := rfl
@[simp] theorem onTen_bwr (f : Tenancy → Tenancy) : (w.onTen f).hub.bwr = w.hub.bwr := rfl
@[simp] theorem onTen_chart (f : Tenancy → Tenancy) : (w.onTen f).hub.chart = w.hub.chart := rfl
@[simp] theorem onTen_helm (f : Tenancy → Tenancy) : (w.onTen f).hub.helm = w.hub.helm := rfl
@[simp] theorem onTen_ports (f : Tenancy → Tenancy) : (w.onTen f).hub.ports = w.hub.ports := rfl
@[simp] theorem onTen_ten (f : Tenancy → Tenancy) : (w.onTen f).hub.ten = f w.hub.ten := rfl
@[simp] theorem onTen_bearings (f : Tenancy → Tenancy) : (w.onTen f).hub.bearings = w.hub.bearings := rfl
@[simp] theorem onTen_tables (f : Tenancy → Tenancy) : (w.onTen f).hub.tables = w.hub.tables := rfl
@[simp] theorem onTen_packs (f : Tenancy → Tenancy) : (w.onTen f).hub.packs = w.hub.packs := rfl
@[simp] theorem onTen_recipes (f : Tenancy → Tenancy) : (w.onTen f).hub.recipes = w.hub.recipes := rfl
@[simp] theorem onTen_wrights (f : Tenancy → Tenancy) : (w.onTen f).hub.wrights = w.hub.wrights := rfl
@[simp] theorem onTen_purser (f : Tenancy → Tenancy) : (w.onTen f).hub.purser = w.hub.purser := rfl
@[simp] theorem onTen_hawser (f : Tenancy → Tenancy) : (w.onTen f).hub.hawser = w.hub.hawser := rfl
@[simp] theorem onTen_bin (f : Tenancy → Tenancy) : (w.onTen f).hub.bin = w.hub.bin := rfl
@[simp] theorem onTen_start (f : Tenancy → Tenancy) : (w.onTen f).hub.start = w.hub.start := rfl
@[simp] theorem onTen_svc (f : Tenancy → Tenancy) : (w.onTen f).hub.svc = w.hub.svc := rfl
@[simp] theorem onTen_mlog (f : Tenancy → Tenancy) : (w.onTen f).hub.mlog = w.hub.mlog := rfl
@[simp] theorem onTen_board (f : Tenancy → Tenancy) : (w.onTen f).hub.board = w.hub.board := rfl
@[simp] theorem onTen_heldOrders (f : Tenancy → Tenancy) : (w.onTen f).hub.heldOrders = w.hub.heldOrders := rfl

/-! ## onHelm -/

@[simp] theorem onHelm_mem (f : HelmState → HelmState) : (w.onHelm f).mem = w.mem := rfl
@[simp] theorem onHelm_writes (f : HelmState → HelmState) : (w.onHelm f).writes = w.writes := rfl
@[simp] theorem onHelm_now (f : HelmState → HelmState) : (w.onHelm f).hub.now = w.hub.now := rfl
@[simp] theorem onHelm_free (f : HelmState → HelmState) : (w.onHelm f).hub.free = w.hub.free := rfl
@[simp] theorem onHelm_sent (f : HelmState → HelmState) : (w.onHelm f).hub.sent = w.hub.sent := rfl
@[simp] theorem onHelm_cnt (f : HelmState → HelmState) : (w.onHelm f).hub.cnt = w.hub.cnt := rfl
@[simp] theorem onHelm_sites (f : HelmState → HelmState) : (w.onHelm f).hub.sites = w.hub.sites := rfl
@[simp] theorem onHelm_fabric (f : HelmState → HelmState) : (w.onHelm f).hub.fabric = w.hub.fabric := rfl
@[simp] theorem onHelm_ledger (f : HelmState → HelmState) : (w.onHelm f).hub.ledger = w.hub.ledger := rfl
@[simp] theorem onHelm_memory (f : HelmState → HelmState) : (w.onHelm f).hub.memory = w.hub.memory := rfl
@[simp] theorem onHelm_bwr (f : HelmState → HelmState) : (w.onHelm f).hub.bwr = w.hub.bwr := rfl
@[simp] theorem onHelm_chart (f : HelmState → HelmState) : (w.onHelm f).hub.chart = w.hub.chart := rfl
@[simp] theorem onHelm_helm (f : HelmState → HelmState) : (w.onHelm f).hub.helm = f w.hub.helm := rfl
@[simp] theorem onHelm_ports (f : HelmState → HelmState) : (w.onHelm f).hub.ports = w.hub.ports := rfl
@[simp] theorem onHelm_ten (f : HelmState → HelmState) : (w.onHelm f).hub.ten = w.hub.ten := rfl
@[simp] theorem onHelm_bearings (f : HelmState → HelmState) : (w.onHelm f).hub.bearings = w.hub.bearings := rfl
@[simp] theorem onHelm_tables (f : HelmState → HelmState) : (w.onHelm f).hub.tables = w.hub.tables := rfl
@[simp] theorem onHelm_packs (f : HelmState → HelmState) : (w.onHelm f).hub.packs = w.hub.packs := rfl
@[simp] theorem onHelm_recipes (f : HelmState → HelmState) : (w.onHelm f).hub.recipes = w.hub.recipes := rfl
@[simp] theorem onHelm_wrights (f : HelmState → HelmState) : (w.onHelm f).hub.wrights = w.hub.wrights := rfl
@[simp] theorem onHelm_purser (f : HelmState → HelmState) : (w.onHelm f).hub.purser = w.hub.purser := rfl
@[simp] theorem onHelm_hawser (f : HelmState → HelmState) : (w.onHelm f).hub.hawser = w.hub.hawser := rfl
@[simp] theorem onHelm_bin (f : HelmState → HelmState) : (w.onHelm f).hub.bin = w.hub.bin := rfl
@[simp] theorem onHelm_start (f : HelmState → HelmState) : (w.onHelm f).hub.start = w.hub.start := rfl
@[simp] theorem onHelm_svc (f : HelmState → HelmState) : (w.onHelm f).hub.svc = w.hub.svc := rfl
@[simp] theorem onHelm_mlog (f : HelmState → HelmState) : (w.onHelm f).hub.mlog = w.hub.mlog := rfl
@[simp] theorem onHelm_board (f : HelmState → HelmState) : (w.onHelm f).hub.board = w.hub.board := rfl
@[simp] theorem onHelm_heldOrders (f : HelmState → HelmState) : (w.onHelm f).hub.heldOrders = w.hub.heldOrders := rfl

/-! ## onPurser -/

@[simp] theorem onPurser_mem (f : Purser → Purser) : (w.onPurser f).mem = w.mem := rfl
@[simp] theorem onPurser_writes (f : Purser → Purser) : (w.onPurser f).writes = w.writes := rfl
@[simp] theorem onPurser_now (f : Purser → Purser) : (w.onPurser f).hub.now = w.hub.now := rfl
@[simp] theorem onPurser_free (f : Purser → Purser) : (w.onPurser f).hub.free = w.hub.free := rfl
@[simp] theorem onPurser_sent (f : Purser → Purser) : (w.onPurser f).hub.sent = w.hub.sent := rfl
@[simp] theorem onPurser_cnt (f : Purser → Purser) : (w.onPurser f).hub.cnt = w.hub.cnt := rfl
@[simp] theorem onPurser_sites (f : Purser → Purser) : (w.onPurser f).hub.sites = w.hub.sites := rfl
@[simp] theorem onPurser_fabric (f : Purser → Purser) : (w.onPurser f).hub.fabric = w.hub.fabric := rfl
@[simp] theorem onPurser_ledger (f : Purser → Purser) : (w.onPurser f).hub.ledger = w.hub.ledger := rfl
@[simp] theorem onPurser_memory (f : Purser → Purser) : (w.onPurser f).hub.memory = w.hub.memory := rfl
@[simp] theorem onPurser_bwr (f : Purser → Purser) : (w.onPurser f).hub.bwr = w.hub.bwr := rfl
@[simp] theorem onPurser_chart (f : Purser → Purser) : (w.onPurser f).hub.chart = w.hub.chart := rfl
@[simp] theorem onPurser_helm (f : Purser → Purser) : (w.onPurser f).hub.helm = w.hub.helm := rfl
@[simp] theorem onPurser_ports (f : Purser → Purser) : (w.onPurser f).hub.ports = w.hub.ports := rfl
@[simp] theorem onPurser_ten (f : Purser → Purser) : (w.onPurser f).hub.ten = w.hub.ten := rfl
@[simp] theorem onPurser_bearings (f : Purser → Purser) : (w.onPurser f).hub.bearings = w.hub.bearings := rfl
@[simp] theorem onPurser_tables (f : Purser → Purser) : (w.onPurser f).hub.tables = w.hub.tables := rfl
@[simp] theorem onPurser_packs (f : Purser → Purser) : (w.onPurser f).hub.packs = w.hub.packs := rfl
@[simp] theorem onPurser_recipes (f : Purser → Purser) : (w.onPurser f).hub.recipes = w.hub.recipes := rfl
@[simp] theorem onPurser_wrights (f : Purser → Purser) : (w.onPurser f).hub.wrights = w.hub.wrights := rfl
@[simp] theorem onPurser_purser (f : Purser → Purser) : (w.onPurser f).hub.purser = f w.hub.purser := rfl
@[simp] theorem onPurser_hawser (f : Purser → Purser) : (w.onPurser f).hub.hawser = w.hub.hawser := rfl
@[simp] theorem onPurser_bin (f : Purser → Purser) : (w.onPurser f).hub.bin = w.hub.bin := rfl
@[simp] theorem onPurser_start (f : Purser → Purser) : (w.onPurser f).hub.start = w.hub.start := rfl
@[simp] theorem onPurser_svc (f : Purser → Purser) : (w.onPurser f).hub.svc = w.hub.svc := rfl
@[simp] theorem onPurser_mlog (f : Purser → Purser) : (w.onPurser f).hub.mlog = w.hub.mlog := rfl
@[simp] theorem onPurser_board (f : Purser → Purser) : (w.onPurser f).hub.board = w.hub.board := rfl
@[simp] theorem onPurser_heldOrders (f : Purser → Purser) : (w.onPurser f).hub.heldOrders = w.hub.heldOrders := rfl

/-! ## onMem -/

@[simp] theorem onMem_mem (f : MemUnits → MemUnits) : (w.onMem f).mem = w.mem := rfl
@[simp] theorem onMem_writes (f : MemUnits → MemUnits) : (w.onMem f).writes = w.writes := rfl
@[simp] theorem onMem_now (f : MemUnits → MemUnits) : (w.onMem f).hub.now = w.hub.now := rfl
@[simp] theorem onMem_free (f : MemUnits → MemUnits) : (w.onMem f).hub.free = w.hub.free := rfl
@[simp] theorem onMem_sent (f : MemUnits → MemUnits) : (w.onMem f).hub.sent = w.hub.sent := rfl
@[simp] theorem onMem_cnt (f : MemUnits → MemUnits) : (w.onMem f).hub.cnt = w.hub.cnt := rfl
@[simp] theorem onMem_sites (f : MemUnits → MemUnits) : (w.onMem f).hub.sites = w.hub.sites := rfl
@[simp] theorem onMem_fabric (f : MemUnits → MemUnits) : (w.onMem f).hub.fabric = w.hub.fabric := rfl
@[simp] theorem onMem_ledger (f : MemUnits → MemUnits) : (w.onMem f).hub.ledger = w.hub.ledger := rfl
@[simp] theorem onMem_memory (f : MemUnits → MemUnits) : (w.onMem f).hub.memory = f w.hub.memory := rfl
@[simp] theorem onMem_bwr (f : MemUnits → MemUnits) : (w.onMem f).hub.bwr = w.hub.bwr := rfl
@[simp] theorem onMem_chart (f : MemUnits → MemUnits) : (w.onMem f).hub.chart = w.hub.chart := rfl
@[simp] theorem onMem_helm (f : MemUnits → MemUnits) : (w.onMem f).hub.helm = w.hub.helm := rfl
@[simp] theorem onMem_ports (f : MemUnits → MemUnits) : (w.onMem f).hub.ports = w.hub.ports := rfl
@[simp] theorem onMem_ten (f : MemUnits → MemUnits) : (w.onMem f).hub.ten = w.hub.ten := rfl
@[simp] theorem onMem_bearings (f : MemUnits → MemUnits) : (w.onMem f).hub.bearings = w.hub.bearings := rfl
@[simp] theorem onMem_tables (f : MemUnits → MemUnits) : (w.onMem f).hub.tables = w.hub.tables := rfl
@[simp] theorem onMem_packs (f : MemUnits → MemUnits) : (w.onMem f).hub.packs = w.hub.packs := rfl
@[simp] theorem onMem_recipes (f : MemUnits → MemUnits) : (w.onMem f).hub.recipes = w.hub.recipes := rfl
@[simp] theorem onMem_wrights (f : MemUnits → MemUnits) : (w.onMem f).hub.wrights = w.hub.wrights := rfl
@[simp] theorem onMem_purser (f : MemUnits → MemUnits) : (w.onMem f).hub.purser = w.hub.purser := rfl
@[simp] theorem onMem_hawser (f : MemUnits → MemUnits) : (w.onMem f).hub.hawser = w.hub.hawser := rfl
@[simp] theorem onMem_bin (f : MemUnits → MemUnits) : (w.onMem f).hub.bin = w.hub.bin := rfl
@[simp] theorem onMem_start (f : MemUnits → MemUnits) : (w.onMem f).hub.start = w.hub.start := rfl
@[simp] theorem onMem_svc (f : MemUnits → MemUnits) : (w.onMem f).hub.svc = w.hub.svc := rfl
@[simp] theorem onMem_mlog (f : MemUnits → MemUnits) : (w.onMem f).hub.mlog = w.hub.mlog := rfl
@[simp] theorem onMem_board (f : MemUnits → MemUnits) : (w.onMem f).hub.board = w.hub.board := rfl
@[simp] theorem onMem_heldOrders (f : MemUnits → MemUnits) : (w.onMem f).hub.heldOrders = w.hub.heldOrders := rfl

/-! ## onBwr -/

@[simp] theorem onBwr_mem (f : Bwr → Bwr) : (w.onBwr f).mem = w.mem := rfl
@[simp] theorem onBwr_writes (f : Bwr → Bwr) : (w.onBwr f).writes = w.writes := rfl
@[simp] theorem onBwr_now (f : Bwr → Bwr) : (w.onBwr f).hub.now = w.hub.now := rfl
@[simp] theorem onBwr_free (f : Bwr → Bwr) : (w.onBwr f).hub.free = w.hub.free := rfl
@[simp] theorem onBwr_sent (f : Bwr → Bwr) : (w.onBwr f).hub.sent = w.hub.sent := rfl
@[simp] theorem onBwr_cnt (f : Bwr → Bwr) : (w.onBwr f).hub.cnt = w.hub.cnt := rfl
@[simp] theorem onBwr_sites (f : Bwr → Bwr) : (w.onBwr f).hub.sites = w.hub.sites := rfl
@[simp] theorem onBwr_fabric (f : Bwr → Bwr) : (w.onBwr f).hub.fabric = w.hub.fabric := rfl
@[simp] theorem onBwr_ledger (f : Bwr → Bwr) : (w.onBwr f).hub.ledger = w.hub.ledger := rfl
@[simp] theorem onBwr_memory (f : Bwr → Bwr) : (w.onBwr f).hub.memory = w.hub.memory := rfl
@[simp] theorem onBwr_bwr (f : Bwr → Bwr) : (w.onBwr f).hub.bwr = f w.hub.bwr := rfl
@[simp] theorem onBwr_chart (f : Bwr → Bwr) : (w.onBwr f).hub.chart = w.hub.chart := rfl
@[simp] theorem onBwr_helm (f : Bwr → Bwr) : (w.onBwr f).hub.helm = w.hub.helm := rfl
@[simp] theorem onBwr_ports (f : Bwr → Bwr) : (w.onBwr f).hub.ports = w.hub.ports := rfl
@[simp] theorem onBwr_ten (f : Bwr → Bwr) : (w.onBwr f).hub.ten = w.hub.ten := rfl
@[simp] theorem onBwr_bearings (f : Bwr → Bwr) : (w.onBwr f).hub.bearings = w.hub.bearings := rfl
@[simp] theorem onBwr_tables (f : Bwr → Bwr) : (w.onBwr f).hub.tables = w.hub.tables := rfl
@[simp] theorem onBwr_packs (f : Bwr → Bwr) : (w.onBwr f).hub.packs = w.hub.packs := rfl
@[simp] theorem onBwr_recipes (f : Bwr → Bwr) : (w.onBwr f).hub.recipes = w.hub.recipes := rfl
@[simp] theorem onBwr_wrights (f : Bwr → Bwr) : (w.onBwr f).hub.wrights = w.hub.wrights := rfl
@[simp] theorem onBwr_purser (f : Bwr → Bwr) : (w.onBwr f).hub.purser = w.hub.purser := rfl
@[simp] theorem onBwr_hawser (f : Bwr → Bwr) : (w.onBwr f).hub.hawser = w.hub.hawser := rfl
@[simp] theorem onBwr_bin (f : Bwr → Bwr) : (w.onBwr f).hub.bin = w.hub.bin := rfl
@[simp] theorem onBwr_start (f : Bwr → Bwr) : (w.onBwr f).hub.start = w.hub.start := rfl
@[simp] theorem onBwr_svc (f : Bwr → Bwr) : (w.onBwr f).hub.svc = w.hub.svc := rfl
@[simp] theorem onBwr_mlog (f : Bwr → Bwr) : (w.onBwr f).hub.mlog = w.hub.mlog := rfl
@[simp] theorem onBwr_board (f : Bwr → Bwr) : (w.onBwr f).hub.board = w.hub.board := rfl
@[simp] theorem onBwr_heldOrders (f : Bwr → Bwr) : (w.onBwr f).hub.heldOrders = w.hub.heldOrders := rfl

/-! ## onChart -/

@[simp] theorem onChart_mem (f : Chart → Chart) : (w.onChart f).mem = w.mem := rfl
@[simp] theorem onChart_writes (f : Chart → Chart) : (w.onChart f).writes = w.writes := rfl
@[simp] theorem onChart_now (f : Chart → Chart) : (w.onChart f).hub.now = w.hub.now := rfl
@[simp] theorem onChart_free (f : Chart → Chart) : (w.onChart f).hub.free = w.hub.free := rfl
@[simp] theorem onChart_sent (f : Chart → Chart) : (w.onChart f).hub.sent = w.hub.sent := rfl
@[simp] theorem onChart_cnt (f : Chart → Chart) : (w.onChart f).hub.cnt = w.hub.cnt := rfl
@[simp] theorem onChart_sites (f : Chart → Chart) : (w.onChart f).hub.sites = w.hub.sites := rfl
@[simp] theorem onChart_fabric (f : Chart → Chart) : (w.onChart f).hub.fabric = w.hub.fabric := rfl
@[simp] theorem onChart_ledger (f : Chart → Chart) : (w.onChart f).hub.ledger = w.hub.ledger := rfl
@[simp] theorem onChart_memory (f : Chart → Chart) : (w.onChart f).hub.memory = w.hub.memory := rfl
@[simp] theorem onChart_bwr (f : Chart → Chart) : (w.onChart f).hub.bwr = w.hub.bwr := rfl
@[simp] theorem onChart_chart (f : Chart → Chart) : (w.onChart f).hub.chart = f w.hub.chart := rfl
@[simp] theorem onChart_helm (f : Chart → Chart) : (w.onChart f).hub.helm = w.hub.helm := rfl
@[simp] theorem onChart_ports (f : Chart → Chart) : (w.onChart f).hub.ports = w.hub.ports := rfl
@[simp] theorem onChart_ten (f : Chart → Chart) : (w.onChart f).hub.ten = w.hub.ten := rfl
@[simp] theorem onChart_bearings (f : Chart → Chart) : (w.onChart f).hub.bearings = w.hub.bearings := rfl
@[simp] theorem onChart_tables (f : Chart → Chart) : (w.onChart f).hub.tables = w.hub.tables := rfl
@[simp] theorem onChart_packs (f : Chart → Chart) : (w.onChart f).hub.packs = w.hub.packs := rfl
@[simp] theorem onChart_recipes (f : Chart → Chart) : (w.onChart f).hub.recipes = w.hub.recipes := rfl
@[simp] theorem onChart_wrights (f : Chart → Chart) : (w.onChart f).hub.wrights = w.hub.wrights := rfl
@[simp] theorem onChart_purser (f : Chart → Chart) : (w.onChart f).hub.purser = w.hub.purser := rfl
@[simp] theorem onChart_hawser (f : Chart → Chart) : (w.onChart f).hub.hawser = w.hub.hawser := rfl
@[simp] theorem onChart_bin (f : Chart → Chart) : (w.onChart f).hub.bin = w.hub.bin := rfl
@[simp] theorem onChart_start (f : Chart → Chart) : (w.onChart f).hub.start = w.hub.start := rfl
@[simp] theorem onChart_svc (f : Chart → Chart) : (w.onChart f).hub.svc = w.hub.svc := rfl
@[simp] theorem onChart_mlog (f : Chart → Chart) : (w.onChart f).hub.mlog = w.hub.mlog := rfl
@[simp] theorem onChart_board (f : Chart → Chart) : (w.onChart f).hub.board = w.hub.board := rfl
@[simp] theorem onChart_heldOrders (f : Chart → Chart) : (w.onChart f).hub.heldOrders = w.hub.heldOrders := rfl

/-! ## onFabric -/

@[simp] theorem onFabric_mem (f : Fabric → Fabric) : (w.onFabric f).mem = w.mem := rfl
@[simp] theorem onFabric_writes (f : Fabric → Fabric) : (w.onFabric f).writes = w.writes := rfl
@[simp] theorem onFabric_now (f : Fabric → Fabric) : (w.onFabric f).hub.now = w.hub.now := rfl
@[simp] theorem onFabric_free (f : Fabric → Fabric) : (w.onFabric f).hub.free = w.hub.free := rfl
@[simp] theorem onFabric_sent (f : Fabric → Fabric) : (w.onFabric f).hub.sent = w.hub.sent := rfl
@[simp] theorem onFabric_cnt (f : Fabric → Fabric) : (w.onFabric f).hub.cnt = w.hub.cnt := rfl
@[simp] theorem onFabric_sites (f : Fabric → Fabric) : (w.onFabric f).hub.sites = w.hub.sites := rfl
@[simp] theorem onFabric_fabric (f : Fabric → Fabric) : (w.onFabric f).hub.fabric = f w.hub.fabric := rfl
@[simp] theorem onFabric_ledger (f : Fabric → Fabric) : (w.onFabric f).hub.ledger = w.hub.ledger := rfl
@[simp] theorem onFabric_memory (f : Fabric → Fabric) : (w.onFabric f).hub.memory = w.hub.memory := rfl
@[simp] theorem onFabric_bwr (f : Fabric → Fabric) : (w.onFabric f).hub.bwr = w.hub.bwr := rfl
@[simp] theorem onFabric_chart (f : Fabric → Fabric) : (w.onFabric f).hub.chart = w.hub.chart := rfl
@[simp] theorem onFabric_helm (f : Fabric → Fabric) : (w.onFabric f).hub.helm = w.hub.helm := rfl
@[simp] theorem onFabric_ports (f : Fabric → Fabric) : (w.onFabric f).hub.ports = w.hub.ports := rfl
@[simp] theorem onFabric_ten (f : Fabric → Fabric) : (w.onFabric f).hub.ten = w.hub.ten := rfl
@[simp] theorem onFabric_bearings (f : Fabric → Fabric) : (w.onFabric f).hub.bearings = w.hub.bearings := rfl
@[simp] theorem onFabric_tables (f : Fabric → Fabric) : (w.onFabric f).hub.tables = w.hub.tables := rfl
@[simp] theorem onFabric_packs (f : Fabric → Fabric) : (w.onFabric f).hub.packs = w.hub.packs := rfl
@[simp] theorem onFabric_recipes (f : Fabric → Fabric) : (w.onFabric f).hub.recipes = w.hub.recipes := rfl
@[simp] theorem onFabric_wrights (f : Fabric → Fabric) : (w.onFabric f).hub.wrights = w.hub.wrights := rfl
@[simp] theorem onFabric_purser (f : Fabric → Fabric) : (w.onFabric f).hub.purser = w.hub.purser := rfl
@[simp] theorem onFabric_hawser (f : Fabric → Fabric) : (w.onFabric f).hub.hawser = w.hub.hawser := rfl
@[simp] theorem onFabric_bin (f : Fabric → Fabric) : (w.onFabric f).hub.bin = w.hub.bin := rfl
@[simp] theorem onFabric_start (f : Fabric → Fabric) : (w.onFabric f).hub.start = w.hub.start := rfl
@[simp] theorem onFabric_svc (f : Fabric → Fabric) : (w.onFabric f).hub.svc = w.hub.svc := rfl
@[simp] theorem onFabric_mlog (f : Fabric → Fabric) : (w.onFabric f).hub.mlog = w.hub.mlog := rfl
@[simp] theorem onFabric_board (f : Fabric → Fabric) : (w.onFabric f).hub.board = w.hub.board := rfl
@[simp] theorem onFabric_heldOrders (f : Fabric → Fabric) : (w.onFabric f).hub.heldOrders = w.hub.heldOrders := rfl

/-! ## onSite -/

@[simp] theorem onSite_mem (n : Nat) (f : Site → Site) : (w.onSite n f).mem = w.mem := rfl
@[simp] theorem onSite_writes (n : Nat) (f : Site → Site) : (w.onSite n f).writes = w.writes := rfl
@[simp] theorem onSite_now (n : Nat) (f : Site → Site) : (w.onSite n f).hub.now = w.hub.now := rfl
@[simp] theorem onSite_free (n : Nat) (f : Site → Site) : (w.onSite n f).hub.free = w.hub.free := rfl
@[simp] theorem onSite_sent (n : Nat) (f : Site → Site) : (w.onSite n f).hub.sent = w.hub.sent := rfl
@[simp] theorem onSite_cnt (n : Nat) (f : Site → Site) : (w.onSite n f).hub.cnt = w.hub.cnt := rfl
@[simp] theorem onSite_sites (n : Nat) (f : Site → Site) : (w.onSite n f).hub.sites = tmod {} w.hub.sites n f := rfl
@[simp] theorem onSite_fabric (n : Nat) (f : Site → Site) : (w.onSite n f).hub.fabric = w.hub.fabric := rfl
@[simp] theorem onSite_ledger (n : Nat) (f : Site → Site) : (w.onSite n f).hub.ledger = w.hub.ledger := rfl
@[simp] theorem onSite_memory (n : Nat) (f : Site → Site) : (w.onSite n f).hub.memory = w.hub.memory := rfl
@[simp] theorem onSite_bwr (n : Nat) (f : Site → Site) : (w.onSite n f).hub.bwr = w.hub.bwr := rfl
@[simp] theorem onSite_chart (n : Nat) (f : Site → Site) : (w.onSite n f).hub.chart = w.hub.chart := rfl
@[simp] theorem onSite_helm (n : Nat) (f : Site → Site) : (w.onSite n f).hub.helm = w.hub.helm := rfl
@[simp] theorem onSite_ports (n : Nat) (f : Site → Site) : (w.onSite n f).hub.ports = w.hub.ports := rfl
@[simp] theorem onSite_ten (n : Nat) (f : Site → Site) : (w.onSite n f).hub.ten = w.hub.ten := rfl
@[simp] theorem onSite_bearings (n : Nat) (f : Site → Site) : (w.onSite n f).hub.bearings = w.hub.bearings := rfl
@[simp] theorem onSite_tables (n : Nat) (f : Site → Site) : (w.onSite n f).hub.tables = w.hub.tables := rfl
@[simp] theorem onSite_packs (n : Nat) (f : Site → Site) : (w.onSite n f).hub.packs = w.hub.packs := rfl
@[simp] theorem onSite_recipes (n : Nat) (f : Site → Site) : (w.onSite n f).hub.recipes = w.hub.recipes := rfl
@[simp] theorem onSite_wrights (n : Nat) (f : Site → Site) : (w.onSite n f).hub.wrights = w.hub.wrights := rfl
@[simp] theorem onSite_purser (n : Nat) (f : Site → Site) : (w.onSite n f).hub.purser = w.hub.purser := rfl
@[simp] theorem onSite_hawser (n : Nat) (f : Site → Site) : (w.onSite n f).hub.hawser = w.hub.hawser := rfl
@[simp] theorem onSite_bin (n : Nat) (f : Site → Site) : (w.onSite n f).hub.bin = w.hub.bin := rfl
@[simp] theorem onSite_start (n : Nat) (f : Site → Site) : (w.onSite n f).hub.start = w.hub.start := rfl
@[simp] theorem onSite_svc (n : Nat) (f : Site → Site) : (w.onSite n f).hub.svc = w.hub.svc := rfl
@[simp] theorem onSite_mlog (n : Nat) (f : Site → Site) : (w.onSite n f).hub.mlog = w.hub.mlog := rfl
@[simp] theorem onSite_board (n : Nat) (f : Site → Site) : (w.onSite n f).hub.board = w.hub.board := rfl
@[simp] theorem onSite_heldOrders (n : Nat) (f : Site → Site) : (w.onSite n f).hub.heldOrders = w.hub.heldOrders := rfl

/-! ## onBoard -/

@[simp] theorem onBoard_mem (f : Board → Board) : (w.onBoard f).mem = w.mem := rfl
@[simp] theorem onBoard_writes (f : Board → Board) : (w.onBoard f).writes = w.writes := rfl
@[simp] theorem onBoard_now (f : Board → Board) : (w.onBoard f).hub.now = w.hub.now := rfl
@[simp] theorem onBoard_free (f : Board → Board) : (w.onBoard f).hub.free = w.hub.free := rfl
@[simp] theorem onBoard_sent (f : Board → Board) : (w.onBoard f).hub.sent = w.hub.sent := rfl
@[simp] theorem onBoard_cnt (f : Board → Board) : (w.onBoard f).hub.cnt = w.hub.cnt := rfl
@[simp] theorem onBoard_sites (f : Board → Board) : (w.onBoard f).hub.sites = w.hub.sites := rfl
@[simp] theorem onBoard_fabric (f : Board → Board) : (w.onBoard f).hub.fabric = w.hub.fabric := rfl
@[simp] theorem onBoard_ledger (f : Board → Board) : (w.onBoard f).hub.ledger = w.hub.ledger := rfl
@[simp] theorem onBoard_memory (f : Board → Board) : (w.onBoard f).hub.memory = w.hub.memory := rfl
@[simp] theorem onBoard_bwr (f : Board → Board) : (w.onBoard f).hub.bwr = w.hub.bwr := rfl
@[simp] theorem onBoard_chart (f : Board → Board) : (w.onBoard f).hub.chart = w.hub.chart := rfl
@[simp] theorem onBoard_helm (f : Board → Board) : (w.onBoard f).hub.helm = w.hub.helm := rfl
@[simp] theorem onBoard_ports (f : Board → Board) : (w.onBoard f).hub.ports = w.hub.ports := rfl
@[simp] theorem onBoard_ten (f : Board → Board) : (w.onBoard f).hub.ten = w.hub.ten := rfl
@[simp] theorem onBoard_bearings (f : Board → Board) : (w.onBoard f).hub.bearings = w.hub.bearings := rfl
@[simp] theorem onBoard_tables (f : Board → Board) : (w.onBoard f).hub.tables = w.hub.tables := rfl
@[simp] theorem onBoard_packs (f : Board → Board) : (w.onBoard f).hub.packs = w.hub.packs := rfl
@[simp] theorem onBoard_recipes (f : Board → Board) : (w.onBoard f).hub.recipes = w.hub.recipes := rfl
@[simp] theorem onBoard_wrights (f : Board → Board) : (w.onBoard f).hub.wrights = w.hub.wrights := rfl
@[simp] theorem onBoard_purser (f : Board → Board) : (w.onBoard f).hub.purser = w.hub.purser := rfl
@[simp] theorem onBoard_hawser (f : Board → Board) : (w.onBoard f).hub.hawser = w.hub.hawser := rfl
@[simp] theorem onBoard_bin (f : Board → Board) : (w.onBoard f).hub.bin = w.hub.bin := rfl
@[simp] theorem onBoard_start (f : Board → Board) : (w.onBoard f).hub.start = w.hub.start := rfl
@[simp] theorem onBoard_svc (f : Board → Board) : (w.onBoard f).hub.svc = w.hub.svc := rfl
@[simp] theorem onBoard_mlog (f : Board → Board) : (w.onBoard f).hub.mlog = w.hub.mlog := rfl
@[simp] theorem onBoard_board (f : Board → Board) : (w.onBoard f).hub.board = f w.hub.board := rfl
@[simp] theorem onBoard_heldOrders (f : Board → Board) : (w.onBoard f).hub.heldOrders = w.hub.heldOrders := rfl

/-! ## onBin -/

@[simp] theorem onBin_mem (f : Bin → Bin) : (w.onBin f).mem = w.mem := rfl
@[simp] theorem onBin_writes (f : Bin → Bin) : (w.onBin f).writes = w.writes := rfl
@[simp] theorem onBin_now (f : Bin → Bin) : (w.onBin f).hub.now = w.hub.now := rfl
@[simp] theorem onBin_free (f : Bin → Bin) : (w.onBin f).hub.free = w.hub.free := rfl
@[simp] theorem onBin_sent (f : Bin → Bin) : (w.onBin f).hub.sent = w.hub.sent := rfl
@[simp] theorem onBin_cnt (f : Bin → Bin) : (w.onBin f).hub.cnt = w.hub.cnt := rfl
@[simp] theorem onBin_sites (f : Bin → Bin) : (w.onBin f).hub.sites = w.hub.sites := rfl
@[simp] theorem onBin_fabric (f : Bin → Bin) : (w.onBin f).hub.fabric = w.hub.fabric := rfl
@[simp] theorem onBin_ledger (f : Bin → Bin) : (w.onBin f).hub.ledger = w.hub.ledger := rfl
@[simp] theorem onBin_memory (f : Bin → Bin) : (w.onBin f).hub.memory = w.hub.memory := rfl
@[simp] theorem onBin_bwr (f : Bin → Bin) : (w.onBin f).hub.bwr = w.hub.bwr := rfl
@[simp] theorem onBin_chart (f : Bin → Bin) : (w.onBin f).hub.chart = w.hub.chart := rfl
@[simp] theorem onBin_helm (f : Bin → Bin) : (w.onBin f).hub.helm = w.hub.helm := rfl
@[simp] theorem onBin_ports (f : Bin → Bin) : (w.onBin f).hub.ports = w.hub.ports := rfl
@[simp] theorem onBin_ten (f : Bin → Bin) : (w.onBin f).hub.ten = w.hub.ten := rfl
@[simp] theorem onBin_bearings (f : Bin → Bin) : (w.onBin f).hub.bearings = w.hub.bearings := rfl
@[simp] theorem onBin_tables (f : Bin → Bin) : (w.onBin f).hub.tables = w.hub.tables := rfl
@[simp] theorem onBin_packs (f : Bin → Bin) : (w.onBin f).hub.packs = w.hub.packs := rfl
@[simp] theorem onBin_recipes (f : Bin → Bin) : (w.onBin f).hub.recipes = w.hub.recipes := rfl
@[simp] theorem onBin_wrights (f : Bin → Bin) : (w.onBin f).hub.wrights = w.hub.wrights := rfl
@[simp] theorem onBin_purser (f : Bin → Bin) : (w.onBin f).hub.purser = w.hub.purser := rfl
@[simp] theorem onBin_hawser (f : Bin → Bin) : (w.onBin f).hub.hawser = w.hub.hawser := rfl
@[simp] theorem onBin_bin (f : Bin → Bin) : (w.onBin f).hub.bin = f w.hub.bin := rfl
@[simp] theorem onBin_start (f : Bin → Bin) : (w.onBin f).hub.start = w.hub.start := rfl
@[simp] theorem onBin_svc (f : Bin → Bin) : (w.onBin f).hub.svc = w.hub.svc := rfl
@[simp] theorem onBin_mlog (f : Bin → Bin) : (w.onBin f).hub.mlog = w.hub.mlog := rfl
@[simp] theorem onBin_board (f : Bin → Bin) : (w.onBin f).hub.board = w.hub.board := rfl
@[simp] theorem onBin_heldOrders (f : Bin → Bin) : (w.onBin f).hub.heldOrders = w.hub.heldOrders := rfl

/-! ## onLedger -/

@[simp] theorem onLedger_mem (f : Ledger → Ledger) : (w.onLedger f).mem = w.mem := rfl
@[simp] theorem onLedger_writes (f : Ledger → Ledger) : (w.onLedger f).writes = w.writes := rfl
@[simp] theorem onLedger_now (f : Ledger → Ledger) : (w.onLedger f).hub.now = w.hub.now := rfl
@[simp] theorem onLedger_free (f : Ledger → Ledger) : (w.onLedger f).hub.free = w.hub.free := rfl
@[simp] theorem onLedger_sent (f : Ledger → Ledger) : (w.onLedger f).hub.sent = w.hub.sent := rfl
@[simp] theorem onLedger_cnt (f : Ledger → Ledger) : (w.onLedger f).hub.cnt = w.hub.cnt := rfl
@[simp] theorem onLedger_sites (f : Ledger → Ledger) : (w.onLedger f).hub.sites = w.hub.sites := rfl
@[simp] theorem onLedger_fabric (f : Ledger → Ledger) : (w.onLedger f).hub.fabric = w.hub.fabric := rfl
@[simp] theorem onLedger_ledger (f : Ledger → Ledger) : (w.onLedger f).hub.ledger = f w.hub.ledger := rfl
@[simp] theorem onLedger_memory (f : Ledger → Ledger) : (w.onLedger f).hub.memory = w.hub.memory := rfl
@[simp] theorem onLedger_bwr (f : Ledger → Ledger) : (w.onLedger f).hub.bwr = w.hub.bwr := rfl
@[simp] theorem onLedger_chart (f : Ledger → Ledger) : (w.onLedger f).hub.chart = w.hub.chart := rfl
@[simp] theorem onLedger_helm (f : Ledger → Ledger) : (w.onLedger f).hub.helm = w.hub.helm := rfl
@[simp] theorem onLedger_ports (f : Ledger → Ledger) : (w.onLedger f).hub.ports = w.hub.ports := rfl
@[simp] theorem onLedger_ten (f : Ledger → Ledger) : (w.onLedger f).hub.ten = w.hub.ten := rfl
@[simp] theorem onLedger_bearings (f : Ledger → Ledger) : (w.onLedger f).hub.bearings = w.hub.bearings := rfl
@[simp] theorem onLedger_tables (f : Ledger → Ledger) : (w.onLedger f).hub.tables = w.hub.tables := rfl
@[simp] theorem onLedger_packs (f : Ledger → Ledger) : (w.onLedger f).hub.packs = w.hub.packs := rfl
@[simp] theorem onLedger_recipes (f : Ledger → Ledger) : (w.onLedger f).hub.recipes = w.hub.recipes := rfl
@[simp] theorem onLedger_wrights (f : Ledger → Ledger) : (w.onLedger f).hub.wrights = w.hub.wrights := rfl
@[simp] theorem onLedger_purser (f : Ledger → Ledger) : (w.onLedger f).hub.purser = w.hub.purser := rfl
@[simp] theorem onLedger_hawser (f : Ledger → Ledger) : (w.onLedger f).hub.hawser = w.hub.hawser := rfl
@[simp] theorem onLedger_bin (f : Ledger → Ledger) : (w.onLedger f).hub.bin = w.hub.bin := rfl
@[simp] theorem onLedger_start (f : Ledger → Ledger) : (w.onLedger f).hub.start = w.hub.start := rfl
@[simp] theorem onLedger_svc (f : Ledger → Ledger) : (w.onLedger f).hub.svc = w.hub.svc := rfl
@[simp] theorem onLedger_mlog (f : Ledger → Ledger) : (w.onLedger f).hub.mlog = w.hub.mlog := rfl
@[simp] theorem onLedger_board (f : Ledger → Ledger) : (w.onLedger f).hub.board = w.hub.board := rfl
@[simp] theorem onLedger_heldOrders (f : Ledger → Ledger) : (w.onLedger f).hub.heldOrders = w.hub.heldOrders := rfl

/-! ## onStart -/

@[simp] theorem onStart_mem (f : Start → Start) : (w.onStart f).mem = w.mem := rfl
@[simp] theorem onStart_writes (f : Start → Start) : (w.onStart f).writes = w.writes := rfl
@[simp] theorem onStart_now (f : Start → Start) : (w.onStart f).hub.now = w.hub.now := rfl
@[simp] theorem onStart_free (f : Start → Start) : (w.onStart f).hub.free = w.hub.free := rfl
@[simp] theorem onStart_sent (f : Start → Start) : (w.onStart f).hub.sent = w.hub.sent := rfl
@[simp] theorem onStart_cnt (f : Start → Start) : (w.onStart f).hub.cnt = w.hub.cnt := rfl
@[simp] theorem onStart_sites (f : Start → Start) : (w.onStart f).hub.sites = w.hub.sites := rfl
@[simp] theorem onStart_fabric (f : Start → Start) : (w.onStart f).hub.fabric = w.hub.fabric := rfl
@[simp] theorem onStart_ledger (f : Start → Start) : (w.onStart f).hub.ledger = w.hub.ledger := rfl
@[simp] theorem onStart_memory (f : Start → Start) : (w.onStart f).hub.memory = w.hub.memory := rfl
@[simp] theorem onStart_bwr (f : Start → Start) : (w.onStart f).hub.bwr = w.hub.bwr := rfl
@[simp] theorem onStart_chart (f : Start → Start) : (w.onStart f).hub.chart = w.hub.chart := rfl
@[simp] theorem onStart_helm (f : Start → Start) : (w.onStart f).hub.helm = w.hub.helm := rfl
@[simp] theorem onStart_ports (f : Start → Start) : (w.onStart f).hub.ports = w.hub.ports := rfl
@[simp] theorem onStart_ten (f : Start → Start) : (w.onStart f).hub.ten = w.hub.ten := rfl
@[simp] theorem onStart_bearings (f : Start → Start) : (w.onStart f).hub.bearings = w.hub.bearings := rfl
@[simp] theorem onStart_tables (f : Start → Start) : (w.onStart f).hub.tables = w.hub.tables := rfl
@[simp] theorem onStart_packs (f : Start → Start) : (w.onStart f).hub.packs = w.hub.packs := rfl
@[simp] theorem onStart_recipes (f : Start → Start) : (w.onStart f).hub.recipes = w.hub.recipes := rfl
@[simp] theorem onStart_wrights (f : Start → Start) : (w.onStart f).hub.wrights = w.hub.wrights := rfl
@[simp] theorem onStart_purser (f : Start → Start) : (w.onStart f).hub.purser = w.hub.purser := rfl
@[simp] theorem onStart_hawser (f : Start → Start) : (w.onStart f).hub.hawser = w.hub.hawser := rfl
@[simp] theorem onStart_bin (f : Start → Start) : (w.onStart f).hub.bin = w.hub.bin := rfl
@[simp] theorem onStart_start (f : Start → Start) : (w.onStart f).hub.start = f w.hub.start := rfl
@[simp] theorem onStart_svc (f : Start → Start) : (w.onStart f).hub.svc = w.hub.svc := rfl
@[simp] theorem onStart_mlog (f : Start → Start) : (w.onStart f).hub.mlog = w.hub.mlog := rfl
@[simp] theorem onStart_board (f : Start → Start) : (w.onStart f).hub.board = w.hub.board := rfl
@[simp] theorem onStart_heldOrders (f : Start → Start) : (w.onStart f).hub.heldOrders = w.hub.heldOrders := rfl

/-! ## onSvc -/

@[simp] theorem onSvc_mem (f : Svc → Svc) : (w.onSvc f).mem = w.mem := rfl
@[simp] theorem onSvc_writes (f : Svc → Svc) : (w.onSvc f).writes = w.writes := rfl
@[simp] theorem onSvc_now (f : Svc → Svc) : (w.onSvc f).hub.now = w.hub.now := rfl
@[simp] theorem onSvc_free (f : Svc → Svc) : (w.onSvc f).hub.free = w.hub.free := rfl
@[simp] theorem onSvc_sent (f : Svc → Svc) : (w.onSvc f).hub.sent = w.hub.sent := rfl
@[simp] theorem onSvc_cnt (f : Svc → Svc) : (w.onSvc f).hub.cnt = w.hub.cnt := rfl
@[simp] theorem onSvc_sites (f : Svc → Svc) : (w.onSvc f).hub.sites = w.hub.sites := rfl
@[simp] theorem onSvc_fabric (f : Svc → Svc) : (w.onSvc f).hub.fabric = w.hub.fabric := rfl
@[simp] theorem onSvc_ledger (f : Svc → Svc) : (w.onSvc f).hub.ledger = w.hub.ledger := rfl
@[simp] theorem onSvc_memory (f : Svc → Svc) : (w.onSvc f).hub.memory = w.hub.memory := rfl
@[simp] theorem onSvc_bwr (f : Svc → Svc) : (w.onSvc f).hub.bwr = w.hub.bwr := rfl
@[simp] theorem onSvc_chart (f : Svc → Svc) : (w.onSvc f).hub.chart = w.hub.chart := rfl
@[simp] theorem onSvc_helm (f : Svc → Svc) : (w.onSvc f).hub.helm = w.hub.helm := rfl
@[simp] theorem onSvc_ports (f : Svc → Svc) : (w.onSvc f).hub.ports = w.hub.ports := rfl
@[simp] theorem onSvc_ten (f : Svc → Svc) : (w.onSvc f).hub.ten = w.hub.ten := rfl
@[simp] theorem onSvc_bearings (f : Svc → Svc) : (w.onSvc f).hub.bearings = w.hub.bearings := rfl
@[simp] theorem onSvc_tables (f : Svc → Svc) : (w.onSvc f).hub.tables = w.hub.tables := rfl
@[simp] theorem onSvc_packs (f : Svc → Svc) : (w.onSvc f).hub.packs = w.hub.packs := rfl
@[simp] theorem onSvc_recipes (f : Svc → Svc) : (w.onSvc f).hub.recipes = w.hub.recipes := rfl
@[simp] theorem onSvc_wrights (f : Svc → Svc) : (w.onSvc f).hub.wrights = w.hub.wrights := rfl
@[simp] theorem onSvc_purser (f : Svc → Svc) : (w.onSvc f).hub.purser = w.hub.purser := rfl
@[simp] theorem onSvc_hawser (f : Svc → Svc) : (w.onSvc f).hub.hawser = w.hub.hawser := rfl
@[simp] theorem onSvc_bin (f : Svc → Svc) : (w.onSvc f).hub.bin = w.hub.bin := rfl
@[simp] theorem onSvc_start (f : Svc → Svc) : (w.onSvc f).hub.start = w.hub.start := rfl
@[simp] theorem onSvc_svc (f : Svc → Svc) : (w.onSvc f).hub.svc = f w.hub.svc := rfl
@[simp] theorem onSvc_mlog (f : Svc → Svc) : (w.onSvc f).hub.mlog = w.hub.mlog := rfl
@[simp] theorem onSvc_board (f : Svc → Svc) : (w.onSvc f).hub.board = w.hub.board := rfl
@[simp] theorem onSvc_heldOrders (f : Svc → Svc) : (w.onSvc f).hub.heldOrders = w.hub.heldOrders := rfl

/-! ## onHawser -/

@[simp] theorem onHawser_mem (f : Hawser → Hawser) : (w.onHawser f).mem = w.mem := rfl
@[simp] theorem onHawser_writes (f : Hawser → Hawser) : (w.onHawser f).writes = w.writes := rfl
@[simp] theorem onHawser_now (f : Hawser → Hawser) : (w.onHawser f).hub.now = w.hub.now := rfl
@[simp] theorem onHawser_free (f : Hawser → Hawser) : (w.onHawser f).hub.free = w.hub.free := rfl
@[simp] theorem onHawser_sent (f : Hawser → Hawser) : (w.onHawser f).hub.sent = w.hub.sent := rfl
@[simp] theorem onHawser_cnt (f : Hawser → Hawser) : (w.onHawser f).hub.cnt = w.hub.cnt := rfl
@[simp] theorem onHawser_sites (f : Hawser → Hawser) : (w.onHawser f).hub.sites = w.hub.sites := rfl
@[simp] theorem onHawser_fabric (f : Hawser → Hawser) : (w.onHawser f).hub.fabric = w.hub.fabric := rfl
@[simp] theorem onHawser_ledger (f : Hawser → Hawser) : (w.onHawser f).hub.ledger = w.hub.ledger := rfl
@[simp] theorem onHawser_memory (f : Hawser → Hawser) : (w.onHawser f).hub.memory = w.hub.memory := rfl
@[simp] theorem onHawser_bwr (f : Hawser → Hawser) : (w.onHawser f).hub.bwr = w.hub.bwr := rfl
@[simp] theorem onHawser_chart (f : Hawser → Hawser) : (w.onHawser f).hub.chart = w.hub.chart := rfl
@[simp] theorem onHawser_helm (f : Hawser → Hawser) : (w.onHawser f).hub.helm = w.hub.helm := rfl
@[simp] theorem onHawser_ports (f : Hawser → Hawser) : (w.onHawser f).hub.ports = w.hub.ports := rfl
@[simp] theorem onHawser_ten (f : Hawser → Hawser) : (w.onHawser f).hub.ten = w.hub.ten := rfl
@[simp] theorem onHawser_bearings (f : Hawser → Hawser) : (w.onHawser f).hub.bearings = w.hub.bearings := rfl
@[simp] theorem onHawser_tables (f : Hawser → Hawser) : (w.onHawser f).hub.tables = w.hub.tables := rfl
@[simp] theorem onHawser_packs (f : Hawser → Hawser) : (w.onHawser f).hub.packs = w.hub.packs := rfl
@[simp] theorem onHawser_recipes (f : Hawser → Hawser) : (w.onHawser f).hub.recipes = w.hub.recipes := rfl
@[simp] theorem onHawser_wrights (f : Hawser → Hawser) : (w.onHawser f).hub.wrights = w.hub.wrights := rfl
@[simp] theorem onHawser_purser (f : Hawser → Hawser) : (w.onHawser f).hub.purser = w.hub.purser := rfl
@[simp] theorem onHawser_hawser (f : Hawser → Hawser) : (w.onHawser f).hub.hawser = f w.hub.hawser := rfl
@[simp] theorem onHawser_bin (f : Hawser → Hawser) : (w.onHawser f).hub.bin = w.hub.bin := rfl
@[simp] theorem onHawser_start (f : Hawser → Hawser) : (w.onHawser f).hub.start = w.hub.start := rfl
@[simp] theorem onHawser_svc (f : Hawser → Hawser) : (w.onHawser f).hub.svc = w.hub.svc := rfl
@[simp] theorem onHawser_mlog (f : Hawser → Hawser) : (w.onHawser f).hub.mlog = w.hub.mlog := rfl
@[simp] theorem onHawser_board (f : Hawser → Hawser) : (w.onHawser f).hub.board = w.hub.board := rfl
@[simp] theorem onHawser_heldOrders (f : Hawser → Hawser) : (w.onHawser f).hub.heldOrders = w.hub.heldOrders := rfl

/-! ## onBearing -/

@[simp] theorem onBearing_mem (b : Nat) (f : Bearing → Bearing) : (w.onBearing b f).mem = w.mem := rfl
@[simp] theorem onBearing_writes (b : Nat) (f : Bearing → Bearing) : (w.onBearing b f).writes = w.writes := rfl
@[simp] theorem onBearing_now (b : Nat) (f : Bearing → Bearing) : (w.onBearing b f).hub.now = w.hub.now := rfl
@[simp] theorem onBearing_free (b : Nat) (f : Bearing → Bearing) : (w.onBearing b f).hub.free = w.hub.free := rfl
@[simp] theorem onBearing_sent (b : Nat) (f : Bearing → Bearing) : (w.onBearing b f).hub.sent = w.hub.sent := rfl
@[simp] theorem onBearing_cnt (b : Nat) (f : Bearing → Bearing) : (w.onBearing b f).hub.cnt = w.hub.cnt := rfl
@[simp] theorem onBearing_sites (b : Nat) (f : Bearing → Bearing) : (w.onBearing b f).hub.sites = w.hub.sites := rfl
@[simp] theorem onBearing_fabric (b : Nat) (f : Bearing → Bearing) : (w.onBearing b f).hub.fabric = w.hub.fabric := rfl
@[simp] theorem onBearing_ledger (b : Nat) (f : Bearing → Bearing) : (w.onBearing b f).hub.ledger = w.hub.ledger := rfl
@[simp] theorem onBearing_memory (b : Nat) (f : Bearing → Bearing) : (w.onBearing b f).hub.memory = w.hub.memory := rfl
@[simp] theorem onBearing_bwr (b : Nat) (f : Bearing → Bearing) : (w.onBearing b f).hub.bwr = w.hub.bwr := rfl
@[simp] theorem onBearing_chart (b : Nat) (f : Bearing → Bearing) : (w.onBearing b f).hub.chart = w.hub.chart := rfl
@[simp] theorem onBearing_helm (b : Nat) (f : Bearing → Bearing) : (w.onBearing b f).hub.helm = w.hub.helm := rfl
@[simp] theorem onBearing_ports (b : Nat) (f : Bearing → Bearing) : (w.onBearing b f).hub.ports = w.hub.ports := rfl
@[simp] theorem onBearing_ten (b : Nat) (f : Bearing → Bearing) : (w.onBearing b f).hub.ten = w.hub.ten := rfl
@[simp] theorem onBearing_bearings (b : Nat) (f : Bearing → Bearing) : (w.onBearing b f).hub.bearings = tmod {} w.hub.bearings b f := rfl
@[simp] theorem onBearing_tables (b : Nat) (f : Bearing → Bearing) : (w.onBearing b f).hub.tables = w.hub.tables := rfl
@[simp] theorem onBearing_packs (b : Nat) (f : Bearing → Bearing) : (w.onBearing b f).hub.packs = w.hub.packs := rfl
@[simp] theorem onBearing_recipes (b : Nat) (f : Bearing → Bearing) : (w.onBearing b f).hub.recipes = w.hub.recipes := rfl
@[simp] theorem onBearing_wrights (b : Nat) (f : Bearing → Bearing) : (w.onBearing b f).hub.wrights = w.hub.wrights := rfl
@[simp] theorem onBearing_purser (b : Nat) (f : Bearing → Bearing) : (w.onBearing b f).hub.purser = w.hub.purser := rfl
@[simp] theorem onBearing_hawser (b : Nat) (f : Bearing → Bearing) : (w.onBearing b f).hub.hawser = w.hub.hawser := rfl
@[simp] theorem onBearing_bin (b : Nat) (f : Bearing → Bearing) : (w.onBearing b f).hub.bin = w.hub.bin := rfl
@[simp] theorem onBearing_start (b : Nat) (f : Bearing → Bearing) : (w.onBearing b f).hub.start = w.hub.start := rfl
@[simp] theorem onBearing_svc (b : Nat) (f : Bearing → Bearing) : (w.onBearing b f).hub.svc = w.hub.svc := rfl
@[simp] theorem onBearing_mlog (b : Nat) (f : Bearing → Bearing) : (w.onBearing b f).hub.mlog = w.hub.mlog := rfl
@[simp] theorem onBearing_board (b : Nat) (f : Bearing → Bearing) : (w.onBearing b f).hub.board = w.hub.board := rfl
@[simp] theorem onBearing_heldOrders (b : Nat) (f : Bearing → Bearing) : (w.onBearing b f).hub.heldOrders = w.hub.heldOrders := rfl

/-! ## onWright -/

@[simp] theorem onWright_mem (x : Nat) (f : Wright → Wright) : (w.onWright x f).mem = w.mem := rfl
@[simp] theorem onWright_writes (x : Nat) (f : Wright → Wright) : (w.onWright x f).writes = w.writes := rfl
@[simp] theorem onWright_now (x : Nat) (f : Wright → Wright) : (w.onWright x f).hub.now = w.hub.now := rfl
@[simp] theorem onWright_free (x : Nat) (f : Wright → Wright) : (w.onWright x f).hub.free = w.hub.free := rfl
@[simp] theorem onWright_sent (x : Nat) (f : Wright → Wright) : (w.onWright x f).hub.sent = w.hub.sent := rfl
@[simp] theorem onWright_cnt (x : Nat) (f : Wright → Wright) : (w.onWright x f).hub.cnt = w.hub.cnt := rfl
@[simp] theorem onWright_sites (x : Nat) (f : Wright → Wright) : (w.onWright x f).hub.sites = w.hub.sites := rfl
@[simp] theorem onWright_fabric (x : Nat) (f : Wright → Wright) : (w.onWright x f).hub.fabric = w.hub.fabric := rfl
@[simp] theorem onWright_ledger (x : Nat) (f : Wright → Wright) : (w.onWright x f).hub.ledger = w.hub.ledger := rfl
@[simp] theorem onWright_memory (x : Nat) (f : Wright → Wright) : (w.onWright x f).hub.memory = w.hub.memory := rfl
@[simp] theorem onWright_bwr (x : Nat) (f : Wright → Wright) : (w.onWright x f).hub.bwr = w.hub.bwr := rfl
@[simp] theorem onWright_chart (x : Nat) (f : Wright → Wright) : (w.onWright x f).hub.chart = w.hub.chart := rfl
@[simp] theorem onWright_helm (x : Nat) (f : Wright → Wright) : (w.onWright x f).hub.helm = w.hub.helm := rfl
@[simp] theorem onWright_ports (x : Nat) (f : Wright → Wright) : (w.onWright x f).hub.ports = w.hub.ports := rfl
@[simp] theorem onWright_ten (x : Nat) (f : Wright → Wright) : (w.onWright x f).hub.ten = w.hub.ten := rfl
@[simp] theorem onWright_bearings (x : Nat) (f : Wright → Wright) : (w.onWright x f).hub.bearings = w.hub.bearings := rfl
@[simp] theorem onWright_tables (x : Nat) (f : Wright → Wright) : (w.onWright x f).hub.tables = w.hub.tables := rfl
@[simp] theorem onWright_packs (x : Nat) (f : Wright → Wright) : (w.onWright x f).hub.packs = w.hub.packs := rfl
@[simp] theorem onWright_recipes (x : Nat) (f : Wright → Wright) : (w.onWright x f).hub.recipes = w.hub.recipes := rfl
@[simp] theorem onWright_wrights (x : Nat) (f : Wright → Wright) : (w.onWright x f).hub.wrights = tmod {} w.hub.wrights x f := rfl
@[simp] theorem onWright_purser (x : Nat) (f : Wright → Wright) : (w.onWright x f).hub.purser = w.hub.purser := rfl
@[simp] theorem onWright_hawser (x : Nat) (f : Wright → Wright) : (w.onWright x f).hub.hawser = w.hub.hawser := rfl
@[simp] theorem onWright_bin (x : Nat) (f : Wright → Wright) : (w.onWright x f).hub.bin = w.hub.bin := rfl
@[simp] theorem onWright_start (x : Nat) (f : Wright → Wright) : (w.onWright x f).hub.start = w.hub.start := rfl
@[simp] theorem onWright_svc (x : Nat) (f : Wright → Wright) : (w.onWright x f).hub.svc = w.hub.svc := rfl
@[simp] theorem onWright_mlog (x : Nat) (f : Wright → Wright) : (w.onWright x f).hub.mlog = w.hub.mlog := rfl
@[simp] theorem onWright_board (x : Nat) (f : Wright → Wright) : (w.onWright x f).hub.board = w.hub.board := rfl
@[simp] theorem onWright_heldOrders (x : Nat) (f : Wright → Wright) : (w.onWright x f).hub.heldOrders = w.hub.heldOrders := rfl

/-! ## What is emitted -/

@[simp] theorem emit_mem (o : Out) : (w.emit o).mem = w.mem := rfl
@[simp] theorem emit_writes (o : Out) : (w.emit o).writes = w.writes := rfl
@[simp] theorem emit_now (o : Out) : (w.emit o).hub.now = w.hub.now := rfl
@[simp] theorem emit_free (o : Out) : (w.emit o).hub.free = w.hub.free := rfl
@[simp] theorem emit_sent (o : Out) : (w.emit o).hub.sent = o :: w.hub.sent := rfl
@[simp] theorem emit_cnt (o : Out) : (w.emit o).hub.cnt = w.hub.cnt := rfl
@[simp] theorem emit_sites (o : Out) : (w.emit o).hub.sites = w.hub.sites := rfl
@[simp] theorem emit_fabric (o : Out) : (w.emit o).hub.fabric = w.hub.fabric := rfl
@[simp] theorem emit_ledger (o : Out) : (w.emit o).hub.ledger = w.hub.ledger := rfl
@[simp] theorem emit_memory (o : Out) : (w.emit o).hub.memory = w.hub.memory := rfl
@[simp] theorem emit_bwr (o : Out) : (w.emit o).hub.bwr = w.hub.bwr := rfl
@[simp] theorem emit_chart (o : Out) : (w.emit o).hub.chart = w.hub.chart := rfl
@[simp] theorem emit_helm (o : Out) : (w.emit o).hub.helm = w.hub.helm := rfl
@[simp] theorem emit_ports (o : Out) : (w.emit o).hub.ports = w.hub.ports := rfl
@[simp] theorem emit_ten (o : Out) : (w.emit o).hub.ten = w.hub.ten := rfl
@[simp] theorem emit_bearings (o : Out) : (w.emit o).hub.bearings = w.hub.bearings := rfl
@[simp] theorem emit_tables (o : Out) : (w.emit o).hub.tables = w.hub.tables := rfl
@[simp] theorem emit_packs (o : Out) : (w.emit o).hub.packs = w.hub.packs := rfl
@[simp] theorem emit_recipes (o : Out) : (w.emit o).hub.recipes = w.hub.recipes := rfl
@[simp] theorem emit_wrights (o : Out) : (w.emit o).hub.wrights = w.hub.wrights := rfl
@[simp] theorem emit_purser (o : Out) : (w.emit o).hub.purser = w.hub.purser := rfl
@[simp] theorem emit_hawser (o : Out) : (w.emit o).hub.hawser = w.hub.hawser := rfl
@[simp] theorem emit_bin (o : Out) : (w.emit o).hub.bin = w.hub.bin := rfl
@[simp] theorem emit_start (o : Out) : (w.emit o).hub.start = w.hub.start := rfl
@[simp] theorem emit_svc (o : Out) : (w.emit o).hub.svc = w.hub.svc := rfl
@[simp] theorem emit_mlog (o : Out) : (w.emit o).hub.mlog = w.hub.mlog := rfl
@[simp] theorem emit_board (o : Out) : (w.emit o).hub.board = w.hub.board := rfl
@[simp] theorem emit_heldOrders (o : Out) : (w.emit o).hub.heldOrders = w.hub.heldOrders := rfl

end Sys2Proof.Machine
end

