-- ==== Sys2Proof/Laws/Tables.lean ====
section
/-! SUPPORT. Laws of tables, sets and folds (Machine/Operands.lean). -/

namespace Sys2Proof.Machine

variable {α σ : Type}

@[simp] theorem tget_tset_self (d : α) (t : Tab α) (i : Nat) (a : α) : tget d (tset t i a) i = a := by
  induction t with
  | nil => simp [tset, tget]
  | cons x r ih =>
    obtain ⟨k, v⟩ := x
    simp only [tset]
    split
    · simp [tget]
    · split
      · rename_i h1 h2; simp [tget, h1, h2, ih]
      · simp [tget]

theorem tget_tset_ne (d : α) (t : Tab α) {i j : Nat} (a : α) (h : j ≠ i) : tget d (tset t i a) j = tget d t j := by
  induction t with
  | nil => simp [tset, tget]; omega
  | cons x r ih =>
    obtain ⟨k, v⟩ := x
    simp only [tset]
    split
    · rename_i h1; subst h1; simp only [tget]; simp [Ne.symm h]
    · split
      · simp only [tget, ih]
      · simp only [tget]
        by_cases h1 : i = j
        · omega
        · by_cases h2 : i < j
          · simp [h1, h2]
          · have : ¬ k = j := by omega
            have h3 : ¬ k < j := by omega
            simp [h1, h2, this, h3]

@[simp] theorem tfind_tset_self (t : Tab α) (i : Nat) (a : α) : tfind (tset t i a) i = some a := by
  induction t with
  | nil => simp [tset, tfind]
  | cons x r ih =>
    obtain ⟨k, v⟩ := x
    simp only [tset]
    split
    · simp [tfind]
    · split
      · rename_i h1 h2; simp [tfind, h1, h2, ih]
      · simp [tfind]

theorem tfind_tset_ne (t : Tab α) {i j : Nat} (a : α) (h : j ≠ i) : tfind (tset t i a) j = tfind t j := by
  induction t with
  | nil => simp [tset, tfind]; omega
  | cons x r ih =>
    obtain ⟨k, v⟩ := x
    simp only [tset]
    split
    · rename_i h1; subst h1; simp only [tfind]; simp [Ne.symm h]
    · split
      · simp only [tfind, ih]
      · simp only [tfind]
        by_cases h1 : i = j
        · omega
        · by_cases h2 : i < j
          · simp [h1, h2]
          · have : ¬ k = j := by omega
            have h3 : ¬ k < j := by omega
            simp [h1, h2, this, h3]

/-- A table read with a default is the lookup with that default. -/
theorem tget_eq_tfind (d : α) (t : Tab α) (i : Nat) : tget d t i = (tfind t i).getD d := by
  induction t with
  | nil => rfl
  | cons x r ih =>
    obtain ⟨k, v⟩ := x
    simp only [tget, tfind]
    split
    · rfl
    · split
      · exact ih
      · rfl

@[simp] theorem tget_tmod_self (d : α) (t : Tab α) (i : Nat) (f : α → α) : tget d (tmod d t i f) i = f (tget d t i) := by simp [tmod]

theorem tget_tmod_ne (d : α) (t : Tab α) {i j : Nat} (f : α → α) (h : j ≠ i) : tget d (tmod d t i f) j = tget d t j := by
  simp [tmod, tget_tset_ne _ _ _ h]

@[simp] theorem mem_addTo [DecidableEq α] (l : List α) (a b : α) : b ∈ addTo l a ↔ b = a ∨ b ∈ l := by
  unfold addTo; split
  · constructor
    · exact .inr
    · rintro (rfl | h) <;> assumption
  · simp

@[simp] theorem mem_rmv [DecidableEq α] (l : List α) (a b : α) : b ∈ rmv l a ↔ b ∈ l ∧ b ≠ a := by simp [rmv]

@[simp] theorem each_nil (f : α → σ → σ) (s : σ) : each [] f s = s := rfl
@[simp] theorem each_cons (a : α) (l : List α) (f : α → σ → σ) (s : σ) : each (a :: l) f s = each l f (f a s) := rfl

/-- What holds at the start of a fold and is kept by every turn holds at its end. -/
theorem each_keeps {p : σ → Prop} (l : List α) (f : α → σ → σ) (s : σ) (h : p s) (hf : ∀ a s, p s → p (f a s)) : p (each l f s) := by
  induction l generalizing s with
  | nil => exact h
  | cons a l ih => exact ih _ (hf a s h)

/-- A field that no turn changes is unchanged by the fold. -/
theorem each_same {β : Type} (g : σ → β) (l : List α) (f : α → σ → σ) (s : σ) (hf : ∀ a s, g (f a s) = g s) : g (each l f s) = g s := by
  induction l generalizing s with
  | nil => rfl
  | cons a l ih => rw [each_cons, ih, hf]

/-- A fold whose every turn leaves the start as it is ends there. -/
theorem each_fixed (l : List α) (f : α → σ → σ) (s : σ) (h : ∀ a ∈ l, f a s = s) : each l f s = s := by
  induction l with
  | nil => rfl
  | cons a l ih => rw [each_cons, h a (by simp), ih fun x hx => h x (by simp [hx])]

end Sys2Proof.Machine
end

