-- ==== Sys2Proof/Laws/Frames.lean ====
section
/-! SUPPORT. What the shared operations of counters, interrupts and Logs (Machine/Flags.lean) can do, said once: they change port records, counters, emissions and the management Log, and no other block. -/

namespace Sys2Proof.Machine

/-- From one work to the next only what reports change has changed. -/
def Reports (w w' : Work) : Prop := quietHub w'.hub = quietHub w.hub

theorem Reports.refl (w : Work) : Reports w w := rfl
theorem Reports.trans {a b c : Work} (h : Reports a b) (k : Reports b c) : Reports a c := Eq.trans k h

theorem Reports.each {α : Type} (l : List α) (f : α → Work → Work) (w : Work) (hf : ∀ a w, Reports w (f a w)) : Reports w (each l f w) := by
  induction l generalizing w with
  | nil => exact .refl w
  | cons a l ih => exact (hf a w).trans (ih _)

theorem Reports.now {w w' : Work} (h : Reports w w') : w'.hub.now = w.hub.now := by have e := congrArg Hub.now h; exact e
theorem Reports.free {w w' : Work} (h : Reports w w') : w'.hub.free = w.hub.free := by have e := congrArg Hub.free h; exact e
theorem Reports.sites {w w' : Work} (h : Reports w w') : w'.hub.sites = w.hub.sites := by have e := congrArg Hub.sites h; exact e
theorem Reports.fabric {w w' : Work} (h : Reports w w') : w'.hub.fabric = w.hub.fabric := by have e := congrArg Hub.fabric h; exact e
theorem Reports.ledger {w w' : Work} (h : Reports w w') : w'.hub.ledger = w.hub.ledger := by have e := congrArg Hub.ledger h; exact e
theorem Reports.memory {w w' : Work} (h : Reports w w') : w'.hub.memory = w.hub.memory := by have e := congrArg Hub.memory h; exact e
theorem Reports.bwr {w w' : Work} (h : Reports w w') : w'.hub.bwr = w.hub.bwr := by have e := congrArg Hub.bwr h; exact e
theorem Reports.chart {w w' : Work} (h : Reports w w') : w'.hub.chart = w.hub.chart := by have e := congrArg Hub.chart h; exact e
theorem Reports.helm {w w' : Work} (h : Reports w w') : w'.hub.helm = w.hub.helm := by have e := congrArg Hub.helm h; exact e
theorem Reports.ten {w w' : Work} (h : Reports w w') : w'.hub.ten = w.hub.ten := by have e := congrArg Hub.ten h; exact e
theorem Reports.bearings {w w' : Work} (h : Reports w w') : w'.hub.bearings = w.hub.bearings := by have e := congrArg Hub.bearings h; exact e
theorem Reports.tables {w w' : Work} (h : Reports w w') : w'.hub.tables = w.hub.tables := by have e := congrArg Hub.tables h; exact e
theorem Reports.packs {w w' : Work} (h : Reports w w') : w'.hub.packs = w.hub.packs := by have e := congrArg Hub.packs h; exact e
theorem Reports.recipes {w w' : Work} (h : Reports w w') : w'.hub.recipes = w.hub.recipes := by have e := congrArg Hub.recipes h; exact e
theorem Reports.wrights {w w' : Work} (h : Reports w w') : w'.hub.wrights = w.hub.wrights := by have e := congrArg Hub.wrights h; exact e
theorem Reports.purser {w w' : Work} (h : Reports w w') : w'.hub.purser = w.hub.purser := by have e := congrArg Hub.purser h; exact e
theorem Reports.hawser {w w' : Work} (h : Reports w w') : w'.hub.hawser = w.hub.hawser := by have e := congrArg Hub.hawser h; exact e
theorem Reports.bin {w w' : Work} (h : Reports w w') : w'.hub.bin = w.hub.bin := by have e := congrArg Hub.bin h; exact e
theorem Reports.start {w w' : Work} (h : Reports w w') : w'.hub.start = w.hub.start := by have e := congrArg Hub.start h; exact e
theorem Reports.svc {w w' : Work} (h : Reports w w') : w'.hub.svc = w.hub.svc := by have e := congrArg Hub.svc h; exact e
theorem Reports.board {w w' : Work} (h : Reports w w') : w'.hub.board = w.hub.board := by have e := congrArg Hub.board h; exact e
theorem Reports.heldOrders {w w' : Work} (h : Reports w w') : w'.hub.heldOrders = w.hub.heldOrders := by have e := congrArg Hub.heldOrders h; exact e

variable (w : Work)

theorem tlp_reports (p c n : Nat) : Reports w (w.tlp p c n) := rfl
theorem emit_reports (o : Out) : Reports w (w.emit o) := rfl
theorem onPort_reports (p : Nat) (f : Port → Port) : Reports w (w.onPort p f) := rfl
theorem onFunc_reports (f : FuncRef) (g : Func → Func) : Reports w (w.onFunc f g) := rfl
theorem poke_reports (a : Nat) (d : List Byte) : Reports w (w.poke a d) := by unfold Work.poke; split <;> rfl

theorem hostWrite_reports (f : FuncRef) (a : Nat) (d : List Byte) : Reports w (w.hostWrite f a d) := by
  unfold Work.hostWrite
  split
  · rfl
  · split
    · exact (poke_reports w _ _).trans rfl
    · rfl

theorem sendVector_reports (f : FuncRef) (v owe : Nat) : Reports w (w.sendVector f v owe) := by
  unfold Work.sendVector
  dsimp only
  repeat (first | rfl | split)

theorem raise_reports (f : FuncRef) (v owe : Nat) : Reports w (w.raise f v owe) := by
  unfold Work.raise
  dsimp only
  split
  · exact Reports.trans (onPort_reports w _ _) (sendVector_reports _ _ _ _)
  · exact Reports.trans (onFunc_reports w _ _) (sendVector_reports _ _ _ _)

theorem irq_reports (p src : Nat) : Reports w (w.irq p src) := raise_reports w _ _ _
theorem irqs_reports (l : List Nat) (src : Nat) : Reports w (w.irqs l src) := Reports.each _ _ _ fun p w => irq_reports w p src

theorem count_reports (k i c n : Nat) : Reports w (w.count k i c n) := by
  unfold Work.count
  dsimp only
  split
  · rfl
  · split
    · exact irqs_reports (w.onHub _) _ _
    · rfl

theorem mlogPut_reports (e : LogEvent) : Reports w (w.mlogPut e) := by
  unfold Work.mlogPut
  dsimp only
  split
  · split <;> rfl
  · rfl

theorem setLog_reports (p : Nat) (r : LogRing) : Reports w (w.setLog p r) := rfl

theorem plogPri_reports (p : Nat) (r : LogRing) (x : Nat) (slot : Option Nat) : Reports w (w.plogPri p r x slot) := by
  cases slot with
  | none => exact .refl w
  | some i => exact hostWrite_reports w _ _ _

theorem plogStore_reports (p : Nat) (r : LogRing) (x cls sev : Nat) : Reports w (w.plogStore p r x cls sev) := by
  unfold Work.plogStore
  dsimp only
  split
  · split
    · exact (setLog_reports w _ _).trans (irq_reports _ _ _)
    · exact setLog_reports w _ _
  · split
    · exact ((setLog_reports w _ _).trans (hostWrite_reports _ _ _ _)).trans (irq_reports _ _ _)
    · exact (setLog_reports w _ _).trans (hostWrite_reports _ _ _ _)

theorem plogPut_reports (p : Nat) (e : LogEvent) : Reports w (w.plogPut p e) := by
  unfold Work.plogPut
  dsimp only
  split
  · exact setLog_reports w _ _
  · split
    · exact setLog_reports w _ _
    · exact (plogPri_reports w _ _ _ _).trans (plogStore_reports _ _ _ _ _ _)

theorem log_reports (e : LogEvent) : Reports w (w.log e) := by
  unfold Work.log
  exact (mlogPut_reports w e).trans (Reports.each _ _ _ fun p w => plogPut_reports w p e)

theorem logGap_reports (p : Option Nat) : Reports w (w.logGap p) := by
  unfold Work.logGap
  cases p with
  | some p =>
    dsimp only
    split
    · rfl
    · exact (onPort_reports w _ _).trans (plogPut_reports _ _ _)
  | none =>
    dsimp only
    split
    · rfl
    · exact mlogPut_reports (w.onHub _) _

/-! ## poke -/

@[simp] theorem poke_now (a : Nat) (d : List Byte) : (w.poke a d).hub.now = w.hub.now := (poke_reports w a d).now
@[simp] theorem poke_free (a : Nat) (d : List Byte) : (w.poke a d).hub.free = w.hub.free := (poke_reports w a d).free
@[simp] theorem poke_sites (a : Nat) (d : List Byte) : (w.poke a d).hub.sites = w.hub.sites := (poke_reports w a d).sites
@[simp] theorem poke_fabric (a : Nat) (d : List Byte) : (w.poke a d).hub.fabric = w.hub.fabric := (poke_reports w a d).fabric
@[simp] theorem poke_ledger (a : Nat) (d : List Byte) : (w.poke a d).hub.ledger = w.hub.ledger := (poke_reports w a d).ledger
@[simp] theorem poke_memory (a : Nat) (d : List Byte) : (w.poke a d).hub.memory = w.hub.memory := (poke_reports w a d).memory
@[simp] theorem poke_bwr (a : Nat) (d : List Byte) : (w.poke a d).hub.bwr = w.hub.bwr := (poke_reports w a d).bwr
@[simp] theorem poke_chart (a : Nat) (d : List Byte) : (w.poke a d).hub.chart = w.hub.chart := (poke_reports w a d).chart
@[simp] theorem poke_helm (a : Nat) (d : List Byte) : (w.poke a d).hub.helm = w.hub.helm := (poke_reports w a d).helm
@[simp] theorem poke_ten (a : Nat) (d : List Byte) : (w.poke a d).hub.ten = w.hub.ten := (poke_reports w a d).ten
@[simp] theorem poke_bearings (a : Nat) (d : List Byte) : (w.poke a d).hub.bearings = w.hub.bearings := (poke_reports w a d).bearings
@[simp] theorem poke_tables (a : Nat) (d : List Byte) : (w.poke a d).hub.tables = w.hub.tables := (poke_reports w a d).tables
@[simp] theorem poke_packs (a : Nat) (d : List Byte) : (w.poke a d).hub.packs = w.hub.packs := (poke_reports w a d).packs
@[simp] theorem poke_recipes (a : Nat) (d : List Byte) : (w.poke a d).hub.recipes = w.hub.recipes := (poke_reports w a d).recipes
@[simp] theorem poke_wrights (a : Nat) (d : List Byte) : (w.poke a d).hub.wrights = w.hub.wrights := (poke_reports w a d).wrights
@[simp] theorem poke_purser (a : Nat) (d : List Byte) : (w.poke a d).hub.purser = w.hub.purser := (poke_reports w a d).purser
@[simp] theorem poke_hawser (a : Nat) (d : List Byte) : (w.poke a d).hub.hawser = w.hub.hawser := (poke_reports w a d).hawser
@[simp] theorem poke_bin (a : Nat) (d : List Byte) : (w.poke a d).hub.bin = w.hub.bin := (poke_reports w a d).bin
@[simp] theorem poke_start (a : Nat) (d : List Byte) : (w.poke a d).hub.start = w.hub.start := (poke_reports w a d).start
@[simp] theorem poke_svc (a : Nat) (d : List Byte) : (w.poke a d).hub.svc = w.hub.svc := (poke_reports w a d).svc
@[simp] theorem poke_board (a : Nat) (d : List Byte) : (w.poke a d).hub.board = w.hub.board := (poke_reports w a d).board
@[simp] theorem poke_heldOrders (a : Nat) (d : List Byte) : (w.poke a d).hub.heldOrders = w.hub.heldOrders := (poke_reports w a d).heldOrders

/-! ## tlp -/

@[simp] theorem tlp_now (p c n : Nat) : (w.tlp p c n).hub.now = w.hub.now := (tlp_reports w p c n).now
@[simp] theorem tlp_free (p c n : Nat) : (w.tlp p c n).hub.free = w.hub.free := (tlp_reports w p c n).free
@[simp] theorem tlp_sites (p c n : Nat) : (w.tlp p c n).hub.sites = w.hub.sites := (tlp_reports w p c n).sites
@[simp] theorem tlp_fabric (p c n : Nat) : (w.tlp p c n).hub.fabric = w.hub.fabric := (tlp_reports w p c n).fabric
@[simp] theorem tlp_ledger (p c n : Nat) : (w.tlp p c n).hub.ledger = w.hub.ledger := (tlp_reports w p c n).ledger
@[simp] theorem tlp_memory (p c n : Nat) : (w.tlp p c n).hub.memory = w.hub.memory := (tlp_reports w p c n).memory
@[simp] theorem tlp_bwr (p c n : Nat) : (w.tlp p c n).hub.bwr = w.hub.bwr := (tlp_reports w p c n).bwr
@[simp] theorem tlp_chart (p c n : Nat) : (w.tlp p c n).hub.chart = w.hub.chart := (tlp_reports w p c n).chart
@[simp] theorem tlp_helm (p c n : Nat) : (w.tlp p c n).hub.helm = w.hub.helm := (tlp_reports w p c n).helm
@[simp] theorem tlp_ten (p c n : Nat) : (w.tlp p c n).hub.ten = w.hub.ten := (tlp_reports w p c n).ten
@[simp] theorem tlp_bearings (p c n : Nat) : (w.tlp p c n).hub.bearings = w.hub.bearings := (tlp_reports w p c n).bearings
@[simp] theorem tlp_tables (p c n : Nat) : (w.tlp p c n).hub.tables = w.hub.tables := (tlp_reports w p c n).tables
@[simp] theorem tlp_packs (p c n : Nat) : (w.tlp p c n).hub.packs = w.hub.packs := (tlp_reports w p c n).packs
@[simp] theorem tlp_recipes (p c n : Nat) : (w.tlp p c n).hub.recipes = w.hub.recipes := (tlp_reports w p c n).recipes
@[simp] theorem tlp_wrights (p c n : Nat) : (w.tlp p c n).hub.wrights = w.hub.wrights := (tlp_reports w p c n).wrights
@[simp] theorem tlp_purser (p c n : Nat) : (w.tlp p c n).hub.purser = w.hub.purser := (tlp_reports w p c n).purser
@[simp] theorem tlp_hawser (p c n : Nat) : (w.tlp p c n).hub.hawser = w.hub.hawser := (tlp_reports w p c n).hawser
@[simp] theorem tlp_bin (p c n : Nat) : (w.tlp p c n).hub.bin = w.hub.bin := (tlp_reports w p c n).bin
@[simp] theorem tlp_start (p c n : Nat) : (w.tlp p c n).hub.start = w.hub.start := (tlp_reports w p c n).start
@[simp] theorem tlp_svc (p c n : Nat) : (w.tlp p c n).hub.svc = w.hub.svc := (tlp_reports w p c n).svc
@[simp] theorem tlp_board (p c n : Nat) : (w.tlp p c n).hub.board = w.hub.board := (tlp_reports w p c n).board
@[simp] theorem tlp_heldOrders (p c n : Nat) : (w.tlp p c n).hub.heldOrders = w.hub.heldOrders := (tlp_reports w p c n).heldOrders

/-! ## onFunc -/

@[simp] theorem onFunc_now (f : FuncRef) (g : Func → Func) : (w.onFunc f g).hub.now = w.hub.now := (onFunc_reports w f g).now
@[simp] theorem onFunc_free (f : FuncRef) (g : Func → Func) : (w.onFunc f g).hub.free = w.hub.free := (onFunc_reports w f g).free
@[simp] theorem onFunc_sites (f : FuncRef) (g : Func → Func) : (w.onFunc f g).hub.sites = w.hub.sites := (onFunc_reports w f g).sites
@[simp] theorem onFunc_fabric (f : FuncRef) (g : Func → Func) : (w.onFunc f g).hub.fabric = w.hub.fabric := (onFunc_reports w f g).fabric
@[simp] theorem onFunc_ledger (f : FuncRef) (g : Func → Func) : (w.onFunc f g).hub.ledger = w.hub.ledger := (onFunc_reports w f g).ledger
@[simp] theorem onFunc_memory (f : FuncRef) (g : Func → Func) : (w.onFunc f g).hub.memory = w.hub.memory := (onFunc_reports w f g).memory
@[simp] theorem onFunc_bwr (f : FuncRef) (g : Func → Func) : (w.onFunc f g).hub.bwr = w.hub.bwr := (onFunc_reports w f g).bwr
@[simp] theorem onFunc_chart (f : FuncRef) (g : Func → Func) : (w.onFunc f g).hub.chart = w.hub.chart := (onFunc_reports w f g).chart
@[simp] theorem onFunc_helm (f : FuncRef) (g : Func → Func) : (w.onFunc f g).hub.helm = w.hub.helm := (onFunc_reports w f g).helm
@[simp] theorem onFunc_ten (f : FuncRef) (g : Func → Func) : (w.onFunc f g).hub.ten = w.hub.ten := (onFunc_reports w f g).ten
@[simp] theorem onFunc_bearings (f : FuncRef) (g : Func → Func) : (w.onFunc f g).hub.bearings = w.hub.bearings := (onFunc_reports w f g).bearings
@[simp] theorem onFunc_tables (f : FuncRef) (g : Func → Func) : (w.onFunc f g).hub.tables = w.hub.tables := (onFunc_reports w f g).tables
@[simp] theorem onFunc_packs (f : FuncRef) (g : Func → Func) : (w.onFunc f g).hub.packs = w.hub.packs := (onFunc_reports w f g).packs
@[simp] theorem onFunc_recipes (f : FuncRef) (g : Func → Func) : (w.onFunc f g).hub.recipes = w.hub.recipes := (onFunc_reports w f g).recipes
@[simp] theorem onFunc_wrights (f : FuncRef) (g : Func → Func) : (w.onFunc f g).hub.wrights = w.hub.wrights := (onFunc_reports w f g).wrights
@[simp] theorem onFunc_purser (f : FuncRef) (g : Func → Func) : (w.onFunc f g).hub.purser = w.hub.purser := (onFunc_reports w f g).purser
@[simp] theorem onFunc_hawser (f : FuncRef) (g : Func → Func) : (w.onFunc f g).hub.hawser = w.hub.hawser := (onFunc_reports w f g).hawser
@[simp] theorem onFunc_bin (f : FuncRef) (g : Func → Func) : (w.onFunc f g).hub.bin = w.hub.bin := (onFunc_reports w f g).bin
@[simp] theorem onFunc_start (f : FuncRef) (g : Func → Func) : (w.onFunc f g).hub.start = w.hub.start := (onFunc_reports w f g).start
@[simp] theorem onFunc_svc (f : FuncRef) (g : Func → Func) : (w.onFunc f g).hub.svc = w.hub.svc := (onFunc_reports w f g).svc
@[simp] theorem onFunc_board (f : FuncRef) (g : Func → Func) : (w.onFunc f g).hub.board = w.hub.board := (onFunc_reports w f g).board
@[simp] theorem onFunc_heldOrders (f : FuncRef) (g : Func → Func) : (w.onFunc f g).hub.heldOrders = w.hub.heldOrders := (onFunc_reports w f g).heldOrders

/-! ## hostWrite -/

@[simp] theorem hostWrite_now (f : FuncRef) (a : Nat) (d : List Byte) : (w.hostWrite f a d).hub.now = w.hub.now := (hostWrite_reports w f a d).now
@[simp] theorem hostWrite_free (f : FuncRef) (a : Nat) (d : List Byte) : (w.hostWrite f a d).hub.free = w.hub.free := (hostWrite_reports w f a d).free
@[simp] theorem hostWrite_sites (f : FuncRef) (a : Nat) (d : List Byte) : (w.hostWrite f a d).hub.sites = w.hub.sites := (hostWrite_reports w f a d).sites
@[simp] theorem hostWrite_fabric (f : FuncRef) (a : Nat) (d : List Byte) : (w.hostWrite f a d).hub.fabric = w.hub.fabric := (hostWrite_reports w f a d).fabric
@[simp] theorem hostWrite_ledger (f : FuncRef) (a : Nat) (d : List Byte) : (w.hostWrite f a d).hub.ledger = w.hub.ledger := (hostWrite_reports w f a d).ledger
@[simp] theorem hostWrite_memory (f : FuncRef) (a : Nat) (d : List Byte) : (w.hostWrite f a d).hub.memory = w.hub.memory := (hostWrite_reports w f a d).memory
@[simp] theorem hostWrite_bwr (f : FuncRef) (a : Nat) (d : List Byte) : (w.hostWrite f a d).hub.bwr = w.hub.bwr := (hostWrite_reports w f a d).bwr
@[simp] theorem hostWrite_chart (f : FuncRef) (a : Nat) (d : List Byte) : (w.hostWrite f a d).hub.chart = w.hub.chart := (hostWrite_reports w f a d).chart
@[simp] theorem hostWrite_helm (f : FuncRef) (a : Nat) (d : List Byte) : (w.hostWrite f a d).hub.helm = w.hub.helm := (hostWrite_reports w f a d).helm
@[simp] theorem hostWrite_ten (f : FuncRef) (a : Nat) (d : List Byte) : (w.hostWrite f a d).hub.ten = w.hub.ten := (hostWrite_reports w f a d).ten
@[simp] theorem hostWrite_bearings (f : FuncRef) (a : Nat) (d : List Byte) : (w.hostWrite f a d).hub.bearings = w.hub.bearings := (hostWrite_reports w f a d).bearings
@[simp] theorem hostWrite_tables (f : FuncRef) (a : Nat) (d : List Byte) : (w.hostWrite f a d).hub.tables = w.hub.tables := (hostWrite_reports w f a d).tables
@[simp] theorem hostWrite_packs (f : FuncRef) (a : Nat) (d : List Byte) : (w.hostWrite f a d).hub.packs = w.hub.packs := (hostWrite_reports w f a d).packs
@[simp] theorem hostWrite_recipes (f : FuncRef) (a : Nat) (d : List Byte) : (w.hostWrite f a d).hub.recipes = w.hub.recipes := (hostWrite_reports w f a d).recipes
@[simp] theorem hostWrite_wrights (f : FuncRef) (a : Nat) (d : List Byte) : (w.hostWrite f a d).hub.wrights = w.hub.wrights := (hostWrite_reports w f a d).wrights
@[simp] theorem hostWrite_purser (f : FuncRef) (a : Nat) (d : List Byte) : (w.hostWrite f a d).hub.purser = w.hub.purser := (hostWrite_reports w f a d).purser
@[simp] theorem hostWrite_hawser (f : FuncRef) (a : Nat) (d : List Byte) : (w.hostWrite f a d).hub.hawser = w.hub.hawser := (hostWrite_reports w f a d).hawser
@[simp] theorem hostWrite_bin (f : FuncRef) (a : Nat) (d : List Byte) : (w.hostWrite f a d).hub.bin = w.hub.bin := (hostWrite_reports w f a d).bin
@[simp] theorem hostWrite_start (f : FuncRef) (a : Nat) (d : List Byte) : (w.hostWrite f a d).hub.start = w.hub.start := (hostWrite_reports w f a d).start
@[simp] theorem hostWrite_svc (f : FuncRef) (a : Nat) (d : List Byte) : (w.hostWrite f a d).hub.svc = w.hub.svc := (hostWrite_reports w f a d).svc
@[simp] theorem hostWrite_board (f : FuncRef) (a : Nat) (d : List Byte) : (w.hostWrite f a d).hub.board = w.hub.board := (hostWrite_reports w f a d).board
@[simp] theorem hostWrite_heldOrders (f : FuncRef) (a : Nat) (d : List Byte) : (w.hostWrite f a d).hub.heldOrders = w.hub.heldOrders := (hostWrite_reports w f a d).heldOrders

/-! ## raise -/

@[simp] theorem raise_now (f : FuncRef) (v owe : Nat) : (w.raise f v owe).hub.now = w.hub.now := (raise_reports w f v owe).now
@[simp] theorem raise_free (f : FuncRef) (v owe : Nat) : (w.raise f v owe).hub.free = w.hub.free := (raise_reports w f v owe).free
@[simp] theorem raise_sites (f : FuncRef) (v owe : Nat) : (w.raise f v owe).hub.sites = w.hub.sites := (raise_reports w f v owe).sites
@[simp] theorem raise_fabric (f : FuncRef) (v owe : Nat) : (w.raise f v owe).hub.fabric = w.hub.fabric := (raise_reports w f v owe).fabric
@[simp] theorem raise_ledger (f : FuncRef) (v owe : Nat) : (w.raise f v owe).hub.ledger = w.hub.ledger := (raise_reports w f v owe).ledger
@[simp] theorem raise_memory (f : FuncRef) (v owe : Nat) : (w.raise f v owe).hub.memory = w.hub.memory := (raise_reports w f v owe).memory
@[simp] theorem raise_bwr (f : FuncRef) (v owe : Nat) : (w.raise f v owe).hub.bwr = w.hub.bwr := (raise_reports w f v owe).bwr
@[simp] theorem raise_chart (f : FuncRef) (v owe : Nat) : (w.raise f v owe).hub.chart = w.hub.chart := (raise_reports w f v owe).chart
@[simp] theorem raise_helm (f : FuncRef) (v owe : Nat) : (w.raise f v owe).hub.helm = w.hub.helm := (raise_reports w f v owe).helm
@[simp] theorem raise_ten (f : FuncRef) (v owe : Nat) : (w.raise f v owe).hub.ten = w.hub.ten := (raise_reports w f v owe).ten
@[simp] theorem raise_bearings (f : FuncRef) (v owe : Nat) : (w.raise f v owe).hub.bearings = w.hub.bearings := (raise_reports w f v owe).bearings
@[simp] theorem raise_tables (f : FuncRef) (v owe : Nat) : (w.raise f v owe).hub.tables = w.hub.tables := (raise_reports w f v owe).tables
@[simp] theorem raise_packs (f : FuncRef) (v owe : Nat) : (w.raise f v owe).hub.packs = w.hub.packs := (raise_reports w f v owe).packs
@[simp] theorem raise_recipes (f : FuncRef) (v owe : Nat) : (w.raise f v owe).hub.recipes = w.hub.recipes := (raise_reports w f v owe).recipes
@[simp] theorem raise_wrights (f : FuncRef) (v owe : Nat) : (w.raise f v owe).hub.wrights = w.hub.wrights := (raise_reports w f v owe).wrights
@[simp] theorem raise_purser (f : FuncRef) (v owe : Nat) : (w.raise f v owe).hub.purser = w.hub.purser := (raise_reports w f v owe).purser
@[simp] theorem raise_hawser (f : FuncRef) (v owe : Nat) : (w.raise f v owe).hub.hawser = w.hub.hawser := (raise_reports w f v owe).hawser
@[simp] theorem raise_bin (f : FuncRef) (v owe : Nat) : (w.raise f v owe).hub.bin = w.hub.bin := (raise_reports w f v owe).bin
@[simp] theorem raise_start (f : FuncRef) (v owe : Nat) : (w.raise f v owe).hub.start = w.hub.start := (raise_reports w f v owe).start
@[simp] theorem raise_svc (f : FuncRef) (v owe : Nat) : (w.raise f v owe).hub.svc = w.hub.svc := (raise_reports w f v owe).svc
@[simp] theorem raise_board (f : FuncRef) (v owe : Nat) : (w.raise f v owe).hub.board = w.hub.board := (raise_reports w f v owe).board
@[simp] theorem raise_heldOrders (f : FuncRef) (v owe : Nat) : (w.raise f v owe).hub.heldOrders = w.hub.heldOrders := (raise_reports w f v owe).heldOrders

/-! ## irq -/

@[simp] theorem irq_now (p src : Nat) : (w.irq p src).hub.now = w.hub.now := (irq_reports w p src).now
@[simp] theorem irq_free (p src : Nat) : (w.irq p src).hub.free = w.hub.free := (irq_reports w p src).free
@[simp] theorem irq_sites (p src : Nat) : (w.irq p src).hub.sites = w.hub.sites := (irq_reports w p src).sites
@[simp] theorem irq_fabric (p src : Nat) : (w.irq p src).hub.fabric = w.hub.fabric := (irq_reports w p src).fabric
@[simp] theorem irq_ledger (p src : Nat) : (w.irq p src).hub.ledger = w.hub.ledger := (irq_reports w p src).ledger
@[simp] theorem irq_memory (p src : Nat) : (w.irq p src).hub.memory = w.hub.memory := (irq_reports w p src).memory
@[simp] theorem irq_bwr (p src : Nat) : (w.irq p src).hub.bwr = w.hub.bwr := (irq_reports w p src).bwr
@[simp] theorem irq_chart (p src : Nat) : (w.irq p src).hub.chart = w.hub.chart := (irq_reports w p src).chart
@[simp] theorem irq_helm (p src : Nat) : (w.irq p src).hub.helm = w.hub.helm := (irq_reports w p src).helm
@[simp] theorem irq_ten (p src : Nat) : (w.irq p src).hub.ten = w.hub.ten := (irq_reports w p src).ten
@[simp] theorem irq_bearings (p src : Nat) : (w.irq p src).hub.bearings = w.hub.bearings := (irq_reports w p src).bearings
@[simp] theorem irq_tables (p src : Nat) : (w.irq p src).hub.tables = w.hub.tables := (irq_reports w p src).tables
@[simp] theorem irq_packs (p src : Nat) : (w.irq p src).hub.packs = w.hub.packs := (irq_reports w p src).packs
@[simp] theorem irq_recipes (p src : Nat) : (w.irq p src).hub.recipes = w.hub.recipes := (irq_reports w p src).recipes
@[simp] theorem irq_wrights (p src : Nat) : (w.irq p src).hub.wrights = w.hub.wrights := (irq_reports w p src).wrights
@[simp] theorem irq_purser (p src : Nat) : (w.irq p src).hub.purser = w.hub.purser := (irq_reports w p src).purser
@[simp] theorem irq_hawser (p src : Nat) : (w.irq p src).hub.hawser = w.hub.hawser := (irq_reports w p src).hawser
@[simp] theorem irq_bin (p src : Nat) : (w.irq p src).hub.bin = w.hub.bin := (irq_reports w p src).bin
@[simp] theorem irq_start (p src : Nat) : (w.irq p src).hub.start = w.hub.start := (irq_reports w p src).start
@[simp] theorem irq_svc (p src : Nat) : (w.irq p src).hub.svc = w.hub.svc := (irq_reports w p src).svc
@[simp] theorem irq_board (p src : Nat) : (w.irq p src).hub.board = w.hub.board := (irq_reports w p src).board
@[simp] theorem irq_heldOrders (p src : Nat) : (w.irq p src).hub.heldOrders = w.hub.heldOrders := (irq_reports w p src).heldOrders

/-! ## irqs -/

@[simp] theorem irqs_now (l : List Nat) (src : Nat) : (w.irqs l src).hub.now = w.hub.now := (irqs_reports w l src).now
@[simp] theorem irqs_free (l : List Nat) (src : Nat) : (w.irqs l src).hub.free = w.hub.free := (irqs_reports w l src).free
@[simp] theorem irqs_sites (l : List Nat) (src : Nat) : (w.irqs l src).hub.sites = w.hub.sites := (irqs_reports w l src).sites
@[simp] theorem irqs_fabric (l : List Nat) (src : Nat) : (w.irqs l src).hub.fabric = w.hub.fabric := (irqs_reports w l src).fabric
@[simp] theorem irqs_ledger (l : List Nat) (src : Nat) : (w.irqs l src).hub.ledger = w.hub.ledger := (irqs_reports w l src).ledger
@[simp] theorem irqs_memory (l : List Nat) (src : Nat) : (w.irqs l src).hub.memory = w.hub.memory := (irqs_reports w l src).memory
@[simp] theorem irqs_bwr (l : List Nat) (src : Nat) : (w.irqs l src).hub.bwr = w.hub.bwr := (irqs_reports w l src).bwr
@[simp] theorem irqs_chart (l : List Nat) (src : Nat) : (w.irqs l src).hub.chart = w.hub.chart := (irqs_reports w l src).chart
@[simp] theorem irqs_helm (l : List Nat) (src : Nat) : (w.irqs l src).hub.helm = w.hub.helm := (irqs_reports w l src).helm
@[simp] theorem irqs_ten (l : List Nat) (src : Nat) : (w.irqs l src).hub.ten = w.hub.ten := (irqs_reports w l src).ten
@[simp] theorem irqs_bearings (l : List Nat) (src : Nat) : (w.irqs l src).hub.bearings = w.hub.bearings := (irqs_reports w l src).bearings
@[simp] theorem irqs_tables (l : List Nat) (src : Nat) : (w.irqs l src).hub.tables = w.hub.tables := (irqs_reports w l src).tables
@[simp] theorem irqs_packs (l : List Nat) (src : Nat) : (w.irqs l src).hub.packs = w.hub.packs := (irqs_reports w l src).packs
@[simp] theorem irqs_recipes (l : List Nat) (src : Nat) : (w.irqs l src).hub.recipes = w.hub.recipes := (irqs_reports w l src).recipes
@[simp] theorem irqs_wrights (l : List Nat) (src : Nat) : (w.irqs l src).hub.wrights = w.hub.wrights := (irqs_reports w l src).wrights
@[simp] theorem irqs_purser (l : List Nat) (src : Nat) : (w.irqs l src).hub.purser = w.hub.purser := (irqs_reports w l src).purser
@[simp] theorem irqs_hawser (l : List Nat) (src : Nat) : (w.irqs l src).hub.hawser = w.hub.hawser := (irqs_reports w l src).hawser
@[simp] theorem irqs_bin (l : List Nat) (src : Nat) : (w.irqs l src).hub.bin = w.hub.bin := (irqs_reports w l src).bin
@[simp] theorem irqs_start (l : List Nat) (src : Nat) : (w.irqs l src).hub.start = w.hub.start := (irqs_reports w l src).start
@[simp] theorem irqs_svc (l : List Nat) (src : Nat) : (w.irqs l src).hub.svc = w.hub.svc := (irqs_reports w l src).svc
@[simp] theorem irqs_board (l : List Nat) (src : Nat) : (w.irqs l src).hub.board = w.hub.board := (irqs_reports w l src).board
@[simp] theorem irqs_heldOrders (l : List Nat) (src : Nat) : (w.irqs l src).hub.heldOrders = w.hub.heldOrders := (irqs_reports w l src).heldOrders

/-! ## count -/

@[simp] theorem count_now (k i c n : Nat) : (w.count k i c n).hub.now = w.hub.now := (count_reports w k i c n).now
@[simp] theorem count_free (k i c n : Nat) : (w.count k i c n).hub.free = w.hub.free := (count_reports w k i c n).free
@[simp] theorem count_sites (k i c n : Nat) : (w.count k i c n).hub.sites = w.hub.sites := (count_reports w k i c n).sites
@[simp] theorem count_fabric (k i c n : Nat) : (w.count k i c n).hub.fabric = w.hub.fabric := (count_reports w k i c n).fabric
@[simp] theorem count_ledger (k i c n : Nat) : (w.count k i c n).hub.ledger = w.hub.ledger := (count_reports w k i c n).ledger
@[simp] theorem count_memory (k i c n : Nat) : (w.count k i c n).hub.memory = w.hub.memory := (count_reports w k i c n).memory
@[simp] theorem count_bwr (k i c n : Nat) : (w.count k i c n).hub.bwr = w.hub.bwr := (count_reports w k i c n).bwr
@[simp] theorem count_chart (k i c n : Nat) : (w.count k i c n).hub.chart = w.hub.chart := (count_reports w k i c n).chart
@[simp] theorem count_helm (k i c n : Nat) : (w.count k i c n).hub.helm = w.hub.helm := (count_reports w k i c n).helm
@[simp] theorem count_ten (k i c n : Nat) : (w.count k i c n).hub.ten = w.hub.ten := (count_reports w k i c n).ten
@[simp] theorem count_bearings (k i c n : Nat) : (w.count k i c n).hub.bearings = w.hub.bearings := (count_reports w k i c n).bearings
@[simp] theorem count_tables (k i c n : Nat) : (w.count k i c n).hub.tables = w.hub.tables := (count_reports w k i c n).tables
@[simp] theorem count_packs (k i c n : Nat) : (w.count k i c n).hub.packs = w.hub.packs := (count_reports w k i c n).packs
@[simp] theorem count_recipes (k i c n : Nat) : (w.count k i c n).hub.recipes = w.hub.recipes := (count_reports w k i c n).recipes
@[simp] theorem count_wrights (k i c n : Nat) : (w.count k i c n).hub.wrights = w.hub.wrights := (count_reports w k i c n).wrights
@[simp] theorem count_purser (k i c n : Nat) : (w.count k i c n).hub.purser = w.hub.purser := (count_reports w k i c n).purser
@[simp] theorem count_hawser (k i c n : Nat) : (w.count k i c n).hub.hawser = w.hub.hawser := (count_reports w k i c n).hawser
@[simp] theorem count_bin (k i c n : Nat) : (w.count k i c n).hub.bin = w.hub.bin := (count_reports w k i c n).bin
@[simp] theorem count_start (k i c n : Nat) : (w.count k i c n).hub.start = w.hub.start := (count_reports w k i c n).start
@[simp] theorem count_svc (k i c n : Nat) : (w.count k i c n).hub.svc = w.hub.svc := (count_reports w k i c n).svc
@[simp] theorem count_board (k i c n : Nat) : (w.count k i c n).hub.board = w.hub.board := (count_reports w k i c n).board
@[simp] theorem count_heldOrders (k i c n : Nat) : (w.count k i c n).hub.heldOrders = w.hub.heldOrders := (count_reports w k i c n).heldOrders

/-! ## log -/

@[simp] theorem log_now (e : LogEvent) : (w.log e).hub.now = w.hub.now := (log_reports w e).now
@[simp] theorem log_free (e : LogEvent) : (w.log e).hub.free = w.hub.free := (log_reports w e).free
@[simp] theorem log_sites (e : LogEvent) : (w.log e).hub.sites = w.hub.sites := (log_reports w e).sites
@[simp] theorem log_fabric (e : LogEvent) : (w.log e).hub.fabric = w.hub.fabric := (log_reports w e).fabric
@[simp] theorem log_ledger (e : LogEvent) : (w.log e).hub.ledger = w.hub.ledger := (log_reports w e).ledger
@[simp] theorem log_memory (e : LogEvent) : (w.log e).hub.memory = w.hub.memory := (log_reports w e).memory
@[simp] theorem log_bwr (e : LogEvent) : (w.log e).hub.bwr = w.hub.bwr := (log_reports w e).bwr
@[simp] theorem log_chart (e : LogEvent) : (w.log e).hub.chart = w.hub.chart := (log_reports w e).chart
@[simp] theorem log_helm (e : LogEvent) : (w.log e).hub.helm = w.hub.helm := (log_reports w e).helm
@[simp] theorem log_ten (e : LogEvent) : (w.log e).hub.ten = w.hub.ten := (log_reports w e).ten
@[simp] theorem log_bearings (e : LogEvent) : (w.log e).hub.bearings = w.hub.bearings := (log_reports w e).bearings
@[simp] theorem log_tables (e : LogEvent) : (w.log e).hub.tables = w.hub.tables := (log_reports w e).tables
@[simp] theorem log_packs (e : LogEvent) : (w.log e).hub.packs = w.hub.packs := (log_reports w e).packs
@[simp] theorem log_recipes (e : LogEvent) : (w.log e).hub.recipes = w.hub.recipes := (log_reports w e).recipes
@[simp] theorem log_wrights (e : LogEvent) : (w.log e).hub.wrights = w.hub.wrights := (log_reports w e).wrights
@[simp] theorem log_purser (e : LogEvent) : (w.log e).hub.purser = w.hub.purser := (log_reports w e).purser
@[simp] theorem log_hawser (e : LogEvent) : (w.log e).hub.hawser = w.hub.hawser := (log_reports w e).hawser
@[simp] theorem log_bin (e : LogEvent) : (w.log e).hub.bin = w.hub.bin := (log_reports w e).bin
@[simp] theorem log_start (e : LogEvent) : (w.log e).hub.start = w.hub.start := (log_reports w e).start
@[simp] theorem log_svc (e : LogEvent) : (w.log e).hub.svc = w.hub.svc := (log_reports w e).svc
@[simp] theorem log_board (e : LogEvent) : (w.log e).hub.board = w.hub.board := (log_reports w e).board
@[simp] theorem log_heldOrders (e : LogEvent) : (w.log e).hub.heldOrders = w.hub.heldOrders := (log_reports w e).heldOrders

/-! ## logGap -/

@[simp] theorem logGap_now (p : Option Nat) : (w.logGap p).hub.now = w.hub.now := (logGap_reports w p).now
@[simp] theorem logGap_free (p : Option Nat) : (w.logGap p).hub.free = w.hub.free := (logGap_reports w p).free
@[simp] theorem logGap_sites (p : Option Nat) : (w.logGap p).hub.sites = w.hub.sites := (logGap_reports w p).sites
@[simp] theorem logGap_fabric (p : Option Nat) : (w.logGap p).hub.fabric = w.hub.fabric := (logGap_reports w p).fabric
@[simp] theorem logGap_ledger (p : Option Nat) : (w.logGap p).hub.ledger = w.hub.ledger := (logGap_reports w p).ledger
@[simp] theorem logGap_memory (p : Option Nat) : (w.logGap p).hub.memory = w.hub.memory := (logGap_reports w p).memory
@[simp] theorem logGap_bwr (p : Option Nat) : (w.logGap p).hub.bwr = w.hub.bwr := (logGap_reports w p).bwr
@[simp] theorem logGap_chart (p : Option Nat) : (w.logGap p).hub.chart = w.hub.chart := (logGap_reports w p).chart
@[simp] theorem logGap_helm (p : Option Nat) : (w.logGap p).hub.helm = w.hub.helm := (logGap_reports w p).helm
@[simp] theorem logGap_ten (p : Option Nat) : (w.logGap p).hub.ten = w.hub.ten := (logGap_reports w p).ten
@[simp] theorem logGap_bearings (p : Option Nat) : (w.logGap p).hub.bearings = w.hub.bearings := (logGap_reports w p).bearings
@[simp] theorem logGap_tables (p : Option Nat) : (w.logGap p).hub.tables = w.hub.tables := (logGap_reports w p).tables
@[simp] theorem logGap_packs (p : Option Nat) : (w.logGap p).hub.packs = w.hub.packs := (logGap_reports w p).packs
@[simp] theorem logGap_recipes (p : Option Nat) : (w.logGap p).hub.recipes = w.hub.recipes := (logGap_reports w p).recipes
@[simp] theorem logGap_wrights (p : Option Nat) : (w.logGap p).hub.wrights = w.hub.wrights := (logGap_reports w p).wrights
@[simp] theorem logGap_purser (p : Option Nat) : (w.logGap p).hub.purser = w.hub.purser := (logGap_reports w p).purser
@[simp] theorem logGap_hawser (p : Option Nat) : (w.logGap p).hub.hawser = w.hub.hawser := (logGap_reports w p).hawser
@[simp] theorem logGap_bin (p : Option Nat) : (w.logGap p).hub.bin = w.hub.bin := (logGap_reports w p).bin
@[simp] theorem logGap_start (p : Option Nat) : (w.logGap p).hub.start = w.hub.start := (logGap_reports w p).start
@[simp] theorem logGap_svc (p : Option Nat) : (w.logGap p).hub.svc = w.hub.svc := (logGap_reports w p).svc
@[simp] theorem logGap_board (p : Option Nat) : (w.logGap p).hub.board = w.hub.board := (logGap_reports w p).board
@[simp] theorem logGap_heldOrders (p : Option Nat) : (w.logGap p).hub.heldOrders = w.hub.heldOrders := (logGap_reports w p).heldOrders

end Sys2Proof.Machine
end

