-- ==== Sys2Proof/Laws/Memory.lean ====
section
/-! SUPPORT. Laws of memory: every change keeps the canonical form; what a change leaves alone. -/

namespace Sys2Proof.Machine

theorem cellsWf_weaken {lo lo' : Nat} {m : List Host.Cell} (h : cellsWf lo m = true) (hl : lo' ≤ lo) : cellsWf lo' m = true := by
  cases m with
  | nil => rfl
  | cons x r =>
    obtain ⟨k, v⟩ := x
    simp only [cellsWf, Bool.and_eq_true, decide_eq_true_eq] at *
    exact ⟨⟨by omega, h.1.2⟩, h.2⟩

theorem linesWf_weaken {lo lo' : Nat} {m : List Nat} (h : linesWf lo m = true) (hl : lo' ≤ lo) : linesWf lo' m = true := by
  cases m with
  | nil => rfl
  | cons x r => simp only [linesWf, Bool.and_eq_true, decide_eq_true_eq] at *; exact ⟨by omega, h.2⟩

theorem storeCell_wf {lo a : Nat} {m : List Host.Cell} {b : Byte} (h : cellsWf lo m = true) (ha : lo ≤ a) : cellsWf lo (storeCell m a b) = true := by
  induction m generalizing lo with
  | nil =>
    simp only [storeCell]; split
    · rfl
    · rename_i hb; simpa [cellsWf, ha] using hb
  | cons x r ih =>
    obtain ⟨k, v⟩ := x
    simp only [cellsWf, Bool.and_eq_true, decide_eq_true_eq] at h
    simp only [storeCell]
    split
    · subst k
      split
      · exact cellsWf_weaken h.2 (by omega)
      · rename_i hb
        simp only [cellsWf, Bool.and_eq_true, decide_eq_true_eq]
        exact ⟨⟨ha, by simpa using hb⟩, h.2⟩
    · split
      · rename_i h2
        simp only [cellsWf, Bool.and_eq_true, decide_eq_true_eq]
        exact ⟨h.1, ih h.2 (by omega)⟩
      · split
        · simp only [cellsWf, Bool.and_eq_true, decide_eq_true_eq]; exact h
        · rename_i h1 h2 hb
          simp only [cellsWf, Bool.and_eq_true, decide_eq_true_eq]
          exact ⟨⟨ha, by simpa using hb⟩, ⟨by omega, h.1.2⟩, h.2⟩

theorem storeBytes_wf {lo a : Nat} {m : List Host.Cell} {d : List Byte} (h : cellsWf lo m = true) (ha : lo ≤ a) : cellsWf lo (storeBytes m a d) = true := by
  induction d generalizing m a with
  | nil => exact h
  | cons b r ih => exact ih (storeCell_wf h ha) (by omega)

theorem insertLine_wf {lo l : Nat} {m : List Nat} (h : linesWf lo m = true) (hl : lo ≤ l) : linesWf lo (insertLine m l) = true := by
  induction m generalizing lo with
  | nil => simp [insertLine, linesWf, hl]
  | cons k r ih =>
    simp only [linesWf, Bool.and_eq_true, decide_eq_true_eq] at h
    simp only [insertLine]
    split
    · simp [linesWf, h]
    · split
      · simp only [linesWf, Bool.and_eq_true, decide_eq_true_eq]; exact ⟨h.1, ih h.2 (by omega)⟩
      · simp only [linesWf, Bool.and_eq_true, decide_eq_true_eq]; exact ⟨hl, by omega, h.2⟩

theorem removeLine_wf {lo l : Nat} {m : List Nat} (h : linesWf lo m = true) : linesWf lo (removeLine m l) = true := by
  induction m generalizing lo with
  | nil => rfl
  | cons k r ih =>
    simp only [linesWf, Bool.and_eq_true, decide_eq_true_eq] at h
    simp only [removeLine]
    split
    · exact linesWf_weaken h.2 (by omega)
    · simp only [linesWf, Bool.and_eq_true, decide_eq_true_eq]; exact ⟨h.1, ih h.2⟩

theorem filter_cellsWf {lo : Nat} {m : List Host.Cell} (p : Host.Cell → Bool) (h : cellsWf lo m = true) : cellsWf lo (m.filter p) = true := by
  induction m generalizing lo with
  | nil => rfl
  | cons x r ih =>
    obtain ⟨k, v⟩ := x
    simp only [cellsWf, Bool.and_eq_true, decide_eq_true_eq] at h
    rw [List.filter_cons]
    split
    · simp only [cellsWf, Bool.and_eq_true, decide_eq_true_eq]; exact ⟨h.1, ih h.2⟩
    · exact cellsWf_weaken (ih h.2) (by omega)

theorem filter_linesWf {lo : Nat} {m : List Nat} (p : Nat → Bool) (h : linesWf lo m = true) : linesWf lo (m.filter p) = true := by
  induction m generalizing lo with
  | nil => rfl
  | cons k r ih =>
    simp only [linesWf, Bool.and_eq_true, decide_eq_true_eq] at h
    rw [List.filter_cons]
    split
    · simp only [linesWf, Bool.and_eq_true, decide_eq_true_eq]; exact ⟨h.1, ih h.2⟩
    · exact linesWf_weaken (ih h.2) (by omega)

/-- Every change of memory keeps the canonical form. -/
theorem Mem.apply_wf (m : Mem) (o : MemOp) (h : m.wf = true) : (m.apply o).wf = true := by
  simp only [Mem.wf, Bool.and_eq_true] at *
  cases o with
  | write a d => exact ⟨storeBytes_wf h.1 (Nat.zero_le _), h.2⟩
  | poison l => exact ⟨h.1, insertLine_wf h.2 (Nat.zero_le _)⟩
  | clear l => exact ⟨h.1, removeLine_wf h.2⟩
  | wipe a n => exact ⟨filter_cellsWf _ h.1, filter_linesWf _ h.2⟩

/-- A list of changes keeps the canonical form. -/
theorem Mem.applyAll_wf (m : Mem) (l : List MemOp) (h : m.wf = true) : (m.applyAll l).wf = true := by
  induction l generalizing m with
  | nil => exact h
  | cons o l ih => exact ih _ (Mem.apply_wf m o h)

/-- A command's end keeps the canonical form, whatever the command did. -/
theorem State.commit_wf (s : State) (w : Work) (h : s.mem.wf = true) : (s.commit w).mem.wf = true := Mem.applyAll_wf _ _ h

@[simp] theorem lookup_storeCell_self (m : List Host.Cell) (lo a : Nat) (b : Byte) (h : cellsWf lo m = true) : lookupCell (storeCell m a b) a = b := by
  induction m generalizing lo with
  | nil =>
    simp only [storeCell]; split
    · simp [lookupCell, *]
    · simp [lookupCell]
  | cons x r ih =>
    obtain ⟨k, v⟩ := x
    simp only [cellsWf, Bool.and_eq_true, decide_eq_true_eq] at h
    have gone (m : List Host.Cell) (h : cellsWf (a + 1) m = true) : lookupCell m a = 0 := by
      cases m with
      | nil => rfl
      | cons y r =>
        simp only [cellsWf, Bool.and_eq_true, decide_eq_true_eq] at h
        have h1 : ¬ y.1 = a := by omega
        have h2 : ¬ y.1 < a := by omega
        simp [lookupCell, h1, h2]
    simp only [storeCell]
    split
    · subst k
      split
      · subst b; exact gone r h.2
      · simp [lookupCell]
    · split
      · rename_i h1 h2; simp [lookupCell, h1, h2, ih _ h.2]
      · split
        · rename_i h1 h2 hb; simp [lookupCell, h1, h2, hb]
        · simp [lookupCell]

theorem lookup_storeCell_ne {lo : Nat} (m : List Host.Cell) {a c : Nat} (b : Byte) (h : cellsWf lo m = true) (hc : c ≠ a) : lookupCell (storeCell m a b) c = lookupCell m c := by
  induction m generalizing lo with
  | nil =>
    simp only [storeCell]; split
    · rfl
    · simp [lookupCell]; omega
  | cons x r ih =>
    obtain ⟨k, v⟩ := x
    simp only [cellsWf, Bool.and_eq_true, decide_eq_true_eq] at h
    have below (m : List Host.Cell) (h : cellsWf (a + 1) m = true) (hl : c < a) : lookupCell m c = 0 := by
      cases m with
      | nil => rfl
      | cons y r =>
        simp only [cellsWf, Bool.and_eq_true, decide_eq_true_eq] at h
        have h1 : ¬ y.1 = c := by omega
        have h2 : ¬ y.1 < c := by omega
        simp [lookupCell, h1, h2]
    simp only [storeCell]
    split
    · subst k
      split
      · simp only [lookupCell, Ne.symm hc, if_false]
        split
        · rfl
        · exact below r h.2 (by omega)
      · simp [lookupCell, Ne.symm hc]
    · split
      · simp only [lookupCell, ih h.2]
      · split
        · rfl
        · rename_i h1 h2 hb
          simp only [lookupCell, Ne.symm hc, if_false]
          split
          · rfl
          · have h3 : ¬ k = c := by omega
            have h4 : ¬ k < c := by omega
            simp [h3, h4]

/-- A byte outside a stored run reads as before. -/
theorem lookup_storeBytes_out {lo : Nat} (m : List Host.Cell) (a c : Nat) (d : List Byte) (h : cellsWf lo m = true) (ha : lo ≤ a) (hc : c < a ∨ a + d.length ≤ c) :
    lookupCell (storeBytes m a d) c = lookupCell m c := by
  induction d generalizing m a with
  | nil => rfl
  | cons b r ih =>
    simp only [List.length_cons] at hc
    simp only [storeBytes]
    rw [ih _ _ (storeCell_wf h ha) (by omega) (by omega), lookup_storeCell_ne m b h (by omega)]

/-- A byte inside a stored run reads as stored. -/
theorem lookup_storeBytes_in {lo : Nat} (m : List Host.Cell) (a i : Nat) (d : List Byte) (h : cellsWf lo m = true) (ha : lo ≤ a) (hi : i < d.length) :
    lookupCell (storeBytes m a d) (a + i) = d[i] := by
  induction d generalizing m a i with
  | nil => simp at hi
  | cons b r ih =>
    simp only [storeBytes]
    cases i with
    | zero =>
      rw [lookup_storeBytes_out _ _ _ _ (storeCell_wf h ha) (by omega) (by omega)]
      simp [lookup_storeCell_self m lo a b h]
    | succ i =>
      have := ih (storeCell m a b) (a + 1) i (storeCell_wf h ha) (by omega) (by simpa using hi)
      rw [show a + (i + 1) = a + 1 + i by omega, this]; simp

end Sys2Proof.Machine
end

