-- ==== Sys2Proof/Laws/Run.lean ====
section
/-! SUPPORT. What a command and a step can do, said once: each ends in the commit of some work; nothing is settled where nothing waits. -/

namespace Sys2Proof.Machine

/-- Every command answers a next state: the commit of the work it did. -/
theorem exec_next (c : Instr) (s : State) : ∃ w, exec c s = .next (s.commit w) := by
  cases c <;> exact ⟨_, rfl⟩

/-- Every step answers a next state. -/
theorem step_next (s : State) : ∃ t, step s = .next t := by
  unfold step
  split
  · exact ⟨_, rfl⟩
  · obtain ⟨w, h⟩ := exec_next _ _
    exact ⟨_, h⟩

@[simp] theorem work_mem (s : State) : s.work.mem = s.mem := rfl
@[simp] theorem work_hub (s : State) : s.work.hub = s.hub := rfl
@[simp] theorem work_writes (s : State) : s.work.writes = [] := rfl

theorem run_eq (s : State) (f : Work → Work) : s.run f = .next (s.commit (f s.work)) := rfl
theorem runAll_eq (s : State) (f : Work → Work) : s.runAll f = .next (s.commit (f s.work).settle) := rfl

/-- A command that runs its effect does what holds of the committed effect. -/
theorem does_run {c : Instr} {s : State} {f : Work → Work} {P : State → Prop} (h : exec c s = s.run f) (hp : P (s.commit (f s.work))) : Does c s P :=
  ⟨_, h.trans (run_eq s f), hp⟩

/-- A command that runs its effect and settles does what holds of the committed effect, once nothing is left to settle. -/
theorem does_runAll {c : Instr} {s : State} {f : Work → Work} {P : State → Prop} (h : exec c s = s.runAll f) (hp : P (s.commit (f s.work).settle)) : Does c s P :=
  ⟨_, h.trans (runAll_eq s f), hp⟩

/-- What `State.Calm` says of a work. -/
def Work.calm (w : Work) : Prop :=
  w.hub.hawser.inbound = [] ∧ w.hub.ten.withdrawals = [] ∧ w.hub.memory.retiring = [] ∧ w.hub.memory.scrubs = []
    ∧ (∀ x ∈ w.hub.ten.berths, x.2.unbind = none) ∧ ∀ x ∈ w.hub.ten.berths, x.2.state ≠ .closing

theorem work_calm {s : State} (h : s.Calm) : s.work.calm := h

theorem settleUnbinds_none (w : Work) (h : ∀ x ∈ w.hub.ten.berths, x.2.unbind = none) : w.settleUnbinds = w := by
  unfold Work.settleUnbinds
  generalize hl : w.hub.ten.berths = l at *
  clear hl
  induction l with
  | nil => rfl
  | cons x r ih =>
    have hx := h x (by simp)
    rw [each_cons]
    simp only [hx]
    exact ih fun y hy => h y (by simp [hy])

theorem settleCloses_none (w : Work) (h : ∀ x ∈ w.hub.ten.berths, x.2.state ≠ .closing) : w.settleCloses = w := by
  unfold Work.settleCloses
  have : (w.hub.ten.berths.filter fun (_, x) => decide (x.state = .closing)) = [] := by
    rw [List.filter_eq_nil_iff]
    intro x hx
    simpa using h x hx
  simp only [this, each_nil]

/-- Where nothing waits, nothing is settled. -/
theorem settle_calm (w : Work) (h : w.calm) : w.settle = w := by
  obtain ⟨h1, h2, h3, h4, h5, h6⟩ := h
  have e1 : w.importPump = w := by simp [Work.importPump, h1]
  have e2 : w.settleWithdrawals = w := by simp [Work.settleWithdrawals, h2]
  have e3 : w.settleRetires = w := by simp [Work.settleRetires, h3]
  have e4 : w.settleScrubs = w := by simp [Work.settleScrubs, h4]
  simp [Work.settle, e1, e2, settleUnbinds_none w h5, e3, e4, settleCloses_none w h6]

end Sys2Proof.Machine
end

