-- ==== Sys2Proof/Laws/Readers.lean ====
section
/-! SUPPORT. What the readers of the work read after each update: the record changed, and the others as before. -/

namespace Sys2Proof.Machine

variable (w : Work)

@[simp] theorem work_eta (s : State) : ({ mem := s.mem, writes := [], hub := s.hub } : Work) = s.work := rfl
@[simp] theorem commit_work_hub (s : State) : (s.commit w).work.hub = w.hub := rfl
@[simp] theorem commit_work_mem (s : State) : (s.commit w).work.mem = s.mem.applyAll w.writes.reverse := rfl

/-! ## site -/

@[simp] theorem site_commit (s : State) (n : Nat) : (s.commit w).work.site n = w.site n := rfl
@[simp] theorem site_onPort (p' : Nat) (f : Port → Port) (n : Nat) : (w.onPort p' f).site n = w.site n := rfl
@[simp] theorem site_onFunc (f : FuncRef) (g' : Func → Func) (n : Nat) : (w.onFunc f g').site n = w.site n := rfl
@[simp] theorem site_onBerth (b' : Nat) (f : Berth → Berth) (n : Nat) : (w.onBerth b' f).site n = w.site n := rfl
@[simp] theorem site_onRing (b' r' : Nat) (f : Ring → Ring) (n : Nat) : (w.onRing b' r' f).site n = w.site n := rfl
@[simp] theorem site_onTen (f : Tenancy → Tenancy) (n : Nat) : (w.onTen f).site n = w.site n := rfl
@[simp] theorem site_onHelm (f : HelmState → HelmState) (n : Nat) : (w.onHelm f).site n = w.site n := rfl
@[simp] theorem site_onPurser (f : Purser → Purser) (n : Nat) : (w.onPurser f).site n = w.site n := rfl
@[simp] theorem site_onMem (f : MemUnits → MemUnits) (n : Nat) : (w.onMem f).site n = w.site n := rfl
@[simp] theorem site_onBwr (f : Bwr → Bwr) (n : Nat) : (w.onBwr f).site n = w.site n := rfl
@[simp] theorem site_onChart (f : Chart → Chart) (n : Nat) : (w.onChart f).site n = w.site n := rfl
@[simp] theorem site_onFabric (f : Fabric → Fabric) (n : Nat) : (w.onFabric f).site n = w.site n := rfl
@[simp] theorem site_onBoard (f : Board → Board) (n : Nat) : (w.onBoard f).site n = w.site n := rfl
@[simp] theorem site_onBin (f : Bin → Bin) (n : Nat) : (w.onBin f).site n = w.site n := rfl
@[simp] theorem site_onLedger (f : Ledger → Ledger) (n : Nat) : (w.onLedger f).site n = w.site n := rfl
@[simp] theorem site_onStart (f : Start → Start) (n : Nat) : (w.onStart f).site n = w.site n := rfl
@[simp] theorem site_onSvc (f : Svc → Svc) (n : Nat) : (w.onSvc f).site n = w.site n := rfl
@[simp] theorem site_onHawser (f : Hawser → Hawser) (n : Nat) : (w.onHawser f).site n = w.site n := rfl
@[simp] theorem site_onBearing (b' : Nat) (f : Bearing → Bearing) (n : Nat) : (w.onBearing b' f).site n = w.site n := rfl
@[simp] theorem site_onWright (x' : Nat) (f : Wright → Wright) (n : Nat) : (w.onWright x' f).site n = w.site n := rfl
@[simp] theorem site_emit (o : Out) (n : Nat) : (w.emit o).site n = w.site n := rfl
@[simp] theorem site_op (o : MemOp) (n : Nat) : (w.op o).site n = w.site n := rfl
@[simp] theorem site_tlp (p' c' n' : Nat) (n : Nat) : (w.tlp p' c' n').site n = w.site n := by unfold Work.site; rw [tlp_sites]
@[simp] theorem site_poke (a : Nat) (d : List Byte) (n : Nat) : (w.poke a d).site n = w.site n := by unfold Work.site; rw [poke_sites]
@[simp] theorem site_hostWrite (f : FuncRef) (a : Nat) (d : List Byte) (n : Nat) : (w.hostWrite f a d).site n = w.site n := by unfold Work.site; rw [hostWrite_sites]
@[simp] theorem site_raise (f : FuncRef) (v owe : Nat) (n : Nat) : (w.raise f v owe).site n = w.site n := by unfold Work.site; rw [raise_sites]
@[simp] theorem site_irq (p' src : Nat) (n : Nat) : (w.irq p' src).site n = w.site n := by unfold Work.site; rw [irq_sites]
@[simp] theorem site_irqs (l : List Nat) (src : Nat) (n : Nat) : (w.irqs l src).site n = w.site n := by unfold Work.site; rw [irqs_sites]
@[simp] theorem site_count (k' i c' n' : Nat) (n : Nat) : (w.count k' i c' n').site n = w.site n := by unfold Work.site; rw [count_sites]
@[simp] theorem site_log (e : LogEvent) (n : Nat) : (w.log e).site n = w.site n := by unfold Work.site; rw [log_sites]
@[simp] theorem site_logGap (q : Option Nat) (n : Nat) : (w.logGap q).site n = w.site n := by unfold Work.site; rw [logGap_sites]

/-! ## port -/

@[simp] theorem port_commit (s : State) (p : Nat) : (s.commit w).work.port p = w.port p := rfl
@[simp] theorem port_onBerth (b' : Nat) (f : Berth → Berth) (p : Nat) : (w.onBerth b' f).port p = w.port p := rfl
@[simp] theorem port_onRing (b' r' : Nat) (f : Ring → Ring) (p : Nat) : (w.onRing b' r' f).port p = w.port p := rfl
@[simp] theorem port_onTen (f : Tenancy → Tenancy) (p : Nat) : (w.onTen f).port p = w.port p := rfl
@[simp] theorem port_onHelm (f : HelmState → HelmState) (p : Nat) : (w.onHelm f).port p = w.port p := rfl
@[simp] theorem port_onPurser (f : Purser → Purser) (p : Nat) : (w.onPurser f).port p = w.port p := rfl
@[simp] theorem port_onMem (f : MemUnits → MemUnits) (p : Nat) : (w.onMem f).port p = w.port p := rfl
@[simp] theorem port_onBwr (f : Bwr → Bwr) (p : Nat) : (w.onBwr f).port p = w.port p := rfl
@[simp] theorem port_onChart (f : Chart → Chart) (p : Nat) : (w.onChart f).port p = w.port p := rfl
@[simp] theorem port_onFabric (f : Fabric → Fabric) (p : Nat) : (w.onFabric f).port p = w.port p := rfl
@[simp] theorem port_onSite (n' : Nat) (f : Site → Site) (p : Nat) : (w.onSite n' f).port p = w.port p := rfl
@[simp] theorem port_onBoard (f : Board → Board) (p : Nat) : (w.onBoard f).port p = w.port p := rfl
@[simp] theorem port_onBin (f : Bin → Bin) (p : Nat) : (w.onBin f).port p = w.port p := rfl
@[simp] theorem port_onLedger (f : Ledger → Ledger) (p : Nat) : (w.onLedger f).port p = w.port p := rfl
@[simp] theorem port_onStart (f : Start → Start) (p : Nat) : (w.onStart f).port p = w.port p := rfl
@[simp] theorem port_onSvc (f : Svc → Svc) (p : Nat) : (w.onSvc f).port p = w.port p := rfl
@[simp] theorem port_onHawser (f : Hawser → Hawser) (p : Nat) : (w.onHawser f).port p = w.port p := rfl
@[simp] theorem port_onBearing (b' : Nat) (f : Bearing → Bearing) (p : Nat) : (w.onBearing b' f).port p = w.port p := rfl
@[simp] theorem port_onWright (x' : Nat) (f : Wright → Wright) (p : Nat) : (w.onWright x' f).port p = w.port p := rfl
@[simp] theorem port_emit (o : Out) (p : Nat) : (w.emit o).port p = w.port p := rfl
@[simp] theorem port_op (o : MemOp) (p : Nat) : (w.op o).port p = w.port p := rfl

/-! ## pool -/

@[simp] theorem pool_commit (s : State) (p : Nat) : (s.commit w).work.pool p = w.pool p := rfl
@[simp] theorem pool_onPort (p' : Nat) (f : Port → Port) (p : Nat) : (w.onPort p' f).pool p = w.pool p := rfl
@[simp] theorem pool_onFunc (f : FuncRef) (g' : Func → Func) (p : Nat) : (w.onFunc f g').pool p = w.pool p := rfl
@[simp] theorem pool_onHelm (f : HelmState → HelmState) (p : Nat) : (w.onHelm f).pool p = w.pool p := rfl
@[simp] theorem pool_onPurser (f : Purser → Purser) (p : Nat) : (w.onPurser f).pool p = w.pool p := rfl
@[simp] theorem pool_onMem (f : MemUnits → MemUnits) (p : Nat) : (w.onMem f).pool p = w.pool p := rfl
@[simp] theorem pool_onBwr (f : Bwr → Bwr) (p : Nat) : (w.onBwr f).pool p = w.pool p := rfl
@[simp] theorem pool_onChart (f : Chart → Chart) (p : Nat) : (w.onChart f).pool p = w.pool p := rfl
@[simp] theorem pool_onFabric (f : Fabric → Fabric) (p : Nat) : (w.onFabric f).pool p = w.pool p := rfl
@[simp] theorem pool_onSite (n' : Nat) (f : Site → Site) (p : Nat) : (w.onSite n' f).pool p = w.pool p := rfl
@[simp] theorem pool_onBoard (f : Board → Board) (p : Nat) : (w.onBoard f).pool p = w.pool p := rfl
@[simp] theorem pool_onBin (f : Bin → Bin) (p : Nat) : (w.onBin f).pool p = w.pool p := rfl
@[simp] theorem pool_onLedger (f : Ledger → Ledger) (p : Nat) : (w.onLedger f).pool p = w.pool p := rfl
@[simp] theorem pool_onStart (f : Start → Start) (p : Nat) : (w.onStart f).pool p = w.pool p := rfl
@[simp] theorem pool_onSvc (f : Svc → Svc) (p : Nat) : (w.onSvc f).pool p = w.pool p := rfl
@[simp] theorem pool_onHawser (f : Hawser → Hawser) (p : Nat) : (w.onHawser f).pool p = w.pool p := rfl
@[simp] theorem pool_onBearing (b' : Nat) (f : Bearing → Bearing) (p : Nat) : (w.onBearing b' f).pool p = w.pool p := rfl
@[simp] theorem pool_onWright (x' : Nat) (f : Wright → Wright) (p : Nat) : (w.onWright x' f).pool p = w.pool p := rfl
@[simp] theorem pool_emit (o : Out) (p : Nat) : (w.emit o).pool p = w.pool p := rfl
@[simp] theorem pool_op (o : MemOp) (p : Nat) : (w.op o).pool p = w.pool p := rfl
@[simp] theorem pool_tlp (p' c' n' : Nat) (p : Nat) : (w.tlp p' c' n').pool p = w.pool p := by unfold Work.pool; rw [tlp_ten]
@[simp] theorem pool_poke (a : Nat) (d : List Byte) (p : Nat) : (w.poke a d).pool p = w.pool p := by unfold Work.pool; rw [poke_ten]
@[simp] theorem pool_hostWrite (f : FuncRef) (a : Nat) (d : List Byte) (p : Nat) : (w.hostWrite f a d).pool p = w.pool p := by unfold Work.pool; rw [hostWrite_ten]
@[simp] theorem pool_raise (f : FuncRef) (v owe : Nat) (p : Nat) : (w.raise f v owe).pool p = w.pool p := by unfold Work.pool; rw [raise_ten]
@[simp] theorem pool_irq (p' src : Nat) (p : Nat) : (w.irq p' src).pool p = w.pool p := by unfold Work.pool; rw [irq_ten]
@[simp] theorem pool_irqs (l : List Nat) (src : Nat) (p : Nat) : (w.irqs l src).pool p = w.pool p := by unfold Work.pool; rw [irqs_ten]
@[simp] theorem pool_count (k' i c' n' : Nat) (p : Nat) : (w.count k' i c' n').pool p = w.pool p := by unfold Work.pool; rw [count_ten]
@[simp] theorem pool_log (e : LogEvent) (p : Nat) : (w.log e).pool p = w.pool p := by unfold Work.pool; rw [log_ten]
@[simp] theorem pool_logGap (q : Option Nat) (p : Nat) : (w.logGap q).pool p = w.pool p := by unfold Work.pool; rw [logGap_ten]

/-! ## mgr -/

@[simp] theorem mgr_commit (s : State) (p : Nat) : (s.commit w).work.mgr p = w.mgr p := rfl
@[simp] theorem mgr_onPort (p' : Nat) (f : Port → Port) (p : Nat) : (w.onPort p' f).mgr p = w.mgr p := rfl
@[simp] theorem mgr_onFunc (f : FuncRef) (g' : Func → Func) (p : Nat) : (w.onFunc f g').mgr p = w.mgr p := rfl
@[simp] theorem mgr_onHelm (f : HelmState → HelmState) (p : Nat) : (w.onHelm f).mgr p = w.mgr p := rfl
@[simp] theorem mgr_onPurser (f : Purser → Purser) (p : Nat) : (w.onPurser f).mgr p = w.mgr p := rfl
@[simp] theorem mgr_onMem (f : MemUnits → MemUnits) (p : Nat) : (w.onMem f).mgr p = w.mgr p := rfl
@[simp] theorem mgr_onBwr (f : Bwr → Bwr) (p : Nat) : (w.onBwr f).mgr p = w.mgr p := rfl
@[simp] theorem mgr_onChart (f : Chart → Chart) (p : Nat) : (w.onChart f).mgr p = w.mgr p := rfl
@[simp] theorem mgr_onFabric (f : Fabric → Fabric) (p : Nat) : (w.onFabric f).mgr p = w.mgr p := rfl
@[simp] theorem mgr_onSite (n' : Nat) (f : Site → Site) (p : Nat) : (w.onSite n' f).mgr p = w.mgr p := rfl
@[simp] theorem mgr_onBoard (f : Board → Board) (p : Nat) : (w.onBoard f).mgr p = w.mgr p := rfl
@[simp] theorem mgr_onBin (f : Bin → Bin) (p : Nat) : (w.onBin f).mgr p = w.mgr p := rfl
@[simp] theorem mgr_onLedger (f : Ledger → Ledger) (p : Nat) : (w.onLedger f).mgr p = w.mgr p := rfl
@[simp] theorem mgr_onStart (f : Start → Start) (p : Nat) : (w.onStart f).mgr p = w.mgr p := rfl
@[simp] theorem mgr_onSvc (f : Svc → Svc) (p : Nat) : (w.onSvc f).mgr p = w.mgr p := rfl
@[simp] theorem mgr_onHawser (f : Hawser → Hawser) (p : Nat) : (w.onHawser f).mgr p = w.mgr p := rfl
@[simp] theorem mgr_onBearing (b' : Nat) (f : Bearing → Bearing) (p : Nat) : (w.onBearing b' f).mgr p = w.mgr p := rfl
@[simp] theorem mgr_onWright (x' : Nat) (f : Wright → Wright) (p : Nat) : (w.onWright x' f).mgr p = w.mgr p := rfl
@[simp] theorem mgr_emit (o : Out) (p : Nat) : (w.emit o).mgr p = w.mgr p := rfl
@[simp] theorem mgr_op (o : MemOp) (p : Nat) : (w.op o).mgr p = w.mgr p := rfl
@[simp] theorem mgr_tlp (p' c' n' : Nat) (p : Nat) : (w.tlp p' c' n').mgr p = w.mgr p := by unfold Work.mgr; rw [tlp_ten]
@[simp] theorem mgr_poke (a : Nat) (d : List Byte) (p : Nat) : (w.poke a d).mgr p = w.mgr p := by unfold Work.mgr; rw [poke_ten]
@[simp] theorem mgr_hostWrite (f : FuncRef) (a : Nat) (d : List Byte) (p : Nat) : (w.hostWrite f a d).mgr p = w.mgr p := by unfold Work.mgr; rw [hostWrite_ten]
@[simp] theorem mgr_raise (f : FuncRef) (v owe : Nat) (p : Nat) : (w.raise f v owe).mgr p = w.mgr p := by unfold Work.mgr; rw [raise_ten]
@[simp] theorem mgr_irq (p' src : Nat) (p : Nat) : (w.irq p' src).mgr p = w.mgr p := by unfold Work.mgr; rw [irq_ten]
@[simp] theorem mgr_irqs (l : List Nat) (src : Nat) (p : Nat) : (w.irqs l src).mgr p = w.mgr p := by unfold Work.mgr; rw [irqs_ten]
@[simp] theorem mgr_count (k' i c' n' : Nat) (p : Nat) : (w.count k' i c' n').mgr p = w.mgr p := by unfold Work.mgr; rw [count_ten]
@[simp] theorem mgr_log (e : LogEvent) (p : Nat) : (w.log e).mgr p = w.mgr p := by unfold Work.mgr; rw [log_ten]
@[simp] theorem mgr_logGap (q : Option Nat) (p : Nat) : (w.logGap q).mgr p = w.mgr p := by unfold Work.mgr; rw [logGap_ten]

/-! ## berth -/

@[simp] theorem berth_commit (s : State) (b : Nat) : (s.commit w).work.berth b = w.berth b := rfl
@[simp] theorem berth_onPort (p' : Nat) (f : Port → Port) (b : Nat) : (w.onPort p' f).berth b = w.berth b := rfl
@[simp] theorem berth_onFunc (f : FuncRef) (g' : Func → Func) (b : Nat) : (w.onFunc f g').berth b = w.berth b := rfl
@[simp] theorem berth_onHelm (f : HelmState → HelmState) (b : Nat) : (w.onHelm f).berth b = w.berth b := rfl
@[simp] theorem berth_onPurser (f : Purser → Purser) (b : Nat) : (w.onPurser f).berth b = w.berth b := rfl
@[simp] theorem berth_onMem (f : MemUnits → MemUnits) (b : Nat) : (w.onMem f).berth b = w.berth b := rfl
@[simp] theorem berth_onBwr (f : Bwr → Bwr) (b : Nat) : (w.onBwr f).berth b = w.berth b := rfl
@[simp] theorem berth_onChart (f : Chart → Chart) (b : Nat) : (w.onChart f).berth b = w.berth b := rfl
@[simp] theorem berth_onFabric (f : Fabric → Fabric) (b : Nat) : (w.onFabric f).berth b = w.berth b := rfl
@[simp] theorem berth_onSite (n' : Nat) (f : Site → Site) (b : Nat) : (w.onSite n' f).berth b = w.berth b := rfl
@[simp] theorem berth_onBoard (f : Board → Board) (b : Nat) : (w.onBoard f).berth b = w.berth b := rfl
@[simp] theorem berth_onBin (f : Bin → Bin) (b : Nat) : (w.onBin f).berth b = w.berth b := rfl
@[simp] theorem berth_onLedger (f : Ledger → Ledger) (b : Nat) : (w.onLedger f).berth b = w.berth b := rfl
@[simp] theorem berth_onStart (f : Start → Start) (b : Nat) : (w.onStart f).berth b = w.berth b := rfl
@[simp] theorem berth_onSvc (f : Svc → Svc) (b : Nat) : (w.onSvc f).berth b = w.berth b := rfl
@[simp] theorem berth_onHawser (f : Hawser → Hawser) (b : Nat) : (w.onHawser f).berth b = w.berth b := rfl
@[simp] theorem berth_onBearing (b' : Nat) (f : Bearing → Bearing) (b : Nat) : (w.onBearing b' f).berth b = w.berth b := rfl
@[simp] theorem berth_onWright (x' : Nat) (f : Wright → Wright) (b : Nat) : (w.onWright x' f).berth b = w.berth b := rfl
@[simp] theorem berth_emit (o : Out) (b : Nat) : (w.emit o).berth b = w.berth b := rfl
@[simp] theorem berth_op (o : MemOp) (b : Nat) : (w.op o).berth b = w.berth b := rfl
@[simp] theorem berth_tlp (p' c' n' : Nat) (b : Nat) : (w.tlp p' c' n').berth b = w.berth b := by unfold Work.berth; rw [tlp_ten]
@[simp] theorem berth_poke (a : Nat) (d : List Byte) (b : Nat) : (w.poke a d).berth b = w.berth b := by unfold Work.berth; rw [poke_ten]
@[simp] theorem berth_hostWrite (f : FuncRef) (a : Nat) (d : List Byte) (b : Nat) : (w.hostWrite f a d).berth b = w.berth b := by unfold Work.berth; rw [hostWrite_ten]
@[simp] theorem berth_raise (f : FuncRef) (v owe : Nat) (b : Nat) : (w.raise f v owe).berth b = w.berth b := by unfold Work.berth; rw [raise_ten]
@[simp] theorem berth_irq (p' src : Nat) (b : Nat) : (w.irq p' src).berth b = w.berth b := by unfold Work.berth; rw [irq_ten]
@[simp] theorem berth_irqs (l : List Nat) (src : Nat) (b : Nat) : (w.irqs l src).berth b = w.berth b := by unfold Work.berth; rw [irqs_ten]
@[simp] theorem berth_count (k' i c' n' : Nat) (b : Nat) : (w.count k' i c' n').berth b = w.berth b := by unfold Work.berth; rw [count_ten]
@[simp] theorem berth_log (e : LogEvent) (b : Nat) : (w.log e).berth b = w.berth b := by unfold Work.berth; rw [log_ten]
@[simp] theorem berth_logGap (q : Option Nat) (b : Nat) : (w.logGap q).berth b = w.berth b := by unfold Work.berth; rw [logGap_ten]

/-! ## mark -/

@[simp] theorem mark_commit (s : State) (m : Nat) : (s.commit w).work.mark m = w.mark m := rfl
@[simp] theorem mark_onPort (p' : Nat) (f : Port → Port) (m : Nat) : (w.onPort p' f).mark m = w.mark m := rfl
@[simp] theorem mark_onFunc (f : FuncRef) (g' : Func → Func) (m : Nat) : (w.onFunc f g').mark m = w.mark m := rfl
@[simp] theorem mark_onBerth (b' : Nat) (f : Berth → Berth) (m : Nat) : (w.onBerth b' f).mark m = w.mark m := rfl
@[simp] theorem mark_onRing (b' r' : Nat) (f : Ring → Ring) (m : Nat) : (w.onRing b' r' f).mark m = w.mark m := rfl
@[simp] theorem mark_onTen (f : Tenancy → Tenancy) (m : Nat) : (w.onTen f).mark m = w.mark m := rfl
@[simp] theorem mark_onPurser (f : Purser → Purser) (m : Nat) : (w.onPurser f).mark m = w.mark m := rfl
@[simp] theorem mark_onMem (f : MemUnits → MemUnits) (m : Nat) : (w.onMem f).mark m = w.mark m := rfl
@[simp] theorem mark_onBwr (f : Bwr → Bwr) (m : Nat) : (w.onBwr f).mark m = w.mark m := rfl
@[simp] theorem mark_onChart (f : Chart → Chart) (m : Nat) : (w.onChart f).mark m = w.mark m := rfl
@[simp] theorem mark_onFabric (f : Fabric → Fabric) (m : Nat) : (w.onFabric f).mark m = w.mark m := rfl
@[simp] theorem mark_onSite (n' : Nat) (f : Site → Site) (m : Nat) : (w.onSite n' f).mark m = w.mark m := rfl
@[simp] theorem mark_onBoard (f : Board → Board) (m : Nat) : (w.onBoard f).mark m = w.mark m := rfl
@[simp] theorem mark_onBin (f : Bin → Bin) (m : Nat) : (w.onBin f).mark m = w.mark m := rfl
@[simp] theorem mark_onLedger (f : Ledger → Ledger) (m : Nat) : (w.onLedger f).mark m = w.mark m := rfl
@[simp] theorem mark_onStart (f : Start → Start) (m : Nat) : (w.onStart f).mark m = w.mark m := rfl
@[simp] theorem mark_onSvc (f : Svc → Svc) (m : Nat) : (w.onSvc f).mark m = w.mark m := rfl
@[simp] theorem mark_onHawser (f : Hawser → Hawser) (m : Nat) : (w.onHawser f).mark m = w.mark m := rfl
@[simp] theorem mark_onBearing (b' : Nat) (f : Bearing → Bearing) (m : Nat) : (w.onBearing b' f).mark m = w.mark m := rfl
@[simp] theorem mark_onWright (x' : Nat) (f : Wright → Wright) (m : Nat) : (w.onWright x' f).mark m = w.mark m := rfl
@[simp] theorem mark_emit (o : Out) (m : Nat) : (w.emit o).mark m = w.mark m := rfl
@[simp] theorem mark_op (o : MemOp) (m : Nat) : (w.op o).mark m = w.mark m := rfl
@[simp] theorem mark_tlp (p' c' n' : Nat) (m : Nat) : (w.tlp p' c' n').mark m = w.mark m := by unfold Work.mark; rw [tlp_helm]
@[simp] theorem mark_poke (a : Nat) (d : List Byte) (m : Nat) : (w.poke a d).mark m = w.mark m := by unfold Work.mark; rw [poke_helm]
@[simp] theorem mark_hostWrite (f : FuncRef) (a : Nat) (d : List Byte) (m : Nat) : (w.hostWrite f a d).mark m = w.mark m := by unfold Work.mark; rw [hostWrite_helm]
@[simp] theorem mark_raise (f : FuncRef) (v owe : Nat) (m : Nat) : (w.raise f v owe).mark m = w.mark m := by unfold Work.mark; rw [raise_helm]
@[simp] theorem mark_irq (p' src : Nat) (m : Nat) : (w.irq p' src).mark m = w.mark m := by unfold Work.mark; rw [irq_helm]
@[simp] theorem mark_irqs (l : List Nat) (src : Nat) (m : Nat) : (w.irqs l src).mark m = w.mark m := by unfold Work.mark; rw [irqs_helm]
@[simp] theorem mark_count (k' i c' n' : Nat) (m : Nat) : (w.count k' i c' n').mark m = w.mark m := by unfold Work.mark; rw [count_helm]
@[simp] theorem mark_log (e : LogEvent) (m : Nat) : (w.log e).mark m = w.mark m := by unfold Work.mark; rw [log_helm]
@[simp] theorem mark_logGap (q : Option Nat) (m : Nat) : (w.logGap q).mark m = w.mark m := by unfold Work.mark; rw [logGap_helm]

/-! ## gate -/

@[simp] theorem gate_commit (s : State) (g : Nat) : (s.commit w).work.gate g = w.gate g := rfl
@[simp] theorem gate_onPort (p' : Nat) (f : Port → Port) (g : Nat) : (w.onPort p' f).gate g = w.gate g := rfl
@[simp] theorem gate_onFunc (f : FuncRef) (g' : Func → Func) (g : Nat) : (w.onFunc f g').gate g = w.gate g := rfl
@[simp] theorem gate_onBerth (b' : Nat) (f : Berth → Berth) (g : Nat) : (w.onBerth b' f).gate g = w.gate g := rfl
@[simp] theorem gate_onRing (b' r' : Nat) (f : Ring → Ring) (g : Nat) : (w.onRing b' r' f).gate g = w.gate g := rfl
@[simp] theorem gate_onTen (f : Tenancy → Tenancy) (g : Nat) : (w.onTen f).gate g = w.gate g := rfl
@[simp] theorem gate_onPurser (f : Purser → Purser) (g : Nat) : (w.onPurser f).gate g = w.gate g := rfl
@[simp] theorem gate_onMem (f : MemUnits → MemUnits) (g : Nat) : (w.onMem f).gate g = w.gate g := rfl
@[simp] theorem gate_onBwr (f : Bwr → Bwr) (g : Nat) : (w.onBwr f).gate g = w.gate g := rfl
@[simp] theorem gate_onChart (f : Chart → Chart) (g : Nat) : (w.onChart f).gate g = w.gate g := rfl
@[simp] theorem gate_onFabric (f : Fabric → Fabric) (g : Nat) : (w.onFabric f).gate g = w.gate g := rfl
@[simp] theorem gate_onSite (n' : Nat) (f : Site → Site) (g : Nat) : (w.onSite n' f).gate g = w.gate g := rfl
@[simp] theorem gate_onBoard (f : Board → Board) (g : Nat) : (w.onBoard f).gate g = w.gate g := rfl
@[simp] theorem gate_onBin (f : Bin → Bin) (g : Nat) : (w.onBin f).gate g = w.gate g := rfl
@[simp] theorem gate_onLedger (f : Ledger → Ledger) (g : Nat) : (w.onLedger f).gate g = w.gate g := rfl
@[simp] theorem gate_onStart (f : Start → Start) (g : Nat) : (w.onStart f).gate g = w.gate g := rfl
@[simp] theorem gate_onSvc (f : Svc → Svc) (g : Nat) : (w.onSvc f).gate g = w.gate g := rfl
@[simp] theorem gate_onHawser (f : Hawser → Hawser) (g : Nat) : (w.onHawser f).gate g = w.gate g := rfl
@[simp] theorem gate_onBearing (b' : Nat) (f : Bearing → Bearing) (g : Nat) : (w.onBearing b' f).gate g = w.gate g := rfl
@[simp] theorem gate_onWright (x' : Nat) (f : Wright → Wright) (g : Nat) : (w.onWright x' f).gate g = w.gate g := rfl
@[simp] theorem gate_emit (o : Out) (g : Nat) : (w.emit o).gate g = w.gate g := rfl
@[simp] theorem gate_op (o : MemOp) (g : Nat) : (w.op o).gate g = w.gate g := rfl
@[simp] theorem gate_tlp (p' c' n' : Nat) (g : Nat) : (w.tlp p' c' n').gate g = w.gate g := by unfold Work.gate; rw [tlp_helm]
@[simp] theorem gate_poke (a : Nat) (d : List Byte) (g : Nat) : (w.poke a d).gate g = w.gate g := by unfold Work.gate; rw [poke_helm]
@[simp] theorem gate_hostWrite (f : FuncRef) (a : Nat) (d : List Byte) (g : Nat) : (w.hostWrite f a d).gate g = w.gate g := by unfold Work.gate; rw [hostWrite_helm]
@[simp] theorem gate_raise (f : FuncRef) (v owe : Nat) (g : Nat) : (w.raise f v owe).gate g = w.gate g := by unfold Work.gate; rw [raise_helm]
@[simp] theorem gate_irq (p' src : Nat) (g : Nat) : (w.irq p' src).gate g = w.gate g := by unfold Work.gate; rw [irq_helm]
@[simp] theorem gate_irqs (l : List Nat) (src : Nat) (g : Nat) : (w.irqs l src).gate g = w.gate g := by unfold Work.gate; rw [irqs_helm]
@[simp] theorem gate_count (k' i c' n' : Nat) (g : Nat) : (w.count k' i c' n').gate g = w.gate g := by unfold Work.gate; rw [count_helm]
@[simp] theorem gate_log (e : LogEvent) (g : Nat) : (w.log e).gate g = w.gate g := by unfold Work.gate; rw [log_helm]
@[simp] theorem gate_logGap (q : Option Nat) (g : Nat) : (w.logGap q).gate g = w.gate g := by unfold Work.gate; rw [logGap_helm]

/-! ## sem -/

@[simp] theorem sem_commit (s : State) (k : Nat) : (s.commit w).work.sem k = w.sem k := rfl
@[simp] theorem sem_onPort (p' : Nat) (f : Port → Port) (k : Nat) : (w.onPort p' f).sem k = w.sem k := rfl
@[simp] theorem sem_onFunc (f : FuncRef) (g' : Func → Func) (k : Nat) : (w.onFunc f g').sem k = w.sem k := rfl
@[simp] theorem sem_onBerth (b' : Nat) (f : Berth → Berth) (k : Nat) : (w.onBerth b' f).sem k = w.sem k := rfl
@[simp] theorem sem_onRing (b' r' : Nat) (f : Ring → Ring) (k : Nat) : (w.onRing b' r' f).sem k = w.sem k := rfl
@[simp] theorem sem_onTen (f : Tenancy → Tenancy) (k : Nat) : (w.onTen f).sem k = w.sem k := rfl
@[simp] theorem sem_onPurser (f : Purser → Purser) (k : Nat) : (w.onPurser f).sem k = w.sem k := rfl
@[simp] theorem sem_onMem (f : MemUnits → MemUnits) (k : Nat) : (w.onMem f).sem k = w.sem k := rfl
@[simp] theorem sem_onBwr (f : Bwr → Bwr) (k : Nat) : (w.onBwr f).sem k = w.sem k := rfl
@[simp] theorem sem_onChart (f : Chart → Chart) (k : Nat) : (w.onChart f).sem k = w.sem k := rfl
@[simp] theorem sem_onFabric (f : Fabric → Fabric) (k : Nat) : (w.onFabric f).sem k = w.sem k := rfl
@[simp] theorem sem_onSite (n' : Nat) (f : Site → Site) (k : Nat) : (w.onSite n' f).sem k = w.sem k := rfl
@[simp] theorem sem_onBoard (f : Board → Board) (k : Nat) : (w.onBoard f).sem k = w.sem k := rfl
@[simp] theorem sem_onBin (f : Bin → Bin) (k : Nat) : (w.onBin f).sem k = w.sem k := rfl
@[simp] theorem sem_onLedger (f : Ledger → Ledger) (k : Nat) : (w.onLedger f).sem k = w.sem k := rfl
@[simp] theorem sem_onStart (f : Start → Start) (k : Nat) : (w.onStart f).sem k = w.sem k := rfl
@[simp] theorem sem_onSvc (f : Svc → Svc) (k : Nat) : (w.onSvc f).sem k = w.sem k := rfl
@[simp] theorem sem_onHawser (f : Hawser → Hawser) (k : Nat) : (w.onHawser f).sem k = w.sem k := rfl
@[simp] theorem sem_onBearing (b' : Nat) (f : Bearing → Bearing) (k : Nat) : (w.onBearing b' f).sem k = w.sem k := rfl
@[simp] theorem sem_onWright (x' : Nat) (f : Wright → Wright) (k : Nat) : (w.onWright x' f).sem k = w.sem k := rfl
@[simp] theorem sem_emit (o : Out) (k : Nat) : (w.emit o).sem k = w.sem k := rfl
@[simp] theorem sem_op (o : MemOp) (k : Nat) : (w.op o).sem k = w.sem k := rfl
@[simp] theorem sem_tlp (p' c' n' : Nat) (k : Nat) : (w.tlp p' c' n').sem k = w.sem k := by unfold Work.sem; rw [tlp_helm]
@[simp] theorem sem_poke (a : Nat) (d : List Byte) (k : Nat) : (w.poke a d).sem k = w.sem k := by unfold Work.sem; rw [poke_helm]
@[simp] theorem sem_hostWrite (f : FuncRef) (a : Nat) (d : List Byte) (k : Nat) : (w.hostWrite f a d).sem k = w.sem k := by unfold Work.sem; rw [hostWrite_helm]
@[simp] theorem sem_raise (f : FuncRef) (v owe : Nat) (k : Nat) : (w.raise f v owe).sem k = w.sem k := by unfold Work.sem; rw [raise_helm]
@[simp] theorem sem_irq (p' src : Nat) (k : Nat) : (w.irq p' src).sem k = w.sem k := by unfold Work.sem; rw [irq_helm]
@[simp] theorem sem_irqs (l : List Nat) (src : Nat) (k : Nat) : (w.irqs l src).sem k = w.sem k := by unfold Work.sem; rw [irqs_helm]
@[simp] theorem sem_count (k' i c' n' : Nat) (k : Nat) : (w.count k' i c' n').sem k = w.sem k := by unfold Work.sem; rw [count_helm]
@[simp] theorem sem_log (e : LogEvent) (k : Nat) : (w.log e).sem k = w.sem k := by unfold Work.sem; rw [log_helm]
@[simp] theorem sem_logGap (q : Option Nat) (k : Nat) : (w.logGap q).sem k = w.sem k := by unfold Work.sem; rw [logGap_helm]

/-! ## ring -/

@[simp] theorem ring_commit (s : State) (b r : Nat) : (s.commit w).work.ring b r = w.ring b r := rfl
@[simp] theorem ring_onPort (p' : Nat) (f : Port → Port) (b r : Nat) : (w.onPort p' f).ring b r = w.ring b r := rfl
@[simp] theorem ring_onFunc (f : FuncRef) (g' : Func → Func) (b r : Nat) : (w.onFunc f g').ring b r = w.ring b r := rfl
@[simp] theorem ring_onHelm (f : HelmState → HelmState) (b r : Nat) : (w.onHelm f).ring b r = w.ring b r := rfl
@[simp] theorem ring_onPurser (f : Purser → Purser) (b r : Nat) : (w.onPurser f).ring b r = w.ring b r := rfl
@[simp] theorem ring_onMem (f : MemUnits → MemUnits) (b r : Nat) : (w.onMem f).ring b r = w.ring b r := rfl
@[simp] theorem ring_onBwr (f : Bwr → Bwr) (b r : Nat) : (w.onBwr f).ring b r = w.ring b r := rfl
@[simp] theorem ring_onChart (f : Chart → Chart) (b r : Nat) : (w.onChart f).ring b r = w.ring b r := rfl
@[simp] theorem ring_onFabric (f : Fabric → Fabric) (b r : Nat) : (w.onFabric f).ring b r = w.ring b r := rfl
@[simp] theorem ring_onSite (n' : Nat) (f : Site → Site) (b r : Nat) : (w.onSite n' f).ring b r = w.ring b r := rfl
@[simp] theorem ring_onBoard (f : Board → Board) (b r : Nat) : (w.onBoard f).ring b r = w.ring b r := rfl
@[simp] theorem ring_onBin (f : Bin → Bin) (b r : Nat) : (w.onBin f).ring b r = w.ring b r := rfl
@[simp] theorem ring_onLedger (f : Ledger → Ledger) (b r : Nat) : (w.onLedger f).ring b r = w.ring b r := rfl
@[simp] theorem ring_onStart (f : Start → Start) (b r : Nat) : (w.onStart f).ring b r = w.ring b r := rfl
@[simp] theorem ring_onSvc (f : Svc → Svc) (b r : Nat) : (w.onSvc f).ring b r = w.ring b r := rfl
@[simp] theorem ring_onHawser (f : Hawser → Hawser) (b r : Nat) : (w.onHawser f).ring b r = w.ring b r := rfl
@[simp] theorem ring_onBearing (b' : Nat) (f : Bearing → Bearing) (b r : Nat) : (w.onBearing b' f).ring b r = w.ring b r := rfl
@[simp] theorem ring_onWright (x' : Nat) (f : Wright → Wright) (b r : Nat) : (w.onWright x' f).ring b r = w.ring b r := rfl
@[simp] theorem ring_emit (o : Out) (b r : Nat) : (w.emit o).ring b r = w.ring b r := rfl
@[simp] theorem ring_op (o : MemOp) (b r : Nat) : (w.op o).ring b r = w.ring b r := rfl
@[simp] theorem ring_tlp (p' c' n' : Nat) (b r : Nat) : (w.tlp p' c' n').ring b r = w.ring b r := by unfold Work.ring; rw [tlp_ten]
@[simp] theorem ring_poke (a : Nat) (d : List Byte) (b r : Nat) : (w.poke a d).ring b r = w.ring b r := by unfold Work.ring; rw [poke_ten]
@[simp] theorem ring_hostWrite (f : FuncRef) (a : Nat) (d : List Byte) (b r : Nat) : (w.hostWrite f a d).ring b r = w.ring b r := by unfold Work.ring; rw [hostWrite_ten]
@[simp] theorem ring_raise (f : FuncRef) (v owe : Nat) (b r : Nat) : (w.raise f v owe).ring b r = w.ring b r := by unfold Work.ring; rw [raise_ten]
@[simp] theorem ring_irq (p' src : Nat) (b r : Nat) : (w.irq p' src).ring b r = w.ring b r := by unfold Work.ring; rw [irq_ten]
@[simp] theorem ring_irqs (l : List Nat) (src : Nat) (b r : Nat) : (w.irqs l src).ring b r = w.ring b r := by unfold Work.ring; rw [irqs_ten]
@[simp] theorem ring_count (k' i c' n' : Nat) (b r : Nat) : (w.count k' i c' n').ring b r = w.ring b r := by unfold Work.ring; rw [count_ten]
@[simp] theorem ring_log (e : LogEvent) (b r : Nat) : (w.log e).ring b r = w.ring b r := by unfold Work.ring; rw [log_ten]
@[simp] theorem ring_logGap (q : Option Nat) (b r : Nat) : (w.logGap q).ring b r = w.ring b r := by unfold Work.ring; rw [logGap_ten]

/-! ## region -/

@[simp] theorem region_commit (s : State) (r : Nat) : (s.commit w).work.region r = w.region r := rfl
@[simp] theorem region_onPort (p' : Nat) (f : Port → Port) (r : Nat) : (w.onPort p' f).region r = w.region r := rfl
@[simp] theorem region_onFunc (f : FuncRef) (g' : Func → Func) (r : Nat) : (w.onFunc f g').region r = w.region r := rfl
@[simp] theorem region_onBerth (b' : Nat) (f : Berth → Berth) (r : Nat) : (w.onBerth b' f).region r = w.region r := rfl
@[simp] theorem region_onRing (b' r' : Nat) (f : Ring → Ring) (r : Nat) : (w.onRing b' r' f).region r = w.region r := rfl
@[simp] theorem region_onTen (f : Tenancy → Tenancy) (r : Nat) : (w.onTen f).region r = w.region r := rfl
@[simp] theorem region_onHelm (f : HelmState → HelmState) (r : Nat) : (w.onHelm f).region r = w.region r := rfl
@[simp] theorem region_onPurser (f : Purser → Purser) (r : Nat) : (w.onPurser f).region r = w.region r := rfl
@[simp] theorem region_onBwr (f : Bwr → Bwr) (r : Nat) : (w.onBwr f).region r = w.region r := rfl
@[simp] theorem region_onChart (f : Chart → Chart) (r : Nat) : (w.onChart f).region r = w.region r := rfl
@[simp] theorem region_onFabric (f : Fabric → Fabric) (r : Nat) : (w.onFabric f).region r = w.region r := rfl
@[simp] theorem region_onSite (n' : Nat) (f : Site → Site) (r : Nat) : (w.onSite n' f).region r = w.region r := rfl
@[simp] theorem region_onBoard (f : Board → Board) (r : Nat) : (w.onBoard f).region r = w.region r := rfl
@[simp] theorem region_onBin (f : Bin → Bin) (r : Nat) : (w.onBin f).region r = w.region r := rfl
@[simp] theorem region_onLedger (f : Ledger → Ledger) (r : Nat) : (w.onLedger f).region r = w.region r := rfl
@[simp] theorem region_onStart (f : Start → Start) (r : Nat) : (w.onStart f).region r = w.region r := rfl
@[simp] theorem region_onSvc (f : Svc → Svc) (r : Nat) : (w.onSvc f).region r = w.region r := rfl
@[simp] theorem region_onHawser (f : Hawser → Hawser) (r : Nat) : (w.onHawser f).region r = w.region r := rfl
@[simp] theorem region_onBearing (b' : Nat) (f : Bearing → Bearing) (r : Nat) : (w.onBearing b' f).region r = w.region r := rfl
@[simp] theorem region_onWright (x' : Nat) (f : Wright → Wright) (r : Nat) : (w.onWright x' f).region r = w.region r := rfl
@[simp] theorem region_emit (o : Out) (r : Nat) : (w.emit o).region r = w.region r := rfl
@[simp] theorem region_op (o : MemOp) (r : Nat) : (w.op o).region r = w.region r := rfl
@[simp] theorem region_tlp (p' c' n' : Nat) (r : Nat) : (w.tlp p' c' n').region r = w.region r := by unfold Work.region; rw [tlp_memory]
@[simp] theorem region_poke (a : Nat) (d : List Byte) (r : Nat) : (w.poke a d).region r = w.region r := by unfold Work.region; rw [poke_memory]
@[simp] theorem region_hostWrite (f : FuncRef) (a : Nat) (d : List Byte) (r : Nat) : (w.hostWrite f a d).region r = w.region r := by unfold Work.region; rw [hostWrite_memory]
@[simp] theorem region_raise (f : FuncRef) (v owe : Nat) (r : Nat) : (w.raise f v owe).region r = w.region r := by unfold Work.region; rw [raise_memory]
@[simp] theorem region_irq (p' src : Nat) (r : Nat) : (w.irq p' src).region r = w.region r := by unfold Work.region; rw [irq_memory]
@[simp] theorem region_irqs (l : List Nat) (src : Nat) (r : Nat) : (w.irqs l src).region r = w.region r := by unfold Work.region; rw [irqs_memory]
@[simp] theorem region_count (k' i c' n' : Nat) (r : Nat) : (w.count k' i c' n').region r = w.region r := by unfold Work.region; rw [count_memory]
@[simp] theorem region_log (e : LogEvent) (r : Nat) : (w.log e).region r = w.region r := by unfold Work.region; rw [log_memory]
@[simp] theorem region_logGap (q : Option Nat) (r : Nat) : (w.logGap q).region r = w.region r := by unfold Work.region; rw [logGap_memory]

/-! ## part -/

@[simp] theorem part_commit (s : State) (p : Nat) : (s.commit w).work.part p = w.part p := rfl
@[simp] theorem part_onPort (p' : Nat) (f : Port → Port) (p : Nat) : (w.onPort p' f).part p = w.part p := rfl
@[simp] theorem part_onFunc (f : FuncRef) (g' : Func → Func) (p : Nat) : (w.onFunc f g').part p = w.part p := rfl
@[simp] theorem part_onBerth (b' : Nat) (f : Berth → Berth) (p : Nat) : (w.onBerth b' f).part p = w.part p := rfl
@[simp] theorem part_onRing (b' r' : Nat) (f : Ring → Ring) (p : Nat) : (w.onRing b' r' f).part p = w.part p := rfl
@[simp] theorem part_onTen (f : Tenancy → Tenancy) (p : Nat) : (w.onTen f).part p = w.part p := rfl
@[simp] theorem part_onHelm (f : HelmState → HelmState) (p : Nat) : (w.onHelm f).part p = w.part p := rfl
@[simp] theorem part_onPurser (f : Purser → Purser) (p : Nat) : (w.onPurser f).part p = w.part p := rfl
@[simp] theorem part_onBwr (f : Bwr → Bwr) (p : Nat) : (w.onBwr f).part p = w.part p := rfl
@[simp] theorem part_onChart (f : Chart → Chart) (p : Nat) : (w.onChart f).part p = w.part p := rfl
@[simp] theorem part_onFabric (f : Fabric → Fabric) (p : Nat) : (w.onFabric f).part p = w.part p := rfl
@[simp] theorem part_onSite (n' : Nat) (f : Site → Site) (p : Nat) : (w.onSite n' f).part p = w.part p := rfl
@[simp] theorem part_onBoard (f : Board → Board) (p : Nat) : (w.onBoard f).part p = w.part p := rfl
@[simp] theorem part_onBin (f : Bin → Bin) (p : Nat) : (w.onBin f).part p = w.part p := rfl
@[simp] theorem part_onLedger (f : Ledger → Ledger) (p : Nat) : (w.onLedger f).part p = w.part p := rfl
@[simp] theorem part_onStart (f : Start → Start) (p : Nat) : (w.onStart f).part p = w.part p := rfl
@[simp] theorem part_onSvc (f : Svc → Svc) (p : Nat) : (w.onSvc f).part p = w.part p := rfl
@[simp] theorem part_onHawser (f : Hawser → Hawser) (p : Nat) : (w.onHawser f).part p = w.part p := rfl
@[simp] theorem part_onBearing (b' : Nat) (f : Bearing → Bearing) (p : Nat) : (w.onBearing b' f).part p = w.part p := rfl
@[simp] theorem part_onWright (x' : Nat) (f : Wright → Wright) (p : Nat) : (w.onWright x' f).part p = w.part p := rfl
@[simp] theorem part_emit (o : Out) (p : Nat) : (w.emit o).part p = w.part p := rfl
@[simp] theorem part_op (o : MemOp) (p : Nat) : (w.op o).part p = w.part p := rfl
@[simp] theorem part_tlp (p' c' n' : Nat) (p : Nat) : (w.tlp p' c' n').part p = w.part p := by unfold Work.part; rw [tlp_memory]
@[simp] theorem part_poke (a : Nat) (d : List Byte) (p : Nat) : (w.poke a d).part p = w.part p := by unfold Work.part; rw [poke_memory]
@[simp] theorem part_hostWrite (f : FuncRef) (a : Nat) (d : List Byte) (p : Nat) : (w.hostWrite f a d).part p = w.part p := by unfold Work.part; rw [hostWrite_memory]
@[simp] theorem part_raise (f : FuncRef) (v owe : Nat) (p : Nat) : (w.raise f v owe).part p = w.part p := by unfold Work.part; rw [raise_memory]
@[simp] theorem part_irq (p' src : Nat) (p : Nat) : (w.irq p' src).part p = w.part p := by unfold Work.part; rw [irq_memory]
@[simp] theorem part_irqs (l : List Nat) (src : Nat) (p : Nat) : (w.irqs l src).part p = w.part p := by unfold Work.part; rw [irqs_memory]
@[simp] theorem part_count (k' i c' n' : Nat) (p : Nat) : (w.count k' i c' n').part p = w.part p := by unfold Work.part; rw [count_memory]
@[simp] theorem part_log (e : LogEvent) (p : Nat) : (w.log e).part p = w.part p := by unfold Work.part; rw [log_memory]
@[simp] theorem part_logGap (q : Option Nat) (p : Nat) : (w.logGap q).part p = w.part p := by unfold Work.part; rw [logGap_memory]

/-! ## channel -/

@[simp] theorem channel_commit (s : State) (c : Nat) : (s.commit w).work.channel c = w.channel c := rfl
@[simp] theorem channel_onPort (p' : Nat) (f : Port → Port) (c : Nat) : (w.onPort p' f).channel c = w.channel c := rfl
@[simp] theorem channel_onFunc (f : FuncRef) (g' : Func → Func) (c : Nat) : (w.onFunc f g').channel c = w.channel c := rfl
@[simp] theorem channel_onBerth (b' : Nat) (f : Berth → Berth) (c : Nat) : (w.onBerth b' f).channel c = w.channel c := rfl
@[simp] theorem channel_onRing (b' r' : Nat) (f : Ring → Ring) (c : Nat) : (w.onRing b' r' f).channel c = w.channel c := rfl
@[simp] theorem channel_onTen (f : Tenancy → Tenancy) (c : Nat) : (w.onTen f).channel c = w.channel c := rfl
@[simp] theorem channel_onHelm (f : HelmState → HelmState) (c : Nat) : (w.onHelm f).channel c = w.channel c := rfl
@[simp] theorem channel_onPurser (f : Purser → Purser) (c : Nat) : (w.onPurser f).channel c = w.channel c := rfl
@[simp] theorem channel_onBwr (f : Bwr → Bwr) (c : Nat) : (w.onBwr f).channel c = w.channel c := rfl
@[simp] theorem channel_onChart (f : Chart → Chart) (c : Nat) : (w.onChart f).channel c = w.channel c := rfl
@[simp] theorem channel_onFabric (f : Fabric → Fabric) (c : Nat) : (w.onFabric f).channel c = w.channel c := rfl
@[simp] theorem channel_onSite (n' : Nat) (f : Site → Site) (c : Nat) : (w.onSite n' f).channel c = w.channel c := rfl
@[simp] theorem channel_onBoard (f : Board → Board) (c : Nat) : (w.onBoard f).channel c = w.channel c := rfl
@[simp] theorem channel_onBin (f : Bin → Bin) (c : Nat) : (w.onBin f).channel c = w.channel c := rfl
@[simp] theorem channel_onLedger (f : Ledger → Ledger) (c : Nat) : (w.onLedger f).channel c = w.channel c := rfl
@[simp] theorem channel_onStart (f : Start → Start) (c : Nat) : (w.onStart f).channel c = w.channel c := rfl
@[simp] theorem channel_onSvc (f : Svc → Svc) (c : Nat) : (w.onSvc f).channel c = w.channel c := rfl
@[simp] theorem channel_onHawser (f : Hawser → Hawser) (c : Nat) : (w.onHawser f).channel c = w.channel c := rfl
@[simp] theorem channel_onBearing (b' : Nat) (f : Bearing → Bearing) (c : Nat) : (w.onBearing b' f).channel c = w.channel c := rfl
@[simp] theorem channel_onWright (x' : Nat) (f : Wright → Wright) (c : Nat) : (w.onWright x' f).channel c = w.channel c := rfl
@[simp] theorem channel_emit (o : Out) (c : Nat) : (w.emit o).channel c = w.channel c := rfl
@[simp] theorem channel_op (o : MemOp) (c : Nat) : (w.op o).channel c = w.channel c := rfl
@[simp] theorem channel_tlp (p' c' n' : Nat) (c : Nat) : (w.tlp p' c' n').channel c = w.channel c := by unfold Work.channel; rw [tlp_memory]
@[simp] theorem channel_poke (a : Nat) (d : List Byte) (c : Nat) : (w.poke a d).channel c = w.channel c := by unfold Work.channel; rw [poke_memory]
@[simp] theorem channel_hostWrite (f : FuncRef) (a : Nat) (d : List Byte) (c : Nat) : (w.hostWrite f a d).channel c = w.channel c := by unfold Work.channel; rw [hostWrite_memory]
@[simp] theorem channel_raise (f : FuncRef) (v owe : Nat) (c : Nat) : (w.raise f v owe).channel c = w.channel c := by unfold Work.channel; rw [raise_memory]
@[simp] theorem channel_irq (p' src : Nat) (c : Nat) : (w.irq p' src).channel c = w.channel c := by unfold Work.channel; rw [irq_memory]
@[simp] theorem channel_irqs (l : List Nat) (src : Nat) (c : Nat) : (w.irqs l src).channel c = w.channel c := by unfold Work.channel; rw [irqs_memory]
@[simp] theorem channel_count (k' i c' n' : Nat) (c : Nat) : (w.count k' i c' n').channel c = w.channel c := by unfold Work.channel; rw [count_memory]
@[simp] theorem channel_log (e : LogEvent) (c : Nat) : (w.log e).channel c = w.channel c := by unfold Work.channel; rw [log_memory]
@[simp] theorem channel_logGap (q : Option Nat) (c : Nat) : (w.logGap q).channel c = w.channel c := by unfold Work.channel; rw [logGap_memory]

/-! ## hport -/

@[simp] theorem hport_commit (s : State) (k : Nat) : (s.commit w).work.hport k = w.hport k := rfl
@[simp] theorem hport_onPort (p' : Nat) (f : Port → Port) (k : Nat) : (w.onPort p' f).hport k = w.hport k := rfl
@[simp] theorem hport_onFunc (f : FuncRef) (g' : Func → Func) (k : Nat) : (w.onFunc f g').hport k = w.hport k := rfl
@[simp] theorem hport_onBerth (b' : Nat) (f : Berth → Berth) (k : Nat) : (w.onBerth b' f).hport k = w.hport k := rfl
@[simp] theorem hport_onRing (b' r' : Nat) (f : Ring → Ring) (k : Nat) : (w.onRing b' r' f).hport k = w.hport k := rfl
@[simp] theorem hport_onTen (f : Tenancy → Tenancy) (k : Nat) : (w.onTen f).hport k = w.hport k := rfl
@[simp] theorem hport_onHelm (f : HelmState → HelmState) (k : Nat) : (w.onHelm f).hport k = w.hport k := rfl
@[simp] theorem hport_onPurser (f : Purser → Purser) (k : Nat) : (w.onPurser f).hport k = w.hport k := rfl
@[simp] theorem hport_onMem (f : MemUnits → MemUnits) (k : Nat) : (w.onMem f).hport k = w.hport k := rfl
@[simp] theorem hport_onBwr (f : Bwr → Bwr) (k : Nat) : (w.onBwr f).hport k = w.hport k := rfl
@[simp] theorem hport_onChart (f : Chart → Chart) (k : Nat) : (w.onChart f).hport k = w.hport k := rfl
@[simp] theorem hport_onFabric (f : Fabric → Fabric) (k : Nat) : (w.onFabric f).hport k = w.hport k := rfl
@[simp] theorem hport_onSite (n' : Nat) (f : Site → Site) (k : Nat) : (w.onSite n' f).hport k = w.hport k := rfl
@[simp] theorem hport_onBoard (f : Board → Board) (k : Nat) : (w.onBoard f).hport k = w.hport k := rfl
@[simp] theorem hport_onBin (f : Bin → Bin) (k : Nat) : (w.onBin f).hport k = w.hport k := rfl
@[simp] theorem hport_onLedger (f : Ledger → Ledger) (k : Nat) : (w.onLedger f).hport k = w.hport k := rfl
@[simp] theorem hport_onStart (f : Start → Start) (k : Nat) : (w.onStart f).hport k = w.hport k := rfl
@[simp] theorem hport_onSvc (f : Svc → Svc) (k : Nat) : (w.onSvc f).hport k = w.hport k := rfl
@[simp] theorem hport_onBearing (b' : Nat) (f : Bearing → Bearing) (k : Nat) : (w.onBearing b' f).hport k = w.hport k := rfl
@[simp] theorem hport_onWright (x' : Nat) (f : Wright → Wright) (k : Nat) : (w.onWright x' f).hport k = w.hport k := rfl
@[simp] theorem hport_emit (o : Out) (k : Nat) : (w.emit o).hport k = w.hport k := rfl
@[simp] theorem hport_op (o : MemOp) (k : Nat) : (w.op o).hport k = w.hport k := rfl
@[simp] theorem hport_tlp (p' c' n' : Nat) (k : Nat) : (w.tlp p' c' n').hport k = w.hport k := by unfold Work.hport; rw [tlp_hawser]
@[simp] theorem hport_poke (a : Nat) (d : List Byte) (k : Nat) : (w.poke a d).hport k = w.hport k := by unfold Work.hport; rw [poke_hawser]
@[simp] theorem hport_hostWrite (f : FuncRef) (a : Nat) (d : List Byte) (k : Nat) : (w.hostWrite f a d).hport k = w.hport k := by unfold Work.hport; rw [hostWrite_hawser]
@[simp] theorem hport_raise (f : FuncRef) (v owe : Nat) (k : Nat) : (w.raise f v owe).hport k = w.hport k := by unfold Work.hport; rw [raise_hawser]
@[simp] theorem hport_irq (p' src : Nat) (k : Nat) : (w.irq p' src).hport k = w.hport k := by unfold Work.hport; rw [irq_hawser]
@[simp] theorem hport_irqs (l : List Nat) (src : Nat) (k : Nat) : (w.irqs l src).hport k = w.hport k := by unfold Work.hport; rw [irqs_hawser]
@[simp] theorem hport_count (k' i c' n' : Nat) (k : Nat) : (w.count k' i c' n').hport k = w.hport k := by unfold Work.hport; rw [count_hawser]
@[simp] theorem hport_log (e : LogEvent) (k : Nat) : (w.log e).hport k = w.hport k := by unfold Work.hport; rw [log_hawser]
@[simp] theorem hport_logGap (q : Option Nat) (k : Nat) : (w.logGap q).hport k = w.hport k := by unfold Work.hport; rw [logGap_hawser]

/-! ## bearing -/

@[simp] theorem bearing_commit (s : State) (b : Nat) : (s.commit w).work.bearing b = w.bearing b := rfl
@[simp] theorem bearing_onPort (p' : Nat) (f : Port → Port) (b : Nat) : (w.onPort p' f).bearing b = w.bearing b := rfl
@[simp] theorem bearing_onFunc (f : FuncRef) (g' : Func → Func) (b : Nat) : (w.onFunc f g').bearing b = w.bearing b := rfl
@[simp] theorem bearing_onBerth (b' : Nat) (f : Berth → Berth) (b : Nat) : (w.onBerth b' f).bearing b = w.bearing b := rfl
@[simp] theorem bearing_onRing (b' r' : Nat) (f : Ring → Ring) (b : Nat) : (w.onRing b' r' f).bearing b = w.bearing b := rfl
@[simp] theorem bearing_onTen (f : Tenancy → Tenancy) (b : Nat) : (w.onTen f).bearing b = w.bearing b := rfl
@[simp] theorem bearing_onHelm (f : HelmState → HelmState) (b : Nat) : (w.onHelm f).bearing b = w.bearing b := rfl
@[simp] theorem bearing_onPurser (f : Purser → Purser) (b : Nat) : (w.onPurser f).bearing b = w.bearing b := rfl
@[simp] theorem bearing_onMem (f : MemUnits → MemUnits) (b : Nat) : (w.onMem f).bearing b = w.bearing b := rfl
@[simp] theorem bearing_onBwr (f : Bwr → Bwr) (b : Nat) : (w.onBwr f).bearing b = w.bearing b := rfl
@[simp] theorem bearing_onChart (f : Chart → Chart) (b : Nat) : (w.onChart f).bearing b = w.bearing b := rfl
@[simp] theorem bearing_onFabric (f : Fabric → Fabric) (b : Nat) : (w.onFabric f).bearing b = w.bearing b := rfl
@[simp] theorem bearing_onSite (n' : Nat) (f : Site → Site) (b : Nat) : (w.onSite n' f).bearing b = w.bearing b := rfl
@[simp] theorem bearing_onBoard (f : Board → Board) (b : Nat) : (w.onBoard f).bearing b = w.bearing b := rfl
@[simp] theorem bearing_onBin (f : Bin → Bin) (b : Nat) : (w.onBin f).bearing b = w.bearing b := rfl
@[simp] theorem bearing_onLedger (f : Ledger → Ledger) (b : Nat) : (w.onLedger f).bearing b = w.bearing b := rfl
@[simp] theorem bearing_onStart (f : Start → Start) (b : Nat) : (w.onStart f).bearing b = w.bearing b := rfl
@[simp] theorem bearing_onSvc (f : Svc → Svc) (b : Nat) : (w.onSvc f).bearing b = w.bearing b := rfl
@[simp] theorem bearing_onHawser (f : Hawser → Hawser) (b : Nat) : (w.onHawser f).bearing b = w.bearing b := rfl
@[simp] theorem bearing_onWright (x' : Nat) (f : Wright → Wright) (b : Nat) : (w.onWright x' f).bearing b = w.bearing b := rfl
@[simp] theorem bearing_emit (o : Out) (b : Nat) : (w.emit o).bearing b = w.bearing b := rfl
@[simp] theorem bearing_op (o : MemOp) (b : Nat) : (w.op o).bearing b = w.bearing b := rfl
@[simp] theorem bearing_tlp (p' c' n' : Nat) (b : Nat) : (w.tlp p' c' n').bearing b = w.bearing b := by unfold Work.bearing; rw [tlp_bearings]
@[simp] theorem bearing_poke (a : Nat) (d : List Byte) (b : Nat) : (w.poke a d).bearing b = w.bearing b := by unfold Work.bearing; rw [poke_bearings]
@[simp] theorem bearing_hostWrite (f : FuncRef) (a : Nat) (d : List Byte) (b : Nat) : (w.hostWrite f a d).bearing b = w.bearing b := by unfold Work.bearing; rw [hostWrite_bearings]
@[simp] theorem bearing_raise (f : FuncRef) (v owe : Nat) (b : Nat) : (w.raise f v owe).bearing b = w.bearing b := by unfold Work.bearing; rw [raise_bearings]
@[simp] theorem bearing_irq (p' src : Nat) (b : Nat) : (w.irq p' src).bearing b = w.bearing b := by unfold Work.bearing; rw [irq_bearings]
@[simp] theorem bearing_irqs (l : List Nat) (src : Nat) (b : Nat) : (w.irqs l src).bearing b = w.bearing b := by unfold Work.bearing; rw [irqs_bearings]
@[simp] theorem bearing_count (k' i c' n' : Nat) (b : Nat) : (w.count k' i c' n').bearing b = w.bearing b := by unfold Work.bearing; rw [count_bearings]
@[simp] theorem bearing_log (e : LogEvent) (b : Nat) : (w.log e).bearing b = w.bearing b := by unfold Work.bearing; rw [log_bearings]
@[simp] theorem bearing_logGap (q : Option Nat) (b : Nat) : (w.logGap q).bearing b = w.bearing b := by unfold Work.bearing; rw [logGap_bearings]

/-! ## table -/

@[simp] theorem table_commit (s : State) (t : Nat) : (s.commit w).work.table t = w.table t := rfl
@[simp] theorem table_onPort (p' : Nat) (f : Port → Port) (t : Nat) : (w.onPort p' f).table t = w.table t := rfl
@[simp] theorem table_onFunc (f : FuncRef) (g' : Func → Func) (t : Nat) : (w.onFunc f g').table t = w.table t := rfl
@[simp] theorem table_onBerth (b' : Nat) (f : Berth → Berth) (t : Nat) : (w.onBerth b' f).table t = w.table t := rfl
@[simp] theorem table_onRing (b' r' : Nat) (f : Ring → Ring) (t : Nat) : (w.onRing b' r' f).table t = w.table t := rfl
@[simp] theorem table_onTen (f : Tenancy → Tenancy) (t : Nat) : (w.onTen f).table t = w.table t := rfl
@[simp] theorem table_onHelm (f : HelmState → HelmState) (t : Nat) : (w.onHelm f).table t = w.table t := rfl
@[simp] theorem table_onPurser (f : Purser → Purser) (t : Nat) : (w.onPurser f).table t = w.table t := rfl
@[simp] theorem table_onMem (f : MemUnits → MemUnits) (t : Nat) : (w.onMem f).table t = w.table t := rfl
@[simp] theorem table_onBwr (f : Bwr → Bwr) (t : Nat) : (w.onBwr f).table t = w.table t := rfl
@[simp] theorem table_onChart (f : Chart → Chart) (t : Nat) : (w.onChart f).table t = w.table t := rfl
@[simp] theorem table_onFabric (f : Fabric → Fabric) (t : Nat) : (w.onFabric f).table t = w.table t := rfl
@[simp] theorem table_onSite (n' : Nat) (f : Site → Site) (t : Nat) : (w.onSite n' f).table t = w.table t := rfl
@[simp] theorem table_onBoard (f : Board → Board) (t : Nat) : (w.onBoard f).table t = w.table t := rfl
@[simp] theorem table_onBin (f : Bin → Bin) (t : Nat) : (w.onBin f).table t = w.table t := rfl
@[simp] theorem table_onLedger (f : Ledger → Ledger) (t : Nat) : (w.onLedger f).table t = w.table t := rfl
@[simp] theorem table_onStart (f : Start → Start) (t : Nat) : (w.onStart f).table t = w.table t := rfl
@[simp] theorem table_onSvc (f : Svc → Svc) (t : Nat) : (w.onSvc f).table t = w.table t := rfl
@[simp] theorem table_onHawser (f : Hawser → Hawser) (t : Nat) : (w.onHawser f).table t = w.table t := rfl
@[simp] theorem table_onBearing (b' : Nat) (f : Bearing → Bearing) (t : Nat) : (w.onBearing b' f).table t = w.table t := rfl
@[simp] theorem table_onWright (x' : Nat) (f : Wright → Wright) (t : Nat) : (w.onWright x' f).table t = w.table t := rfl
@[simp] theorem table_emit (o : Out) (t : Nat) : (w.emit o).table t = w.table t := rfl
@[simp] theorem table_op (o : MemOp) (t : Nat) : (w.op o).table t = w.table t := rfl
@[simp] theorem table_tlp (p' c' n' : Nat) (t : Nat) : (w.tlp p' c' n').table t = w.table t := by unfold Work.table; rw [tlp_tables]
@[simp] theorem table_poke (a : Nat) (d : List Byte) (t : Nat) : (w.poke a d).table t = w.table t := by unfold Work.table; rw [poke_tables]
@[simp] theorem table_hostWrite (f : FuncRef) (a : Nat) (d : List Byte) (t : Nat) : (w.hostWrite f a d).table t = w.table t := by unfold Work.table; rw [hostWrite_tables]
@[simp] theorem table_raise (f : FuncRef) (v owe : Nat) (t : Nat) : (w.raise f v owe).table t = w.table t := by unfold Work.table; rw [raise_tables]
@[simp] theorem table_irq (p' src : Nat) (t : Nat) : (w.irq p' src).table t = w.table t := by unfold Work.table; rw [irq_tables]
@[simp] theorem table_irqs (l : List Nat) (src : Nat) (t : Nat) : (w.irqs l src).table t = w.table t := by unfold Work.table; rw [irqs_tables]
@[simp] theorem table_count (k' i c' n' : Nat) (t : Nat) : (w.count k' i c' n').table t = w.table t := by unfold Work.table; rw [count_tables]
@[simp] theorem table_log (e : LogEvent) (t : Nat) : (w.log e).table t = w.table t := by unfold Work.table; rw [log_tables]
@[simp] theorem table_logGap (q : Option Nat) (t : Nat) : (w.logGap q).table t = w.table t := by unfold Work.table; rw [logGap_tables]

/-! ## wright -/

@[simp] theorem wright_commit (s : State) (x : Nat) : (s.commit w).work.wright x = w.wright x := rfl
@[simp] theorem wright_onPort (p' : Nat) (f : Port → Port) (x : Nat) : (w.onPort p' f).wright x = w.wright x := rfl
@[simp] theorem wright_onFunc (f : FuncRef) (g' : Func → Func) (x : Nat) : (w.onFunc f g').wright x = w.wright x := rfl
@[simp] theorem wright_onBerth (b' : Nat) (f : Berth → Berth) (x : Nat) : (w.onBerth b' f).wright x = w.wright x := rfl
@[simp] theorem wright_onRing (b' r' : Nat) (f : Ring → Ring) (x : Nat) : (w.onRing b' r' f).wright x = w.wright x := rfl
@[simp] theorem wright_onTen (f : Tenancy → Tenancy) (x : Nat) : (w.onTen f).wright x = w.wright x := rfl
@[simp] theorem wright_onHelm (f : HelmState → HelmState) (x : Nat) : (w.onHelm f).wright x = w.wright x := rfl
@[simp] theorem wright_onPurser (f : Purser → Purser) (x : Nat) : (w.onPurser f).wright x = w.wright x := rfl
@[simp] theorem wright_onMem (f : MemUnits → MemUnits) (x : Nat) : (w.onMem f).wright x = w.wright x := rfl
@[simp] theorem wright_onBwr (f : Bwr → Bwr) (x : Nat) : (w.onBwr f).wright x = w.wright x := rfl
@[simp] theorem wright_onChart (f : Chart → Chart) (x : Nat) : (w.onChart f).wright x = w.wright x := rfl
@[simp] theorem wright_onFabric (f : Fabric → Fabric) (x : Nat) : (w.onFabric f).wright x = w.wright x := rfl
@[simp] theorem wright_onSite (n' : Nat) (f : Site → Site) (x : Nat) : (w.onSite n' f).wright x = w.wright x := rfl
@[simp] theorem wright_onBoard (f : Board → Board) (x : Nat) : (w.onBoard f).wright x = w.wright x := rfl
@[simp] theorem wright_onBin (f : Bin → Bin) (x : Nat) : (w.onBin f).wright x = w.wright x := rfl
@[simp] theorem wright_onLedger (f : Ledger → Ledger) (x : Nat) : (w.onLedger f).wright x = w.wright x := rfl
@[simp] theorem wright_onStart (f : Start → Start) (x : Nat) : (w.onStart f).wright x = w.wright x := rfl
@[simp] theorem wright_onSvc (f : Svc → Svc) (x : Nat) : (w.onSvc f).wright x = w.wright x := rfl
@[simp] theorem wright_onHawser (f : Hawser → Hawser) (x : Nat) : (w.onHawser f).wright x = w.wright x := rfl
@[simp] theorem wright_onBearing (b' : Nat) (f : Bearing → Bearing) (x : Nat) : (w.onBearing b' f).wright x = w.wright x := rfl
@[simp] theorem wright_emit (o : Out) (x : Nat) : (w.emit o).wright x = w.wright x := rfl
@[simp] theorem wright_op (o : MemOp) (x : Nat) : (w.op o).wright x = w.wright x := rfl
@[simp] theorem wright_tlp (p' c' n' : Nat) (x : Nat) : (w.tlp p' c' n').wright x = w.wright x := by unfold Work.wright; rw [tlp_wrights]
@[simp] theorem wright_poke (a : Nat) (d : List Byte) (x : Nat) : (w.poke a d).wright x = w.wright x := by unfold Work.wright; rw [poke_wrights]
@[simp] theorem wright_hostWrite (f : FuncRef) (a : Nat) (d : List Byte) (x : Nat) : (w.hostWrite f a d).wright x = w.wright x := by unfold Work.wright; rw [hostWrite_wrights]
@[simp] theorem wright_raise (f : FuncRef) (v owe : Nat) (x : Nat) : (w.raise f v owe).wright x = w.wright x := by unfold Work.wright; rw [raise_wrights]
@[simp] theorem wright_irq (p' src : Nat) (x : Nat) : (w.irq p' src).wright x = w.wright x := by unfold Work.wright; rw [irq_wrights]
@[simp] theorem wright_irqs (l : List Nat) (src : Nat) (x : Nat) : (w.irqs l src).wright x = w.wright x := by unfold Work.wright; rw [irqs_wrights]
@[simp] theorem wright_count (k' i c' n' : Nat) (x : Nat) : (w.count k' i c' n').wright x = w.wright x := by unfold Work.wright; rw [count_wrights]
@[simp] theorem wright_log (e : LogEvent) (x : Nat) : (w.log e).wright x = w.wright x := by unfold Work.wright; rw [log_wrights]
@[simp] theorem wright_logGap (q : Option Nat) (x : Nat) : (w.logGap q).wright x = w.wright x := by unfold Work.wright; rw [logGap_wrights]

/-! ## now -/

@[simp] theorem now_commit (s : State)  : (s.commit w).work.now = w.now := rfl
@[simp] theorem now_onPort (p' : Nat) (f : Port → Port)  : (w.onPort p' f).now = w.now := rfl
@[simp] theorem now_onFunc (f : FuncRef) (g' : Func → Func)  : (w.onFunc f g').now = w.now := rfl
@[simp] theorem now_onBerth (b' : Nat) (f : Berth → Berth)  : (w.onBerth b' f).now = w.now := rfl
@[simp] theorem now_onRing (b' r' : Nat) (f : Ring → Ring)  : (w.onRing b' r' f).now = w.now := rfl
@[simp] theorem now_onTen (f : Tenancy → Tenancy)  : (w.onTen f).now = w.now := rfl
@[simp] theorem now_onHelm (f : HelmState → HelmState)  : (w.onHelm f).now = w.now := rfl
@[simp] theorem now_onPurser (f : Purser → Purser)  : (w.onPurser f).now = w.now := rfl
@[simp] theorem now_onMem (f : MemUnits → MemUnits)  : (w.onMem f).now = w.now := rfl
@[simp] theorem now_onBwr (f : Bwr → Bwr)  : (w.onBwr f).now = w.now := rfl
@[simp] theorem now_onChart (f : Chart → Chart)  : (w.onChart f).now = w.now := rfl
@[simp] theorem now_onFabric (f : Fabric → Fabric)  : (w.onFabric f).now = w.now := rfl
@[simp] theorem now_onSite (n' : Nat) (f : Site → Site)  : (w.onSite n' f).now = w.now := rfl
@[simp] theorem now_onBoard (f : Board → Board)  : (w.onBoard f).now = w.now := rfl
@[simp] theorem now_onBin (f : Bin → Bin)  : (w.onBin f).now = w.now := rfl
@[simp] theorem now_onLedger (f : Ledger → Ledger)  : (w.onLedger f).now = w.now := rfl
@[simp] theorem now_onStart (f : Start → Start)  : (w.onStart f).now = w.now := rfl
@[simp] theorem now_onSvc (f : Svc → Svc)  : (w.onSvc f).now = w.now := rfl
@[simp] theorem now_onHawser (f : Hawser → Hawser)  : (w.onHawser f).now = w.now := rfl
@[simp] theorem now_onBearing (b' : Nat) (f : Bearing → Bearing)  : (w.onBearing b' f).now = w.now := rfl
@[simp] theorem now_onWright (x' : Nat) (f : Wright → Wright)  : (w.onWright x' f).now = w.now := rfl
@[simp] theorem now_emit (o : Out)  : (w.emit o).now = w.now := rfl
@[simp] theorem now_op (o : MemOp)  : (w.op o).now = w.now := rfl
@[simp] theorem now_tlp (p' c' n' : Nat)  : (w.tlp p' c' n').now = w.now := by unfold Work.now; rw [tlp_now]
@[simp] theorem now_poke (a : Nat) (d : List Byte)  : (w.poke a d).now = w.now := by unfold Work.now; rw [poke_now]
@[simp] theorem now_hostWrite (f : FuncRef) (a : Nat) (d : List Byte)  : (w.hostWrite f a d).now = w.now := by unfold Work.now; rw [hostWrite_now]
@[simp] theorem now_raise (f : FuncRef) (v owe : Nat)  : (w.raise f v owe).now = w.now := by unfold Work.now; rw [raise_now]
@[simp] theorem now_irq (p' src : Nat)  : (w.irq p' src).now = w.now := by unfold Work.now; rw [irq_now]
@[simp] theorem now_irqs (l : List Nat) (src : Nat)  : (w.irqs l src).now = w.now := by unfold Work.now; rw [irqs_now]
@[simp] theorem now_count (k' i c' n' : Nat)  : (w.count k' i c' n').now = w.now := by unfold Work.now; rw [count_now]
@[simp] theorem now_log (e : LogEvent)  : (w.log e).now = w.now := by unfold Work.now; rw [log_now]
@[simp] theorem now_logGap (q : Option Nat)  : (w.logGap q).now = w.now := by unfold Work.now; rw [logGap_now]

/-! ## The record that an update changes -/

@[simp] theorem site_onSite (n : Nat) (f : Site → Site) : (w.onSite n f).site n = f (w.site n) := tget_tmod_self _ _ _ _
theorem site_onSite_ne {n m : Nat} (f : Site → Site) (h : m ≠ n) : (w.onSite n f).site m = w.site m := tget_tmod_ne _ _ _ h
@[simp] theorem port_onPort (p : Nat) (f : Port → Port) : (w.onPort p f).port p = f (w.port p) := tget_tmod_self _ _ _ _
theorem port_onPort_ne {p q : Nat} (f : Port → Port) (h : q ≠ p) : (w.onPort p f).port q = w.port q := tget_tmod_ne _ _ _ h
@[simp] theorem berth_onBerth (b : Nat) (f : Berth → Berth) : (w.onBerth b f).berth b = f (w.berth b) := tget_tmod_self _ _ _ _
theorem berth_onBerth_ne {b c : Nat} (f : Berth → Berth) (h : c ≠ b) : (w.onBerth b f).berth c = w.berth c := tget_tmod_ne _ _ _ h
@[simp] theorem berth_onRing (b r c : Nat) (f : Ring → Ring) : (w.onRing b r f).berth c = w.berth c := rfl
@[simp] theorem pool_onRing (b r p : Nat) (f : Ring → Ring) : (w.onRing b r f).pool p = w.pool p := rfl
@[simp] theorem mgr_onRing (b r p : Nat) (f : Ring → Ring) : (w.onRing b r f).mgr p = w.mgr p := rfl
@[simp] theorem pool_onBerth (b p : Nat) (f : Berth → Berth) : (w.onBerth b f).pool p = w.pool p := rfl
@[simp] theorem mgr_onBerth (b p : Nat) (f : Berth → Berth) : (w.onBerth b f).mgr p = w.mgr p := rfl
@[simp] theorem ring_onBerth (b c r : Nat) (f : Berth → Berth) : (w.onBerth b f).ring c r = w.ring c r := rfl
@[simp] theorem ring_onRing (b r : Nat) (f : Ring → Ring) : (w.onRing b r f).ring b r = f (w.ring b r) := tget_tmod_self _ _ _ _
@[simp] theorem bearing_onBearing (b : Nat) (f : Bearing → Bearing) : (w.onBearing b f).bearing b = f (w.bearing b) := tget_tmod_self _ _ _ _
theorem bearing_onBearing_ne {b c : Nat} (f : Bearing → Bearing) (h : c ≠ b) : (w.onBearing b f).bearing c = w.bearing c := tget_tmod_ne _ _ _ h
@[simp] theorem wright_onWright (x : Nat) (f : Wright → Wright) : (w.onWright x f).wright x = f (w.wright x) := tget_tmod_self _ _ _ _
theorem wright_onWright_ne {x y : Nat} (f : Wright → Wright) (h : y ≠ x) : (w.onWright x f).wright y = w.wright y := tget_tmod_ne _ _ _ h
@[simp] theorem channel_onChannel (c : Nat) (f : Channel → Channel) : (w.onChannel c f).channel c = f (w.channel c) := tget_tmod_self _ _ _ _
theorem channel_onChannel_ne {c d : Nat} (f : Channel → Channel) (h : d ≠ c) : (w.onChannel c f).channel d = w.channel d := tget_tmod_ne _ _ _ h
@[simp] theorem hport_onHPort (k : Nat) (f : HPort → HPort) : (w.onHPort k f).hport k = f (w.hport k) := tget_tmod_self _ _ _ _
theorem hport_onHPort_ne {k j : Nat} (f : HPort → HPort) (h : j ≠ k) : (w.onHPort k f).hport j = w.hport j := tget_tmod_ne _ _ _ h
@[simp] theorem mark_onMark (m : Nat) (f : Mark → Mark) : (w.onMark m f).mark m = f (w.mark m) := tget_tmod_self _ _ _ _
@[simp] theorem gate_onGate (g : Nat) (f : HGate → HGate) : (w.onGate g f).gate g = f (w.gate g) := tget_tmod_self _ _ _ _
@[simp] theorem sem_onSem (k : Nat) (f : Sem → Sem) : (w.onSem k f).sem k = f (w.sem k) := tget_tmod_self _ _ _ _
@[simp] theorem func_onFunc (f : FuncRef) (g : Func → Func) : (w.onFunc f g).func f = g (w.func f) := by
  unfold Work.func Work.onFunc
  rw [port_onPort]
  exact tget_tmod_self _ _ _ _

end Sys2Proof.Machine
end

