-- ==== Sys2Proof/Laws/Catalogue.lean ====
section
/-! SUPPORT. What the shared operation of the catalogue operators can do, said once: an operator that may issue gives its results. -/

namespace Sys2Proof.Machine

theorem putLocal_run (m : Wright) (p n c : Nat) : (putLocal m p n c).run = m.run := rfl
theorem localWrite_run (m : Wright) (a : Nat) (d : List Byte) (b : Bool) : (localWrite m a d b).run = m.run := rfl

/-- Results leave the run as it is. -/
@[simp] theorem applyOut_run (m : Wright) (o : OpOut) (l : Option Nat) : (applyOut m o l).run = m.run := by
  have h1 : ∀ (ws : List (Nat × Nat × Nat × Nat)) (m : Wright), (ws.foldl (fun m (p, n, c, _) => putLocal m p n c) m).run = m.run := by
    intro ws; induction ws with
    | nil => intro m; rfl
    | cons a l ih => intro m; rw [List.foldl_cons, ih]; rfl
  have h2 : ∀ (ws : List (Nat × List Byte × Bool × Nat)) (m : Wright), (ws.foldl (fun m (a, d, b, _) => localWrite m a d b) m).run = m.run := by
    intro ws; induction ws with
    | nil => intro m; rfl
    | cons a l ih => intro m; rw [List.foldl_cons, ih]; rfl
  unfold applyOut
  dsimp only
  rw [h2]
  dsimp only
  rw [h1]

/-- From one work to the next memory is as it was. -/
def SameMem (w w' : Work) : Prop := w'.mem = w.mem ∧ w'.writes = w.writes

theorem SameMem.trans {a b c : Work} (h : SameMem a b) (k : SameMem b c) : SameMem a c := ⟨k.1.trans h.1, k.2.trans h.2⟩

theorem sendVector_mem (w : Work) (f : FuncRef) (v owe : Nat) : SameMem w (w.sendVector f v owe) := by
  unfold Work.sendVector
  dsimp only
  repeat' split
  all_goals exact ⟨rfl, rfl⟩

theorem raise_mem (w : Work) (f : FuncRef) (v owe : Nat) : SameMem w (w.raise f v owe) := by
  unfold Work.raise
  dsimp only
  split
  · exact SameMem.trans ⟨rfl, rfl⟩ (sendVector_mem _ _ _ _)
  · exact SameMem.trans ⟨rfl, rfl⟩ (sendVector_mem _ _ _ _)

theorem irqs_mem (l : List Nat) (w : Work) (src : Nat) : SameMem w (w.irqs l src) := by
  unfold Work.irqs
  induction l generalizing w with
  | nil => exact ⟨rfl, rfl⟩
  | cons p l ih => exact SameMem.trans (raise_mem w _ _ _) (ih _)

/-- Counting leaves memory as it is. -/
theorem count_mem (w : Work) (k i c n : Nat) : SameMem w (w.count k i c n) := by
  unfold Work.count
  dsimp only
  split
  · exact ⟨rfl, rfl⟩
  · split
    · exact SameMem.trans ⟨rfl, rfl⟩ (irqs_mem _ _ _)
    · exact ⟨rfl, rfl⟩

/-- From one work to the next only the engines, the tenancy records, the free values taken and what reports change have changed, memory not. -/
structure EngineOnly (w w' : Work) : Prop where
  mem : SameMem w w'
  hub : quietHub w'.hub = quietHub { w.hub with wrights := w'.hub.wrights, ten := w'.hub.ten, free := w'.hub.free }

theorem EngineOnly.trans {a b c : Work} (h : EngineOnly a b) (k : EngineOnly b c) : EngineOnly a c := by
  refine ⟨h.mem.trans k.mem, ?_⟩
  have e := h.hub
  have f := k.hub
  simp only [quietHub, Hub.mk.injEq] at e f ⊢
  simp_all

theorem EngineOnly.ofReports {w w' : Work} (h : Reports w w') (m : SameMem w w') : EngineOnly w w' := by
  refine ⟨m, ?_⟩
  have e := h
  simp only [Reports, quietHub, Hub.mk.injEq] at e ⊢
  simp_all

theorem EngineOnly.onWright (w : Work) (x : Nat) (f : Wright → Wright) : EngineOnly w (w.onWright x f) := ⟨⟨rfl, rfl⟩, rfl⟩
theorem EngineOnly.onRun (w : Work) (x : Nat) (f : Run → Run) : EngineOnly w (w.onRun x f) := ⟨⟨rfl, rfl⟩, rfl⟩
theorem EngineOnly.nextStep (w : Work) (x : Nat) : EngineOnly w (w.nextStep x) := ⟨⟨rfl, rfl⟩, rfl⟩
theorem EngineOnly.viewCount (w : Work) (b i n : Nat) : EngineOnly w (w.viewCount b i n) := ⟨⟨rfl, rfl⟩, rfl⟩
theorem EngineOnly.count (w : Work) (k i c n : Nat) : EngineOnly w (w.count k i c n) := .ofReports (count_reports _ _ _ _ _) (count_mem _ _ _ _ _)

theorem EngineOnly.stallCount (w : Work) (x c : Nat) : EngineOnly w (w.stallCount x c) := by
  exact EngineOnly.trans (b := w.fresh.2) ⟨⟨rfl, rfl⟩, rfl⟩ (.count _ _ _ _ _)

/-- Counting stalls leaves every engine as it is. -/
@[simp] theorem Work.stallCount_wright (w : Work) (x c y : Nat) : (w.stallCount x c).wright y = w.wright y := by
  unfold Work.stallCount
  simp
  rfl

/-- An operator that may issue, is free, starts no access and fails no check twice gives its results (R199, R209, R242). -/
theorem runOp_gives {s : State} {ev : OpEvent} {op : Nat} {f : Op → OpOut} {r : Run} (h : s.CanIssue ev.engine op r) (ht : ev.twice = none)
    (ha : (f (s.opAt ev r)).access = none) (hf : s.Free ev r (f (s.opAt ev r))) :
    s.Gives (s.commit (s.work.runOp ev op f)) ev r (f (s.opAt ev r)) := by
  obtain ⟨h1, h2, h3, h4⟩ := h
  obtain ⟨f1, f2, f3⟩ := hf
  generalize ho : f (s.opAt ev r) = o at *
  have e : s.work.runOp ev op f = ((((((((((s.work.onWright ev.engine fun m => applyOut (struck m ev) o none).onRun ev.engine fun r =>
            { r with params := o.params.foldl (fun ps (i, v) => ps.set i v) r.params, bounds := min 0xFFFF (r.bounds + o.bounds) }).count 2 ev.engine 15 o.issued).count 2 ev.engine 16 (b2n o.tileSkipped)).count 2 ev.engine 17 o.skipped).viewCount r.launch.berth 0 o.issued).viewCount r.launch.berth 1 (b2n o.tileSkipped + o.skipped)).count 2 ev.engine 22 ev.once.length).count 2 ev.engine 23 ev.corrected).stallCount ev.engine 18).nextStep ev.engine := by
    unfold Work.runOp Work.stepGo
    simp only [h1, h2, h3, h4, decide_true, Bool.and_true, if_true]
    have e1 : ({ m := struck (s.work.wright ev.engine) ev, r := r, st := curStep r } : Op) = s.opAt ev r := rfl
    have e2 (a n : Nat) : pendIn (struck (s.work.wright ev.engine) ev) a n = pendIn (s.work.wright ev.engine) a n := rfl
    have e3 : (struck (s.work.wright ev.engine) ev).pend = (s.work.wright ev.engine).pend := rfl
    simp only [e1, f1, ho, Bool.not_true, Bool.false_eq_true, if_false]
    simp only [e2, e3, f2, f3, ha, ht, Bool.or_self, Bool.false_eq_true, if_false]
  have k : EngineOnly s.work (s.work.runOp ev op f) := by
    rw [e]
    refine EngineOnly.trans ?_ (.nextStep _ _)
    refine EngineOnly.trans ?_ (.stallCount _ _ _)
    refine EngineOnly.trans ?_ (.count _ _ _ _ _)
    refine EngineOnly.trans ?_ (.count _ _ _ _ _)
    refine EngineOnly.trans ?_ (.viewCount _ _ _ _)
    refine EngineOnly.trans ?_ (.viewCount _ _ _ _)
    refine EngineOnly.trans ?_ (.count _ _ _ _ _)
    refine EngineOnly.trans ?_ (.count _ _ _ _ _)
    refine EngineOnly.trans ?_ (.count _ _ _ _ _)
    exact EngineOnly.trans (.onWright _ _ _) (.onRun _ _ _)
  refine ⟨?_, ?_, rfl, k.hub⟩
  · rw [e]
    have e4 : (struck (s.work.wright ev.engine) ev).run = some r := h1
    simp [Work.nextStep, Work.onRun, e4, Work.viewCount, h2]
  · show s.mem.applyAll _ = s.mem
    rw [k.mem.2]; rfl

end Sys2Proof.Machine
end

