-- ==== Sys2Proof/Laws/Shared.lean ====
section
/-! SUPPORT. What the shared operations can do, said once each: holding an operation of the Helm, putting a request on the fabric, a source's turn, and a request at its controller. -/

namespace Sys2Proof.Machine

/-- Holding an operation of the Helm changes nothing but what is held (R559). -/
theorem helmHold_hub (w : Work) (o : HelmOp) : (w.helmHold o).hub = { w.hub with helm := { w.hub.helm with held := w.hub.helm.held ++ [o] } } := rfl
@[simp] theorem helmHold_mem (w : Work) (o : HelmOp) : (w.helmHold o).mem = w.mem := rfl
@[simp] theorem helmHold_writes (w : Work) (o : HelmOp) : (w.helmHold o).writes = w.writes := rfl

/-- While the Helm's microcode is replaced an addition is held and answers no cause (R559). -/
theorem markAdd_paused {w : Work} (b m v : Nat) (h : w.helmPaused = true) : w.markAdd b m v = (0, w.helmHold (.add b m v)) := by
  simp [Work.markAdd, h]

/-- An addition for a berth that does not hold the mark fails and leaves every mark as it is to the error's report (R245). -/
theorem markAdd_denied {w : Work} {b m v : Nat} (h : w.helmPaused = false) (hb : w.holder 2 m ≠ some b) : w.markAdd b m v = (2, w.helmError b m 2) := by
  simp [Work.markAdd, h, hb]

/-- A source whose pieces all lack room, one with no pieces among them, issues nothing (R339). -/
theorem pumpSource_full {w : Work} {a : Agent} (h : ∀ p ∈ w.hub.fabric.todo, p.agent = a → w.sourceFull p = true) : w.pumpSource a = w := by
  refine each_fixed _ _ _ fun p hp => ?_
  rw [List.mem_filter] at hp
  simp [h p hp.1 (by simpa using hp.2)]

/-! ## A request at its controller (R315, R317, R339) -/

/-- A request that the checks refuse is taken out and answered. -/
theorem atController_refused {w : Work} {id err s d : Nat} {r : MemReq} (h : w.refuses r = some (s, d)) :
    w.atController id err r
      = (((((w.onFabric fun f => { f with reqs := tdel f.reqs id }).bmeCount r.dpa s).ungrant r).answer { r with grant := 0 } s d none).drainState r.dpa) := by
  simp [Work.atController, h]

/-- A request that finds no room stays where it is. -/
theorem atController_noRoom {w : Work} {id err : Nat} {r : MemReq} (h : w.refuses r = none) (hq : r.queued = none) (hr : w.hasRoom r = false) :
    w.atController id err r = w := by
  simp [Work.atController, h, hq, hr]

/-- A queued request whose memory is busy, or before which another goes, waits. -/
theorem atController_waits {w v : Work} {id err : Nat} {r q : MemReq} (h : w.refuses r = none) (hr : r.queued.isSome ∨ w.hasRoom r = true)
    (he : w.enqueue id r = (q, v)) (hw : v.memBusy q.dpa = true ∨ v.isNext q = false) : w.atController id err r = v := by
  have hc : (r.queued.isNone && !w.hasRoom r) = false := by rcases hr with hr | hr <;> cases hq : r.queued <;> simp_all
  have hd : (v.memBusy q.dpa || !v.isNext q) = true := by rcases hw with hw | hw <;> simp [hw]
  simp [Work.atController, h, hc, he, hd]

/-- A queued request whose turn it is is performed, once its access meets no error that stops it. -/
theorem atController_goes {w v u : Work} {id err : Nat} {r q : MemReq} (h : w.refuses r = none) (hr : r.queued.isSome ∨ w.hasRoom r = true)
    (he : w.enqueue id r = (q, v)) (hb : v.memBusy q.dpa = false) (hn : v.isNext q = true) (ha : v.accessError q err = (true, u)) :
    w.atController id err r = (((u.takeTurn q).onFabric fun f => { f with reqs := tdel f.reqs id }).perform q).drainState q.dpa := by
  have hc : (r.queued.isNone && !w.hasRoom r) = false := by rcases hr with hr | hr <;> cases hq : r.queued <;> simp_all
  simp [Work.atController, h, hc, he, hb, hn, ha]

end Sys2Proof.Machine
end

