-- ==== Sys2Proof/Laws/Site.lean ====
section
/-! SUPPORT. What the shared operations of a site can do, said once: sending into its stream, asking for a reset, powering off, the absence of a site. -/

namespace Sys2Proof.Machine

/-- From one link to the next only what sending frames changes has changed: what waits, the streams' counts, and of each bundle the retry buffer, the next number and the acknowledgement owed. -/
structure LinkSends (l l' : Link) : Prop where
  rest : l' = { l with bundles := l'.bundles, resend := l'.resend, txQueue := l'.txQueue, txSseq := l'.txSseq, txTurn := l'.txTurn, dataTimes := l'.dataTimes }
  length : l'.bundles.length = l.bundles.length
  bundle : ∀ k, l'.bundles.getD k {} =
    { l.bundles.getD k {} with retry := (l'.bundles.getD k {}).retry, nextBseq := (l'.bundles.getD k {}).nextBseq, ackOwed := (l'.bundles.getD k {}).ackOwed }

theorem LinkSends.refl (l : Link) : LinkSends l l := ⟨rfl, rfl, fun _ => rfl⟩

theorem LinkSends.trans {a b c : Link} (h : LinkSends a b) (k : LinkSends b c) : LinkSends a c :=
  ⟨by rw [k.rest, h.rest], k.length.trans h.length, fun i => by rw [k.bundle i, h.bundle i]⟩

theorem LinkSends.fields {l l' : Link} (h : LinkSends l l') :
    l'.step = l.step ∧ l'.limp = l.limp ∧ l'.limpTx = l.limpTx ∧ l'.limpRx = l.limpRx ∧ l'.limpDir = l.limpDir ∧ l'.limpCause = l.limpCause
      ∧ l'.wireDone = l.wireDone ∧ l'.wireGot = l.wireGot ∧ l'.rxSseq = l.rxSseq ∧ l'.rxHeld = l.rxHeld ∧ l'.rxBytes = l.rxBytes := by
  rw [h.rest]; simp

/-- From one work to the next only the link of a site has changed, as sending frames changes it, and emissions. -/
structure Sends (n : Nat) (w w' : Work) : Prop where
  mem : w'.mem = w.mem
  writes : w'.writes = w.writes
  hub : w'.hub = { w.hub with sites := w'.hub.sites, sent := w'.hub.sent }
  other : ∀ m, m ≠ n → w'.site m = w.site m
  site : w'.site n = { w.site n with link := (w'.site n).link }
  link : LinkSends (w.site n).link (w'.site n).link

theorem Sends.refl (n : Nat) (w : Work) : Sends n w w := ⟨rfl, rfl, rfl, fun _ _ => rfl, rfl, .refl _⟩

theorem Sends.trans {n : Nat} {a b c : Work} (h : Sends n a b) (k : Sends n b c) : Sends n a c :=
  ⟨k.mem.trans h.mem, k.writes.trans h.writes, by rw [k.hub, h.hub], fun m e => (k.other m e).trans (h.other m e),
    by rw [k.site, h.site], h.link.trans k.link⟩

theorem Sends.each {n : Nat} {α : Type} (l : List α) (f : α → Work → Work) (w : Work) (hf : ∀ a w, Sends n w (f a w)) : Sends n w (each l f w) := by
  induction l generalizing w with
  | nil => exact .refl n w
  | cons a l ih => exact (hf a w).trans (ih _)

/-- A change of a site's link that is one of sending frames. -/
theorem Sends.ofLink (n : Nat) (w : Work) (f : Link → Link) (h : LinkSends (w.site n).link (f (w.site n).link)) : Sends n w (w.onLink n f) where
  mem := rfl
  writes := rfl
  hub := rfl
  other m e := by simp [Work.onLink, site_onSite_ne, e]
  site := by simp [Work.onLink]
  link := by simpa [Work.onLink] using h

theorem Sends.ofEmit (n : Nat) (w : Work) (o : Out) : Sends n w (w.emit o) :=
  ⟨rfl, rfl, rfl, fun _ _ => rfl, rfl, .refl _⟩

theorem getD_modify {α : Type} (l : List α) (i k : Nat) (f : α → α) (d : α) (h : f d = d ∨ i < l.length) :
    (l.modify i f).getD k d = if i = k then f (l.getD k d) else l.getD k d := by
  by_cases e : i = k
  · subst e
    by_cases g : i < l.length
    · simp [List.getD, g]
    · simp only [List.getD, List.getElem?_modify, if_true]
      have : l[i]? = none := by simp; omega
      simp [this, h.resolve_right g]
  · simp [List.getD, e]

/-- A bundle's change, as the others read it and, within the list, as it reads itself. -/
theorem bundle_modify (bs : List Bundle) (i k : Nat) (f : Bundle → Bundle) :
    (bs.modify i f).getD k {} = if i = k ∧ k < bs.length then f (bs.getD k {}) else bs.getD k {} := by
  by_cases e : i = k
  · subst e
    by_cases g : i < bs.length
    · simp [List.getD, g]
    · simp [List.getD, g]
  · simp [List.getD, e]

theorem Sends.ofBundle (n : Nat) (w : Work) (k : Nat) (f : Bundle → Bundle)
    (h : ∀ b, f b = { b with retry := (f b).retry, nextBseq := (f b).nextBseq, ackOwed := (f b).ackOwed }) : Sends n w (w.onBundle n k f) := by
  refine Sends.ofLink n w _ ⟨rfl, by simp, fun i => ?_⟩
  simp only [bundle_modify]
  split
  · exact h _
  · rfl

theorem putFrame_sends (w : Work) (n k : Nat) (f : TxFrame) : Sends n w (w.putFrame n k f) := by
  unfold Work.putFrame
  refine Sends.trans ?_ (Sends.ofEmit n _ _)
  split
  · exact Sends.ofBundle n w _ _ fun _ => rfl
  · exact .refl n w

/-- Placing a frame sends one, or changes nothing. -/
theorem placeFrame_sends (w : Work) (n sseq : Nat) (p : List Byte) (f : Link → Link)
    (hf : ∀ l t, LinkSends l { f l with txTurn := t }) : Sends n w (w.placeFrame n sseq p f) := by
  unfold Work.placeFrame
  dsimp only
  split
  · exact .refl n w
  · refine Sends.trans (Sends.trans (Sends.trans (Sends.ofLink n w _ (hf _ _)) (Sends.ofBundle n _ _ _ fun _ => rfl)) (Sends.ofLink n _ _ ⟨rfl, rfl, fun _ => rfl⟩)) (putFrame_sends _ _ _ _)

theorem drainTx_sends (n fuel : Nat) (w : Work) : Sends n w (w.drainTx n fuel) := by
  induction fuel generalizing w with
  | zero => exact .refl n w
  | succ fuel ih =>
    unfold Work.drainTx
    dsimp only
    split
    · exact .refl n w
    · split
      · refine Sends.trans ?_ (ih _)
        apply placeFrame_sends
        intro l t
        exact ⟨rfl, rfl, fun _ => rfl⟩
      · split
        · refine Sends.trans ?_ (ih _)
          apply placeFrame_sends
          intro l t
          exact ⟨rfl, rfl, fun _ => rfl⟩
        · exact .refl n w
      · exact .refl n w

theorem flush_sends (w : Work) (n : Nat) : Sends n w (w.flush n) := drainTx_sends _ _ _

/-- A message into a site's stream. -/
theorem siteSend_sends (w : Work) (n : Nat) (m : List Byte) : Sends n w (w.siteSend n m) := by
  unfold Work.siteSend
  split
  · exact .refl n w
  · exact (Sends.ofLink n w _ ⟨rfl, rfl, fun _ => rfl⟩).trans (flush_sends _ _)

/-! ## What sending leaves, block by block -/

section
variable {n : Nat} {w w' : Work} (h : Sends n w w')
include h
theorem Sends.bundle (k : Nat) : w'.bundle n k =
    { w.bundle n k with retry := (w'.bundle n k).retry, nextBseq := (w'.bundle n k).nextBseq, ackOwed := (w'.bundle n k).ackOwed } := h.link.bundle k
theorem Sends.port : (w'.site n).port = (w.site n).port := by rw [h.site]
theorem Sends.power : (w'.site n).power = (w.site n).power := by rw [h.site]
theorem Sends.state : (w'.site n).state = (w.site n).state := by rw [h.site]
theorem Sends.cause : (w'.site n).cause = (w.site n).cause := by rw [h.site]
theorem Sends.serving : siteServing (w'.site n) = siteServing (w.site n) := by unfold siteServing; rw [h.state]
theorem Sends.step : (w'.site n).link.step = (w.site n).link.step := h.link.fields.1
theorem Sends.up : streamUp (w'.site n) = streamUp (w.site n) := by unfold streamUp; rw [h.serving, h.state, h.step]
theorem Sends.limp : (w'.site n).link.limp = (w.site n).link.limp := h.link.fields.2.1
end

/-! ## Resets and rails -/

@[simp] theorem siteReset_site (w : Work) (n : Nat) : (w.siteReset n).site n = { w.site n with power := { (w.site n).power with rstN := false } } := by
  unfold Work.siteReset; split
  · simp [Work.onSPower, Work.sitePin]
  · rename_i h; simp at h; rw [← h]

theorem siteReset_site_ne (w : Work) {n m : Nat} (h : m ≠ n) : (w.siteReset n).site m = w.site m := by
  unfold Work.siteReset; split
  · simp [Work.onSPower, Work.sitePin, site_onSite_ne, h]
  · rfl

@[simp] theorem sitePowerOff_site (w : Work) (n : Nat) : (w.sitePowerOff n).site n = { w.site n with power := { (w.site n).power with pwrEn := false } } := by
  unfold Work.sitePowerOff; split
  · simp [Work.onSPower, Work.sitePin]
  · rename_i h; simp at h; rw [← h]

theorem sitePowerOff_site_ne (w : Work) {n m : Nat} (h : m ≠ n) : (w.sitePowerOff n).site m = w.site m := by
  unfold Work.sitePowerOff; split
  · simp [Work.onSPower, Work.sitePin, site_onSite_ne, h]
  · rfl

/-- An absent site: state, cause, fresh link and port, in reset and without its rail (R35, R66). -/
theorem siteAbsent_site (w : Work) (n c : Nat) (h : (w.site n).inEntry = none) :
    (w.siteAbsent n c).site n = { w.site n with state := 0, cause := c, link := {}, port := freshPort (w.site n).port, power := { (w.site n).power with rstN := false, pwrEn := false }, inEntry := none } := by
  unfold Work.siteAbsent
  simp [h, Work.completeOpt, Work.siteLog]

/-! ## Notices, and dead-agent handling -/

/-- A site's record without its link. -/
def bareSite (s : Site) : Site := { s with link := {} }

theorem Sends.bare {n : Nat} {w w' : Work} (h : Sends n w w') (m : Nat) : bareSite (w'.site m) = bareSite (w.site m) := by
  by_cases e : m = n
  · subst e; rw [h.site]; rfl
  · rw [h.other m e]

theorem Sends.ledger {n : Nat} {w w' : Work} (h : Sends n w w') : w'.hub.ledger = w.hub.ledger := by rw [h.hub]

theorem notify_bare (w : Work) (p : Party) (c v m : Nat) : bareSite ((w.notify p c v).site m) = bareSite (w.site m) := by
  cases p with
  | site n tag b => exact (siteSend_sends _ _ _).bare m
  | _ => simp [Work.notify]

theorem notify_ledger (w : Work) (p : Party) (c v : Nat) : (w.notify p c v).hub.ledger = w.hub.ledger := by
  cases p with
  | site n tag b => exact (siteSend_sends _ _ _).ledger
  | _ => rfl

theorem tellWaiter_bare (w : Work) (x : Waiter) (c v m : Nat) : bareSite ((w.tellWaiter x c v).site m) = bareSite (w.site m) := by
  unfold Work.tellWaiter
  split
  · exact notify_bare _ _ _ _ _
  · rfl

theorem tellWaiter_ledger (w : Work) (x : Waiter) (c v : Nat) : (w.tellWaiter x c v).hub.ledger = w.hub.ledger := by
  unfold Work.tellWaiter
  split
  · exact notify_ledger _ _ _ _
  · rfl

theorem spillOut_bare (w : Work) (l : List SpillRead) (m : Nat) : bareSite ((w.spillOut l).site m) = bareSite (w.site m) := by
  induction l generalizing w with
  | nil => rfl
  | cons x l ih =>
    unfold Work.spillOut
    split
    · rw [ih, notify_bare]
    · rfl

theorem spillOut_ledger (w : Work) (l : List SpillRead) : (w.spillOut l).hub.ledger = w.hub.ledger := by
  induction l generalizing w with
  | nil => rfl
  | cons x l ih =>
    unfold Work.spillOut
    split
    · rw [ih, notify_ledger]
    · rfl

theorem serveSem_bare (w : Work) (s fuel m : Nat) : bareSite ((w.serveSem s fuel).site m) = bareSite (w.site m) := by
  induction fuel generalizing w with
  | zero => rfl
  | succ fuel ih =>
    unfold Work.serveSem
    split
    · rfl
    · dsimp only
      split <;> split <;> first | rfl | (rw [ih, tellWaiter_bare]; rfl)

theorem serveSem_ledger (w : Work) (s fuel : Nat) : (w.serveSem s fuel).hub.ledger = w.hub.ledger := by
  induction fuel generalizing w with
  | zero => rfl
  | succ fuel ih =>
    unfold Work.serveSem
    split
    · rfl
    · dsimp only
      split <;> split <;> first | rfl | (rw [ih, tellWaiter_ledger]; rfl)

theorem withdrawSite_bare (w : Work) (n m : Nat) : bareSite ((w.withdrawSite n).site m) = bareSite (w.site m) := by
  unfold Work.withdrawSite Work.withdrawWaits
  dsimp only
  rw [each_same (fun w : Work => bareSite (w.site m)) _ _ _ fun _ _ => serveSem_bare _ _ _ m, spillOut_bare]
  rfl

theorem withdrawSite_ledger (w : Work) (n : Nat) : (w.withdrawSite n).hub.ledger = w.hub.ledger := by
  unfold Work.withdrawSite Work.withdrawWaits
  dsimp only
  rw [each_same (fun w : Work => w.hub.ledger) _ _ _ fun _ _ => serveSem_ledger _ _ _, spillOut_ledger]
  rfl

/-- What `closeTokIns` and `withdrawSite` leave of a site without tokens outstanding. -/
theorem closed_site (v : Work) (n : Nat) (ht : (v.site n).port.tokIns = []) (hq : (v.site n).port.tokQueue = []) :
    bareSite (((v.closeTokIns n).withdrawSite n).site n) = bareSite { v.site n with port := { (v.site n).port with tokWithheld := false } }
      ∧ ((v.closeTokIns n).withdrawSite n).hub.ledger = v.hub.ledger := by
  have e : v.closeTokIns n = v.onSPort n fun p => { p with tokIns := [], tokQueue := [], tokWithheld := false } := by
    simp [Work.closeTokIns, ht, hq]
  constructor
  · rw [withdrawSite_bare, e]
    simp [Work.onSPort, bareSite, ht, hq]
  · rw [withdrawSite_ledger, e]; rfl

/-- A serving site without tokens outstanding and without a recalibration, after its dead-agent handling (R116): dead and reclaiming for the cause, in reset. -/
theorem deadAgent_serving (w : Work) (n c : Nat) (hs : siteServing (w.site n) = true) (hr : (w.site n).recal = none)
    (ht : (w.site n).port.tokIns = []) (hq : (w.site n).port.tokQueue = []) :
    let t := w.deadAgent n c
    (t.site n).state = 4 ∧ (t.site n).cause = c ∧ (t.site n).reclaiming = true ∧ (t.site n).deadCauses = [c] ∧ (t.site n).power.rstN = false
      ∧ n ∈ t.hub.ledger.reclaiming := by
  have h6 : (w.site n).state ≠ 6 := by intro h; simp [siteServing, h] at hs
  have h4 : (w.site n).state ≠ 4 := by intro h; simp [siteServing, h] at hs
  dsimp only
  unfold Work.deadAgent
  simp only [h6, h4, hs, hr, decide_false, Bool.false_and, Bool.not_true, if_false, Bool.false_eq_true]
  generalize hv : Work.clearMarks _ (fun e => decide (e.kind = 1) && decide (e.site = n)) = v
  have hsite : v.site n = { w.site n with state := 4, cause := c, reclaiming := true, deadCauses := [c], link := {}, power := { (w.site n).power with rstN := false, quiescing := false } } := by
    rw [← hv]
    have clear (x : Work) (f : ExpEntry → Bool) : (x.clearMarks f).site n = x.site n := rfl
    rw [clear]
    simp
  have hled : n ∈ v.hub.ledger.reclaiming := by
    rw [← hv]; simp [Work.clearMarks, Work.onLedger, Work.onHub]
  obtain ⟨e, f⟩ := closed_site v n (by rw [hsite]; exact ht) (by rw [hsite]; exact hq)
  rw [hsite] at e
  rw [← f] at hled
  generalize (v.closeTokIns n).withdrawSite n = u at *
  have g (x : Work) (hx : x = u ∨ x = u.sitePowerOff n) : (x.site n).state = 4 ∧ (x.site n).cause = c ∧ (x.site n).reclaiming = true ∧ (x.site n).deadCauses = [c] ∧ (x.site n).power.rstN = false
      ∧ n ∈ x.hub.ledger.reclaiming := by
    have e1 := congrArg Site.state e
    have e2 := congrArg Site.cause e
    have e3 := congrArg Site.reclaiming e
    have e4 := congrArg Site.deadCauses e
    have e5 := congrArg (fun s => s.power.rstN) e
    simp only [bareSite] at e1 e2 e3 e4 e5
    rcases hx with rfl | rfl
    · exact ⟨e1, e2, e3, e4, e5, hled⟩
    · refine ⟨by simpa using e1, by simpa using e2, by simpa using e3, by simpa using e4, by simpa using e5, ?_⟩
      unfold Work.sitePowerOff; split
      · exact hled
      · exact hled
  split
  · simpa [Work.siteLog] using g _ (.inr rfl)
  · simpa [Work.siteLog] using g _ (.inl rfl)

end Sys2Proof.Machine
end

