-- ==== Sys2Proof/Tests/Slice0.lean ====
section
/-! SUPPORT. Small states, and for every statement with hypotheses a theorem that shows a state and operands that meet them, clause by clause; the ill-formed commands that the checks refuse; single steps against values of the spec. -/

namespace Sys2Proof.Tests

open Sys2Proof Sys2Proof.Machine

/-! ## States -/

/-- The state after reset with the hub changed. -/
def hubbed (f : Hub → Hub) : State := { State.reset with hub := f State.reset.hub }

/-- One site S0 with a record. -/
def sited (x : Site) : State := hubbed fun h => { h with sites := [(0, x)] }

/-- A site in full service, with every bundle and every option in force and credits on both sides. -/
def full : Site :=
  { state := 1, link := { step := 9, bundles := List.replicate 16 { active := true } },
    port := { coh := true, token := true, helm := true, initSent := true, initGot := true, toChip := hubGrants, granted := hubGrants, fromChip := hubGrants },
    power := { pwrEn := true, vcsPg := true, rstN := true } }

/-- A site at a step of its start. -/
def starting (n : Nat) : Site := { full with state := 6, link := { step := n }, port := {} }

/-- A site in full service with its link changed. -/
def linked (f : Link → Link) : State := sited { full with link := f full.link }

/-- A site in full service with one bundle changed. -/
def bundled (k : Nat) (f : Bundle → Bundle) : State := linked fun l => { l with bundles := l.bundles.modify k f }

/-- A frame of a type with an acknowledgement word and a payload, its CRC good. -/
def frameOf (ftype bseq ackWord sseq : Nat) (p : List Byte) : List Byte := frameBytes ftype bseq ackWord sseq p

/-- A site in full service with one bundle changed and the data frames of the last time given. -/
def bundled' (k : Nat) (f : Bundle → Bundle) (times : List (Nat × Nat)) : State :=
  linked fun l => { l with bundles := l.bundles.modify k f, dataTimes := times }

/-- A capability record (R64): version 1, 75 W, one site revision, every option, its CRC. -/
def capRecord : Nat :=
  let f : List (Nat × Nat) := [(16, 1), (128, 0), (8, 1), (8, 1), (1, 1), (1, 1), (1, 1), (13, 0), (8, 75), (8, 95), (144, 0), (144, 0)]
  pack (f ++ [(32, crc32 (leBytes 60 (pack f)))])

/-- The leaf of a 64 KiB page that may be written, in the Hold scratch of partition 0. -/
def scratchLeaf : Nat := pack [(2, 1), (1, 1), (77, 0), (36, 0x400000)]

/-- Berth 4 holds the scratch of partition 0 and has it at DVA 0, in the translations of some units. -/
def mapped (f : Hub → Hub) : State := hubbed fun h => f
  { h with memory := { h.memory with parts := [(0, { mode := 3, holder := 4 })] },
           chart := { h.chart with tlb := [0, 16, 80, 96, 128, 129].map fun u => { unit := u, berth := 4, base := 0, log2 := 16, leaf := scratchLeaf } } }

/-- A memory with bytes written. -/
def withBytes (s : State) (a : Nat) (d : List Byte) : State := { s with mem := s.mem.apply (.write a d) }

/-- P0 in service, its PF0 free to issue. -/
def port0 : Port := { state := 2, ready := true, width := 16, rate := 6, perstN := true, funcs := [(0, { bme := true })] }

/-- A word of an entry: opcode, host pointer 0x1000, then fields from bit 256. -/
def entryWord (opcode : Nat) (fields : List (Nat × Nat)) : Nat := pack ([(8, opcode), (120, 0), (64, 0x1000), (1, 1), (63, 0)] ++ fields)

/-- Entry 3 of ring 0 of P0's manager berth has started. -/
def issued (word : Nat) (f : Hub → Hub) : State := hubbed fun h => f
  { h with ports := [(0, port0)], ten := { h.ten with rings := [(0, { log2 := 4, enable := true, state := 1, cplBase := 0x2000, started := [{ index := 3, word := word }] })] } }

/-- That entry. -/
def entry3 (word : Nat) : RingEntry := { index := 3, word := word }
def ref3 : EntryRef := { berth := 0, ring := 0, index := 3 }

/-- A structure that the entry's pointer names. -/
def pointed (word : Nat) (d : List Byte) (f : Hub → Hub) : State := withBytes (issued word f) (hostKey 0 0x1000) d

/-- A table of berth 4 with one expert at site S0, one payload beat of FP32. -/
def table4 : BTable := { hdr := { berth := 4, zeroRow := true, rowStride := 256, ntok := 16, outcomeBase := 0x1000 }, experts := [{ kind := 1 }] }

/-- The state of a token: table 5, its record at engine 0, one packet on the network. -/
def token5 (phase : RecPhase) (kind : PktKind) : State := mapped fun h =>
  { h with tables := [(5, table4)], sites := [(0, full)],
           bearings := [(0, { recs := [(2, { table := 5, row := 1, phase := phase, ranks := [{ remote := true }, {}] })], combining := [(8, { packet := { token := 2, table := 5, otable := 5, row := 1, payload := List.replicate 32 0, fmt := 0, beats := 1 } })] })],
           fabric := { h.fabric with nextId := 9, toks := [(7, { kind := kind, token := 2, table := 5, otable := 5, row := 1, berth := 4, cause := 6, payload := List.replicate 32 0, beats := 1 })] } }

/-- That packet. -/
def packet7 (kind : PktKind) : Packet := { kind := kind, token := 2, table := 5, otable := 5, row := 1, berth := 4, cause := 6, payload := List.replicate 32 0, beats := 1 }

/-- A table image (R120, R121): version 1, table 5 of berth 0, one expert at site S0. -/
def tableImage : List Byte :=
  leBytes 256 (pack [(16, 1), (16, 5), (16, 0), (16, 1), (4, 0), (20, 0), (12, 1), (4, 0), (12, 1), (12, 0), (64, 0), (32, 256), (32, 1), (64, 0), (64, 0), (16, 0), (16, 1)])
    ++ leBytes 16 (pack [(2, 1)])

/-- Site S0 serves berth 4, whose page lies in the scratch; requests of that page. -/
def served (x : Site) : State := mapped fun h => { h with sites := [(0, x)], ten := { h.ten with sites := [(0, 4)] } }
def reqHdr (size opspec : Nat) : ReqHdr := { tag := 5, berth := 4, size := size, opspec := opspec, addr := 0x200 }
def physHdr : ReqHdr := { tag := 5, berth := 4, size := 2, pa := true, addr := 0x004000000200 }

/-- An answer on its way to S0. -/
def answered (read : Bool) : State :=
  hubbed fun h => { h with sites := [(0, { full with port := { full.port with outstanding := [{ tag := 5, berth := 4 }] } })],
                           fabric := { h.fabric with nextId := 4, rsps := [(3, { site := 0, tag := 5, berth := 4, read := read, data := [] })] } }

/-- S0 in service, berth 4 holding mark 7, gate 2 of three parties and semaphore 3 with 5 units of 8; event wire 1 adds to the mark, wire 4 is owed two pulses. -/
def helmed : State :=
  hubbed fun h => { h with sites := [(0, full)], ten := { h.ten with held := [(2 * 4096 + 7, 4), (3 * 4096 + 2, 4), (4 * 4096 + 3, 4)] },
                           helm := { h.helm with marks := [(7, { value := 3 })], gates := [(2, { parties := 3 })], sems := [(3, { max := 8, count := 5 })],
                                                 bindings := [(1, { action := 1, object := 7, berth := 4 }), (36, { action := 2, object := 7, owed := 2 })] } }

/-- A run of a recipe at a step, for berth 4, whose launch is entry 3: stream 0 is local memory from 0, stream 1 device memory from 0x1000, stream 2 local memory from 0x100. -/
def atStep (st : Step) : Run :=
  { launch := { entry := ref3, berth := 4 }, params := List.replicate 64 7,
    recipe := { berth := 4, steps := [st, {}, { op := 2 }, {}], streams := [{}, { space := 1, base := 0x1000 }, { base := 0x100 }] } }

/-- Engine 0 with a record, its berth 4 holding the scratch, mark 7 and table 5. -/
def engined (e : Wright) (f : Hub → Hub) : State := mapped fun h => f
  { h with wrights := [(0, e)], tables := [(5, table4)], ten := { h.ten with held := [(1 * 4096, 4), (2 * 4096 + 7, 4)] }, helm := { h.helm with marks := [(7, { value := 9 })] } }

/-- Engine 0 runs a step. -/
def runs (st : Step) : State := engined { run := some (atStep st) } id

/-- A pack image: version 1, pack 9 of berth 0, FORMAT 1, FP32, one granule dense at 0x10000 (R156). -/
def packImage : List Byte := leBytes 64 (pack [(16, 1), (12, 9), (4, 1), (14, 0), (18, 0), (64, 0x10000), (32, 1)])

/-- A recipe image: version 1, recipe 9 of berth 0, one step (R192). -/
def recipeImage : List Byte := leBytes 80 (pack [(16, 1), (10, 9), (6, 0), (14, 0), (2, 0), (8, 0), (7, 0), (449, 0), (8, 0x0F), (120, 0)])

/-- P0 is managed by berth 0, whose pool holds regions 0 to 3, group 1 of regulation and berths 0 to 7; an entry of that manager's ring 0. -/
def managed (word : Nat) (f : Hub → Hub) : State := issued word fun h => f
  { h with ten := { h.ten with mgr := [0, 9, 9, 9], pools := [(0, { berthCount := 8, regions := 15, regroups := 2, sites := 1, hold := 1, wright := 1, groups := 3, markCount := 8 })] } }

/-- A message to this hub on H0, which is up. -/
def hawsered (f : Hub → Hub) : State := hubbed fun h => f { h with hawser := { h.hawser with ports := [(0, { state := 1 })] } }

/-- A request of S0 in the fabric. -/
def asked (r : MemReq) (f : Hub → Hub) : State := mapped fun h => f { h with fabric := { h.fabric with nextId := 9, reqs := [(5, r)] } }

/-- A request of S0 for a scratch address, at its controller. -/
def atMem (kind : ReqKind) (bytes opspec : Nat) (data : List Byte) : MemReq :=
  { agent := .site 0, kind := kind, tag := 5, berth := 4, bytes := bytes, dpa := 0x004000000200, opspec := opspec, data := data, atHome := true }

/-- The line of host address 0x1000 of P0. -/
def line1000 : Nat := 0x0008000000001000 / 128
def hostShared : MemReq := { agent := .site 0, kind := .rdShared, tag := 5, berth := 4, bytes := 128, dpa := 0x0008000000001000, shared := true }

/-- Roots of berths 0 and 4 whose level 2 table lies at 0x2000 of board memory, its first entry a leaf of 1 GiB. -/
def charted (s : State) (leaf : Nat) : State :=
  withBytes { s with hub := { s.hub with
    memory := { s.hub.memory with owner := [(0, 0x4002)], keys := [(4, 5), (9, 6)], tag := [(32, 5)] },
    chart := { s.hub.chart with
      roots := [0, 4].map fun b => (b, { tableBerth := 2, valid := true, l0 := 0x4000 })
      walks := [(0, 4), (129, 0), (129, 4)].flatMap fun (u, b) => [{ unit := u, berth := b, level := 0, next := 0x6000 }, { unit := u, berth := b, level := 1, next := 0x2000 }] } } } 0x2000 (leBytes 16 leaf)

/-- A leaf of board memory that may be written, of class 1; a leaf of the memory of P0's host. -/
def boardLeaf : Nat := 0x17
def hostLeaf : Nat := 0x37 + 0x800000000 * 2 ^ 80

/-- The TLB entry of that leaf for a berth at a unit. -/
def leafAt (u b leaf : Nat) : Tlb := { unit := u, berth := b, log2 := 30, leaf := leaf, addr := 0x2000 }

/-- P0 in service runs one copy of 128 bytes on Porter 0 for entry 3, into the scratch or out of it. -/
def copying (c : CopyJob) (y : Porter) (f : Hub → Hub) : State := mapped fun h => f
  { h with ports := [(0, { port0 with porters := [(0, { y with queue := [c] })] })],
           ten := { h.ten with rings := [(0, { log2 := 4, enable := true, state := 1, cplBase := 0x2000, started := [{ index := 3, word := 0x18 }] })] },
           chart := { h.chart with tlb := h.chart.tlb ++ [{ unit := 96, berth := 0, base := 0, log2 := 16, leaf := scratchLeaf }] },
           memory := { h.memory with parts := [(0, { mode := 3, holder := 0 })] } }

/-- That copy. -/
def copy3 (dir : Nat) (issued : Bool) : CopyJob := { id := 1, entry := ref3, src := 0x200, dst := 0x400, len := 128, dir := dir, issued := issued }

/-- Ring 1 of berth 0 on P0. -/
def ringed (r : Ring) : State := hubbed fun h => { h with ports := [(0, port0)], ten := { h.ten with rings := [(1, r)] } }

/-- The hub serves, out of reset, its service record as given; nonce 7 is unused; a serving port P0. -/
def serving (f : Hub → Hub) : State := hubbed fun h => f
  { h with start := { h.start with hubRstN := true, state := 1 }, purser := { h.purser with nonces := [5, 7] }, ports := [(0, { port0 with configReady := true })] }

/-- An order signed by credential 1. -/
def order7 (code : Nat) : OrderHdr := { order := code, nonce := 7, cred := 1, sig := 2 }

/-- An SPDM connection on I3C. -/
def attested (x : Spdm) : State := serving fun h => { h with purser := { h.purser with i3c := x } }

/-- Facts of an image that passes. -/
def image4 : ImageFacts := { version := 9, sections := [(1, 0, 64), (2, 64, 64), (3, 128, 64), (4, 192, 64), (5, 256, 64), (6, 320, 64)] }

/-- The hub in service with order credentials, engine 0 as given, S0 in full service. -/
def served1 (f : Hub → Hub) : State := serving fun h => f { h with sites := [(0, full)] }

/-- The hub held in reset. -/
def held (f : Hub → Hub) : State := hubbed fun h => f { h with start := { h.start with stored := { h.start.stored with valid := true }, coldPending := false } }

/-- H0 with a record, the hub changed. -/
def hawsPort (x : HPort) (f : Hub → Hub) : State := hubbed fun h => f { h with hawser := { h.hawser with ports := [(0, x)], sys := h.hawser.sys + 9 * 2 ^ 96 } }

/-- The hub runs, H0 enabled. -/
def hawsUp (h : Hub) : Hub := { h with start := { h.start with hubRstN := true, state := 1 }, board := { h.board with hawser := 1 } }

/-- Hub 6 is reached by H0. -/
def hawsRoute (h : Hub) : Hub := { h with hawser := { h.hawser with routes := [(6, 8)] } }

/-- A frame of 536 bytes: its header of a type, FSEQ and an acknowledgement, the CRC, the first slot (R488). -/
def hawsFrame (ftype fseq ack valid nak slot : Nat) : List Byte :=
  let h := leBytes 4 (pack [(4, ftype), (12, fseq), (12, ack), (1, valid), (1, nak)])
  let b := leBytes 16 slot ++ List.replicate 512 0
  h ++ leBytes 4 (crc32 (h ++ b)) ++ b

/-- H0 up; import 3 lets hub 6 read the page of berth 4. -/
def imported (f : Hub → Hub) : State := mapped fun h => f
  { h with hawser := { h.hawser with ports := [(0, { state := 1 })] }, chart := { h.chart with imports := [(3, { berth := 4, srcHub := 6, len := 1, wr := true })], tlb := { unit := 128, berth := 4, base := 0, log2 := 16, leaf := scratchLeaf } :: h.chart.tlb } }

/-- A read of 128 bytes through import 3. -/
def window6 : BodyMsg := { srcHub := 6, imp := 3, tag := 9, opcode := 0x10, size := 2, offset := 0x200 }

/-- The hub in service at a later time, the Binnacle with a record. -/
def binned (b : Bin) : State := serving fun h => { h with now := 20000, bin := b }
/-! ## Witnesses of the statements -/

theorem test_siteStart :
  (((sited full).work.site 0).power.pwrEn = true)
    ∧ ((sited (starting 1)).work.atStep 0 1 = true
      ∧ ((sited (starting 1)).work.site 0).power.vcsPg = true)
    ∧ ((sited (starting 2)).work.atStep 0 2 = true)
    ∧ ((sited (starting 4)).work.atStep 0 4 = true)
    ∧ ((sited (starting 7)).work.atStep 0 7 = true)
    ∧ ((sited { starting 1 with power := { pwrEn := true } }).work.atStep 0 1 = true
      ∧ ((sited { starting 1 with power := { pwrEn := true } }).work.site 0).power.vcsPg = false
      ∧ ((sited { starting 1 with power := { pwrEn := true } }).work.site 0).inEntry = none)
    ∧ ((sited (starting 2)).work.atStep 0 2 = true
      ∧ ((sited (starting 2)).work.site 0).inEntry = none)
    ∧ ((sited (starting 3)).work.atStep 0 3 = true
      ∧ ((sited (starting 3)).work.site 0).inEntry = none)
    ∧ (((sited (starting 5)).work.site 0).state = 6
      ∧ ((sited (starting 5)).work.site 0).inEntry = none
      ∧ ((sited (starting 5)).work.site 0).port.initGot = false) := by decide

theorem test_siteStartReports :
  ((sited { starting 3 with port := { offerCoh := true } }).work.atStep 0 3 = true
      ∧ capFault capRecord = 0)
    ∧ ((sited (starting 5)).work.atStep 0 5 = true
      ∧ ((sited (starting 5)).work.site 0).link.wireGot.length < 16)
    ∧ ((sited (starting 5)).work.atStep 0 5 = true
      ∧ (({ bundle := 2 } : HalfFail)).bundle < 8
      ∧ ((sited (starting 5)).work.site 0).link.wireDone = false)
    ∧ ((sited (starting 6)).work.atStep 0 6 = true
      ∧ 3 < ((sited (starting 6)).work.site 0).link.bundles.length)
    ∧ ((sited (starting 6)).work.atStep 0 6 = true
      ∧ 3 < ((sited (starting 6)).work.site 0).link.bundles.length
      ∧ (halfOf ((sited (starting 6)).work.bundle 0 3) 1).acked = false
      ∧ ((sited (starting 6)).work.bundle 0 3).out = false)
    ∧ ((sited (starting 8)).work.atStep 0 8 = true
      ∧ (∃ i < 8, ((sited (starting 8)).work.bundle 0 i).out = false)
      ∧ (∃ i < 8, ((sited (starting 8)).work.bundle 0 (8 + i)).out = false)) := by
  (repeat' apply And.intro) <;> decide +kernel

theorem test_siteFrames :
  ((bundled 1 fun b => { b with retry := [{ bseq := 4 }, { bseq := 5 }] }).work.hears 0 9 = true
      ∧ frameGood (frameOf 1 0 (ackBits 4 1 false) 0 []) = true
      ∧ ftypeOf (frameOf 1 0 (ackBits 4 1 false) 0 []) = 1
      ∧ ackValidOf (frameOf 1 0 (ackBits 4 1 false) 0 []) = true
      ∧ nakOf (frameOf 1 0 (ackBits 4 1 false) 0 []) = false
      ∧ ((bundled 1 fun b => { b with retry := [{ bseq := 4 }, { bseq := 5 }] }).work.bundle 0 (ackBundleOf (frameOf 1 0 (ackBits 4 1 false) 0 []))).active = true
      ∧ ((bundled 1 fun b => { b with retry := [{ bseq := 4 }, { bseq := 5 }] }).work.bundle 0 (ackBundleOf (frameOf 1 0 (ackBits 4 1 false) 0 []))).retraining = false
      ∧ ((bundled 1 fun b => { b with retry := [{ bseq := 4 }, { bseq := 5 }] }).work.bundle 0 (ackBundleOf (frameOf 1 0 (ackBits 4 1 false) 0 []))).retry.findIdx? (fun f => decide (f.bseq = ackSeqOf (frameOf 1 0 (ackBits 4 1 false) 0 []))) = some 0
      ∧ ((bundled 1 fun b => { b with retry := [{ bseq := 4 }, { bseq := 5 }] }).work.site 0).link.txQueue = []
      ∧ ((bundled 1 fun b => { b with retry := [{ bseq := 4 }, { bseq := 5 }] }).work.site 0).link.resend = []
      ∧ ackBundleOf (frameOf 1 0 (ackBits 4 1 false) 0 []) < ((bundled 1 fun b => { b with retry := [{ bseq := 4 }, { bseq := 5 }] }).work.site 0).link.bundles.length)
    ∧ ((bundled 9 fun b => { b with ackOwed := true }).work.hears 0 9 = true
      ∧ ((bundled 9 fun b => { b with ackOwed := true }).work.bundle 0 9).ackOwed = true
      ∧ ackBundle ((bundled 9 fun b => { b with ackOwed := true }).work.site 0).link 9 = some 1
      ∧ 9 < ((bundled 9 fun b => { b with ackOwed := true }).work.site 0).link.bundles.length)
    ∧ ((sited full).work.hears 0 9 = true
      ∧ frameGood (frameOf 2 0 0 0 []) = true
      ∧ ftypeOf (frameOf 2 0 0 0 []) = 2
      ∧ ackValidOf (frameOf 2 0 0 0 []) = false
      ∧ ((sited full).work.site 0).link.limp = .off
      ∧ siteServing ((sited full).work.site 0) = true
      ∧ othersOf ((sited full).work.site 0).link 9 ≠ []
      ∧ ((sited full).work.bundle 0 9).retry = []
      ∧ ((sited full).work.site 0).link.txQueue = []
      ∧ ((sited full).work.site 0).link.resend = []
      ∧ 9 < ((sited full).work.site 0).link.bundles.length) := by
  (repeat' apply And.intro) <;> decide +kernel

theorem test_siteRetrains :
  let able (s : State) (n k : Nat) : Prop := (s.work.bundle n k).active = true ∧ (s.work.bundle n k).retraining = false ∧ siteServing (s.work.site n) = true
    ∧ (s.work.site n).link.limp = .off ∧ othersOf (s.work.site n).link k ≠ []
  (able (bundled' 1 (fun b => { b with retry := [{ bseq := 4 }] }) [(0, 2000000)]) 0 1
      ∧ ((bundled' 1 (fun b => { b with retry := [{ bseq := 4 }] }) [(0, 2000000)]).work.bundle 0 1).retry.any (fun f => f.bseq = 4) = true
      ∧ ((nakRate (bundled' 1 (fun b => { b with retry := [{ bseq := 4 }] }) [(0, 2000000)]).work.now ((bundled' 1 (fun b => { b with retry := [{ bseq := 4 }] }) [(0, 2000000)]).work.site 0).link).1 + 1) * 1000000 ≤ (nakRate (bundled' 1 (fun b => { b with retry := [{ bseq := 4 }] }) [(0, 2000000)]).work.now ((bundled' 1 (fun b => { b with retry := [{ bseq := 4 }] }) [(0, 2000000)]).work.site 0).link).2)
    ∧ (able (sited full) 0 12)
    ∧ (((bundled 3 fun b => { b with retraining := true }).work.bundle 0 3).retraining = true)
    ∧ (((bundled 3 fun b => { b with retraining := true }).work.bundle 0 3).retraining = true
      ∧ ((bundled 3 fun b => { b with retraining := true }).work.bundle 0 3).retrainAcked = false
      ∧ (retrainsNow (bundled 3 fun b => { b with retraining := true }).work.now ((bundled 3 fun b => { b with retraining := true }).work.bundle 0 3)).length ≤ 3)
    ∧ (((bundled 3 fun b => { b with retraining := true, retrainTimes := [0, 0, 0, 0] }).work.bundle 0 3).retraining = true
      ∧ ((bundled 3 fun b => { b with retraining := true, retrainTimes := [0, 0, 0, 0] }).work.bundle 0 3).retrainAcked = false
      ∧ ((bundled 3 fun b => { b with retraining := true, retrainTimes := [0, 0, 0, 0] }).work.bundle 0 3).active = true
      ∧ 3 < (retrainsNow (bundled 3 fun b => { b with retraining := true, retrainTimes := [0, 0, 0, 0] }).work.now ((bundled 3 fun b => { b with retraining := true, retrainTimes := [0, 0, 0, 0] }).work.bundle 0 3)).length
      ∧ ((bundled 3 fun b => { b with retraining := true, retrainTimes := [0, 0, 0, 0] }).work.site 0).link.limp = .off
      ∧ 1 < (activeBundles ((bundled 3 fun b => { b with retraining := true, retrainTimes := [0, 0, 0, 0] }).work.site 0).link (3 < 8)).length
      ∧ ((bundled 3 fun b => { b with retraining := true, retrainTimes := [0, 0, 0, 0] }).work.site 0).recal = none)
    ∧ (((bundled 3 fun b => { b with retraining := true, retrainAcked := true }).work.bundle 0 3).retraining = true
      ∧ ((bundled 3 fun b => { b with retraining := true, retrainAcked := true }).work.bundle 0 3).retrainAcked = true
      ∧ ((bundled 3 fun b => { b with retraining := true, retrainAcked := true }).work.bundle 0 3).mapSent = false
      ∧ (bundled 3 fun b => { b with retraining := true, retrainAcked := true }).work.halfDead 0 3 0 = false
      ∧ (bundled 3 fun b => { b with retraining := true, retrainAcked := true }).work.halfDead 0 3 1 = false
      ∧ (retrainsNow (bundled 3 fun b => { b with retraining := true, retrainAcked := true }).work.now ((bundled 3 fun b => { b with retraining := true, retrainAcked := true }).work.bundle 0 3)).length ≤ 3) := by
  (repeat' apply And.intro) <;> decide +kernel

theorem test_siteLimp :
  (((linked fun l => { l with limp := .ack0 }).work.site 0).link.limp = .ack0)
    ∧ (((linked fun l => { l with limp := .ack1, limpTx := 2, limpRx := 11, limpCause := 49 }).work.site 0).link.limp = .ack1)
    ∧ (((linked fun l => { l with limp := .ack0 }).work.site 0).link.limp = .ack0 ∨ ((linked fun l => { l with limp := .ack0 }).work.site 0).link.limp = .ack1
      ∧ siteServing ((linked fun l => { l with limp := .ack0 }).work.site 0) = true
      ∧ ((linked fun l => { l with limp := .ack0 }).work.site 0).recal = none
      ∧ ((linked fun l => { l with limp := .ack0 }).work.site 0).port.tokIns = []
      ∧ ((linked fun l => { l with limp := .ack0 }).work.site 0).port.tokQueue = [])
    ∧ (((linked fun l => { l with limp := .retrain }).work.site 0).link.limp = .retrain
      ∧ ((linked fun l => { l with limp := .retrain }).work.site 0).link.limpDir = 2
      ∧ (∃ k < 8, k ∈ ([1, 2, 9, 12]) ∧ ((linked fun l => { l with limp := .retrain }).work.bundle 0 k).out = false)
      ∧ (∃ k < 8, k + 8 ∈ ([1, 2, 9, 12]) ∧ ((linked fun l => { l with limp := .retrain }).work.bundle 0 (k + 8)).out = false)) := by decide

theorem test_siteStreams :
  ((sited full).work.hears 0 9 = true
      ∧ frameGood (frameOf 0 0 0 0 []) = true
      ∧ ftypeOf (frameOf 0 0 0 0 []) = 0
      ∧ ackValidOf (frameOf 0 0 0 0 []) = false
      ∧ bseqOf (frameOf 0 0 0 0 []) = ((sited full).work.bundle 0 9).expBseq
      ∧ sseqOf (frameOf 0 0 0 0 []) = ((sited full).work.site 0).link.rxSseq
      ∧ ((sited full).work.site 0).link.rxHeld = []
      ∧ ((sited full).work.site 0).link.rxBytes = []
      ∧ (frameOf 0 0 0 0 []).getD 8 1 = 0
      ∧ 9 < ((sited full).work.site 0).link.bundles.length)
    ∧ (streamUp ((mapped fun h => { h with sites := [(0, full)], tables := [(5, table4)] }).work.site 0) = true
      ∧ ((mapped fun h => { h with sites := [(0, full)], tables := [(5, table4)] }).work.site 0).port.initGot = true
      ∧ ((mapped fun h => { h with sites := [(0, full)], tables := [(5, table4)] }).work.site 0).port.token = true
      ∧ spend ((mapped fun h => { h with sites := [(0, full)], tables := [(5, table4)] }).work.site 0).port.toChip { tokHdr := 1, tokData := (({ fmt := 0, beats := 2, berth := 4, nlog := 1, table := 5, row := 1 } : GateHdr)).beats } = some ({ hubGrants with tokHdr := 63, tokData := 8190 })
      ∧ gateLenOk (({ fmt := 0, beats := 2, berth := 4, nlog := 1, table := 5, row := 1 } : GateHdr)) = true
      ∧ (mapped fun h => { h with sites := [(0, full)], tables := [(5, table4)] }).work.gateFault { hdr := (({ fmt := 0, beats := 2, berth := 4, nlog := 1, table := 5, row := 1 } : GateHdr)), logits := gateLogits (({ fmt := 0, beats := 2, berth := 4, nlog := 1, table := 5, row := 1 } : GateHdr)) (slice [] 0 (32 * (({ fmt := 0, beats := 2, berth := 4, nlog := 1, table := 5, row := 1 } : GateHdr)).beats)), payload := (slice [] 0 (32 * (({ fmt := 0, beats := 2, berth := 4, nlog := 1, table := 5, row := 1 } : GateHdr)).beats)).drop (32 * logitBeats (({ fmt := 0, beats := 2, berth := 4, nlog := 1, table := 5, row := 1 } : GateHdr))), site := some 0 } = none
      ∧ (mapped fun h => { h with sites := [(0, full)], tables := [(5, table4)] }).work.table (({ fmt := 0, beats := 2, berth := 4, nlog := 1, table := 5, row := 1 } : GateHdr)).table = some table4
      ∧ table4.hdr.zeroRow = true
      ∧ ((mapped fun h => { h with sites := [(0, full)], tables := [(5, table4)] }).work.bearing 0).staging = []
      ∧ freeRec ((mapped fun h => { h with sites := [(0, full)], tables := [(5, table4)] }).work.bearing 0) = some 0)
    ∧ (streamUp ((sited { full with port := { full.port with tokIns := [{ hdr := { token := 2, table := 5 } }] } }).work.site 0) = true
      ∧ ((sited { full with port := { full.port with tokIns := [{ hdr := { token := 2, table := 5 } }] } }).work.site 0).port.initGot = true
      ∧ ((sited { full with port := { full.port with tokIns := [{ hdr := { token := 2, table := 5 } }] } }).work.site 0).port.token = true
      ∧ spend ((sited { full with port := { full.port with tokIns := [{ hdr := { token := 2, table := 5 } }] } }).work.site 0).port.toChip { tokHdr := 1, tokData := (({ token := 2, table := 5, null := true } : TokHdr)).beats } = some ({ hubGrants with tokHdr := 63 })
      ∧ outLenOk (({ token := 2, table := 5, null := true } : TokHdr)) = true
      ∧ (({ token := 2, table := 5, null := true } : TokHdr)).null = true
      ∧ ((sited { full with port := { full.port with tokIns := [{ hdr := { token := 2, table := 5 } }] } }).work.site 0).port.tokIns.find? (answersTok (({ token := 2, table := 5, null := true } : TokHdr))) = some (({ hdr := { token := 2, table := 5 } } : TokIn))
      ∧ handleHub (({ hdr := { token := 2, table := 5 } } : TokIn)).packet.token = (sited { full with port := { full.port with tokIns := [{ hdr := { token := 2, table := 5 } }] } }).work.hubId)
    ∧ (streamUp ((hubbed fun h => { h with tables := [(5, table4)], sites := [(0, { full with port := { full.port with tokIns := [{ hdr := { token := 2, table := 5 }, packet := { table := 5 } }] } })] }).work.site 0) = true
      ∧ ((hubbed fun h => { h with tables := [(5, table4)], sites := [(0, { full with port := { full.port with tokIns := [{ hdr := { token := 2, table := 5 }, packet := { table := 5 } }] } })] }).work.site 0).port.initGot = true
      ∧ ((hubbed fun h => { h with tables := [(5, table4)], sites := [(0, { full with port := { full.port with tokIns := [{ hdr := { token := 2, table := 5 }, packet := { table := 5 } }] } })] }).work.site 0).port.token = true
      ∧ spend ((hubbed fun h => { h with tables := [(5, table4)], sites := [(0, { full with port := { full.port with tokIns := [{ hdr := { token := 2, table := 5 }, packet := { table := 5 } }] } })] }).work.site 0).port.toChip { tokHdr := 1, tokData := (({ token := 2, table := 5, beats := 1 } : TokHdr)).beats } = some ({ hubGrants with tokHdr := 63, tokData := 8191 })
      ∧ outLenOk (({ token := 2, table := 5, beats := 1 } : TokHdr)) = true
      ∧ (({ token := 2, table := 5, beats := 1 } : TokHdr)).null = false
      ∧ (({ token := 2, table := 5, beats := 1 } : TokHdr)).fmt = 0 ∨ (({ token := 2, table := 5, beats := 1 } : TokHdr)).fmt = 5
      ∧ ((hubbed fun h => { h with tables := [(5, table4)], sites := [(0, { full with port := { full.port with tokIns := [{ hdr := { token := 2, table := 5 }, packet := { table := 5 } }] } })] }).work.site 0).port.tokIns.find? (answersTok (({ token := 2, table := 5, beats := 1 } : TokHdr))) = some (({ hdr := { token := 2, table := 5 }, packet := { table := 5 } } : TokIn))
      ∧ handleHub (({ hdr := { token := 2, table := 5 }, packet := { table := 5 } } : TokIn)).packet.token = (hubbed fun h => { h with tables := [(5, table4)], sites := [(0, { full with port := { full.port with tokIns := [{ hdr := { token := 2, table := 5 }, packet := { table := 5 } }] } })] }).work.hubId
      ∧ (hubbed fun h => { h with tables := [(5, table4)], sites := [(0, { full with port := { full.port with tokIns := [{ hdr := { token := 2, table := 5 }, packet := { table := 5 } }] } })] }).work.table (({ hdr := { token := 2, table := 5 }, packet := { table := 5 } } : TokIn)).packet.table = some table4
      ∧ densePayload table4.hdr.ptype (({ token := 2, table := 5, beats := 1 } : TokHdr)).fmt table4.hdr.outBeats (slice [] 0 (32 * (({ token := 2, table := 5, beats := 1 } : TokHdr)).beats)) = some (List.replicate 32 0))
    ∧ (streamUp ((sited { full with port := { full.port with tokIns := [{}], fromChip := {} } }).work.site 0) = true
      ∧ ((sited { full with port := { full.port with tokIns := [{}], fromChip := {} } }).work.site 0).port.tokIns ≠ []
      ∧ ((sited { full with port := { full.port with tokIns := [{}], fromChip := {} } }).work.site 0).port.tokQueue = []
      ∧ ((sited { full with port := { full.port with tokIns := [{}], fromChip := {} } }).work.site 0).port.fromChip.tokHdr < ((sited { full with port := { full.port with tokIns := [{}], fromChip := {} } }).work.site 0).port.granted.tokHdr) := by
  (repeat' apply And.intro) <;> decide +kernel

theorem test_bearingTokens :
  (((mapped fun h => { h with tables := [(5, table4)], bearings := [(0, { staging := [{ hdr := { table := 5, berth := 4, row := 1, beats := 2 }, payload := List.replicate 32 0 }] })] }).work.bearing 0).staging = (({ hdr := { table := 5, berth := 4, row := 1, beats := 2 }, payload := List.replicate 32 0 } : Staged)) :: []
      ∧ freeRec ((mapped fun h => { h with tables := [(5, table4)], bearings := [(0, { staging := [{ hdr := { table := 5, berth := 4, row := 1, beats := 2 }, payload := List.replicate 32 0 }] })] }).work.bearing 0) = some 0
      ∧ (({ hdr := { table := 5, berth := 4, row := 1, beats := 2 }, payload := List.replicate 32 0 } : Staged)).site = none
      ∧ (mapped fun h => { h with tables := [(5, table4)], bearings := [(0, { staging := [{ hdr := { table := 5, berth := 4, row := 1, beats := 2 }, payload := List.replicate 32 0 }] })] }).work.table (({ hdr := { table := 5, berth := 4, row := 1, beats := 2 }, payload := List.replicate 32 0 } : Staged)).hdr.table = some table4
      ∧ (mapped fun h => { h with tables := [(5, table4)], bearings := [(0, { staging := [{ hdr := { table := 5, berth := 4, row := 1, beats := 2 }, payload := List.replicate 32 0 }] })] }).work.gateFault (({ hdr := { table := 5, berth := 4, row := 1, beats := 2 }, payload := List.replicate 32 0 } : Staged)) = none
      ∧ table4.hdr.zeroRow = true
      ∧ ((mapped fun h => { h with tables := [(5, table4)], bearings := [(0, { staging := [{ hdr := { table := 5, berth := 4, row := 1, beats := 2 }, payload := List.replicate 32 0 }] })] }).work.bearing 0).arriving = [])
    ∧ ((token5 .zeroing .close).Current
      ∧ tfind ((token5 .zeroing .close).work.bearing 0).recs 2 = some (({ table := 5, row := 1, phase := .zeroing, ranks := [{ remote := true }, {}] } : TokRec))
      ∧ (({ table := 5, row := 1, phase := .zeroing, ranks := [{ remote := true }, {}] } : TokRec)).phase = .zeroing
      ∧ (token5 .zeroing .close).work.homePending (.bearing 0) (recTag 2) = false
      ∧ (token5 .zeroing .close).work.table (({ table := 5, row := 1, phase := .zeroing, ranks := [{ remote := true }, {}] } : TokRec)).table = some table4
      ∧ ((({ table := 5, row := 1, phase := .zeroing, ranks := [{ remote := true }, {}] } : TokRec)).ranks.any fun k => k.cause.isNone) = true
      ∧ ((token5 .zeroing .close).work.writeDva (80 + 0) table4.hdr.berth (rowAddr table4.hdr (({ table := 5, row := 1, phase := .zeroing, ranks := [{ remote := true }, {}] } : TokRec)).row) (List.replicate (ceilDiv (rowBytes table4.hdr) 128 * 128) 0)).1 = .ok [] [])
    ∧ (tfind (token5 .running .dispatch).hub.fabric.toks 7 = some (packet7 .dispatch)
      ∧ (packet7 .dispatch).kind = .dispatch
      ∧ (token5 .running .dispatch).work.injected 7 = true
      ∧ (token5 .running .dispatch).work.tokBehind 7 (packet7 .dispatch) = false
      ∧ ((token5 .running .dispatch).work.bearing (packet7 .dispatch).dst).out = false
      ∧ (token5 .running .dispatch).work.replica (packet7 .dispatch).dst (packet7 .dispatch).table = some table4
      ∧ handleHub (packet7 .dispatch).token = (token5 .running .dispatch).work.hubId
      ∧ (expertOf table4 (packet7 .dispatch).expert).kind = 1 ∨ (expertOf table4 (packet7 .dispatch).expert).kind = 2
      ∧ keeperOf (expertOf table4 (packet7 .dispatch).expert) = (packet7 .dispatch).dst
      ∧ ((token5 .running .dispatch).work.keeper (packet7 .dispatch).dst (packet7 .dispatch).table).passing = false
      ∧ available table4 (packet7 .dispatch).expert = true
      ∧ (capOf table4 (expertOf table4 (packet7 .dispatch).expert)).all (fun c => tget 0 ((token5 .running .dispatch).work.keeper (packet7 .dispatch).dst (packet7 .dispatch).table).counts (packet7 .dispatch).expert < c) = true
      ∧ (token5 .running .dispatch).work.hostBlocked (expertOf table4 (packet7 .dispatch).expert) = false
      ∧ ((expertOf table4 (packet7 .dispatch).expert).kind = 1 → siteServing ((token5 .running .dispatch).work.site (expertOf table4 (packet7 .dispatch).expert).site) = true))
    ∧ (tfind (token5 .running .combine).hub.fabric.toks 7 = some (packet7 .combine)
      ∧ (packet7 .combine).kind = .combine
      ∧ (token5 .running .combine).work.injected 7 = true
      ∧ (token5 .running .combine).work.tokBehind 7 (packet7 .combine) = false
      ∧ ((token5 .running .combine).work.bearing (packet7 .combine).dst).out = false
      ∧ (token5 .running .combine).work.rankOpen (packet7 .combine) = true
      ∧ (token5 .running .combine).work.table (packet7 .combine).otable = some table4
      ∧ (packet7 .combine).payload.length = 32 * table4.hdr.outBeats
      ∧ ((((token5 .running .combine).work.onFabric fun f => { f with toks := tdel f.toks 7, aged := rmv f.aged 7 }).onRec (handleEngine (packet7 .combine).token) (handleRec (packet7 .combine).token) fun r =>
      { r with ranks := r.ranks.modify (packet7 .combine).rank fun k => { k with remote := false } }).probe (80 + (packet7 .combine).dst) table4.hdr.berth
      (rowAddr table4.hdr (packet7 .combine).row + if table4.hdr.cmode = 1 then (packet7 .combine).rank * slotBytes table4.hdr else 0) (slotBytes table4.hdr) true).1 = .ok [] []) := by
  (repeat' apply And.intro) <;> decide +kernel

theorem test_bearingEnds :
  ((token5 .running .close).Current
      ∧ (token5 .running .close).hub.bearings.findSome? (fun (j, y) => (tfind y.combining 8).map fun c => (j, c.packet)) = some (0, (({ token := 2, table := 5, otable := 5, row := 1, payload := List.replicate 32 0, fmt := 0, beats := 1 } : Packet)))
      ∧ (token5 .running .close).work.homePending (.bearing 0) (combTag 8) = false
      ∧ (token5 .running .close).work.table (({ token := 2, table := 5, otable := 5, row := 1, payload := List.replicate 32 0, fmt := 0, beats := 1 } : Packet)).otable = some table4
      ∧ (token5 .running .close).work.rankOpen (({ token := 2, table := 5, otable := 5, row := 1, payload := List.replicate 32 0, fmt := 0, beats := 1 } : Packet)) = true
      ∧ ((token5 .running .close).work.tallyCombine 0 table4.hdr (({ token := 2, table := 5, otable := 5, row := 1, payload := List.replicate 32 0, fmt := 0, beats := 1 } : Packet))).1 = some 0
      ∧ handleHub (({ token := 2, table := 5, otable := 5, row := 1, payload := List.replicate 32 0, fmt := 0, beats := 1 } : Packet)).token = (token5 .running .close).work.hubId)
    ∧ (tfind (token5 .running .close).hub.fabric.toks 7 = some (packet7 .close)
      ∧ (packet7 .close).kind = .close
      ∧ (token5 .running .close).work.injected 7 = true
      ∧ (token5 .running .close).work.tokBehind 7 (packet7 .close) = false
      ∧ ((token5 .running .close).work.bearing (packet7 .close).dst).out = false
      ∧ (token5 .running .close).work.rankOpen (packet7 .close) = true
      ∧ tfind ((token5 .running .close).work.bearing (handleEngine (packet7 .close).token)).recs (handleRec (packet7 .close).token) = some (({ table := 5, row := 1, phase := .running, ranks := [{ remote := true }, {}] } : TokRec))
      ∧ ((({ table := 5, row := 1, phase := .running, ranks := [{ remote := true }, {}] } : TokRec)).ranks.zipIdx.any fun (k, j) => k.cause.isNone && decide (j ≠ (packet7 .close).rank)) = true)
    ∧ ((token5 .outcome .close).Current
      ∧ tfind ((token5 .outcome .close).work.bearing 0).recs 2 = some (({ table := 5, row := 1, phase := .outcome, ranks := [{ remote := true }, {}] } : TokRec))
      ∧ (({ table := 5, row := 1, phase := .outcome, ranks := [{ remote := true }, {}] } : TokRec)).phase = .outcome
      ∧ (token5 .outcome .close).work.homePending (.bearing 0) (recTag 2) = false
      ∧ (token5 .outcome .close).work.table (({ table := 5, row := 1, phase := .outcome, ranks := [{ remote := true }, {}] } : TokRec)).table = some table4
      ∧ ((token5 .outcome .close).work.writeDva (80 + 0) table4.hdr.berth (table4.hdr.outcomeBase + (({ table := 5, row := 1, phase := .outcome, ranks := [{ remote := true }, {}] } : TokRec)).row * 32) (outcomeRecord (({ table := 5, row := 1, phase := .outcome, ranks := [{ remote := true }, {}] } : TokRec)))).1 = .ok [] [])
    ∧ (tfind (token5 .running .bounce).hub.fabric.toks 7 = some (packet7 .bounce)
      ∧ (packet7 .bounce).kind = .bounce
      ∧ (token5 .running .bounce).work.injected 7 = true
      ∧ (token5 .running .bounce).work.tokBehind 7 (packet7 .bounce) = false
      ∧ ((token5 .running .bounce).work.bearing (packet7 .bounce).dst).out = false
      ∧ (token5 .running .bounce).work.rankOpen (packet7 .bounce) = true
      ∧ (token5 .running .bounce).work.replica (handleEngine (packet7 .bounce).token) (packet7 .bounce).otable = some table4
      ∧ table4.hdr.policy = 0
      ∧ handleHub (packet7 .bounce).token = (token5 .running .bounce).work.hubId)
    ∧ (tfind ((token5 .running .close).work.bearing 0).recs 2 = some (({ table := 5, row := 1, phase := .running, ranks := [{ remote := true }, {}] } : TokRec))
      ∧ (({ table := 5, row := 1, phase := .running, ranks := [{ remote := true }, {}] } : TokRec)).ranks[0]? = some (({ remote := true } : Rank))
      ∧ (({ remote := true } : Rank)).remote = true
      ∧ (({ remote := true } : Rank)).cause = none
      ∧ ((({ table := 5, row := 1, phase := .running, ranks := [{ remote := true }, {}] } : TokRec)).ranks.zipIdx.any fun (y, j) => y.cause.isNone && decide (j ≠ 0)) = true)
    ∧ (((hubbed fun h => { h with bearings := [(0, { keepers := [(5, { passing := true })] })] }).work.keeper 0 5).passing = true
      ∧ ((hubbed fun h => { h with bearings := [(0, { keepers := [(5, { passing := true })] })] }).work.keeper 0 5).held = []
      ∧ ((hubbed fun h => { h with bearings := [(0, { keepers := [(5, { passing := true })] })] }).work.keeper 0 5).todo = 0) := by
  (repeat' apply And.intro) <;> decide +kernel

theorem test_bearingTables :
  ((pointed (entryWord 8 []) tableImage fun h => { h with ten := { h.ten with held := [(6 * 4096 + 5, 0)], sites := [(0, 0)] } }).Issued ref3 (entry3 (entryWord 8 [])) 0x08
      ∧ (pointed (entryWord 8 []) tableImage fun h => { h with ten := { h.ten with held := [(6 * 4096 + 5, 0)], sites := [(0, 0)] } }).HostReads ref3 (entry3 (entryWord 8 [])) 256
      ∧ bits ((pointed (entryWord 8 []) tableImage fun h => { h with ten := { h.ten with held := [(6 * 4096 + 5, 0)], sites := [(0, 0)] } }).hostWord ref3 (entry3 (entryWord 8 [])) 256) 59 48 ≤ 1024
      ∧ 272 = 256 + 16 * bits ((pointed (entryWord 8 []) tableImage fun h => { h with ten := { h.ten with held := [(6 * 4096 + 5, 0)], sites := [(0, 0)] } }).hostWord ref3 (entry3 (entryWord 8 [])) 256) 59 48
      ∧ (pointed (entryWord 8 []) tableImage fun h => { h with ten := { h.ten with held := [(6 * 4096 + 5, 0)], sites := [(0, 0)] } }).HostReads ref3 (entry3 (entryWord 8 [])) 272
      ∧ (leNat tableImage) = (pointed (entryWord 8 []) tableImage fun h => { h with ten := { h.ten with held := [(6 * 4096 + 5, 0)], sites := [(0, 0)] } }).hostWord ref3 (entry3 (entryWord 8 [])) 272
      ∧ (tabHdrOf (leNat tableImage)) = tabHdrOf (leNat tableImage)
      ∧ (([{ kind := 1 }] : List ExpEntry)) = (List.range (tabHdrOf (leNat tableImage)).nexp).map (fun j => expEntryOf (bits (leNat tableImage) (2048 + 128 * j + 127) (2048 + 128 * j)))
      ∧ bits (leNat tableImage) 15 0 = 1
      ∧ (tabHdrOf (leNat tableImage)).berth = ref3.berth
      ∧ ref3.berth < 4096
      ∧ (pointed (entryWord 8 []) tableImage fun h => { h with ten := { h.ten with held := [(6 * 4096 + 5, 0)], sites := [(0, 0)] } }).hub.board.berthsHigh = true
      ∧ (([{ kind := 1 }] : List ExpEntry)).all (pointed (entryWord 8 []) tableImage fun h => { h with ten := { h.ten with held := [(6 * 4096 + 5, 0)], sites := [(0, 0)] } }).work.entryIdent = true
      ∧ (([{ kind := 1 }] : List ExpEntry)).all ((pointed (entryWord 8 []) tableImage fun h => { h with ten := { h.ten with held := [(6 * 4096 + 5, 0)], sites := [(0, 0)] } }).work.entryOwned ref3.berth) = true
      ∧ (pointed (entryWord 8 []) tableImage fun h => { h with ten := { h.ten with held := [(6 * 4096 + 5, 0)], sites := [(0, 0)] } }).work.holder 6 (bits (leNat tableImage) 23 16) = some ref3.berth
      ∧ (pointed (entryWord 8 []) tableImage fun h => { h with ten := { h.ten with held := [(6 * 4096 + 5, 0)], sites := [(0, 0)] } }).work.table (bits (leNat tableImage) 23 16) = none
      ∧ (pointed (entryWord 8 []) tableImage fun h => { h with ten := { h.ten with held := [(6 * 4096 + 5, 0)], sites := [(0, 0)] } }).work.tableShape (tabHdrOf (leNat tableImage)) (([{ kind := 1 }] : List ExpEntry)) = true
      ∧ (pointed (entryWord 8 []) tableImage fun h => { h with ten := { h.ten with held := [(6 * 4096 + 5, 0)], sites := [(0, 0)] } }).work.tableStore + 256 + 16 * (tabHdrOf (leNat tableImage)).nexp ≤ 2 ^ 20)
    ∧ ((pointed (entryWord 9 [(8, 5), (12, 0), (12, 1)]) (leBytes 16 (pack [(2, 1)])) fun h => { h with tables := [(5, table4)], ten := { h.ten with held := [(6 * 4096 + 5, 0)], sites := [(0, 0)] } }).Issued ref3 (entry3 (entryWord 9 [(8, 5), (12, 0), (12, 1)])) 0x09
      ∧ (pointed (entryWord 9 [(8, 5), (12, 0), (12, 1)]) (leBytes 16 (pack [(2, 1)])) fun h => { h with tables := [(5, table4)], ten := { h.ten with held := [(6 * 4096 + 5, 0)], sites := [(0, 0)] } }).work.holder 6 (bits (entry3 (entryWord 9 [(8, 5), (12, 0), (12, 1)])).word 263 256) = some ref3.berth
      ∧ (pointed (entryWord 9 [(8, 5), (12, 0), (12, 1)]) (leBytes 16 (pack [(2, 1)])) fun h => { h with tables := [(5, table4)], ten := { h.ten with held := [(6 * 4096 + 5, 0)], sites := [(0, 0)] } }).work.table (bits (entry3 (entryWord 9 [(8, 5), (12, 0), (12, 1)])).word 263 256) = some table4
      ∧ table4.removing = false
      ∧ table4.upd = none
      ∧ (∀ y ∈ (pointed (entryWord 9 [(8, 5), (12, 0), (12, 1)]) (leBytes 16 (pack [(2, 1)])) fun h => { h with tables := [(5, table4)], ten := { h.ten with held := [(6 * 4096 + 5, 0)], sites := [(0, 0)] } }).hub.tables, y.2.upd = none)
      ∧ 1 = bits (entry3 (entryWord 9 [(8, 5), (12, 0), (12, 1)])).word 287 276
      ∧ bits (entry3 (entryWord 9 [(8, 5), (12, 0), (12, 1)])).word 275 264 + 1 ≤ table4.experts.length
      ∧ (pointed (entryWord 9 [(8, 5), (12, 0), (12, 1)]) (leBytes 16 (pack [(2, 1)])) fun h => { h with tables := [(5, table4)], ten := { h.ten with held := [(6 * 4096 + 5, 0)], sites := [(0, 0)] } }).HostReads ref3 (entry3 (entryWord 9 [(8, 5), (12, 0), (12, 1)])) (16 * 1)
      ∧ (([{ kind := 1 }] : List ExpEntry)) = (List.range 1).map (fun j => expEntryOf (bits ((pointed (entryWord 9 [(8, 5), (12, 0), (12, 1)]) (leBytes 16 (pack [(2, 1)])) fun h => { h with tables := [(5, table4)], ten := { h.ten with held := [(6 * 4096 + 5, 0)], sites := [(0, 0)] } }).hostWord ref3 (entry3 (entryWord 9 [(8, 5), (12, 0), (12, 1)])) (16 * 1)) (128 * j + 127) (128 * j)))
      ∧ (([{ kind := 1 }] : List ExpEntry)).all (pointed (entryWord 9 [(8, 5), (12, 0), (12, 1)]) (leBytes 16 (pack [(2, 1)])) fun h => { h with tables := [(5, table4)], ten := { h.ten with held := [(6 * 4096 + 5, 0)], sites := [(0, 0)] } }).work.entryIdent = true
      ∧ (([{ kind := 1 }] : List ExpEntry)).all ((pointed (entryWord 9 [(8, 5), (12, 0), (12, 1)]) (leBytes 16 (pack [(2, 1)])) fun h => { h with tables := [(5, table4)], ten := { h.ten with held := [(6 * 4096 + 5, 0)], sites := [(0, 0)] } }).work.entryOwned ref3.berth) = true
      ∧ (([{ kind := 1 }] : List ExpEntry)).all (pointed (entryWord 9 [(8, 5), (12, 0), (12, 1)]) (leBytes 16 (pack [(2, 1)])) fun h => { h with tables := [(5, table4)], ten := { h.ten with held := [(6 * 4096 + 5, 0)], sites := [(0, 0)] } }).work.entryShape = true
      ∧ (([{ kind := 1 }] : List ExpEntry)).all (fun y => y.kind ≠ 3) = true)
    ∧ ((issued (entryWord 9 [(8, 5), (12, 0), (12, 1)]) fun h => { h with tables := [(5, { table4 with upd := some { experts := [{ kind := 1 }], done := 3, entry := ref3 } })] }).work.updating ref3 = some 5
      ∧ (issued (entryWord 9 [(8, 5), (12, 0), (12, 1)]) fun h => { h with tables := [(5, { table4 with upd := some { experts := [{ kind := 1 }], done := 3, entry := ref3 } })] }).work.table 5 = some ({ table4 with upd := some { experts := [{ kind := 1 }], done := 3, entry := ref3 } })
      ∧ ({ table4 with upd := some { experts := [{ kind := 1 }], done := 3, entry := ref3 } }).upd = some (({ experts := [{ kind := 1 }], done := 3, entry := ref3 } : TabUpdate))
      ∧ (({ experts := [{ kind := 1 }], done := 3, entry := ref3 } : TabUpdate)).done + 1 < 16)
    ∧ ((issued (entryWord 9 [(8, 5), (12, 0), (12, 1)]) fun h => { h with tables := [(5, { table4 with upd := some { experts := [{ kind := 1 }], done := 15, entry := ref3 } })] }).work.updating ref3 = some 5
      ∧ (issued (entryWord 9 [(8, 5), (12, 0), (12, 1)]) fun h => { h with tables := [(5, { table4 with upd := some { experts := [{ kind := 1 }], done := 15, entry := ref3 } })] }).work.table 5 = some ({ table4 with upd := some { experts := [{ kind := 1 }], done := 15, entry := ref3 } })
      ∧ ({ table4 with upd := some { experts := [{ kind := 1 }], done := 15, entry := ref3 } }).upd = some (({ experts := [{ kind := 1 }], done := 15, entry := ref3 } : TabUpdate))
      ∧ (({ experts := [{ kind := 1 }], done := 15, entry := ref3 } : TabUpdate)).done = 15
      ∧ (({ experts := [{ kind := 1 }], done := 15, entry := ref3 } : TabUpdate)).entry = ref3
      ∧ (issued (entryWord 9 [(8, 5), (12, 0), (12, 1)]) fun h => { h with tables := [(5, { table4 with upd := some { experts := [{ kind := 1 }], done := 15, entry := ref3 } })] }).work.started ref3 = some (entry3 (entryWord 9 [(8, 5), (12, 0), (12, 1)]))
      ∧ ((issued (entryWord 9 [(8, 5), (12, 0), (12, 1)]) fun h => { h with tables := [(5, { table4 with upd := some { experts := [{ kind := 1 }], done := 15, entry := ref3 } })] }).work.ring ref3.berth ref3.ring).px2 = false
      ∧ bit (entry3 (entryWord 9 [(8, 5), (12, 0), (12, 1)])).word 15 = false
      ∧ bit (entry3 (entryWord 9 [(8, 5), (12, 0), (12, 1)])).word 13 = false)
    ∧ ((issued (entryWord 10 [(8, 5), (12, 0), (12, 1), (1, 1)]) fun h => { h with tables := [(5, table4)], ten := { h.ten with held := [(6 * 4096 + 5, 0)] } }).Issued ref3 (entry3 (entryWord 10 [(8, 5), (12, 0), (12, 1), (1, 1)])) 0x0A
      ∧ (issued (entryWord 10 [(8, 5), (12, 0), (12, 1), (1, 1)]) fun h => { h with tables := [(5, table4)], ten := { h.ten with held := [(6 * 4096 + 5, 0)] } }).work.holder 6 (bits (entry3 (entryWord 10 [(8, 5), (12, 0), (12, 1), (1, 1)])).word 263 256) = some ref3.berth
      ∧ (issued (entryWord 10 [(8, 5), (12, 0), (12, 1), (1, 1)]) fun h => { h with tables := [(5, table4)], ten := { h.ten with held := [(6 * 4096 + 5, 0)] } }).work.table (bits (entry3 (entryWord 10 [(8, 5), (12, 0), (12, 1), (1, 1)])).word 263 256) = some table4
      ∧ table4.removing = false
      ∧ bits (entry3 (entryWord 10 [(8, 5), (12, 0), (12, 1), (1, 1)])).word 275 264 + bits (entry3 (entryWord 10 [(8, 5), (12, 0), (12, 1), (1, 1)])).word 287 276 ≤ table4.experts.length)
    ∧ ((issued (entryWord 11 [(8, 5)]) fun h => { h with tables := [(5, table4)], ten := { h.ten with held := [(6 * 4096 + 5, 0)] }, bearings := [(3, { keepers := [(5, { ring := [{}] })] })] }).Issued ref3 (entry3 (entryWord 11 [(8, 5)])) 0x0B
      ∧ (issued (entryWord 11 [(8, 5)]) fun h => { h with tables := [(5, table4)], ten := { h.ten with held := [(6 * 4096 + 5, 0)] }, bearings := [(3, { keepers := [(5, { ring := [{}] })] })] }).work.holder 6 (bits (entry3 (entryWord 11 [(8, 5)])).word 263 256) = some ref3.berth
      ∧ (issued (entryWord 11 [(8, 5)]) fun h => { h with tables := [(5, table4)], ten := { h.ten with held := [(6 * 4096 + 5, 0)] }, bearings := [(3, { keepers := [(5, { ring := [{}] })] })] }).work.table (bits (entry3 (entryWord 11 [(8, 5)])).word 263 256) = some table4
      ∧ table4.removing = false)
    ∧ ((issued (entryWord 12 [(8, 5)]) fun h => { h with tables := [(5, table4)], ten := { h.ten with held := [(6 * 4096 + 5, 0)] } }).Issued ref3 (entry3 (entryWord 12 [(8, 5)])) 0x0C
      ∧ (issued (entryWord 12 [(8, 5)]) fun h => { h with tables := [(5, table4)], ten := { h.ten with held := [(6 * 4096 + 5, 0)] } }).work.holder 6 (bits (entry3 (entryWord 12 [(8, 5)])).word 263 256) = some ref3.berth
      ∧ (issued (entryWord 12 [(8, 5)]) fun h => { h with tables := [(5, table4)], ten := { h.ten with held := [(6 * 4096 + 5, 0)] } }).work.table (bits (entry3 (entryWord 12 [(8, 5)])).word 263 256) = some table4
      ∧ table4.removing = false
      ∧ table4.upd = none)
    ∧ ((issued (entryWord 13 [(8, 5)]) fun h => { h with tables := [(5, table4)], ten := { h.ten with held := [(6 * 4096 + 5, 0)] } }).Issued ref3 (entry3 (entryWord 13 [(8, 5)])) 0x0D
      ∧ (issued (entryWord 13 [(8, 5)]) fun h => { h with tables := [(5, table4)], ten := { h.ten with held := [(6 * 4096 + 5, 0)] } }).work.holder 6 (bits (entry3 (entryWord 13 [(8, 5)])).word 263 256) = some ref3.berth
      ∧ (issued (entryWord 13 [(8, 5)]) fun h => { h with tables := [(5, table4)], ten := { h.ten with held := [(6 * 4096 + 5, 0)] } }).work.table (bits (entry3 (entryWord 13 [(8, 5)])).word 263 256) = some table4
      ∧ table4.removing = false
      ∧ (∀ b < 16, ((issued (entryWord 13 [(8, 5)]) fun h => { h with tables := [(5, table4)], ten := { h.ten with held := [(6 * 4096 + 5, 0)] } }).work.keeper b (bits (entry3 (entryWord 13 [(8, 5)])).word 263 256)).ring = [])) := by
  (repeat' apply And.intro) <;> decide +kernel

theorem test_siteProtocolStart :
  (streamUp ((sited { starting 9 with port := { coh := true } }).work.site 0) = true
      ∧ ((sited { starting 9 with port := { coh := true } }).work.site 0).port.initGot = false
      ∧ initOk ((sited { starting 9 with port := { coh := true } }).work.site 0).port (({ version := 1, coh := true, grants := { snpHdr := 64 } } : InitMsg)) = true)
    ∧ (((sited (starting 9)).work.site 0).state = 6
      ∧ ((sited (starting 9)).work.site 0).link.step = 9
      ∧ ((sited (starting 9)).work.site 0).port.initGot = false
      ∧ ((sited (starting 9)).work.site 0).inEntry = none)
    ∧ (streamUp ((sited { starting 9 with port := { initGot := true, echoes := [[1]], echoLeft := 1 } }).work.site 0) = true
      ∧ ((sited { starting 9 with port := { initGot := true, echoes := [[1]], echoLeft := 1 } }).work.site 0).state = 6
      ∧ ((sited { starting 9 with port := { initGot := true, echoes := [[1]], echoLeft := 1 } }).work.site 0).port.initGot = true
      ∧ ([1]) ∈ ((sited { starting 9 with port := { initGot := true, echoes := [[1]], echoLeft := 1 } }).work.site 0).port.echoes
      ∧ ((sited { starting 9 with port := { initGot := true, echoes := [[1]], echoLeft := 1 } }).work.site 0).port.echoLeft = 1
      ∧ (((sited { starting 9 with port := { initGot := true, echoes := [[1]], echoLeft := 1 } }).work.site 0).link.bundles.any fun b => b.out) = false
      ∧ ((sited { starting 9 with port := { initGot := true, echoes := [[1]], echoLeft := 1 } }).work.site 0).inEntry = none)
    ∧ (streamUp ((sited { starting 9 with port := { initGot := true, echoes := [[1]], echoLeft := 1 } }).work.site 0) = true
      ∧ ((sited { starting 9 with port := { initGot := true, echoes := [[1]], echoLeft := 1 } }).work.site 0).state = 6
      ∧ ((sited { starting 9 with port := { initGot := true, echoes := [[1]], echoLeft := 1 } }).work.site 0).port.echoes ≠ []
      ∧ ((sited { starting 9 with port := { initGot := true, echoes := [[1]], echoLeft := 1 } }).work.site 0).inEntry = none)
    ∧ (streamUp ((sited { full with port := { full.port with fromChip := {} } }).work.site 0) = true
      ∧ ((sited { full with port := { full.port with fromChip := {} } }).work.site 0).port.initGot = true
      ∧ ((sited { full with port := { full.port with fromChip := {} } }).work.site 0).port.snpQueue = []
      ∧ ((sited { full with port := { full.port with fromChip := {} } }).work.site 0).port.tokQueue = []) := by
  (repeat' apply And.intro) <;> decide +kernel

theorem test_siteRequests :
  let admits (s : State) (n op : Nat) (q : ReqHdr) : Prop := streamUp (s.work.site n) = true ∧ (s.work.site n).port.initGot = true
    ∧ (isCohOp op = true → (s.work.site n).port.coh = true) ∧ (spend (s.work.site n).port.toChip (reqCost op q.size)).isSome = true ∧ malformed op q = none
    ∧ q.fence = false ∧ (s.work.site n).port.held = [] ∧ s.work.siteHeld n q.berth = true
  let ready (s : State) (n k : Nat) : Prop := streamUp (s.work.site n) = true ∧ (s.work.site n).link.txQueue = [] ∧ (s.work.site n).link.resend = []
    ∧ (s.work.site n).link.limp = .off ∧ windowOpen (s.work.site n).link = true ∧ nextBundle (s.work.site n).link = some k ∧ (s.work.bundle n (k + 8)).ackOwed = false
    ∧ (s.work.site n).port.held = [] ∧ (s.work.site n).port.hlmHeld = []
  ((0x10, (Instr.rdNc 0 (reqHdr 1 0))) ∈ [(0x10, Instr.rdNc 0 (reqHdr 1 0)), (0x11, .rdShared 0 (reqHdr 1 0)), (0x12, .rdUnique 0 (reqHdr 1 0)), (0x14, .wr 0 (reqHdr 1 0) []), (0x15, .wrPartial 0 (reqHdr 1 0) []), (0x16, .atomic 0 (reqHdr 1 0) []), (0x17, .reduce 0 (reqHdr 1 0) [])]
      ∧ admits (served full) 0 0x10 (reqHdr 1 0)
      ∧ (served full).work.pageHeld (reqHdr 1 0).berth (reqHdr 1 0).addr = false
      ∧ (served full).hub.chart.tlb.find? (fun y => y.unit = 0 && y.berth = (reqHdr 1 0).berth && y.base = (reqHdr 1 0).addr / 2 ^ y.log2 * 2 ^ y.log2) = some (({ unit := 0, berth := 4, base := 0, log2 := 16, leaf := scratchLeaf } : Tlb))
      ∧ ((served full).work.leafCheck 0 (reqHdr 1 0).berth (reqHdr 1 0).addr (({ unit := 0, berth := 4, base := 0, log2 := 16, leaf := scratchLeaf } : Tlb)).leaf (({ unit := 0, berth := 4, base := 0, log2 := 16, leaf := scratchLeaf } : Tlb)).log2 { write := 0x10 = 0x14 || 0x10 = 0x15 || 0x10 = 0x16 || 0x10 = 0x17, coherent := isCohOp 0x10 }).1 = .ok (({ unit := 0, berth := 4, base := 0, log2 := 16, leaf := scratchLeaf } : Tlb)).leaf (leafDpa (({ unit := 0, berth := 4, base := 0, log2 := 16, leaf := scratchLeaf } : Tlb)).leaf (({ unit := 0, berth := 4, base := 0, log2 := 16, leaf := scratchLeaf } : Tlb)).log2 (reqHdr 1 0).addr)
      ∧ bit (({ unit := 0, berth := 4, base := 0, log2 := 16, leaf := scratchLeaf } : Tlb)).leaf 24 = false
      ∧ isWindow ((served full).work.target (leafDpa (({ unit := 0, berth := 4, base := 0, log2 := 16, leaf := scratchLeaf } : Tlb)).leaf (({ unit := 0, berth := 4, base := 0, log2 := 16, leaf := scratchLeaf } : Tlb)).log2 (reqHdr 1 0).addr)) = false
      ∧ (served full).work.otStops (.site 0) (reqHdr 1 0).berth (leafDpa (({ unit := 0, berth := 4, base := 0, log2 := 16, leaf := scratchLeaf } : Tlb)).leaf (({ unit := 0, berth := 4, base := 0, log2 := 16, leaf := scratchLeaf } : Tlb)).log2 (reqHdr 1 0).addr) (movesDown (kindOf 0x10)) = false)
    ∧ ((0x16, (Instr.atomic 0 (reqHdr 0 0) [])) ∈ [(0x10, Instr.rdNc 0 (reqHdr 0 0)), (0x11, .rdShared 0 (reqHdr 0 0)), (0x12, .rdUnique 0 (reqHdr 0 0)), (0x14, .wr 0 (reqHdr 0 0) []), (0x15, .wrPartial 0 (reqHdr 0 0) []), (0x16, .atomic 0 (reqHdr 0 0) []), (0x17, .reduce 0 (reqHdr 0 0) [])]
      ∧ admits (served full) 0 0x16 (reqHdr 0 0)
      ∧ (served full).work.pageHeld (reqHdr 0 0).berth (reqHdr 0 0).addr = false
      ∧ (served full).hub.chart.tlb.find? (fun y => y.unit = 0 && y.berth = (reqHdr 0 0).berth && y.base = (reqHdr 0 0).addr / 2 ^ y.log2 * 2 ^ y.log2) = some (({ unit := 0, berth := 4, base := 0, log2 := 16, leaf := scratchLeaf } : Tlb))
      ∧ ((served full).work.leafCheck 0 (reqHdr 0 0).berth (reqHdr 0 0).addr (({ unit := 0, berth := 4, base := 0, log2 := 16, leaf := scratchLeaf } : Tlb)).leaf (({ unit := 0, berth := 4, base := 0, log2 := 16, leaf := scratchLeaf } : Tlb)).log2 { write := 0x16 = 0x14 || 0x16 = 0x15 || 0x16 = 0x16 || 0x16 = 0x17, coherent := isCohOp 0x16 }).1 = .ok (({ unit := 0, berth := 4, base := 0, log2 := 16, leaf := scratchLeaf } : Tlb)).leaf (leafDpa (({ unit := 0, berth := 4, base := 0, log2 := 16, leaf := scratchLeaf } : Tlb)).leaf (({ unit := 0, berth := 4, base := 0, log2 := 16, leaf := scratchLeaf } : Tlb)).log2 (reqHdr 0 0).addr)
      ∧ bit (({ unit := 0, berth := 4, base := 0, log2 := 16, leaf := scratchLeaf } : Tlb)).leaf 24 = false
      ∧ isWindow ((served full).work.target (leafDpa (({ unit := 0, berth := 4, base := 0, log2 := 16, leaf := scratchLeaf } : Tlb)).leaf (({ unit := 0, berth := 4, base := 0, log2 := 16, leaf := scratchLeaf } : Tlb)).log2 (reqHdr 0 0).addr)) = false
      ∧ (served full).work.otStops (.site 0) (reqHdr 0 0).berth (leafDpa (({ unit := 0, berth := 4, base := 0, log2 := 16, leaf := scratchLeaf } : Tlb)).leaf (({ unit := 0, berth := 4, base := 0, log2 := 16, leaf := scratchLeaf } : Tlb)).log2 (reqHdr 0 0).addr) (movesDown (kindOf 0x16)) = false)
    ∧ ((0x13, (Instr.upgrade 0 physHdr)) ∈ [(0x13, Instr.upgrade 0 physHdr), (0x18, .wbDirty 0 physHdr []), (0x19, .evictClean 0 physHdr)]
      ∧ admits (served full) 0 0x13 physHdr
      ∧ isWindow ((served full).work.target physHdr.addr) = false
      ∧ (0x13 = 0x13 → (served full).work.accessCheck physHdr.berth physHdr.addr = none ∧ (served full).work.otStops (.site 0) physHdr.berth physHdr.addr false = false))
    ∧ (ready (answered false) 0 0
      ∧ tfind (answered false).hub.fabric.rsps 3 = some (({ site := 0, tag := 5, berth := 4 } : Rsp))
      ∧ (({ site := 0, tag := 5, berth := 4 } : Rsp)).site = 0
      ∧ (({ site := 0, tag := 5, berth := 4 } : Rsp)).read = false
      ∧ (answered false).work.injected 3 = true
      ∧ (answered false).work.rspBehind 3 (({ site := 0, tag := 5, berth := 4 } : Rsp)) = false
      ∧ (({ site := 0, tag := 5, berth := 4 } : Rsp)).grant = 0)
    ∧ (ready (answered true) 0 0
      ∧ tfind (answered true).hub.fabric.rsps 3 = some (({ site := 0, tag := 5, berth := 4, read := true } : Rsp))
      ∧ (({ site := 0, tag := 5, berth := 4, read := true } : Rsp)).site = 0
      ∧ (({ site := 0, tag := 5, berth := 4, read := true } : Rsp)).read = true
      ∧ (answered true).work.injected 3 = true
      ∧ (answered true).work.rspBehind 3 (({ site := 0, tag := 5, berth := 4, read := true } : Rsp)) = false
      ∧ (({ site := 0, tag := 5, berth := 4, read := true } : Rsp)).grant = 0
      ∧ (({ site := 0, tag := 5, berth := 4, read := true } : Rsp)).data.length ≤ 256) := by
  (repeat' apply And.intro) <;> decide +kernel

theorem test_siteSnoops :
  (streamUp ((sited { full with port := { full.port with snoops := [(3, { line := 9 })] } }).work.site 0) = true
      ∧ ((sited { full with port := { full.port with snoops := [(3, { line := 9 })] } }).work.site 0).port.initGot = true
      ∧ ((sited { full with port := { full.port with snoops := [(3, { line := 9 })] } }).work.site 0).port.coh = true
      ∧ tfind ((sited { full with port := { full.port with snoops := [(3, { line := 9 })] } }).work.site 0).port.snoops 3 = some (({ line := 9 } : Snoop)))
    ∧ (streamUp ((hubbed fun h => { h with sites := [(0, { full with port := { full.port with snoops := [(3, { line := 9 })] } })], ledger := { h.ledger with txns := [(9, { why := .recall, waiting := [0] })], entries := [(9, { st := .S, sharers := [0] })] } }).work.site 0) = true
      ∧ ((hubbed fun h => { h with sites := [(0, { full with port := { full.port with snoops := [(3, { line := 9 })] } })], ledger := { h.ledger with txns := [(9, { why := .recall, waiting := [0] })], entries := [(9, { st := .S, sharers := [0] })] } }).work.site 0).port.initGot = true
      ∧ ((hubbed fun h => { h with sites := [(0, { full with port := { full.port with snoops := [(3, { line := 9 })] } })], ledger := { h.ledger with txns := [(9, { why := .recall, waiting := [0] })], entries := [(9, { st := .S, sharers := [0] })] } }).work.site 0).port.coh = true
      ∧ tfind ((hubbed fun h => { h with sites := [(0, { full with port := { full.port with snoops := [(3, { line := 9 })] } })], ledger := { h.ledger with txns := [(9, { why := .recall, waiting := [0] })], entries := [(9, { st := .S, sharers := [0] })] } }).work.site 0).port.snoops 3 = some (({ line := 9 } : Snoop))
      ∧ (({ line := 9 } : Snoop)).host = false
      ∧ ((hubbed fun h => { h with sites := [(0, { full with port := { full.port with snoops := [(3, { line := 9 })] } })], ledger := { h.ledger with txns := [(9, { why := .recall, waiting := [0] })], entries := [(9, { st := .S, sharers := [0] })] } }).work.site 0).port.snpQueue = []
      ∧ (hubbed fun h => { h with sites := [(0, { full with port := { full.port with snoops := [(3, { line := 9 })] } })], ledger := { h.ledger with txns := [(9, { why := .recall, waiting := [0] })], entries := [(9, { st := .S, sharers := [0] })] } }).hub.ledger.txns = [((({ line := 9 } : Snoop)).line, (({ why := .recall, waiting := [0] } : Txn)))]
      ∧ (hubbed fun h => { h with sites := [(0, { full with port := { full.port with snoops := [(3, { line := 9 })] } })], ledger := { h.ledger with txns := [(9, { why := .recall, waiting := [0] })], entries := [(9, { st := .S, sharers := [0] })] } }).hub.ledger.entries = [((({ line := 9 } : Snoop)).line, (({ st := .S, sharers := [0] } : LEntry)))]
      ∧ (hubbed fun h => { h with sites := [(0, { full with port := { full.port with snoops := [(3, { line := 9 })] } })], ledger := { h.ledger with txns := [(9, { why := .recall, waiting := [0] })], entries := [(9, { st := .S, sharers := [0] })] } }).hub.ledger.waits = []
      ∧ (hubbed fun h => { h with sites := [(0, { full with port := { full.port with snoops := [(3, { line := 9 })] } })], ledger := { h.ledger with txns := [(9, { why := .recall, waiting := [0] })], entries := [(9, { st := .S, sharers := [0] })] } }).hub.chart.holds = []
      ∧ (({ why := .recall, waiting := [0] } : Txn)) = { why := .recall, waiting := [0] }
      ∧ (({ st := .S, sharers := [0] } : LEntry)).st = .S
      ∧ (({ st := .S, sharers := [0] } : LEntry)).sharers = [0])
    ∧ ((tfind ((sited { full with port := { full.port with snoops := [(3, { line := 9 })] } }).work.site 0).port.snoops 3).isSome = true
      ∧ siteServing ((sited { full with port := { full.port with snoops := [(3, { line := 9 })] } }).work.site 0) = true
      ∧ ((sited { full with port := { full.port with snoops := [(3, { line := 9 })] } }).work.site 0).recal = none
      ∧ ((sited { full with port := { full.port with snoops := [(3, { line := 9 })] } }).work.site 0).port.tokIns = []
      ∧ ((sited { full with port := { full.port with snoops := [(3, { line := 9 })] } }).work.site 0).port.tokQueue = []) := by
  (repeat' apply And.intro) <;> decide +kernel

theorem test_siteHelm :
  let takes (s : State) (n : Nat) (o : HlmOp) : Prop := streamUp (s.work.site n) = true ∧ (s.work.site n).port.initGot = true ∧ (s.work.site n).port.helm = true
    ∧ 0 < (s.work.site n).port.toChip.hlmHdr ∧ (s.work.site n).port.hlmHeld = [] ∧ s.work.unitPaused 2 = false ∧ o.release = false
  (takes helmed 0 (({ tag := 1, berth := 4, object := 7, value := 2 } : HlmOp))
      ∧ hlmOk 0 (({ tag := 1, berth := 4, object := 7, value := 2 } : HlmOp)) = true
      ∧ helmed.work.holder 2 (({ tag := 1, berth := 4, object := 7, value := 2 } : HlmOp)).object = some (({ tag := 1, berth := 4, object := 7, value := 2 } : HlmOp)).berth
      ∧ (helmed.work.mark (({ tag := 1, berth := 4, object := 7, value := 2 } : HlmOp)).object).sat = false
      ∧ (helmed.work.mark (({ tag := 1, berth := 4, object := 7, value := 2 } : HlmOp)).object).value + (({ tag := 1, berth := 4, object := 7, value := 2 } : HlmOp)).value ≤ 0xFFFFFFFF)
    ∧ (takes helmed 0 (({ tag := 1, berth := 4, object := 7, value := 9 } : HlmOp))
      ∧ hlmOk 1 (({ tag := 1, berth := 4, object := 7, value := 9 } : HlmOp)) = true
      ∧ helmed.work.holder 2 (({ tag := 1, berth := 4, object := 7, value := 9 } : HlmOp)).object = some (({ tag := 1, berth := 4, object := 7, value := 9 } : HlmOp)).berth
      ∧ (helmed.work.mark (({ tag := 1, berth := 4, object := 7, value := 9 } : HlmOp)).object).sat = false
      ∧ (helmed.work.mark (({ tag := 1, berth := 4, object := 7, value := 9 } : HlmOp)).object).value < (({ tag := 1, berth := 4, object := 7, value := 9 } : HlmOp)).value
      ∧ helmed.hub.helm.waiters.length < 16384)
    ∧ (takes helmed 0 (({ tag := 1, berth := 4, object := 7 } : HlmOp))
      ∧ hlmOk 2 (({ tag := 1, berth := 4, object := 7 } : HlmOp)) = true
      ∧ helmed.work.holder 2 (({ tag := 1, berth := 4, object := 7 } : HlmOp)).object = some (({ tag := 1, berth := 4, object := 7 } : HlmOp)).berth
      ∧ (helmed.work.mark (({ tag := 1, berth := 4, object := 7 } : HlmOp)).object).sat = false
      ∧ (helmed.work.site 0).link.txQueue = []
      ∧ (helmed.work.site 0).link.resend = []
      ∧ (helmed.work.site 0).link.limp = .off
      ∧ windowOpen (helmed.work.site 0).link = true
      ∧ nextBundle (helmed.work.site 0).link = some 0
      ∧ (helmed.work.bundle 0 (0 + 8)).ackOwed = false)
    ∧ (takes helmed 0 (({ tag := 1, berth := 4, object := 2, value := 1 } : HlmOp))
      ∧ hlmOk 3 (({ tag := 1, berth := 4, object := 2, value := 1 } : HlmOp)) = true
      ∧ (({ tag := 1, berth := 4, object := 2, value := 1 } : HlmOp)).value = 1
      ∧ helmed.work.holder 3 (({ tag := 1, berth := 4, object := 2, value := 1 } : HlmOp)).object = some (({ tag := 1, berth := 4, object := 2, value := 1 } : HlmOp)).berth
      ∧ (helmed.work.gate (({ tag := 1, berth := 4, object := 2, value := 1 } : HlmOp)).object).broken = false
      ∧ (helmed.work.gate (({ tag := 1, berth := 4, object := 2, value := 1 } : HlmOp)).object).sentArrive = false
      ∧ (helmed.work.gate (({ tag := 1, berth := 4, object := 2, value := 1 } : HlmOp)).object).count + 1 < (helmed.work.gate (({ tag := 1, berth := 4, object := 2, value := 1 } : HlmOp)).object).parties)
    ∧ (takes helmed 0 (({ tag := 1, berth := 4, object := 3, value := 2 } : HlmOp))
      ∧ hlmOk 4 (({ tag := 1, berth := 4, object := 3, value := 2 } : HlmOp)) = true
      ∧ helmed.work.holder 4 (({ tag := 1, berth := 4, object := 3, value := 2 } : HlmOp)).object = some (({ tag := 1, berth := 4, object := 3, value := 2 } : HlmOp)).berth
      ∧ 0 < (({ tag := 1, berth := 4, object := 3, value := 2 } : HlmOp)).value
      ∧ (({ tag := 1, berth := 4, object := 3, value := 2 } : HlmOp)).value ≤ (helmed.work.sem (({ tag := 1, berth := 4, object := 3, value := 2 } : HlmOp)).object).count
      ∧ (helmed.work.sem (({ tag := 1, berth := 4, object := 3, value := 2 } : HlmOp)).object).count ≤ (helmed.work.sem (({ tag := 1, berth := 4, object := 3, value := 2 } : HlmOp)).object).max
      ∧ helmed.hub.helm.waiters = [])
    ∧ (takes helmed 0 (({ tag := 1, berth := 4, object := 3, value := 2 } : HlmOp))
      ∧ hlmOk 5 (({ tag := 1, berth := 4, object := 3, value := 2 } : HlmOp)) = true
      ∧ helmed.work.holder 4 (({ tag := 1, berth := 4, object := 3, value := 2 } : HlmOp)).object = some (({ tag := 1, berth := 4, object := 3, value := 2 } : HlmOp)).berth
      ∧ 0 < (helmed.work.sem (({ tag := 1, berth := 4, object := 3, value := 2 } : HlmOp)).object).max
      ∧ (helmed.work.sem (({ tag := 1, berth := 4, object := 3, value := 2 } : HlmOp)).object).count + (({ tag := 1, berth := 4, object := 3, value := 2 } : HlmOp)).value ≤ (helmed.work.sem (({ tag := 1, berth := 4, object := 3, value := 2 } : HlmOp)).object).max
      ∧ helmed.hub.helm.waiters = [])
    ∧ (helmLive (helmed.work.site 0) = true
      ∧ tfind helmed.hub.helm.bindings (0 * 64 + 1) = some (({ action := 1, object := 7, berth := 4 } : Binding))
      ∧ (({ action := 1, object := 7, berth := 4 } : Binding)).action = 1
      ∧ helmed.work.helmPaused = false
      ∧ helmed.work.holder 2 (({ action := 1, object := 7, berth := 4 } : Binding)).object = some (({ action := 1, object := 7, berth := 4 } : Binding)).berth
      ∧ (helmed.work.mark (({ action := 1, object := 7, berth := 4 } : Binding)).object).sat = false
      ∧ (helmed.work.mark (({ action := 1, object := 7, berth := 4 } : Binding)).object).value < 0xFFFFFFFF)
    ∧ (helmLive (helmed.work.site 0) = true
      ∧ tfind helmed.hub.helm.bindings (0 * 64 + 32 + 4) = some (({ action := 2, object := 7, owed := 2 } : Binding))
      ∧ 0 < (({ action := 2, object := 7, owed := 2 } : Binding)).owed) := by
  (repeat' apply And.intro) <;> decide +kernel

theorem test_sitePower :
  (sidebandUp ((sited full).work.site 0) = true)
    ∧ (siteServing ((sited full).work.site 0) = true)
    ∧ (siteServing ((sited { full with power := { full.power with limit := 400, power := 401 } }).work.site 0) = true
      ∧ ((sited { full with power := { full.power with limit := 400, power := 401 } }).work.site 0).power.limit < ((sited { full with power := { full.power with limit := 400, power := 401 } }).work.site 0).power.power
      ∧ ((sited { full with power := { full.power with limit := 400, power := 401 } }).hub.mlog.tail + 1) % 4096 ≠ (sited { full with power := { full.power with limit := 400, power := 401 } }).hub.mlog.head)
    ∧ (sidebandUp ((sited full).work.site 0) = true
      ∧ 1 < 3
      ∧ ((sited full).hub.mlog.tail + 1) % 4096 ≠ (sited full).hub.mlog.head)
    ∧ (siteServing ((sited full).work.site 0) = true
      ∧ ((sited full).work.site 0).recal = none
      ∧ ((sited full).work.site 0).port.tokIns = []
      ∧ ((sited full).work.site 0).port.tokQueue = [])
    ∧ (sidebandUp ((sited full).work.site 0) = true)
    ∧ (((sited { full with power := { full.power with thermN := false, thermPending := true } }).work.site 0).power.thermPending = true
      ∧ ((sited { full with power := { full.power with thermN := false, thermPending := true } }).work.site 0).power.thermN = false
      ∧ siteServing ((sited { full with power := { full.power with thermN := false, thermPending := true } }).work.site 0) = true
      ∧ ((sited { full with power := { full.power with thermN := false, thermPending := true } }).work.site 0).recal = none
      ∧ ((sited { full with power := { full.power with thermN := false, thermPending := true } }).work.site 0).port.tokIns = []
      ∧ ((sited { full with power := { full.power with thermN := false, thermPending := true } }).work.site 0).port.tokQueue = [])
    ∧ (((sited { full with power := { full.power with thermN := false, thermPending := true } }).work.site 0).power.thermPending = true
      ∧ sidebandUp ((sited { full with power := { full.power with thermN := false, thermPending := true } }).work.site 0) = true) := by
  (repeat' apply And.intro) <;> decide +kernel

theorem test_packs :
  ((pointed (entryWord 0x10 []) packImage fun h => { h with ten := { h.ten with held := [(7 * 4096 + 9, 0)] }, board := { h.board with berthsHigh := true } }).Issued ref3 (entry3 (entryWord 0x10 [])) 0x10
      ∧ (pointed (entryWord 0x10 []) packImage fun h => { h with ten := { h.ten with held := [(7 * 4096 + 9, 0)] }, board := { h.board with berthsHigh := true } }).HostReads ref3 (entry3 (entryWord 0x10 [])) 64
      ∧ (leNat packImage) = (pointed (entryWord 0x10 []) packImage fun h => { h with ten := { h.ten with held := [(7 * 4096 + 9, 0)] }, board := { h.board with berthsHigh := true } }).hostWord ref3 (entry3 (entryWord 0x10 [])) 64
      ∧ 9 = bits (leNat packImage) 27 16
      ∧ bits (leNat packImage) 15 0 = 1
      ∧ bits (leNat packImage) 45 32 = ref3.berth
      ∧ ref3.berth < 4096
      ∧ (pointed (entryWord 0x10 []) packImage fun h => { h with ten := { h.ten with held := [(7 * 4096 + 9, 0)] }, board := { h.board with berthsHigh := true } }).hub.board.berthsHigh = true
      ∧ (pointed (entryWord 0x10 []) packImage fun h => { h with ten := { h.ten with held := [(7 * 4096 + 9, 0)] }, board := { h.board with berthsHigh := true } }).work.holder 7 9 = some ref3.berth
      ∧ tfind (pointed (entryWord 0x10 []) packImage fun h => { h with ten := { h.ten with held := [(7 * 4096 + 9, 0)] }, board := { h.board with berthsHigh := true } }).hub.packs 9 = none
      ∧ packShape { berth := ref3.berth, word := (leNat packImage) } = true
      ∧ (∀ y ∈ (pointed (entryWord 0x10 []) packImage fun h => { h with ten := { h.ten with held := [(7 * 4096 + 9, 0)] }, board := { h.board with berthsHigh := true } }).hub.packs, y.2.berth = ref3.berth → packsMeet { berth := ref3.berth, word := (leNat packImage) } y.2 = false))
    ∧ ((issued (entryWord 0x11 [(12, 9)]) fun h => { h with packs := [(9, {})], ten := { h.ten with held := [(7 * 4096 + 9, 0)] } }).Issued ref3 (entry3 (entryWord 0x11 [(12, 9)])) 0x11
      ∧ 9 = bits (entry3 (entryWord 0x11 [(12, 9)])).word 267 256
      ∧ (issued (entryWord 0x11 [(12, 9)]) fun h => { h with packs := [(9, {})], ten := { h.ten with held := [(7 * 4096 + 9, 0)] } }).work.holder 7 9 = some ref3.berth
      ∧ tfind (issued (entryWord 0x11 [(12, 9)]) fun h => { h with packs := [(9, {})], ten := { h.ten with held := [(7 * 4096 + 9, 0)] } }).hub.packs 9 = some (({} : Pack))
      ∧ (({} : Pack)).removing = false) := by
  (repeat' apply And.intro) <;> decide +kernel

theorem test_recipes :
  ((pointed (entryWord 0x04 []) recipeImage fun h => { h with ten := { h.ten with held := [(5 * 4096 + 9, 0)] }, board := { h.board with berthsHigh := true } }).Issued ref3 (entry3 (entryWord 0x04 [])) 0x04
      ∧ (pointed (entryWord 0x04 []) recipeImage fun h => { h with ten := { h.ten with held := [(5 * 4096 + 9, 0)] }, board := { h.board with berthsHigh := true } }).HostReads ref3 (entry3 (entryWord 0x04 [])) 64
      ∧ (leNat (recipeImage.take 64)) = (pointed (entryWord 0x04 []) recipeImage fun h => { h with ten := { h.ten with held := [(5 * 4096 + 9, 0)] }, board := { h.board with berthsHigh := true } }).hostWord ref3 (entry3 (entryWord 0x04 [])) 64
      ∧ (pointed (entryWord 0x04 []) recipeImage fun h => { h with ten := { h.ten with held := [(5 * 4096 + 9, 0)] }, board := { h.board with berthsHigh := true } }).HostReads ref3 (entry3 (entryWord 0x04 [])) (imageBytes (leNat (recipeImage.take 64)))
      ∧ (leNat recipeImage) = (pointed (entryWord 0x04 []) recipeImage fun h => { h with ten := { h.ten with held := [(5 * 4096 + 9, 0)] }, board := { h.board with berthsHigh := true } }).hostWord ref3 (entry3 (entryWord 0x04 [])) (imageBytes (leNat (recipeImage.take 64)))
      ∧ (recipeAt (leNat recipeImage)) = recipeAt (leNat recipeImage)
      ∧ 9 = bits (leNat recipeImage) 25 16
      ∧ bits (leNat recipeImage) 15 0 = 1
      ∧ (recipeAt (leNat recipeImage)).berth = ref3.berth
      ∧ ref3.berth < 4096
      ∧ (pointed (entryWord 0x04 []) recipeImage fun h => { h with ten := { h.ten with held := [(5 * 4096 + 9, 0)] }, board := { h.board with berthsHigh := true } }).hub.board.berthsHigh = true
      ∧ (recipeAt (leNat recipeImage)).steps.all (pointed (entryWord 0x04 []) recipeImage fun h => { h with ten := { h.ten with held := [(5 * 4096 + 9, 0)] }, board := { h.board with berthsHigh := true } }).work.stepIdent = true
      ∧ (pointed (entryWord 0x04 []) recipeImage fun h => { h with ten := { h.ten with held := [(5 * 4096 + 9, 0)] }, board := { h.board with berthsHigh := true } }).work.holder 5 9 = some ref3.berth
      ∧ (∀ st ∈ (recipeAt (leNat recipeImage)).steps, stepObject st = none)
      ∧ tfind (pointed (entryWord 0x04 []) recipeImage fun h => { h with ten := { h.ten with held := [(5 * 4096 + 9, 0)] }, board := { h.board with berthsHigh := true } }).hub.recipes 9 = none
      ∧ recipeShape (recipeAt (leNat recipeImage)) = true)
    ∧ ((issued (entryWord 0x05 [(10, 9)]) fun h => { h with recipes := [(9, {})], ten := { h.ten with held := [(5 * 4096 + 9, 0)] } }).Issued ref3 (entry3 (entryWord 0x05 [(10, 9)])) 0x05
      ∧ 9 = bits (entry3 (entryWord 0x05 [(10, 9)])).word 265 256
      ∧ (issued (entryWord 0x05 [(10, 9)]) fun h => { h with recipes := [(9, {})], ten := { h.ten with held := [(5 * 4096 + 9, 0)] } }).work.holder 5 9 = some ref3.berth
      ∧ tfind (issued (entryWord 0x05 [(10, 9)]) fun h => { h with recipes := [(9, {})], ten := { h.ten with held := [(5 * 4096 + 9, 0)] } }).hub.recipes 9 = some (({} : Recipe))
      ∧ (({} : Recipe)).removing = false)
    ∧ ((issued (pack [(8, 2), (120, 0), (8, 3), (10, 9)]) fun h => { h with recipes := [(9, {})], ten := { h.ten with held := [(4096 + 3, 0)] } }).Issued ref3 (entry3 (pack [(8, 2), (120, 0), (8, 3), (10, 9)])) 0x02
      ∧ 3 = bits (entry3 (pack [(8, 2), (120, 0), (8, 3), (10, 9)])).word 135 128
      ∧ 3 < 64
      ∧ ((issued (pack [(8, 2), (120, 0), (8, 3), (10, 9)]) fun h => { h with recipes := [(9, {})], ten := { h.ten with held := [(4096 + 3, 0)] } }).work.wright 3).failed = false
      ∧ (issued (pack [(8, 2), (120, 0), (8, 3), (10, 9)]) fun h => { h with recipes := [(9, {})], ten := { h.ten with held := [(4096 + 3, 0)] } }).work.holder 1 3 = some ref3.berth
      ∧ (launchAt ref3 (pack [(8, 2), (120, 0), (8, 3), (10, 9)])) = launchAt ref3 (entry3 (pack [(8, 2), (120, 0), (8, 3), (10, 9)])).word
      ∧ tfind (issued (pack [(8, 2), (120, 0), (8, 3), (10, 9)]) fun h => { h with recipes := [(9, {})], ten := { h.ten with held := [(4096 + 3, 0)] } }).hub.recipes (launchAt ref3 (pack [(8, 2), (120, 0), (8, 3), (10, 9)])).recipe = some (({} : Recipe))
      ∧ (({} : Recipe)).berth = ref3.berth
      ∧ (({} : Recipe)).removing = false
      ∧ ((({} : Recipe)).serve = true ∨ bits (entry3 (pack [(8, 2), (120, 0), (8, 3), (10, 9)])).word 381 352 = 0)
      ∧ ((issued (pack [(8, 2), (120, 0), (8, 3), (10, 9)]) fun h => { h with recipes := [(9, {})], ten := { h.ten with held := [(4096 + 3, 0)] } }).work.wright 3).out = false
      ∧ ((issued (pack [(8, 2), (120, 0), (8, 3), (10, 9)]) fun h => { h with recipes := [(9, {})], ten := { h.ten with held := [(4096 + 3, 0)] } }).work.wright 3).queue.length < 16
      ∧ (((issued (pack [(8, 2), (120, 0), (8, 3), (10, 9)]) fun h => { h with recipes := [(9, {})], ten := { h.ten with held := [(4096 + 3, 0)] } }).work.wright 3).queue ≠ [] ∨ (launchAt ref3 (pack [(8, 2), (120, 0), (8, 3), (10, 9)])).startEn = false))
    ∧ (((engined { queue := [{ recipe := 9, berth := 4 }] } fun h => { h with recipes := [(9, { berth := 4 })] }).work.wright 0).run = none
      ∧ ((engined { queue := [{ recipe := 9, berth := 4 }] } fun h => { h with recipes := [(9, { berth := 4 })] }).work.wright 0).queue = (({ recipe := 9, berth := 4 } : Launch)) :: []
      ∧ ((engined { queue := [{ recipe := 9, berth := 4 }] } fun h => { h with recipes := [(9, { berth := 4 })] }).work.wright 0).out = false
      ∧ (({ recipe := 9, berth := 4 } : Launch)).startFailed = 0
      ∧ ((({ recipe := 9, berth := 4 } : Launch)).startEn = false ∨ (({ recipe := 9, berth := 4 } : Launch)).startMet = true)
      ∧ tfind (engined { queue := [{ recipe := 9, berth := 4 }] } fun h => { h with recipes := [(9, { berth := 4 })] }).hub.recipes (({ recipe := 9, berth := 4 } : Launch)).recipe = some (({ berth := 4 } : Recipe))
      ∧ (engined { queue := [{ recipe := 9, berth := 4 }] } fun h => { h with recipes := [(9, { berth := 4 })] }).work.imageLost 0 (({ recipe := 9, berth := 4 } : Launch)).recipe (({ berth := 4 } : Recipe)) = false
      ∧ (({ berth := 4 } : Recipe)).nparam = 0
      ∧ (({ berth := 4 } : Recipe)).serve = false)
    ∧ (((withBytes (engined { queue := [{ recipe := 9, berth := 4, param := 0x100 }] } fun h => { h with recipes := [(9, { berth := 4, nparam := 1 })] }) (0x4000000100) [5]).work.wright 0).run = none
      ∧ ((withBytes (engined { queue := [{ recipe := 9, berth := 4, param := 0x100 }] } fun h => { h with recipes := [(9, { berth := 4, nparam := 1 })] }) (0x4000000100) [5]).work.wright 0).queue = (({ recipe := 9, berth := 4, param := 0x100 } : Launch)) :: []
      ∧ ((withBytes (engined { queue := [{ recipe := 9, berth := 4, param := 0x100 }] } fun h => { h with recipes := [(9, { berth := 4, nparam := 1 })] }) (0x4000000100) [5]).work.wright 0).out = false
      ∧ (({ recipe := 9, berth := 4, param := 0x100 } : Launch)).startFailed = 0
      ∧ ((({ recipe := 9, berth := 4, param := 0x100 } : Launch)).startEn = false ∨ (({ recipe := 9, berth := 4, param := 0x100 } : Launch)).startMet = true)
      ∧ tfind (withBytes (engined { queue := [{ recipe := 9, berth := 4, param := 0x100 }] } fun h => { h with recipes := [(9, { berth := 4, nparam := 1 })] }) (0x4000000100) [5]).hub.recipes (({ recipe := 9, berth := 4, param := 0x100 } : Launch)).recipe = some (({ berth := 4, nparam := 1 } : Recipe))
      ∧ (withBytes (engined { queue := [{ recipe := 9, berth := 4, param := 0x100 }] } fun h => { h with recipes := [(9, { berth := 4, nparam := 1 })] }) (0x4000000100) [5]).work.imageLost 0 (({ recipe := 9, berth := 4, param := 0x100 } : Launch)).recipe (({ berth := 4, nparam := 1 } : Recipe)) = false
      ∧ 0 < (({ berth := 4, nparam := 1 } : Recipe)).nparam
      ∧ (({ berth := 4, nparam := 1 } : Recipe)).nparam ≤ 64
      ∧ (({ berth := 4, nparam := 1 } : Recipe)).serve = false
      ∧ ((withBytes (engined { queue := [{ recipe := 9, berth := 4, param := 0x100 }] } fun h => { h with recipes := [(9, { berth := 4, nparam := 1 })] }) (0x4000000100) [5]).work.readDva (wrightUnit 0) (({ recipe := 9, berth := 4, param := 0x100 } : Launch)).berth (({ recipe := 9, berth := 4, param := 0x100 } : Launch)).param (8 * (({ berth := 4, nparam := 1 } : Recipe)).nparam) 1 (some (.wright 0, 0))).1 = .ok ([5, 0, 0, 0, 0, 0, 0, 0]) [])
    ∧ ((issued (entryWord 0x03 [(8, 0)]) fun h => { h with wrights := [(0, { run := some (atStep {}), accesses := [{ store := true }] })], ten := { h.ten with held := [(4096, 0)] } }).Issued ref3 (entry3 (entryWord 0x03 [(8, 0)])) 0x03
      ∧ 0 = bits (entry3 (entryWord 0x03 [(8, 0)])).word 263 256
      ∧ 0 < 64
      ∧ ((issued (entryWord 0x03 [(8, 0)]) fun h => { h with wrights := [(0, { run := some (atStep {}), accesses := [{ store := true }] })], ten := { h.ten with held := [(4096, 0)] } }).work.wright 0).failed = false
      ∧ (issued (entryWord 0x03 [(8, 0)]) fun h => { h with wrights := [(0, { run := some (atStep {}), accesses := [{ store := true }] })], ten := { h.ten with held := [(4096, 0)] } }).work.holder 1 0 = some ref3.berth
      ∧ ((issued (entryWord 0x03 [(8, 0)]) fun h => { h with wrights := [(0, { run := some (atStep {}), accesses := [{ store := true }] })], ten := { h.ten with held := [(4096, 0)] } }).work.wright 0).run = some (atStep {})
      ∧ (atStep {}).phase = .issue
      ∧ (atStep {}).current = none
      ∧ ((issued (entryWord 0x03 [(8, 0)]) fun h => { h with wrights := [(0, { run := some (atStep {}), accesses := [{ store := true }] })], ten := { h.ten with held := [(4096, 0)] } }).work.wright 0).inbox = []
      ∧ ((issued (entryWord 0x03 [(8, 0)]) fun h => { h with wrights := [(0, { run := some (atStep {}), accesses := [{ store := true }] })], ten := { h.ten with held := [(4096, 0)] } }).work.wright 0).queue = []) := by
  (repeat' apply And.intro) <;> decide +kernel

theorem test_controlSteps :
  let count (r : Run) : Nat := if bit (curStep r).mode 0 then r.params.getD (bits (curStep r).imm 5 0) 0 % 2 ^ 32 else bits (curStep r).imm 23 0
  ((runs {}).CanIssue 0 0x00 (atStep {}))
    ∧ ((runs { op := 1, imm := 5 }).CanIssue 0 0x01 (atStep { op := 1, imm := 5 })
      ∧ 0 < count (atStep { op := 1, imm := 5 }))
    ∧ ((runs { op := 1 }).CanIssue 0 0x01 (atStep { op := 1 })
      ∧ count (atStep { op := 1 }) = 0)
    ∧ ((engined { run := some { atStep {} with pc := 2, loops := [(1, 3, 1)] } } id).CanIssue 0 0x02 ({ atStep {} with pc := 2, loops := [(1, 3, 1)] })
      ∧ ({ atStep {} with pc := 2, loops := [(1, 3, 1)] }).loops = [] ++ [(1, 3, 1)]
      ∧ 1 + 1 < 3)
    ∧ ((engined { run := some { atStep {} with pc := 2, loops := [(1, 3, 2)] } } id).CanIssue 0 0x02 ({ atStep {} with pc := 2, loops := [(1, 3, 2)] })
      ∧ ({ atStep {} with pc := 2, loops := [(1, 3, 2)] }).loops = [] ++ [(1, 3, 2)]
      ∧ 3 ≤ 2 + 1)
    ∧ ((runs { op := 7 }).CanIssue 0 0x07 (atStep { op := 7 }))
    ∧ ((runs { op := 5, imm := 7 }).CanIssue 0 0x05 (atStep { op := 5, imm := 7 })
      ∧ (runs { op := 5, imm := 7 }).work.helmPaused = false
      ∧ (curStep (atStep { op := 5, imm := 7 })).mode = 0
      ∧ 7 = bits (curStep (atStep { op := 5, imm := 7 })).imm 11 0
      ∧ 7 = (atStep { op := 5, imm := 7 }).params.getD (curStep (atStep { op := 5, imm := 7 })).sb 0 % 2 ^ 32
      ∧ (runs { op := 5, imm := 7 }).work.holder 2 7 = some (atStep { op := 5, imm := 7 }).launch.berth
      ∧ ((runs { op := 5, imm := 7 }).work.mark 7).sat = false
      ∧ 7 ≤ ((runs { op := 5, imm := 7 }).work.mark 7).value)
    ∧ ((engined { run := some { atStep { op := 5, imm := 7 } with params := [10] } } id).CanIssue 0 0x05 ({ atStep { op := 5, imm := 7 } with params := [10] })
      ∧ (engined { run := some { atStep { op := 5, imm := 7 } with params := [10] } } id).work.helmPaused = false
      ∧ (curStep ({ atStep { op := 5, imm := 7 } with params := [10] })).mode = 0
      ∧ 7 = bits (curStep ({ atStep { op := 5, imm := 7 } with params := [10] })).imm 11 0
      ∧ 10 = ({ atStep { op := 5, imm := 7 } with params := [10] }).params.getD (curStep ({ atStep { op := 5, imm := 7 } with params := [10] })).sb 0 % 2 ^ 32
      ∧ (engined { run := some { atStep { op := 5, imm := 7 } with params := [10] } } id).work.holder 2 7 = some ({ atStep { op := 5, imm := 7 } with params := [10] }).launch.berth
      ∧ ((engined { run := some { atStep { op := 5, imm := 7 } with params := [10] } } id).work.mark 7).sat = false
      ∧ ((engined { run := some { atStep { op := 5, imm := 7 } with params := [10] } } id).work.mark 7).value < 10
      ∧ (engined { run := some { atStep { op := 5, imm := 7 } with params := [10] } } id).hub.helm.waiters.length < 16384)
    ∧ (((engined { run := some { atStep { op := 5, imm := 7 } with phase := .helm, waitMet := some 0 } } id).work.wright 0).run = some ({ atStep { op := 5, imm := 7 } with phase := .helm, waitMet := some 0 })
      ∧ ({ atStep { op := 5, imm := 7 } with phase := .helm, waitMet := some 0 }).phase = .helm
      ∧ ({ atStep { op := 5, imm := 7 } with phase := .helm, waitMet := some 0 }).waitMet = some 0)
    ∧ ((runs { op := 6, imm := 7 }).CanIssue 0 0x06 (atStep { op := 6, imm := 7 })
      ∧ (runs { op := 6, imm := 7 }).work.helmPaused = false
      ∧ (curStep (atStep { op := 6, imm := 7 })).mode = 0
      ∧ 7 = bits (curStep (atStep { op := 6, imm := 7 })).imm 11 0
      ∧ (∀ a ∈ ((runs { op := 6, imm := 7 }).work.wright 0).accesses, a.store = false)
      ∧ (runs { op := 6, imm := 7 }).work.holder 2 7 = some (atStep { op := 6, imm := 7 }).launch.berth
      ∧ ((runs { op := 6, imm := 7 }).work.mark 7).sat = false
      ∧ ((runs { op := 6, imm := 7 }).work.mark 7).value < 0xFFFFFFFF
      ∧ (runs { op := 6, imm := 7 }).hub.helm.waiters = [])
    ∧ ((engined { run := some (atStep { op := 0x0F }), accesses := [{}] } id).CanIssue 0 0x0F (atStep { op := 0x0F })
      ∧ ((engined { run := some (atStep { op := 0x0F }), accesses := [{}] } id).work.wright 0).accesses ≠ [])
    ∧ ((issued 2 fun h => { h with wrights := [(0, { run := some (atStep { op := 0x0F }) })] }).CanIssue 0 0x0F (atStep { op := 0x0F })
      ∧ ((issued 2 fun h => { h with wrights := [(0, { run := some (atStep { op := 0x0F }) })] }).work.wright 0).accesses = []
      ∧ (atStep { op := 0x0F }).current = none
      ∧ (atStep { op := 0x0F }).launch.doneEn = false
      ∧ (atStep { op := 0x0F }).launch.report = 0
      ∧ ((issued 2 fun h => { h with wrights := [(0, { run := some (atStep { op := 0x0F }) })] }).work.wright 0).draining = none
      ∧ ((issued 2 fun h => { h with wrights := [(0, { run := some (atStep { op := 0x0F }) })] }).work.wright 0).queue = []
      ∧ (issued 2 fun h => { h with wrights := [(0, { run := some (atStep { op := 0x0F }) })] }).work.started (atStep { op := 0x0F }).launch.entry = some (entry3 2)
      ∧ ((issued 2 fun h => { h with wrights := [(0, { run := some (atStep { op := 0x0F }) })] }).work.ring (atStep { op := 0x0F }).launch.entry.berth (atStep { op := 0x0F }).launch.entry.ring).px2 = false
      ∧ bit (entry3 2).word 15 = false
      ∧ bit (entry3 2).word 13 = false) := by
  (repeat' apply And.intro) <;> decide +kernel

theorem test_accessSteps :
  let place (r : Run) (i : Nat) : Nat := streamPos r (streamOf r i)
  let span (r : Run) (i : Nat) : Nat × Nat := deviceSpan (streamOf r i).etype (streamOrigin r (streamOf r i)) (place r i) (curStep r).nv
  ((runs { op := 3, sa := 1, sd := 0, nv := 2 }).CanIssue 0 0x03 (atStep { op := 3, sa := 1, sd := 0, nv := 2 })
      ∧ (curStep (atStep { op := 3, sa := 1, sd := 0, nv := 2 })).mode = 0
      ∧ isMx (streamOf (atStep { op := 3, sa := 1, sd := 0, nv := 2 }) (curStep (atStep { op := 3, sa := 1, sd := 0, nv := 2 })).sa).etype = false
      ∧ place (atStep { op := 3, sa := 1, sd := 0, nv := 2 }) (curStep (atStep { op := 3, sa := 1, sd := 0, nv := 2 })).sd % 128 = 0
      ∧ place (atStep { op := 3, sa := 1, sd := 0, nv := 2 }) (curStep (atStep { op := 3, sa := 1, sd := 0, nv := 2 })).sa % 128 = 0
      ∧ ((runs { op := 3, sa := 1, sd := 0, nv := 2 }).work.wright 0).pend = []
      ∧ ((runs { op := 3, sa := 1, sd := 0, nv := 2 }).work.probeSpans 0 (atStep { op := 3, sa := 1, sd := 0, nv := 2 }).launch.berth false [span (atStep { op := 3, sa := 1, sd := 0, nv := 2 }) (curStep (atStep { op := 3, sa := 1, sd := 0, nv := 2 })).sa]).1 = .ok [] [])
    ∧ ((engined { run := some (atStep {}), accesses := [{ id := 1, dva := 0x1000, len := 128, rows := [(0x1000, 0, false)], vecs := [0] }], pend := [0] } id).Current
      ∧ ((engined { run := some (atStep {}), accesses := [{ id := 1, dva := 0x1000, len := 128, rows := [(0x1000, 0, false)], vecs := [0] }], pend := [0] } id).work.wright 0).run = some (atStep {})
      ∧ (atStep {}).phase = .issue
      ∧ ((engined { run := some (atStep {}), accesses := [{ id := 1, dva := 0x1000, len := 128, rows := [(0x1000, 0, false)], vecs := [0] }], pend := [0] } id).work.wright 0).accesses = [(({ id := 1, dva := 0x1000, len := 128, rows := [(0x1000, 0, false)], vecs := [0] } : Access))]
      ∧ (({ id := 1, dva := 0x1000, len := 128, rows := [(0x1000, 0, false)], vecs := [0] } : Access)).store = false
      ∧ (engined { run := some (atStep {}), accesses := [{ id := 1, dva := 0x1000, len := 128, rows := [(0x1000, 0, false)], vecs := [0] }], pend := [0] } id).work.homePending (.wright 0) (({ id := 1, dva := 0x1000, len := 128, rows := [(0x1000, 0, false)], vecs := [0] } : Access)).id = false
      ∧ ((engined { run := some (atStep {}), accesses := [{ id := 1, dva := 0x1000, len := 128, rows := [(0x1000, 0, false)], vecs := [0] }], pend := [0] } id).work.loadVecs 0 (atStep {}).launch.berth (({ id := 1, dva := 0x1000, len := 128, rows := [(0x1000, 0, false)], vecs := [0] } : Access))).1 = .ok ([({ data := List.replicate 128 0, mask := 2 ^ 32 - 1 } : LoadVec)]))
    ∧ ((runs { op := 4, sa := 0, sd := 1 }).CanIssue 0 0x04 (atStep { op := 4, sa := 0, sd := 1 })
      ∧ (curStep (atStep { op := 4, sa := 0, sd := 1 })).pred = 0
      ∧ (curStep (atStep { op := 4, sa := 0, sd := 1 })).mode = 0
      ∧ 0 < (curStep (atStep { op := 4, sa := 0, sd := 1 })).nv
      ∧ isMx (streamOf (atStep { op := 4, sa := 0, sd := 1 }) (curStep (atStep { op := 4, sa := 0, sd := 1 })).sd).etype = false
      ∧ place (atStep { op := 4, sa := 0, sd := 1 }) (curStep (atStep { op := 4, sa := 0, sd := 1 })).sa % 128 = 0
      ∧ place (atStep { op := 4, sa := 0, sd := 1 }) (curStep (atStep { op := 4, sa := 0, sd := 1 })).sd % 128 = 0
      ∧ (({ run := some (atStep { op := 4, sa := 0, sd := 1 }) } : Wright)) = (runs { op := 4, sa := 0, sd := 1 }).work.wright 0
      ∧ (({ run := some (atStep { op := 4, sa := 0, sd := 1 }) } : Wright)).pend = []
      ∧ ([(0x1000, List.replicate 128 0, false)]) = (List.range (curStep (atStep { op := 4, sa := 0, sd := 1 })).nv).map (fun v => (place (atStep { op := 4, sa := 0, sd := 1 }) (curStep (atStep { op := 4, sa := 0, sd := 1 })).sd + 128 * v, localRead (({ run := some (atStep { op := 4, sa := 0, sd := 1 }) } : Wright)) (place (atStep { op := 4, sa := 0, sd := 1 }) (curStep (atStep { op := 4, sa := 0, sd := 1 })).sa + 128 * v) 128, poisonIn (({ run := some (atStep { op := 4, sa := 0, sd := 1 }) } : Wright)) (place (atStep { op := 4, sa := 0, sd := 1 }) (curStep (atStep { op := 4, sa := 0, sd := 1 })).sa + 128 * v) 128))
      ∧ ((runs { op := 4, sa := 0, sd := 1 }).work.probeSpans 0 (atStep { op := 4, sa := 0, sd := 1 }).launch.berth true (([(0x1000, List.replicate 128 0, false)]).map fun y => (y.1, y.2.1.length))).1 = .ok [] [])
    ∧ ((engined { run := some (atStep {}), accesses := [{ id := 1, store := true, dva := 0x1000, len := 128, writes := [(0x1000, List.replicate 128 3, false)] }] } id).Current
      ∧ ((engined { run := some (atStep {}), accesses := [{ id := 1, store := true, dva := 0x1000, len := 128, writes := [(0x1000, List.replicate 128 3, false)] }] } id).work.wright 0).run = some (atStep {})
      ∧ (atStep {}).phase = .issue
      ∧ ((engined { run := some (atStep {}), accesses := [{ id := 1, store := true, dva := 0x1000, len := 128, writes := [(0x1000, List.replicate 128 3, false)] }] } id).work.wright 0).accesses = [(({ id := 1, store := true, dva := 0x1000, len := 128, writes := [(0x1000, List.replicate 128 3, false)] } : Access))]
      ∧ (({ id := 1, store := true, dva := 0x1000, len := 128, writes := [(0x1000, List.replicate 128 3, false)] } : Access)).store = true
      ∧ (engined { run := some (atStep {}), accesses := [{ id := 1, store := true, dva := 0x1000, len := 128, writes := [(0x1000, List.replicate 128 3, false)] }] } id).work.homePending (.wright 0) (({ id := 1, store := true, dva := 0x1000, len := 128, writes := [(0x1000, List.replicate 128 3, false)] } : Access)).id = false
      ∧ ((engined { run := some (atStep {}), accesses := [{ id := 1, store := true, dva := 0x1000, len := 128, writes := [(0x1000, List.replicate 128 3, false)] }] } id).work.storeWrites 0 (atStep {}).launch.berth (({ id := 1, store := true, dva := 0x1000, len := 128, writes := [(0x1000, List.replicate 128 3, false)] } : Access)).writes).1 = .ok [] []) := by
  (repeat' apply And.intro) <;> decide +kernel

theorem test_expertService :
  ((engined { run := some (atStep { op := 8, imm := 16 }), inbox := [(0, { token := 2, expert := 6 })] } id).CanIssue 0 0x08 (atStep { op := 8, imm := 16 })
      ∧ (atStep { op := 8, imm := 16 }).current = none
      ∧ ((engined { run := some (atStep { op := 8, imm := 16 }), inbox := [(0, { token := 2, expert := 6 })] } id).work.wright 0).waitingToks = []
      ∧ ((engined { run := some (atStep { op := 8, imm := 16 }), inbox := [(0, { token := 2, expert := 6 })] } id).work.wright 0).inbox = (0, (({ token := 2, expert := 6 } : Packet))) :: [])
    ∧ ((runs { op := 8, imm := 16 }).CanIssue 0 0x08 (atStep { op := 8, imm := 16 })
      ∧ bit (curStep (atStep { op := 8, imm := 16 })).mode 0 = false
      ∧ (atStep { op := 8, imm := 16 }).current = none
      ∧ ((runs { op := 8, imm := 16 }).work.wright 0).waitingToks = []
      ∧ ((runs { op := 8, imm := 16 }).work.wright 0).inbox = [])
    ∧ (((engined { run := some { atStep { op := 8, imm := 16 } with phase := .inbox }, inbox := [(0, { token := 2, expert := 6 })] } id).work.wright 0).run = some ({ atStep { op := 8, imm := 16 } with phase := .inbox })
      ∧ ({ atStep { op := 8, imm := 16 } with phase := .inbox }).phase = .inbox
      ∧ ((engined { run := some { atStep { op := 8, imm := 16 } with phase := .inbox }, inbox := [(0, { token := 2, expert := 6 })] } id).work.wright 0).inbox = (0, (({ token := 2, expert := 6 } : Packet))) :: [])
    ∧ ((runs { op := 9 }).CanIssue 0 0x09 (atStep { op := 9 })
      ∧ (atStep { op := 9 }).current = none)
    ∧ ((engined { run := some { atStep { op := 9, sa := 2 } with current := some { token := 2, table := 5 } }, inbox := [(0, { token := 2, table := 5 })] } id).CanIssue 0 0x09 ({ atStep { op := 9, sa := 2 } with current := some { token := 2, table := 5 } })
      ∧ ({ atStep { op := 9, sa := 2 } with current := some { token := 2, table := 5 } }).current = some (({ token := 2, table := 5 } : Packet))
      ∧ bit (curStep ({ atStep { op := 9, sa := 2 } with current := some { token := 2, table := 5 } })).mode 0 = false
      ∧ (engined { run := some { atStep { op := 9, sa := 2 } with current := some { token := 2, table := 5 } }, inbox := [(0, { token := 2, table := 5 })] } id).work.table (({ token := 2, table := 5 } : Packet)).table = some table4
      ∧ handleHub (({ token := 2, table := 5 } : Packet)).token = (engined { run := some { atStep { op := 9, sa := 2 } with current := some { token := 2, table := 5 } }, inbox := [(0, { token := 2, table := 5 })] } id).work.hubId
      ∧ 32 = 32 * table4.hdr.outBeats
      ∧ 0x100 = streamPos ({ atStep { op := 9, sa := 2 } with current := some { token := 2, table := 5 } }) (streamOf ({ atStep { op := 9, sa := 2 } with current := some { token := 2, table := 5 } }) (curStep ({ atStep { op := 9, sa := 2 } with current := some { token := 2, table := 5 } })).sa)
      ∧ 0x100 % 128 = 0
      ∧ ((engined { run := some { atStep { op := 9, sa := 2 } with current := some { token := 2, table := 5 } }, inbox := [(0, { token := 2, table := 5 })] } id).work.wright 0).pend = []
      ∧ ((engined { run := some { atStep { op := 9, sa := 2 } with current := some { token := 2, table := 5 } }, inbox := [(0, { token := 2, table := 5 })] } id).work.wright 0).waitingToks = [])
    ∧ (((engined { inbox := [(0, { token := 2 })] } id).work.wright 0).run = none
      ∧ ((engined { inbox := [(0, { token := 2 })] } id).work.wright 0).inbox ≠ []
      ∧ ((engined { inbox := [(0, { token := 2 })] } id).work.wright 0).waitingToks = []) := by
  (repeat' apply And.intro) <;> decide +kernel

theorem test_addElements :
  (0 = (({} : OpEvent)).engine
      ∧ (runs { op := 0x10 }).CanIssue 0 0x10 (atStep { op := 0x10 })
      ∧ (({} : OpEvent)).twice = none
      ∧ ((runs { op := 0x10 }).opAt (({} : OpEvent)) (atStep { op := 0x10 })).aligned = true
      ∧ ((runs { op := 0x10 }).work.wright 0).pend = []
      ∧ (curStep (atStep { op := 0x10 })).nv = 1
      ∧ (curStep (atStep { op := 0x10 })).ta = 0
      ∧ (curStep (atStep { op := 0x10 })).td = 0
      ∧ (curStep (atStep { op := 0x10 })).pred = 0
      ∧ 0 = ((runs { op := 0x10 }).opAt (({} : OpEvent)) (atStep { op := 0x10 })).pos (curStep (atStep { op := 0x10 })).sd) := by
  (repeat' apply And.intro) <;> decide +kernel

theorem test_gateOperator :
  (0 = (({} : OpEvent)).engine
      ∧ (engined { run := some (atStep { op := 0x5E, imm := 5 * 32, nv := 1 }) } fun h => { h with bearings := [(0, { staging := [{ hdr := { beats := 8192 } }] })] }).CanIssue 0 0x5E (atStep { op := 0x5E, imm := 5 * 32, nv := 1 })
      ∧ ((engined { run := some (atStep { op := 0x5E, imm := 5 * 32, nv := 1 }) } fun h => { h with bearings := [(0, { staging := [{ hdr := { beats := 8192 } }] })] }).opAt (({} : OpEvent)) (atStep { op := 0x5E, imm := 5 * 32, nv := 1 })).aligned = true
      ∧ ((engined { run := some (atStep { op := 0x5E, imm := 5 * 32, nv := 1 }) } fun h => { h with bearings := [(0, { staging := [{ hdr := { beats := 8192 } }] })] }).work.wright 0).pend = []
      ∧ 8192 < stagedBeats ((engined { run := some (atStep { op := 0x5E, imm := 5 * 32, nv := 1 }) } fun h => { h with bearings := [(0, { staging := [{ hdr := { beats := 8192 } }] })] }).work.bearing (bits (curStep (atStep { op := 0x5E, imm := 5 * 32, nv := 1 })).imm 4 0)) + (((engined { run := some (atStep { op := 0x5E, imm := 5 * 32, nv := 1 }) } fun h => { h with bearings := [(0, { staging := [{ hdr := { beats := 8192 } }] })] }).opAt (({} : OpEvent)) (atStep { op := 0x5E, imm := 5 * 32, nv := 1 })).gate 0 (atStep { op := 0x5E, imm := 5 * 32, nv := 1 }).launch.berth).hdr.beats)
    ∧ (0 = (({} : OpEvent)).engine
      ∧ (({} : OpEvent)).twice = none
      ∧ (({} : OpEvent)).upset = []
      ∧ (runs { op := 0x5E, imm := 5 * 32, nv := 1, mode := 3 }).CanIssue 0 0x5E (atStep { op := 0x5E, imm := 5 * 32, nv := 1, mode := 3 })
      ∧ ((runs { op := 0x5E, imm := 5 * 32, nv := 1, mode := 3 }).opAt (({} : OpEvent)) (atStep { op := 0x5E, imm := 5 * 32, nv := 1, mode := 3 })).aligned = true
      ∧ ((runs { op := 0x5E, imm := 5 * 32, nv := 1, mode := 3 }).work.wright 0).pend = []
      ∧ ((runs { op := 0x5E, imm := 5 * 32, nv := 1, mode := 3 }).work.wright 0).poison = []
      ∧ 0 = bits (curStep (atStep { op := 0x5E, imm := 5 * 32, nv := 1, mode := 3 })).imm 4 0
      ∧ ((runs { op := 0x5E, imm := 5 * 32, nv := 1, mode := 3 }).opAt {} (atStep { op := 0x5E, imm := 5 * 32, nv := 1, mode := 3 }) |>.gate 0 4) = ((runs { op := 0x5E, imm := 5 * 32, nv := 1, mode := 3 }).opAt (({} : OpEvent)) (atStep { op := 0x5E, imm := 5 * 32, nv := 1, mode := 3 })).gate 0 (atStep { op := 0x5E, imm := 5 * 32, nv := 1, mode := 3 }).launch.berth
      ∧ stagedBeats ((runs { op := 0x5E, imm := 5 * 32, nv := 1, mode := 3 }).work.bearing 0) + ((runs { op := 0x5E, imm := 5 * 32, nv := 1, mode := 3 }).opAt {} (atStep { op := 0x5E, imm := 5 * 32, nv := 1, mode := 3 }) |>.gate 0 4).hdr.beats ≤ 8192
      ∧ (runs { op := 0x5E, imm := 5 * 32, nv := 1, mode := 3 }).work.gateFault ((runs { op := 0x5E, imm := 5 * 32, nv := 1, mode := 3 }).opAt {} (atStep { op := 0x5E, imm := 5 * 32, nv := 1, mode := 3 }) |>.gate 0 4) = none
      ∧ (runs { op := 0x5E, imm := 5 * 32, nv := 1, mode := 3 }).work.table ((runs { op := 0x5E, imm := 5 * 32, nv := 1, mode := 3 }).opAt {} (atStep { op := 0x5E, imm := 5 * 32, nv := 1, mode := 3 }) |>.gate 0 4).hdr.table = some table4
      ∧ table4.hdr.zeroRow = true
      ∧ ((runs { op := 0x5E, imm := 5 * 32, nv := 1, mode := 3 }).work.bearing 0).staging = []
      ∧ freeRec ((runs { op := 0x5E, imm := 5 * 32, nv := 1, mode := 3 }).work.bearing 0) = some 0) := by
  (repeat' apply And.intro) <;> decide +kernel

theorem test_helmCommands :
  ((issued (pack [(8, 0x14), (120, 0), (4, 0), (16, 7), (14, 0), (30, 0), (32, 99)]) fun h => { h with ten := { h.ten with held := [(2 * 4096 + 7, 0)] } }).Issued ref3 (entry3 (pack [(8, 0x14), (120, 0), (4, 0), (16, 7), (14, 0), (30, 0), (32, 99)])) 0x14
      ∧ (issued (pack [(8, 0x14), (120, 0), (4, 0), (16, 7), (14, 0), (30, 0), (32, 99)]) fun h => { h with ten := { h.ten with held := [(2 * 4096 + 7, 0)] } }).work.helmPaused = false
      ∧ (pack [(4, 0), (16, 7), (14, 0), (30, 0), (32, 99)]) = bits (entry3 (pack [(8, 0x14), (120, 0), (4, 0), (16, 7), (14, 0), (30, 0), (32, 99)])).word 255 128
      ∧ 7 = bits (pack [(4, 0), (16, 7), (14, 0), (30, 0), (32, 99)]) 19 4
      ∧ bits (pack [(4, 0), (16, 7), (14, 0), (30, 0), (32, 99)]) 1 0 = 0
      ∧ 7 < 4096
      ∧ bits (pack [(4, 0), (16, 7), (14, 0), (30, 0), (32, 99)]) 33 20 = ref3.berth
      ∧ (issued (pack [(8, 0x14), (120, 0), (4, 0), (16, 7), (14, 0), (30, 0), (32, 99)]) fun h => { h with ten := { h.ten with held := [(2 * 4096 + 7, 0)] } }).work.holder 2 7 = some ref3.berth
      ∧ (issued (pack [(8, 0x14), (120, 0), (4, 0), (16, 7), (14, 0), (30, 0), (32, 99)]) fun h => { h with ten := { h.ten with held := [(2 * 4096 + 7, 0)] } }).hub.helm.waiters = []
      ∧ (∀ k ∈ (issued (pack [(8, 0x14), (120, 0), (4, 0), (16, 7), (14, 0), (30, 0), (32, 99)]) fun h => { h with ten := { h.ten with held := [(2 * 4096 + 7, 0)] } }).work.bindingsOf 2 7, bits (pack [(4, 0), (16, 7), (14, 0), (30, 0), (32, 99)]) 95 64 < (tget {} (issued (pack [(8, 0x14), (120, 0), (4, 0), (16, 7), (14, 0), (30, 0), (32, 99)]) fun h => { h with ten := { h.ten with held := [(2 * 4096 + 7, 0)] } }).hub.helm.bindings k).threshold))
    ∧ ((issued (pack [(8, 0x14), (120, 0), (4, 0), (16, 7), (14, 0), (30, 0), (32, 99)]) fun h => { h with ten := { h.ten with held := [(2 * 4096 + 7, 0)] }, helm := { h.helm with bindings := [(35, { action := 2, object := 7, threshold := 50, step := 20 })] } }).Issued ref3 (entry3 (pack [(8, 0x14), (120, 0), (4, 0), (16, 7), (14, 0), (30, 0), (32, 99)])) 0x14
      ∧ (issued (pack [(8, 0x14), (120, 0), (4, 0), (16, 7), (14, 0), (30, 0), (32, 99)]) fun h => { h with ten := { h.ten with held := [(2 * 4096 + 7, 0)] }, helm := { h.helm with bindings := [(35, { action := 2, object := 7, threshold := 50, step := 20 })] } }).work.helmPaused = false
      ∧ (pack [(4, 0), (16, 7), (14, 0), (30, 0), (32, 99)]) = bits (entry3 (pack [(8, 0x14), (120, 0), (4, 0), (16, 7), (14, 0), (30, 0), (32, 99)])).word 255 128
      ∧ 7 = bits (pack [(4, 0), (16, 7), (14, 0), (30, 0), (32, 99)]) 19 4
      ∧ bits (pack [(4, 0), (16, 7), (14, 0), (30, 0), (32, 99)]) 1 0 = 0
      ∧ 7 < 4096
      ∧ bits (pack [(4, 0), (16, 7), (14, 0), (30, 0), (32, 99)]) 33 20 = ref3.berth
      ∧ (issued (pack [(8, 0x14), (120, 0), (4, 0), (16, 7), (14, 0), (30, 0), (32, 99)]) fun h => { h with ten := { h.ten with held := [(2 * 4096 + 7, 0)] }, helm := { h.helm with bindings := [(35, { action := 2, object := 7, threshold := 50, step := 20 })] } }).work.holder 2 7 = some ref3.berth
      ∧ (issued (pack [(8, 0x14), (120, 0), (4, 0), (16, 7), (14, 0), (30, 0), (32, 99)]) fun h => { h with ten := { h.ten with held := [(2 * 4096 + 7, 0)] }, helm := { h.helm with bindings := [(35, { action := 2, object := 7, threshold := 50, step := 20 })] } }).hub.helm.waiters = []
      ∧ (issued (pack [(8, 0x14), (120, 0), (4, 0), (16, 7), (14, 0), (30, 0), (32, 99)]) fun h => { h with ten := { h.ten with held := [(2 * 4096 + 7, 0)] }, helm := { h.helm with bindings := [(35, { action := 2, object := 7, threshold := 50, step := 20 })] } }).work.bindingsOf 2 7 = [35]
      ∧ tfind (issued (pack [(8, 0x14), (120, 0), (4, 0), (16, 7), (14, 0), (30, 0), (32, 99)]) fun h => { h with ten := { h.ten with held := [(2 * 4096 + 7, 0)] }, helm := { h.helm with bindings := [(35, { action := 2, object := 7, threshold := 50, step := 20 })] } }).hub.helm.bindings 35 = some (({ action := 2, object := 7, threshold := 50, step := 20 } : Binding))
      ∧ (({ action := 2, object := 7, threshold := 50, step := 20 } : Binding)).threshold ≤ bits (pack [(4, 0), (16, 7), (14, 0), (30, 0), (32, 99)]) 95 64
      ∧ (({ action := 2, object := 7, threshold := 50, step := 20 } : Binding)).step ≠ 0
      ∧ 3 = (bits (pack [(4, 0), (16, 7), (14, 0), (30, 0), (32, 99)]) 95 64 - (({ action := 2, object := 7, threshold := 50, step := 20 } : Binding)).threshold) / (({ action := 2, object := 7, threshold := 50, step := 20 } : Binding)).step + 1
      ∧ (({ action := 2, object := 7, threshold := 50, step := 20 } : Binding)).owed + 3 ≤ 0xFFFF)
    ∧ ((issued (pack [(8, 0x14), (120, 0), (4, 1), (16, 7), (14, 0), (30, 0), (7, 3)]) fun h => { h with ten := { h.ten with held := [(3 * 4096 + 7, 0)] } }).Issued ref3 (entry3 (pack [(8, 0x14), (120, 0), (4, 1), (16, 7), (14, 0), (30, 0), (7, 3)])) 0x14
      ∧ (issued (pack [(8, 0x14), (120, 0), (4, 1), (16, 7), (14, 0), (30, 0), (7, 3)]) fun h => { h with ten := { h.ten with held := [(3 * 4096 + 7, 0)] } }).work.helmPaused = false
      ∧ (pack [(4, 1), (16, 7), (14, 0), (30, 0), (7, 3)]) = bits (entry3 (pack [(8, 0x14), (120, 0), (4, 1), (16, 7), (14, 0), (30, 0), (7, 3)])).word 255 128
      ∧ 7 = bits (pack [(4, 1), (16, 7), (14, 0), (30, 0), (7, 3)]) 19 4
      ∧ bits (pack [(4, 1), (16, 7), (14, 0), (30, 0), (7, 3)]) 1 0 = 1
      ∧ 7 < 1024
      ∧ bits (pack [(4, 1), (16, 7), (14, 0), (30, 0), (7, 3)]) 33 20 = ref3.berth
      ∧ (issued (pack [(8, 0x14), (120, 0), (4, 1), (16, 7), (14, 0), (30, 0), (7, 3)]) fun h => { h with ten := { h.ten with held := [(3 * 4096 + 7, 0)] } }).work.holder 3 7 = some ref3.berth
      ∧ (issued (pack [(8, 0x14), (120, 0), (4, 1), (16, 7), (14, 0), (30, 0), (7, 3)]) fun h => { h with ten := { h.ten with held := [(3 * 4096 + 7, 0)] } }).work.hubBeyond (bits (pack [(4, 1), (16, 7), (14, 0), (30, 0), (7, 3)]) 83 72) = false
      ∧ (bit (pack [(4, 1), (16, 7), (14, 0), (30, 0), (7, 3)]) 71 = true → bits (pack [(4, 1), (16, 7), (14, 0), (30, 0), (7, 3)]) 70 64 ≠ 0)
      ∧ bits (pack [(4, 1), (16, 7), (14, 0), (30, 0), (7, 3)]) 70 64 ≤ 64
      ∧ ((issued (pack [(8, 0x14), (120, 0), (4, 1), (16, 7), (14, 0), (30, 0), (7, 3)]) fun h => { h with ten := { h.ten with held := [(3 * 4096 + 7, 0)] } }).work.gate 7).count = 0
      ∧ ((issued (pack [(8, 0x14), (120, 0), (4, 1), (16, 7), (14, 0), (30, 0), (7, 3)]) fun h => { h with ten := { h.ten with held := [(3 * 4096 + 7, 0)] } }).work.gate 7).next = 0)
    ∧ ((issued (pack [(8, 0x14), (120, 0), (4, 2), (16, 7), (14, 0), (30, 0), (16, 3), (16, 5)]) fun h => { h with ten := { h.ten with held := [(4 * 4096 + 7, 0)] } }).Issued ref3 (entry3 (pack [(8, 0x14), (120, 0), (4, 2), (16, 7), (14, 0), (30, 0), (16, 3), (16, 5)])) 0x14
      ∧ (issued (pack [(8, 0x14), (120, 0), (4, 2), (16, 7), (14, 0), (30, 0), (16, 3), (16, 5)]) fun h => { h with ten := { h.ten with held := [(4 * 4096 + 7, 0)] } }).work.helmPaused = false
      ∧ (pack [(4, 2), (16, 7), (14, 0), (30, 0), (16, 3), (16, 5)]) = bits (entry3 (pack [(8, 0x14), (120, 0), (4, 2), (16, 7), (14, 0), (30, 0), (16, 3), (16, 5)])).word 255 128
      ∧ 7 = bits (pack [(4, 2), (16, 7), (14, 0), (30, 0), (16, 3), (16, 5)]) 19 4
      ∧ bits (pack [(4, 2), (16, 7), (14, 0), (30, 0), (16, 3), (16, 5)]) 1 0 = 2
      ∧ 7 < 512
      ∧ bits (pack [(4, 2), (16, 7), (14, 0), (30, 0), (16, 3), (16, 5)]) 33 20 = ref3.berth
      ∧ (issued (pack [(8, 0x14), (120, 0), (4, 2), (16, 7), (14, 0), (30, 0), (16, 3), (16, 5)]) fun h => { h with ten := { h.ten with held := [(4 * 4096 + 7, 0)] } }).work.holder 4 7 = some ref3.berth
      ∧ bits (pack [(4, 2), (16, 7), (14, 0), (30, 0), (16, 3), (16, 5)]) 79 64 ≤ bits (pack [(4, 2), (16, 7), (14, 0), (30, 0), (16, 3), (16, 5)]) 95 80
      ∧ (issued (pack [(8, 0x14), (120, 0), (4, 2), (16, 7), (14, 0), (30, 0), (16, 3), (16, 5)]) fun h => { h with ten := { h.ten with held := [(4 * 4096 + 7, 0)] } }).hub.helm.waiters = [])
    ∧ ((issued (pack [(8, 0x15), (120, 0), (5, 0), (1, 0), (5, 2), (3, 1), (2, 0), (16, 7), (14, 0)]) fun h => { h with board := { h.board with sites := 1 }, ten := { h.ten with sites := [(0, 0)], held := [(2 * 4096 + 7, 0)] } }).Issued ref3 (entry3 (pack [(8, 0x15), (120, 0), (5, 0), (1, 0), (5, 2), (3, 1), (2, 0), (16, 7), (14, 0)])) 0x15
      ∧ (issued (pack [(8, 0x15), (120, 0), (5, 0), (1, 0), (5, 2), (3, 1), (2, 0), (16, 7), (14, 0)]) fun h => { h with board := { h.board with sites := 1 }, ten := { h.ten with sites := [(0, 0)], held := [(2 * 4096 + 7, 0)] } }).work.helmPaused = false
      ∧ (pack [(5, 0), (1, 0), (5, 2), (3, 1), (2, 0), (16, 7), (14, 0)]) = bits (entry3 (pack [(8, 0x15), (120, 0), (5, 0), (1, 0), (5, 2), (3, 1), (2, 0), (16, 7), (14, 0)])).word 255 128
      ∧ bits (pack [(5, 0), (1, 0), (5, 2), (3, 1), (2, 0), (16, 7), (14, 0)]) 4 0 < 16
      ∧ bit (issued (pack [(8, 0x15), (120, 0), (5, 0), (1, 0), (5, 2), (3, 1), (2, 0), (16, 7), (14, 0)]) fun h => { h with board := { h.board with sites := 1 }, ten := { h.ten with sites := [(0, 0)], held := [(2 * 4096 + 7, 0)] } }).hub.board.sites (bits (pack [(5, 0), (1, 0), (5, 2), (3, 1), (2, 0), (16, 7), (14, 0)]) 4 0) = true
      ∧ (issued (pack [(8, 0x15), (120, 0), (5, 0), (1, 0), (5, 2), (3, 1), (2, 0), (16, 7), (14, 0)]) fun h => { h with board := { h.board with sites := 1 }, ten := { h.ten with sites := [(0, 0)], held := [(2 * 4096 + 7, 0)] } }).work.siteHeld (bits (pack [(5, 0), (1, 0), (5, 2), (3, 1), (2, 0), (16, 7), (14, 0)]) 4 0) ref3.berth = true
      ∧ bits (pack [(5, 0), (1, 0), (5, 2), (3, 1), (2, 0), (16, 7), (14, 0)]) 45 32 = ref3.berth
      ∧ bindKind (bits (pack [(5, 0), (1, 0), (5, 2), (3, 1), (2, 0), (16, 7), (14, 0)]) 5 5) (bits (pack [(5, 0), (1, 0), (5, 2), (3, 1), (2, 0), (16, 7), (14, 0)]) 13 11) = some 2
      ∧ bits (pack [(5, 0), (1, 0), (5, 2), (3, 1), (2, 0), (16, 7), (14, 0)]) 31 16 < helmObjects (2 - 2)
      ∧ (issued (pack [(8, 0x15), (120, 0), (5, 0), (1, 0), (5, 2), (3, 1), (2, 0), (16, 7), (14, 0)]) fun h => { h with board := { h.board with sites := 1 }, ten := { h.ten with sites := [(0, 0)], held := [(2 * 4096 + 7, 0)] } }).work.holder 2 (bits (pack [(5, 0), (1, 0), (5, 2), (3, 1), (2, 0), (16, 7), (14, 0)]) 31 16) = some ref3.berth
      ∧ bits (pack [(5, 0), (1, 0), (5, 2), (3, 1), (2, 0), (16, 7), (14, 0)]) 13 11 ≠ 0)
    ∧ ((issued (pack [(8, 0x15), (120, 0), (5, 0), (1, 0), (5, 2), (3, 0), (2, 0), (16, 7), (14, 0)]) fun h => { h with board := { h.board with sites := 1 }, ten := { h.ten with sites := [(0, 0)] }, helm := { h.helm with bindings := [(2, {})] } }).Issued ref3 (entry3 (pack [(8, 0x15), (120, 0), (5, 0), (1, 0), (5, 2), (3, 0), (2, 0), (16, 7), (14, 0)])) 0x15
      ∧ (issued (pack [(8, 0x15), (120, 0), (5, 0), (1, 0), (5, 2), (3, 0), (2, 0), (16, 7), (14, 0)]) fun h => { h with board := { h.board with sites := 1 }, ten := { h.ten with sites := [(0, 0)] }, helm := { h.helm with bindings := [(2, {})] } }).work.helmPaused = false
      ∧ (pack [(5, 0), (1, 0), (5, 2), (3, 0), (2, 0), (16, 7), (14, 0)]) = bits (entry3 (pack [(8, 0x15), (120, 0), (5, 0), (1, 0), (5, 2), (3, 0), (2, 0), (16, 7), (14, 0)])).word 255 128
      ∧ bits (pack [(5, 0), (1, 0), (5, 2), (3, 0), (2, 0), (16, 7), (14, 0)]) 4 0 < 16
      ∧ bit (issued (pack [(8, 0x15), (120, 0), (5, 0), (1, 0), (5, 2), (3, 0), (2, 0), (16, 7), (14, 0)]) fun h => { h with board := { h.board with sites := 1 }, ten := { h.ten with sites := [(0, 0)] }, helm := { h.helm with bindings := [(2, {})] } }).hub.board.sites (bits (pack [(5, 0), (1, 0), (5, 2), (3, 0), (2, 0), (16, 7), (14, 0)]) 4 0) = true
      ∧ (issued (pack [(8, 0x15), (120, 0), (5, 0), (1, 0), (5, 2), (3, 0), (2, 0), (16, 7), (14, 0)]) fun h => { h with board := { h.board with sites := 1 }, ten := { h.ten with sites := [(0, 0)] }, helm := { h.helm with bindings := [(2, {})] } }).work.siteHeld (bits (pack [(5, 0), (1, 0), (5, 2), (3, 0), (2, 0), (16, 7), (14, 0)]) 4 0) ref3.berth = true
      ∧ bits (pack [(5, 0), (1, 0), (5, 2), (3, 0), (2, 0), (16, 7), (14, 0)]) 45 32 = ref3.berth
      ∧ bits (pack [(5, 0), (1, 0), (5, 2), (3, 0), (2, 0), (16, 7), (14, 0)]) 13 11 = 0)
    ∧ ((issued (entryWord 0x16 [(4, 0), (16, 7)]) fun h => { h with ten := { h.ten with held := [(2 * 4096 + 7, 0)] }, helm := { h.helm with marks := [(7, { value := 5 })] } }).Issued ref3 (entry3 (entryWord 0x16 [(4, 0), (16, 7)])) 0x16
      ∧ (issued (entryWord 0x16 [(4, 0), (16, 7)]) fun h => { h with ten := { h.ten with held := [(2 * 4096 + 7, 0)] }, helm := { h.helm with marks := [(7, { value := 5 })] } }).work.helmPaused = false
      ∧ 7 = bits (entry3 (entryWord 0x16 [(4, 0), (16, 7)])).word 275 260
      ∧ bits (entry3 (entryWord 0x16 [(4, 0), (16, 7)])).word 257 256 = 0
      ∧ (issued (entryWord 0x16 [(4, 0), (16, 7)]) fun h => { h with ten := { h.ten with held := [(2 * 4096 + 7, 0)] }, helm := { h.helm with marks := [(7, { value := 5 })] } }).work.holder 2 7 = some ref3.berth)
    ∧ (((hubbed fun h => { h with helm := { h.helm with gates := [(2, { parties := 3, timeout := 9, firstAt := some 0, count := 1 })] } }).work.gate 2).timeout ≠ 0
      ∧ ((hubbed fun h => { h with helm := { h.helm with gates := [(2, { parties := 3, timeout := 9, firstAt := some 0, count := 1 })] } }).work.gate 2).firstAt.isSome = true
      ∧ ((hubbed fun h => { h with helm := { h.helm with gates := [(2, { parties := 3, timeout := 9, firstAt := some 0, count := 1 })] } }).work.gate 2).broken = false
      ∧ ((hubbed fun h => { h with helm := { h.helm with gates := [(2, { parties := 3, timeout := 9, firstAt := some 0, count := 1 })] } }).work.gate 2).parties ≠ 0
      ∧ (hubbed fun h => { h with helm := { h.helm with gates := [(2, { parties := 3, timeout := 9, firstAt := some 0, count := 1 })] } }).hub.helm.waiters = []) := by
  (repeat' apply And.intro) <;> decide +kernel

theorem test_helmMessages :
  let reaches (s : State) (p : Nat) (m : HelmMsg) : Prop := s.work.hportTrained p = true ∧ m.dstHub = s.work.hubId ∧ s.work.helmPaused = false
  (reaches (hawsered fun h => { h with ten := { h.ten with held := [(3 * 4096 + 2, 4)] }, helm := { h.helm with gates := [(2, { parties := 3, acceptRemote := true })] } }) 0 (({ srcHub := 7, srcGate := 1, dstGate := 2 } : HelmMsg))
      ∧ (hawsered fun h => { h with ten := { h.ten with held := [(3 * 4096 + 2, 4)] }, helm := { h.helm with gates := [(2, { parties := 3, acceptRemote := true })] } }).work.gateLive (({ srcHub := 7, srcGate := 1, dstGate := 2 } : HelmMsg)).dstGate = true
      ∧ ((hawsered fun h => { h with ten := { h.ten with held := [(3 * 4096 + 2, 4)] }, helm := { h.helm with gates := [(2, { parties := 3, acceptRemote := true })] } }).work.gate (({ srcHub := 7, srcGate := 1, dstGate := 2 } : HelmMsg)).dstGate).acceptRemote = true
      ∧ ((hawsered fun h => { h with ten := { h.ten with held := [(3 * 4096 + 2, 4)] }, helm := { h.helm with gates := [(2, { parties := 3, acceptRemote := true })] } }).work.gate (({ srcHub := 7, srcGate := 1, dstGate := 2 } : HelmMsg)).dstGate).broken = false
      ∧ (({ srcHub := 7, srcGate := 1, dstGate := 2 } : HelmMsg)).gen = ((hawsered fun h => { h with ten := { h.ten with held := [(3 * 4096 + 2, 4)] }, helm := { h.helm with gates := [(2, { parties := 3, acceptRemote := true })] } }).work.gate (({ srcHub := 7, srcGate := 1, dstGate := 2 } : HelmMsg)).dstGate).gen
      ∧ ((hawsered fun h => { h with ten := { h.ten with held := [(3 * 4096 + 2, 4)] }, helm := { h.helm with gates := [(2, { parties := 3, acceptRemote := true })] } }).work.gate (({ srcHub := 7, srcGate := 1, dstGate := 2 } : HelmMsg)).dstGate).sentArrive = false
      ∧ ((hawsered fun h => { h with ten := { h.ten with held := [(3 * 4096 + 2, 4)] }, helm := { h.helm with gates := [(2, { parties := 3, acceptRemote := true })] } }).work.gate (({ srcHub := 7, srcGate := 1, dstGate := 2 } : HelmMsg)).dstGate).count + 1 < ((hawsered fun h => { h with ten := { h.ten with held := [(3 * 4096 + 2, 4)] }, helm := { h.helm with gates := [(2, { parties := 3, acceptRemote := true })] } }).work.gate (({ srcHub := 7, srcGate := 1, dstGate := 2 } : HelmMsg)).dstGate).parties)
    ∧ (reaches (hawsered fun h => { h with ten := { h.ten with held := [(3 * 4096 + 2, 4)] }, helm := { h.helm with gates := [(2, { parties := 3, upEn := true, sentArrive := true, next := 1, localAt := some 0 })] } }) 0 (({ srcHub := 7, srcGate := 1, dstGate := 2 } : HelmMsg))
      ∧ (hawsered fun h => { h with ten := { h.ten with held := [(3 * 4096 + 2, 4)] }, helm := { h.helm with gates := [(2, { parties := 3, upEn := true, sentArrive := true, next := 1, localAt := some 0 })] } }).work.gateLive (({ srcHub := 7, srcGate := 1, dstGate := 2 } : HelmMsg)).dstGate = true
      ∧ ((hawsered fun h => { h with ten := { h.ten with held := [(3 * 4096 + 2, 4)] }, helm := { h.helm with gates := [(2, { parties := 3, upEn := true, sentArrive := true, next := 1, localAt := some 0 })] } }).work.gate (({ srcHub := 7, srcGate := 1, dstGate := 2 } : HelmMsg)).dstGate).broken = false
      ∧ ((hawsered fun h => { h with ten := { h.ten with held := [(3 * 4096 + 2, 4)] }, helm := { h.helm with gates := [(2, { parties := 3, upEn := true, sentArrive := true, next := 1, localAt := some 0 })] } }).work.gate (({ srcHub := 7, srcGate := 1, dstGate := 2 } : HelmMsg)).dstGate).upEn = true
      ∧ ((hawsered fun h => { h with ten := { h.ten with held := [(3 * 4096 + 2, 4)] }, helm := { h.helm with gates := [(2, { parties := 3, upEn := true, sentArrive := true, next := 1, localAt := some 0 })] } }).work.gate (({ srcHub := 7, srcGate := 1, dstGate := 2 } : HelmMsg)).dstGate).sentArrive = true
      ∧ (({ srcHub := 7, srcGate := 1, dstGate := 2 } : HelmMsg)).gen = ((hawsered fun h => { h with ten := { h.ten with held := [(3 * 4096 + 2, 4)] }, helm := { h.helm with gates := [(2, { parties := 3, upEn := true, sentArrive := true, next := 1, localAt := some 0 })] } }).work.gate (({ srcHub := 7, srcGate := 1, dstGate := 2 } : HelmMsg)).dstGate).gen
      ∧ ((hawsered fun h => { h with ten := { h.ten with held := [(3 * 4096 + 2, 4)] }, helm := { h.helm with gates := [(2, { parties := 3, upEn := true, sentArrive := true, next := 1, localAt := some 0 })] } }).work.gate (({ srcHub := 7, srcGate := 1, dstGate := 2 } : HelmMsg)).dstGate).next < ((hawsered fun h => { h with ten := { h.ten with held := [(3 * 4096 + 2, 4)] }, helm := { h.helm with gates := [(2, { parties := 3, upEn := true, sentArrive := true, next := 1, localAt := some 0 })] } }).work.gate (({ srcHub := 7, srcGate := 1, dstGate := 2 } : HelmMsg)).dstGate).parties
      ∧ (hawsered fun h => { h with ten := { h.ten with held := [(3 * 4096 + 2, 4)] }, helm := { h.helm with gates := [(2, { parties := 3, upEn := true, sentArrive := true, next := 1, localAt := some 0 })] } }).hub.helm.waiters = []
      ∧ (hawsered fun h => { h with ten := { h.ten with held := [(3 * 4096 + 2, 4)] }, helm := { h.helm with gates := [(2, { parties := 3, upEn := true, sentArrive := true, next := 1, localAt := some 0 })] } }).hub.helm.bindings = []
      ∧ (hawsered fun h => { h with ten := { h.ten with held := [(3 * 4096 + 2, 4)] }, helm := { h.helm with gates := [(2, { parties := 3, upEn := true, sentArrive := true, next := 1, localAt := some 0 })] } }).hub.tables = []
      ∧ ((hawsered fun h => { h with ten := { h.ten with held := [(3 * 4096 + 2, 4)] }, helm := { h.helm with gates := [(2, { parties := 3, upEn := true, sentArrive := true, next := 1, localAt := some 0 })] } }).work.gate (({ srcHub := 7, srcGate := 1, dstGate := 2 } : HelmMsg)).dstGate).remotes = [])
    ∧ ((Instr.breakMsg 0 { dstGate := 2, cause := 5 }) ∈ [Instr.breakMsg 0 (({ dstGate := 2, cause := 5 } : HelmMsg)), .rejectMsg 0 (({ dstGate := 2, cause := 5 } : HelmMsg))]
      ∧ reaches (hawsered fun h => { h with helm := { h.helm with gates := [(2, { parties := 3 })] } }) 0 (({ dstGate := 2, cause := 5 } : HelmMsg))
      ∧ ((hawsered fun h => { h with helm := { h.helm with gates := [(2, { parties := 3 })] } }).work.gate (({ dstGate := 2, cause := 5 } : HelmMsg)).dstGate).broken = false
      ∧ ((hawsered fun h => { h with helm := { h.helm with gates := [(2, { parties := 3 })] } }).work.gate (({ dstGate := 2, cause := 5 } : HelmMsg)).dstGate).parties ≠ 0
      ∧ (hawsered fun h => { h with helm := { h.helm with gates := [(2, { parties := 3 })] } }).hub.helm.waiters = [])
    ∧ ((Instr.rejectMsg 0 { dstGate := 2, cause := 11 }) ∈ [Instr.breakMsg 0 (({ dstGate := 2, cause := 11 } : HelmMsg)), .rejectMsg 0 (({ dstGate := 2, cause := 11 } : HelmMsg))]
      ∧ reaches (hawsered fun h => { h with helm := { h.helm with gates := [(2, { parties := 3 })] } }) 0 (({ dstGate := 2, cause := 11 } : HelmMsg))
      ∧ ((hawsered fun h => { h with helm := { h.helm with gates := [(2, { parties := 3 })] } }).work.gate (({ dstGate := 2, cause := 11 } : HelmMsg)).dstGate).broken = false
      ∧ ((hawsered fun h => { h with helm := { h.helm with gates := [(2, { parties := 3 })] } }).work.gate (({ dstGate := 2, cause := 11 } : HelmMsg)).dstGate).parties ≠ 0
      ∧ (hawsered fun h => { h with helm := { h.helm with gates := [(2, { parties := 3 })] } }).hub.helm.waiters = [])
    ∧ (reaches (hawsered fun h => { h with helm := { h.helm with gates := [(2, { parties := 3, upEn := true, upHub := 7 })] } }) 0 (({ srcHub := 7 } : HelmMsg))
      ∧ ((hawsered fun h => { h with helm := { h.helm with gates := [(2, { parties := 3, upEn := true, upHub := 7 })] } }).work.gate 2).upEn = true
      ∧ ((hawsered fun h => { h with helm := { h.helm with gates := [(2, { parties := 3, upEn := true, upHub := 7 })] } }).work.gate 2).upHub = (({ srcHub := 7 } : HelmMsg)).srcHub
      ∧ (tfind (hawsered fun h => { h with helm := { h.helm with gates := [(2, { parties := 3, upEn := true, upHub := 7 })] } }).hub.helm.gates 2).isSome = true)
    ∧ ((0, (Instr.arriveMsg 0 { srcHub := 7, srcGate := 1, dstGate := 2 })) ∈ [(0, Instr.arriveMsg 0 (({ srcHub := 7, srcGate := 1, dstGate := 2 } : HelmMsg))), (1, .releaseMsg 0 (({ srcHub := 7, srcGate := 1, dstGate := 2 } : HelmMsg))), (2, .breakMsg 0 (({ srcHub := 7, srcGate := 1, dstGate := 2 } : HelmMsg))), (3, .rejectMsg 0 (({ srcHub := 7, srcGate := 1, dstGate := 2 } : HelmMsg))), (4, .slowedMsg 0 (({ srcHub := 7, srcGate := 1, dstGate := 2 } : HelmMsg)))]
      ∧ (hawsered fun h => { h with svc := { h.svc with replacing := some (2, 0) } }).work.hportTrained 0 = true
      ∧ (({ srcHub := 7, srcGate := 1, dstGate := 2 } : HelmMsg)).dstHub = (hawsered fun h => { h with svc := { h.svc with replacing := some (2, 0) } }).work.hubId
      ∧ (hawsered fun h => { h with svc := { h.svc with replacing := some (2, 0) } }).work.helmPaused = true) := by
  (repeat' apply And.intro) <;> decide +kernel

theorem test_fabricLinks :
  (5 < 303
      ∧ 0 < 2
      ∧ 1 < 5
      ∧ 0 < 2
      ∧ 5 ∉ (hubbed fun h => { h with fabric := { h.fabric with failRow := [(10, 3)] } }).hub.fabric.linksOut
      ∧ (hubbed fun h => { h with fabric := { h.fabric with failRow := [(10, 3)] } }).work.flitDue 5 0 = none)
    ∧ (5 < 303
      ∧ 0 < 2
      ∧ 1 < 5
      ∧ 1 < 2
      ∧ 5 ∉ (hubbed fun h => { h with fabric := { h.fabric with retry := [(10, 1)], failRow := [(10, 3)] } }).hub.fabric.linksOut
      ∧ (hubbed fun h => { h with fabric := { h.fabric with retry := [(10, 1)], failRow := [(10, 3)] } }).work.flitDue 5 0 = some 1)
    ∧ (5 < 303
      ∧ 0 < 2
      ∧ 1 < 5
      ∧ 5 ∉ (hubbed id).hub.fabric.linksOut
      ∧ (hubbed id).work.flitDue 5 0 = none ∨ (hubbed id).work.flitDue 5 0 = some 1
      ∧ tget 0 (hubbed id).hub.fabric.failRow (2 * 5 + 0) + 1 < 16
      ∧ (recent (hubbed id).work.now 1000 (tget [] (hubbed id).hub.fabric.failTimes (2 * 5 + 0))).length < 1000)
    ∧ (5 < 303
      ∧ 0 < 2
      ∧ 1 < 5
      ∧ 5 ∉ (hubbed fun h => { h with fabric := { h.fabric with failRow := [(10, 15)], retry := [(10, 1)] } }).hub.fabric.linksOut
      ∧ (hubbed fun h => { h with fabric := { h.fabric with failRow := [(10, 15)], retry := [(10, 1)] } }).work.flitDue 5 0 = some 1
      ∧ 15 ≤ tget 0 (hubbed fun h => { h with fabric := { h.fabric with failRow := [(10, 15)], retry := [(10, 1)] } }).hub.fabric.failRow (2 * 5 + 0))
    ∧ ((hubbed fun h => { h with fabric := { h.fabric with heldFrom := some 4, linksOut := List.range 8 } }).hub.fabric.heldFrom = some 4)
    ∧ (tfind (asked {} id).hub.fabric.reqs 5 = some (({} : MemReq)))
    ∧ (0 < 16)
    ∧ ((3 = 2 ∧ (∃ r, tfind (hubbed fun h => { h with fabric := { h.fabric with rsps := [(3, { read := true })] } }).hub.fabric.rsps 3 = some r ∧ r.read = false) ∨ 3 = 3 ∧ (∃ r, tfind (hubbed fun h => { h with fabric := { h.fabric with rsps := [(3, { read := true })] } }).hub.fabric.rsps 3 = some r ∧ r.read = true)
      ∨ 3 = 4 ∧ (tfind (hubbed fun h => { h with fabric := { h.fabric with rsps := [(3, { read := true })] } }).hub.fabric.toks 3).isSome = true)) := by
  (repeat' apply And.intro) <;> decide +kernel

theorem test_homeRequests :
  let comes (s : State) (id : Nat) (r : MemReq) : Prop := tfind s.hub.fabric.reqs id = some r ∧ r.atHome = false ∧ s.work.injected id = true ∧ s.work.reqBehind id r = false ∧ s.work.behind r = false
    ∧ s.work.homeFull (reqLine r) = false ∧ isHost (reqLine r * 128) = false ∧ sliceOf (reqLine r * 128) ∉ s.hub.fabric.deadSlices ∧ s.work.lineEntry (reqLine r) = none
    ∧ reqLine r ∉ s.hub.ledger.hostPoison ∧ s.hub.ledger.txns = [] ∧ s.hub.ledger.waits = [] ∧ tfind s.hub.ledger.hostTxns (reqLine r) = none ∧ s.hub.chart.holds = []
  (comes (asked { agent := .site 0, kind := .rdNc, bytes := 128, dpa := 0x1000 } id) 5 (({ agent := .site 0, kind := .rdNc, bytes := 128, dpa := 0x1000 } : MemReq))
      ∧ (({ agent := .site 0, kind := .rdNc, bytes := 128, dpa := 0x1000 } : MemReq)).kind = .rdNc
      ∧ (({ agent := .site 0, kind := .rdNc, bytes := 128, dpa := 0x1000 } : MemReq)).agent = .site 0
      ∧ (({ agent := .site 0, kind := .rdNc, bytes := 128, dpa := 0x1000 } : MemReq)).done = 0
      ∧ (({ agent := .site 0, kind := .rdNc, bytes := 128, dpa := 0x1000 } : MemReq)).forwarded = []
      ∧ (partsOf 128 (({ agent := .site 0, kind := .rdNc, bytes := 128, dpa := 0x1000 } : MemReq)).dpa (({ agent := .site 0, kind := .rdNc, bytes := 128, dpa := 0x1000 } : MemReq)).bytes).length = 1)
    ∧ (comes (asked { agent := .site 0, kind := .rdShared, bytes := 128, dpa := 0x1000 } id) 5 (({ agent := .site 0, kind := .rdShared, bytes := 128, dpa := 0x1000 } : MemReq))
      ∧ (({ agent := .site 0, kind := .rdShared, bytes := 128, dpa := 0x1000 } : MemReq)).kind = .rdShared
      ∧ (({ agent := .site 0, kind := .rdShared, bytes := 128, dpa := 0x1000 } : MemReq)).agent = .site 0
      ∧ (({ agent := .site 0, kind := .rdShared, bytes := 128, dpa := 0x1000 } : MemReq)).shared = false
      ∧ (({ agent := .site 0, kind := .rdShared, bytes := 128, dpa := 0x1000 } : MemReq)).done = 0
      ∧ ((asked { agent := .site 0, kind := .rdShared, bytes := 128, dpa := 0x1000 } id).hub.ledger.entries.filter fun y => ledgerSet y.1 = ledgerSet (reqLine (({ agent := .site 0, kind := .rdShared, bytes := 128, dpa := 0x1000 } : MemReq)))).length < 16 - ((asked { agent := .site 0, kind := .rdShared, bytes := 128, dpa := 0x1000 } id).hub.ledger.retired.filter fun y => y.1 = ledgerSet (reqLine (({ agent := .site 0, kind := .rdShared, bytes := 128, dpa := 0x1000 } : MemReq)))).length)
    ∧ ((hubbed fun h => { h with ledger := { h.ledger with txns := [(32, { ackFrom := some 0, placed := true })] } }).hub.ledger.txns = [(32, (({ ackFrom := some 0, placed := true } : Txn)))]
      ∧ (({ ackFrom := some 0, placed := true } : Txn)).ackFrom = some 0
      ∧ (({ ackFrom := some 0, placed := true } : Txn)).placed = true
      ∧ (({ ackFrom := some 0, placed := true } : Txn)).after = []
      ∧ (hubbed fun h => { h with ledger := { h.ledger with txns := [(32, { ackFrom := some 0, placed := true })] } }).hub.fabric.heldFrom = none
      ∧ (hubbed fun h => { h with ledger := { h.ledger with txns := [(32, { ackFrom := some 0, placed := true })] } }).hub.ledger.hostTxns = []
      ∧ (hubbed fun h => { h with ledger := { h.ledger with txns := [(32, { ackFrom := some 0, placed := true })] } }).hub.ledger.waits = []
      ∧ (hubbed fun h => { h with ledger := { h.ledger with txns := [(32, { ackFrom := some 0, placed := true })] } }).hub.chart.holds = []) := by
  (repeat' apply And.intro) <;> decide +kernel

theorem test_hostLines :
  (isHost (line1000 * 128) = true
      ∧ hostPort (line1000 * 128) = 0
      ∧ tfind (hubbed id).hub.ledger.hostTxns line1000 = none
      ∧ (hubbed id).work.txn line1000 = none
      ∧ (hubbed id).work.lineEntry line1000 = none
      ∧ (hubbed id).hub.ledger.hostNext = []
      ∧ (hubbed id).hub.ledger.waits = []
      ∧ (hubbed id).hub.chart.holds = []
      ∧ 0 < 3)
    ∧ (isHost (line1000 * 128) = true
      ∧ hostPort (line1000 * 128) = 0
      ∧ tfind (hubbed fun h => { h with ledger := { h.ledger with entries := [(line1000, { st := .EM, owner := 3 })] } }).hub.ledger.hostTxns line1000 = none
      ∧ (hubbed fun h => { h with ledger := { h.ledger with entries := [(line1000, { st := .EM, owner := 3 })] } }).work.txn line1000 = none
      ∧ (hubbed fun h => { h with ledger := { h.ledger with entries := [(line1000, { st := .EM, owner := 3 })] } }).work.lineEntry line1000 = some (({ st := .EM, owner := 3 } : LEntry))
      ∧ 1 < 3
      ∧ ([3]) = (if 1 = 0 then holdersOf (({ st := .EM, owner := 3 } : LEntry)) else if (({ st := .EM, owner := 3 } : LEntry)).st = .S then [] else [(({ st := .EM, owner := 3 } : LEntry)).owner])
      ∧ ([3]) ≠ [])
    ∧ ((hubbed fun h => { h with ledger := { h.ledger with txns := [(line1000, { why := .request hostShared, hostWait := true })] } }).hub.ledger.txns = [(line1000, (({ why := .request hostShared, hostWait := true } : Txn)))]
      ∧ (({ why := .request hostShared, hostWait := true } : Txn)).why = .request hostShared
      ∧ (({ why := .request hostShared, hostWait := true } : Txn)).hostWait = true
      ∧ (({ why := .request hostShared, hostWait := true } : Txn)).dirty = none
      ∧ (({ why := .request hostShared, hostWait := true } : Txn)).early = false
      ∧ hostPort (line1000 * 128) = 0
      ∧ isHost (line1000 * 128) = true
      ∧ hostShared.kind = .rdShared
      ∧ hostShared.agent = .site 0
      ∧ hostShared.shared = true
      ∧ (hubbed fun h => { h with ledger := { h.ledger with txns := [(line1000, { why := .request hostShared, hostWait := true })] } }).work.lineEntry line1000 = none
      ∧ (hubbed fun h => { h with ledger := { h.ledger with txns := [(line1000, { why := .request hostShared, hostWait := true })] } }).hub.ledger.waits = []
      ∧ (hubbed fun h => { h with ledger := { h.ledger with txns := [(line1000, { why := .request hostShared, hostWait := true })] } }).hub.chart.holds = []
      ∧ (List.replicate 128 3).length = 128
      ∧ reqLine hostShared = line1000)
    ∧ ((hubbed fun h => { h with ports := [(0, port0)], ledger := { h.ledger with txns := [(line1000, { why := .request hostShared, hostWait := true })] } }).hub.ledger.txns = [(line1000, (({ why := .request hostShared, hostWait := true } : Txn)))]
      ∧ (({ why := .request hostShared, hostWait := true } : Txn)).why = .request hostShared
      ∧ (({ why := .request hostShared, hostWait := true } : Txn)).hostWait = true
      ∧ hostPort (line1000 * 128) = 0
      ∧ isHost (line1000 * 128) = true
      ∧ ((hubbed fun h => { h with ports := [(0, port0)], ledger := { h.ledger with txns := [(line1000, { why := .request hostShared, hostWait := true })] } }).work.port 0).state = 2
      ∧ hostShared.kind = .rdShared
      ∧ hostShared.agent = .site 0
      ∧ hostShared.done = 0
      ∧ (hubbed fun h => { h with ports := [(0, port0)], ledger := { h.ledger with txns := [(line1000, { why := .request hostShared, hostWait := true })] } }).work.lineEntry line1000 = none
      ∧ (hubbed fun h => { h with ports := [(0, port0)], ledger := { h.ledger with txns := [(line1000, { why := .request hostShared, hostWait := true })] } }).hub.ledger.waits = []
      ∧ (hubbed fun h => { h with ports := [(0, port0)], ledger := { h.ledger with txns := [(line1000, { why := .request hostShared, hostWait := true })] } }).hub.chart.holds = []
      ∧ (hubbed fun h => { h with ports := [(0, port0)], ledger := { h.ledger with txns := [(line1000, { why := .request hostShared, hostWait := true })] } }).hub.fabric.reqs = []) := by
  (repeat' apply And.intro) <;> decide +kernel

theorem test_controllers :
  let served (s : State) (id : Nat) (r : MemReq) : Prop := tfind s.hub.fabric.reqs id = some r ∧ r.atHome = true ∧ s.work.injected id = true ∧ s.work.behind r = false
    ∧ r.queued = none ∧ s.work.memBehind id r = false ∧ (∀ x ∈ s.hub.fabric.reqs, x.2.queued = none) ∧ s.work.accessCheck r.berth r.dpa = none ∧ s.work.memBusy r.dpa = false ∧ isHost r.dpa = false ∧ isBoard r.dpa = false ∧ r.pack = none
  (served (asked (atMem .wr 32 0 (List.replicate 32 7)) id) 5 (atMem .wr 32 0 (List.replicate 32 7))
      ∧ (atMem .wr 32 0 (List.replicate 32 7)).kind = .wr
      ∧ (atMem .wr 32 0 (List.replicate 32 7)).agent = .site 0
      ∧ 0 < (atMem .wr 32 0 (List.replicate 32 7)).bytes
      ∧ (atMem .wr 32 0 (List.replicate 32 7)).data.length = (atMem .wr 32 0 (List.replicate 32 7)).bytes)
    ∧ (served (asked (atMem .rdNc 32 0 []) id) 5 (atMem .rdNc 32 0 [])
      ∧ (atMem .rdNc 32 0 []).kind = .rdNc
      ∧ (atMem .rdNc 32 0 []).agent = .site 0
      ∧ (atMem .rdNc 32 0 []).grant = 0
      ∧ (asked (atMem .rdNc 32 0 []) id).work.poisoned (atMem .rdNc 32 0 []).dpa (atMem .rdNc 32 0 []).bytes = false)
    ∧ (served (withBytes (asked (atMem .atomic 4 2 (List.replicate 32 7)) id) 0x004000000200 [9]) 5 (atMem .atomic 4 2 (List.replicate 32 7))
      ∧ (atMem .atomic 4 2 (List.replicate 32 7)).kind = .atomic
      ∧ (atMem .atomic 4 2 (List.replicate 32 7)).agent = .site 0
      ∧ (withBytes (asked (atMem .atomic 4 2 (List.replicate 32 7)) id) 0x004000000200 [9]).work.poisoned (atMem .atomic 4 2 (List.replicate 32 7)).dpa (atMem .atomic 4 2 (List.replicate 32 7)).bytes = false
      ∧ 0 < (atMem .atomic 4 2 (List.replicate 32 7)).bytes)
    ∧ (tfind (asked { atMem .rdNc 32 0 [] with queued := some 2, dpa := 512 } fun h => { h with fabric := { h.fabric with reqs := h.fabric.reqs ++ [(6, { atMem .rdNc 32 0 [] with queued := some 1, dpa := 512 })] }, memory := { h.memory with owner := [(0, 1 * 2 ^ 14 + 4)] } }).hub.fabric.reqs 5 = some ({ atMem .rdNc 32 0 [] with queued := some 2, dpa := 512 })
      ∧ ({ atMem .rdNc 32 0 [] with queued := some 2, dpa := 512 }).atHome = true
      ∧ (asked { atMem .rdNc 32 0 [] with queued := some 2, dpa := 512 } fun h => { h with fabric := { h.fabric with reqs := h.fabric.reqs ++ [(6, { atMem .rdNc 32 0 [] with queued := some 1, dpa := 512 })] }, memory := { h.memory with owner := [(0, 1 * 2 ^ 14 + 4)] } }).work.injected 5 = true
      ∧ ({ atMem .rdNc 32 0 [] with queued := some 2, dpa := 512 }).queued.isSome = true
      ∧ (asked { atMem .rdNc 32 0 [] with queued := some 2, dpa := 512 } fun h => { h with fabric := { h.fabric with reqs := h.fabric.reqs ++ [(6, { atMem .rdNc 32 0 [] with queued := some 1, dpa := 512 })] }, memory := { h.memory with owner := [(0, 1 * 2 ^ 14 + 4)] } }).work.refuses ({ atMem .rdNc 32 0 [] with queued := some 2, dpa := 512 }) = none
      ∧ (asked { atMem .rdNc 32 0 [] with queued := some 2, dpa := 512 } fun h => { h with fabric := { h.fabric with reqs := h.fabric.reqs ++ [(6, { atMem .rdNc 32 0 [] with queued := some 1, dpa := 512 })] }, memory := { h.memory with owner := [(0, 1 * 2 ^ 14 + 4)] } }).work.isNext ({ atMem .rdNc 32 0 [] with queued := some 2, dpa := 512 }) = false)
    ∧ (({ atMem .rdNc 32 0 [] with queued := some 2, dpa := 512, prio := 3 }) ∈ (asked { atMem .rdNc 32 0 [] with queued := some 2, dpa := 512, prio := 3 } fun h => { h with fabric := { h.fabric with reqs := h.fabric.reqs ++ [(6, { atMem .wr 32 0 [] with queued := some 1, dpa := 512 })] } }).work.queueOf (.channel 2)
      ∧ ({ atMem .wr 32 0 [] with queued := some 1, dpa := 512 }) ∈ (asked { atMem .rdNc 32 0 [] with queued := some 2, dpa := 512, prio := 3 } fun h => { h with fabric := { h.fabric with reqs := h.fabric.reqs ++ [(6, { atMem .wr 32 0 [] with queued := some 1, dpa := 512 })] } }).work.queueOf (.channel 2)
      ∧ (asked { atMem .rdNc 32 0 [] with queued := some 2, dpa := 512, prio := 3 } fun h => { h with fabric := { h.fabric with reqs := h.fabric.reqs ++ [(6, { atMem .wr 32 0 [] with queued := some 1, dpa := 512 })] } }).work.memBusy ({ atMem .rdNc 32 0 [] with queued := some 2, dpa := 512, prio := 3 }).dpa = false
      ∧ isRead ({ atMem .rdNc 32 0 [] with queued := some 2, dpa := 512, prio := 3 }) = true
      ∧ ({ atMem .rdNc 32 0 [] with queued := some 2, dpa := 512, prio := 3 }).prio = 3
      ∧ isRead ({ atMem .wr 32 0 [] with queued := some 1, dpa := 512 }) = false
      ∧ ({ atMem .wr 32 0 [] with queued := some 1, dpa := 512 }).agent ≠ .hub)
    ∧ (served (withBytes (asked (atMem .reduce 32 8 (List.replicate 32 7)) id) 0x004000000200 [9]) 5 (atMem .reduce 32 8 (List.replicate 32 7))
      ∧ (atMem .reduce 32 8 (List.replicate 32 7)).kind = .reduce
      ∧ (atMem .reduce 32 8 (List.replicate 32 7)).agent = .site 0
      ∧ (withBytes (asked (atMem .reduce 32 8 (List.replicate 32 7)) id) 0x004000000200 [9]).work.poisoned (atMem .reduce 32 8 (List.replicate 32 7)).dpa (atMem .reduce 32 8 (List.replicate 32 7)).bytes = false
      ∧ bits (atMem .reduce 32 8 (List.replicate 32 7)).opspec 4 2 < 4
      ∧ (atMem .reduce 32 8 (List.replicate 32 7)).bytes % 8 = 0
      ∧ 0 < (atMem .reduce 32 8 (List.replicate 32 7)).bytes
      ∧ (atMem .reduce 32 8 (List.replicate 32 7)).data.length = (atMem .reduce 32 8 (List.replicate 32 7)).bytes) := by
  (repeat' apply And.intro) <;> decide +kernel

theorem test_channels :
  (tfind (asked { atMem .rdNc 32 0 [] with queued := some 0 } id).hub.fabric.reqs 5 = some ({ atMem .rdNc 32 0 [] with queued := some 0 })
      ∧ ({ atMem .rdNc 32 0 [] with queued := some 0 }).queued.isSome = true
      ∧ isRead ({ atMem .rdNc 32 0 [] with queued := some 0 }) = true
      ∧ ({ atMem .rdNc 32 0 [] with queued := some 0 }).prio < 2)
    ∧ (7 < 128
      ∧ channelServes ((hubbed id).work.channel 7) = true
      ∧ (hubbed id).hub.memory.hold = []
      ∧ (hubbed id).hub.helm.waiters = [])
    ∧ (((hubbed fun h => { h with memory := { h.memory with channels := [(7, { retraining := true })] } }).work.channel 7).retraining = true
      ∧ trainedRate (hubbed fun h => { h with memory := { h.memory with channels := [(7, { retraining := true })] } }).hub.memory.rateRun 30 = some 28)
    ∧ (7 < 128
      ∧ ((hubbed fun h => { h with memory := { h.memory with channels := [(7, { retraining := true })] } }).work.channel 7).retraining = true
      ∧ channelServes ((hubbed fun h => { h with memory := { h.memory with channels := [(7, { retraining := true })] } }).work.channel 7) = true
      ∧ (true = false ∨ trainedRate (hubbed fun h => { h with memory := { h.memory with channels := [(7, { retraining := true })] } }).hub.memory.rateRun 27 = none)
      ∧ (hubbed fun h => { h with memory := { h.memory with channels := [(7, { retraining := true })] } }).hub.memory.hold = []
      ∧ (hubbed fun h => { h with memory := { h.memory with channels := [(7, { retraining := true })] } }).hub.helm.waiters = [])
    ∧ (7 < 128
      ∧ 9 < 2 ^ 15)
    ∧ (((hubbed id).work.channel 7).temp + 3 ≤ (hubbed id).hub.memory.rfshTlimit
      ∧ ((hubbed id).work.channel 7).temp ≤ ((hubbed id).work.channel 7).testTemp + 2) := by
  (repeat' apply And.intro) <;> decide +kernel

theorem test_reloads :
  ((hubbed fun h => { h with ports := [(0, port0)], memory := { h.memory with reloads := [{ block := 3, running := true, origin := { base := 3 * 65536, blocks := 1, origin := 0x10000 } }] } }).hub.memory.reloads = [{ block := 3, running := true, origin := (({ base := 3 * 65536, blocks := 1, origin := 0x10000 } : Origin)) }]
      ∧ (({ base := 3 * 65536, blocks := 1, origin := 0x10000 } : Origin)).board = false
      ∧ (hubbed fun h => { h with ports := [(0, port0)], memory := { h.memory with reloads := [{ block := 3, running := true, origin := { base := 3 * 65536, blocks := 1, origin := 0x10000 } }] } }).work.portUp (({ base := 3 * 65536, blocks := 1, origin := 0x10000 } : Origin)).port = true
      ∧ 3 = (({ base := 3 * 65536, blocks := 1, origin := 0x10000 } : Origin)).base / 65536
      ∧ (({ base := 3 * 65536, blocks := 1, origin := 0x10000 } : Origin)).base % 65536 = 0
      ∧ (({ base := 3 * 65536, blocks := 1, origin := 0x10000 } : Origin)).origin + 65536 ≤ 2 ^ 49
      ∧ (hubbed fun h => { h with ports := [(0, port0)], memory := { h.memory with reloads := [{ block := 3, running := true, origin := { base := 3 * 65536, blocks := 1, origin := 0x10000 } }] } }).work.poisoned (hostKey (({ base := 3 * 65536, blocks := 1, origin := 0x10000 } : Origin)).port (({ base := 3 * 65536, blocks := 1, origin := 0x10000 } : Origin)).origin) 65536 = false
      ∧ isBoard (3 * 65536) = true)
    ∧ ((hubbed fun h => { h with memory := { h.memory with reloads := [{ block := 3, running := true }] } }).hub.memory.reloads = [(({ block := 3, running := true } : Reload))]
      ∧ (({ block := 3, running := true } : Reload)).block = 3
      ∧ (({ block := 3, running := true } : Reload)).running = true
      ∧ (({ block := 3, running := true } : Reload)).entry = none)
    ∧ ((managed (pack [(8, 0x1C), (120, 0), (52, 3 * 65536), (76, 0), (32, 2)]) fun h => { h with memory := { h.memory with owner := [(3, 0x8002), (4, 0x8002)], origins := [{ group := 2, base := 3 * 65536, blocks := 2 }] } }).Issued ref3 (entry3 (pack [(8, 0x1C), (120, 0), (52, 3 * 65536), (76, 0), (32, 2)])) 0x1C
      ∧ (managed (pack [(8, 0x1C), (120, 0), (52, 3 * 65536), (76, 0), (32, 2)]) fun h => { h with memory := { h.memory with owner := [(3, 0x8002), (4, 0x8002)], origins := [{ group := 2, base := 3 * 65536, blocks := 2 }] } }).work.isManager ref3.berth = true
      ∧ (3 * 65536) = bits (entry3 (pack [(8, 0x1C), (120, 0), (52, 3 * 65536), (76, 0), (32, 2)])).word 179 128
      ∧ 2 = bits (entry3 (pack [(8, 0x1C), (120, 0), (52, 3 * 65536), (76, 0), (32, 2)])).word 287 256
      ∧ (managed (pack [(8, 0x1C), (120, 0), (52, 3 * 65536), (76, 0), (32, 2)]) fun h => { h with memory := { h.memory with owner := [(3, 0x8002), (4, 0x8002)], origins := [{ group := 2, base := 3 * 65536, blocks := 2 }] } }).work.blocksInPool ref3 (3 * 65536) 2 = true
      ∧ (3 * 65536) % 65536 = 0
      ∧ 0 < 2
      ∧ 2 ≤ 16
      ∧ (∀ c < 128, channelServes ((managed (pack [(8, 0x1C), (120, 0), (52, 3 * 65536), (76, 0), (32, 2)]) fun h => { h with memory := { h.memory with owner := [(3, 0x8002), (4, 0x8002)], origins := [{ group := 2, base := 3 * 65536, blocks := 2 }] } }).work.channel c) = true)
      ∧ (∀ i < 2, ((managed (pack [(8, 0x1C), (120, 0), (52, 3 * 65536), (76, 0), (32, 2)]) fun h => { h with memory := { h.memory with owner := [(3, 0x8002), (4, 0x8002)], origins := [{ group := 2, base := 3 * 65536, blocks := 2 }] } }).work.originOf ((3 * 65536) / 65536 + i)).isSome = true)
      ∧ (managed (pack [(8, 0x1C), (120, 0), (52, 3 * 65536), (76, 0), (32, 2)]) fun h => { h with memory := { h.memory with owner := [(3, 0x8002), (4, 0x8002)], origins := [{ group := 2, base := 3 * 65536, blocks := 2 }] } }).hub.memory.reloads = [])
    ∧ (1 < 3
      ∧ 1 ∉ (hubbed id).hub.memory.diesOut
      ∧ (hubbed id).hub.memory.hold = [])
    ∧ ((managed (entryWord 0x1D [(14, 4)]) fun h => { h with memory := { h.memory with hold := [{ berth := 4 }, { berth := 5, granule := 9 }] } }).Issued ref3 (entry3 (entryWord 0x1D [(14, 4)])) 0x1D
      ∧ (managed (entryWord 0x1D [(14, 4)]) fun h => { h with memory := { h.memory with hold := [{ berth := 4 }, { berth := 5, granule := 9 }] } }).work.isManager ref3.berth = true
      ∧ 4 = bits (entry3 (entryWord 0x1D [(14, 4)])).word 269 256
      ∧ (managed (entryWord 0x1D [(14, 4)]) fun h => { h with memory := { h.memory with hold := [{ berth := 4 }, { berth := 5, granule := 9 }] } }).work.berthInPool ref3 4 = true) := by
  (repeat' apply And.intro) <;> decide +kernel

theorem test_guarantees :
  ((managed (pack [(8, 0x27), (120, 0), (6, 1), (2, 0), (2, 1), (6, 0), (16, 10), (8, 1)]) id).Issued ref3 (entry3 (pack [(8, 0x27), (120, 0), (6, 1), (2, 0), (2, 1), (6, 0), (16, 10), (8, 1)])) 0x27
      ∧ (managed (pack [(8, 0x27), (120, 0), (6, 1), (2, 0), (2, 1), (6, 0), (16, 10), (8, 1)]) id).work.isManager ref3.berth = true
      ∧ (pack [(6, 1), (2, 0), (2, 1), (6, 0), (16, 10), (8, 1)]) = bits (entry3 (pack [(8, 0x27), (120, 0), (6, 1), (2, 0), (2, 1), (6, 0), (16, 10), (8, 1)])).word 383 128
      ∧ 1 = bits (pack [(6, 1), (2, 0), (2, 1), (6, 0), (16, 10), (8, 1)]) 5 0
      ∧ 1 = resIndex (bits (pack [(6, 1), (2, 0), (2, 1), (6, 0), (16, 10), (8, 1)]) 9 8) (bits (pack [(6, 1), (2, 0), (2, 1), (6, 0), (16, 10), (8, 1)]) 11 10)
      ∧ 1 ≠ 0
      ∧ (managed (pack [(8, 0x27), (120, 0), (6, 1), (2, 0), (2, 1), (6, 0), (16, 10), (8, 1)]) id).work.itemInPool ref3 8 1 = true
      ∧ (({ guar := 10 } : Guar)) = { guar := bits (pack [(6, 1), (2, 0), (2, 1), (6, 0), (16, 10), (8, 1)]) 31 16, weight := bits (pack [(6, 1), (2, 0), (2, 1), (6, 0), (16, 10), (8, 1)]) 39 32, mode := bits (pack [(6, 1), (2, 0), (2, 1), (6, 0), (16, 10), (8, 1)]) 41 40, qshare := bits (pack [(6, 1), (2, 0), (2, 1), (6, 0), (16, 10), (8, 1)]) 54 48, otMax := bits (pack [(6, 1), (2, 0), (2, 1), (6, 0), (16, 10), (8, 1)]) 74 64, port := (managed (pack [(8, 0x27), (120, 0), (6, 1), (2, 0), (2, 1), (6, 0), (16, 10), (8, 1)]) id).work.portOf ref3.berth }
      ∧ guarShapeOk (bits (pack [(6, 1), (2, 0), (2, 1), (6, 0), (16, 10), (8, 1)]) 9 8) (bits (pack [(6, 1), (2, 0), (2, 1), (6, 0), (16, 10), (8, 1)]) 11 10) (({ guar := 10 } : Guar)).weight (({ guar := 10 } : Guar)).mode (({ guar := 10 } : Guar)).qshare (({ guar := 10 } : Guar)).otMax = true
      ∧ (([] : List Guar)) = ((managed (pack [(8, 0x27), (120, 0), (6, 1), (2, 0), (2, 1), (6, 0), (16, 10), (8, 1)]) id).hub.bwr.recs.filter fun (y : Nat × Guar) => y.1 % 10 = 1 && y.1 ≠ 1 * 10 + 1).map (fun y => y.2)
      ∧ 10000 * (((([] : List Guar)).map fun y => y.guar).sum + (({ guar := 10 } : Guar)).guar) ≤ 9 * (managed (pack [(8, 0x27), (120, 0), (6, 1), (2, 0), (2, 1), (6, 0), (16, 10), (8, 1)]) id).work.capacity 1
      ∧ queuesFit ((({ guar := 10 } : Guar)) :: (([] : List Guar))) = true
      ∧ (({ guar := 10 } : Guar)).guar ≠ 0)
    ∧ (1 ≠ 0
      ∧ 1 < 64
      ∧ 0 < 10
      ∧ tfind (hubbed id).hub.bwr.recs (1 * 10 + 0) = none)
    ∧ (1 ≠ 0
      ∧ 1 < 64
      ∧ 0 < 10
      ∧ tfind (hubbed fun h => { h with bwr := { h.bwr with recs := [(10, { guar := 5 })] } }).hub.bwr.recs (1 * 10 + 0) = some (({ guar := 5 } : Guar))
      ∧ (hubbed fun h => { h with bwr := { h.bwr with recs := [(10, { guar := 5 })] } }).work.capacity 0 ≠ 0
      ∧ 256 * tget 0 (hubbed fun h => { h with bwr := { h.bwr with recs := [(10, { guar := 5 })] } }).hub.bwr.charged (1 * 10 + 0) < (({ guar := 5 } : Guar)).guar * 1000 * (hubbed fun h => { h with bwr := { h.bwr with recs := [(10, { guar := 5 })] } }).hub.bwr.window * (256 - (hubbed fun h => { h with bwr := { h.bwr with recs := [(10, { guar := 5 })] } }).hub.bwr.tol)) := by
  (repeat' apply And.intro) <;> decide +kernel

theorem test_chartWalks :
  ((0, 4, 0x1234 / 65536 * 65536) ∈ ((charted (hubbed fun h => { h with chart := { h.chart with pending := [(0, 4, 0)] } }) boardLeaf).hub.chart.pending.filter fun (v, c, p) => v = 0 && !(charted (hubbed fun h => { h with chart := { h.chart with pending := [(0, 4, 0)] } }) boardLeaf).work.pageHeld c p).take 16
      ∧ (({ tableBerth := 2, valid := true, l0 := 0x4000 } : Root)) = tget ({} : Root) (charted (hubbed fun h => { h with chart := { h.chart with pending := [(0, 4, 0)] } }) boardLeaf).hub.chart.roots 4
      ∧ (({ tableBerth := 2, valid := true, l0 := 0x4000 } : Root)).valid = true
      ∧ (charted (hubbed fun h => { h with chart := { h.chart with pending := [(0, 4, 0)] } }) boardLeaf).work.keyGone (({ tableBerth := 2, valid := true, l0 := 0x4000 } : Root)).tableBerth (({ tableBerth := 2, valid := true, l0 := 0x4000 } : Root)).tkgen = false
      ∧ (charted (hubbed fun h => { h with chart := { h.chart with pending := [(0, 4, 0)] } }) boardLeaf).work.walkFrom (({ tableBerth := 2, valid := true, l0 := 0x4000 } : Root)) 0 4 0x1234 [0, 1, 2, 3, 4] (({ tableBerth := 2, valid := true, l0 := 0x4000 } : Root)).l0 [] [] = (.leaf boardLeaf 30 0x2000, ([0x2000]), [])
      ∧ (charted (hubbed fun h => { h with chart := { h.chart with pending := [(0, 4, 0)] } }) boardLeaf).work.classBad boardLeaf = false
      ∧ ((charted (hubbed fun h => { h with chart := { h.chart with pending := [(0, 4, 0)] } }) boardLeaf).work.site 0).port.held = [])
    ∧ ((managed 0x20 id).Issued ref3 (entry3 0x20) 0x20
      ∧ (managed 0x20 id).work.isManager ref3.berth = true
      ∧ 0 = bits (entry3 0x20).word 383 128
      ∧ 0 = bits 0 13 0
      ∧ (managed 0x20 id).work.berthThere 0 = true
      ∧ (managed 0x20 id).work.berthThere (bits 0 29 16) = true
      ∧ (managed 0x20 id).work.berthInPool ref3 0 = true
      ∧ (managed 0x20 id).work.berthInPool ref3 (bits 0 29 16) = true
      ∧ bits 0 115 64 % 8192 = 0
      ∧ (∃ g < 192, (managed 0x20 id).work.target (bits 0 115 64) = .board g))
    ∧ ((managed 0x21 id).Issued ref3 (entry3 0x21) 0x21
      ∧ (managed 0x21 id).work.isManager ref3.berth = true
      ∧ 0 = bits (entry3 0x21).word 383 128
      ∧ 0 = bits 0 15 14
      ∧ (0 ≠ 3 → (managed 0x21 id).work.berthInPool ref3 (bits 0 13 0) = true)
      ∧ (0 ≠ 2 → bits 0 120 64 % 65536 = 0)
      ∧ (0 = 1 ∨ 0 = 3 → bits 0 159 128 ≠ 0)) := by
  (repeat' apply And.intro) <;> decide +kernel

theorem test_pages :
  let holds (s t : State) (e : EntryRef) (b : Nat) (y : Tlb) (op : PageOp) : Prop :=
    t.hub.chart.holds = s.hub.chart.holds ++ [{ berth := b, dva := y.base, log2 := y.log2, op := op, entry := e, leafAddr := y.addr, pa := leafDpa y.leaf y.log2 y.base }]
    ∧ ∀ z ∈ t.hub.chart.tlb, z.berth = b → rangesMeet z.base (2 ^ z.log2) y.base (2 ^ y.log2) = false
  ((charted (managed (pack [(8, 0x19), (120, 0), (57, 0x1000)]) id) hostLeaf).Issued ref3 (entry3 (pack [(8, 0x19), (120, 0), (57, 0x1000)])) 0x19
      ∧ (charted (managed (pack [(8, 0x19), (120, 0), (57, 0x1000)]) id) hostLeaf).work.pageHeld ref3.berth (bits (entry3 (pack [(8, 0x19), (120, 0), (57, 0x1000)])).word 184 128) = false
      ∧ (((charted (managed (pack [(8, 0x19), (120, 0), (57, 0x1000)]) id) hostLeaf).work.markRunning ref3).walk (129 + (charted (managed (pack [(8, 0x19), (120, 0), (57, 0x1000)]) id) hostLeaf).work.portOf ref3.berth) ref3.berth (bits (entry3 (pack [(8, 0x19), (120, 0), (57, 0x1000)])).word 184 128)).1 = some (leafAt 129 0 hostLeaf)
      ∧ isHost (bits (leafAt 129 0 hostLeaf).leaf 115 80 * 65536) = true)
    ∧ ((charted (managed (pack [(8, 0x1A), (120, 0), (64, 0x1000), (64, 2 ^ 30), (14, 4), (2, 2)]) id) boardLeaf).Issued ref3 (entry3 (pack [(8, 0x1A), (120, 0), (64, 0x1000), (64, 2 ^ 30), (14, 4), (2, 2)])) 0x1A
      ∧ (charted (managed (pack [(8, 0x1A), (120, 0), (64, 0x1000), (64, 2 ^ 30), (14, 4), (2, 2)]) id) boardLeaf).work.isManager ref3.berth = true
      ∧ 4 = bits (entry3 (pack [(8, 0x1A), (120, 0), (64, 0x1000), (64, 2 ^ 30), (14, 4), (2, 2)])).word 269 256
      ∧ (charted (managed (pack [(8, 0x1A), (120, 0), (64, 0x1000), (64, 2 ^ 30), (14, 4), (2, 2)]) id) boardLeaf).work.berthInPool ref3 4 = true
      ∧ bits (entry3 (pack [(8, 0x1A), (120, 0), (64, 0x1000), (64, 2 ^ 30), (14, 4), (2, 2)])).word 271 270 < 3
      ∧ bits (entry3 (pack [(8, 0x1A), (120, 0), (64, 0x1000), (64, 2 ^ 30), (14, 4), (2, 2)])).word 243 192 % 2 ^ pageLog2 (bits (entry3 (pack [(8, 0x1A), (120, 0), (64, 0x1000), (64, 2 ^ 30), (14, 4), (2, 2)])).word 271 270) = 0
      ∧ (charted (managed (pack [(8, 0x1A), (120, 0), (64, 0x1000), (64, 2 ^ 30), (14, 4), (2, 2)]) id) boardLeaf).work.pageHeld 4 (bits (entry3 (pack [(8, 0x1A), (120, 0), (64, 0x1000), (64, 2 ^ 30), (14, 4), (2, 2)])).word 184 128) = false
      ∧ (((charted (managed (pack [(8, 0x1A), (120, 0), (64, 0x1000), (64, 2 ^ 30), (14, 4), (2, 2)]) id) boardLeaf).work.markRunning ref3).walk (129 + (charted (managed (pack [(8, 0x1A), (120, 0), (64, 0x1000), (64, 2 ^ 30), (14, 4), (2, 2)]) id) boardLeaf).work.portOf ref3.berth) 4 (bits (entry3 (pack [(8, 0x1A), (120, 0), (64, 0x1000), (64, 2 ^ 30), (14, 4), (2, 2)])).word 184 128)).1 = some (leafAt 129 4 boardLeaf)
      ∧ (leafAt 129 4 boardLeaf).log2 = pageLog2 (bits (entry3 (pack [(8, 0x1A), (120, 0), (64, 0x1000), (64, 2 ^ 30), (14, 4), (2, 2)])).word 271 270))
    ∧ ((charted (managed (pack [(8, 0x36), (120, 0), (128, 0x1000), (14, 4), (2, 2), (1, 1)]) id) boardLeaf).Issued ref3 (entry3 (pack [(8, 0x36), (120, 0), (128, 0x1000), (14, 4), (2, 2), (1, 1)])) 0x36
      ∧ (charted (managed (pack [(8, 0x36), (120, 0), (128, 0x1000), (14, 4), (2, 2), (1, 1)]) id) boardLeaf).work.isManager ref3.berth = true
      ∧ 4 = bits (entry3 (pack [(8, 0x36), (120, 0), (128, 0x1000), (14, 4), (2, 2), (1, 1)])).word 269 256
      ∧ (charted (managed (pack [(8, 0x36), (120, 0), (128, 0x1000), (14, 4), (2, 2), (1, 1)]) id) boardLeaf).work.berthInPool ref3 4 = true
      ∧ bits (entry3 (pack [(8, 0x36), (120, 0), (128, 0x1000), (14, 4), (2, 2), (1, 1)])).word 271 270 < 3
      ∧ 1 = bits (entry3 (pack [(8, 0x36), (120, 0), (128, 0x1000), (14, 4), (2, 2), (1, 1)])).word 272 272
      ∧ (charted (managed (pack [(8, 0x36), (120, 0), (128, 0x1000), (14, 4), (2, 2), (1, 1)]) id) boardLeaf).work.pageHeld 4 (bits (entry3 (pack [(8, 0x36), (120, 0), (128, 0x1000), (14, 4), (2, 2), (1, 1)])).word 184 128) = false
      ∧ (((charted (managed (pack [(8, 0x36), (120, 0), (128, 0x1000), (14, 4), (2, 2), (1, 1)]) id) boardLeaf).work.markRunning ref3).walk (129 + (charted (managed (pack [(8, 0x36), (120, 0), (128, 0x1000), (14, 4), (2, 2), (1, 1)]) id) boardLeaf).work.portOf ref3.berth) 4 (bits (entry3 (pack [(8, 0x36), (120, 0), (128, 0x1000), (14, 4), (2, 2), (1, 1)])).word 184 128)).1 = some (leafAt 129 4 boardLeaf)
      ∧ (leafAt 129 4 boardLeaf).log2 = pageLog2 (bits (entry3 (pack [(8, 0x36), (120, 0), (128, 0x1000), (14, 4), (2, 2), (1, 1)])).word 271 270)
      ∧ isBoard (bits (leafAt 129 4 boardLeaf).leaf 115 80 * 65536) = true
      ∧ (leafKey 4 (leafAt 129 4 boardLeaf).leaf).2 ≠ 1
      ∧ (charted (managed (pack [(8, 0x36), (120, 0), (128, 0x1000), (14, 4), (2, 2), (1, 1)]) id) boardLeaf).work.key (leafKey 4 (leafAt 129 4 boardLeaf).leaf).1 1 ≠ 0)
    ∧ ((issued 0x1A fun h => { h with chart := { h.chart with holds := [{ op := .migrate 0x20000, entry := ref3, phase := 2 }] } }).hub.chart.holds = [(({ op := .migrate 0x20000, entry := ref3, phase := 2 } : PageHold))]
      ∧ (({ op := .migrate 0x20000, entry := ref3, phase := 2 } : PageHold)).op = .migrate 0x20000
      ∧ (({ op := .migrate 0x20000, entry := ref3, phase := 2 } : PageHold)).phase = 2
      ∧ (XferEnd.targetDead, 8) ∈ [(XferEnd.targetDead, 8), (.denied, 3), (.unmapped, 2)]
      ∧ (issued 0x1A fun h => { h with chart := { h.chart with holds := [{ op := .migrate 0x20000, entry := ref3, phase := 2 }] } }).work.started (({ op := .migrate 0x20000, entry := ref3, phase := 2 } : PageHold)).entry = some (entry3 0x1A)
      ∧ ((issued 0x1A fun h => { h with chart := { h.chart with holds := [{ op := .migrate 0x20000, entry := ref3, phase := 2 }] } }).work.ring (({ op := .migrate 0x20000, entry := ref3, phase := 2 } : PageHold)).entry.berth (({ op := .migrate 0x20000, entry := ref3, phase := 2 } : PageHold)).entry.ring).px2 = false
      ∧ bit (entry3 0x1A).word 15 = false
      ∧ bit (entry3 0x1A).word 13 = false)
    ∧ ((issued 0x1A fun h => { h with memory := { h.memory with owner := [(1, 0x4000), (2, 0x4000)] }, chart := { h.chart with holds := [{ op := .migrate 0x20000, entry := ref3, phase := 2, pa := 0x10000 }] } }).hub.chart.holds = [(({ op := .migrate 0x20000, entry := ref3, phase := 2, pa := 0x10000 } : PageHold))]
      ∧ (({ op := .migrate 0x20000, entry := ref3, phase := 2, pa := 0x10000 } : PageHold)).op = .migrate 0x20000
      ∧ (({ op := .migrate 0x20000, entry := ref3, phase := 2, pa := 0x10000 } : PageHold)).phase = 2
      ∧ (({ op := .migrate 0x20000, entry := ref3, phase := 2, pa := 0x10000 } : PageHold)).log2 = 16
      ∧ (issued 0x1A fun h => { h with memory := { h.memory with owner := [(1, 0x4000), (2, 0x4000)] }, chart := { h.chart with holds := [{ op := .migrate 0x20000, entry := ref3, phase := 2, pa := 0x10000 }] } }).mem.poison = []
      ∧ (issued 0x1A fun h => { h with memory := { h.memory with owner := [(1, 0x4000), (2, 0x4000)] }, chart := { h.chart with holds := [{ op := .migrate 0x20000, entry := ref3, phase := 2, pa := 0x10000 }] } }).work.accessCheck (({ op := .migrate 0x20000, entry := ref3, phase := 2, pa := 0x10000 } : PageHold)).berth (({ op := .migrate 0x20000, entry := ref3, phase := 2, pa := 0x10000 } : PageHold)).pa = none
      ∧ (issued 0x1A fun h => { h with memory := { h.memory with owner := [(1, 0x4000), (2, 0x4000)] }, chart := { h.chart with holds := [{ op := .migrate 0x20000, entry := ref3, phase := 2, pa := 0x10000 }] } }).work.accessCheck (({ op := .migrate 0x20000, entry := ref3, phase := 2, pa := 0x10000 } : PageHold)).berth 0x20000 = none
      ∧ (issued 0x1A fun h => { h with memory := { h.memory with owner := [(1, 0x4000), (2, 0x4000)] }, chart := { h.chart with holds := [{ op := .migrate 0x20000, entry := ref3, phase := 2, pa := 0x10000 }] } }).work.started (({ op := .migrate 0x20000, entry := ref3, phase := 2, pa := 0x10000 } : PageHold)).entry = some (entry3 0x1A)
      ∧ ((issued 0x1A fun h => { h with memory := { h.memory with owner := [(1, 0x4000), (2, 0x4000)] }, chart := { h.chart with holds := [{ op := .migrate 0x20000, entry := ref3, phase := 2, pa := 0x10000 }] } }).work.ring (({ op := .migrate 0x20000, entry := ref3, phase := 2, pa := 0x10000 } : PageHold)).entry.berth (({ op := .migrate 0x20000, entry := ref3, phase := 2, pa := 0x10000 } : PageHold)).entry.ring).px2 = false
      ∧ bit (entry3 0x1A).word 15 = false
      ∧ bit (entry3 0x1A).word 13 = false) := by
  (repeat' apply And.intro) <;> decide +kernel

theorem test_windows :
  ((managed (pack [(8, 0x22), (120, 0), (8, 3), (20, 0), (1, 1), (35, 0), (32, 5)]) id).Issued ref3 (entry3 (pack [(8, 0x22), (120, 0), (8, 3), (20, 0), (1, 1), (35, 0), (32, 5)])) 0x22
      ∧ (managed (pack [(8, 0x22), (120, 0), (8, 3), (20, 0), (1, 1), (35, 0), (32, 5)]) id).work.isManager ref3.berth = true
      ∧ (pack [(8, 3), (20, 0), (1, 1), (35, 0), (32, 5)]) = bits (entry3 (pack [(8, 0x22), (120, 0), (8, 3), (20, 0), (1, 1), (35, 0), (32, 5)])).word 383 128
      ∧ bit (pack [(8, 3), (20, 0), (1, 1), (35, 0), (32, 5)]) 28 = true
      ∧ (managed (pack [(8, 0x22), (120, 0), (8, 3), (20, 0), (1, 1), (35, 0), (32, 5)]) id).work.hubBeyond (bits (pack [(8, 3), (20, 0), (1, 1), (35, 0), (32, 5)]) 19 8) = false
      ∧ bits (pack [(8, 3), (20, 0), (1, 1), (35, 0), (32, 5)]) 88 64 ≠ 0
      ∧ bits (pack [(8, 3), (20, 0), (1, 1), (35, 0), (32, 5)]) 88 64 ≤ 2 ^ 24)
    ∧ ((managed (pack [(8, 0x22), (120, 0), (8, 3)]) fun h => { h with chart := { h.chart with windows := [(3, { len := 1 })] } }).Issued ref3 (entry3 (pack [(8, 0x22), (120, 0), (8, 3)])) 0x22
      ∧ (managed (pack [(8, 0x22), (120, 0), (8, 3)]) fun h => { h with chart := { h.chart with windows := [(3, { len := 1 })] } }).work.isManager ref3.berth = true
      ∧ 3 = bits (entry3 (pack [(8, 0x22), (120, 0), (8, 3)])).word 383 128
      ∧ bit 3 28 = false)
    ∧ ((managed (pack [(8, 0x23), (120, 0), (8, 3), (12, 0), (3, 1), (1, 1), (14, 4), (26, 0), (64, 0x10000), (32, 5)]) id).Issued ref3 (entry3 (pack [(8, 0x23), (120, 0), (8, 3), (12, 0), (3, 1), (1, 1), (14, 4), (26, 0), (64, 0x10000), (32, 5)])) 0x23
      ∧ (managed (pack [(8, 0x23), (120, 0), (8, 3), (12, 0), (3, 1), (1, 1), (14, 4), (26, 0), (64, 0x10000), (32, 5)]) id).work.isManager ref3.berth = true
      ∧ (pack [(8, 3), (12, 0), (3, 1), (1, 1), (14, 4), (26, 0), (64, 0x10000), (32, 5)]) = bits (entry3 (pack [(8, 0x23), (120, 0), (8, 3), (12, 0), (3, 1), (1, 1), (14, 4), (26, 0), (64, 0x10000), (32, 5)])).word 383 128
      ∧ bit (pack [(8, 3), (12, 0), (3, 1), (1, 1), (14, 4), (26, 0), (64, 0x10000), (32, 5)]) 23 = true
      ∧ (managed (pack [(8, 0x23), (120, 0), (8, 3), (12, 0), (3, 1), (1, 1), (14, 4), (26, 0), (64, 0x10000), (32, 5)]) id).work.berthInPool ref3 (bits (pack [(8, 3), (12, 0), (3, 1), (1, 1), (14, 4), (26, 0), (64, 0x10000), (32, 5)]) 37 24) = true
      ∧ (bit (pack [(8, 3), (12, 0), (3, 1), (1, 1), (14, 4), (26, 0), (64, 0x10000), (32, 5)]) 20 = false → (managed (pack [(8, 0x23), (120, 0), (8, 3), (12, 0), (3, 1), (1, 1), (14, 4), (26, 0), (64, 0x10000), (32, 5)]) id).work.hubBeyond (bits (pack [(8, 3), (12, 0), (3, 1), (1, 1), (14, 4), (26, 0), (64, 0x10000), (32, 5)]) 19 8) = false)
      ∧ bits (pack [(8, 3), (12, 0), (3, 1), (1, 1), (14, 4), (26, 0), (64, 0x10000), (32, 5)]) 120 64 % 65536 = 0
      ∧ bits (pack [(8, 3), (12, 0), (3, 1), (1, 1), (14, 4), (26, 0), (64, 0x10000), (32, 5)]) 152 128 ≠ 0
      ∧ bits (pack [(8, 3), (12, 0), (3, 1), (1, 1), (14, 4), (26, 0), (64, 0x10000), (32, 5)]) 152 128 ≤ 2 ^ 24)
    ∧ ((managed (pack [(8, 0x23), (120, 0), (8, 3)]) id).Issued ref3 (entry3 (pack [(8, 0x23), (120, 0), (8, 3)])) 0x23
      ∧ (managed (pack [(8, 0x23), (120, 0), (8, 3)]) id).work.isManager ref3.berth = true
      ∧ 3 = bits (entry3 (pack [(8, 0x23), (120, 0), (8, 3)])).word 383 128
      ∧ bit 3 23 = false) := by
  (repeat' apply And.intro) <;> decide +kernel

theorem test_hostPages :
  let copies (s : State) (p j : Nat) (x : RingEntry) (c : CopyJob) : Prop := (s.work.porter p j).queue = [c] ∧ c.px2 = false ∧ s.work.started c.entry = some x
    ∧ (s.work.ring c.entry.berth c.entry.ring).px2 = false ∧ bit x.word 15 = false ∧ bit x.word 13 = false ∧ s.Current
  (((copying (copy3 0 false) { wait := .translation, page := 0x5000 } id).work.porter 0 0).wait = .translation
      ∧ ((copying (copy3 0 false) { wait := .translation, page := 0x5000 } id).work.porter 0 0).queue = (copy3 0 false) :: []
      ∧ (({ port := 0, func := 0 } : FuncRef)) = (copying (copy3 0 false) { wait := .translation, page := 0x5000 } id).work.funcOf (copy3 0 false).entry.berth
      ∧ 12 ≤ 12)
    ∧ (((copying (copy3 0 false) { wait := .translation, page := 0x5000 } fun h => { h with ports := h.ports.map fun (k, x) => (k, { x with funcs := [(0, { bme := true, pri := true })] }) }).work.porter 0 0).wait = .translation
      ∧ ((copying (copy3 0 false) { wait := .translation, page := 0x5000 } fun h => { h with ports := h.ports.map fun (k, x) => (k, { x with funcs := [(0, { bme := true, pri := true })] }) }).work.porter 0 0).queue = (copy3 0 false) :: []
      ∧ ((copying (copy3 0 false) { wait := .translation, page := 0x5000 } fun h => { h with ports := h.ports.map fun (k, x) => (k, { x with funcs := [(0, { bme := true, pri := true })] }) }).work.func ((copying (copy3 0 false) { wait := .translation, page := 0x5000 } fun h => { h with ports := h.ports.map fun (k, x) => (k, { x with funcs := [(0, { bme := true, pri := true })] }) }).work.funcOf (copy3 0 false).entry.berth)).pri = true)
    ∧ (copies (copying (copy3 0 false) { wait := .translation, page := 0x5000 } id) 0 0 (entry3 0x18) (copy3 0 false)
      ∧ ((copying (copy3 0 false) { wait := .translation, page := 0x5000 } id).work.porter 0 0).wait = .translation
      ∧ ((copying (copy3 0 false) { wait := .translation, page := 0x5000 } id).work.func ((copying (copy3 0 false) { wait := .translation, page := 0x5000 } id).work.funcOf (copy3 0 false).entry.berth)).pri = false)
    ∧ (((copying (copy3 0 false) { wait := .prg, page := 0x5000 } id).work.porter 0 0).wait = .prg
      ∧ ((copying (copy3 0 false) { wait := .prg, page := 0x5000 } id).work.porter 0 0).queue = (copy3 0 false) :: [])
    ∧ (copies (copying (copy3 0 false) { wait := .prg, page := 0x5000 } id) 0 0 (entry3 0x18) (copy3 0 false)
      ∧ ((copying (copy3 0 false) { wait := .prg, page := 0x5000 } id).work.porter 0 0).wait = .prg
      ∧ 1 ≠ 0)
    ∧ (copies (copying (copy3 0 false) { wait := .prg, page := 0x5000 } id) 0 0 (entry3 0x18) (copy3 0 false)
      ∧ ((copying (copy3 0 false) { wait := .prg, page := 0x5000 } id).work.porter 0 0).wait = .prg
      ∧ ((copying (copy3 0 false) { wait := .prg, page := 0x5000 } id).work.port 0).state ≠ 4)
    ∧ ((∀ y ∈ ((hubbed fun h => { h with ports := [(0, { port0 with porters := [(0, { atc := [{ addr := 0x5000 }] })] })] }).work.port (({ port := 0, func := 0 } : FuncRef)).port).porters, y.2.queue = []))
    ∧ (((copying { copy3 0 true with pages := [{ addr := 0x5000 }] } {} id).work.port (({ port := 0, func := 0 } : FuncRef)).port).porters = [(0, (({ queue := [{ copy3 0 true with pages := [{ addr := 0x5000 }] }] } : Porter)))]
      ∧ (({ queue := [{ copy3 0 true with pages := [{ addr := 0x5000 }] }] } : Porter)).queue = [({ copy3 0 true with pages := [{ addr := 0x5000 }] })]
      ∧ ({ copy3 0 true with pages := [{ addr := 0x5000 }] }).issued = true
      ∧ ({ copy3 0 true with pages := [{ addr := 0x5000 }] }).pages.any (fun z => z.func = (({ port := 0, func := 0 } : FuncRef)).func && rangesMeet z.addr (2 ^ z.log2) 0x5000 4096) = true) := by
  (repeat' apply And.intro) <;> decide +kernel

theorem test_copies :
  ((issued (pack [(8, 0x18), (120, 0), (64, 0x1000), (64, 0x2000), (32, 256), (2, 0)]) fun h => { h with ports := [(0, { port0 with porters := [(0, { queue := [copy3 0 true] })] })] }).Issued ref3 (entry3 (pack [(8, 0x18), (120, 0), (64, 0x1000), (64, 0x2000), (32, 256), (2, 0)])) 0x18
      ∧ bits (entry3 (pack [(8, 0x18), (120, 0), (64, 0x1000), (64, 0x2000), (32, 256), (2, 0)])).word 289 288 < 3
      ∧ bits (entry3 (pack [(8, 0x18), (120, 0), (64, 0x1000), (64, 0x2000), (32, 256), (2, 0)])).word 287 256 ≠ 0
      ∧ 0 = (issued (pack [(8, 0x18), (120, 0), (64, 0x1000), (64, 0x2000), (32, 256), (2, 0)]) fun h => { h with ports := [(0, { port0 with porters := [(0, { queue := [copy3 0 true] })] })] }).work.portOf ref3.berth
      ∧ (issued (pack [(8, 0x18), (120, 0), (64, 0x1000), (64, 0x2000), (32, 256), (2, 0)]) fun h => { h with ports := [(0, { port0 with porters := [(0, { queue := [copy3 0 true] })] })] }).work.porterFor ref3 (bits (entry3 (pack [(8, 0x18), (120, 0), (64, 0x1000), (64, 0x2000), (32, 256), (2, 0)])).word 289 288) = some 0
      ∧ ((issued (pack [(8, 0x18), (120, 0), (64, 0x1000), (64, 0x2000), (32, 256), (2, 0)]) fun h => { h with ports := [(0, { port0 with porters := [(0, { queue := [copy3 0 true] })] })] }).work.porter 0 0).queue = (copy3 0 true) :: []
      ∧ (copy3 0 true).issued = true)
    ∧ ((issued (pack [(8, 0x18), (120, 0), (64, 0x1000), (64, 0x2000), (32, 256), (2, 1)]) id).Issued ref3 (entry3 (pack [(8, 0x18), (120, 0), (64, 0x1000), (64, 0x2000), (32, 256), (2, 1)])) 0x18
      ∧ bits (entry3 (pack [(8, 0x18), (120, 0), (64, 0x1000), (64, 0x2000), (32, 256), (2, 1)])).word 289 288 < 3
      ∧ bits (entry3 (pack [(8, 0x18), (120, 0), (64, 0x1000), (64, 0x2000), (32, 256), (2, 1)])).word 287 256 ≠ 0
      ∧ 0 = (issued (pack [(8, 0x18), (120, 0), (64, 0x1000), (64, 0x2000), (32, 256), (2, 1)]) id).work.portOf ref3.berth
      ∧ (issued (pack [(8, 0x18), (120, 0), (64, 0x1000), (64, 0x2000), (32, 256), (2, 1)]) id).work.porterFor ref3 (bits (entry3 (pack [(8, 0x18), (120, 0), (64, 0x1000), (64, 0x2000), (32, 256), (2, 1)])).word 289 288) = some 4
      ∧ ((issued (pack [(8, 0x18), (120, 0), (64, 0x1000), (64, 0x2000), (32, 256), (2, 1)]) id).work.porter 0 4).queue = []
      ∧ ((issued (pack [(8, 0x18), (120, 0), (64, 0x1000), (64, 0x2000), (32, 256), (2, 1)]) id).work.porter 0 4).wait = .none
      ∧ ((issued (pack [(8, 0x18), (120, 0), (64, 0x1000), (64, 0x2000), (32, 256), (2, 1)]) id).work.func ((issued (pack [(8, 0x18), (120, 0), (64, 0x1000), (64, 0x2000), (32, 256), (2, 1)]) id).work.funcOf ref3.berth)).ats = false
      ∧ (issued (pack [(8, 0x18), (120, 0), (64, 0x1000), (64, 0x2000), (32, 256), (2, 1)]) id).work.mayIssue ((issued (pack [(8, 0x18), (120, 0), (64, 0x1000), (64, 0x2000), (32, 256), (2, 1)]) id).work.funcOf ref3.berth) = true
      ∧ (issued (pack [(8, 0x18), (120, 0), (64, 0x1000), (64, 0x2000), (32, 256), (2, 1)]) id).work.portUp 0 = true
      ∧ ((issued (pack [(8, 0x18), (120, 0), (64, 0x1000), (64, 0x2000), (32, 256), (2, 1)]) id).work.port 0).state ≠ 4
      ∧ (issued (pack [(8, 0x18), (120, 0), (64, 0x1000), (64, 0x2000), (32, 256), (2, 1)]) id).hub.chart.holds = [])
    ∧ (((hubbed fun h => { h with ports := [(0, { port0 with porters := [(0, { queue := [copy3 0 true] })] })], ten := { h.ten with rings := [(0, { log2 := 4, state := 1, px2 := true, fetched := [{ index := 2, word := 256 * 2 ^ 128 }] })] } }).work.ring 0 0).fetched = (({ index := 2, word := 256 * 2 ^ 128 } : RingEntry)) :: []
      ∧ ((hubbed fun h => { h with ports := [(0, { port0 with porters := [(0, { queue := [copy3 0 true] })] })], ten := { h.ten with rings := [(0, { log2 := 4, state := 1, px2 := true, fetched := [{ index := 2, word := 256 * 2 ^ 128 }] })] } }).work.ring 0 0).px2 = true
      ∧ ((hubbed fun h => { h with ports := [(0, { port0 with porters := [(0, { queue := [copy3 0 true] })] })], ten := { h.ten with rings := [(0, { log2 := 4, state := 1, px2 := true, fetched := [{ index := 2, word := 256 * 2 ^ 128 }] })] } }).work.ring 0 0).state = 1
      ∧ (hubbed fun h => { h with ports := [(0, { port0 with porters := [(0, { queue := [copy3 0 true] })] })], ten := { h.ten with rings := [(0, { log2 := 4, state := 1, px2 := true, fetched := [{ index := 2, word := 256 * 2 ^ 128 }] })] } }).work.mayIssue ((hubbed fun h => { h with ports := [(0, { port0 with porters := [(0, { queue := [copy3 0 true] })] })], ten := { h.ten with rings := [(0, { log2 := 4, state := 1, px2 := true, fetched := [{ index := 2, word := 256 * 2 ^ 128 }] })] } }).work.funcOf 0) = true
      ∧ 0 = (hubbed fun h => { h with ports := [(0, { port0 with porters := [(0, { queue := [copy3 0 true] })] })], ten := { h.ten with rings := [(0, { log2 := 4, state := 1, px2 := true, fetched := [{ index := 2, word := 256 * 2 ^ 128 }] })] } }).work.portOf 0
      ∧ ((hubbed fun h => { h with ports := [(0, { port0 with porters := [(0, { queue := [copy3 0 true] })] })], ten := { h.ten with rings := [(0, { log2 := 4, state := 1, px2 := true, fetched := [{ index := 2, word := 256 * 2 ^ 128 }] })] } }).work.port 0).halted = false
      ∧ bits (({ index := 2, word := 256 * 2 ^ 128 } : RingEntry)).word 159 128 ≠ 0
      ∧ (hubbed fun h => { h with ports := [(0, { port0 with porters := [(0, { queue := [copy3 0 true] })] })], ten := { h.ten with rings := [(0, { log2 := 4, state := 1, px2 := true, fetched := [{ index := 2, word := 256 * 2 ^ 128 }] })] } }).work.porterFor { berth := 0, ring := 0, index := (({ index := 2, word := 256 * 2 ^ 128 } : RingEntry)).index } 0 = some 0
      ∧ ((hubbed fun h => { h with ports := [(0, { port0 with porters := [(0, { queue := [copy3 0 true] })] })], ten := { h.ten with rings := [(0, { log2 := 4, state := 1, px2 := true, fetched := [{ index := 2, word := 256 * 2 ^ 128 }] })] } }).work.porter 0 0).queue = (copy3 0 true) :: []
      ∧ (copy3 0 true).issued = true)
    ∧ ((copying (copy3 1 true) {} id).Current
      ∧ ((copying (copy3 1 true) {} id).work.porter 0 0).queue = [(copy3 1 true)]
      ∧ (copy3 1 true).issued = true
      ∧ (copy3 1 true).px2 = false
      ∧ (copy3 1 true).dir = 1
      ∧ (copying (copy3 1 true) {} id).work.homePending (.porter 0 0) (copy3 1 true).id = false
      ∧ (copying (copy3 1 true) {} id).work.started (copy3 1 true).entry = some (entry3 0x18)
      ∧ ((copying (copy3 1 true) {} id).work.ring (copy3 1 true).entry.berth (copy3 1 true).entry.ring).px2 = false
      ∧ bit (entry3 0x18).word 15 = false
      ∧ bit (entry3 0x18).word 13 = false
      ∧ ((copying (copy3 1 true) {} id).work.copyMove 0 0 (copy3 1 true) (copy3 1 true).len).1 = some (0, (copy3 1 true).len, false))
    ∧ ((copying (copy3 0 true) {} id).Current
      ∧ ((copying (copy3 0 true) {} id).work.porter 0 0).queue = [(copy3 0 true)]
      ∧ (copy3 0 true).issued = true
      ∧ (copy3 0 true).px2 = false
      ∧ (copy3 0 true).dir = 0
      ∧ (copying (copy3 0 true) {} id).work.homePending (.porter 0 0) (copy3 0 true).id = false
      ∧ (copying (copy3 0 true) {} id).work.started (copy3 0 true).entry = some (entry3 0x18)
      ∧ ((copying (copy3 0 true) {} id).work.ring (copy3 0 true).entry.berth (copy3 0 true).entry.ring).px2 = false
      ∧ bit (entry3 0x18).word 15 = false
      ∧ bit (entry3 0x18).word 13 = false
      ∧ ((copying (copy3 0 true) {} id).work.emit (.aer { port := 0, func := 0 })) = (copying (copy3 0 true) {} id).work.emit (.aer ((copying (copy3 0 true) {} id).work.funcOf (copy3 0 true).entry.berth))
      ∧ (((copying (copy3 0 true) {} id).work.emit (.aer { port := 0, func := 0 })).copyMove 0 0 (copy3 0 true) (min 32 (copy3 0 true).len)).1 = some (0, 32, false)) := by
  (repeat' apply And.intro) <;> decide +kernel

theorem test_rings :
  let reaches (s : State) (f : FuncRef) (page b : Nat) : Prop := (s.work.func f).tdi ≠ .error ∧ s.work.streamSecure f = true ∧ s.work.berthAt f page = some b
  (reaches (ringed { log2 := 4, state := 2, enable := true }) (({ port := 0, func := 0 } : FuncRef)) 0 0
      ∧ ((ringed { log2 := 4, state := 2, enable := true }).work.port (({ port := 0, func := 0 } : FuncRef)).port).ready = true
      ∧ ((ringed { log2 := 4, state := 2, enable := true }).work.func (({ port := 0, func := 0 } : FuncRef))).flr = false
      ∧ ((ringed { log2 := 4, state := 2, enable := true }).work.ring 0 1).state = 1 ∨ ((ringed { log2 := 4, state := 2, enable := true }).work.ring 0 1).state = 2)
    ∧ (reaches (hubbed fun h => { h with ports := [(0, port0)], ten := { h.ten with berths := [(0, { state := .open })] } }) (({ port := 0, func := 0 } : FuncRef)) 0 0
      ∧ ((hubbed fun h => { h with ports := [(0, port0)], ten := { h.ten with berths := [(0, { state := .open })] } }).work.ring 0 1).enable = false
      ∧ ((hubbed fun h => { h with ports := [(0, port0)], ten := { h.ten with berths := [(0, { state := .open })] } }).work.ring 0 1).state ≠ 3
      ∧ ((hubbed fun h => { h with ports := [(0, port0)], ten := { h.ten with berths := [(0, { state := .open })] } }).work.berth 0).state = .open
      ∧ 4 ≤ bits 8 5 1
      ∧ bits 8 5 1 ≤ 16
      ∧ (bit 8 6 = true → bits 8 5 1 < 16))
    ∧ (reaches (hubbed fun h => { h with ports := [(0, port0)], ten := { h.ten with berths := [(0, { state := .open })] } }) (({ port := 0, func := 0 } : FuncRef)) 0 0
      ∧ ((hubbed fun h => { h with ports := [(0, port0)], ten := { h.ten with berths := [(0, { state := .open })] } }).work.ring 0 1).enable = false
      ∧ ((hubbed fun h => { h with ports := [(0, port0)], ten := { h.ten with berths := [(0, { state := .open })] } }).work.ring 0 1).state ≠ 3
      ∧ ((hubbed fun h => { h with ports := [(0, port0)], ten := { h.ten with berths := [(0, { state := .open })] } }).work.berth 0).state = .open
      ∧ (bits 6 5 1 < 4 ∨ 16 < bits 6 5 1))
    ∧ (reaches (ringed { log2 := 4, state := 1, enable := true }) (({ port := 0, func := 0 } : FuncRef)) 0 0
      ∧ ((ringed { log2 := 4, state := 1, enable := true }).work.ring 0 1).state = 1
      ∧ ((ringed { log2 := 4, state := 1, enable := true }).work.ring 0 1).fetched = []
      ∧ ((ringed { log2 := 4, state := 1, enable := true }).work.ring 0 1).started = []
      ∧ (ringed { log2 := 4, state := 1, enable := true }).hub.helm.waiters = [] ∧ (ringed { log2 := 4, state := 1, enable := true }).hub.helm.held = [])
    ∧ (((withBytes (ringed { log2 := 4, state := 1, enable := true, inFetch := 1, tail := 1, base := 0x3000 }) (hostKey 0 0x3001) [0x10]).work.ring 0 1).inFetch = 1
      ∧ 0x1000 = (withBytes (ringed { log2 := 4, state := 1, enable := true, inFetch := 1, tail := 1, base := 0x3000 }) (hostKey 0 0x3001) [0x10]).work.entryWord 0 ((withBytes (ringed { log2 := 4, state := 1, enable := true, inFetch := 1, tail := 1, base := 0x3000 }) (hostKey 0 0x3001) [0x10]).work.ring 0 1)
      ∧ entryPhase ((withBytes (ringed { log2 := 4, state := 1, enable := true, inFetch := 1, tail := 1, base := 0x3000 }) (hostKey 0 0x3001) [0x10]).work.ring 0 1) 0x1000 = wantPhase ((withBytes (ringed { log2 := 4, state := 1, enable := true, inFetch := 1, tail := 1, base := 0x3000 }) (hostKey 0 0x3001) [0x10]).work.ring 0 1)
      ∧ (takeEntry 0x1000 ((withBytes (ringed { log2 := 4, state := 1, enable := true, inFetch := 1, tail := 1, base := 0x3000 }) (hostKey 0 0x3001) [0x10]).work.ring 0 1)).fetchIx = ((withBytes (ringed { log2 := 4, state := 1, enable := true, inFetch := 1, tail := 1, base := 0x3000 }) (hostKey 0 0x3001) [0x10]).work.ring 0 1).tail)
    ∧ (((ringed { log2 := 4, state := 1, enable := true, inFetch := 1 }).work.ring 0 1).inFetch ≠ 0)
    ∧ (((ringed { log2 := 4, state := 1, enable := true, rereading := true, rereads := 3 }).work.ring 0 1).state = 1
      ∧ ((ringed { log2 := 4, state := 1, enable := true, rereading := true, rereads := 3 }).work.ring 0 1).rereading = true
      ∧ (ringed { log2 := 4, state := 1, enable := true, rereading := true, rereads := 3 }).work.mayIssue ((ringed { log2 := 4, state := 1, enable := true, rereading := true, rereads := 3 }).work.funcOf 0) = true
      ∧ (ringed { log2 := 4, state := 1, enable := true, rereading := true, rereads := 3 }).work.portUp ((ringed { log2 := 4, state := 1, enable := true, rereading := true, rereads := 3 }).work.portOf 0) = true
      ∧ ((ringed { log2 := 4, state := 1, enable := true, rereading := true, rereads := 3 }).work.port ((ringed { log2 := 4, state := 1, enable := true, rereading := true, rereads := 3 }).work.portOf 0)).halted = false
      ∧ 0 = (ringed { log2 := 4, state := 1, enable := true, rereading := true, rereads := 3 }).work.entryWord 0 ((ringed { log2 := 4, state := 1, enable := true, rereading := true, rereads := 3 }).work.ring 0 1)
      ∧ entryPhase ((ringed { log2 := 4, state := 1, enable := true, rereading := true, rereads := 3 }).work.ring 0 1) 0 ≠ wantPhase ((ringed { log2 := 4, state := 1, enable := true, rereading := true, rereads := 3 }).work.ring 0 1)
      ∧ ((ringed { log2 := 4, state := 1, enable := true, rereading := true, rereads := 3 }).work.ring 0 1).rereads < 15)
    ∧ (((ringed { log2 := 4, state := 1, enable := true, rereading := true, rereads := 15 }).work.ring 0 1).state = 1
      ∧ ((ringed { log2 := 4, state := 1, enable := true, rereading := true, rereads := 15 }).work.ring 0 1).rereading = true
      ∧ (ringed { log2 := 4, state := 1, enable := true, rereading := true, rereads := 15 }).work.mayIssue ((ringed { log2 := 4, state := 1, enable := true, rereading := true, rereads := 15 }).work.funcOf 0) = true
      ∧ (ringed { log2 := 4, state := 1, enable := true, rereading := true, rereads := 15 }).work.portUp ((ringed { log2 := 4, state := 1, enable := true, rereading := true, rereads := 15 }).work.portOf 0) = true
      ∧ ((ringed { log2 := 4, state := 1, enable := true, rereading := true, rereads := 15 }).work.port ((ringed { log2 := 4, state := 1, enable := true, rereading := true, rereads := 15 }).work.portOf 0)).halted = false
      ∧ 0 = (ringed { log2 := 4, state := 1, enable := true, rereading := true, rereads := 15 }).work.entryWord 0 ((ringed { log2 := 4, state := 1, enable := true, rereading := true, rereads := 15 }).work.ring 0 1)
      ∧ entryPhase ((ringed { log2 := 4, state := 1, enable := true, rereading := true, rereads := 15 }).work.ring 0 1) 0 ≠ wantPhase ((ringed { log2 := 4, state := 1, enable := true, rereading := true, rereads := 15 }).work.ring 0 1)
      ∧ ((ringed { log2 := 4, state := 1, enable := true, rereading := true, rereads := 15 }).work.ring 0 1).rereads = 15)
    ∧ (((ringed { log2 := 4, state := 1, enable := true, fetched := [{ index := 2, word := 0x101 }] }).work.ring 0 1).fetched = (({ index := 2, word := 0x101 } : RingEntry)) :: []
      ∧ ((ringed { log2 := 4, state := 1, enable := true, fetched := [{ index := 2, word := 0x101 }] }).work.ring 0 1).px2 = false
      ∧ ((ringed { log2 := 4, state := 1, enable := true, fetched := [{ index := 2, word := 0x101 }] }).work.ring 0 1).state = 1
      ∧ ((ringed { log2 := 4, state := 1, enable := true, fetched := [{ index := 2, word := 0x101 }] }).work.ring 0 1).started = []
      ∧ (({ index := 2, word := 0x101 } : RingEntry)).waiting = false
      ∧ (({ index := 2, word := 0x101 } : RingEntry)).failed = 0
      ∧ bit (({ index := 2, word := 0x101 } : RingEntry)).word 14 = false
      ∧ bits (({ index := 2, word := 0x101 } : RingEntry)).word 11 8 = 1
      ∧ opcodeListed (bits (({ index := 2, word := 0x101 } : RingEntry)).word 7 0) = true
      ∧ bit (({ index := 2, word := 0x101 } : RingEntry)).word 23 = false
      ∧ (ringed { log2 := 4, state := 1, enable := true, fetched := [{ index := 2, word := 0x101 }] }).work.mayIssue ((ringed { log2 := 4, state := 1, enable := true, fetched := [{ index := 2, word := 0x101 }] }).work.funcOf 0) = true
      ∧ ((ringed { log2 := 4, state := 1, enable := true, fetched := [{ index := 2, word := 0x101 }] }).work.port ((ringed { log2 := 4, state := 1, enable := true, fetched := [{ index := 2, word := 0x101 }] }).work.portOf 0)).halted = false)
    ∧ ((issued 1 id).Issued ref3 (entry3 1) 0x01) := by
  (repeat' apply And.intro) <;> decide +kernel

theorem test_portLinks :
  let quiet (s : State) (p : Nat) : Prop := (s.work.port p).state ≠ 0 ∧ (s.work.port p).state ≠ 5 ∧ (s.work.port p).porters = [] ∧ s.hub.wrights = [] ∧ s.hub.helm.waiters = [] ∧ s.hub.helm.held = []
    ∧ s.hub.helm.sems = [] ∧ s.hub.ledger = {} ∧ s.hub.chart.holds = []
  (((hubbed fun h => { h with ports := [(0, port0)], start := { h.start with hubRstN := true } }).work.port 0).perstN = true
      ∧ (hubbed fun h => { h with ports := [(0, port0)], start := { h.start with hubRstN := true } }).hub.start.hubRstN = true)
    ∧ ((hubbed fun h => { h with ports := [(1, { perstN := true })], start := { h.start with hubRstN := true, state := 1 } }).work.mayTrain 1 = true)
    ∧ ((hubbed fun h => { h with ports := [(1, { state := 5, perstN := true })], start := { h.start with hubRstN := true, state := 1 } }).work.mayTrain 1 = true)
    ∧ ((hubbed fun h => { h with ports := [(0, port0)] }).work.linkIdle 0 = true)
    ∧ (((hubbed fun h => { h with ports := [(0, { port0 with state := 4, before := 2 })] }).work.port 0).state = 4
      ∧ ((hubbed fun h => { h with ports := [(0, { port0 with state := 4, before := 2 })] }).work.port 0).porters = []
      ∧ (hubbed fun h => { h with ports := [(0, { port0 with state := 4, before := 2 })] }).hub.ten.rings = []
      ∧ (∀ x ∈ ((hubbed fun h => { h with ports := [(0, { port0 with state := 4, before := 2 })] }).work.port 0).funcs, x.2.owedWrites = [] ∧ x.2.owedVecs = []))
    ∧ ((Instr.linkDown 0) ∈ [Instr.linkDown 0, .hotReset 0]
      ∧ quiet (ringed { log2 := 4, state := 1, enable := true, doneIx := 2, tail := 5, fetchIx := 3 }) 0)
    ∧ ((Instr.hotReset 0) ∈ [Instr.linkDown 0, .hotReset 0]
      ∧ quiet (ringed { log2 := 4, state := 1, enable := true }) 0)
    ∧ (quiet (hubbed fun h => { h with ports := [(0, { port0 with state := 4, before := 2 })] }) 0
      ∧ ((hubbed fun h => { h with ports := [(0, { port0 with state := 4, before := 2 })] }).work.port 0).state = 4)
    ∧ (quiet (ringed { log2 := 4, state := 1, enable := true }) 0
      ∧ (ringed { log2 := 4, state := 1, enable := true }).work.resetHeldOff = false)
    ∧ ((hubbed fun h => { h with ports := [(0, port0)], purser := { h.purser with intent := some { burning := true } } }).work.resetHeldOff = true)
    ∧ ((hubbed fun h => { h with ports := [(0, port0)] }).work.linkIdle 0 = true
      ∧ ((hubbed fun h => { h with ports := [(0, port0)] }).work.port 0).flit = false
      ∧ 1 < 2
      ∧ 1 ∉ ((hubbed fun h => { h with ports := [(0, port0)] }).work.port 0).l0s)
    ∧ ((hubbed fun h => { h with ports := [(0, { port0 with flit := true })] }).work.linkIdle 0 = true
      ∧ ((hubbed fun h => { h with ports := [(0, { port0 with flit := true })] }).work.port 0).flit = true
      ∧ 8 < ((hubbed fun h => { h with ports := [(0, { port0 with flit := true })] }).work.port 0).width
      ∧ (hubbed fun h => { h with ports := [(0, { port0 with flit := true })] }).work.guarSum (2 + 0) = 0
      ∧ (hubbed fun h => { h with ports := [(0, { port0 with flit := true })] }).work.guarSum (6 + 0) = 0)
    ∧ ((hubbed fun h => { h with ports := [(0, port0)] }).work.linkIdle 0 = true
      ∧ (hubbed fun h => { h with ports := [(0, port0)] }).work.portQuiet 0 = true) := by
  (repeat' apply And.intro) <;> decide +kernel

theorem test_portFunctions :
  let still (s : State) (p : Nat) : Prop := (s.work.port p).porters = [] ∧ s.hub.wrights = [] ∧ s.hub.helm.waiters = [] ∧ s.hub.helm.held = [] ∧ s.hub.helm.sems = []
  (0 = (hubbed fun h => { h with ports := [(0, { port0 with places := [(3, { rid := 7, berth := 4, base := 0x10000, len := 1 })] })], memory := { h.memory with owner := [(1, 0x4004)] } }).work.currentGen (({ rid := 7, berth := 4, base := 0x10000, len := 1 } : Place)).berth
      ∧ ([1, 2, 3]) ≠ []
      ∧ (hubbed fun h => { h with ports := [(0, { port0 with places := [(3, { rid := 7, berth := 4, base := 0x10000, len := 1 })] })], memory := { h.memory with owner := [(1, 0x4004)] } }).work.portUp 0 = true
      ∧ (hubbed fun h => { h with ports := [(0, { port0 with places := [(3, { rid := 7, berth := 4, base := 0x10000, len := 1 })] })], memory := { h.memory with owner := [(1, 0x4004)] } }).work.streamSecure { port := 0, func := 0 } = true
      ∧ tfind ((hubbed fun h => { h with ports := [(0, { port0 with places := [(3, { rid := 7, berth := 4, base := 0x10000, len := 1 })] })], memory := { h.memory with owner := [(1, 0x4004)] } }).work.port 0).places (bits (3 * 2 ^ 28 + 0x20) 39 28) = some (({ rid := 7, berth := 4, base := 0x10000, len := 1 } : Place))
      ∧ (hubbed fun h => { h with ports := [(0, { port0 with places := [(3, { rid := 7, berth := 4, base := 0x10000, len := 1 })] })], memory := { h.memory with owner := [(1, 0x4004)] } }).work.placeRow (some (({ rid := 7, berth := 4, base := 0x10000, len := 1 } : Place))) 7 (bits (3 * 2 ^ 28 + 0x20) 27 0) ([1, 2, 3]).length = none
      ∧ ((hubbed fun h => { h with ports := [(0, { port0 with places := [(3, { rid := 7, berth := 4, base := 0x10000, len := 1 })] })], memory := { h.memory with owner := [(1, 0x4004)] } }).work.port 0).placing = []
      ∧ ([1, 2, 3]).length ≤ 64
      ∧ ((({ rid := 7, berth := 4, base := 0x10000, len := 1 } : Place)).base + bits (3 * 2 ^ 28 + 0x20) 27 0) % 256 + ([1, 2, 3]).length ≤ 256)
    ∧ (([1, 2, 3]) ≠ []
      ∧ (hubbed fun h => { h with ports := [(0, port0)] }).work.portUp 0 = true
      ∧ (hubbed fun h => { h with ports := [(0, port0)] }).work.placeRow (tfind ((hubbed fun h => { h with ports := [(0, port0)] }).work.port 0).places (bits (3 * 2 ^ 28 + 0x20) 39 28)) 7 (bits (3 * 2 ^ 28 + 0x20) 27 0) ([1, 2, 3]).length = some 1)
    ∧ ((Instr.bmeSet { port := 0, func := 0 }) = Instr.bmeSet (({ port := 0, func := 0 } : FuncRef)) ∧ ((({ port := 0, func := 0 } : FuncRef)).func = 0 ∨ (hubbed fun h => { h with ports := [(0, { port0 with funcs := [(0, { owedWrites := [(0x1000, [1])] })] })] }).work.vfLive (({ port := 0, func := 0 } : FuncRef)).port = true) ∧ ((hubbed fun h => { h with ports := [(0, { port0 with funcs := [(0, { owedWrites := [(0x1000, [1])] })] })] }).work.func (({ port := 0, func := 0 } : FuncRef))).d3hot = false ∨ (Instr.bmeSet { port := 0, func := 0 }) = .d0Return (({ port := 0, func := 0 } : FuncRef)) ∧ ((hubbed fun h => { h with ports := [(0, { port0 with funcs := [(0, { owedWrites := [(0x1000, [1])] })] })] }).work.func (({ port := 0, func := 0 } : FuncRef))).bme = true
      ∧ (hubbed fun h => { h with ports := [(0, { port0 with funcs := [(0, { owedWrites := [(0x1000, [1])] })] })] }).work.portUp (({ port := 0, func := 0 } : FuncRef)).port = true
      ∧ ((hubbed fun h => { h with ports := [(0, { port0 with funcs := [(0, { owedWrites := [(0x1000, [1])] })] })] }).work.func (({ port := 0, func := 0 } : FuncRef))).flr = false
      ∧ ((hubbed fun h => { h with ports := [(0, { port0 with funcs := [(0, { owedWrites := [(0x1000, [1])] })] })] }).work.func (({ port := 0, func := 0 } : FuncRef))).tdi ≠ .error
      ∧ ((hubbed fun h => { h with ports := [(0, { port0 with funcs := [(0, { owedWrites := [(0x1000, [1])] })] })] }).work.port (({ port := 0, func := 0 } : FuncRef)).port).porters = []
      ∧ (hubbed fun h => { h with ports := [(0, { port0 with funcs := [(0, { owedWrites := [(0x1000, [1])] })] })] }).hub.ten.rings = [])
    ∧ ((Instr.d0Return { port := 0, func := 0 }) = Instr.bmeSet (({ port := 0, func := 0 } : FuncRef)) ∧ ((({ port := 0, func := 0 } : FuncRef)).func = 0 ∨ (hubbed fun h => { h with ports := [(0, { port0 with funcs := [(0, { bme := true, d3hot := true, owedWrites := [(0x1000, [1]), (0x2000, [2])] })] })] }).work.vfLive (({ port := 0, func := 0 } : FuncRef)).port = true) ∧ ((hubbed fun h => { h with ports := [(0, { port0 with funcs := [(0, { bme := true, d3hot := true, owedWrites := [(0x1000, [1]), (0x2000, [2])] })] })] }).work.func (({ port := 0, func := 0 } : FuncRef))).d3hot = false ∨ (Instr.d0Return { port := 0, func := 0 }) = .d0Return (({ port := 0, func := 0 } : FuncRef)) ∧ ((hubbed fun h => { h with ports := [(0, { port0 with funcs := [(0, { bme := true, d3hot := true, owedWrites := [(0x1000, [1]), (0x2000, [2])] })] })] }).work.func (({ port := 0, func := 0 } : FuncRef))).bme = true
      ∧ (hubbed fun h => { h with ports := [(0, { port0 with funcs := [(0, { bme := true, d3hot := true, owedWrites := [(0x1000, [1]), (0x2000, [2])] })] })] }).work.portUp (({ port := 0, func := 0 } : FuncRef)).port = true
      ∧ ((hubbed fun h => { h with ports := [(0, { port0 with funcs := [(0, { bme := true, d3hot := true, owedWrites := [(0x1000, [1]), (0x2000, [2])] })] })] }).work.func (({ port := 0, func := 0 } : FuncRef))).flr = false
      ∧ ((hubbed fun h => { h with ports := [(0, { port0 with funcs := [(0, { bme := true, d3hot := true, owedWrites := [(0x1000, [1]), (0x2000, [2])] })] })] }).work.func (({ port := 0, func := 0 } : FuncRef))).tdi ≠ .error
      ∧ ((hubbed fun h => { h with ports := [(0, { port0 with funcs := [(0, { bme := true, d3hot := true, owedWrites := [(0x1000, [1]), (0x2000, [2])] })] })] }).work.port (({ port := 0, func := 0 } : FuncRef)).port).porters = []
      ∧ (hubbed fun h => { h with ports := [(0, { port0 with funcs := [(0, { bme := true, d3hot := true, owedWrites := [(0x1000, [1]), (0x2000, [2])] })] })] }).hub.ten.rings = [])
    ∧ ((({ port := 0, func := 2 } : FuncRef)).func ≠ 0
      ∧ (hubbed fun h => { h with ports := [(0, { port0 with vfEnable := true, ready := true, funcs := [(2, { bme := true })] })], ten := { h.ten with berths := [(5, { state := .open, bind := some { port := 0, func := 2 } })], rings := [(21, { state := 1, enable := true, tail := 4 })] } }).work.vfLive (({ port := 0, func := 2 } : FuncRef)).port = true
      ∧ ((hubbed fun h => { h with ports := [(0, { port0 with vfEnable := true, ready := true, funcs := [(2, { bme := true })] })], ten := { h.ten with berths := [(5, { state := .open, bind := some { port := 0, func := 2 } })], rings := [(21, { state := 1, enable := true, tail := 4 })] } }).work.func (({ port := 0, func := 2 } : FuncRef))).flr = false
      ∧ still (hubbed fun h => { h with ports := [(0, { port0 with vfEnable := true, ready := true, funcs := [(2, { bme := true })] })], ten := { h.ten with berths := [(5, { state := .open, bind := some { port := 0, func := 2 } })], rings := [(21, { state := 1, enable := true, tail := 4 })] } }) (({ port := 0, func := 2 } : FuncRef)).port)
    ∧ (0 < 4
      ∧ (ringed { state := 1, enable := true, tail := 4 }).work.portUp 0 = true
      ∧ (∀ y ∈ ((ringed { state := 1, enable := true, tail := 4 }).work.port 0).funcs, y.2.flr = false)
      ∧ still (ringed { state := 1, enable := true, tail := 4 }) 0
      ∧ (({ port := 0, func := 0 } : FuncRef)) = { port := 0, func := 0 })
    ∧ (0 < 4
      ∧ (ringed { state := 1, enable := true, tail := 4 }).work.portUp 0 = true
      ∧ (∀ y ∈ ((ringed { state := 1, enable := true, tail := 4 }).work.port 0).funcs, y.2.flr = false)
      ∧ still (ringed { state := 1, enable := true, tail := 4 }) 0
      ∧ (ringed { state := 1, enable := true, tail := 4 }).hub.ledger.entries = []
      ∧ (({ port := 0, func := 0 } : FuncRef)) = { port := 0, func := 0 })
    ∧ ((({ port := 0, func := 2 } : FuncRef)).func ≠ 0
      ∧ ((hubbed fun h => { h with ports := [(0, { port0 with vfEnable := true, funcs := [(2, { flr := true })] })], ten := { h.ten with berths := [(5, { state := .open, bind := some { port := 0, func := 2 } })], rings := [(21, { doneIx := 4 })] } }).work.port (({ port := 0, func := 2 } : FuncRef)).port).vfEnable = true
      ∧ ((hubbed fun h => { h with ports := [(0, { port0 with vfEnable := true, funcs := [(2, { flr := true })] })], ten := { h.ten with berths := [(5, { state := .open, bind := some { port := 0, func := 2 } })], rings := [(21, { doneIx := 4 })] } }).work.func (({ port := 0, func := 2 } : FuncRef))).flr = true)
    ∧ ((({ port := 0, func := 0 } : FuncRef)).func = 0
      ∧ ((hubbed fun h => { h with ports := [(0, { port0 with hostTimeout := 3, funcs := [(0, { bme := true, flr := true })] })], ten := { h.ten with rings := [(1, { doneIx := 4 })] } }).work.func (({ port := 0, func := 0 } : FuncRef))).flr = true
      ∧ ((hubbed fun h => { h with ports := [(0, { port0 with hostTimeout := 3, funcs := [(0, { bme := true, flr := true })] })], ten := { h.ten with rings := [(1, { doneIx := 4 })] } }).work.port (({ port := 0, func := 0 } : FuncRef)).port).cxlReset = false)
    ∧ (((hubbed fun h => { h with ports := [(0, { port0 with funcs := [(0, { bme := true, msixEn := true, masked := [3], pendingVec := [3] })] })] }).work.func (({ port := 0, func := 0 } : FuncRef))).msixEn = true
      ∧ ((hubbed fun h => { h with ports := [(0, { port0 with funcs := [(0, { bme := true, msixEn := true, masked := [3], pendingVec := [3] })] })] }).work.func (({ port := 0, func := 0 } : FuncRef))).fmask = false
      ∧ ((hubbed fun h => { h with ports := [(0, { port0 with funcs := [(0, { bme := true, msixEn := true, masked := [3], pendingVec := [3] })] })] }).work.func (({ port := 0, func := 0 } : FuncRef))).pendingVec = [3]
      ∧ 3 ∉ rmv ((hubbed fun h => { h with ports := [(0, { port0 with funcs := [(0, { bme := true, msixEn := true, masked := [3], pendingVec := [3] })] })] }).work.func (({ port := 0, func := 0 } : FuncRef))).masked 3
      ∧ (hubbed fun h => { h with ports := [(0, { port0 with funcs := [(0, { bme := true, msixEn := true, masked := [3], pendingVec := [3] })] })] }).work.mayIssue (({ port := 0, func := 0 } : FuncRef)) = true)
    ∧ (((hubbed fun h => { h with ports := [(0, { port0 with funcs := [(0, { fmask := true })] })] }).work.func (({ port := 0, func := 0 } : FuncRef))).pendingVec = [])
    ∧ (2 < 9
      ∧ (hubbed fun h => { h with ports := [(0, port0)], purser := { h.purser with doe := [(0, { sessions := [(1, true, 0)] })] } }).work.portUp 0 = true
      ∧ sessionOpen (tget {} (hubbed fun h => { h with ports := [(0, port0)], purser := { h.purser with doe := [(0, { sessions := [(1, true, 0)] })] } }).hub.purser.doe 0) 1 = true)
    ∧ (tget 0 ((hubbed fun h => { h with ports := [(0, { port0 with ide := [(2, 1)], funcs := [(3, { tdi := .run, stream := 2 })] })] }).work.port 0).ide 2 = 1)
    ∧ ((({ port := 0, func := 1 } : FuncRef)).func ≠ 0
      ∧ (hubbed fun h => { h with ports := [(0, { port0 with vfEnable := true, ready := true })], purser := { h.purser with doe := [(0, { sessions := [(1, true, 0)] })] } }).work.tdispUp (({ port := 0, func := 1 } : FuncRef)).port = true
      ∧ (hubbed fun h => { h with ports := [(0, { port0 with vfEnable := true, ready := true })], purser := { h.purser with doe := [(0, { sessions := [(1, true, 0)] })] } }).work.vfLive (({ port := 0, func := 1 } : FuncRef)).port = true
      ∧ ((hubbed fun h => { h with ports := [(0, { port0 with vfEnable := true, ready := true })], purser := { h.purser with doe := [(0, { sessions := [(1, true, 0)] })] } }).work.func (({ port := 0, func := 1 } : FuncRef))).tdi = .unlocked
      ∧ 1 ≤ 2
      ∧ 2 < 9)
    ∧ ((({ port := 0, func := 1 } : FuncRef)).func ≠ 0
      ∧ (hubbed fun h => { h with ports := [(0, { port0 with vfEnable := true, ready := true, funcs := [(1, { tdi := .locked, stream := 2 })] })], purser := { h.purser with doe := [(0, { sessions := [(1, true, 0)] })] } }).work.tdispUp (({ port := 0, func := 1 } : FuncRef)).port = true
      ∧ ((hubbed fun h => { h with ports := [(0, { port0 with vfEnable := true, ready := true, funcs := [(1, { tdi := .locked, stream := 2 })] })], purser := { h.purser with doe := [(0, { sessions := [(1, true, 0)] })] } }).work.func (({ port := 0, func := 1 } : FuncRef))).tdi = .locked)
    ∧ ((({ port := 0, func := 1 } : FuncRef)).func ≠ 0
      ∧ (hubbed fun h => { h with ports := [(0, { port0 with vfEnable := true, ready := true, funcs := [(1, { tdi := .run, stream := 2 })] })], purser := { h.purser with doe := [(0, { sessions := [(1, true, 0)] })] } }).work.tdispUp (({ port := 0, func := 1 } : FuncRef)).port = true
      ∧ ((hubbed fun h => { h with ports := [(0, { port0 with vfEnable := true, ready := true, funcs := [(1, { tdi := .run, stream := 2 })] })], purser := { h.purser with doe := [(0, { sessions := [(1, true, 0)] })] } }).work.func (({ port := 0, func := 1 } : FuncRef))).tdi ≠ .unlocked
      ∧ ((hubbed fun h => { h with ports := [(0, { port0 with vfEnable := true, ready := true, funcs := [(1, { tdi := .run, stream := 2 })] })], purser := { h.purser with doe := [(0, { sessions := [(1, true, 0)] })] } }).work.func (({ port := 0, func := 1 } : FuncRef))).bme = false) := by
  (repeat' apply And.intro) <;> decide +kernel

theorem test_tenants :
  let by_ (s : State) (e : EntryRef) (x : RingEntry) (op : Nat) : Prop := s.Issued e x op ∧ s.work.isManager e.berth = true ∧ s.Calm
  let opened (s : State) (e : EntryRef) (b : Nat) : Prop := s.work.berthInPool e b = true ∧ (s.work.berth b).state = .open
  let serves (s : State) : Prop := ∃ c < 128, channelServes (s.work.channel c) = true
  let ten (s t : State) : Prop := Within s t (fun h => { h with ten := t.hub.ten })
  (by_ (managed (pack [(8, 0x30), (120, 0), (14, 5)]) id) ref3 (entry3 (pack [(8, 0x30), (120, 0), (14, 5)])) 0x30
      ∧ 5 = bits (entry3 (pack [(8, 0x30), (120, 0), (14, 5)])).word 141 128
      ∧ (managed (pack [(8, 0x30), (120, 0), (14, 5)]) id).work.berthInPool ref3 5 = true
      ∧ ((managed (pack [(8, 0x30), (120, 0), (14, 5)]) id).work.berth 5).state = .free
      ∧ (managed (pack [(8, 0x30), (120, 0), (14, 5)]) id).hub.purser.lcCode ≠ 0x0FFF
      ∧ (managed (pack [(8, 0x30), (120, 0), (14, 5)]) id).hub.purser.debugOpen = false
      ∧ tfind (managed (pack [(8, 0x30), (120, 0), (14, 5)]) id).hub.chart.roots 5 = none)
    ∧ (by_ (managed (pack [(8, 0x31), (120, 0), (14, 5)]) fun h => { h with ten := { h.ten with berths := (5, { state := .open }) :: h.ten.berths } }) ref3 (entry3 (pack [(8, 0x31), (120, 0), (14, 5)])) 0x31
      ∧ 5 = bits (entry3 (pack [(8, 0x31), (120, 0), (14, 5)])).word 141 128
      ∧ opened (managed (pack [(8, 0x31), (120, 0), (14, 5)]) fun h => { h with ten := { h.ten with berths := (5, { state := .open }) :: h.ten.berths } }) ref3 5
      ∧ (managed (pack [(8, 0x31), (120, 0), (14, 5)]) fun h => { h with ten := { h.ten with berths := (5, { state := .open }) :: h.ten.berths } }).work.isManager 5 = false
      ∧ (∀ k < 8, (managed (pack [(8, 0x31), (120, 0), (14, 5)]) fun h => { h with ten := { h.ten with berths := (5, { state := .open }) :: h.ten.berths } }).work.itemsOf 5 k = [])
      ∧ (managed (pack [(8, 0x31), (120, 0), (14, 5)]) fun h => { h with ten := { h.ten with berths := (5, { state := .open }) :: h.ten.berths } }).work.tablesOf 5 = []
      ∧ (∀ r < 4, ((managed (pack [(8, 0x31), (120, 0), (14, 5)]) fun h => { h with ten := { h.ten with berths := (5, { state := .open }) :: h.ten.berths } }).work.ring 5 r).state = 0))
    ∧ (by_ (managed (pack [(8, 0x32), (120, 0), (14, 5), (2, 0), (8, 3), (4, 2), (1, 0), (1, 1), (2, 0), (20, 0x77)]) fun h => { h with ten := { h.ten with berths := (5, { state := .open }) :: h.ten.berths } }) ref3 (entry3 (pack [(8, 0x32), (120, 0), (14, 5), (2, 0), (8, 3), (4, 2), (1, 0), (1, 1), (2, 0), (20, 0x77)])) 0x32
      ∧ 5 = bits (entry3 (pack [(8, 0x32), (120, 0), (14, 5), (2, 0), (8, 3), (4, 2), (1, 0), (1, 1), (2, 0), (20, 0x77)])).word 141 128
      ∧ (({ port := 0, func := 3 } : FuncRef)) = { port := (managed (pack [(8, 0x32), (120, 0), (14, 5), (2, 0), (8, 3), (4, 2), (1, 0), (1, 1), (2, 0), (20, 0x77)]) fun h => { h with ten := { h.ten with berths := (5, { state := .open }) :: h.ten.berths } }).work.portOf ref3.berth, func := bits (entry3 (pack [(8, 0x32), (120, 0), (14, 5), (2, 0), (8, 3), (4, 2), (1, 0), (1, 1), (2, 0), (20, 0x77)])).word 151 144 }
      ∧ opened (managed (pack [(8, 0x32), (120, 0), (14, 5), (2, 0), (8, 3), (4, 2), (1, 0), (1, 1), (2, 0), (20, 0x77)]) fun h => { h with ten := { h.ten with berths := (5, { state := .open }) :: h.ten.berths } }) ref3 5
      ∧ bit (entry3 (pack [(8, 0x32), (120, 0), (14, 5), (2, 0), (8, 3), (4, 2), (1, 0), (1, 1), (2, 0), (20, 0x77)])).word 156 = false
      ∧ (managed (pack [(8, 0x32), (120, 0), (14, 5), (2, 0), (8, 3), (4, 2), (1, 0), (1, 1), (2, 0), (20, 0x77)]) fun h => { h with ten := { h.ten with berths := (5, { state := .open }) :: h.ten.berths } }).work.bindOf 5 = none
      ∧ ((({ port := 0, func := 3 } : FuncRef)).func = 0 ∧ bits (entry3 (pack [(8, 0x32), (120, 0), (14, 5), (2, 0), (8, 3), (4, 2), (1, 0), (1, 1), (2, 0), (20, 0x77)])).word 155 152 = 0 ∨ (({ port := 0, func := 3 } : FuncRef)).func ≠ 0 ∧ (managed (pack [(8, 0x32), (120, 0), (14, 5), (2, 0), (8, 3), (4, 2), (1, 0), (1, 1), (2, 0), (20, 0x77)]) fun h => { h with ten := { h.ten with berths := (5, { state := .open }) :: h.ten.berths } }).work.berthAt (({ port := 0, func := 3 } : FuncRef)) (bits (entry3 (pack [(8, 0x32), (120, 0), (14, 5), (2, 0), (8, 3), (4, 2), (1, 0), (1, 1), (2, 0), (20, 0x77)])).word 155 152) = none))
    ∧ (by_ (managed (pack [(8, 0x32), (120, 0), (14, 5)]) fun h => { h with ten := { h.ten with berths := (5, { state := .open }) :: h.ten.berths } }) ref3 (entry3 (pack [(8, 0x32), (120, 0), (14, 5)])) 0x32
      ∧ 5 = bits (entry3 (pack [(8, 0x32), (120, 0), (14, 5)])).word 141 128
      ∧ (({ port := 0, func := 0 } : FuncRef)) = { port := (managed (pack [(8, 0x32), (120, 0), (14, 5)]) fun h => { h with ten := { h.ten with berths := (5, { state := .open }) :: h.ten.berths } }).work.portOf ref3.berth, func := bits (entry3 (pack [(8, 0x32), (120, 0), (14, 5)])).word 151 144 }
      ∧ opened (managed (pack [(8, 0x32), (120, 0), (14, 5)]) fun h => { h with ten := { h.ten with berths := (5, { state := .open }) :: h.ten.berths } }) ref3 5
      ∧ bit (entry3 (pack [(8, 0x32), (120, 0), (14, 5)])).word 156 = false
      ∧ (managed (pack [(8, 0x32), (120, 0), (14, 5)]) fun h => { h with ten := { h.ten with berths := (5, { state := .open }) :: h.ten.berths } }).work.bindOf 5 = none
      ∧ ((({ port := 0, func := 0 } : FuncRef)).func = 0 ∧ bits (entry3 (pack [(8, 0x32), (120, 0), (14, 5)])).word 155 152 = 0 ∨ (({ port := 0, func := 0 } : FuncRef)).func ≠ 0 ∧ (managed (pack [(8, 0x32), (120, 0), (14, 5)]) fun h => { h with ten := { h.ten with berths := (5, { state := .open }) :: h.ten.berths } }).work.berthAt (({ port := 0, func := 0 } : FuncRef)) (bits (entry3 (pack [(8, 0x32), (120, 0), (14, 5)])).word 155 152) = none))
    ∧ (by_ (managed (pack [(8, 0x32), (120, 0), (14, 5), (14, 0), (1, 1)]) fun h => { h with ten := { h.ten with berths := (5, { state := .open, bind := some { func := 3 } }) :: h.ten.berths } }) ref3 (entry3 (pack [(8, 0x32), (120, 0), (14, 5), (14, 0), (1, 1)])) 0x32
      ∧ 5 = bits (entry3 (pack [(8, 0x32), (120, 0), (14, 5), (14, 0), (1, 1)])).word 141 128
      ∧ opened (managed (pack [(8, 0x32), (120, 0), (14, 5), (14, 0), (1, 1)]) fun h => { h with ten := { h.ten with berths := (5, { state := .open, bind := some { func := 3 } }) :: h.ten.berths } }) ref3 5
      ∧ bit (entry3 (pack [(8, 0x32), (120, 0), (14, 5), (14, 0), (1, 1)])).word 156 = true
      ∧ (bits (entry3 (pack [(8, 0x32), (120, 0), (14, 5), (14, 0), (1, 1)])).word 151 144 ≠ 0 ∨ bits (entry3 (pack [(8, 0x32), (120, 0), (14, 5), (14, 0), (1, 1)])).word 155 152 = 0)
      ∧ (managed (pack [(8, 0x32), (120, 0), (14, 5), (14, 0), (1, 1)]) fun h => { h with ten := { h.ten with berths := (5, { state := .open, bind := some { func := 3 } }) :: h.ten.berths } }).work.isManager 5 = false
      ∧ ((managed (pack [(8, 0x32), (120, 0), (14, 5), (14, 0), (1, 1)]) fun h => { h with ten := { h.ten with berths := (5, { state := .open, bind := some { func := 3 } }) :: h.ten.berths } }).work.berth 5).bind ≠ none
      ∧ (∀ r < 4, ((managed (pack [(8, 0x32), (120, 0), (14, 5), (14, 0), (1, 1)]) fun h => { h with ten := { h.ten with berths := (5, { state := .open, bind := some { func := 3 } }) :: h.ten.berths } }).work.ring 5 r).state = 0 ∧ ((managed (pack [(8, 0x32), (120, 0), (14, 5), (14, 0), (1, 1)]) fun h => { h with ten := { h.ten with berths := (5, { state := .open, bind := some { func := 3 } }) :: h.ten.berths } }).work.ring 5 r).started = []))
    ∧ (by_ (managed (pack [(8, 0x33), (120, 0), (14, 5), (2, 0), (4, 2), (4, 0), (16, 3), (16, 4)]) fun h => { h with ten := { h.ten with berths := (5, { state := .open }) :: h.ten.berths } }) ref3 (entry3 (pack [(8, 0x33), (120, 0), (14, 5), (2, 0), (4, 2), (4, 0), (16, 3), (16, 4)])) 0x33
      ∧ 5 = bits (entry3 (pack [(8, 0x33), (120, 0), (14, 5), (2, 0), (4, 2), (4, 0), (16, 3), (16, 4)])).word 141 128
      ∧ 2 = bits (entry3 (pack [(8, 0x33), (120, 0), (14, 5), (2, 0), (4, 2), (4, 0), (16, 3), (16, 4)])).word 147 144
      ∧ ([3, 4, 5, 6]) = (List.range (bits (entry3 (pack [(8, 0x33), (120, 0), (14, 5), (2, 0), (4, 2), (4, 0), (16, 3), (16, 4)])).word 183 168)).map (· + bits (entry3 (pack [(8, 0x33), (120, 0), (14, 5), (2, 0), (4, 2), (4, 0), (16, 3), (16, 4)])).word 167 152)
      ∧ opened (managed (pack [(8, 0x33), (120, 0), (14, 5), (2, 0), (4, 2), (4, 0), (16, 3), (16, 4)]) fun h => { h with ten := { h.ten with berths := (5, { state := .open }) :: h.ten.berths } }) ref3 5
      ∧ 2 < 8
      ∧ 0 < bits (entry3 (pack [(8, 0x33), (120, 0), (14, 5), (2, 0), (4, 2), (4, 0), (16, 3), (16, 4)])).word 183 168
      ∧ bits (entry3 (pack [(8, 0x33), (120, 0), (14, 5), (2, 0), (4, 2), (4, 0), (16, 3), (16, 4)])).word 183 168 ≤ 4096
      ∧ ([3, 4, 5, 6]).all ((managed (pack [(8, 0x33), (120, 0), (14, 5), (2, 0), (4, 2), (4, 0), (16, 3), (16, 4)]) fun h => { h with ten := { h.ten with berths := (5, { state := .open }) :: h.ten.berths } }).work.itemInPool ref3 2) = true
      ∧ ([3, 4, 5, 6]).all ((managed (pack [(8, 0x33), (120, 0), (14, 5), (2, 0), (4, 2), (4, 0), (16, 3), (16, 4)]) fun h => { h with ten := { h.ten with berths := (5, { state := .open }) :: h.ten.berths } }).work.grantable 5 2) = true
      ∧ bit (entry3 (pack [(8, 0x33), (120, 0), (14, 5), (2, 0), (4, 2), (4, 0), (16, 3), (16, 4)])).word 148 = false)
    ∧ (by_ (managed (pack [(8, 0x33), (120, 0), (14, 5), (2, 0), (4, 0), (4, 0), (16, 0), (16, 1)]) fun h => { h with board := { h.board with sites := 1 }, ten := { h.ten with berths := (5, { state := .open }) :: h.ten.berths } }) ref3 (entry3 (pack [(8, 0x33), (120, 0), (14, 5), (2, 0), (4, 0), (4, 0), (16, 0), (16, 1)])) 0x33
      ∧ 5 = bits (entry3 (pack [(8, 0x33), (120, 0), (14, 5), (2, 0), (4, 0), (4, 0), (16, 0), (16, 1)])).word 141 128
      ∧ 0 = bits (entry3 (pack [(8, 0x33), (120, 0), (14, 5), (2, 0), (4, 0), (4, 0), (16, 0), (16, 1)])).word 147 144
      ∧ ([0]) = (List.range (bits (entry3 (pack [(8, 0x33), (120, 0), (14, 5), (2, 0), (4, 0), (4, 0), (16, 0), (16, 1)])).word 183 168)).map (· + bits (entry3 (pack [(8, 0x33), (120, 0), (14, 5), (2, 0), (4, 0), (4, 0), (16, 0), (16, 1)])).word 167 152)
      ∧ opened (managed (pack [(8, 0x33), (120, 0), (14, 5), (2, 0), (4, 0), (4, 0), (16, 0), (16, 1)]) fun h => { h with board := { h.board with sites := 1 }, ten := { h.ten with berths := (5, { state := .open }) :: h.ten.berths } }) ref3 5
      ∧ 0 < 8
      ∧ 0 < bits (entry3 (pack [(8, 0x33), (120, 0), (14, 5), (2, 0), (4, 0), (4, 0), (16, 0), (16, 1)])).word 183 168
      ∧ bits (entry3 (pack [(8, 0x33), (120, 0), (14, 5), (2, 0), (4, 0), (4, 0), (16, 0), (16, 1)])).word 183 168 ≤ 4096
      ∧ ([0]).all ((managed (pack [(8, 0x33), (120, 0), (14, 5), (2, 0), (4, 0), (4, 0), (16, 0), (16, 1)]) fun h => { h with board := { h.board with sites := 1 }, ten := { h.ten with berths := (5, { state := .open }) :: h.ten.berths } }).work.itemInPool ref3 0) = true
      ∧ ([0]).all ((managed (pack [(8, 0x33), (120, 0), (14, 5), (2, 0), (4, 0), (4, 0), (16, 0), (16, 1)]) fun h => { h with board := { h.board with sites := 1 }, ten := { h.ten with berths := (5, { state := .open }) :: h.ten.berths } }).work.grantable 5 0) = true
      ∧ bit (entry3 (pack [(8, 0x33), (120, 0), (14, 5), (2, 0), (4, 0), (4, 0), (16, 0), (16, 1)])).word 148 = false)
    ∧ (by_ (managed (pack [(8, 0x33), (120, 0), (14, 5), (2, 0), (4, 8), (4, 0), (16, 1), (16, 1)]) fun h => { h with ten := { h.ten with berths := (5, { state := .open }) :: h.ten.berths } }) ref3 (entry3 (pack [(8, 0x33), (120, 0), (14, 5), (2, 0), (4, 8), (4, 0), (16, 1), (16, 1)])) 0x33
      ∧ 5 = bits (entry3 (pack [(8, 0x33), (120, 0), (14, 5), (2, 0), (4, 8), (4, 0), (16, 1), (16, 1)])).word 141 128
      ∧ bits (entry3 (pack [(8, 0x33), (120, 0), (14, 5), (2, 0), (4, 8), (4, 0), (16, 1), (16, 1)])).word 147 144 = 8
      ∧ bits (entry3 (pack [(8, 0x33), (120, 0), (14, 5), (2, 0), (4, 8), (4, 0), (16, 1), (16, 1)])).word 183 168 = 1
      ∧ 1 = bits (entry3 (pack [(8, 0x33), (120, 0), (14, 5), (2, 0), (4, 8), (4, 0), (16, 1), (16, 1)])).word 167 152
      ∧ opened (managed (pack [(8, 0x33), (120, 0), (14, 5), (2, 0), (4, 8), (4, 0), (16, 1), (16, 1)]) fun h => { h with ten := { h.ten with berths := (5, { state := .open }) :: h.ten.berths } }) ref3 5
      ∧ (managed (pack [(8, 0x33), (120, 0), (14, 5), (2, 0), (4, 8), (4, 0), (16, 1), (16, 1)]) fun h => { h with ten := { h.ten with berths := (5, { state := .open }) :: h.ten.berths } }).work.itemInPool ref3 8 1 = true
      ∧ bit (entry3 (pack [(8, 0x33), (120, 0), (14, 5), (2, 0), (4, 8), (4, 0), (16, 1), (16, 1)])).word 148 = false)
    ∧ (by_ (managed (pack [(8, 0x33), (120, 0), (14, 5), (2, 0), (4, 2), (1, 1), (3, 0), (16, 3), (16, 1)]) fun h => { h with helm := { h.helm with marks := [(3, { value := 9 })] }, ten := { h.ten with held := [(2 * 4096 + 3, 5)], berths := (5, { state := .open }) :: h.ten.berths } }) ref3 (entry3 (pack [(8, 0x33), (120, 0), (14, 5), (2, 0), (4, 2), (1, 1), (3, 0), (16, 3), (16, 1)])) 0x33
      ∧ 5 = bits (entry3 (pack [(8, 0x33), (120, 0), (14, 5), (2, 0), (4, 2), (1, 1), (3, 0), (16, 3), (16, 1)])).word 141 128
      ∧ bits (entry3 (pack [(8, 0x33), (120, 0), (14, 5), (2, 0), (4, 2), (1, 1), (3, 0), (16, 3), (16, 1)])).word 147 144 = 2
      ∧ bits (entry3 (pack [(8, 0x33), (120, 0), (14, 5), (2, 0), (4, 2), (1, 1), (3, 0), (16, 3), (16, 1)])).word 183 168 = 1
      ∧ 3 = bits (entry3 (pack [(8, 0x33), (120, 0), (14, 5), (2, 0), (4, 2), (1, 1), (3, 0), (16, 3), (16, 1)])).word 167 152
      ∧ opened (managed (pack [(8, 0x33), (120, 0), (14, 5), (2, 0), (4, 2), (1, 1), (3, 0), (16, 3), (16, 1)]) fun h => { h with helm := { h.helm with marks := [(3, { value := 9 })] }, ten := { h.ten with held := [(2 * 4096 + 3, 5)], berths := (5, { state := .open }) :: h.ten.berths } }) ref3 5
      ∧ (managed (pack [(8, 0x33), (120, 0), (14, 5), (2, 0), (4, 2), (1, 1), (3, 0), (16, 3), (16, 1)]) fun h => { h with helm := { h.helm with marks := [(3, { value := 9 })] }, ten := { h.ten with held := [(2 * 4096 + 3, 5)], berths := (5, { state := .open }) :: h.ten.berths } }).work.itemInPool ref3 2 3 = true
      ∧ bit (entry3 (pack [(8, 0x33), (120, 0), (14, 5), (2, 0), (4, 2), (1, 1), (3, 0), (16, 3), (16, 1)])).word 148 = true
      ∧ (managed (pack [(8, 0x33), (120, 0), (14, 5), (2, 0), (4, 2), (1, 1), (3, 0), (16, 3), (16, 1)]) fun h => { h with helm := { h.helm with marks := [(3, { value := 9 })] }, ten := { h.ten with held := [(2 * 4096 + 3, 5)], berths := (5, { state := .open }) :: h.ten.berths } }).work.holder 2 3 = some 5
      ∧ (managed (pack [(8, 0x33), (120, 0), (14, 5), (2, 0), (4, 2), (1, 1), (3, 0), (16, 3), (16, 1)]) fun h => { h with helm := { h.helm with marks := [(3, { value := 9 })] }, ten := { h.ten with held := [(2 * 4096 + 3, 5)], berths := (5, { state := .open }) :: h.ten.berths } }).hub.helm.waiters = [] ∧ (managed (pack [(8, 0x33), (120, 0), (14, 5), (2, 0), (4, 2), (1, 1), (3, 0), (16, 3), (16, 1)]) fun h => { h with helm := { h.helm with marks := [(3, { value := 9 })] }, ten := { h.ten with held := [(2 * 4096 + 3, 5)], berths := (5, { state := .open }) :: h.ten.berths } }).hub.helm.held = [])
    ∧ (by_ (managed (pack [(8, 0x35), (120, 0), (14, 5), (1, 0), (1, 1)]) fun h => { h with memory := { h.memory with keys := (11, 7) :: h.memory.keys }, ten := { h.ten with berths := (5, { state := .open }) :: h.ten.berths } }) ref3 (entry3 (pack [(8, 0x35), (120, 0), (14, 5), (1, 0), (1, 1)])) 0x35
      ∧ 5 = bits (entry3 (pack [(8, 0x35), (120, 0), (14, 5), (1, 0), (1, 1)])).word 141 128
      ∧ 1 = bits (entry3 (pack [(8, 0x35), (120, 0), (14, 5), (1, 0), (1, 1)])).word 143 143
      ∧ (bit (entry3 (pack [(8, 0x35), (120, 0), (14, 5), (1, 0), (1, 1)])).word 142 = false ∧ opened (managed (pack [(8, 0x35), (120, 0), (14, 5), (1, 0), (1, 1)]) fun h => { h with memory := { h.memory with keys := (11, 7) :: h.memory.keys }, ten := { h.ten with berths := (5, { state := .open }) :: h.ten.berths } }) ref3 5 ∧ 5 = 5 ∨ bit (entry3 (pack [(8, 0x35), (120, 0), (14, 5), (1, 0), (1, 1)])).word 142 = true ∧ 5 < 256 ∧ bit ((managed (pack [(8, 0x35), (120, 0), (14, 5), (1, 0), (1, 1)]) fun h => { h with memory := { h.memory with keys := (11, 7) :: h.memory.keys }, ten := { h.ten with berths := (5, { state := .open }) :: h.ten.berths } }).work.poolOf ref3).groups 5 = true ∧ 5 = 4096 + 5)
      ∧ (managed (pack [(8, 0x35), (120, 0), (14, 5), (1, 0), (1, 1)]) fun h => { h with memory := { h.memory with keys := (11, 7) :: h.memory.keys }, ten := { h.ten with berths := (5, { state := .open }) :: h.ten.berths } }).work.key 5 1 ≠ 0
      ∧ (managed (pack [(8, 0x35), (120, 0), (14, 5), (1, 0), (1, 1)]) fun h => { h with memory := { h.memory with keys := (11, 7) :: h.memory.keys }, ten := { h.ten with berths := (5, { state := .open }) :: h.ten.berths } }).work.transfers = []
      ∧ (managed (pack [(8, 0x35), (120, 0), (14, 5), (1, 0), (1, 1)]) fun h => { h with memory := { h.memory with keys := (11, 7) :: h.memory.keys }, ten := { h.ten with berths := (5, { state := .open }) :: h.ten.berths } }).work.allReqs = []
      ∧ ((managed (pack [(8, 0x35), (120, 0), (14, 5), (1, 0), (1, 1)]) fun h => { h with memory := { h.memory with keys := (11, 7) :: h.memory.keys }, ten := { h.ten with berths := (5, { state := .open }) :: h.ten.berths } }).hub.ports.all fun p => p.2.placing = []) = true
      ∧ (managed (pack [(8, 0x35), (120, 0), (14, 5), (1, 0), (1, 1)]) fun h => { h with memory := { h.memory with keys := (11, 7) :: h.memory.keys }, ten := { h.ten with berths := (5, { state := .open }) :: h.ten.berths } }).hub.memory.hold = [])
    ∧ (by_ (managed (pack [(8, 0x35), (120, 0), (14, 1), (1, 1)]) fun h => { h with memory := { h.memory with keys := (8194, 7) :: h.memory.keys } }) ref3 (entry3 (pack [(8, 0x35), (120, 0), (14, 1), (1, 1)])) 0x35
      ∧ 1 = bits (entry3 (pack [(8, 0x35), (120, 0), (14, 1), (1, 1)])).word 141 128
      ∧ 0 = bits (entry3 (pack [(8, 0x35), (120, 0), (14, 1), (1, 1)])).word 143 143
      ∧ (bit (entry3 (pack [(8, 0x35), (120, 0), (14, 1), (1, 1)])).word 142 = false ∧ opened (managed (pack [(8, 0x35), (120, 0), (14, 1), (1, 1)]) fun h => { h with memory := { h.memory with keys := (8194, 7) :: h.memory.keys } }) ref3 1 ∧ 4097 = 1 ∨ bit (entry3 (pack [(8, 0x35), (120, 0), (14, 1), (1, 1)])).word 142 = true ∧ 1 < 256 ∧ bit ((managed (pack [(8, 0x35), (120, 0), (14, 1), (1, 1)]) fun h => { h with memory := { h.memory with keys := (8194, 7) :: h.memory.keys } }).work.poolOf ref3).groups 1 = true ∧ 4097 = 4096 + 1)
      ∧ (managed (pack [(8, 0x35), (120, 0), (14, 1), (1, 1)]) fun h => { h with memory := { h.memory with keys := (8194, 7) :: h.memory.keys } }).work.key 4097 0 ≠ 0
      ∧ (managed (pack [(8, 0x35), (120, 0), (14, 1), (1, 1)]) fun h => { h with memory := { h.memory with keys := (8194, 7) :: h.memory.keys } }).work.transfers = []
      ∧ (managed (pack [(8, 0x35), (120, 0), (14, 1), (1, 1)]) fun h => { h with memory := { h.memory with keys := (8194, 7) :: h.memory.keys } }).work.allReqs = []
      ∧ ((managed (pack [(8, 0x35), (120, 0), (14, 1), (1, 1)]) fun h => { h with memory := { h.memory with keys := (8194, 7) :: h.memory.keys } }).hub.ports.all fun p => p.2.placing = []) = true
      ∧ (managed (pack [(8, 0x35), (120, 0), (14, 1), (1, 1)]) fun h => { h with memory := { h.memory with keys := (8194, 7) :: h.memory.keys } }).hub.memory.hold = [])
    ∧ (by_ (managed (pack [(8, 0x24), (120, 0), (52, 0x20000), (76, 0), (32, 2), (16, 0x4005)]) fun h => { h with ten := { h.ten with berths := (5, { state := .open }) :: h.ten.berths } }) ref3 (entry3 (pack [(8, 0x24), (120, 0), (52, 0x20000), (76, 0), (32, 2), (16, 0x4005)])) 0x24
      ∧ 0x20000 = bits (entry3 (pack [(8, 0x24), (120, 0), (52, 0x20000), (76, 0), (32, 2), (16, 0x4005)])).word 179 128
      ∧ 2 = bits (entry3 (pack [(8, 0x24), (120, 0), (52, 0x20000), (76, 0), (32, 2), (16, 0x4005)])).word 287 256
      ∧ 0x4005 = bits (entry3 (pack [(8, 0x24), (120, 0), (52, 0x20000), (76, 0), (32, 2), (16, 0x4005)])).word 303 288
      ∧ (managed (pack [(8, 0x24), (120, 0), (52, 0x20000), (76, 0), (32, 2), (16, 0x4005)]) fun h => { h with ten := { h.ten with berths := (5, { state := .open }) :: h.ten.berths } }).work.blocksInPool ref3 0x20000 2 = true
      ∧ (bits 0x4005 15 14 = 0 ∨ bits 0x4005 15 14 = 1 ∧ opened (managed (pack [(8, 0x24), (120, 0), (52, 0x20000), (76, 0), (32, 2), (16, 0x4005)]) fun h => { h with ten := { h.ten with berths := (5, { state := .open }) :: h.ten.berths } }) ref3 (bits 0x4005 13 0))
      ∧ 0x20000 % 65536 = 0
      ∧ 2 ≠ 0
      ∧ (∀ i < 2, bits ((managed (pack [(8, 0x24), (120, 0), (52, 0x20000), (76, 0), (32, 2), (16, 0x4005)]) fun h => { h with ten := { h.ten with berths := (5, { state := .open }) :: h.ten.berths } }).work.ownerOf (0x20000 + i * 65536)) 15 14 ≠ 3 ∧ ownerMoves ((managed (pack [(8, 0x24), (120, 0), (52, 0x20000), (76, 0), (32, 2), (16, 0x4005)]) fun h => { h with ten := { h.ten with berths := (5, { state := .open }) :: h.ten.berths } }).work.ownerOf (0x20000 + i * 65536)) 0x4005 = false ∧ ((managed (pack [(8, 0x24), (120, 0), (52, 0x20000), (76, 0), (32, 2), (16, 0x4005)]) fun h => { h with ten := { h.ten with berths := (5, { state := .open }) :: h.ten.berths } }).work.region ((0x20000 / 65536 + i) / 16384)).busy = false))
    ∧ (by_ (managed (pack [(8, 0x24), (120, 0), (52, 0x20000), (76, 0), (32, 2), (16, 0)]) fun h => { h with memory := { h.memory with owner := [(2, 0x4005)] } }) ref3 (entry3 (pack [(8, 0x24), (120, 0), (52, 0x20000), (76, 0), (32, 2), (16, 0)])) 0x24
      ∧ 0x20000 = bits (entry3 (pack [(8, 0x24), (120, 0), (52, 0x20000), (76, 0), (32, 2), (16, 0)])).word 179 128
      ∧ 2 = bits (entry3 (pack [(8, 0x24), (120, 0), (52, 0x20000), (76, 0), (32, 2), (16, 0)])).word 287 256
      ∧ 0 = bits (entry3 (pack [(8, 0x24), (120, 0), (52, 0x20000), (76, 0), (32, 2), (16, 0)])).word 303 288
      ∧ (managed (pack [(8, 0x24), (120, 0), (52, 0x20000), (76, 0), (32, 2), (16, 0)]) fun h => { h with memory := { h.memory with owner := [(2, 0x4005)] } }).work.blocksInPool ref3 0x20000 2 = true
      ∧ (bits 0 15 14 = 0 ∨ bits 0 15 14 = 1 ∧ opened (managed (pack [(8, 0x24), (120, 0), (52, 0x20000), (76, 0), (32, 2), (16, 0)]) fun h => { h with memory := { h.memory with owner := [(2, 0x4005)] } }) ref3 (bits 0 13 0))
      ∧ 0x20000 % 65536 = 0
      ∧ 2 ≠ 0
      ∧ (∀ i < 2, bits ((managed (pack [(8, 0x24), (120, 0), (52, 0x20000), (76, 0), (32, 2), (16, 0)]) fun h => { h with memory := { h.memory with owner := [(2, 0x4005)] } }).work.ownerOf (0x20000 + i * 65536)) 15 14 ≠ 3 ∧ ownerMoves ((managed (pack [(8, 0x24), (120, 0), (52, 0x20000), (76, 0), (32, 2), (16, 0)]) fun h => { h with memory := { h.memory with owner := [(2, 0x4005)] } }).work.ownerOf (0x20000 + i * 65536)) 0 = false ∧ ((managed (pack [(8, 0x24), (120, 0), (52, 0x20000), (76, 0), (32, 2), (16, 0)]) fun h => { h with memory := { h.memory with owner := [(2, 0x4005)] } }).work.region ((0x20000 / 65536 + i) / 16384)).busy = false))
    ∧ (by_ (managed (pack [(8, 0x24), (120, 0), (52, 0x20000), (76, 0), (32, 1), (16, 0x4005)]) fun h => { h with memory := { h.memory with owner := [(2, 0x4006)] }, ten := { h.ten with berths := (5, { state := .open }) :: h.ten.berths } }) ref3 (entry3 (pack [(8, 0x24), (120, 0), (52, 0x20000), (76, 0), (32, 1), (16, 0x4005)])) 0x24
      ∧ 0x20000 = bits (entry3 (pack [(8, 0x24), (120, 0), (52, 0x20000), (76, 0), (32, 1), (16, 0x4005)])).word 179 128
      ∧ bits (entry3 (pack [(8, 0x24), (120, 0), (52, 0x20000), (76, 0), (32, 1), (16, 0x4005)])).word 287 256 = 1
      ∧ 0x4005 = bits (entry3 (pack [(8, 0x24), (120, 0), (52, 0x20000), (76, 0), (32, 1), (16, 0x4005)])).word 303 288
      ∧ (managed (pack [(8, 0x24), (120, 0), (52, 0x20000), (76, 0), (32, 1), (16, 0x4005)]) fun h => { h with memory := { h.memory with owner := [(2, 0x4006)] }, ten := { h.ten with berths := (5, { state := .open }) :: h.ten.berths } }).work.blocksInPool ref3 0x20000 1 = true
      ∧ bits 0x4005 15 14 = 1
      ∧ opened (managed (pack [(8, 0x24), (120, 0), (52, 0x20000), (76, 0), (32, 1), (16, 0x4005)]) fun h => { h with memory := { h.memory with owner := [(2, 0x4006)] }, ten := { h.ten with berths := (5, { state := .open }) :: h.ten.berths } }) ref3 (bits 0x4005 13 0)
      ∧ 0x20000 % 65536 = 0
      ∧ ownerMoves ((managed (pack [(8, 0x24), (120, 0), (52, 0x20000), (76, 0), (32, 1), (16, 0x4005)]) fun h => { h with memory := { h.memory with owner := [(2, 0x4006)] }, ten := { h.ten with berths := (5, { state := .open }) :: h.ten.berths } }).work.ownerOf 0x20000) 0x4005 = true
      ∧ ((managed (pack [(8, 0x24), (120, 0), (52, 0x20000), (76, 0), (32, 1), (16, 0x4005)]) fun h => { h with memory := { h.memory with owner := [(2, 0x4006)] }, ten := { h.ten with berths := (5, { state := .open }) :: h.ten.berths } }).work.region (0x20000 / 65536 / 16384)).busy = false
      ∧ serves (managed (pack [(8, 0x24), (120, 0), (52, 0x20000), (76, 0), (32, 1), (16, 0x4005)]) fun h => { h with memory := { h.memory with owner := [(2, 0x4006)] }, ten := { h.ten with berths := (5, { state := .open }) :: h.ten.berths } }))
    ∧ (by_ (withBytes (managed (pack [(8, 0x25), (120, 0), (64, 0x1000), (1, 1), (63, 0), (8, 1)]) fun h => { h with ten := { h.ten with berths := (5, { state := .open }) :: h.ten.berths } }) (hostKey 0 0x1000) [0x20]) ref3 (entry3 (pack [(8, 0x25), (120, 0), (64, 0x1000), (1, 1), (63, 0), (8, 1)])) 0x25
      ∧ 1 = bits (entry3 (pack [(8, 0x25), (120, 0), (64, 0x1000), (1, 1), (63, 0), (8, 1)])).word 263 256
      ∧ bit ((withBytes (managed (pack [(8, 0x25), (120, 0), (64, 0x1000), (1, 1), (63, 0), (8, 1)]) fun h => { h with ten := { h.ten with berths := (5, { state := .open }) :: h.ten.berths } }) (hostKey 0 0x1000) [0x20]).work.poolOf ref3).groups 1 = true
      ∧ (withBytes (managed (pack [(8, 0x25), (120, 0), (64, 0x1000), (1, 1), (63, 0), (8, 1)]) fun h => { h with ten := { h.ten with berths := (5, { state := .open }) :: h.ten.berths } }) (hostKey 0 0x1000) [0x20]).HostReads ref3 (entry3 (pack [(8, 0x25), (120, 0), (64, 0x1000), (1, 1), (63, 0), (8, 1)])) 512
      ∧ 0x20 = (withBytes (managed (pack [(8, 0x25), (120, 0), (64, 0x1000), (1, 1), (63, 0), (8, 1)]) fun h => { h with ten := { h.ten with berths := (5, { state := .open }) :: h.ten.berths } }) (hostKey 0 0x1000) [0x20]).hostWord ref3 (entry3 (pack [(8, 0x25), (120, 0), (64, 0x1000), (1, 1), (63, 0), (8, 1)])) 512
      ∧ (ones 0x20 4096).all ((withBytes (managed (pack [(8, 0x25), (120, 0), (64, 0x1000), (1, 1), (63, 0), (8, 1)]) fun h => { h with ten := { h.ten with berths := (5, { state := .open }) :: h.ten.berths } }) (hostKey 0 0x1000) [0x20]).work.berthInPool ref3) = true
      ∧ (ones 0x20 4096).all (fun b => ((withBytes (managed (pack [(8, 0x25), (120, 0), (64, 0x1000), (1, 1), (63, 0), (8, 1)]) fun h => { h with ten := { h.ten with berths := (5, { state := .open }) :: h.ten.berths } }) (hostKey 0 0x1000) [0x20]).work.berth b).state = .open) = true)
    ∧ (by_ (managed (pack [(8, 0x26), (120, 0), (8, 1), (1, 0), (2, 2), (5, 0), (16, 4), (32, 0), (52, 0x20000), (12, 0), (64, 0x50000)]) id) ref3 (entry3 (pack [(8, 0x26), (120, 0), (8, 1), (1, 0), (2, 2), (5, 0), (16, 4), (32, 0), (52, 0x20000), (12, 0), (64, 0x50000)])) 0x26
      ∧ (pack [(8, 1), (1, 0), (2, 2), (5, 0), (16, 4), (32, 0), (52, 0x20000), (12, 0), (64, 0x50000)]) = bits (entry3 (pack [(8, 0x26), (120, 0), (8, 1), (1, 0), (2, 2), (5, 0), (16, 4), (32, 0), (52, 0x20000), (12, 0), (64, 0x50000)])).word 383 128
      ∧ bit ((managed (pack [(8, 0x26), (120, 0), (8, 1), (1, 0), (2, 2), (5, 0), (16, 4), (32, 0), (52, 0x20000), (12, 0), (64, 0x50000)]) id).work.poolOf ref3).groups (bits (pack [(8, 1), (1, 0), (2, 2), (5, 0), (16, 4), (32, 0), (52, 0x20000), (12, 0), (64, 0x50000)]) 7 0) = true
      ∧ bits (pack [(8, 1), (1, 0), (2, 2), (5, 0), (16, 4), (32, 0), (52, 0x20000), (12, 0), (64, 0x50000)]) 31 16 ≠ 0
      ∧ bits (pack [(8, 1), (1, 0), (2, 2), (5, 0), (16, 4), (32, 0), (52, 0x20000), (12, 0), (64, 0x50000)]) 115 64 % 65536 = 0
      ∧ bits (pack [(8, 1), (1, 0), (2, 2), (5, 0), (16, 4), (32, 0), (52, 0x20000), (12, 0), (64, 0x50000)]) 191 128 % 65536 = 0
      ∧ bits (pack [(8, 1), (1, 0), (2, 2), (5, 0), (16, 4), (32, 0), (52, 0x20000), (12, 0), (64, 0x50000)]) 115 64 + bits (pack [(8, 1), (1, 0), (2, 2), (5, 0), (16, 4), (32, 0), (52, 0x20000), (12, 0), (64, 0x50000)]) 31 16 * 65536 ≤ (managed (pack [(8, 0x26), (120, 0), (8, 1), (1, 0), (2, 2), (5, 0), (16, 4), (32, 0), (52, 0x20000), (12, 0), (64, 0x50000)]) id).work.regions * 2 ^ 30
      ∧ (bit (pack [(8, 1), (1, 0), (2, 2), (5, 0), (16, 4), (32, 0), (52, 0x20000), (12, 0), (64, 0x50000)]) 8 = true → bits (pack [(8, 1), (1, 0), (2, 2), (5, 0), (16, 4), (32, 0), (52, 0x20000), (12, 0), (64, 0x50000)]) 191 128 + bits (pack [(8, 1), (1, 0), (2, 2), (5, 0), (16, 4), (32, 0), (52, 0x20000), (12, 0), (64, 0x50000)]) 31 16 * 65536 ≤ (managed (pack [(8, 0x26), (120, 0), (8, 1), (1, 0), (2, 2), (5, 0), (16, 4), (32, 0), (52, 0x20000), (12, 0), (64, 0x50000)]) id).work.regions * 2 ^ 30 ∧ bits (pack [(8, 1), (1, 0), (2, 2), (5, 0), (16, 4), (32, 0), (52, 0x20000), (12, 0), (64, 0x50000)]) 10 9 = 0)
      ∧ ((managed (pack [(8, 0x26), (120, 0), (8, 1), (1, 0), (2, 2), (5, 0), (16, 4), (32, 0), (52, 0x20000), (12, 0), (64, 0x50000)]) id).hub.memory.origins.any fun y => y.group = bits (pack [(8, 1), (1, 0), (2, 2), (5, 0), (16, 4), (32, 0), (52, 0x20000), (12, 0), (64, 0x50000)]) 7 0 && y.base = bits (pack [(8, 1), (1, 0), (2, 2), (5, 0), (16, 4), (32, 0), (52, 0x20000), (12, 0), (64, 0x50000)]) 115 64) = false
      ∧ (managed (pack [(8, 0x26), (120, 0), (8, 1), (1, 0), (2, 2), (5, 0), (16, 4), (32, 0), (52, 0x20000), (12, 0), (64, 0x50000)]) id).hub.memory.origins.length < 1024)
    ∧ (by_ (managed (pack [(8, 0x28), (120, 0), (12, 9), (1, 1), (3, 0), (16, 0x101), (14, 5), (18, 0), (52, 0x30000), (12, 0), (13, 2)]) fun h => { h with ten := { h.ten with berths := (5, { state := .open }) :: h.ten.berths } }) ref3 (entry3 (pack [(8, 0x28), (120, 0), (12, 9), (1, 1), (3, 0), (16, 0x101), (14, 5), (18, 0), (52, 0x30000), (12, 0), (13, 2)])) 0x28
      ∧ (pack [(12, 9), (1, 1), (3, 0), (16, 0x101), (14, 5), (18, 0), (52, 0x30000), (12, 0), (13, 2)]) = bits (entry3 (pack [(8, 0x28), (120, 0), (12, 9), (1, 1), (3, 0), (16, 0x101), (14, 5), (18, 0), (52, 0x30000), (12, 0), (13, 2)])).word 383 128
      ∧ 0 = (managed (pack [(8, 0x28), (120, 0), (12, 9), (1, 1), (3, 0), (16, 0x101), (14, 5), (18, 0), (52, 0x30000), (12, 0), (13, 2)]) fun h => { h with ten := { h.ten with berths := (5, { state := .open }) :: h.ten.berths } }).work.portOf ref3.berth
      ∧ bit (pack [(12, 9), (1, 1), (3, 0), (16, 0x101), (14, 5), (18, 0), (52, 0x30000), (12, 0), (13, 2)]) 12 = true
      ∧ opened (managed (pack [(8, 0x28), (120, 0), (12, 9), (1, 1), (3, 0), (16, 0x101), (14, 5), (18, 0), (52, 0x30000), (12, 0), (13, 2)]) fun h => { h with ten := { h.ten with berths := (5, { state := .open }) :: h.ten.berths } }) ref3 (bits (pack [(12, 9), (1, 1), (3, 0), (16, 0x101), (14, 5), (18, 0), (52, 0x30000), (12, 0), (13, 2)]) 45 32)
      ∧ (bit (pack [(12, 9), (1, 1), (3, 0), (16, 0x101), (14, 5), (18, 0), (52, 0x30000), (12, 0), (13, 2)]) 165 = true → (managed (pack [(8, 0x28), (120, 0), (12, 9), (1, 1), (3, 0), (16, 0x101), (14, 5), (18, 0), (52, 0x30000), (12, 0), (13, 2)]) fun h => { h with ten := { h.ten with berths := (5, { state := .open }) :: h.ten.berths } }).work.holder 2 (bits (pack [(12, 9), (1, 1), (3, 0), (16, 0x101), (14, 5), (18, 0), (52, 0x30000), (12, 0), (13, 2)]) 179 168) = some (bits (pack [(12, 9), (1, 1), (3, 0), (16, 0x101), (14, 5), (18, 0), (52, 0x30000), (12, 0), (13, 2)]) 45 32))
      ∧ bits (pack [(12, 9), (1, 1), (3, 0), (16, 0x101), (14, 5), (18, 0), (52, 0x30000), (12, 0), (13, 2)]) 115 64 % 65536 = 0
      ∧ placeBase (bits (pack [(12, 9), (1, 1), (3, 0), (16, 0x101), (14, 5), (18, 0), (52, 0x30000), (12, 0), (13, 2)]) 115 64) = true
      ∧ 0 < bits (pack [(12, 9), (1, 1), (3, 0), (16, 0x101), (14, 5), (18, 0), (52, 0x30000), (12, 0), (13, 2)]) 140 128
      ∧ bits (pack [(12, 9), (1, 1), (3, 0), (16, 0x101), (14, 5), (18, 0), (52, 0x30000), (12, 0), (13, 2)]) 140 128 ≤ 4096)
    ∧ (by_ (managed (pack [(8, 0x28), (120, 0), (12, 9)]) fun h => { h with ports := [(0, { port0 with places := [(9, {})] })] }) ref3 (entry3 (pack [(8, 0x28), (120, 0), (12, 9)])) 0x28
      ∧ 9 = bits (entry3 (pack [(8, 0x28), (120, 0), (12, 9)])).word 383 128
      ∧ 0 = (managed (pack [(8, 0x28), (120, 0), (12, 9)]) fun h => { h with ports := [(0, { port0 with places := [(9, {})] })] }).work.portOf ref3.berth
      ∧ bit 9 12 = false)
    ∧ (by_ (managed (pack [(8, 0x1B), (120, 0), (52, 0x20000), (76, 0), (32, 2)]) id) ref3 (entry3 (pack [(8, 0x1B), (120, 0), (52, 0x20000), (76, 0), (32, 2)])) 0x1B
      ∧ 0x20000 = bits (entry3 (pack [(8, 0x1B), (120, 0), (52, 0x20000), (76, 0), (32, 2)])).word 179 128
      ∧ 2 = bits (entry3 (pack [(8, 0x1B), (120, 0), (52, 0x20000), (76, 0), (32, 2)])).word 287 256
      ∧ (managed (pack [(8, 0x1B), (120, 0), (52, 0x20000), (76, 0), (32, 2)]) id).work.blocksInPool ref3 0x20000 2 = true
      ∧ 0x20000 % 65536 = 0
      ∧ 2 ≠ 0
      ∧ (∀ i < 2, bits ((managed (pack [(8, 0x1B), (120, 0), (52, 0x20000), (76, 0), (32, 2)]) id).work.ownerOf (0x20000 + i * 65536)) 15 14 = 0)
      ∧ serves (managed (pack [(8, 0x1B), (120, 0), (52, 0x20000), (76, 0), (32, 2)]) id)) := by
  (repeat' apply And.intro) <;> decide +kernel

theorem test_keyNew :
  let by_ (s : State) (e : EntryRef) (x : RingEntry) (op : Nat) : Prop := s.Issued e x op ∧ s.work.isManager e.berth = true ∧ s.Calm
  let opened (s : State) (e : EntryRef) (b : Nat) : Prop := s.work.berthInPool e b = true ∧ (s.work.berth b).state = .open
  (by_ (managed (pack [(8, 0x34), (120, 0), (14, 5), (1, 0), (1, 1)]) fun h => { h with ten := { h.ten with berths := (5, { state := .open }) :: h.ten.berths } }) ref3 (entry3 (pack [(8, 0x34), (120, 0), (14, 5), (1, 0), (1, 1)])) 0x34
      ∧ 5 = bits (entry3 (pack [(8, 0x34), (120, 0), (14, 5), (1, 0), (1, 1)])).word 141 128
      ∧ 1 = bits (entry3 (pack [(8, 0x34), (120, 0), (14, 5), (1, 0), (1, 1)])).word 143 143
      ∧ (bit (entry3 (pack [(8, 0x34), (120, 0), (14, 5), (1, 0), (1, 1)])).word 142 = false ∧ opened (managed (pack [(8, 0x34), (120, 0), (14, 5), (1, 0), (1, 1)]) fun h => { h with ten := { h.ten with berths := (5, { state := .open }) :: h.ten.berths } }) ref3 5 ∧ 5 = 5 ∨ bit (entry3 (pack [(8, 0x34), (120, 0), (14, 5), (1, 0), (1, 1)])).word 142 = true ∧ 5 < 256 ∧ bit ((managed (pack [(8, 0x34), (120, 0), (14, 5), (1, 0), (1, 1)]) fun h => { h with ten := { h.ten with berths := (5, { state := .open }) :: h.ten.berths } }).work.poolOf ref3).groups 5 = true ∧ 5 = 4096 + 5)
      ∧ (managed (pack [(8, 0x34), (120, 0), (14, 5), (1, 0), (1, 1)]) fun h => { h with ten := { h.ten with berths := (5, { state := .open }) :: h.ten.berths } }).work.key 5 1 = 0)
    ∧ (by_ (managed (pack [(8, 0x34), (120, 0), (14, 1), (1, 1), (1, 1)]) id) ref3 (entry3 (pack [(8, 0x34), (120, 0), (14, 1), (1, 1), (1, 1)])) 0x34
      ∧ 1 = bits (entry3 (pack [(8, 0x34), (120, 0), (14, 1), (1, 1), (1, 1)])).word 141 128
      ∧ 1 = bits (entry3 (pack [(8, 0x34), (120, 0), (14, 1), (1, 1), (1, 1)])).word 143 143
      ∧ (bit (entry3 (pack [(8, 0x34), (120, 0), (14, 1), (1, 1), (1, 1)])).word 142 = false ∧ opened (managed (pack [(8, 0x34), (120, 0), (14, 1), (1, 1), (1, 1)]) id) ref3 1 ∧ 4097 = 1 ∨ bit (entry3 (pack [(8, 0x34), (120, 0), (14, 1), (1, 1), (1, 1)])).word 142 = true ∧ 1 < 256 ∧ bit ((managed (pack [(8, 0x34), (120, 0), (14, 1), (1, 1), (1, 1)]) id).work.poolOf ref3).groups 1 = true ∧ 4097 = 4096 + 1)
      ∧ (managed (pack [(8, 0x34), (120, 0), (14, 1), (1, 1), (1, 1)]) id).work.key 4097 1 = 0)
    ∧ (by_ (managed (pack [(8, 0x34), (120, 0), (14, 5), (1, 0), (1, 1)]) fun h => { h with memory := { h.memory with keys := (11, 7) :: h.memory.keys }, ten := { h.ten with berths := (5, { state := .open }) :: h.ten.berths } }) ref3 (entry3 (pack [(8, 0x34), (120, 0), (14, 5), (1, 0), (1, 1)])) 0x34
      ∧ 5 = bits (entry3 (pack [(8, 0x34), (120, 0), (14, 5), (1, 0), (1, 1)])).word 141 128
      ∧ 1 = bits (entry3 (pack [(8, 0x34), (120, 0), (14, 5), (1, 0), (1, 1)])).word 143 143
      ∧ (bit (entry3 (pack [(8, 0x34), (120, 0), (14, 5), (1, 0), (1, 1)])).word 142 = false ∧ opened (managed (pack [(8, 0x34), (120, 0), (14, 5), (1, 0), (1, 1)]) fun h => { h with memory := { h.memory with keys := (11, 7) :: h.memory.keys }, ten := { h.ten with berths := (5, { state := .open }) :: h.ten.berths } }) ref3 5 ∧ 5 = 5 ∨ bit (entry3 (pack [(8, 0x34), (120, 0), (14, 5), (1, 0), (1, 1)])).word 142 = true ∧ 5 < 256 ∧ bit ((managed (pack [(8, 0x34), (120, 0), (14, 5), (1, 0), (1, 1)]) fun h => { h with memory := { h.memory with keys := (11, 7) :: h.memory.keys }, ten := { h.ten with berths := (5, { state := .open }) :: h.ten.berths } }).work.poolOf ref3).groups 5 = true ∧ 5 = 4096 + 5)
      ∧ (managed (pack [(8, 0x34), (120, 0), (14, 5), (1, 0), (1, 1)]) fun h => { h with memory := { h.memory with keys := (11, 7) :: h.memory.keys }, ten := { h.ten with berths := (5, { state := .open }) :: h.ten.berths } }).work.key 5 1 ≠ 0)
    ∧ (by_ (managed (pack [(8, 0x34), (120, 0), (14, 9), (1, 0), (1, 1)]) id) ref3 (entry3 (pack [(8, 0x34), (120, 0), (14, 9), (1, 0), (1, 1)])) 0x34
      ∧ 9 = bits (entry3 (pack [(8, 0x34), (120, 0), (14, 9), (1, 0), (1, 1)])).word 141 128
      ∧ (bit (entry3 (pack [(8, 0x34), (120, 0), (14, 9), (1, 0), (1, 1)])).word 142 = false ∧ (managed (pack [(8, 0x34), (120, 0), (14, 9), (1, 0), (1, 1)]) id).work.berthInPool ref3 9 = false ∨ bit (entry3 (pack [(8, 0x34), (120, 0), (14, 9), (1, 0), (1, 1)])).word 142 = true ∧ (256 ≤ 9 ∨ bit ((managed (pack [(8, 0x34), (120, 0), (14, 9), (1, 0), (1, 1)]) id).work.poolOf ref3).groups 9 = false)))
    ∧ (by_ (managed (pack [(8, 0x34), (120, 0), (14, 7), (1, 1), (1, 0)]) id) ref3 (entry3 (pack [(8, 0x34), (120, 0), (14, 7), (1, 1), (1, 0)])) 0x34
      ∧ 7 = bits (entry3 (pack [(8, 0x34), (120, 0), (14, 7), (1, 1), (1, 0)])).word 141 128
      ∧ (bit (entry3 (pack [(8, 0x34), (120, 0), (14, 7), (1, 1), (1, 0)])).word 142 = false ∧ (managed (pack [(8, 0x34), (120, 0), (14, 7), (1, 1), (1, 0)]) id).work.berthInPool ref3 7 = false ∨ bit (entry3 (pack [(8, 0x34), (120, 0), (14, 7), (1, 1), (1, 0)])).word 142 = true ∧ (256 ≤ 7 ∨ bit ((managed (pack [(8, 0x34), (120, 0), (14, 7), (1, 1), (1, 0)]) id).work.poolOf ref3).groups 7 = false))) := by
  (repeat' apply And.intro) <;> decide +kernel

theorem test_tenantService :
  let by_ (s : State) (e : EntryRef) (x : RingEntry) (op : Nat) : Prop := s.Issued e x op ∧ s.work.isManager e.berth = true ∧ s.Calm
  let ten (s t : State) : Prop := Within s t (fun h => { h with ten := t.hub.ten })
  ((hubbed fun h => { h with ten := { h.ten with window := 4, windowEnergy := 99, berths := [(5, { state := .open, bind := some {} }), (6, { view := { isOpen := true } })] } }).Calm
      ∧ (hubbed fun h => { h with ten := { h.ten with window := 4, windowEnergy := 99, berths := [(5, { state := .open, bind := some {} }), (6, { view := { isOpen := true } })] } }).work.bindOf 5 ≠ none
      ∧ ((hubbed fun h => { h with ten := { h.ten with window := 4, windowEnergy := 99, berths := [(5, { state := .open, bind := some {} }), (6, { view := { isOpen := true } })] } }).work.berth 5).view.isOpen = false)
    ∧ ((hubbed fun h => { h with ten := { h.ten with window := 4, berths := [(5, { state := .open, bind := some {}, view := { isOpen := true } })] } }).Calm
      ∧ (hubbed fun h => { h with ten := { h.ten with window := 4, berths := [(5, { state := .open, bind := some {}, view := { isOpen := true } })] } }).work.bindOf 5 ≠ none
      ∧ ((hubbed fun h => { h with ten := { h.ten with window := 4, berths := [(5, { state := .open, bind := some {}, view := { isOpen := true } })] } }).work.berth 5).view.isOpen = true)
    ∧ ((hubbed fun h => { h with ten := { h.ten with window := 4, berths := [(5, { state := .open, bind := some {}, view := { isOpen := true, stopping := true } })] } }).Calm)
    ∧ (by_ (managed (pack [(8, 0x40), (248, 0)]) fun h => { h with board := { h.board with sites := 1 } }) ref3 (entry3 (pack [(8, 0x40), (248, 0)])) 0x40
      ∧ 0 = bits (entry3 (pack [(8, 0x40), (248, 0)])).word 260 256
      ∧ (managed (pack [(8, 0x40), (248, 0)]) fun h => { h with board := { h.board with sites := 1 } }).work.itemInPool ref3 0 0 = true
      ∧ ((managed (pack [(8, 0x40), (248, 0)]) fun h => { h with board := { h.board with sites := 1 } }).work.site 0).outEntry = none
      ∧ ((managed (pack [(8, 0x40), (248, 0)]) fun h => { h with board := { h.board with sites := 1 } }).work.site 0).state = 0 ∨ ((managed (pack [(8, 0x40), (248, 0)]) fun h => { h with board := { h.board with sites := 1 } }).work.site 0).state = 5)
    ∧ (by_ (managed (pack [(8, 0x40), (248, 0)]) fun h => { h with sites := [(0, full)], board := { h.board with sites := 1 } }) ref3 (entry3 (pack [(8, 0x40), (248, 0)])) 0x40
      ∧ 0 = bits (entry3 (pack [(8, 0x40), (248, 0)])).word 260 256
      ∧ (managed (pack [(8, 0x40), (248, 0)]) fun h => { h with sites := [(0, full)], board := { h.board with sites := 1 } }).work.itemInPool ref3 0 0 = true
      ∧ ((managed (pack [(8, 0x40), (248, 0)]) fun h => { h with sites := [(0, full)], board := { h.board with sites := 1 } }).work.site 0).outEntry = none
      ∧ siteServing ((managed (pack [(8, 0x40), (248, 0)]) fun h => { h with sites := [(0, full)], board := { h.board with sites := 1 } }).work.site 0) = true)
    ∧ (by_ (managed (pack [(8, 0x41), (248, 0)]) fun h => { h with sites := [(0, full)], board := { h.board with sites := 1 } }) ref3 (entry3 (pack [(8, 0x41), (248, 0)])) 0x41
      ∧ 0 = bits (entry3 (pack [(8, 0x41), (248, 0)])).word 260 256
      ∧ (managed (pack [(8, 0x41), (248, 0)]) fun h => { h with sites := [(0, full)], board := { h.board with sites := 1 } }).work.itemInPool ref3 0 0 = true
      ∧ siteServing ((managed (pack [(8, 0x41), (248, 0)]) fun h => { h with sites := [(0, full)], board := { h.board with sites := 1 } }).work.site 0) = true)
    ∧ (by_ (managed (pack [(8, 0x41), (248, 0)]) fun h => { h with board := { h.board with sites := 1 } }) ref3 (entry3 (pack [(8, 0x41), (248, 0)])) 0x41
      ∧ 0 = bits (entry3 (pack [(8, 0x41), (248, 0)])).word 260 256
      ∧ (managed (pack [(8, 0x41), (248, 0)]) fun h => { h with board := { h.board with sites := 1 } }).work.itemInPool ref3 0 0 = true
      ∧ ((managed (pack [(8, 0x41), (248, 0)]) fun h => { h with board := { h.board with sites := 1 } }).work.site 0).state = 0 ∨ ((managed (pack [(8, 0x41), (248, 0)]) fun h => { h with board := { h.board with sites := 1 } }).work.site 0).state = 5
      ∧ ((managed (pack [(8, 0x41), (248, 0)]) fun h => { h with board := { h.board with sites := 1 } }).work.site 0).reclaiming = false
      ∧ bit (managed (pack [(8, 0x41), (248, 0)]) fun h => { h with board := { h.board with sites := 1 } }).hub.board.sites 0 = true
      ∧ ((managed (pack [(8, 0x41), (248, 0)]) fun h => { h with board := { h.board with sites := 1 } }).work.site 0).fuseBad = false
      ∧ (managed (pack [(8, 0x41), (248, 0)]) fun h => { h with board := { h.board with sites := 1 } }).work.fusedOut 0 = false)
    ∧ (by_ (managed (pack [(8, 0x42), (248, 0)]) fun h => { h with wrights := [(0, { out := true })] }) ref3 (entry3 (pack [(8, 0x42), (248, 0)])) 0x42
      ∧ 0 = bits (entry3 (pack [(8, 0x42), (248, 0)])).word 263 256
      ∧ (managed (pack [(8, 0x42), (248, 0)]) fun h => { h with wrights := [(0, { out := true })] }).work.itemInPool ref3 1 0 = true
      ∧ ((managed (pack [(8, 0x42), (248, 0)]) fun h => { h with wrights := [(0, { out := true })] }).work.wright 0).draining = none
      ∧ ((managed (pack [(8, 0x42), (248, 0)]) fun h => { h with wrights := [(0, { out := true })] }).work.wright 0).out = true
      ∧ ((managed (pack [(8, 0x42), (248, 0)]) fun h => { h with wrights := [(0, { out := true })] }).work.wright 0).run = none)
    ∧ (by_ (managed (pack [(8, 0x42), (248, 0), (16, 0), (16, 100)]) fun h => { h with wrights := [(0, { run := some (atStep {}) })] }) ref3 (entry3 (pack [(8, 0x42), (248, 0), (16, 0), (16, 100)])) 0x42
      ∧ 0 = bits (entry3 (pack [(8, 0x42), (248, 0), (16, 0), (16, 100)])).word 263 256
      ∧ (managed (pack [(8, 0x42), (248, 0), (16, 0), (16, 100)]) fun h => { h with wrights := [(0, { run := some (atStep {}) })] }).work.itemInPool ref3 1 0 = true
      ∧ ((managed (pack [(8, 0x42), (248, 0), (16, 0), (16, 100)]) fun h => { h with wrights := [(0, { run := some (atStep {}) })] }).work.wright 0).draining = none
      ∧ ((managed (pack [(8, 0x42), (248, 0), (16, 0), (16, 100)]) fun h => { h with wrights := [(0, { run := some (atStep {}) })] }).work.wright 0).run = some (atStep {})
      ∧ ((managed (pack [(8, 0x42), (248, 0), (16, 0), (16, 100)]) fun h => { h with wrights := [(0, { run := some (atStep {}) })] }).work.wright 0).queue = []
      ∧ bits (entry3 (pack [(8, 0x42), (248, 0), (16, 0), (16, 100)])).word 287 272 ≠ 0
      ∧ (managed (pack [(8, 0x42), (248, 0), (16, 0), (16, 100)]) fun h => { h with wrights := [(0, { run := some (atStep {}) })] }).hub.helm.waiters = [] ∧ (managed (pack [(8, 0x42), (248, 0), (16, 0), (16, 100)]) fun h => { h with wrights := [(0, { run := some (atStep {}) })] }).hub.helm.held = [])
    ∧ ((hubbed fun h => { h with wrights := [(0, { out := true, draining := some ref3, run := some (atStep {}) })] }).Calm
      ∧ ((hubbed fun h => { h with wrights := [(0, { out := true, draining := some ref3, run := some (atStep {}) })] }).work.wright 0).draining ≠ none
      ∧ ((hubbed fun h => { h with wrights := [(0, { out := true, draining := some ref3, run := some (atStep {}) })] }).work.wright 0).run = some (atStep {})
      ∧ (atStep {}).phase ≠ .ending
      ∧ (hubbed fun h => { h with wrights := [(0, { out := true, draining := some ref3, run := some (atStep {}) })] }).hub.helm.waiters = [] ∧ (hubbed fun h => { h with wrights := [(0, { out := true, draining := some ref3, run := some (atStep {}) })] }).hub.helm.held = []
      ∧ (hubbed fun h => { h with wrights := [(0, { out := true, draining := some ref3, run := some (atStep {}) })] }).hub.helm.sems = [])
    ∧ (by_ (managed (pack [(8, 0x43), (248, 0)]) fun h => { h with wrights := [(0, { out := true, mem := [(0, 7)] })] }) ref3 (entry3 (pack [(8, 0x43), (248, 0)])) 0x43
      ∧ 0 = bits (entry3 (pack [(8, 0x43), (248, 0)])).word 263 256
      ∧ (managed (pack [(8, 0x43), (248, 0)]) fun h => { h with wrights := [(0, { out := true, mem := [(0, 7)] })] }).work.itemInPool ref3 1 0 = true
      ∧ ((managed (pack [(8, 0x43), (248, 0)]) fun h => { h with wrights := [(0, { out := true, mem := [(0, 7)] })] }).work.wright 0).out = true
      ∧ ((managed (pack [(8, 0x43), (248, 0)]) fun h => { h with wrights := [(0, { out := true, mem := [(0, 7)] })] }).work.wright 0).run = none)
    ∧ (by_ (managed (pack [(8, 0x43), (248, 0)]) fun h => { h with wrights := [(0, { out := true })] }) ref3 (entry3 (pack [(8, 0x43), (248, 0)])) 0x43
      ∧ 0 = bits (entry3 (pack [(8, 0x43), (248, 0)])).word 263 256
      ∧ (managed (pack [(8, 0x43), (248, 0)]) fun h => { h with wrights := [(0, { out := true })] }).work.itemInPool ref3 1 0 = true
      ∧ ((managed (pack [(8, 0x43), (248, 0)]) fun h => { h with wrights := [(0, { out := true })] }).work.wright 0).out = true
      ∧ ((managed (pack [(8, 0x43), (248, 0)]) fun h => { h with wrights := [(0, { out := true })] }).work.wright 0).run = none)
    ∧ (by_ (managed (pack [(8, 0x44), (248, 0), (5, 0), (4, 3)]) fun h => { h with sites := [(0, full)], board := { h.board with sites := 1 } }) ref3 (entry3 (pack [(8, 0x44), (248, 0), (5, 0), (4, 3)])) 0x44
      ∧ 0 = bits (entry3 (pack [(8, 0x44), (248, 0), (5, 0), (4, 3)])).word 260 256
      ∧ 3 = bits (entry3 (pack [(8, 0x44), (248, 0), (5, 0), (4, 3)])).word 264 261
      ∧ (managed (pack [(8, 0x44), (248, 0), (5, 0), (4, 3)]) fun h => { h with sites := [(0, full)], board := { h.board with sites := 1 } }).work.itemInPool ref3 0 0 = true
      ∧ siteServing ((managed (pack [(8, 0x44), (248, 0), (5, 0), (4, 3)]) fun h => { h with sites := [(0, full)], board := { h.board with sites := 1 } }).work.site 0) = true
      ∧ ((managed (pack [(8, 0x44), (248, 0), (5, 0), (4, 3)]) fun h => { h with sites := [(0, full)], board := { h.board with sites := 1 } }).work.bundle 0 3).active = true
      ∧ ((managed (pack [(8, 0x44), (248, 0), (5, 0), (4, 3)]) fun h => { h with sites := [(0, full)], board := { h.board with sites := 1 } }).work.bundle 0 3).retraining = false
      ∧ ((managed (pack [(8, 0x44), (248, 0), (5, 0), (4, 3)]) fun h => { h with sites := [(0, full)], board := { h.board with sites := 1 } }).work.site 0).recal = none
      ∧ ((managed (pack [(8, 0x44), (248, 0), (5, 0), (4, 3)]) fun h => { h with sites := [(0, full)], board := { h.board with sites := 1 } }).work.site 0).link.limp = .off
      ∧ othersOf ((managed (pack [(8, 0x44), (248, 0), (5, 0), (4, 3)]) fun h => { h with sites := [(0, full)], board := { h.board with sites := 1 } }).work.site 0).link 3 ≠ []) := by
  (repeat' apply And.intro) <;> decide +kernel

theorem test_tenantEvents :
  let waits (s : State) (e : EntryRef) (x : RingEntry) : Prop := s.work.started e = some x ∧ (s.work.ring e.berth e.ring).px2 = false ∧ bit x.word 15 = false ∧ bit x.word 13 = false ∧ s.Calm
  let alone (s : State) (n : Nat) : Prop := s.Calm ∧ (s.work.site n).recal = none ∧ (s.work.site n).port.tokIns = [] ∧ (s.work.site n).port.tokQueue = [] ∧ siteServing (s.work.site n) = true
    ∧ (s.work.site n).power.quiescing = true ∧ s.hub.helm.waiters = [] ∧ s.hub.helm.held = [] ∧ s.hub.helm.sems = []
  (waits (issued 0x0A fun h => { h with tables := [(5, { table4 with removing := true, removeEntry := some ref3, aborted := 2 })] }) ref3 (entry3 0x0A)
      ∧ (issued 0x0A fun h => { h with tables := [(5, { table4 with removing := true, removeEntry := some ref3, aborted := 2 })] }).work.table 5 = some ({ table4 with removing := true, removeEntry := some ref3, aborted := 2 })
      ∧ ({ table4 with removing := true, removeEntry := some ref3, aborted := 2 }).removing = true
      ∧ ({ table4 with removing := true, removeEntry := some ref3, aborted := 2 }).removeEntry = some ref3
      ∧ (issued 0x0A fun h => { h with tables := [(5, { table4 with removing := true, removeEntry := some ref3, aborted := 2 })] }).work.tableOpen 5 = false)
    ∧ (waits (issued 0x11 fun h => { h with packs := [(9, { removing := true, removeEntry := some ref3 })] }) ref3 (entry3 0x11)
      ∧ tfind (issued 0x11 fun h => { h with packs := [(9, { removing := true, removeEntry := some ref3 })] }).hub.packs 9 = some (({ removing := true, removeEntry := some ref3 } : Pack))
      ∧ (({ removing := true, removeEntry := some ref3 } : Pack)).removing = true
      ∧ (({ removing := true, removeEntry := some ref3 } : Pack)).removeEntry = some ref3
      ∧ (issued 0x11 fun h => { h with packs := [(9, { removing := true, removeEntry := some ref3 })] }).work.packBusy 9 = false)
    ∧ (waits (issued 0x05 fun h => { h with recipes := [(9, { removing := true, removeEntry := some ref3 })], wrights := [(1, { resident := some 9 })] }) ref3 (entry3 0x05)
      ∧ tfind (issued 0x05 fun h => { h with recipes := [(9, { removing := true, removeEntry := some ref3 })], wrights := [(1, { resident := some 9 })] }).hub.recipes 9 = some (({ removing := true, removeEntry := some ref3 } : Recipe))
      ∧ (({ removing := true, removeEntry := some ref3 } : Recipe)).removing = true
      ∧ (({ removing := true, removeEntry := some ref3 } : Recipe)).removeEntry = some ref3
      ∧ (issued 0x05 fun h => { h with recipes := [(9, { removing := true, removeEntry := some ref3 })], wrights := [(1, { resident := some 9 })] }).work.recipeBusy 9 = false)
    ∧ ((hubbed fun h => { h with wrights := [(0, { run := some { atStep {} with phase := .ending, status := stStopped } })] }).Calm
      ∧ ((hubbed fun h => { h with wrights := [(0, { run := some { atStep {} with phase := .ending, status := stStopped } })] }).work.wright 0).run = some ({ atStep {} with phase := .ending, status := stStopped })
      ∧ ({ atStep {} with phase := .ending, status := stStopped }).phase = .ending
      ∧ ({ atStep {} with phase := .ending, status := stStopped }).status = stStopped ∨ ({ atStep {} with phase := .ending, status := stStopped }).status = stEngineOut
      ∧ ((hubbed fun h => { h with wrights := [(0, { run := some { atStep {} with phase := .ending, status := stStopped } })] }).work.wright 0).accesses = []
      ∧ ((hubbed fun h => { h with wrights := [(0, { run := some { atStep {} with phase := .ending, status := stStopped } })] }).work.wright 0).queue = []
      ∧ ((hubbed fun h => { h with wrights := [(0, { run := some { atStep {} with phase := .ending, status := stStopped } })] }).work.wright 0).draining = none
      ∧ ((hubbed fun h => { h with wrights := [(0, { run := some { atStep {} with phase := .ending, status := stStopped } })] }).work.wright 0).stopEntries = []
      ∧ ({ atStep {} with phase := .ending, status := stStopped }).current = none
      ∧ ((hubbed fun h => { h with wrights := [(0, { run := some { atStep {} with phase := .ending, status := stStopped } })] }).work.wright 0).inbox = []
      ∧ (hubbed fun h => { h with wrights := [(0, { run := some { atStep {} with phase := .ending, status := stStopped } })] }).work.started ({ atStep {} with phase := .ending, status := stStopped }).launch.entry = none)
    ∧ (alone (sited { full with power := { full.power with quiescing := true } }) 0
      ∧ ((sited { full with power := { full.power with quiescing := true } }).work.site 0).restart = false
      ∧ ((sited { full with power := { full.power with quiescing := true } }).work.site 0).outEntry = none)
    ∧ (alone (sited { full with power := { full.power with quiescing := true } }) 0
      ∧ (Instr.sbQuiesceDone 0 false) ∈ [Instr.sbQuiesceDone 0 false, .quiesceTimeout 0])
    ∧ (alone (sited { full with power := { full.power with quiescing := true } }) 0
      ∧ (Instr.quiesceTimeout 0) ∈ [Instr.sbQuiesceDone 0 false, .quiesceTimeout 0])
    ∧ ((hubbed fun h => { h with sites := [(0, { full with state := 4, reclaiming := true })], ledger := { h.ledger with reclaiming := [0] }, fabric := { h.fabric with rsps := [(1, { site := 0 })] } }).Calm
      ∧ ((hubbed fun h => { h with sites := [(0, { full with state := 4, reclaiming := true })], ledger := { h.ledger with reclaiming := [0] }, fabric := { h.fabric with rsps := [(1, { site := 0 })] } }).work.site 0).state = 4
      ∧ ((hubbed fun h => { h with sites := [(0, { full with state := 4, reclaiming := true })], ledger := { h.ledger with reclaiming := [0] }, fabric := { h.fabric with rsps := [(1, { site := 0 })] } }).work.site 0).reclaiming = true
      ∧ (hubbed fun h => { h with sites := [(0, { full with state := 4, reclaiming := true })], ledger := { h.ledger with reclaiming := [0] }, fabric := { h.fabric with rsps := [(1, { site := 0 })] } }).work.siteBusy 0 = false
      ∧ ((hubbed fun h => { h with sites := [(0, { full with state := 4, reclaiming := true })], ledger := { h.ledger with reclaiming := [0] }, fabric := { h.fabric with rsps := [(1, { site := 0 })] } }).work.site 0).outEntry = none
      ∧ (hubbed fun h => { h with sites := [(0, { full with state := 4, reclaiming := true })], ledger := { h.ledger with reclaiming := [0] }, fabric := { h.fabric with rsps := [(1, { site := 0 })] } }).hub.ledger.entries = []
      ∧ (hubbed fun h => { h with sites := [(0, { full with state := 4, reclaiming := true })], ledger := { h.ledger with reclaiming := [0] }, fabric := { h.fabric with rsps := [(1, { site := 0 })] } }).hub.ledger.txns = []
      ∧ (hubbed fun h => { h with sites := [(0, { full with state := 4, reclaiming := true })], ledger := { h.ledger with reclaiming := [0] }, fabric := { h.fabric with rsps := [(1, { site := 0 })] } }).hub.ledger.hostTxns = []
      ∧ (hubbed fun h => { h with sites := [(0, { full with state := 4, reclaiming := true })], ledger := { h.ledger with reclaiming := [0] }, fabric := { h.fabric with rsps := [(1, { site := 0 })] } }).hub.ledger.waits = []
      ∧ (hubbed fun h => { h with sites := [(0, { full with state := 4, reclaiming := true })], ledger := { h.ledger with reclaiming := [0] }, fabric := { h.fabric with rsps := [(1, { site := 0 })] } }).hub.chart.holds = [])
    ∧ ((withBytes (hubbed fun h => { h with memory := { h.memory with parts := [(1, { mode := 3, holder := 4, busy := true })] } }) 0x004001000000 [1, 2]).Calm
      ∧ (withBytes (hubbed fun h => { h with memory := { h.memory with parts := [(1, { mode := 3, holder := 4, busy := true })] } }) 0x004001000000 [1, 2]).mem.wf = true
      ∧ (({ mode := 3, holder := 4, busy := true } : Part)) = (withBytes (hubbed fun h => { h with memory := { h.memory with parts := [(1, { mode := 3, holder := 4, busy := true })] } }) 0x004001000000 [1, 2]).work.part 1
      ∧ (({ mode := 3, holder := 4, busy := true } : Part)).busy = true
      ∧ (({ mode := 3, holder := 4, busy := true } : Part)).mode = 3 ∨ (({ mode := 3, holder := 4, busy := true } : Part)).nextMode = 3)
    ∧ ((hubbed fun h => { h with memory := { h.memory with parts := [(1, { nextMode := 1, nextHolder := 4, busy := true })] } }).Calm
      ∧ (({ nextMode := 1, nextHolder := 4, busy := true } : Part)) = (hubbed fun h => { h with memory := { h.memory with parts := [(1, { nextMode := 1, nextHolder := 4, busy := true })] } }).work.part 1
      ∧ (({ nextMode := 1, nextHolder := 4, busy := true } : Part)).busy = true
      ∧ (({ nextMode := 1, nextHolder := 4, busy := true } : Part)).mode ≠ 3
      ∧ (({ nextMode := 1, nextHolder := 4, busy := true } : Part)).nextMode ≠ 3
      ∧ (∀ l ∈ (hubbed fun h => { h with memory := { h.memory with parts := [(1, { nextMode := 1, nextHolder := 4, busy := true })] } }).hub.memory.hold, l.part ≠ 1))
    ∧ ((hubbed fun h => { h with memory := { h.memory with purging := [4] } }).Calm
      ∧ 4 ∈ (hubbed fun h => { h with memory := { h.memory with purging := [4] } }).hub.memory.purging
      ∧ (∀ l ∈ (hubbed fun h => { h with memory := { h.memory with purging := [4] } }).hub.memory.hold, l.berth ≠ 4)
      ∧ (hubbed fun h => { h with memory := { h.memory with purging := [4] } }).hub.ten.rings = [])
    ∧ ((withBytes (hubbed fun h => { h with memory := { h.memory with regions := [(1, { nextCls := 1, busy := true })] } }) 0x40000000 [1, 2]).Calm
      ∧ (withBytes (hubbed fun h => { h with memory := { h.memory with regions := [(1, { nextCls := 1, busy := true })] } }) 0x40000000 [1, 2]).mem.wf = true
      ∧ ((withBytes (hubbed fun h => { h with memory := { h.memory with regions := [(1, { nextCls := 1, busy := true })] } }) 0x40000000 [1, 2]).work.region 1).busy = true)
    ∧ (waits (issued 0x20 fun h => { h with chart := { h.chart with invals := [(2, { why := .command ref3, awaited := [(.site 1, 4)] })] } }) ref3 (entry3 0x20)
      ∧ tfind (issued 0x20 fun h => { h with chart := { h.chart with invals := [(2, { why := .command ref3, awaited := [(.site 1, 4)] })] } }).hub.chart.invals 2 = some (({ why := .command ref3, awaited := [(.site 1, 4)] } : Inval))
      ∧ (({ why := .command ref3, awaited := [(.site 1, 4)] } : Inval)).why = .command ref3
      ∧ ((({ why := .command ref3, awaited := [(.site 1, 4)] } : Inval)).awaited.any fun (a, k) => (issued 0x20 fun h => { h with chart := { h.chart with invals := [(2, { why := .command ref3, awaited := [(.site 1, 4)] })] } }).work.transferOpen a k) = false)
    ∧ ((hubbed fun h => { h with chart := { h.chart with invals := [(2, { why := .ats { port := 1 } })] } }).Calm
      ∧ tfind (hubbed fun h => { h with chart := { h.chart with invals := [(2, { why := .ats { port := 1 } })] } }).hub.chart.invals 2 = some (({ why := .ats { port := 1 } } : Inval))
      ∧ (({ why := .ats { port := 1 } } : Inval)).why = .ats (({ port := 1 } : FuncRef))
      ∧ ((({ why := .ats { port := 1 } } : Inval)).awaited.any fun (a, k) => (hubbed fun h => { h with chart := { h.chart with invals := [(2, { why := .ats { port := 1 } })] } }).work.transferOpen a k) = false)
    ∧ ((sited { full with recalling := [4] }).Calm
      ∧ 4 ∈ ((sited { full with recalling := [4] }).work.site 0).recalling
      ∧ (sited { full with recalling := [4] }).hub.ledger.entries = []
      ∧ (sited { full with recalling := [4] }).hub.ledger.txns = [])
    ∧ ((hubbed fun h => { h with ten := { h.ten with berths := [(5, { state := .closing, closeStep := 8 })] } }).hub.hawser.inbound = []
      ∧ (hubbed fun h => { h with ten := { h.ten with berths := [(5, { state := .closing, closeStep := 8 })] } }).hub.ten.withdrawals = []
      ∧ (hubbed fun h => { h with ten := { h.ten with berths := [(5, { state := .closing, closeStep := 8 })] } }).hub.memory.retiring = []
      ∧ (hubbed fun h => { h with ten := { h.ten with berths := [(5, { state := .closing, closeStep := 8 })] } }).hub.memory.scrubs = []
      ∧ (hubbed fun h => { h with ten := { h.ten with berths := [(5, { state := .closing, closeStep := 8 })] } }).hub.ten.berths = [(5, (({ state := .closing, closeStep := 8 } : Berth)))]
      ∧ (({ state := .closing, closeStep := 8 } : Berth)).unbind = none
      ∧ (({ state := .closing, closeStep := 8 } : Berth)).state = .closing
      ∧ (({ state := .closing, closeStep := 8 } : Berth)).closeStep = 8
      ∧ (hubbed fun h => { h with ten := { h.ten with berths := [(5, { state := .closing, closeStep := 8 })] } }).hub.ledger.entries = []
      ∧ (hubbed fun h => { h with ten := { h.ten with berths := [(5, { state := .closing, closeStep := 8 })] } }).hub.ledger.txns = []
      ∧ (hubbed fun h => { h with ten := { h.ten with berths := [(5, { state := .closing, closeStep := 8 })] } }).hub.memory.hold = [])
    ∧ ((withBytes (hubbed fun h => { h with memory := { h.memory with scrubs := [(2, { runs := [(4, 1)], key := 9 })] }, ten := { h.ten with berths := [] } }) 0x40000 [1]).hub.hawser.inbound = []
      ∧ (withBytes (hubbed fun h => { h with memory := { h.memory with scrubs := [(2, { runs := [(4, 1)], key := 9 })] }, ten := { h.ten with berths := [] } }) 0x40000 [1]).hub.ten.withdrawals = []
      ∧ (withBytes (hubbed fun h => { h with memory := { h.memory with scrubs := [(2, { runs := [(4, 1)], key := 9 })] }, ten := { h.ten with berths := [] } }) 0x40000 [1]).hub.memory.retiring = []
      ∧ (withBytes (hubbed fun h => { h with memory := { h.memory with scrubs := [(2, { runs := [(4, 1)], key := 9 })] }, ten := { h.ten with berths := [] } }) 0x40000 [1]).hub.ten.berths = []
      ∧ (withBytes (hubbed fun h => { h with memory := { h.memory with scrubs := [(2, { runs := [(4, 1)], key := 9 })] }, ten := { h.ten with berths := [] } }) 0x40000 [1]).mem.wf = true
      ∧ (withBytes (hubbed fun h => { h with memory := { h.memory with scrubs := [(2, { runs := [(4, 1)], key := 9 })] }, ten := { h.ten with berths := [] } }) 0x40000 [1]).hub.memory.scrubs = [(2, (({ runs := [(4, 1)], key := 9 } : ScrubJob)))]
      ∧ (channelOf 0x40000) < 128
      ∧ channelServes ((withBytes (hubbed fun h => { h with memory := { h.memory with scrubs := [(2, { runs := [(4, 1)], key := 9 })] }, ten := { h.ten with berths := [] } }) 0x40000 [1]).work.channel (channelOf 0x40000)) = true
      ∧ scrubGranule (({ runs := [(4, 1)], key := 9 } : ScrubJob)) (channelOf 0x40000) = some 1024
      ∧ 1 < 128
      ∧ 1 ≠ (channelOf 0x40000)
      ∧ channelServes ((withBytes (hubbed fun h => { h with memory := { h.memory with scrubs := [(2, { runs := [(4, 1)], key := 9 })] }, ten := { h.ten with berths := [] } }) 0x40000 [1]).work.channel 1) = true
      ∧ tget 0 (({ runs := [(4, 1)], key := 9 } : ScrubJob)).written 1 < 2 * runsLength (({ runs := [(4, 1)], key := 9 } : ScrubJob)).runs) := by
  (repeat' apply And.intro) <;> decide +kernel

theorem test_attestation :
  let ready (s : State) (p : Transport) : Prop := s.work.spdmUp p = true ∧ (s.work.spdmOf p).negotiated = true
  let inside (s : State) (p : Transport) (n : Nat) : Prop := s.work.spdmUp p = true ∧ (s.work.spdmOf p).negotiated = true ∧ ((s.work.spdmOf p).sessions.any fun (i, ok, _) => i = n && ok) = true
  ((attested {}).work.spdmUp Transport.i3c = true)
    ∧ ((attested { versioned := true }).work.spdmUp Transport.i3c = true
      ∧ ((attested { versioned := true }).work.spdmOf Transport.i3c).versioned = true)
    ∧ ((attested { versioned := true, capable := true }).work.spdmUp Transport.i3c = true
      ∧ ((attested { versioned := true, capable := true }).work.spdmOf Transport.i3c).capable = true)
    ∧ (ready (attested { negotiated := true }) Transport.i3c)
    ∧ (ready (attested { negotiated := true }) Transport.i3c
      ∧ (attested { negotiated := true }).work.hasChain 0 = true)
    ∧ (ready (attested { negotiated := true }) Transport.i3c
      ∧ 7 ∈ measIndices)
    ∧ (ready (attested { negotiated := true }) Transport.i3c
      ∧ ((attested { negotiated := true }).work.spdmOf Transport.i3c).sessions.length < 2)
    ∧ (ready (attested { negotiated := true, sessions := [(1, true, 0), (2, false, 0)], nextSession := 3 }) Transport.i3c
      ∧ 2 ≤ ((attested { negotiated := true, sessions := [(1, true, 0), (2, false, 0)], nextSession := 3 }).work.spdmOf Transport.i3c).sessions.length)
    ∧ (ready (attested { negotiated := true, sessions := [(1, true, 0), (2, false, 0)], nextSession := 3 }) Transport.i3c
      ∧ (((attested { negotiated := true, sessions := [(1, true, 0), (2, false, 0)], nextSession := 3 }).work.spdmOf Transport.i3c).sessions.any fun (i, ok, _) => i = 2 && !ok) = true)
    ∧ (ready (attested { negotiated := true, sessions := [(1, true, 0), (2, false, 0)], nextSession := 3 }) Transport.i3c
      ∧ (((attested { negotiated := true, sessions := [(1, true, 0), (2, false, 0)], nextSession := 3 }).work.spdmOf Transport.i3c).sessions.any fun (i, ok, _) => i = 2 && !ok) = true)
    ∧ (inside (attested { negotiated := true, sessions := [(1, true, 0)] }) Transport.i3c 1)
    ∧ (inside (attested { negotiated := true, sessions := [(1, true, 0)] }) Transport.i3c 1)
    ∧ (inside (attested { negotiated := true, sessions := [(1, true, 0)] }) Transport.i3c 1)
    ∧ (ready (attested { negotiated := true }) Transport.i3c
      ∧ 4 < 4096) := by
  (repeat' apply And.intro) <;> decide +kernel

theorem test_orders :
  let passes (s : State) (o : OrderHdr) (code role : Nat) : Prop := s.Calm ∧ s.work.mute = false ∧ s.hub.start.state = 1 ∧ o.order = code ∧ s.work.orderBad o role = none
  let purser (s t : State) : Prop := Exactly s t (fun h => { h with purser := t.hub.purser, sent := t.hub.sent })
  ((serving id).work.mute = false)
    ∧ ((serving id).hub.start.hubRstN = true
      ∧ (serving id).work.lc ≠ 5)
    ∧ (passes (serving id) (order7 0x10) 0x0010 0
      ∧ powerOk (({ siteW := List.replicate 16 50 } : PowerBody)) = true
      ∧ (∀ n < 16, siteServing ((serving id).work.site n) = false))
    ∧ (passes (serving id) (order7 0x11) 0x0011 1
      ∧ (({ port := 1 } : Pool)).port < 4
      ∧ (({ port := 1 } : Pool)).berthCount ≤ 16384
      ∧ (serving id).work.poolRefused (({ port := 1 } : Pool)) = false
      ∧ (serving id).work.poolLeaves ((serving id).work.pool (({ port := 1 } : Pool)).port) (({ port := 1 } : Pool)) (({ port := 1 } : Pool)).port = [])
    ∧ (passes (serving id) (order7 0x12) 0x0012 1
      ∧ 1 < 4
      ∧ 9 < 4096
      ∧ ((serving id).hub.ten.mgrNext.set 1 9).Nodup)
    ∧ (passes (serving id) (order7 0x20) 0x0020 2
      ∧ (serving id).hub.purser.intent = none
      ∧ lcState 0xFF = some 2
      ∧ lcAllowed (serving id).work.lc 2 = true
      ∧ (order7 0x20).cred ≠ 0)
    ∧ (passes (serving id) (order7 0x28) 0x0028 3
      ∧ (serving id).hub.purser.intent = none
      ∧ (({ sites := 0xFF, hawser := 3, floor := 2 } : Warrant)).version = 1
      ∧ (({ sites := 0xFF, hawser := 3, floor := 2 } : Warrant)).sigOk = true
      ∧ (({ sites := 0xFF, hawser := 3, floor := 2 } : Warrant)).serial = (serving id).hub.purser.serial
      ∧ (({ sites := 0xFF, hawser := 3, floor := 2 } : Warrant)).rsvdZero = true
      ∧ (({ sites := 0xFF, hawser := 3, floor := 2 } : Warrant)).floor ≤ 64
      ∧ (popcount (({ sites := 0xFF, hawser := 3, floor := 2 } : Warrant)).sites 16 = 8 ∨ popcount (({ sites := 0xFF, hawser := 3, floor := 2 } : Warrant)).sites 16 = 16)
      ∧ (({ sites := 0xFF, hawser := 3, floor := 2 } : Warrant)).sites < 2 ^ 16
      ∧ (({ sites := 0xFF, hawser := 3, floor := 2 } : Warrant)).hawser < 2 ^ 8
      ∧ (serving id).hub.purser.warrantTherm ≤ (({ sites := 0xFF, hawser := 3, floor := 2 } : Warrant)).floor)
    ∧ (passes (serving id) (order7 0x30) 0x0030 4
      ∧ 3 < 8
      ∧ (serving id).work.lc ≠ 2)
    ∧ (passes (serving fun h => { h with purser := { h.purser with lcCode := 0xFF }, ten := { h.ten with berths := (5, { state := .open }) :: h.ten.berths } }) (order7 0x30) 0x0030 4
      ∧ 3 < 8
      ∧ (serving fun h => { h with purser := { h.purser with lcCode := 0xFF }, ten := { h.ten with berths := (5, { state := .open }) :: h.ten.berths } }).work.lc = 2
      ∧ (serving fun h => { h with purser := { h.purser with lcCode := 0xFF }, ten := { h.ten with berths := (5, { state := .open }) :: h.ten.berths } }).work.openTenants ≠ [])
    ∧ (passes (serving fun h => { h with purser := { h.purser with debugOpen := true } }) (order7 0x31) 0x0031 4)
    ∧ (passes (serving id) (order7 0x38) 0x0038 5
      ∧ (List.replicate 7 ({ key := 9, roles := 1 } : Cred)).length = 7
      ∧ (∀ c ∈ (List.replicate 7 ({ key := 9, roles := 1 } : Cred)), c.roles < 256)
      ∧ (serving id).hub.purser.credTherm < 3
      ∧ 3 ≤ 64)
    ∧ (passes (serving id) (order7 0x39) 0x0039 5
      ∧ (serving id).work.lc = 1 ∨ (serving id).work.lc = 2
      ∧ ([1, 2, 3]).length ≤ 2048)
    ∧ ((serving id).Calm
      ∧ (serving id).work.mute = false
      ∧ (serving id).hub.start.state = 1
      ∧ ((Instr.powerLimit { order7 0x10 with nonce := 8 } {}), 0x10, 0) ∈ [(Instr.powerLimit ({ order7 0x10 with nonce := 8 }) (({} : PowerBody)), 0x0010, 0), (.poolWrite ({ order7 0x10 with nonce := 8 }) (({} : Pool)), 0x0011, 1), (.mgrSet ({ order7 0x10 with nonce := 8 }) [], 0x0012, 1), (.lcTransition ({ order7 0x10 with nonce := 8 }) 0 true, 0x0020, 2), (.debugOpen ({ order7 0x10 with nonce := 8 }) 0 [], 0x0030, 4), (.debugClose ({ order7 0x10 with nonce := 8 }), 0x0031, 4), (.certSet ({ order7 0x10 with nonce := 8 }) [], 0x0039, 5)]
      ∧ ({ order7 0x10 with nonce := 8 }).order = 0x10
      ∧ (serving id).work.orderBad ({ order7 0x10 with nonce := 8 }) 0 = some 0x12)
    ∧ ((serving id).Calm
      ∧ (serving id).work.mute = false
      ∧ (serving id).hub.start.state = 1
      ∧ ((Instr.certSet { order7 0x39 with viaEthernet := false } []), 0x39, 5) ∈ [(Instr.powerLimit ({ order7 0x39 with viaEthernet := false }) (({} : PowerBody)), 0x0010, 0), (.poolWrite ({ order7 0x39 with viaEthernet := false }) (({} : Pool)), 0x0011, 1), (.mgrSet ({ order7 0x39 with viaEthernet := false }) [], 0x0012, 1), (.lcTransition ({ order7 0x39 with viaEthernet := false }) 0 true, 0x0020, 2), (.debugOpen ({ order7 0x39 with viaEthernet := false }) 0 [], 0x0030, 4), (.debugClose ({ order7 0x39 with viaEthernet := false }), 0x0031, 4), (.certSet ({ order7 0x39 with viaEthernet := false }) [], 0x0039, 5)]
      ∧ ({ order7 0x39 with viaEthernet := false }).order = 0x39
      ∧ (serving id).work.orderBad ({ order7 0x39 with viaEthernet := false }) 5 = some 0x13) := by
  (repeat' apply And.intro) <;> decide +kernel

theorem test_hubOrders :
  let passes (s : State) (o : OrderHdr) (code role : Nat) : Prop := s.Calm ∧ s.work.mute = false ∧ s.work.svcPaused = false ∧ s.hub.start.state = 1 ∧ o.order = code ∧ s.work.orderBad o role = none
  (passes (serving fun h => { h with mlog := { h.mlog with store := [(2, 77)] } }) (order7 0x50) 0x0050 7
      ∧ 0 < 3
      ∧ 3 ≤ 240
      ∧ 1 < 65536
      ∧ (serving fun h => { h with mlog := { h.mlog with store := [(2, 77)] } }).hub.mlog.gapCount = 0)
    ∧ (passes (serving id) (order7 0x52) 0x0052 7
      ∧ (serving id).work.resetHeldOff = false
      ∧ (serving id).mem.wf = true)
    ∧ (passes (served1 id) (order7 0x56) 0x0056 7
      ∧ 0 < 16
      ∧ siteServing ((served1 id).work.site 0) = true
      ∧ ((served1 id).work.site 0).recal = none
      ∧ ((served1 id).work.site 0).port.tokIns = []
      ∧ ((served1 id).work.site 0).port.tokQueue = []
      ∧ (served1 id).hub.helm.waiters = [] ∧ (served1 id).hub.helm.held = []
      ∧ (served1 id).hub.helm.sems = [])
    ∧ (passes (serving id) (order7 0x57) 0x0057 7)
    ∧ (passes (serving id) (order7 0x53) 0x0053 7
      ∧ 3 < 64
      ∧ ((serving id).work.wright 3).out = false
      ∧ ((serving id).work.wright 3).run = none
      ∧ ((serving id).work.wright 3).queue = []
      ∧ (serving id).hub.helm.waiters = [] ∧ (serving id).hub.helm.held = []
      ∧ (serving id).hub.helm.sems = [])
    ∧ (passes (serving fun h => { h with wrights := [(3, { out := true, mem := [(1, 1)] })] }) (order7 0x54) 0x0054 7
      ∧ 3 < 64
      ∧ ((serving fun h => { h with wrights := [(3, { out := true, mem := [(1, 1)] })] }).work.wright 3).out = true
      ∧ ((serving fun h => { h with wrights := [(3, { out := true, mem := [(1, 1)] })] }).work.wright 3).failed = false
      ∧ ((serving fun h => { h with wrights := [(3, { out := true, mem := [(1, 1)] })] }).work.wright 3).run = none)
    ∧ (passes (serving fun h => { h with ports := [(0, { port0 with heldOut := true })] }) (order7 0x54) 0x0054 7
      ∧ 0 < 4)
    ∧ (passes (served1 id) (order7 0x55) 0x0055 7
      ∧ 0 < 16
      ∧ 3 < 16
      ∧ siteServing ((served1 id).work.site 0) = true
      ∧ ((served1 id).work.bundle 0 3).active = true
      ∧ ((served1 id).work.bundle 0 3).retraining = false
      ∧ ((served1 id).work.site 0).link.limp = .off
      ∧ othersOf ((served1 id).work.site 0).link 3 ≠ [])
    ∧ (passes (serving id) (order7 0x40) 0x0040 6
      ∧ 4096 ≤ 4096
      ∧ 4096 ≤ 2 ^ 25)
    ∧ (passes (serving fun h => { h with start := { h.start with transfer := some { len := 4096 } } }) (order7 0x41) 0x0041 6
      ∧ (serving fun h => { h with start := { h.start with transfer := some { len := 4096 } } }).hub.start.transfer = some (({ len := 4096 } : Transfer))
      ∧ (({ len := 4096 } : Transfer)).recovery = false
      ∧ ([1, 2]).length ≤ 7936
      ∧ 128 + ([1, 2]).length ≤ (({ len := 4096 } : Transfer)).len)
    ∧ (passes (serving fun h => { h with start := { h.start with flashValid := false, transfer := some { len := 4096 } } }) (order7 0x42) 0x0042 6
      ∧ (serving fun h => { h with start := { h.start with flashValid := false, transfer := some { len := 4096 } } }).hub.start.transfer = some (({ len := 4096 } : Transfer))
      ∧ (({ len := 4096 } : Transfer)).recovery = false
      ∧ imageBad image4 = none)
    ∧ (passes (serving id) (order7 0x43) 0x0043 6
      ∧ (serving id).hub.svc.replacing = none
      ∧ 1 < 3
      ∧ 0 < 8
      ∧ (serving id).hub.start.flashValid = true
      ∧ imageBad image4 = none)
    ∧ ((serving fun h => { h with svc := { h.svc with order := 0x43, replacing := some (0, 0), partly := true, replaceNonce := 9, replaceVersion := 4 } }).Calm
      ∧ (serving fun h => { h with svc := { h.svc with order := 0x43, replacing := some (0, 0), partly := true, replaceNonce := 9, replaceVersion := 4 } }).hub.svc.replacing = some (0, 0)
      ∧ (serving fun h => { h with svc := { h.svc with order := 0x43, replacing := some (0, 0), partly := true, replaceNonce := 9, replaceVersion := 4 } }).work.replaceDrained 0 0 = true
      ∧ (serving fun h => { h with svc := { h.svc with order := 0x43, replacing := some (0, 0), partly := true, replaceNonce := 9, replaceVersion := 4 } }).hub.heldOrders = []) := by
  (repeat' apply And.intro) <;> decide +kernel

theorem test_starts :
  let assured (s : State) : Prop := s.Calm ∧ s.work.serves = true ∧ s.hub.svc.assured = true
  let idle (s : State) (g : Nat) : Prop := s.work.wrightServes g = true ∧ (s.work.wright g).run = none ∧ (s.work.wright g).queue = [] ∧ s.hub.helm.waiters = [] ∧ s.hub.helm.held = [] ∧ s.hub.helm.sems = []
  ((serving fun h => { h with purser := { h.purser with intent := some { source := 0xF, target := 0xFF, burning := true, nonce := 7 } } }).Calm
      ∧ (serving fun h => { h with purser := { h.purser with intent := some { source := 0xF, target := 0xFF, burning := true, nonce := 7 } } }).hub.purser.intent = some (({ source := 0xF, target := 0xFF, burning := true, nonce := 7 } : Intent))
      ∧ (({ source := 0xF, target := 0xFF, burning := true, nonce := 7 } : Intent)).burning = true
      ∧ (({ source := 0xF, target := 0xFF, burning := true, nonce := 7 } : Intent)).source ||| (0xFF &&& (({ source := 0xF, target := 0xFF, burning := true, nonce := 7 } : Intent)).target) = (({ source := 0xF, target := 0xFF, burning := true, nonce := 7 } : Intent)).target
      ∧ (serving fun h => { h with purser := { h.purser with intent := some { source := 0xF, target := 0xFF, burning := true, nonce := 7 } } }).hub.start.resetHeld = false
      ∧ (∀ p < 4, ((serving fun h => { h with purser := { h.purser with intent := some { source := 0xF, target := 0xFF, burning := true, nonce := 7 } } }).work.port p).perstHeld = false))
    ∧ ((serving fun h => { h with purser := { h.purser with intent := some { source := 0xF, target := 0xFF, burning := true, nonce := 7 } } }).Calm
      ∧ (serving fun h => { h with purser := { h.purser with intent := some { source := 0xF, target := 0xFF, burning := true, nonce := 7 } } }).hub.purser.intent = some (({ source := 0xF, target := 0xFF, burning := true, nonce := 7 } : Intent))
      ∧ (({ source := 0xF, target := 0xFF, burning := true, nonce := 7 } : Intent)).burning = true
      ∧ (({ source := 0xF, target := 0xFF, burning := true, nonce := 7 } : Intent)).source ||| (0x1F &&& (({ source := 0xF, target := 0xFF, burning := true, nonce := 7 } : Intent)).target) ≠ (({ source := 0xF, target := 0xFF, burning := true, nonce := 7 } : Intent)).target
      ∧ (({ source := 0xF, target := 0xFF, burning := true, nonce := 7 } : Intent)).retried = false)
    ∧ ((served1 id).hub.start.hubRstN = true
      ∧ (served1 id).work.resetHeldOff = false)
    ∧ ((serving id).hub.start.hubRstN = true
      ∧ (serving id).work.resetHeldOff = false)
    ∧ ((held id).Calm
      ∧ (({ strapRecovery := true } : StartEvent)).powerOn = false
      ∧ (held id).work.mayLeaveReset = true
      ∧ lcState (held id).hub.purser.fuseCode = some 1
      ∧ 1 ≠ 4
      ∧ (({ strapRecovery := true } : StartEvent)).strapRecovery = true)
    ∧ ((held id).Calm
      ∧ (held id).work.mayLeaveReset = true
      ∧ lcState (held id).hub.purser.fuseCode = some 1
      ∧ 1 ≠ 4
      ∧ (held id).hub.start.flashValid = true
      ∧ (held id).hub.start.stored.valid = true
      ∧ (held id).hub.start.stored.units = []
      ∧ (held id).hub.start.coldPending = false
      ∧ (held id).hub.start.fuses.lanes = []
      ∧ (held id).hub.start.fuses.wrights = []
      ∧ (held id).hub.sites = []
      ∧ (held id).hub.purser.intent = none
      ∧ 28 ≤ (held id).hub.memory.rate
      ∧ (held id).hub.memory.clamshell = false
      ∧ (held id).hub.start.stored.rates = [])
    ∧ ((served1 fun h => { h with start := { h.start with state := 0, step := 5 } }).Calm
      ∧ (served1 fun h => { h with start := { h.start with state := 0, step := 5 } }).work.startRuns = true
      ∧ (served1 fun h => { h with start := { h.start with state := 0, step := 5 } }).hub.start.cold = false
      ∧ ((List.range 16).any fun n => siteServing ((served1 fun h => { h with start := { h.start with state := 0, step := 5 } }).work.site n)) = true
      ∧ (served1 fun h => { h with start := { h.start with state := 0, step := 5 } }).hub.heldOrders = [])
    ∧ ((serving fun h => { h with start := { h.start with state := 0, step := 5, restarted := true } }).Calm
      ∧ (serving fun h => { h with start := { h.start with state := 0, step := 5, restarted := true } }).work.startRuns = true
      ∧ (serving fun h => { h with start := { h.start with state := 0, step := 5, restarted := true } }).hub.start.restarted = true)
    ∧ ((serving fun h => { h with start := { h.start with seqA := 3, seqB := 4, profile := { h.start.profile with pendingWrite := true } } }).Calm
      ∧ (serving fun h => { h with start := { h.start with seqA := 3, seqB := 4, profile := { h.start.profile with pendingWrite := true } } }).work.serves = true
      ∧ (serving fun h => { h with start := { h.start with seqA := 3, seqB := 4, profile := { h.start.profile with pendingWrite := true } } }).hub.start.profile.pendingWrite = true
      ∧ (serving fun h => { h with start := { h.start with seqA := 3, seqB := 4, profile := { h.start.profile with pendingWrite := true } } }).hub.start.lastWrite = none)
    ∧ ((serving fun h => { h with board := { h.board with railsBad := [2] } }).Calm)
    ∧ ((held id).Calm
      ∧ 2 < 9
      ∧ 2 ∉ (held id).hub.board.clocksLost
      ∧ (held id).hub.start.hubRstN = false)
    ∧ (8 ∉ (serving id).hub.board.clocksLost
      ∧ (serving id).hub.start.hubRstN = true
      ∧ (serving id).work.resetHeldOff = false)
    ∧ ((serving fun h => { h with board := { h.board with clocksLost := [2] } }).Calm)
    ∧ (assured (serving fun h => { h with svc := { h.svc with assured := true } }))
    ∧ (assured (serving fun h => { h with svc := { h.svc with assured := true } })
      ∧ idle (serving fun h => { h with svc := { h.svc with assured := true } }) 2)
    ∧ ((serving id).Calm
      ∧ (serving id).work.serves = true
      ∧ idle (serving id) 2)
    ∧ (assured (serving fun h => { h with svc := { h.svc with assured := true } }))
    ∧ ((serving id).Calm
      ∧ (serving id).work.serves = true)
    ∧ (assured (serving fun h => { h with svc := { h.svc with assured := true } })
      ∧ 2 < 48
      ∧ 9 < 65536
      ∧ (recent (serving fun h => { h with svc := { h.svc with assured := true } }).hub.now 1000000 (tget [] (serving fun h => { h with svc := { h.svc with assured := true } }).hub.memory.rowErrors (2 * 65536 + 9))).length < 8) := by
  (repeat' apply And.intro) <;> decide +kernel

theorem test_registerWrites :
  let passes (s : State) (o : OrderHdr) : Prop := s.Calm ∧ s.work.mute = false ∧ s.work.svcPaused = false ∧ s.hub.start.state = 1 ∧ o.order = 0x0051 ∧ s.work.orderBad o 7 = none
  let apart (s : State) : Prop := s.hub.hawser.ports = [] ∧ s.hub.hawser.outstanding = [] ∧ s.hub.hawser.winWait = [] ∧ s.hub.helm.gates = []
  let host (s : State) (p : Nat) : Prop := s.Calm ∧ s.work.barOpen { port := p, func := 0 } = true ∧ (s.work.func { port := p, func := 0 }).flr = false ∧ (s.work.func { port := p, func := 0 }).d3hot = false
  let serves (s : State) (p : Nat) : Prop := host s p ∧ s.hub.start.state = 1
  (passes (serving id) (order7 0x51)
      ∧ 64 ≤ bits 100 12 0
      ∧ bits 100 12 0 ≤ 4096)
    ∧ (passes (serving id) (order7 0x51)
      ∧ apart (serving id)
      ∧ 9 < 1024)
    ∧ (passes (serving id) (order7 0x51)
      ∧ apart (serving id)
      ∧ 0x1234567890ABCDEF < 2 ^ 64)
    ∧ (passes (serving id) (order7 0x51)
      ∧ 10 ≤ 100
      ∧ 100 ≤ 10000)
    ∧ (serves (serving id) 0
      ∧ 1 ≤ bits 0x1234 9 0
      ∧ bits 0x1234 9 0 ≤ 1000
      ∧ 0x1234 < 2 ^ 64)
    ∧ ((serving id).Calm
      ∧ (serving id).hub.start.state = 1
      ∧ (serving id).work.barOpen (({ port := 0, func := 0 } : FuncRef)) = true
      ∧ ((serving id).work.func (({ port := 0, func := 0 } : FuncRef))).flr = false
      ∧ ((serving id).work.func (({ port := 0, func := 0 } : FuncRef))).d3hot = false
      ∧ ((serving id).work.func (({ port := 0, func := 0 } : FuncRef))).tdi ≠ .error
      ∧ (serving id).work.berthAt (({ port := 0, func := 0 } : FuncRef)) 0 = some 0
      ∧ 2 < 4
      ∧ ((serving id).work.ring 0 2).enable = false
      ∧ ((serving id).work.ring 0 2).state ≠ 3
      ∧ 0x12345678 < 2 ^ 64)
    ∧ (serves (serving id) 0)
    ∧ (serves (serving id) 0
      ∧ 5 < 4096
      ∧ 3 < 64
      ∧ 0 < 3
      ∧ inRun ((serving id).work.pool 0).berthFirst ((serving id).work.pool 0).berthCount 5 = true
      ∧ bit ((serving id).work.pool 0).regroups 3 = true)
    ∧ (serves (serving id) 0
      ∧ 7 < (serving id).work.regions
      ∧ 2 < 3
      ∧ bit ((serving id).work.pool 0).regions 7 = true
      ∧ 2 ≠ ((serving id).work.region 7).cls
      ∧ ((serving id).work.region 7).busy = false
      ∧ ((serving id).work.region 7).hubArea = false
      ∧ (serving id).work.regionOwned 7 = false)
    ∧ (serves (serving fun h => { h with ten := { h.ten with berths := (5, { state := .open }) :: h.ten.berths } }) 0
      ∧ 7 < 48
      ∧ bit ((serving fun h => { h with ten := { h.ten with berths := (5, { state := .open }) :: h.ten.berths } }).work.pool 0).hold 7 = true
      ∧ ((serving fun h => { h with ten := { h.ten with berths := (5, { state := .open }) :: h.ten.berths } }).work.part 7).busy = false
      ∧ ((serving fun h => { h with ten := { h.ten with berths := (5, { state := .open }) :: h.ten.berths } }).work.part 7).mode = 0
      ∧ 7 / 16 ∉ (serving fun h => { h with ten := { h.ten with berths := (5, { state := .open }) :: h.ten.berths } }).hub.memory.diesOut
      ∧ 5 < 4096
      ∧ ((serving fun h => { h with ten := { h.ten with berths := (5, { state := .open }) :: h.ten.berths } }).work.berth 5).state = .open
      ∧ inRun ((serving fun h => { h with ten := { h.ten with berths := (5, { state := .open }) :: h.ten.berths } }).work.pool 0).berthFirst ((serving fun h => { h with ten := { h.ten with berths := (5, { state := .open }) :: h.ten.berths } }).work.pool 0).berthCount 5 = true
      ∧ (∀ l ∈ (serving fun h => { h with ten := { h.ten with berths := (5, { state := .open }) :: h.ten.berths } }).hub.memory.hold, l.part ≠ 7))
    ∧ (serves (serving id) 0
      ∧ ((serving id).work.port 0).log.enable = false
      ∧ bit (pack [(1, 1), (5, 8), (1, 0), (3, 2)]) 0 = true
      ∧ 6 ≤ bits (pack [(1, 1), (5, 8), (1, 0), (3, 2)]) 5 1
      ∧ bits (pack [(1, 1), (5, 8), (1, 0), (3, 2)]) 5 1 ≤ 16
      ∧ (pack [(1, 1), (5, 8), (1, 0), (3, 2)]) < 2 ^ 64)
    ∧ (serves (serving fun h => { h with ports := [(0, { port0 with configReady := true, log := { log2 := 8, enable := true, pri := [7, 8], minSev := 2 } })] }) 0
      ∧ ((serving fun h => { h with ports := [(0, { port0 with configReady := true, log := { log2 := 8, enable := true, pri := [7, 8], minSev := 2 } })] }).work.port 0).log.minSev < 8
      ∧ ((serving fun h => { h with ports := [(0, { port0 with configReady := true, log := { log2 := 8, enable := true, pri := [7, 8], minSev := 2 } })] }).work.port 0).log.log2 < 32)
    ∧ (serves (serving fun h => { h with ports := [(0, { port0 with configReady := true, log := { log2 := 8, enable := true, tail := 40 } })] }) 0
      ∧ 33 < 2 ^ ((serving fun h => { h with ports := [(0, { port0 with configReady := true, log := { log2 := 8, enable := true, tail := 40 } })] }).work.port 0).log.log2
      ∧ 33 < 65536
      ∧ ((serving fun h => { h with ports := [(0, { port0 with configReady := true, log := { log2 := 8, enable := true, tail := 40 } })] }).work.port 0).log.gapCount = 0)
    ∧ ((serving fun h => { h with mlog := { h.mlog with tail := 40 } }).Calm
      ∧ (serving fun h => { h with mlog := { h.mlog with tail := 40 } }).work.mute = false
      ∧ (serving fun h => { h with mlog := { h.mlog with tail := 40 } }).hub.start.state = 1
      ∧ 33 < 4096
      ∧ (serving fun h => { h with mlog := { h.mlog with tail := 40 } }).hub.mlog.gapCount = 0)
    ∧ (serves (serving id) 0
      ∧ ((serving id).work.port 0).hotRing.enable = false
      ∧ bit (0x123450000 + pack [(1, 1), (5, 8)]) 0 = true
      ∧ 4 ≤ bits (0x123450000 + pack [(1, 1), (5, 8)]) 5 1
      ∧ bits (0x123450000 + pack [(1, 1), (5, 8)]) 5 1 ≤ 16
      ∧ (0x123450000 + pack [(1, 1), (5, 8)]) < 2 ^ 64)
    ∧ (host (serving fun h => { h with start := { h.start with state := 2 } }) 0
      ∧ (serving fun h => { h with start := { h.start with state := 2 } }).hub.start.state = 2
      ∧ (serving fun h => { h with start := { h.start with state := 2 } }).hub.start.fetchPort = none
      ∧ 2 < 2 ^ 64)
    ∧ ((serving fun h => { h with start := { h.start with state := 2, fetchPort := some 0 } }).Calm
      ∧ (serving fun h => { h with start := { h.start with state := 2, fetchPort := some 0 } }).hub.start.state = 2
      ∧ (serving fun h => { h with start := { h.start with state := 2, fetchPort := some 0 } }).hub.start.fetchPort = some 0
      ∧ ({ image4 with sigOk := false }).sigOk = false)
    ∧ ((serving id).work.streamSecure { port := 0, func := 0 } = true
      ∧ ((serving id).work.func { port := 0, func := 0 }).flr = false
      ∧ ((serving id).work.func { port := 0, func := 0 }).d3hot = false
      ∧ ((serving id).work.func { port := 0, func := 0 }).tdi = .unlocked
      ∧ ((Reg.slinkStat 7), 0x101C8) ∈ [(Reg.binStat, 0x60000), (.memCfg, 0x20000), (.svcStat, 0x1100), (.slinkStat 7, 0x101C8), (.holdPart 5, 0x21028)])
    ∧ ((serving fun h => { h with start := { h.start with state := 2, fetchPort := some 0 } }).Calm
      ∧ (serving fun h => { h with start := { h.start with state := 2, fetchPort := some 0 } }).hub.start.state = 2
      ∧ (serving fun h => { h with start := { h.start with state := 2, fetchPort := some 0 } }).hub.start.fetchPort = some 0
      ∧ ({ image4 with revMax := 0xFFFFFFFF }).sigOk = true
      ∧ imageShape ({ image4 with revMax := 0xFFFFFFFF }) = true
      ∧ ((serving fun h => { h with start := { h.start with state := 2, fetchPort := some 0 } }).work.port 0).bootWrite = false
      ∧ (serving fun h => { h with start := { h.start with state := 2, fetchPort := some 0 } }).hub.start.event = {}
      ∧ (serving fun h => { h with start := { h.start with state := 2, fetchPort := some 0 } }).hub.start.cold = false
      ∧ (serving fun h => { h with start := { h.start with state := 2, fetchPort := some 0 } }).hub.start.burnt = false
      ∧ (serving fun h => { h with start := { h.start with state := 2, fetchPort := some 0 } }).hub.start.profile.units = []
      ∧ (serving fun h => { h with start := { h.start with state := 2, fetchPort := some 0 } }).hub.start.profile.rates = []
      ∧ 28 ≤ (serving fun h => { h with start := { h.start with state := 2, fetchPort := some 0 } }).hub.memory.rate
      ∧ (serving fun h => { h with start := { h.start with state := 2, fetchPort := some 0 } }).hub.start.fuses.lanes = []
      ∧ (serving fun h => { h with start := { h.start with state := 2, fetchPort := some 0 } }).hub.start.fuses.wrights = []
      ∧ (serving fun h => { h with start := { h.start with state := 2, fetchPort := some 0 } }).hub.sites = []) := by
  (repeat' apply And.intro) <;> decide +kernel

theorem test_hawserLinks :
  let lone (s : State) : Prop := s.hub.hawser.routes = [] ∧ s.hub.hawser.outstanding = [] ∧ s.hub.hawser.winWait = [] ∧ s.hub.helm.gates = []
  let ready (x : HPort) : Prop := x.txWait = [] ∧ x.retry.length < 250
  let hdr (frame : List Byte) : Nat := leNat (frame.take 4)
  ((hawsPort { state := 1, expFseq := 4095, discarding := true, nakRow := 2 } id).work.hportTrained 0 = true
      ∧ hwsGood (hawsFrame 0 4095 0 0 0 (0)) = true
      ∧ bits (hdr (hawsFrame 0 4095 0 0 0 (0))) 3 0 = 0
      ∧ bit (hdr (hawsFrame 0 4095 0 0 0 (0))) 28 = false
      ∧ bits (hdr (hawsFrame 0 4095 0 0 0 (0))) 15 4 = ((hawsPort { state := 1, expFseq := 4095, discarding := true, nakRow := 2 } id).work.hport 0).expFseq
      ∧ bits (leNat (slice (hawsFrame 0 4095 0 0 0 (0)) 8 16)) 1 0 ≠ 3)
    ∧ ((hawsPort { state := 2, credits := [(3, 7)] } id).work.hportTrained 0 = true
      ∧ hwsGood (hawsFrame 0 0 0 0 0 (pack [(2, 3), (16, 1), (16, 2), (16, 3), (16, 65535)])) = true
      ∧ bits (hdr (hawsFrame 0 0 0 0 0 (pack [(2, 3), (16, 1), (16, 2), (16, 3), (16, 65535)]))) 3 0 = 0
      ∧ bit (hdr (hawsFrame 0 0 0 0 0 (pack [(2, 3), (16, 1), (16, 2), (16, 3), (16, 65535)]))) 28 = false
      ∧ bits (hdr (hawsFrame 0 0 0 0 0 (pack [(2, 3), (16, 1), (16, 2), (16, 3), (16, 65535)]))) 15 4 = ((hawsPort { state := 2, credits := [(3, 7)] } id).work.hport 0).expFseq
      ∧ bits (leNat (slice (hawsFrame 0 0 0 0 0 (pack [(2, 3), (16, 1), (16, 2), (16, 3), (16, 65535)])) 8 16)) 1 0 = 3
      ∧ ((hawsPort { state := 2, credits := [(3, 7)] } id).work.hport 0).bodyWait = [])
    ∧ ((hawsPort { state := 3, retry := [(4095, .unreach 0 1 2), (0, .unreach 0 3 4), (1, .unreach 0 5 6)] } id).work.hportTrained 0 = true
      ∧ hwsGood (hawsFrame 1 0 0 1 0 (0)) = true
      ∧ bits (hdr (hawsFrame 1 0 0 1 0 (0))) 3 0 = 1
      ∧ bit (hdr (hawsFrame 1 0 0 1 0 (0))) 28 = true
      ∧ bit (hdr (hawsFrame 1 0 0 1 0 (0))) 29 = false
      ∧ ((hawsPort { state := 3, retry := [(4095, .unreach 0 1 2), (0, .unreach 0 3 4), (1, .unreach 0 5 6)] } id).work.hport 0).retry.findIdx? (fun x => decide (x.1 = bits (hdr (hawsFrame 1 0 0 1 0 (0))) 27 16)) = some 1
      ∧ ((hawsPort { state := 3, retry := [(4095, .unreach 0 1 2), (0, .unreach 0 3 4), (1, .unreach 0 5 6)] } id).work.hport 0).txWait = [])
    ∧ ((hawsPort { state := 1 } id).work.hportTrained 0 = true
      ∧ (true = false ∨ hwsGood [] = false)
      ∧ ((hawsPort { state := 1 } id).work.hport 0).nakRow < 7
      ∧ ((hawsPort { state := 1 } id).work.hport 0).failTimes = [])
    ∧ ((hawsPort { training := true, mseq := 65535 } hawsUp).work.hportMayTrain 0 = true
      ∧ (hawsPort { training := true, mseq := 65535 } hawsUp).work.hport 0 = { training := true, dateline := ((hawsPort { training := true, mseq := 65535 } hawsUp).work.hport 0).dateline, mseq := ((hawsPort { training := true, mseq := 65535 } hawsUp).work.hport 0).mseq }
      ∧ lone (hawsPort { training := true, mseq := 65535 } hawsUp)
      ∧ 0 < hwsWidth ([0, 2, 3]))
    ∧ ((hawsPort { training := true } hawsUp).work.hportMayTrain 0 = true
      ∧ ((hawsPort { training := true } hawsUp).work.hport 0).state = 0
      ∧ ((hawsPort { training := true } hawsUp).work.hport 0).training = true
      ∧ hwsWidth [] = 0)
    ∧ ((hawsPort { } hawsUp).work.hportMayTrain 0 = true
      ∧ ((hawsPort { } hawsUp).work.hport 0).state = 0)
    ∧ ((hawsPort { state := 1, retry := [(7, .unreach 0 1 2)] } id).work.hportTrained 0 = true
      ∧ 3 < 4
      ∧ lone (hawsPort { state := 1, retry := [(7, .unreach 0 1 2)] } id))
    ∧ ((hawsPort { state := 1, lanes := 4 } id).work.hportTrained 0 = true
      ∧ (hawsPort { state := 1, lanes := 4 } id).work.musterCause 0 (({ version := 2, hub := 5 } : Muster)) ≠ 0
      ∧ ((hawsPort { state := 1, lanes := 4 } id).work.hport 0).bodyWait = []
      ∧ lone (hawsPort { state := 1, lanes := 4 } id))
    ∧ ((hawsPort { state := 3, mseq := 65535 } id).work.hportTrained 0 = true
      ∧ ready ((hawsPort { state := 3, mseq := 65535 } id).work.hport 0))
    ∧ (((imported fun h => { h with ten := { h.ten with berths := [(4, { state := .open })] } })).work.hportUp 0 = true
      ∧ window6.cls = 0
      ∧ window6.mkind = 0
      ∧ window6.dstHub = ((imported fun h => { h with ten := { h.ten with berths := [(4, { state := .open })] } })).work.hubId
      ∧ ((imported fun h => { h with ten := { h.ten with berths := [(4, { state := .open })] } })).hub.hawser.inbound = []
      ∧ (window6.opcode = 0x10 ∨ window6.opcode = 0x14)
      ∧ tfind ((imported fun h => { h with ten := { h.ten with berths := [(4, { state := .open })] } })).hub.chart.imports window6.imp = some (({ berth := 4, srcHub := 6, len := 1, wr := true } : Import))
      ∧ ((imported fun h => { h with ten := { h.ten with berths := [(4, { state := .open })] } })).hub.hawser.edgeOut = false
      ∧ (((imported fun h => { h with ten := { h.ten with berths := [(4, { state := .open })] } })).work.berth (({ berth := 4, srcHub := 6, len := 1, wr := true } : Import)).berth).state ≠ .free
      ∧ (({ berth := 4, srcHub := 6, len := 1, wr := true } : Import)).anySrc = true ∨ (({ berth := 4, srcHub := 6, len := 1, wr := true } : Import)).srcHub = window6.srcHub
      ∧ window6.offset < (({ berth := 4, srcHub := 6, len := 1, wr := true } : Import)).len * 65536
      ∧ (window6.opcode = 0x14 → (({ berth := 4, srcHub := 6, len := 1, wr := true } : Import)).wr = true)
      ∧ malformed window6.opcode { berth := (({ berth := 4, srcHub := 6, len := 1, wr := true } : Import)).berth, tag := window6.tag, size := window6.size, opspec := window6.opspec, addr := (({ berth := 4, srcHub := 6, len := 1, wr := true } : Import)).base + window6.offset } = none
      ∧ ((((imported fun h => { h with ten := { h.ten with berths := [(4, { state := .open })] } })).work.hwsGiveBack 0 window6.lane window6).xlate 128 (({ berth := 4, srcHub := 6, len := 1, wr := true } : Import)).berth ((({ berth := 4, srcHub := 6, len := 1, wr := true } : Import)).base + window6.offset) { write := decide (window6.opcode = 0x14), engine := false }).1 = .ok scratchLeaf 0x004000000200
      ∧ bit scratchLeaf 24 = false
      ∧ isWindow (((imported fun h => { h with ten := { h.ten with berths := [(4, { state := .open })] } })).work.target 0x004000000200) = false)
    ∧ ((hawsPort { state := 1, credits := [(2, 1)] } hawsRoute).work.hportUp 0 = true
      ∧ window6.cls = 0
      ∧ window6.mkind = 0
      ∧ window6.dstHub = (hawsPort { state := 1, credits := [(2, 1)] } hawsRoute).work.hubId
      ∧ (hawsPort { state := 1, credits := [(2, 1)] } hawsRoute).hub.hawser.inbound = []
      ∧ tfind (hawsPort { state := 1, credits := [(2, 1)] } hawsRoute).hub.chart.imports window6.imp = none
      ∧ (hawsPort { state := 1, credits := [(2, 1)] } hawsRoute).work.route window6.srcHub = some 0
      ∧ ((hawsPort { state := 1, credits := [(2, 1)] } hawsRoute).work.hport 0).dateline = false
      ∧ ready ((hawsPort { state := 1, credits := [(2, 1)] } hawsRoute).work.hport 0)
      ∧ ready ((hawsPort { state := 1, credits := [(2, 1)] } hawsRoute).work.hport 0)
      ∧ ((hawsPort { state := 1, credits := [(2, 1)] } hawsRoute).work.hport 0).bodyWait = []
      ∧ 0 < tget 0 ((hawsPort { state := 1, credits := [(2, 1)] } hawsRoute).work.hport 0).credits 2)
    ∧ ((hawsPort { state := 1 } fun h => { h with hawser := { h.hawser with outstanding := [(9, { hub := 6, req := { agent := .site 0, tag := 5, berth := 4 } })] } }).Calm
      ∧ (hawsPort { state := 1 } fun h => { h with hawser := { h.hawser with outstanding := [(9, { hub := 6, req := { agent := .site 0, tag := 5, berth := 4 } })] } }).work.hportUp 0 = true
      ∧ (({ cls := 1, mkind := 1, srcHub := 6, tag := 9, opcode := 0x40, payload := [1, 2] } : BodyMsg)).cls = 1
      ∧ (({ cls := 1, mkind := 1, srcHub := 6, tag := 9, opcode := 0x40, payload := [1, 2] } : BodyMsg)).mkind = 1
      ∧ (({ cls := 1, mkind := 1, srcHub := 6, tag := 9, opcode := 0x40, payload := [1, 2] } : BodyMsg)).dstHub = (hawsPort { state := 1 } fun h => { h with hawser := { h.hawser with outstanding := [(9, { hub := 6, req := { agent := .site 0, tag := 5, berth := 4 } })] } }).work.hubId
      ∧ tfind (hawsPort { state := 1 } fun h => { h with hawser := { h.hawser with outstanding := [(9, { hub := 6, req := { agent := .site 0, tag := 5, berth := 4 } })] } }).hub.hawser.outstanding (({ cls := 1, mkind := 1, srcHub := 6, tag := 9, opcode := 0x40, payload := [1, 2] } : BodyMsg)).tag = some (({ hub := 6, req := { agent := .site 0, tag := 5, berth := 4 } } : WinOut))
      ∧ (({ hub := 6, req := { agent := .site 0, tag := 5, berth := 4 } } : WinOut)).hub = (({ cls := 1, mkind := 1, srcHub := 6, tag := 9, opcode := 0x40, payload := [1, 2] } : BodyMsg)).srcHub
      ∧ (({ hub := 6, req := { agent := .site 0, tag := 5, berth := 4 } } : WinOut)).req.agent = .site 0
      ∧ (hawsPort { state := 1 } fun h => { h with hawser := { h.hawser with outstanding := [(9, { hub := 6, req := { agent := .site 0, tag := 5, berth := 4 } })] } }).hub.hawser.winWait = [])
    ∧ ((hawsPort { state := 1 } id).Calm
      ∧ (hawsPort { state := 1 } id).work.hportUp 0 = true
      ∧ (({ cls := 1, mkind := 1, srcHub := 6, tag := 9 } : BodyMsg)).cls = 1
      ∧ (({ cls := 1, mkind := 1, srcHub := 6, tag := 9 } : BodyMsg)).mkind = 1
      ∧ (({ cls := 1, mkind := 1, srcHub := 6, tag := 9 } : BodyMsg)).dstHub = (hawsPort { state := 1 } id).work.hubId
      ∧ tfind (hawsPort { state := 1 } id).hub.hawser.outstanding (({ cls := 1, mkind := 1, srcHub := 6, tag := 9 } : BodyMsg)).tag = none)
    ∧ ((hawsPort { state := 1 } fun h => { h with hawser := { h.hawser with outstanding := [(9, { hub := 6, req := { agent := .site 0, tag := 5, berth := 4 } })] } }).Calm
      ∧ tfind (hawsPort { state := 1 } fun h => { h with hawser := { h.hawser with outstanding := [(9, { hub := 6, req := { agent := .site 0, tag := 5, berth := 4 } })] } }).hub.hawser.outstanding 9 = some (({ hub := 6, req := { agent := .site 0, tag := 5, berth := 4 } } : WinOut))
      ∧ (({ hub := 6, req := { agent := .site 0, tag := 5, berth := 4 } } : WinOut)).req.agent = .site 0
      ∧ (hawsPort { state := 1 } fun h => { h with hawser := { h.hawser with outstanding := [(9, { hub := 6, req := { agent := .site 0, tag := 5, berth := 4 } })] } }).hub.hawser.winWait = [])
    ∧ ((hawsPort { state := 1 } fun h => { h with tables := [(5, table4)] }).work.hportUp 0 = true
      ∧ (({ cls := 2, mkind := 2, srcHub := 6, packet := packet7 .dispatch } : BodyMsg)).cls = 2
      ∧ (({ cls := 2, mkind := 2, srcHub := 6, packet := packet7 .dispatch } : BodyMsg)).mkind = 2
      ∧ (({ cls := 2, mkind := 2, srcHub := 6, packet := packet7 .dispatch } : BodyMsg)).dstHub = (hawsPort { state := 1 } fun h => { h with tables := [(5, table4)] }).work.hubId
      ∧ (({ cls := 2, mkind := 2, srcHub := 6, packet := packet7 .dispatch } : BodyMsg)).packet.kind = .dispatch
      ∧ (hawsPort { state := 1 } fun h => { h with tables := [(5, table4)] }).work.table (({ cls := 2, mkind := 2, srcHub := 6, packet := packet7 .dispatch } : BodyMsg)).packet.table = some table4
      ∧ (expertOf table4 (({ cls := 2, mkind := 2, srcHub := 6, packet := packet7 .dispatch } : BodyMsg)).packet.expert).kind = 1 ∨ (expertOf table4 (({ cls := 2, mkind := 2, srcHub := 6, packet := packet7 .dispatch } : BodyMsg)).packet.expert).kind = 2)
    ∧ ((hawsPort { state := 1 } id).work.hportUp 0 = true
      ∧ (({ cls := 2, mkind := 2, srcHub := 6, packet := packet7 .close } : BodyMsg)).cls = 2
      ∧ (({ cls := 2, mkind := 2, srcHub := 6, packet := packet7 .close } : BodyMsg)).mkind = 2
      ∧ (({ cls := 2, mkind := 2, srcHub := 6, packet := packet7 .close } : BodyMsg)).dstHub = (hawsPort { state := 1 } id).work.hubId
      ∧ (({ cls := 2, mkind := 2, srcHub := 6, packet := packet7 .close } : BodyMsg)).packet.kind ≠ .dispatch)
    ∧ (((hawsPort { state := 1, bodyWait := [{ inPort := some (0, 0), msg := { cls := 1, srcHub := 6, dstHub := 7, hops := 3 } }] } hawsRoute).work.hport 0).bodyWait = [{ inPort := some (0, (({ cls := 1, srcHub := 6, dstHub := 7, hops := 2 } : BodyMsg)).lane), msg := { (({ cls := 1, srcHub := 6, dstHub := 7, hops := 2 } : BodyMsg)) with hops := (({ cls := 1, srcHub := 6, dstHub := 7, hops := 2 } : BodyMsg)).hops + 1 } }]
      ∧ 0 < 8
      ∧ (∀ k < 8, k ≠ 0 → ((hawsPort { state := 1, bodyWait := [{ inPort := some (0, 0), msg := { cls := 1, srcHub := 6, dstHub := 7, hops := 3 } }] } hawsRoute).work.hport k).bodyWait = [])
      ∧ (({ cls := 1, srcHub := 6, dstHub := 7, hops := 2 } : BodyMsg)).cls = 1
      ∧ (hawsPort { state := 1, bodyWait := [{ inPort := some (0, 0), msg := { cls := 1, srcHub := 6, dstHub := 7, hops := 3 } }] } hawsRoute).work.controlRoute (({ cls := 1, srcHub := 6, dstHub := 7, hops := 2 } : BodyMsg)).srcHub = some 0
      ∧ ready ((hawsPort { state := 1, bodyWait := [{ inPort := some (0, 0), msg := { cls := 1, srcHub := 6, dstHub := 7, hops := 3 } }] } hawsRoute).work.hport 0))
    ∧ ((hawsPort { state := 3 } id).Calm
      ∧ (hawsPort { state := 3 } id).work.hportTrained 0 = true
      ∧ lone (hawsPort { state := 3 } id)
      ∧ 7 ≠ (hawsPort { state := 3 } id).work.hubId)
    ∧ ((hawsPort { state := 1 } hawsRoute).Calm
      ∧ (hawsPort { state := 1 } hawsRoute).work.hportTrained 0 = true
      ∧ 6 ≠ (hawsPort { state := 1 } hawsRoute).work.hubId
      ∧ (hawsPort { state := 1 } hawsRoute).work.controlRoute 6 = some 0
      ∧ ready ((hawsPort { state := 1 } hawsRoute).work.hport 0))
    ∧ ((hawsPort { state := 1 } fun h => { h with hawser := { h.hawser with unreachable := [7, 8] } }).Calm
      ∧ lone (hawsPort { state := 1 } fun h => { h with hawser := { h.hawser with unreachable := [7, 8] } })) := by
  (repeat' apply And.intro) <;> decide +kernel

theorem test_powerControl :
  let up (s : State) : Prop := s.work.binUp = true ∧ s.work.binPaused = false
  let free (s : State) : Prop := s.hub.bin.avsLost = false ∧ s.hub.bin.critical = false
  let measured (s : State) (x : PowerSample) : Bin := { s.hub.bin with pkgW := s.work.packageW x.hubW x.holdW, hist := (s.work.packageW x.hubW x.holdW :: s.hub.bin.hist).take 60000 }
  let cool (s : State) (h m : Nat) : Prop := h + 3 ≤ s.hub.bin.body.tThrottle ∧ m ≤ 87
  (up (binned {  })
      ∧ free (binned {  })
      ∧ (binned {  }).hub.bin.body.hubMaxW < (({ hubW := 541, holdW := 30, hubTj := 50, holdTj := 40, stretchOver := true } : PowerSample)).hubW)
    ∧ (up (binned { level := 3, lastChange := 5, body := { limW := [2000, 0, 0, 0] }, hist := [1800, 1700] })
      ∧ free (binned { level := 3, lastChange := 5, body := { limW := [2000, 0, 0, 0] }, hist := [1800, 1700] })
      ∧ 0 < (binned { level := 3, lastChange := 5, body := { limW := [2000, 0, 0, 0] }, hist := [1800, 1700] }).hub.bin.level
      ∧ (binned { level := 3, lastChange := 5, body := { limW := [2000, 0, 0, 0] }, hist := [1800, 1700] }).hub.bin.level ≤ 7
      ∧ (({ hubW := 500, holdW := 30, hubTj := 50, holdTj := 40 } : PowerSample)).hubW ≤ (binned { level := 3, lastChange := 5, body := { limW := [2000, 0, 0, 0] }, hist := [1800, 1700] }).hub.bin.body.hubMaxW
      ∧ cool (binned { level := 3, lastChange := 5, body := { limW := [2000, 0, 0, 0] }, hist := [1800, 1700] }) (({ hubW := 500, holdW := 30, hubTj := 50, holdTj := 40 } : PowerSample)).hubTj (({ hubW := 500, holdW := 30, hubTj := 50, holdTj := 40 } : PowerSample)).holdTj
      ∧ (({ hubW := 500, holdW := 30, hubTj := 50, holdTj := 40 } : PowerSample)).stretchOver = false
      ∧ (binned { level := 3, lastChange := 5, body := { limW := [2000, 0, 0, 0] }, hist := [1800, 1700] }).hub.bin.peakOver = false
      ∧ averagesLow (measured (binned { level := 3, lastChange := 5, body := { limW := [2000, 0, 0, 0] }, hist := [1800, 1700] }) (({ hubW := 500, holdW := 30, hubTj := 50, holdTj := 40 } : PowerSample))) = true
      ∧ (binned { level := 3, lastChange := 5, body := { limW := [2000, 0, 0, 0] }, hist := [1800, 1700] }).hub.bin.lastChange + 10000 ≤ (binned { level := 3, lastChange := 5, body := { limW := [2000, 0, 0, 0] }, hist := [1800, 1700] }).hub.now)
    ∧ ((serving fun h => { h with now := 20000, svc := { h.svc with replacing := some (1, 0) } }).work.binUp = true
      ∧ (serving fun h => { h with now := 20000, svc := { h.svc with replacing := some (1, 0) } }).work.binPaused = true)
    ∧ (up (binned { level := 6 })
      ∧ free (binned { level := 6 })
      ∧ (binned { level := 6 }).hub.bin.body.peakW < (binned { level := 6 }).work.packageW 2300 200)
    ∧ (up (binned { level := 2, peakOver := true })
      ∧ free (binned { level := 2, peakOver := true })
      ∧ (binned { level := 2, peakOver := true }).hub.bin.level ≤ 7
      ∧ (binned { level := 2, peakOver := true }).work.packageW 2000 400 ≤ (binned { level := 2, peakOver := true }).hub.bin.body.peakW)
    ∧ ((binned { pendingOp := [(0, 3), (1, 4)] }).work.binUp = true
      ∧ (binned { pendingOp := [(0, 3), (1, 4)] }).hub.bin.stretched = false
      ∧ tfind (binned { pendingOp := [(0, 3), (1, 4)] }).hub.bin.pendingOp 0 = some 3)
    ∧ ((binned { pendingOp := [(0, 3), (2, 4)] }).work.binUp = true
      ∧ (2 = 1 ∨ 2 = 2)
      ∧ tfind (binned { pendingOp := [(0, 3), (2, 4)] }).hub.bin.pendingOp 2 = some 4)
    ∧ ((binned { stretched := true }).hub.bin.stretched = true)
    ∧ ((binned { }).work.binUp = true
      ∧ (binned { }).hub.bin.stretched = false)
    ∧ ((binned { stretched := true }).hub.bin.stretched = true)
    ∧ ((binned { trims := [(7, 55)] }).work.binUp = true
      ∧ 7 < 8
      ∧ tget 0 (binned { trims := [(7, 55)] }).hub.bin.trims 7 + 5 ≤ 60)
    ∧ (up (binned { level := 2 })
      ∧ free (binned { level := 2 })
      ∧ (binned { level := 2 }).hub.bin.level ≤ 7
      ∧ (binned { level := 2 }).hub.bin.body.tThrottle ≤ 100 ∨ 90 ≤ 40)
    ∧ (up (binned { level := 2, critical := true, thermalHold := true })
      ∧ cool (binned { level := 2, critical := true, thermalHold := true }) 97 87)
    ∧ ((binned { level := 2 }).work.binUp = true
      ∧ (binned { level := 2 }).hub.bin.critical = false)
    ∧ ((binned { }).hub.start.hubRstN = true
      ∧ (binned { }).work.resetHeldOff = false)
    ∧ ((binned { pendingOp := [(0, 3)] }).work.binUp = true
      ∧ (binned { pendingOp := [(0, 3)] }).hub.bin.avsLost = false) := by
  (repeat' apply And.intro) <;> decide +kernel

theorem test_opSevenRetired :
  ((∀ p < 8, tget 0 (binned { trims := [(7, 60), (6, 55)] }).hub.bin.trims p ≤ 60))
    ∧ ((binned { trims := [(7, 56), (6, 55)] }).work.binUp = true
      ∧ 7 ∈ ([6, 7])
      ∧ 55 < tget 0 (binned { trims := [(7, 56), (6, 55)] }).hub.bin.trims 7
      ∧ (binned { trims := [(7, 56), (6, 55)] }).hub.bin.op7Retired = false)
    ∧ ((binned { op7Retired := true, pendingOp := [(0, 6)] }).work.binUp = true
      ∧ (binned { op7Retired := true, pendingOp := [(0, 6)] }).hub.bin.op7Retired = true
      ∧ (binned { op7Retired := true, pendingOp := [(0, 6)] }).hub.bin.stretched = false
      ∧ tfind (binned { op7Retired := true, pendingOp := [(0, 6)] }).hub.bin.pendingOp 0 = some 6
      ∧ (binned { op7Retired := true, pendingOp := [(0, 6)] }).work.preferences.1 ≤ 6) := by
  (repeat' apply And.intro) <;> decide +kernel

/-! ## Witnesses of the statements over the catalogue -/

/-- Engine 0 may issue an operator, is free, and starts no access. -/
def mayGive (x : Nat × (Op → OpOut)) : Bool :=
  let r := atStep { op := x.1 }
  let s := runs { op := x.1 }
  decide (s.CanIssue 0 x.1 r) && (x.2 (s.opAt {} r)).access.isNone && decide (s.Free {} r (x.2 (s.opAt {} r)))

theorem test_arithmetic : (([(0x10, fun c => c.arith2 (addVal c.rnd) (· + ·)), (0x11, fun c => c.arith2 (fun a b => addVal c.rnd a (negVal b)) (· - ·)), (0x12, fun c => c.arith2 mulVal (· * ·)),
    (0x15, fun c => c.arith2 maxVal max), (0x16, fun c => c.arith2 minVal min), (0x13, fun c => c.elementwise [c.a, c.b, c.c3] c.st.td fun _ => 0),
    (0x14, fun c => c.elementwise [c.a, c.b] c.st.td fun _ => 0), (0x17, fun c => c.signOp absVal (fun i => i) id), (0x18, fun c => c.signOp negVal (fun i => -i) id),
    (0x19, fun c => c.elementwise [c.a] c.st.td fun _ => 0), (0x1A, fun c => c.elementwise [c.a, c.b, c.c3] c.st.td fun _ => 0)] : List (Nat × (Op → OpOut))).all mayGive) = true := by decide +kernel

theorem test_logic : (([(0x1B, fun c => c.maskResult [c.a, c.b] fun _ => true), (0x1C, fun c => c.elementwise [c.a, c.b] c.st.td fun j => c.a.code j), (0x1D, fun c => c.elementwise [c.a, c.b] c.st.td fun j => c.a.code j),
    (0x1E, fun c => c.elementwise [c.a] c.st.td fun j => c.a.code j), (0x1F, fun c => c.elementwise [] c.st.td fun _ => 0), (0x40, fun c => c.elementwise [c.a] c.st.td fun j => c.a.code j),
    (0x44, fun c => c.maskResult [c.a] fun _ => true)] : List (Nat × (Op → OpOut))).all mayGive) = true := by decide +kernel

theorem test_functions : ((([0x20, 0x21, 0x22, 0x23, 0x24, 0x25, 0x26, 0x27, 0x28, 0x29, 0x42].map fun n => (n, fun c => c.unary expVal)) : List (Nat × (Op → OpOut))).all mayGive) = true := by decide +kernel

theorem test_reductions : (([0x30, 0x31, 0x32, 0x33, 0x34, 0x35].map fun n => (n, fun c => c.reduce .sum [c.a, c.b] (fun j => (c.a.val j, one32)) fun _ => (0, 1)))
    ++ ([0x38, 0x39, 0x3A].map fun n => (n, fun c => c.rowOp [c.a] fun row => softmaxRow (row.map c.a.val)))
    ++ [(0x3B, fun c => c.elementwise [c.a, c.b] c.st.td fun _ => 0)] : List (Nat × (Op → OpOut))).all mayGive = true := by decide +kernel

theorem test_moves : (([(0x41, fun c => c.quant c.a), (0x43, fun c => c.quant c.a), (0x48, Op.gather), (0x49, Op.scatter), (0x4A, Op.scatterAdd), (0x4B, Op.compact), (0x50, fun c => c.topk 1), (0x51, fun c => c.topk 1),
    (0x58, fun c => c.matrix true), (0x59, fun c => c.matrix false)] : List (Nat × (Op → OpOut))).all mayGive) = true := by decide +kernel

/-- Engine 0 may issue an operator on a device stream, whose access can go. -/
def mayStart (st : Step) (f : Op → OpOut) : Bool :=
  let r := { atStep st with params := List.replicate 64 1 }
  let s := engined { run := some r } id
  let o := f (s.opAt {} r)
  decide (s.CanIssue 0 st.op r) && decide (s.Free {} r o) && match o.access with
    | some (a, spans) => decide ((s.work.probeSpans 0 4 a.store (if a.store then a.writes.map fun y => (y.1, y.2.1.length) else spans)).1 = .ok [] [])
    | none => false

theorem test_moves_start : mayStart { op := 0x48, sa := 1 } Op.gather = true ∧ mayStart { op := 0x49, sd := 1 } Op.scatter = true := by decide +kernel

theorem test_operatorsMisaligned : (catalogue.all fun y =>
    let r := { atStep { op := y.2, sa := 3, sb := 3, sd := 3 } with recipe := { (atStep { op := y.2, sa := 3, sb := 3, sd := 3 }).recipe with streams := List.replicate 4 { base := 4 } } }
    let s := engined { run := some r, accesses := [{}] } id
    decide (s.CanIssue 0 y.2 r) && !(s.opAt {} r).aligned && decide ((s.work.wright 0).accesses ≠ [])) = true := by decide +kernel

/-- A slot 1 chain of three bytes has a first portion. -/
theorem test_attestation_certificate :
    let s := serving fun h => { h with purser := { h.purser with i3c := { negotiated := true }, slot1 := [1, 2, 3] } }
    s.work.spdmUp .i3c = true ∧ (s.work.spdmOf .i3c).negotiated = true ∧ s.work.hasChain 1 = true ∧ 0 + 2 ≤ (s.work.chain 1).length := by
  refine ⟨by decide, by decide, by decide, ?_⟩
  show 2 ≤ (([1, 2, 3] : List Byte) ++ _).length
  simp only [List.length_append, List.length_cons]
  omega

/-- A record of hub 5 that agrees, whatever the digest of the configuration. -/
theorem test_hawserLinks_agreeing :
    let s := hawsPort { state := 3, lanes := 4 } id
    let m : Muster := { hub := 5, view := 1, configHash := (s.work.muster 0).configHash }
    s.work.hportTrained 0 = true ∧ s.work.musterCause 0 m = 0 ∧ m.view = 1 ∧ (s.work.hport 0).bodyWait = []
      ∧ s.hub.hawser.routes = [] ∧ s.hub.hawser.outstanding = [] ∧ s.hub.hawser.winWait = [] ∧ s.hub.helm.gates = [] := by
  refine ⟨by decide, ?_, rfl, by decide, rfl, rfl, rfl, rfl⟩
  simp only [Work.musterCause, ne_eq, not_true_eq_false, if_false]
  decide

/-! ## Witnesses of the statements over the whole machine -/

theorem test_stepTakesFront : State.reset.pending = [] := rfl
theorem test_stepKeepsMemory : State.reset.Safe := by unfold State.Safe; decide

/-! ## Single steps and operations against values of the spec -/

/-- A command answers a next state that passes a test. -/
def after (c : Instr) (s : State) (p : State → Bool) : Bool := match exec c s with | .next t => p t | _ => false

/-- R131's example: the experts in order of selection, e3 ahead of e7 by number, e5 (−∞) ineligible. -/
theorem test_selection_order :
    selectOrder { hdr := { k := 2, score := 2 }, experts := List.replicate 8 {} } ([0x3F800000, 0x40400000, 0x3F000000, 0x40200000, 0x40000000, 0xFF800000, 0, 0x40200000].map f32)
      ([0x3F800000, 0x40400000, 0x3F000000, 0x40200000, 0x40000000, 0xFF800000, 0, 0x40200000].map f32) = [1, 3, 7, 4, 0, 2, 6] := by decide +kernel

/-- R217: 65504 + 65504 overflows FP16 to infinity, with SAT to 65504; FP8 E4M3 has 0x7F and ±448; INT8 clamps a float. -/
theorem test_rounding :
    let big := addVal 0 (decodeElem 2 0x7BFF) (decodeElem 2 0x7BFF)
    let e4 := addVal 0 (decodeElem 3 0x7E) (decodeElem 3 0x7E)
    [encodeVal 2 0 false big, encodeVal 2 0 true big, encodeVal 3 0 false e4, encodeVal 3 0 true e4, encodeVal 5 0 false (f32 0x43480000), encodeVal 5 0 false (f32 0xC3480000)]
      = [0x7C00, 0x7BFF, 0x7F, 0x7E, 0x7F, 0x80] := by decide +kernel

/-- 1.5 + 2.25 = 3.75 and 1.5 × -2.25 = -3.375 in FP32. -/
theorem test_float32 : [encodeVal 0 0 false (addVal 0 (f32 0x3FC00000) (f32 0x40100000)), encodeVal 0 0 false (mulVal (f32 0x3FC00000) (f32 0xC0100000))] = [0x40700000, 0xC0580000] := by decide +kernel

/-- R169: 0x81 stands for two zero elements, 0x00 for one that follows. -/
theorem test_zero_run : zeroRunDecode 1 3 [0x81, 0x00, 0x55] = some [0, 0, 0x55] := by decide

/-- The check value of the CRC-32 of IEEE 802.3 over "123456789" (R54). -/
theorem test_crc32 : crc32 [0x31, 0x32, 0x33, 0x34, 0x35, 0x36, 0x37, 0x38, 0x39] = 0xCBF43926 := by decide +kernel

/-- R472: fuse codes of the life cycle; any other pattern is Indeterminate. -/
theorem test_life_cycle : [0x0000, 0x000F, 0x00FF, 0x0FFF, 0xFFFF, 0x00F0].map lcState = [some 0, some 1, some 2, some 3, some 4, none] := by decide

/-- R513: arithmetic, Hold and memory ceilings of the levels. -/
theorem test_throttle_ceilings : (List.range 8).map (fun l => (levelArith l, levelHold l, levelMem l))
    = [(7, 7, 7), (6, 7, 7), (5, 7, 7), (4, 6, 6), (3, 6, 5), (2, 5, 4), (1, 4, 3), (0, 3, 0)] := by decide

/-- R490: three good lanes give width 2, lane 3 alone width 1. -/
theorem test_hawser_width : [[0, 1, 2, 3], [0, 2, 3], [3], []].map hwsWidth = [4, 2, 1, 0] := by decide

/-- R37, R574: no power good in time is cause 11; R82: no INIT in time is cause 5. -/
theorem test_site_absent : after (.vcsPgTimeout 0) (sited { starting 1 with power := { pwrEn := true } }) (fun t => (t.work.site 0).state = 0 && (t.work.site 0).cause = 11) = true := by decide +kernel

/-- R244: a mark of 3 that 2 are added to is 5. -/
theorem test_mark_add : after (.markAdd 0 { tag := 1, berth := 4, object := 7, value := 2 }) helmed (fun t => (t.work.mark 7).value = 5) = true := by decide +kernel

/-- R310: the CRC-16/CCITT of the ASCII digits 1 to 9, its published check value. -/
theorem test_crc16 : crc16 (List.map (BitVec.ofNat 8) [0x31, 0x32, 0x33, 0x34, 0x35, 0x36, 0x37, 0x38, 0x39]) = 0x29B1 := by decide +kernel

/-- R280: a link is taken out, and the flit in its retry buffer is the first that its bundle resends. -/
theorem test_link_out :
    (let f := ((hubbed fun h => { h with fabric := { h.fabric with retry := [(10, 3)] } }).work.linkOut 5).hub.fabric; (f.linksOut, f.retry, tget [] f.resend 0)) = ([5], [], [3]) := by decide +kernel

/-- R398: a ring of 2^3 entries stays Disabled with CAUSE 5. -/
theorem test_ring_size : after (.ringEnable { port := 0, func := 0 } 0 1 (pack [(1, 1), (5, 3)])) (hubbed fun h => { h with ports := [(0, port0)], ten := { h.ten with berths := [(0, { state := .open })] } })
    (fun t => (t.work.ring 0 1).state = 0 && (t.work.ring 0 1).cause = 5) = true := by decide +kernel

/-- R488: a frame whose CRC is bad is answered with a NAK of the frame before the expected one. -/
theorem test_hawser_nak : after (.hawserFrame 0 (List.replicate 536 0) 0 true) (hawsPort { state := 1, expFseq := 5 } id) (fun t => decide (.hawserFrame 0 1 4 true ∈ t.hub.sent)) = true := by decide +kernel

/-- R512: over PEAK_W the level rises by 2, to 7 at most. -/
theorem test_peak : after (.peakCheck 2300 200) (binned { level := 6 }) (fun t => t.hub.bin.level = 7) = true ∧ after (.peakCheck 2300 200) (binned { level := 1 }) (fun t => t.hub.bin.level = 3) = true := by decide +kernel

/-- R467: a seventeenth nonce discards the oldest. -/
theorem test_nonces : after (.getNonce true) (serving fun h => { h with purser := { h.purser with nonces := List.range 16 } }) (fun t => t.hub.purser.nonces.length = 16 && decide (t.hub.purser.nonces.head? = some 1)) = true := by
  decide +kernel

/-! ## Ill-formed commands that the checks refuse -/

theorem test_refuses_entryOk : ([{ berth := 4096 }, { ring := 4 }, { index := 2 ^ 20 }] : List EntryRef).all (fun x => !entryOk x) = true := by decide
theorem test_refuses_funcOk : ([{ port := 4, func := 0 }, { port := 0, func := 256 }] : List FuncRef).all (fun x => !funcOk x) = true := by decide
theorem test_refuses_reqOk : ([{ prio := 4 }, { tag := 2 ^ 16 }, { berth := 2 ^ 14 }, { size := 256 }, { opspec := 2 ^ 16 }, { addr := 2 ^ 57 }] : List ReqHdr).all (fun x => !reqOk x) = true := by decide
theorem test_refuses_tokOk : ([{ fmt := 16 }, { beats := 4096 }, { berth := 2 ^ 14 }, { expert := 4096 }, { rank := 8 }, { token := 2 ^ 32 }, { table := 256 }] : List TokHdr).all (fun x => !tokOk x) = true := by decide
theorem test_refuses_gateOk : ([{ fmt := 16 }, { beats := 4096 }, { berth := 2 ^ 14 }, { nlog := 4096 }, { row := 2 ^ 32 }, { table := 256 }] : List GateHdr).all (fun x => !gateOk x) = true := by decide
theorem test_refuses_hlmFits : ([{ tag := 2 ^ 16 }, { berth := 2 ^ 14 }, { object := 2 ^ 16 }, { value := 2 ^ 32 }] : List HlmOp).all (fun x => !hlmFits x) = true := by decide
theorem test_refuses_evOk : ([{ engine := 64 }, { upset := [16384] }] : List OpEvent).all (fun x => !evOk x) = true := by decide
theorem test_refuses_orderOk : ([{ order := 2 ^ 16 }, { nonce := 2 ^ 64 }, { cred := 256 }] : List OrderHdr).all (fun x => !orderOk x) = true := by decide
theorem test_refuses_bodyOk : ([{ dstHub := 4096 }, { srcHub := 4096 }, { lane := 2 }, { tag := 2 ^ 16 }] : List BodyMsg).all (fun x => !bodyOk x) = true := by decide
theorem test_refuses_helmOk : ([{ dstHub := 4096 }, { srcHub := 4096 }, { gen := 2 ^ 16 }] : List HelmMsg).all (fun x => !helmOk x) = true := by decide
theorem test_refuses_creditsOk : ([{ reqHdr := 2 ^ 16 }, { reqData := 2 ^ 16 }, { snpHdr := 2 ^ 16 }, { tokHdr := 2 ^ 16 }, { tokData := 2 ^ 16 }, { hlmHdr := 2 ^ 16 }] : List Credits).all (fun x => !creditsOk x) = true := by decide
theorem test_refuses_initFits : ([{ version := 256 }, { packed := 32 }, { grants := { reqHdr := 2 ^ 16 } }] : List InitMsg).all (fun x => !initFits x) = true := by decide
theorem test_refuses_failOk : ([{ bundle := 16, half := 0 }, { bundle := 0, half := 2 }] : List HalfFail).all (fun x => !failOk x) = true := by decide
theorem test_refuses_transportOk : ([.doe 4] : List Transport).all (fun x => !transportOk x) = true := by decide

theorem test_ill_formed_1 : ([.vcsPgRise 16, .lmWireResult 16 {}, .lmWireResult 0 { bundle := 16 }, .lmSparemapAck 16 0 0, .lmSparemapAck 0 16 0, .lmSparemapAck 0 0 2, .dataFrame 16 0 [], .dataFrame 0 16 [], .initMsg 16 {}, .initMsg 0 { version := 256 }, .credit 16 {}, .credit 0 { reqHdr := 65536 }, .rdNc 16 {}, .rdNc 0 { prio := 4 }, .gate 16 {} [], .gate 0 { fmt := 16 } [], .tokOut 16 {} [], .tokOut 0 { fmt := 16 } [], .markAdd 16 {}, .markAdd 0 { tag := 65536 }, .eventWirePulse 16 0, .eventWirePulse 0 32, .gateStagingRelease 16, .deferPassEnd 16 0] : List Instr).all (fun c => !c.wellFormed) = true := by decide

theorem test_ill_formed_2 : ([.deferPassEnd 0 256, .bearingInstall { berth := 4096 }, .bearingRemoveDrained 256, .packRemoveDrained 4096, .recipeRemoveDrained 1024, .recipeStart 64, .add { engine := 64 }, .gateTimeout 1024, .fabricFlit 303 0 0 0, .fabricFlit 0 2 0 0, .fabricFlit 0 0 5 0, .fabricFlit 0 0 0 3, .arbiterAgeing 5 0, .homeRequest 0 18, .snpinv 4 0, .channelRetrainDone 128 false 0, .refresh 128 0, .refresh 0 256, .holdDieFailure 3, .scratchZeroingDone 48, .holdPurgeDone none 4096, .regionZeroingDone 192, .translationCompletion 4 0 false 0 0, .translationCompletion 0 8 false 0 0] : List Instr).all (fun c => !c.wellFormed) = true := by decide

theorem test_ill_formed_3 : ([.atsInvalidateRequest { port := 4, func := 0 } 0 0, .bell { port := 4, func := 0 } 0 0 0, .bell {} 4096 0 0, .bell {} 0 4 0, .manifestFetch 4096 0 .ok, .manifestFetch 0 4 .ok, .l0sEntry 4 0, .l0sEntry 0 2, .getVersion (.doe 4), .berthQuote (.doe 4) 0 0, .berthQuote .i3c 4096 0, .powerLimit { order := 65536 } {}, .bwrBerthWrite none 4096 0, .bwrBerthWrite none 0 256, .memRegionClassWrite none 192 0, .memRegionClassWrite none 0 3, .hawserFrame 8 [] 0 false, .hawserLaneLoss 8 0, .hawserLaneLoss 0 64, .windowRequest 8 {}, .windowRequest 0 { dstHub := 4096 }, .reqTimeout 65536, .unreach 8 0 0, .unreach 0 1024 0] : List Instr).all (fun c => !c.wellFormed) = true := by decide

theorem test_ill_formed_4 : ([.unreach 0 0 1024, .unreachHoldExpiry 1024, .arriveMsg 8 {}, .arriveMsg 0 { dstHub := 4096 }, .opChangeDone 3, .clockCheck 8 false] : List Instr).all (fun c => !c.wellFormed) = true := by decide

end Sys2Proof.Tests
end

section
/-! PROOFS. The operator catalogue (07): what a command claims as an operator, from what runs it. -/

namespace Sys2Proof.Machine

/-- A command that runs an operator of the catalogue under its opcode is that operator. -/
theorem operates_of_runOp {c : OpEvent → Instr} {op : Nat} {f : Op → OpOut}
    (hexec : ∀ ev s, exec (c ev) s = s.run fun k => k.runOp ev op f) : Operates c op f := by
  intro s ev r hissue htwice haccess hfree
  exact does_run (hexec ev s) (runOp_gives hissue htwice haccess hfree)

/-- CVT runs the operator of opcode 0x40: bits copied with TA = TD, else each exact value encoded once in TD (R230). -/
theorem exec_cvt (ev : OpEvent) (s : State) : exec (.cvt ev) s = s.run fun k => k.runOp ev 0x40 fun c =>
    c.elementwise [c.a] c.st.td fun j => if c.st.ta = c.st.td then c.a.code j else c.enc (c.a.val j) := rfl

/-- Settles O23: CVT runs its operator, and an operator that may issue gives its results. -/
theorem conversion : Obligations.Conversion := by
  unfold Obligations.Conversion
  exact operates_of_runOp exec_cvt

end Sys2Proof.Machine
end

section
/-! PROOFS. A manager's command on a started entry: the work where it runs, and its completion. -/

namespace Sys2Proof.Machine

/-! ## Entries leaving their ring (R406) -/

/-- Moving DONE over a completed run leaves the started entries as they are (R398). -/
@[simp] theorem advanceDone_started (size fuel : Nat) (r : Ring) : (advanceDone size fuel r).started = r.started := by
  induction fuel generalizing r with
  | zero => rfl
  | succ fuel ih =>
    unfold advanceDone
    split
    · exact ih _
    · rfl

/-- Of the started entries, retiring one takes it out and leaves the others. -/
@[simp] theorem retireEntry_started (i : Nat) (r : Ring) : (retireEntry i r).started = r.started.filter fun x => x.index ≠ i := by
  unfold retireEntry
  dsimp only
  split <;> simp

/-- A work whose ring has retired an entry has it started no more. -/
theorem started_onRing_retireEntry (w : Work) (e : EntryRef) : (w.onRing e.berth e.ring (retireEntry e.index)).started e = none := by
  simp [Work.started]

/-- From one work to the next only rings, and what reports change, have changed. -/
def RingsOnly (w w' : Work) : Prop := quietHub w'.hub = quietHub { w.hub with ten := { w.hub.ten with rings := w'.hub.ten.rings } }

theorem RingsOnly.onRing {w w' : Work} (h : Reports w w') (b r : Nat) (f : Ring → Ring) : RingsOnly w (w'.onRing b r f) :=
  show quietHub _ = quietHub _ from congrArg (fun q : Hub => { q with ten := { q.ten with rings := (w'.onRing b r f).hub.ten.rings } }) h

theorem RingsOnly.memory {w w' : Work} (h : RingsOnly w w') : w'.hub.memory = w.hub.memory := by
  have e := congrArg Hub.memory h; exact e

theorem RingsOnly.ten {w w' : Work} (h : RingsOnly w w') : w'.hub.ten = { w.hub.ten with rings := w'.hub.ten.rings } := by
  have e := congrArg Hub.ten h; exact e

theorem RingsOnly.hawser {w w' : Work} (h : RingsOnly w w') : w'.hub.hawser = w.hub.hawser := by
  have e := congrArg Hub.hawser h; exact e

/-- Where nothing waits, a change of rings brings nothing to settle. -/
theorem RingsOnly.calm {w w' : Work} (h : RingsOnly w w') (hc : w.calm) : w'.calm := by
  unfold Work.calm
  rw [h.hawser, h.memory, h.ten]
  exact hc

/-- A host write by a function that may issue, on a port whose link is up, is emitted. -/
theorem mem_sent_hostWrite (w : Work) (f : FuncRef) (a : Nat) (d : List Byte) (hp : w.portUp f.port = true) (hi : w.mayIssue f = true) :
    .hostWrite f a d ∈ (w.hostWrite f a d).hub.sent := by
  simp [Work.hostWrite, hp, hi, Work.tlp]

/-- Sending a vector's message unsends nothing. -/
theorem sent_sendVector (w : Work) (f : FuncRef) (v owe : Nat) : w.hub.sent ⊆ (w.sendVector f v owe).hub.sent := by
  have hpend : w.hub.sent ⊆ (w.onFunc f fun fn => { fn with pendingVec := addTo fn.pendingVec v }).hub.sent := List.Subset.refl _
  have hout (n : Nat) : w.hub.sent
      ⊆ (if w.mayIssue f then (w.emit (.msix f n)).tlp f.port 1 else w.onFunc f fun fn => { fn with owedVecs := fn.owedVecs ++ [owe] }).hub.sent := by
    split
    · exact List.subset_cons_self _ _
    · exact List.Subset.refl _
  unfold Work.sendVector
  dsimp only
  split
  · split
    · exact hpend
    · exact hout v
  · split
    · exact List.Subset.refl _
    · split
      · exact hpend
      · exact hout _

theorem sent_raise (w : Work) (f : FuncRef) (v owe : Nat) : w.hub.sent ⊆ (w.raise f v owe).hub.sent := by
  unfold Work.raise
  dsimp only
  split
  · exact sent_sendVector (w.onPort _ _) f v owe
  · exact sent_sendVector (w.onFunc _ _) f v owe

theorem sent_irqs (w : Work) (l : List Nat) (src : Nat) : w.hub.sent ⊆ (w.irqs l src).hub.sent :=
  each_keeps (p := fun v => w.hub.sent ⊆ v.hub.sent) l _ w (List.Subset.refl _) fun _ v h => List.Subset.trans h (sent_raise v _ _ _)

/-- Counting an event unsends nothing. -/
theorem sent_count (w : Work) (k i c n : Nat) : w.hub.sent ⊆ (w.count k i c n).hub.sent := by
  unfold Work.count
  dsimp only
  split
  · exact List.Subset.refl _
  · split
    · exact fun _ h => sent_irqs _ _ _ h
    · exact List.Subset.refl _

/-! ## A manager's command on the work where its entry runs -/

/-- On a work the entry of a state runs: its ring is marked so, and what its completion reads besides is as in the state. -/
structure Work.Runs (v : Work) (s : State) (e : EntryRef) : Prop where
  ring : v.ring e.berth e.ring = (s.work.markRunning e).ring e.berth e.ring
  func : v.funcOf e.berth = s.work.funcOf e.berth
  ports : v.hub.ports = s.hub.ports

theorem markRunning_runs (s : State) (e : EntryRef) : (s.work.markRunning e).Runs s e := ⟨rfl, rfl, rfl⟩

/-- A change of the memory units leaves the entry running. -/
theorem Work.Runs.onMem {v : Work} {s : State} {e : EntryRef} (h : v.Runs s e) (f : MemUnits → MemUnits) : (v.onMem f).Runs s e :=
  ⟨h.ring, h.func, h.ports⟩

theorem markRunning_calm {s : State} (h : s.Calm) (e : EntryRef) : (s.work.markRunning e).calm := h

/-- Marking an entry as running changes its progress alone. -/
theorem started_markRunning (w : Work) (e : EntryRef) : (w.markRunning e).started e = (w.started e).map fun x => { x with progress := 1 } := by
  have h (l : List RingEntry) : (l.map fun x => if x.index = e.index then { x with progress := 1 } else x).find? (fun x => x.index = e.index)
      = (l.find? fun x => x.index = e.index).map fun x => { x with progress := 1 } := by
    induction l with
    | nil => rfl
    | cons x l ih => by_cases hx : x.index = e.index <;> simp [hx, ih]
  simp [Work.started, Work.markRunning, h]

/-- A manager's entry that waits for its command, no Helm command, is marked as running and its body begins (R408). -/
theorem command_issued {s : State} {e : EntryRef} {x : RingEntry} {op : Nat} (h : s.Issued e x op) (hm : s.work.isManager e.berth = true)
    (ho : op < 0x14 ∨ 0x16 < op) (k : Nat → Work → Work) : s.work.command e op true k = k x.word (s.work.markRunning e) := by
  obtain ⟨hs, hp, hop, hx, -, -, hpause⟩ := h
  have hh : (decide (0x14 ≤ op) && decide (op ≤ 0x16)) = false := by simp; omega
  simp [Work.command, hs, hp, hop, hx, hpause, hm, hh]

/-- The state's entry reads on the work where it runs. -/
theorem Work.Runs.started {v : Work} {s : State} {e : EntryRef} {x : RingEntry} (h : v.Runs s e) (hs : s.work.started e = some x) :
    v.started e = some { x with progress := 1 } := by
  have hv : v.started e = (s.work.markRunning e).started e := by unfold Work.started; rw [h.ring]
  rw [hv, started_markRunning, hs]
  rfl

theorem Work.Runs.port {v : Work} {s : State} {e : EntryRef} (h : v.Runs s e) (p : Nat) : v.port p = s.work.port p := by
  unfold Work.port; rw [h.ports]; rfl

theorem Work.Runs.portUp {v : Work} {s : State} {e : EntryRef} (h : v.Runs s e) (p : Nat) : v.portUp p = s.work.portUp p := by
  unfold Work.portUp; rw [h.port]

theorem Work.Runs.mayIssue {v : Work} {s : State} {e : EntryRef} (h : v.Runs s e) (f : FuncRef) : v.mayIssue f = s.work.mayIssue f := by
  unfold Work.mayIssue Work.func; rw [h.port]

/-- The completion of a running entry that asks for neither mark nor interrupt: its record, its count, its ring (R406). -/
theorem Work.Runs.complete_eq {v : Work} {s : State} {e : EntryRef} {x : RingEntry} {op : Nat} (h : v.Runs s e) (hi : s.Issued e x op) (st d r : Nat) :
    v.complete e st d r
      = ((v.hostWrite (s.work.funcOf e.berth) ((s.work.ring e.berth e.ring).cplBase + 16 * e.index)
          (leBytes 16 (pack [(16, e.index), (1, bits x.word 12 12), (7, 0), (8, st), (16, d), (16, 0), (64, r)]))).count 15 (s.work.funcOf e.berth).port
          (statusIndex st)).onRing e.berth e.ring (retireEntry e.index) := by
  obtain ⟨hs, -, -, hx, hmark, hirq, -⟩ := hi
  have hring : v.ring e.berth e.ring = { s.work.ring e.berth e.ring with started := (v.ring e.berth e.ring).started } := by
    rw [h.ring]; simp [Work.markRunning]
  have hpx : (v.ring e.berth e.ring).px2 = false := by rw [hring]; exact hx
  have hbase : (v.ring e.berth e.ring).cplBase = (s.work.ring e.berth e.ring).cplBase := by rw [hring]
  simp [Work.complete, h.started hs, Work.finish, h.func, hpx, hbase, entryPhase, hmark, hirq]

/-- A completion changes rings, and what reports change. -/
theorem Work.Runs.complete_ringsOnly {v : Work} {s : State} {e : EntryRef} {x : RingEntry} {op : Nat} (h : v.Runs s e) (hi : s.Issued e x op) (st d r : Nat) :
    RingsOnly v (v.complete e st d r) := by
  rw [h.complete_eq hi]
  exact .onRing ((hostWrite_reports v _ _ _).trans (count_reports _ _ _ _ _)) _ _ _

/-- A running entry that completes has left its ring, its record written (R406). -/
theorem Work.Runs.completes {v : Work} {s : State} {e : EntryRef} {x : RingEntry} {op : Nat} (h : v.Runs s e) (hi : s.Issued e x op) (st d r : Nat) :
    s.Completes (s.commit (v.complete e st d r)) e x st d r := by
  rw [h.complete_eq hi]
  refine ⟨started_onRing_retireEntry _ e, fun hp hm => sent_count _ _ _ _ _ (mem_sent_hostWrite v _ _ _ ?_ ?_)⟩
  · exact (h.portUp _).trans hp
  · exact (h.mayIssue _).trans hm

/-- A command whose effect is to complete a running entry, nothing waiting: the entry completes, and besides rings and what reports change the hub is as the entry's work left it. -/
theorem Work.Runs.does_complete {c : Instr} {s : State} {f : Work → Work} {v : Work} {e : EntryRef} {x : RingEntry} {op st d r : Nat} (h : v.Runs s e)
    (hi : s.Issued e x op) (hc : v.calm) (hexec : exec c s = s.runAll f) (hf : f s.work = v.complete e st d r) :
    Does c s fun t => s.Completes t e x st d r ∧ RingsOnly v t.work ∧ t.pending = s.pending := by
  have hrings := h.complete_ringsOnly hi st d r
  refine does_runAll hexec ?_
  rw [hf, settle_calm _ (hrings.calm hc)]
  exact ⟨h.completes hi st d r, hrings, rfl⟩

/-- A command whose work left all but the tenancy and the memory units as they were has changed these alone once its entry completes. -/
theorem within_of_ringsOnly {s t : State} {v : Work} (h : RingsOnly v t.work) (hp : t.pending = s.pending)
    (hv : v.hub = { s.hub with ten := v.hub.ten, memory := v.hub.memory }) : Within s t (fun h => { h with ten := t.hub.ten, memory := t.hub.memory }) := by
  refine ⟨hp, ?_⟩
  have hmem : t.hub.memory = v.hub.memory := h.memory
  have hq : quietHub t.hub = quietHub { v.hub with ten := t.hub.ten } := congrArg (fun q : Hub => { q with ten := t.hub.ten }) h
  rw [hq, hmem, hv]

end Sys2Proof.Machine
end

section
/-! PROOFS. Tenancy (15): KEY_NEW. -/

namespace Sys2Proof.Machine

/-- The body of a key command names a slot of the pool: a berth's, or a share group's (R440). -/
def Work.namesSlot (w : Work) (e : EntryRef) (body slot : Nat) : Prop :=
  (bit body 142 = false ∧ w.berthInPool e (bits body 141 128) = true ∧ slot = bits body 141 128)
    ∨ (bit body 142 = true ∧ bits body 141 128 < 256 ∧ bit (w.poolOf e).groups (bits body 141 128) = true ∧ slot = 4096 + bits body 141 128)

/-- The body of a key command names nothing of the pool (R440). -/
def Work.namesNoSlot (w : Work) (e : EntryRef) (body : Nat) : Prop :=
  (bit body 142 = false ∧ w.berthInPool e (bits body 141 128) = false)
    ∨ (bit body 142 = true ∧ (256 ≤ bits body 141 128 ∨ bit (w.poolOf e).groups (bits body 141 128) = false))

theorem keySlot_named {w : Work} {e : EntryRef} {body slot : Nat} (h : w.namesSlot e body slot) (k : Nat → Work → Work) :
    w.keySlot e body k = k slot w := by
  rcases h with ⟨hb, hpool, rfl⟩ | ⟨hb, hlt, hpool, rfl⟩
  · simp [Work.keySlot, hb, hpool]
  · have : ¬ 255 < bits body 141 128 := by omega
    simp [Work.keySlot, hb, hpool, this]

theorem keySlot_outside {w : Work} {e : EntryRef} {body : Nat} (h : w.namesNoSlot e body) (k : Nat → Work → Work) :
    w.keySlot e body k = w.complete e stBadIdent := by
  rcases h with ⟨hb, hpool⟩ | ⟨hb, hlt | hpool⟩
  · simp [Work.keySlot, hb, hpool]
  · have : 255 < bits body 141 128 := by omega
    simp [Work.keySlot, hb, this]
  · simp [Work.keySlot, hb, hpool]

/-- A generation of one place is that of another only if both are the same. -/
theorem keyIx_inj {c d g j : Nat} (hg : g < 2) (hj : j < 2) (h : keyIx d j = keyIx c g) : (d, j) = (c, g) := by
  unfold keyIx at h
  rw [Prod.mk.injEq]
  omega

/-- A work with the next fresh key in a generation. -/
def Work.fillKey (w : Work) (slot gen : Nat) : Work :=
  (w.onMem fun m => { m with nextKey := m.nextKey + 1 }).onMem fun m => { m with keys := tset m.keys (keyIx slot gen) w.hub.memory.nextKey }

theorem Work.Runs.fillKey {v : Work} {s : State} {e : EntryRef} (h : v.Runs s e) (c g : Nat) : (v.fillKey c g).Runs s e := (h.onMem _).onMem _

theorem fillKey_calm {w : Work} (h : w.calm) (c g : Nat) : (w.fillKey c g).calm := h

@[simp] theorem fillKey_key (w : Work) (c g : Nat) : (w.fillKey c g).key c g = w.hub.memory.nextKey := by simp [Work.fillKey, Work.key]

theorem fillKey_key_ne (w : Work) {c g d j : Nat} (hg : g < 2) (hj : j < 2) (h : (d, j) ≠ (c, g)) : (w.fillKey c g).key d j = w.key d j := by
  have hix : keyIx d j ≠ keyIx c g := fun e => h (keyIx_inj hg hj e)
  simp [Work.fillKey, Work.key, tget_tset_ne _ _ _ hix]

/-- What KEY_NEW does once its slot is found: a fresh key fills an empty generation, one that holds a key is refused. -/
def Work.keyNewAt (w : Work) (e : EntryRef) (body slot : Nat) : Work :=
  if w.key slot (bits body 143 143) ≠ 0 then w.complete e stBadShape 1 else (w.fillKey slot (bits body 143 143)).complete e stOk

theorem keyNewAt_empty {w : Work} {e : EntryRef} {body slot : Nat} (h : w.key slot (bits body 143 143) = 0) :
    w.keyNewAt e body slot = (w.fillKey slot (bits body 143 143)).complete e stOk := if_neg fun hne => hne h

theorem keyNewAt_held {w : Work} {e : EntryRef} {body slot : Nat} (h : w.key slot (bits body 143 143) ≠ 0) :
    w.keyNewAt e body slot = w.complete e stBadShape 1 := if_pos h

theorem exec_keyNew (e : EntryRef) (s : State) :
    exec (.keyNew e) s = s.runAll fun w => w.command e 0x34 true fun body w => w.keySlot e body fun slot w => w.keyNewAt e body slot := rfl

/-- KEY_NEW of a manager's waiting entry looks for its slot on the work where the entry runs. -/
theorem keyNew_issued {s : State} {e : EntryRef} {x : RingEntry} (h : s.Issued e x 0x34) (hm : s.work.isManager e.berth = true) :
    (s.work.command e 0x34 true fun body w => w.keySlot e body fun slot w => w.keyNewAt e body slot)
      = (s.work.markRunning e).keySlot e x.word fun slot w => w.keyNewAt e x.word slot :=
  command_issued h hm (by omega) _

theorem key_markRunning (w : Work) (e : EntryRef) (slot gen : Nat) : (w.markRunning e).key slot gen = w.key slot gen := rfl

theorem markRunning_namesSlot (w : Work) (e d : EntryRef) (body slot : Nat) : (w.markRunning e).namesSlot d body slot ↔ w.namesSlot d body slot := .rfl

theorem markRunning_namesNoSlot (w : Work) (e d : EntryRef) (body : Nat) : (w.markRunning e).namesNoSlot d body ↔ w.namesNoSlot d body := .rfl

/-- A field of one bit is 0 or 1. -/
theorem bits_single_lt (v i : Nat) : bits v i i < 2 := by
  simp only [bits, Nat.add_sub_cancel_left, Nat.pow_one]
  exact Nat.mod_lt _ (by omega)

section
variable {s : State} {e : EntryRef} {x : RingEntry} {c : Nat} (hi : s.Issued e x 0x34) (hm : s.work.isManager e.berth = true) (hc : s.Calm)
include hi hm hc

/-- KEY_NEW puts the next fresh key into an empty generation, and no other generation changes. -/
theorem keyNew_fills (hslot : s.work.namesSlot e x.word c) (hkey : s.work.key c (bits x.word 143 143) = 0) : Does (.keyNew e) s fun t =>
    t.work.key c (bits x.word 143 143) = s.hub.memory.nextKey ∧ t.hub.memory.nextKey = s.hub.memory.nextKey + 1
      ∧ (∀ d j, j < 2 → (d, j) ≠ (c, bits x.word 143 143) → t.work.key d j = s.work.key d j) ∧ s.Completes t e x 0 0 0
      ∧ Within s t (fun h => { h with ten := t.hub.ten, memory := t.hub.memory }) := by
  have hf := keyNew_issued hi hm
  rw [keySlot_named ((markRunning_namesSlot _ _ _ _ _).2 hslot), keyNewAt_empty ((key_markRunning _ _ _ _).trans hkey)] at hf
  obtain ⟨t, hnext, hdone, hrings, hqueue⟩ :=
    ((markRunning_runs s e).fillKey _ _).does_complete hi (fillKey_calm (markRunning_calm hc e) _ _) (exec_keyNew e s) hf
  have hread (d j : Nat) : t.work.key d j = ((s.work.markRunning e).fillKey c (bits x.word 143 143)).key d j :=
    congrArg (fun m : MemUnits => tget 0 m.keys (keyIx d j)) hrings.memory
  refine ⟨t, hnext, ?_, congrArg MemUnits.nextKey hrings.memory, fun d j hj hne => ?_, hdone, within_of_ringsOnly hrings hqueue rfl⟩
  · exact (hread _ _).trans (fillKey_key _ _ _)
  · exact (hread d j).trans (fillKey_key_ne _ (bits_single_lt _ _) hj hne)

/-- Where KEY_NEW does no more than complete its entry, the memory units are as they were. -/
theorem keyNew_refused {st d : Nat} (hf : ((s.work.markRunning e).keySlot e x.word fun slot w => w.keyNewAt e x.word slot) = (s.work.markRunning e).complete e st d) :
    Does (.keyNew e) s fun t =>
      t.hub.memory = s.hub.memory ∧ s.Completes t e x st d 0 ∧ Within s t (fun h => { h with ten := t.hub.ten, memory := t.hub.memory }) := by
  obtain ⟨t, hnext, hdone, hrings, hqueue⟩ :=
    (markRunning_runs s e).does_complete hi (markRunning_calm hc e) (exec_keyNew e s) ((keyNew_issued hi hm).trans hf)
  exact ⟨t, hnext, hrings.memory, hdone, within_of_ringsOnly hrings hqueue rfl⟩

/-- On a generation that holds a key KEY_NEW completes as BAD_SHAPE with DETAIL 1. -/
theorem keyNew_held (hslot : s.work.namesSlot e x.word c) (hkey : s.work.key c (bits x.word 143 143) ≠ 0) : Does (.keyNew e) s fun t =>
    t.hub.memory = s.hub.memory ∧ s.Completes t e x stBadShape 1 0 ∧ Within s t (fun h => { h with ten := t.hub.ten, memory := t.hub.memory }) := by
  refine keyNew_refused hi hm hc ?_
  rw [keySlot_named ((markRunning_namesSlot _ _ _ _ _).2 hslot)]
  exact keyNewAt_held hkey

/-- KEY_NEW on a slot outside the pool completes as BAD_IDENT. -/
theorem keyNew_outside (hslot : s.work.namesNoSlot e x.word) : Does (.keyNew e) s fun t =>
    t.hub.memory = s.hub.memory ∧ s.Completes t e x stBadIdent 0 0 ∧ Within s t (fun h => { h with ten := t.hub.ten, memory := t.hub.memory }) :=
  keyNew_refused hi hm hc (keySlot_outside ((markRunning_namesNoSlot _ _ _ _).2 hslot) _)

end

/-- Settles O47: KEY_NEW fills an empty generation, and completes with its status where the generation holds a key or the slot is outside the pool. That a berth of the pool is Open is not used. -/
theorem keyNew : Obligations.KeyNew := by
  unfold Obligations.KeyNew
  refine ⟨?_, ?_, ?_⟩
  · rintro s e x _ c _ ⟨hi, hm, hc⟩ rfl rfl hslot hkey
    exact keyNew_fills hi hm hc (hslot.imp_left fun ⟨hb, ⟨hpool, _⟩, heq⟩ => ⟨hb, hpool, heq⟩) hkey
  · rintro s e x _ c _ ⟨hi, hm, hc⟩ rfl rfl hslot hkey
    exact keyNew_held hi hm hc (hslot.imp_left fun ⟨hb, ⟨hpool, _⟩, heq⟩ => ⟨hb, hpool, heq⟩) hkey
  · rintro s e x _ ⟨hi, hm, hc⟩ rfl hslot
    exact keyNew_outside hi hm hc hslot

end Sys2Proof.Machine
end

section
/-! PROOFS. What counting, interrupts and the Logs write, emit and leave of the ports: the memory of the DPA is spared, no Helm message goes out, status bits only rise. -/

namespace Sys2Proof.Machine

/-! ## Cells stored in host memory, read below it

No form of the memory is asked for: a run of bytes that begins with one other than 0x00 lists its first address, and no later byte of the run is seen from below that. -/

theorem lookupCell_eq_tget (m : List Host.Cell) (a : Nat) : lookupCell m a = tget 0 m a := by
  induction m with
  | nil => rfl
  | cons x r ih => obtain ⟨k, v⟩ := x; simp only [lookupCell, tget, ih]

theorem storeCell_eq_tset (m : List Host.Cell) (a : Nat) {b : Byte} (hb : b ≠ 0) : storeCell m a b = tset m a b := by
  induction m with
  | nil => exact if_neg hb
  | cons x r ih => obtain ⟨k, v⟩ := x; simp only [storeCell, tset, hb, ih, if_false]

/-- Past a listed address a store is not seen from there down. -/
theorem tfind_storeCell_below {m : List Host.Cell} {i a : Nat} (hm : (tfind m i).isSome) (ha : i < a) (b : Byte) {c : Nat} (hc : c ≤ i) :
    tfind (storeCell m a b) c = tfind m c := by
  induction m with
  | nil => simp [tfind] at hm
  | cons x r ih =>
    obtain ⟨k, v⟩ := x
    have hk : k = i ∨ k < i ∧ (tfind r i).isSome := by
      by_cases h : k = i
      · exact .inl h
      · by_cases h' : k < i
        · exact .inr ⟨h', by simpa [tfind, h, h'] using hm⟩
        · simp [tfind, h, h'] at hm
    have hka : k ≠ a ∧ k < a := by omega
    simp only [storeCell, hka, if_true, if_false, tfind]
    obtain rfl | ⟨-, hr⟩ := hk
    · have hkc : ¬ k < c := by omega
      simp [hkc]
    · rw [ih hr]

theorem tfind_storeBytes_below {m : List Host.Cell} {i a : Nat} (hm : (tfind m i).isSome) (ha : i < a) (d : List Byte) {c : Nat} (hc : c ≤ i) :
    tfind (storeBytes m a d) c = tfind m c := by
  induction d generalizing m a with
  | nil => rfl
  | cons b d ih =>
    have hstep {j : Nat} (hj : j ≤ i) := tfind_storeCell_below hm ha b hj
    exact (ih (by rwa [hstep (Nat.le_refl i)]) (by omega)).trans (hstep hc)

/-- A byte below a stored run that begins with a byte other than 0x00 reads as before. -/
theorem lookup_storeBytes_below (m : List Host.Cell) {a c : Nat} {b : Byte} (hb : b ≠ 0) (d : List Byte) (hc : c < a) :
    lookupCell (storeBytes m a (b :: d)) c = lookupCell m c := by
  have hrest : tfind (storeBytes (tset m a b) (a + 1) d) c = tfind (tset m a b) c :=
    tfind_storeBytes_below (by simp) (Nat.lt_succ_self a) d (Nat.le_of_lt hc)
  rw [storeBytes, storeCell_eq_tset m a hb, lookupCell_eq_tget, lookupCell_eq_tget, tget_eq_tfind, hrest, ← tget_eq_tfind, tget_tset_ne _ _ _ (Nat.ne_of_lt hc)]

/-- A change of memory that no byte of the DPA shows, whatever the memory. -/
def MemOp.SparesDpa (o : MemOp) : Prop := ∀ m : Mem, ∀ a < 0x0008000000000000, (m.apply o).byte a = m.byte a

theorem hostKey_ge (p a : Nat) : 0x0008000000000000 ≤ hostKey p a := by
  unfold hostKey
  split <;> omega

theorem hostWrite_sparesDpa (p a : Nat) {b : Byte} (hb : b ≠ 0) (d : List Byte) : (MemOp.write (hostKey p a) (b :: d)).SparesDpa :=
  fun m _ hc => lookup_storeBytes_below m.cells hb d (Nat.lt_of_lt_of_le hc (hostKey_ge p a))

theorem byte_applyAll (m : Mem) (l : List MemOp) (hl : ∀ o ∈ l, o.SparesDpa) {a : Nat} (ha : a < 0x0008000000000000) : (m.applyAll l).byte a = m.byte a := by
  induction l generalizing m with
  | nil => rfl
  | cons o l ih => exact (ih (m.apply o) fun x hx => hl x (by simp [hx])).trans (hl o (by simp) m a ha)

/-! ## Signals -/

/-- From one port record to the next the state and the vectors are as before, and no status bit has fallen. -/
structure PortRaises (x y : Port) : Prop where
  state : y.state = x.state
  irq : y.irq = x.irq
  isr : ∀ i j, bit (tget 0 x.isr i) j = true → bit (tget 0 y.isr i) j = true

theorem PortRaises.refl (x : Port) : PortRaises x x := ⟨rfl, rfl, fun _ _ h => h⟩

theorem PortRaises.trans {x y z : Port} (h : PortRaises x y) (k : PortRaises y z) : PortRaises x z :=
  ⟨k.state.trans h.state, k.irq.trans h.irq, fun i j hb => k.isr i j (h.isr i j hb)⟩

/-- From one work to the next: memory of the DPA is spared, no Helm message has gone out and nothing is unsent, the ports raise at most status bits. -/
structure Signals (w w' : Work) : Prop where
  writes : ∃ l, w'.writes = l ++ w.writes ∧ ∀ o ∈ l, o.SparesDpa
  sent : ∃ l, w'.hub.sent = l ++ w.hub.sent ∧ ∀ q k m, Out.helm q k m ∉ l
  port : ∀ p, PortRaises (w.port p) (w'.port p)

theorem Signals.trans {a b c : Work} (h : Signals a b) (k : Signals b c) : Signals a c := by
  obtain ⟨⟨l, hl, hlow⟩, ⟨o, ho, hhelm⟩, hport⟩ := h
  obtain ⟨⟨l', kl, klow⟩, ⟨o', ko, khelm⟩, kport⟩ := k
  refine ⟨⟨l' ++ l, by rw [kl, hl, List.append_assoc], ?_⟩, ⟨o' ++ o, by rw [ko, ho, List.append_assoc], ?_⟩, fun p => (hport p).trans (kport p)⟩
  · exact fun x hx => (List.mem_append.1 hx).elim (klow x) (hlow x)
  · exact fun q k m hx => (List.mem_append.1 hx).elim (khelm q k m) (hhelm q k m)

/-- Signals that leave the management Log as it is. -/
structure Alerts (w w' : Work) : Prop extends Signals w w' where
  mlog : w'.hub.mlog = w.hub.mlog

theorem Alerts.trans {a b c : Work} (h : Alerts a b) (k : Alerts b c) : Alerts a c := ⟨h.toSignals.trans k.toSignals, k.mlog.trans h.mlog⟩

/-- A work that has written and emitted nothing, its ports raising at most status bits. -/
theorem Signals.silent {w w' : Work} (hw : w'.writes = w.writes) (hs : w'.hub.sent = w.hub.sent) (hp : ∀ p, PortRaises (w.port p) (w'.port p)) : Signals w w' :=
  ⟨⟨[], hw, by simp⟩, ⟨[], hs, by simp⟩, hp⟩

theorem Alerts.refl (w : Work) : Alerts w w := ⟨.silent rfl rfl fun _ => .refl _, rfl⟩

theorem Alerts.each {α : Type} (l : List α) (f : α → Work → Work) (w : Work) (hf : ∀ a w, Alerts w (f a w)) : Alerts w (each l f w) :=
  each_keeps l f w (.refl w) fun a _ h => h.trans (hf a _)

/-- A change of blocks other than the ports, the emissions and the management Log, memory not. -/
theorem Alerts.elsewhere {w w' : Work} (hw : w'.writes = w.writes) (hs : w'.hub.sent = w.hub.sent) (hp : w'.hub.ports = w.hub.ports)
    (hm : w'.hub.mlog = w.hub.mlog) : Alerts w w' := by
  refine ⟨.silent hw hs fun p => ?_, hm⟩
  rw [Work.port, Work.port, hp]
  exact .refl _

theorem Alerts.onPort (w : Work) (p : Nat) (f : Port → Port) (h : PortRaises (w.port p) (f (w.port p))) : Alerts w (w.onPort p f) := by
  refine ⟨.silent rfl rfl fun q => ?_, rfl⟩
  by_cases hq : q = p
  · subst hq
    rw [port_onPort]
    exact h
  · rw [port_onPort_ne w f hq]
    exact .refl _

theorem Alerts.onFunc (w : Work) (f : FuncRef) (g : Func → Func) : Alerts w (w.onFunc f g) := .onPort w _ _ ⟨rfl, rfl, fun _ _ h => h⟩

theorem Alerts.emit (w : Work) (o : Out) (ho : ∀ q k m, o ≠ .helm q k m) : Alerts w (w.emit o) :=
  ⟨⟨⟨[], rfl, by simp⟩, ⟨[o], rfl, fun q k m h => ho q k m (List.mem_singleton.1 h).symm⟩, fun _ => .refl _⟩, rfl⟩

theorem tlp_alerts (w : Work) (p c n : Nat) : Alerts w (w.tlp p c n) := .elsewhere rfl rfl rfl rfl

/-- A write into host memory that begins with a byte other than 0x00. -/
theorem hostWrite_alerts (w : Work) (f : FuncRef) (a : Nat) {b : Byte} (hb : b ≠ 0) (d : List Byte) : Alerts w (w.hostWrite f a (b :: d)) := by
  unfold Work.hostWrite
  split
  · exact .refl w
  · split
    · have hpoke : Alerts w (w.poke (hostKey f.port a) (b :: d)) :=
        ⟨⟨⟨[.write (hostKey f.port a) (b :: d)], by simp [Work.poke], by simpa using hostWrite_sparesDpa f.port a hb d⟩, ⟨[], by simp [Work.poke], by simp⟩,
          fun p => by simpa [Work.poke] using .refl _⟩, by simp [Work.poke]⟩
      exact (hpoke.trans (.emit _ _ (by simp))).trans (tlp_alerts _ _ _ _)
    · exact .onFunc w _ _

theorem sendVector_alerts (w : Work) (f : FuncRef) (v owe : Nat) : Alerts w (w.sendVector f v owe) := by
  have hout (n : Nat) : Alerts w
      (if w.mayIssue f then (w.emit (.msix f n)).tlp f.port 1 else w.onFunc f fun fn => { fn with owedVecs := fn.owedVecs ++ [owe] }) := by
    split
    · exact (Alerts.emit w _ (by simp)).trans (tlp_alerts _ _ _ _)
    · exact .onFunc w _ _
  unfold Work.sendVector
  dsimp only
  split
  · split
    · exact .onFunc w _ _
    · exact hout v
  · split
    · exact .refl w
    · split
      · exact .onFunc w _ _
      · exact hout _

/-- Setting bits of a status word lets none fall. -/
theorem raises_isr (x : Port) (i b : Nat) : PortRaises x { x with isr := tmod 0 x.isr i (· ||| b) } := by
  refine ⟨rfl, rfl, fun i' j h => ?_⟩
  by_cases hi : i' = i
  · subst hi
    rw [tget_tmod_self, bit, Nat.testBit_or]
    exact Bool.or_eq_true_iff.2 (.inl h)
  · rwa [tget_tmod_ne _ _ _ hi]

theorem raise_alerts (w : Work) (f : FuncRef) (v owe : Nat) : Alerts w (w.raise f v owe) := by
  unfold Work.raise
  dsimp only
  split
  · exact (Alerts.onPort w _ _ (raises_isr _ _ _)).trans (sendVector_alerts _ _ _ _)
  · exact (Alerts.onFunc w _ _).trans (sendVector_alerts _ _ _ _)

theorem irq_alerts (w : Work) (p src : Nat) : Alerts w (w.irq p src) := raise_alerts w _ _ _

theorem irqs_alerts (w : Work) (l : List Nat) (src : Nat) : Alerts w (w.irqs l src) := .each l _ w fun p v => irq_alerts v p src

theorem count_alerts (w : Work) (k i c n : Nat) : Alerts w (w.count k i c n) := by
  unfold Work.count
  dsimp only
  split
  · exact .elsewhere rfl rfl rfl rfl
  · split
    · refine Alerts.trans ?_ (irqs_alerts _ _ _)
      exact .elsewhere rfl rfl rfl rfl
    · exact .elsewhere rfl rfl rfl rfl

/-! ## What signals leave -/

theorem Signals.portsUp {w w' : Work} (h : Signals w w') : w'.portsUp = w.portsUp := by
  unfold Work.portsUp Work.portUp
  simp only [(h.port _).state]

theorem Signals.irqVector {w w' : Work} (h : Signals w w') (p src : Nat) : w'.irqVector p src = w.irqVector p src := by
  unfold Work.irqVector
  rw [(h.port p).irq]

theorem Signals.sent_subset {w w' : Work} (h : Signals w w') : w.hub.sent ⊆ w'.hub.sent := by
  obtain ⟨l, hl, -⟩ := h.sent
  rw [hl]
  exact List.subset_append_right _ _

theorem Signals.helm_sent {w w' : Work} (h : Signals w w') {q k : Nat} {m : HelmMsg} (hm : .helm q k m ∈ w'.hub.sent) : .helm q k m ∈ w.hub.sent := by
  obtain ⟨l, hl, hhelm⟩ := h.sent
  rw [hl] at hm
  exact (List.mem_append.1 hm).resolve_left (hhelm q k m)

/-- What signals write, once committed, is not seen in the DPA. -/
theorem Signals.commit_byte {s : State} {w : Work} (h : Signals s.work w) {a : Nat} (ha : a < 0x0008000000000000) : (s.commit w).mem.byte a = s.mem.byte a := by
  obtain ⟨l, hl, hlow⟩ := h.writes
  rw [work_writes, List.append_nil] at hl
  rw [commit_mem, hl]
  exact byte_applyAll _ _ (fun o ho => hlow o (List.mem_reverse.1 ho)) ha

/-- The status bit of a source's vector on a port stands (R573). -/
def Work.raised (w : Work) (p v : Nat) : Prop := bit (tget 0 (w.port p).isr (v / 64)) (v % 64) = true

theorem Signals.raised {w w' : Work} (h : Signals w w') {p v : Nat} (hr : w.raised p v) : w'.raised p v := (h.port p).isr _ _ hr

theorem irq_raised (w : Work) (p src : Nat) : (w.irq p src).raised p (w.irqVector p src) := by
  refine (sendVector_alerts _ _ _ _).toSignals.raised ?_
  simp [Work.raised, bit]

/-- A source raised on several ports has its status bit set on each. -/
theorem irqs_raised (w : Work) {l : List Nat} (src : Nat) {p : Nat} (hp : p ∈ l) : (w.irqs l src).raised p (w.irqVector p src) := by
  induction l generalizing w with
  | nil => simp at hp
  | cons q l ih =>
    obtain rfl | hp := List.mem_cons.1 hp
    · exact (irqs_alerts _ l src).toSignals.raised (irq_raised w p src)
    · rw [← (irq_alerts w q src).toSignals.irqVector p src]
      exact ih _ hp

/-! ## The Logs -/

theorem putBits_mod {w hi lo v : Nat} (hlo : 8 ≤ lo) : putBits w hi lo v % 256 = w % 256 := by
  obtain ⟨d, hd⟩ : 256 ∣ 2 ^ lo := Nat.pow_dvd_pow 2 (m := 8) hlo
  have hle : bits w hi lo * 2 ^ lo ≤ w := Nat.le_trans (Nat.mul_le_mul_right _ (Nat.mod_le _ _)) (Nat.div_mul_le_self w (2 ^ lo))
  unfold putBits
  rw [hd, Nat.mul_left_comm, Nat.mul_left_comm (_ % _), Nat.add_mul_mod_self_left]
  rw [hd, Nat.mul_left_comm] at hle
  omega

/-- The first byte of an entry is its class (R548). -/
theorem logWord_mod (now seq : Nat) (e : LogEvent) : logWord now seq e % 256 = e.cls % 256 := by
  unfold logWord
  rw [pack]
  omega

theorem logPri_seq (r : LogRing) (x : Nat) : (logPri r x).1.seq = r.seq := by
  unfold logPri
  split
  · rfl
  · split <;> rfl

/-- An entry takes the next sequence number of the management Log (R548). -/
theorem mlogPut_seq (w : Work) (e : LogEvent) : (w.mlogPut e).hub.mlog.seq = (w.hub.mlog.seq + 1) % 2 ^ 32 := by
  unfold Work.mlogPut
  dsimp only
  split
  · split <;> exact logPri_seq _ _
  · exact logPri_seq _ _

theorem mlogPut_signals (w : Work) (e : LogEvent) : Signals w (w.mlogPut e) := by
  have hlog (r : LogRing) : Signals w (w.onHub fun h => { h with mlog := r }) := .silent rfl rfl fun _ => .refl _
  unfold Work.mlogPut
  dsimp only
  split
  · split
    · exact (hlog _).trans (Alerts.emit _ _ (by simp)).toSignals
    · exact hlog _
  · exact hlog _

theorem setLog_alerts (w : Work) (p : Nat) (r : LogRing) : Alerts w (w.setLog p r) := .onPort w _ _ ⟨rfl, rfl, fun _ _ h => h⟩

/-- An entry of a class other than 0 written into host memory. -/
theorem hostWrite_entry_alerts (w : Work) (f : FuncRef) (a : Nat) {x : Nat} (hx : x % 256 ≠ 0) : Alerts w (w.hostWrite f a (leBytes 32 x)) := by
  refine hostWrite_alerts w f a (fun h => hx ?_) _
  have := congrArg BitVec.toNat h
  simpa using this

theorem plogPri_alerts (w : Work) (p : Nat) (r : LogRing) {x : Nat} (hx : x % 256 ≠ 0) (slot : Option Nat) : Alerts w (w.plogPri p r x slot) := by
  cases slot with
  | none => exact .refl w
  | some i => exact hostWrite_entry_alerts w _ _ hx

theorem plogStore_alerts (w : Work) (p : Nat) (r : LogRing) {x : Nat} (hx : x % 256 ≠ 0) (cls sev : Nat) : Alerts w (w.plogStore p r x cls sev) := by
  have hy : (logAppend r x).2 % 256 ≠ 0 := by rwa [logAppend, putBits_mod (by omega)]
  have hput := (setLog_alerts w p (logAppend r x).1).trans (hostWrite_entry_alerts _ { port := p, func := 0 } (r.base + 32 * r.tail) hy)
  unfold Work.plogStore
  dsimp only
  split
  · split
    · exact (setLog_alerts w _ _).trans (irq_alerts _ _ _)
    · exact setLog_alerts w _ _
  · split
    · exact hput.trans (irq_alerts _ _ _)
    · exact hput

theorem plogPut_alerts (w : Work) (p : Nat) {e : LogEvent} (he : e.cls % 256 ≠ 0) : Alerts w (w.plogPut p e) := by
  unfold Work.plogPut
  dsimp only
  split
  · exact setLog_alerts w _ _
  · split
    · exact setLog_alerts w _ _
    · have hx (seq v : Nat) : putBits (logWord w.now seq e) 12 12 v % 256 ≠ 0 := by rwa [putBits_mod (by omega), logWord_mod]
      exact (plogPri_alerts w p _ (hx _ _) _).trans (plogStore_alerts _ p _ (hx _ _) _ _)

/-- Once the management Log has an entry, the ports' Logs leave it. -/
theorem log_alerts (w : Work) {e : LogEvent} (he : e.cls % 256 ≠ 0) : Alerts (w.mlogPut e) (w.log e) := by
  unfold Work.log
  exact .each _ _ _ fun p v => plogPut_alerts v p he

theorem log_signals (w : Work) {e : LogEvent} (he : e.cls % 256 ≠ 0) : Signals w (w.log e) := (mlogPut_signals w e).trans (log_alerts w he).toSignals

theorem log_seq (w : Work) {e : LogEvent} (he : e.cls % 256 ≠ 0) : (w.log e).hub.mlog.seq = (w.hub.mlog.seq + 1) % 2 ^ 32 := by
  rw [(log_alerts w he).mlog, mlogPut_seq]

end Sys2Proof.Machine
end

section
/-! PROOFS. The Binnacle (18): ageing of the points, and the retirement of OP7 (R517, R518). -/

namespace Sys2Proof.Machine

/-! ## Preferences -/

/-- With OP7 retired the arithmetic preference is OP6 at most (R518). -/
theorem preferences_retired (w : Work) (h : w.hub.bin.op7Retired = true) : w.preferences.1 ≤ 6 := by
  have hcap (op : Nat) : w.arithCap op ≤ 6 := by
    rw [Work.arithCap, if_pos h]
    exact Nat.min_le_right op 6
  unfold Work.preferences
  split <;> exact hcap _

/-! ## What ageing leaves of OP7 -/

/-- From one work to the next only the Binnacle, the start's profile, and what reports change have changed. -/
def BinFrame (w w' : Work) : Prop := quietHub w'.hub = quietHub { w.hub with bin := w'.hub.bin, start := w'.hub.start }

theorem BinFrame.trans {a b c : Work} (h : BinFrame a b) (k : BinFrame b c) : BinFrame a c :=
  Eq.trans k (congrArg (fun q : Hub => { q with bin := c.hub.bin, start := c.hub.start }) h)

theorem BinFrame.ofReports {w w' : Work} (h : Reports w w') : BinFrame w w' := by
  unfold BinFrame
  rw [h.bin, h.start]
  exact h

/-- From one work to the next the Binnacle has worked on points, and OP7 has its trim and its standing as before. -/
structure KeepsSeven (w w' : Work) : Prop extends Alerts w w' where
  frame : BinFrame w w'
  retired : w'.hub.bin.op7Retired = w.hub.bin.op7Retired
  profile : w'.hub.start.profile.op7Retired = w.hub.start.profile.op7Retired
  trim : tget 0 w'.hub.bin.trims 7 = tget 0 w.hub.bin.trims 7

theorem KeepsSeven.trans {a b c : Work} (h : KeepsSeven a b) (k : KeepsSeven b c) : KeepsSeven a c :=
  ⟨h.toAlerts.trans k.toAlerts, h.frame.trans k.frame, k.retired.trans h.retired, k.profile.trans h.profile, k.trim.trans h.trim⟩

theorem KeepsSeven.ofReports {w w' : Work} (h : Reports w w') (k : Alerts w w') : KeepsSeven w w' :=
  ⟨k, .ofReports h, by rw [h.bin], by rw [h.start], by rw [h.bin]⟩

theorem KeepsSeven.refl (w : Work) : KeepsSeven w w := .ofReports (.refl w) (.refl w)

theorem KeepsSeven.count (w : Work) (k i c n : Nat) : KeepsSeven w (w.count k i c n) := .ofReports (count_reports w k i c n) (count_alerts w k i c n)

theorem onBin_alerts (w : Work) (f : Bin → Bin) : Alerts w (w.onBin f) := .elsewhere rfl rfl rfl rfl

theorem onProfile_alerts (w : Work) (f : Profile → Profile) : Alerts w (w.onProfile f) := .elsewhere rfl rfl rfl rfl

theorem KeepsSeven.onBin (w : Work) (f : Bin → Bin) (hr : (f w.hub.bin).op7Retired = w.hub.bin.op7Retired)
    (ht : tget 0 (f w.hub.bin).trims 7 = tget 0 w.hub.bin.trims 7) : KeepsSeven w (w.onBin f) :=
  ⟨onBin_alerts w f, rfl, hr, rfl, ht⟩

theorem setVoltage_reports (w : Work) (op : Nat) : Reports w (w.setVoltage op) := by
  unfold Work.setVoltage
  split
  · exact .refl w
  · exact emit_reports w _

theorem KeepsSeven.setVoltage (w : Work) (op : Nat) : KeepsSeven w (w.setVoltage op) := by
  refine .ofReports (setVoltage_reports w op) ?_
  unfold Work.setVoltage
  split
  · exact .refl w
  · exact .emit w _ (by simp)

/-- The turn of one domain in `Work.retarget`: its point and the change towards it (R508). -/
def Work.retargetTo (d t : Nat) (w : Work) : Work :=
  if opTarget w.hub.bin d = t then w
  else
    let w := (w.onBin fun b => { b with pendingOp := tset b.pendingOp d t, partly := true }).count 18 0 (16 + d)
    if d = 0 then w.setVoltage t else w

theorem retarget_eq (w : Work) : w.retarget =
    each [(0, min w.preferences.1 (levelArith w.hub.bin.level)), (1, min w.preferences.2.1 (levelHold w.hub.bin.level)), (2, min w.preferences.2.2.1 (levelMem w.hub.bin.level))]
      (fun x v => v.retargetTo x.1 x.2) w := rfl

theorem retargetTo_keepsSeven (w : Work) (d t : Nat) : KeepsSeven w (w.retargetTo d t) := by
  have hbegin := (KeepsSeven.onBin w (fun b => { b with pendingOp := tset b.pendingOp d t, partly := true }) rfl rfl).trans (.count _ 18 0 (16 + d) 1)
  unfold Work.retargetTo
  dsimp only
  split
  · exact .refl w
  · split
    · exact hbegin.trans (.setVoltage _ t)
    · exact hbegin

theorem retarget_keepsSeven (w : Work) : KeepsSeven w w.retarget := by
  rw [retarget_eq]
  exact each_keeps _ _ w (.refl w) fun x v h => h.trans (retargetTo_keepsSeven v x.1 x.2)

theorem retargetTo_trims (w : Work) (d t : Nat) : (w.retargetTo d t).hub.bin.trims = w.hub.bin.trims := by
  unfold Work.retargetTo
  dsimp only
  split
  · rfl
  · split
    · rw [(setVoltage_reports _ t).bin]
      simp
    · simp

theorem retarget_trims (w : Work) : w.retarget.hub.bin.trims = w.hub.bin.trims := by
  rw [retarget_eq]
  exact each_same (fun v : Work => v.hub.bin.trims) _ _ w fun x v => retargetTo_trims v x.1 x.2

/-! ## A point whose slack is below its floor -/

/-- OP7 retired, in the Binnacle and in the profile (R518). -/
def Work.retireSeven (w : Work) : Work := (w.onBin fun b => { b with op7Retired := true }).onProfile fun p => { p with op7Retired := true }

/-- The Log entry and the throttle interrupt of a retired OP7 (R518). -/
def Work.tellRetired (w : Work) : Work := ((w.log { cls := 0x12, sev := 1, cause := 0x800A }).emit (.pldm 11)).irqs w.portsUp 11

/-- A trim of 5 mV more, counted and noted in the profile (R517). -/
def Work.trimRaised (w : Work) (op v : Nat) : Work :=
  ((w.onBin fun b => { b with trims := tset b.trims op v }).count 18 0 21).onProfile fun p => { p with trims := tset p.trims op v }

theorem trimUp_raises {w : Work} {op : Nat} (h : tget 0 w.hub.bin.trims op + 5 ≤ 60) :
    let v := w.trimRaised op (tget 0 w.hub.bin.trims op + 5)
    w.trimUp op = if opTarget v.hub.bin 0 = op then v.setVoltage op else v := by
  simp only [Work.trimUp, h, if_true]
  rfl

theorem trimUp_retires {w : Work} (h : 55 < tget 0 w.hub.bin.trims 7) (hr : w.hub.bin.op7Retired = false) :
    w.trimUp 7 = w.retireSeven.tellRetired.retarget := by
  have hv : ¬ tget 0 w.hub.bin.trims 7 + 5 ≤ 60 := by omega
  simp only [Work.trimUp, hv, hr, if_false]
  rfl

/-- Points other than OP7, and OP7 once retired, stay as they are at their bound (log 161). -/
theorem trimUp_bounded {w : Work} {op : Nat} (h : 60 < tget 0 w.hub.bin.trims op + 5) (hop : op ≠ 7 ∨ w.hub.bin.op7Retired = true) : w.trimUp op = w := by
  have hv : ¬ tget 0 w.hub.bin.trims op + 5 ≤ 60 := by omega
  have hseven : (decide (op = 7) && !w.hub.bin.op7Retired) = false := by rcases hop with hop | hop <;> simp [hop]
  simp [Work.trimUp, hv, hseven]

theorem trimRaised_trims (w : Work) (op v : Nat) : (w.trimRaised op v).hub.bin.trims = tset w.hub.bin.trims op v := by
  have h : (w.trimRaised op v).hub.bin = ((w.onBin fun b => { b with trims := tset b.trims op v }).count 18 0 21).hub.bin := rfl
  rw [h, count_bin]
  rfl

theorem retireSeven_keeps (w : Work) : Alerts w w.retireSeven ∧ BinFrame w w.retireSeven :=
  ⟨(onBin_alerts w _).trans (onProfile_alerts _ _), rfl⟩

theorem tellRetired_reports (w : Work) : Reports w w.tellRetired := ((log_reports w _).trans (emit_reports _ _)).trans (irqs_reports _ _ _)

/-- A point's trim after its slack fell below its floor: 5 mV more, within 60 mV (R517, R518). -/
theorem trimUp_trims (w : Work) (op : Nat) :
    (w.trimUp op).hub.bin.trims = if tget 0 w.hub.bin.trims op + 5 ≤ 60 then tset w.hub.bin.trims op (tget 0 w.hub.bin.trims op + 5) else w.hub.bin.trims := by
  split
  next h =>
    rw [trimUp_raises h, ← trimRaised_trims]
    split
    · rw [(setVoltage_reports _ op).bin]
    · rfl
  next h =>
    by_cases hop : op ≠ 7 ∨ w.hub.bin.op7Retired = true
    · rw [trimUp_bounded (by omega) hop]
    · obtain ⟨rfl, hr⟩ : op = 7 ∧ w.hub.bin.op7Retired = false := by simpa using hop
      rw [trimUp_retires (by omega) hr, retarget_trims, (tellRetired_reports _).bin]
      rfl

/-- No trim passes 60 mV where none had (R518). -/
theorem trimUp_bound (w : Work) (op : Nat) (h : ∀ p < 8, tget 0 w.hub.bin.trims p ≤ 60) : ∀ p < 8, tget 0 (w.trimUp op).hub.bin.trims p ≤ 60 := by
  intro p hp
  rw [trimUp_trims]
  split
  next hv =>
    by_cases hpo : p = op
    · rw [hpo, tget_tset_self]
      exact hv
    · rw [tget_tset_ne _ _ _ hpo]
      exact h p hp
  next => exact h p hp

theorem trimRaised_keepsSeven (w : Work) {op : Nat} (hop : op ≠ 7) (v : Nat) : KeepsSeven w (w.trimRaised op v) := by
  have hbin := KeepsSeven.onBin w (fun b => { b with trims := tset b.trims op v }) rfl (tget_tset_ne _ _ _ hop.symm)
  have hcount := hbin.trans (.count _ 18 0 21 1)
  exact hcount.trans ⟨onProfile_alerts _ _, rfl, rfl, rfl, rfl⟩

/-- A point other than OP7 leaves OP7 as it is. -/
theorem trimUp_keepsSeven (w : Work) {op : Nat} (hop : op ≠ 7) : KeepsSeven w (w.trimUp op) := by
  by_cases h : tget 0 w.hub.bin.trims op + 5 ≤ 60
  · have hraised := trimRaised_keepsSeven w hop (tget 0 w.hub.bin.trims op + 5)
    rw [trimUp_raises h]
    split
    · exact hraised.trans (.setVoltage _ op)
    · exact hraised
  · rw [trimUp_bounded (by omega) (.inl hop)]
    exact .refl w

/-! ## The retirement of OP7 -/

theorem tellRetired_signals (w : Work) : Signals w w.tellRetired :=
  (log_signals w (by decide)).trans ((Alerts.emit _ _ (by simp)).trans (irqs_alerts _ _ _)).toSignals

theorem tellRetired_seq (w : Work) : w.tellRetired.hub.mlog.seq = (w.hub.mlog.seq + 1) % 2 ^ 32 := by
  rw [Work.tellRetired, (irqs_alerts _ _ _).mlog, emit_mlog, log_seq w (by decide)]

theorem tellRetired_pldm (w : Work) : .pldm 11 ∈ w.tellRetired.hub.sent :=
  sent_irqs _ _ _ (by exact List.mem_cons_self)

theorem tellRetired_raised (w : Work) {p : Nat} (hp : p ∈ w.portsUp) : w.tellRetired.raised p (w.irqVector p 11) := by
  have hlogged := (log_signals w (e := { cls := 0x12, sev := 1, cause := 0x800A }) (by decide)).trans (Alerts.emit _ (.pldm 11) (by simp)).toSignals
  rw [← hlogged.irqVector p 11]
  exact irqs_raised _ 11 hp

/-- OP7 needed more and was retired, from one work to the next: both records say so, its trim stands, the Log has an entry, the throttle interrupt is raised (R518). -/
structure RetiresSeven (w w' : Work) : Prop extends Signals w w' where
  frame : BinFrame w w'
  retired : w'.hub.bin.op7Retired = true
  profile : w'.hub.start.profile.op7Retired = true
  trim : tget 0 w'.hub.bin.trims 7 = tget 0 w.hub.bin.trims 7
  seq : w'.hub.mlog.seq = (w.hub.mlog.seq + 1) % 2 ^ 32
  pldm : .pldm 11 ∈ w'.hub.sent
  raised : ∀ p ∈ w.portsUp, w'.raised p (w.irqVector p 11)

theorem trimUp_retiresSeven {w : Work} (h : 55 < tget 0 w.hub.bin.trims 7) (hr : w.hub.bin.op7Retired = false) : RetiresSeven w (w.trimUp 7) := by
  obtain ⟨halert, hframe⟩ := retireSeven_keeps w
  have htold := tellRetired_reports w.retireSeven
  have hgo := retarget_keepsSeven w.retireSeven.tellRetired
  rw [trimUp_retires h hr]
  exact {
    toSignals := (halert.toSignals.trans (tellRetired_signals _)).trans hgo.toSignals
    frame := (hframe.trans (.ofReports htold)).trans hgo.frame
    retired := by rw [hgo.retired, htold.bin]; rfl
    profile := by rw [hgo.profile, htold.start]; rfl
    trim := by rw [hgo.trim, htold.bin]; rfl
    seq := by rw [hgo.mlog, tellRetired_seq, halert.mlog]
    pldm := hgo.sent_subset (tellRetired_pldm _)
    raised := fun p hp => hgo.toSignals.raised (tellRetired_raised w.retireSeven hp) }

/-- A retirement after work on other points is one from before it. -/
theorem KeepsSeven.retires {a b c : Work} (h : KeepsSeven a b) (k : RetiresSeven b c) : RetiresSeven a c where
  toSignals := h.toSignals.trans k.toSignals
  frame := h.frame.trans k.frame
  retired := k.retired
  profile := k.profile
  trim := k.trim.trans h.trim
  seq := by rw [k.seq, h.mlog]
  pldm := k.pldm
  raised p hp := by
    rw [← h.toSignals.irqVector p 11]
    exact k.raised p (by rwa [h.toSignals.portsUp])

/-! ## A measurement of ageing -/

/-- The points of a measurement, each in its turn (R517). -/
def Work.aged (w : Work) (l : List Nat) : Work := each ((List.range 8).filter fun p => p ∈ l) (fun p w => w.trimUp p) w

theorem exec_ageingMeasurement (l : List Nat) (s : State) : exec (.ageingMeasurement l) s = s.run fun w => if !w.binUp then w else w.aged l := rfl

theorem aged_bound (w : Work) (l : List Nat) (h : ∀ p < 8, tget 0 w.hub.bin.trims p ≤ 60) : ∀ p < 8, tget 0 (w.aged l).hub.bin.trims p ≤ 60 :=
  each_keeps (p := fun v : Work => ∀ p < 8, tget 0 v.hub.bin.trims p ≤ 60) _ _ w h fun op v hv => trimUp_bound v op hv

/-- Points other than OP7, one after another, leave OP7 as it is. -/
theorem each_trimUp_keepsSeven (l : List Nat) (hl : ∀ p ∈ l, p ≠ 7) (w : Work) : KeepsSeven w (each l (fun p w => w.trimUp p) w) := by
  induction l generalizing w with
  | nil => exact .refl w
  | cons p l ih => exact (trimUp_keepsSeven w (hl p (by simp))).trans (ih (fun q hq => hl q (by simp [hq])) _)

/-- OP7's turn in a measurement is the last. -/
theorem aged_seven_last (w : Work) {l : List Nat} (h : 7 ∈ l) :
    w.aged l = (each ((List.range 7).filter fun p => p ∈ l) (fun p w => w.trimUp p) w).trimUp 7 := by
  simp [Work.aged, each, List.range_succ (n := 7), h]

theorem aged_retiresSeven {w : Work} {l : List Nat} (hl : 7 ∈ l) (h : 55 < tget 0 w.hub.bin.trims 7) (hr : w.hub.bin.op7Retired = false) : RetiresSeven w (w.aged l) := by
  have hbefore : KeepsSeven w (each ((List.range 7).filter fun p => p ∈ l) (fun p w => w.trimUp p) w) :=
    each_trimUp_keepsSeven _ (fun p hp => by have := List.mem_range.1 (List.mem_filter.1 hp).1; omega) w
  rw [aged_seven_last w hl]
  exact hbefore.retires (trimUp_retiresSeven (by rwa [hbefore.trim]) (by rwa [hbefore.retired]))

/-! ## The arithmetic clock at its point -/

theorem sendPhase_alerts (w : Work) : Alerts w w.sendPhase := .each _ _ _ fun n v => .emit v _ (by simp)

theorem sendPhase_bin (w : Work) : w.sendPhase.hub.bin = w.hub.bin := each_same (fun v : Work => v.hub.bin) _ _ w fun _ _ => rfl

theorem sendPhase_preferences (w : Work) : w.sendPhase.preferences = w.preferences := each_same Work.preferences _ _ w fun _ _ => rfl

/-- The arithmetic point is v, and no change of it is under way. -/
def Work.arithAt (w : Work) (v : Nat) : Work :=
  w.onBin fun b => { b with pendingOp := tdel b.pendingOp 0, partly := tdel b.pendingOp 0 ≠ [], arithOp := v }

theorem arithAt_preferences (w : Work) (v : Nat) : (w.arithAt v).preferences = w.preferences := rfl

/-- A point not below the preference slows nobody: the sites hear of it, where it is new, and no hub (R508, R514). -/
theorem opReached_preferred {w : Work} {v : Nat} (h : tfind w.hub.bin.pendingOp 0 = some v) (hv : w.preferences.1 ≤ v) :
    w.opReached 0 = if v = w.hub.bin.arithOp then w.arithAt v else (w.arithAt v).sendPhase := by
  have hpref : ¬ v < (w.arithAt v).sendPhase.preferences.1 := by rw [sendPhase_preferences, arithAt_preferences]; omega
  have hslow : (decide (v < (w.arithAt v).sendPhase.preferences.1) && decide (v < w.hub.bin.arithOp)) = false := by simp [hpref]
  have hmem : (0 : Nat) ≠ 2 := by decide
  simp only [Work.opReached, h, ne_eq, not_true_eq_false, if_true, if_false, Nat.zero_ne_one, hmem]
  unfold Work.arithAt at hslow ⊢
  simp only [hslow, Bool.false_eq_true, if_false]

theorem exec_opChangeDone_arith (s : State) (hup : s.work.binUp = true) (hs : s.hub.bin.stretched = false) :
    exec (.opChangeDone 0) s = .next (s.commit (s.work.opReached 0)) := by
  have h : exec (.opChangeDone 0) s = .next (s.commit (if !s.work.binUp || (decide (0 = 0) && s.work.hub.bin.stretched) then s.work else s.work.opReached 0)) := rfl
  rw [h]
  simp [hup, hs]

/-- The arithmetic clock reaches a point not below the preference: the point is in force, and no Helm message has gone out. -/
theorem opReached_alerts {w : Work} {v : Nat} (h : tfind w.hub.bin.pendingOp 0 = some v) (hv : w.preferences.1 ≤ v) :
    Alerts w (w.opReached 0) ∧ (w.opReached 0).hub.bin = (w.arithAt v).hub.bin := by
  rw [opReached_preferred h hv]
  split
  · exact ⟨onBin_alerts w _, rfl⟩
  · exact ⟨(onBin_alerts w _).trans (sendPhase_alerts _), sendPhase_bin _⟩

/-- Settles O57: no turn of a measurement takes a trim past 60 mV; OP7's turn is the last, what comes before it leaves OP7 as it is, and its retirement signals as R518 says; a point reached that is not below the preference slows nobody. -/
theorem opSevenRetired : Obligations.OpSevenRetired := by
  unfold Obligations.OpSevenRetired
  refine ⟨?bound, ?retires, ?reached⟩
  case bound =>
    intro s l htrims
    refine does_run (exec_ageingMeasurement l s) ?_
    split
    · exact htrims
    · exact aged_bound s.work l htrims
  case retires =>
    intro s l hup hl htrim hstands
    have h : RetiresSeven s.work (s.work.aged l) := aged_retiresSeven hl htrim hstands
    refine does_run (exec_ageingMeasurement l s) ?_
    simp only [hup, Bool.not_true, Bool.false_eq_true, if_false]
    exact ⟨h.retired, h.profile, h.trim, preferences_retired _ h.retired, h.seq, h.pldm, h.raised, fun _ _ _ => h.toSignals.helm_sent,
      fun _ => h.toSignals.commit_byte, rfl, h.frame⟩
  case reached =>
    intro s v hup hretired hstretch hpending hpref
    obtain ⟨halerts, hbin⟩ := opReached_alerts (w := s.work) hpending hpref
    refine ⟨_, exec_opChangeDone_arith s hup hstretch, ?_, preferences_retired _ ?_, fun _ _ _ => halerts.toSignals.helm_sent⟩
    · rw [commit_hub, hbin]
      rfl
    · rw [commit_work_hub, hbin]
      exact hretired

end Sys2Proof.Machine
end

section
/-! PROOFS. The whole machine: what a step takes from the queue, what it keeps of memory, and what reset leaves. -/

namespace Sys2Proof.Machine

/-- Settles O58: a step is its command on the queue's rest, or a tick. -/
theorem stepTakesFront : Obligations.StepTakesFront := by
  unfold Obligations.StepTakesFront
  refine ⟨fun c s => rfl, fun s h => ?_⟩
  rw [step, h]

/-- A command's next state holds the commit of some work: memory canonical still, the queue as it was. -/
theorem exec_keeps (c : Instr) (s : State) (h : s.Safe) : ∃ t, exec c s = .next t ∧ t.Safe ∧ t.pending = s.pending := by
  obtain ⟨w, hw⟩ := exec_next c s
  exact ⟨s.commit w, hw, s.commit_wf w h, rfl⟩

/-- Settles O60: a step ends in the commit of some work, whose changes of memory each keep the canonical form. -/
theorem stepKeepsMemory : Obligations.StepKeepsMemory := by
  unfold Obligations.StepKeepsMemory
  intro s hs
  unfold step
  split
  case h_1 hq =>
    refine ⟨s.commit s.work.tick, run_eq s _, s.commit_wf _ hs, ?_⟩
    rw [commit_pending, hq]; rfl
  case h_2 c rest hq =>
    obtain ⟨t, ht, hsafe, hpend⟩ := exec_keeps c { s with pending := rest } hs
    exact ⟨t, ht, hsafe, by rw [hpend, hq]; rfl⟩

/-- Settles O59: reset's tables are empty but for the four manager berths and the pool of P0. -/
theorem resetState : Obligations.ResetState := by
  unfold Obligations.ResetState
  have hfree (b : Nat) (hb : 4 ≤ b) : (State.reset.work.berth b).state = .free := by
    have h0 : ¬ 0 = b := by omega
    have h1 : ¬ 1 = b := by omega
    have h2 : ¬ 2 = b := by omega
    have h3 : ¬ 3 = b := by omega
    simp [Work.berth, State.reset, tget, h0, h1, h2, h3]
  refine ⟨rfl, rfl, rfl, by decide, fun b _ hb => hfree b hb, ?_⟩
  refine ⟨fun _ => rfl, fun _ _ => rfl, fun _ => rfl, fun _ => rfl, fun _ => rfl, ?_⟩
  decide

end Sys2Proof.Machine
end

section
/-! PROOFS. What a command does, from the work it ends in; and which blocks of the hub a work has left as they were. -/

namespace Sys2Proof.Machine

/-- A command does what holds of the work that its effect comes to. -/
theorem does_work {c : Instr} {s : State} {f : Work → Work} {w : Work} {P : State → Prop} (h : exec c s = s.run f) (hw : f s.work = w) (hp : P (s.commit w)) : Does c s P :=
  does_run h (hw ▸ hp)

/-- Outside the blocks that g blanks, and what reports change, two works have the same hub. -/
def Same (g : Hub → Hub) (w w' : Work) : Prop := g (quietHub w'.hub) = g (quietHub w.hub)

theorem Same.refl (g : Hub → Hub) (w : Work) : Same g w w := rfl
theorem Same.trans {g : Hub → Hub} {a b c : Work} (h : Same g a b) (k : Same g b c) : Same g a c := Eq.trans k h
theorem Reports.same {w w' : Work} (h : Reports w w') (g : Hub → Hub) : Same g w w' := congrArg g h

theorem Same.each {g : Hub → Hub} {α : Type} (l : List α) (f : α → Work → Work) (w : Work) (hf : ∀ a w, Same g w (f a w)) : Same g w (each l f w) :=
  each_keeps l f w (.refl g w) fun a _ h => h.trans (hf a _)

/-- The hub without its sites. -/
def offSites (h : Hub) : Hub := { h with sites := [] }

theorem within_sites {s : State} {w : Work} (h : Same offSites s.work w) : Within s (s.commit w) fun h => { h with sites := w.hub.sites } :=
  ⟨rfl, congrArg (fun q : Hub => { q with sites := w.hub.sites }) h⟩

theorem Sends.same {n : Nat} {w w' : Work} (h : Sends n w w') : Same offSites w w' := by
  unfold Same
  rw [h.hub]
  rfl

/-- A work that only sends, its memory untouched, ends with sites and emissions changed alone. -/
theorem Sends.exactly {n : Nat} {s : State} {w : Work} (h : Sends n s.work w) : Exactly s (s.commit w) fun h => { h with sites := w.hub.sites, sent := w.hub.sent } := by
  refine ⟨rfl, ?_, h.hub⟩
  rw [commit_mem, h.writes]
  rfl

end Sys2Proof.Machine
end

section
/-! PROOFS. Site links (02): the start of a site. -/

namespace Sys2Proof.Machine

theorem siteLog_reports (w : Work) (n cls sev cause addr detail : Nat) : Reports w (w.siteLog n cls sev cause addr detail) := log_reports _ _

theorem onSite_same (w : Work) (n : Nat) (f : Site → Site) : Same offSites w (w.onSite n f) := rfl

theorem siteReset_same (w : Work) (n : Nat) : Same offSites w (w.siteReset n) := by
  unfold Work.siteReset; split <;> rfl

theorem sitePowerOff_same (w : Work) (n : Nat) : Same offSites w (w.sitePowerOff n) := by
  unfold Work.sitePowerOff; split <;> rfl

/-- The absence of a site that no SITE_IN brings in changes sites alone, but for what reports change. -/
theorem siteAbsent_same (w : Work) (n c : Nat) (h : (w.site n).inEntry = none) : Same offSites w (w.siteAbsent n c) := by
  have he : (((w.siteReset n).sitePowerOff n).site n).inEntry = none := by simpa using h
  unfold Work.siteAbsent
  simp only [he, Work.completeOpt]
  refine (siteReset_same w n).trans ((sitePowerOff_same _ n).trans ?_)
  exact (onSite_same _ n _).trans ((siteLog_reports _ n 1 3 c 0 0).same _)

theorem siteAbsent_site_ne (w : Work) {n m : Nat} (c : Nat) (h : (w.site n).inEntry = none) (hm : m ≠ n) : (w.siteAbsent n c).site m = w.site m := by
  have he : (((w.siteReset n).sitePowerOff n).site n).inEntry = none := by simpa using h
  unfold Work.siteAbsent
  simp only [he, Work.completeOpt, Work.siteLog, site_log, site_onSite_ne _ _ hm, sitePowerOff_site_ne _ hm, siteReset_site_ne _ hm]

/-- A site lost during its start, its INIT not received, is absent (R66, R541). -/
theorem deadAgent_starting {w : Work} {n : Nat} (c : Nat) (h : (w.site n).state = 6) (hi : (w.site n).port.initGot = false) : w.deadAgent n c = w.siteAbsent n c := by
  unfold Work.deadAgent Work.siteLost
  simp [h, hi]

/-- The rail of a site falls, and SITE_PG with it (R30, R38). -/
def Work.vcsFall (w : Work) (n : Nat) : Work := (w.onSPower n fun p => { p with vcsPg := false, pgOut := false }).sitePin (.sitePg n) false

theorem exec_vcsPgFall (n : Nat) (s : State) : exec (.vcsPgFall n) s = s.run fun w => (w.vcsFall n).deadAgent n 20 := rfl

theorem vcsFall_site (w : Work) (n : Nat) : (w.vcsFall n).site n = { w.site n with power := { (w.site n).power with vcsPg := false, pgOut := false } } := by
  simp [Work.vcsFall, Work.sitePin, Work.onSPower]

theorem vcsFall_site_ne (w : Work) {n m : Nat} (hm : m ≠ n) : (w.vcsFall n).site m = w.site m := by
  simp [Work.vcsFall, Work.sitePin, Work.onSPower, site_onSite_ne _ _ hm]

theorem exec_deskewDone (n : Nat) (s : State) : exec (.deskewDone n) s = s.run fun w =>
    if w.atStep n 7 then w.toStep n 8 else w.onLink n fun l => { l with bundles := l.bundles.map fun b => if mapped b then { b with deskewed := true } else b } := rfl

/-- Settles O1: each step of a start is one change of the site and its pins, and each end is the absence of the site. -/
theorem siteStart : Obligations.SiteStart := by
  unfold Obligations.SiteStart
  intro gone
  have absent (s : State) (w : Work) (n c : Nat) (hw : Same offSites s.work w) (ho : ∀ m, m ≠ n → w.site m = s.work.site m) (h : (w.site n).inEntry = none) :
      gone s (s.commit (w.siteAbsent n c)) n c := by
    have e := siteAbsent_site w n c h
    refine ⟨?_, ?_, ?_, ?_, within_sites (hw.trans (siteAbsent_same _ _ _ h)), fun m hm => (siteAbsent_site_ne _ _ h hm).trans (ho m hm)⟩ <;> simp [e]
  refine ⟨fun s n h => ?_, fun s n h hp => ?_, fun s n h => ?_, fun s n h => ?_, fun s n h => ?_, fun s n h hp he => ?_, fun s n h he => ?_, fun s n h he => ?_, fun s n h he hi => ?_⟩
  · refine does_work rfl (if_pos h) ?_
    refine ⟨?_, rfl, ⟨rfl, rfl, rfl⟩, fun m hm => ?_⟩
    · simp [Work.vcsRise, Work.sitePin, Work.onSPower]
    · simp [Work.vcsRise, Work.sitePin, Work.onSPower, site_onSite_ne _ _ hm]
  · refine does_work rfl (if_pos (by simp [h, hp])) ?_
    refine ⟨?_, rfl, ⟨rfl, rfl, rfl⟩, fun m hm => ?_⟩
    · simp [Work.toStep, Work.sitePin, Work.onLink, Work.onSPower]
    · simp [Work.toStep, Work.sitePin, Work.onLink, Work.onSPower, site_onSite_ne _ _ hm]
  · refine does_work rfl (if_pos h) ?_
    refine ⟨?_, ⟨rfl, rfl, rfl⟩, fun m hm => ?_⟩
    · simp [Work.toStep, Work.onLink]
    · simp [Work.toStep, Work.onLink, site_onSite_ne _ _ hm]
  · refine does_work rfl (if_pos h) ?_
    refine ⟨?_, ⟨rfl, rfl, rfl⟩, fun m hm => ?_⟩
    · simp [Work.toStep, Work.onLink]
    · simp [Work.toStep, Work.onLink, site_onSite_ne _ _ hm]
  · refine does_work (exec_deskewDone n s) (if_pos h) ?_
    refine ⟨?_, ⟨rfl, rfl, rfl⟩, fun m hm => ?_⟩
    · simp [Work.toStep, Work.onLink]
    · simp [Work.toStep, Work.onLink, site_onSite_ne _ _ hm]
  · exact does_work rfl (if_pos (by simp [h, hp])) (absent s _ n 11 (.refl _ _) (fun _ _ => rfl) he)
  · exact does_work rfl (if_pos h) (absent s _ n 1 (.refl _ _) (fun _ _ => rfl) he)
  · exact does_work rfl (if_pos h) (absent s _ n 1 (.refl _ _) (fun _ _ => rfl) he)
  · have hn : ((s.work.vcsFall n).site n).inEntry = none := by rw [vcsFall_site]; exact he
    refine does_work (exec_vcsPgFall n s) (deadAgent_starting 20 ?_ ?_) ⟨absent s _ n 20 rfl (fun m hm => vcsFall_site_ne _ hm) hn, ?_⟩
    · rw [vcsFall_site]; exact h
    · rw [vcsFall_site]; exact hi
    · simp [siteAbsent_site _ _ _ hn, vcsFall_site]

end Sys2Proof.Machine
end

section
/-! PROOFS. Site links (02): the reports of a start, frames without payload. -/

namespace Sys2Proof.Machine

/-! ## Bundles -/

@[simp] theorem bundle_commit (s : State) (w : Work) (n k : Nat) : (s.commit w).work.bundle n k = w.bundle n k := rfl

theorem bundle_onLink (w : Work) (n k : Nat) (f : Link → Link) : (w.onLink n f).bundle n k = (f (w.site n).link).bundles.getD k {} := by
  simp [Work.bundle, Work.onLink]

theorem bundle_onBundle_self (w : Work) {n k : Nat} (f : Bundle → Bundle) (h : k < (w.site n).link.bundles.length) : (w.onBundle n k f).bundle n k = f (w.bundle n k) := by
  rw [Work.onBundle, bundle_onLink, bundle_modify, if_pos ⟨rfl, h⟩]
  rfl

/-- A list read past its end. -/
theorem getD_past {α : Type} {l : List α} {i : Nat} {d : α} (h : l.length ≤ i) : l.getD i d = d := by
  rw [List.getD_eq_getElem?_getD, List.getElem?_eq_none h]
  rfl

/-- A list read before its end. -/
theorem getD_within {α : Type} {l : List α} {i : Nat} {d : α} (h : i < l.length) : l.getD i d = l[i] := by
  rw [List.getD_eq_getElem?_getD, List.getElem?_eq_getElem h]
  rfl

/-- A bundle that carries traffic, or retrains, is one of the link's list. -/
theorem bundle_listed {w : Work} {n k : Nat} (h : (w.bundle n k).active = true ∨ (w.bundle n k).retraining = true) : k < (w.site n).link.bundles.length := by
  refine Nat.lt_of_not_le fun hk => ?_
  have : w.bundle n k = {} := getD_past hk
  simp [this] at h

theorem onLink_same (w : Work) (n : Nat) (f : Link → Link) : Same offSites w (w.onLink n f) := rfl

@[simp] theorem halfOf_setHalf (b : Bundle) (h : Nat) (f : Half → Half) : halfOf (setHalf b h f) h = f (halfOf b h) := by
  unfold halfOf setHalf
  split <;> rfl

/-! ## Reports of a start (R59-R67) -/

/-- The maps wait until every wire test has come in (R61). -/
theorem mapsWhenTested_waits {w : Work} {n : Nat} (h : (w.site n).link.wireDone = false ∨ (w.site n).link.wireGot.length < 16) : w.mapsWhenTested n = w := by
  unfold Work.mapsWhenTested
  rcases h with h | h <;> simp [h]

/-- Once every map is applied step 7 begins, else all stays (R62). -/
theorem stepWhenMapped_cases (w : Work) (n : Nat) : w.stepWhenMapped n = w ∨ w.stepWhenMapped n = w.toStep n 7 := by
  unfold Work.stepWhenMapped
  split
  · exact .inr rfl
  · exact .inl rfl

theorem toStep_bundle (w : Work) (n k j : Nat) : (w.toStep n k).bundle n j = w.bundle n j := by rw [Work.toStep, bundle_onLink]; rfl

theorem stepWhenMapped_bundle (w : Work) (n k : Nat) : (w.stepWhenMapped n).bundle n k = w.bundle n k := by
  rcases stepWhenMapped_cases w n with h | h <;> rw [h]
  exact toStep_bundle _ _ _ _

theorem stepWhenMapped_same (w : Work) (n : Nat) : Same offSites w (w.stepWhenMapped n) := by
  rcases stepWhenMapped_cases w n with h | h <;> rw [h]
  · exact .refl _ _
  · exact onLink_same _ _ _

/-- A change of a site's link leaves memory and every block but the sites. -/
theorem stepWhenMapped_exactly {s : State} {n : Nat} (f : Link → Link) :
    Exactly s (s.commit ((s.work.onLink n f).stepWhenMapped n)) fun h => { h with sites := ((s.work.onLink n f).stepWhenMapped n).hub.sites } := by
  rcases stepWhenMapped_cases (s.work.onLink n f) n with h | h <;> rw [h] <;> exact ⟨rfl, rfl, rfl⟩

theorem exec_lmCap (n record : Nat) (s : State) : exec (.lmCap n record) s = s.run fun w =>
    if !w.atStep n 3 then w
    else if capFault record ≠ 0 then w.siteAbsent n (capFault record)
    else
      (((w.sideband n 0x02 (w.hubRecord n)).onSPort n fun p => { p with cap := record % 2 ^ 512, coh := bit record 160 && p.offerCoh, token := bit record 161 && w.offersToken n, helm := bit record 162 && p.offerHelm, packed := bits record 167 163 }).onSPower n fun p =>
        { p with limit := 8 * w.siteCeiling n, limitCause := 0 }).toStep n 4 := rfl

theorem exec_wireTestDone (n : Nat) (fails : List HalfFail) (s : State) : exec (.wireTestDone n fails) s = s.run fun w =>
    if !w.atStep n 5 then w
    else ((each (fails.filter fun r => 8 ≤ r.bundle) (fun r w => w.noteWires n r) w).onLink n fun l => { l with wireDone := true }).mapsWhenTested n := rfl

theorem exec_lmWireResult (n : Nat) (r : HalfFail) (s : State) : exec (.lmWireResult n r) s = s.run fun w =>
    if 8 ≤ r.bundle then w
    else if w.atStep n 5 then ((w.noteWires n r).onLink n fun l => { l with wireGot := addTo l.wireGot (r.bundle * 2 + r.half) }).mapsWhenTested n
    else if (w.bundle n r.bundle).retraining then w.noteWires n r
    else w := rfl

theorem exec_lmSparemapAck (n k half : Nat) (s : State) : exec (.lmSparemapAck n k half) s = s.run fun w =>
    if w.atStep n 6 then (w.onBundle n k fun b => setHalf b half fun x => { x with acked := true }).stepWhenMapped n
    else if (w.bundle n k).retraining && (w.bundle n k).mapSent then w.onBundle n k fun b => setHalf b half fun x => { x with acked := true }
    else w := rfl

theorem exec_lmSparemapAckTimeout (n k half : Nat) (s : State) : exec (.lmSparemapAckTimeout n k half) s = s.run fun w =>
    if (halfOf (w.bundle n k) half).acked then w
    else if w.atStep n 6 then (if (w.bundle n k).out then w else (w.outAtStart n k 4).stepWhenMapped n)
    else if (w.bundle n k).retraining && (w.bundle n k).mapSent then (w.onBundle n k fun b => { b with mapSent := false }).retrainMissed n k
    else w := rfl

theorem exec_idleFrameTestDone (n : Nat) (bad : List Nat) (s : State) : exec (.idleFrameTestDone n bad) s = s.run fun w =>
    if !w.atStep n 8 then w.retrainEnds n bad
    else
      let w := each (bad.filter fun k => k < 16 && !(w.bundle n k).out) (fun k w => w.outAtStart n k 1) w
      let left (base : Nat) : Bool := (List.range 8).any fun i => !(w.bundle n (base + i)).out
      if left 0 && left 8 then w.bundleLayerUp n else w.siteAbsent n 40 := rfl

theorem outAtStart_same (w : Work) (n k why : Nat) : Same offSites w (w.outAtStart n k why) :=
  (onLink_same w n _).trans (((emit_reports _ _).trans (siteLog_reports _ n 1 1 40 k why)).same _)

theorem outAtStart_bundle (w : Work) {n k : Nat} (why : Nat) (h : k < (w.site n).link.bundles.length) :
    (w.outAtStart n k why).bundle n k = { w.bundle n k with out := true, outCause := why } := by
  rw [← bundle_onBundle_self w (fun b => { b with out := true, outCause := why }) h]
  simp [Work.outAtStart, Work.siteLog, Work.bundle, Work.sideband]

/-- On a work of a state's command only sites and emissions have changed, memory not. -/
def SitesSent (s : State) (w : Work) : Prop := w.writes = [] ∧ w.hub = { s.hub with sites := w.hub.sites, sent := w.hub.sent }

theorem SitesSent.exactly {s : State} {w : Work} (h : SitesSent s w) : Exactly s (s.commit w) fun h => { h with sites := w.hub.sites, sent := w.hub.sent } := by
  refine ⟨rfl, ?_, h.2⟩
  rw [commit_mem, h.1]
  rfl

theorem SitesSent.sends {s : State} {v w : Work} {n : Nat} (h : SitesSent s v) (k : Sends n v w) : SitesSent s w := by
  refine ⟨k.writes.trans h.1, ?_⟩
  rw [k.hub, h.2]

theorem SitesSent.onSite {s : State} {w : Work} (h : SitesSent s w) (n : Nat) (f : Site → Site) : SitesSent s (w.onSite n f) := by
  refine ⟨h.1, ?_⟩
  rw [Work.onSite, onHub_hub, h.2]

/-- The bundle layer up: step 9 with INIT sent, only sites and emissions changed (R62, R77). -/
theorem bundleLayerUp_does (s : State) (n : Nat) (h : s.work.atStep n 8 = true) :
    let w := s.work.bundleLayerUp n
    (w.site n).link.step = 9 ∧ (w.site n).port.initSent = true ∧ (w.site n).state = 6 ∧ SitesSent s w := by
  have hst : (s.work.site n).state = 6 := by
    simp only [Work.atStep, Bool.and_eq_true, decide_eq_true_eq] at h
    exact h.1
  unfold Work.bundleLayerUp
  dsimp only
  generalize hv : Work.onSPort _ n _ = v
  generalize initBytes _ _ _ _ = msg
  have hsite : (v.site n).link.step = 9 ∧ (v.site n).port.initSent = true ∧ (v.site n).state = 6 := by
    subst v
    simp [Work.toStep, Work.onLink, Work.onSPort, hst]
  obtain ⟨h1, h2, h3⟩ := hsite
  have hs := siteSend_sends v n msg
  have hv' : SitesSent s v := by subst v; exact ⟨rfl, rfl⟩
  exact ⟨hs.step.trans h1, by rw [hs.port]; exact h2, hs.state.trans h3, hv'.sends hs⟩

/-- Settles O2: a report is a change of its site alone; what it brings is taken by the step's own lemma. -/
theorem siteStartReports : Obligations.SiteStartReports := by
  unfold Obligations.SiteStartReports
  refine ⟨fun s n record h hf => ?_, fun s n h hg => ?_, fun s n r h hb hd => ?_, fun s n k half h hk => ?_, fun s n k half h hk ha ho => ?_, fun s n h h0 h8 => ?_⟩
  · refine does_work (exec_lmCap n record s) ((if_neg (by simp [h])).trans (if_neg (by simp [hf]))) ?_
    generalize record % 2 ^ 512 = cap
    refine ⟨?_, ?_, ?_, ?_, ?_, ⟨rfl, rfl, rfl⟩⟩ <;> simp [Work.toStep, Work.onLink, Work.onSPort, Work.onSPower, Work.sideband]
  · refine does_work (exec_wireTestDone n [] s) ((if_neg (by simp [h])).trans (mapsWhenTested_waits (.inr ?_))) ?_
    · simpa [Work.onLink] using hg
    · exact ⟨by simp [Work.onLink], rfl, rfl, rfl⟩
  · refine does_work (exec_lmWireResult n r s) ((if_neg (by omega)).trans ((if_pos h).trans (mapsWhenTested_waits (.inl ?_)))) ?_
    · simpa [Work.onLink, Work.noteWires, Work.onBundle] using hd
    · have h5 : (s.work.site n).link.step = 5 := by
        simp only [Work.atStep, Bool.and_eq_true, decide_eq_true_eq] at h
        exact h.2
      refine ⟨?_, ?_, rfl, rfl, rfl⟩ <;> simp [Work.onLink, Work.noteWires, Work.onBundle, h5]
  · refine does_work (exec_lmSparemapAck n k half s) (if_pos h) ⟨?_, stepWhenMapped_exactly _⟩
    have := bundle_onBundle_self s.work (fun b => setHalf b half fun x => { x with acked := true }) hk
    simp [stepWhenMapped_bundle, this]
  · refine does_work (exec_lmSparemapAckTimeout n k half s) ((if_neg (by simp [ha])).trans ((if_pos h).trans (if_neg (by simp [ho])))) ?_
    have e := outAtStart_bundle s.work 4 hk
    refine ⟨?_, ?_, within_sites ((outAtStart_same _ _ _ _).trans (stepWhenMapped_same _ _))⟩ <;> simp [stepWhenMapped_bundle, e]
  · have hl : ((List.range 8).any fun i => !(s.work.bundle n (0 + i)).out) = true ∧ ((List.range 8).any fun i => !(s.work.bundle n (8 + i)).out) = true := by
      simpa [List.any_eq_true] using And.intro h0 h8
    refine does_work (exec_idleFrameTestDone n [] s) (w := s.work.bundleLayerUp n) ?_ ?_
    · simp only [h, List.filter_nil, each_nil, hl.1, hl.2, Bool.not_true, Bool.and_self, Bool.false_eq_true, if_false, if_true]
    · obtain ⟨h1, h2, h3, h4⟩ := bundleLayerUp_does s n h
      exact ⟨h1, h2, h3, h4.exactly⟩

end Sys2Proof.Machine
end

section
/-! PROOFS. Site links (02): acknowledgements and retrains of bundles. -/

namespace Sys2Proof.Machine

/-! ## Sending -/

/-- With nothing waiting for a frame, nothing is sent. -/
theorem flush_idle {w : Work} {n : Nat} (hq : (w.site n).link.txQueue = []) (hr : (w.site n).link.resend = []) : w.flush n = w := by
  simp [Work.flush, hq, hr, Work.drainTx]

theorem putFrame_sent (w : Work) (n k : Nat) (f : TxFrame) : w.hub.sent ⊆ (w.putFrame n k f).hub.sent := by
  unfold Work.putFrame
  dsimp only
  split <;> exact List.subset_cons_self _ _

theorem placeFrame_sent (w : Work) (n sseq : Nat) (p : List Byte) (f : Link → Link) : w.hub.sent ⊆ (w.placeFrame n sseq p f).hub.sent := by
  unfold Work.placeFrame
  dsimp only
  split
  · exact List.Subset.refl _
  · exact fun _ h => putFrame_sent _ _ _ _ h

theorem drainTx_sent (n fuel : Nat) (w : Work) : w.hub.sent ⊆ (w.drainTx n fuel).hub.sent := by
  induction fuel generalizing w with
  | zero => exact List.Subset.refl _
  | succ fuel ih =>
    unfold Work.drainTx
    dsimp only
    split
    · exact List.Subset.refl _
    · split
      · exact List.Subset.trans (placeFrame_sent _ _ _ _ _) (ih _)
      · split
        · exact List.Subset.trans (placeFrame_sent _ _ _ _ _) (ih _)
        · exact List.Subset.refl _
      · exact List.Subset.refl _

@[simp] theorem bundle_emit (w : Work) (o : Out) (n k : Nat) : (w.emit o).bundle n k = w.bundle n k := rfl

/-- Sending what waits unsends nothing. -/
theorem flush_sent (w : Work) (n : Nat) : w.hub.sent ⊆ (w.flush n).hub.sent := drainTx_sent _ _ _

/-! ## Retrains (R58, R68) -/

/-- The frames of a bundle that move leave its retry buffer, and wait to be sent again (R68). -/
theorem moveFrames_links (k : Nat) (l : Link) : LinkSends l (moveFrames k l) := by
  refine ⟨rfl, by simp [moveFrames], fun j => ?_⟩
  simp only [moveFrames, bundle_modify]
  split <;> rfl

theorem moveFrames_bundle (k : Nat) (l : Link) (j : Nat) : (moveFrames k l).bundles.getD j {} = if k = j ∧ j < l.bundles.length then { l.bundles.getD j {} with retry := [] } else l.bundles.getD j {} :=
  bundle_modify _ _ _ _

/-- A bundle that is changed, its frames moved. -/
theorem bundle_moved (w : Work) {n k : Nat} (f : Bundle → Bundle) (hk : k < (w.site n).link.bundles.length) :
    (w.onLink n fun l => moveFrames k { l with bundles := l.bundles.modify k f }).bundle n k = { f (w.bundle n k) with retry := [] } := by
  rw [bundle_onLink, moveFrames_bundle, if_pos ⟨rfl, by simpa using hk⟩]
  dsimp only
  rw [bundle_modify, if_pos ⟨rfl, hk⟩]
  rfl

/-- A bundle of a site goes through a retrain that the hub has asked for: it is out of use until it is acknowledged; only sites have changed, but for what reports change. -/
structure Retrains (n k : Nat) (w t : Work) : Prop where
  retraining : (t.bundle n k).retraining = true
  unacked : (t.bundle n k).retrainAcked = false
  asked : Out.sideband n 5 k ∈ t.hub.sent
  same : Same offSites w t

theorem retrainGo_retrains (w : Work) {n k : Nat} (hk : k < (w.site n).link.bundles.length) : Retrains n k w (w.retrainGo n k) := by
  unfold Work.retrainGo
  dsimp only
  generalize hv : w.onLink n _ = v
  have hb : (v.bundle n k).retraining = true ∧ (v.bundle n k).retrainAcked = false := by
    subst v
    rw [bundle_moved w _ hk]
    exact ⟨rfl, rfl⟩
  have hs : Same offSites w v := by subst v; exact onLink_same _ _ _
  have hu : ((v.count 0 n (3 * k + 2)).sideband n 0x05 k).bundle n k = v.bundle n k := by simp [Work.bundle, Work.sideband]
  have hf := flush_sends ((v.count 0 n (3 * k + 2)).sideband n 0x05 k) n
  refine ⟨?_, ?_, flush_sent _ _ (List.mem_cons_self ..), ?_⟩
  · rw [hf.bundle k, hu]; exact hb.1
  · rw [hf.bundle k, hu]; exact hb.2
  · exact hs.trans ((((count_reports _ _ _ _ _).trans (emit_reports _ _)).same _).trans hf.same)

/-- An active bundle that others can stand in for is retrained (R58, R69). -/
theorem retrain_eq_go {w : Work} {n k : Nat} (ha : (w.bundle n k).active = true) (hr : (w.bundle n k).retraining = false) (hs : siteServing (w.site n) = true)
    (hl : (w.site n).link.limp = .off) (ho : othersOf (w.site n).link k ≠ []) : w.retrain n k = w.retrainGo n k := by
  simp [Work.retrain, ha, hr, hs, hl, ho]

/-- A chiplet bundle that the hub hears is active and not retraining. -/
theorem hears_bundle {w : Work} {n k : Nat} (h : w.hears n k = true) : (w.bundle n k).active = true ∧ (w.bundle n k).retraining = false := by
  simp only [Work.hears, Bool.and_eq_true, Bool.not_eq_true'] at h
  exact ⟨h.1.2, h.2⟩

/-! ## Frames without payload (R53, R56) -/

theorem exec_idleFrame (n k : Nat) (frame : List Byte) (s : State) : exec (.idleFrame n k frame) s = s.run fun w =>
    if !w.hears n k then w else if !frameGood frame then w.sendNak n k true else if ftypeOf frame = 1 then w.ackIn n frame else w := rfl

theorem exec_retrainRequestFrame (n k : Nat) (frame : List Byte) (s : State) : exec (.retrainRequestFrame n k frame) s = s.run fun w =>
    if !w.hears n k then w else if !frameGood frame then w.sendNak n k true else if ftypeOf frame = 2 then (w.ackIn n frame).retrain n k else w := rfl

theorem exec_ackDeadline (n k : Nat) (s : State) : exec (.ackDeadline n k) s = s.run fun w =>
    if (w.bundle n k).ackOwed && w.hears n k then w.sendAck n k (w.bundle n k).discarding else w := rfl

/-- An acknowledgement that finds its frame, with nothing waiting to go out (R56, R57). -/
theorem ackIn_found {w : Work} {n i : Nat} {bs : List Byte} (hv : ackValidOf bs = true) (hn : nakOf bs = false) (ha : (w.bundle n (ackBundleOf bs)).active = true)
    (hr : (w.bundle n (ackBundleOf bs)).retraining = false) (hi : (w.bundle n (ackBundleOf bs)).retry.findIdx? (fun f => decide (f.bseq = ackSeqOf bs)) = some i)
    (hq : (w.site n).link.txQueue = []) (hs : (w.site n).link.resend = []) :
    w.ackIn n bs = w.onBundle n (ackBundleOf bs) fun b => { b with retry := b.retry.drop (i + 1), nakRow := 0 } := by
  have hf : (w.onBundle n (ackBundleOf bs) fun b => { b with retry := b.retry.drop (i + 1), nakRow := 0 }).flush n
      = w.onBundle n (ackBundleOf bs) fun b => { b with retry := b.retry.drop (i + 1), nakRow := 0 } :=
    flush_idle (by simpa [Work.onBundle, Work.onLink] using hq) (by simpa [Work.onBundle, Work.onLink] using hs)
  simp [Work.ackIn, hv, hn, ha, hr, hi, hf]

/-- An acknowledgement goes out on the bundle that takes it, and is owed no more (R53, R56). -/
theorem sendAck_eq {w : Work} {n k o : Nat} (nak : Bool) (h : ackBundle (w.site n).link k = some o) : w.sendAck n k nak
    = ((w.onBundle n k fun b => { b with ackOwed := false }).onLink n fun l => { l with ackTurn := l.ackTurn + 1 }).emit
      (.frame n o (frameBytes 1 0 (ackBits (((w.bundle n k).expBseq + 4095) % 4096) k nak) 0 [])) := by
  rw [Work.sendAck]
  simp only [h]

/-- Settles O3: an acknowledgement in, one owed that goes out, and a request for a retrain. -/
theorem siteFrames : Obligations.SiteFrames := by
  unfold Obligations.SiteFrames
  refine ⟨fun s n k frame i hh hg ht hv hn ha hr hi hq hs hk => ?_, fun s n k o hh ho hb hk => ?_, fun s n k frame hh hg ht hv hl hs ho _ _ _ hk => ?_⟩
  · refine does_work (exec_idleFrame n k frame s) ((if_neg (by simp [hh])).trans ((if_neg (by simp [hg])).trans ((if_pos ht).trans (ackIn_found hv hn ha hr hi hq hs)))) ?_
    exact ⟨bundle_onBundle_self _ _ hk, rfl, rfl, rfl⟩
  · refine does_work (exec_ackDeadline n k s) ((if_pos (by simp [hh, ho])).trans (sendAck_eq _ hb)) ?_
    refine ⟨?_, rfl, rfl, rfl, rfl⟩
    rw [bundle_commit, bundle_emit, bundle_onLink]
    exact congrArg Bundle.ackOwed (bundle_onBundle_self s.work (fun b => { b with ackOwed := false }) hk)
  · have hw : s.work.ackIn n frame = s.work := by simp [Work.ackIn, hv]
    have hb := hears_bundle hh
    refine does_work (exec_retrainRequestFrame n k frame s) (w := s.work.retrainGo n k) ?_ ?_
    · exact (if_neg (by simp [hh])).trans ((if_neg (by simp [hg])).trans ((if_pos ht).trans (by rw [hw, retrain_eq_go hb.1 hb.2 hs hl ho])))
    · have h := retrainGo_retrains s.work hk
      exact ⟨h.retraining, h.unacked, within_sites h.same⟩

/-! ## Retrains in service (R58, R63, R68) -/

theorem exec_ackTimeout (n k x : Nat) (s : State) : exec (.ackTimeout n k x) s = s.run fun w =>
    if (w.bundle n k).retry.any (fun f => f.bseq = x) && !(w.bundle n k).retraining then (w.noteNak n k).retrain n k else w := rfl

theorem exec_lmRetrainReq (n k : Nat) (fromHub : Bool) (s : State) : exec (.lmRetrainReq n k fromHub) s = s.run fun w => w.retrain n k := rfl

theorem exec_lmRetrainAckTimeout (n k : Nat) (s : State) : exec (.lmRetrainAckTimeout n k) s = s.run fun w =>
    if (w.bundle n k).retraining && !(w.bundle n k).retrainAcked then w.retrainMissed n k else w := rfl

theorem exec_bundleRetrainDone (n k : Nat) (fails : List HalfFail) (s : State) : exec (.bundleRetrainDone n k fails) s = s.run fun w =>
    if !(w.bundle n k).retraining || !(w.bundle n k).retrainAcked || (w.bundle n k).mapSent then w
    else
      let v := each (fails.filter fun r => r.bundle = k) (fun r w => w.noteWires n r) w
      if v.halfDead n k 0 || v.halfDead n k 1 then v.bundleOut n k 2
      else if 3 < (retrainsNow v.now (w.bundle n k)).length then v.bundleOut n k 3
      else ((v.onBundle n k fun b => { b with mapSent := true }).sendMap n k 0 false).sendMap n k 1 false := rfl

/-- One more event of the present in a list of recent ones. -/
theorem recent_cons_length (now n : Nat) (l : List Nat) (hn : 0 < n) : (recent now n (now :: recent now n l)).length = (recent now n l).length + 1 := by
  have h : now < now + n := by omega
  simp [recent, h]

/-- A change of one bundle adds to a sum over the active bundles what it adds to that bundle, at most. -/
theorem activeSum_modify (bs : List Bundle) (k : Nat) (f : Bundle → Bundle) (g : Bundle → Nat) (ha : ∀ b, (f b).active = b.active) (hg : ∀ b, g (f b) = g b + 1) :
    (((bs.modify k f).filter (·.active)).map g).sum ≤ ((bs.filter (·.active)).map g).sum + 1 := by
  induction bs generalizing k with
  | nil => simp
  | cons b bs ih =>
    cases k with
    | zero => cases hb : b.active <;> simp [ha, hb, hg]; omega
    | succ k => have := ih k; cases hb : b.active <;> simp [hb] <;> omega

/-- A NAK that leaves the rate of R69 in its bound is noted at its bundle. -/
theorem noteNak_within {w : Work} {n k : Nat} (h : ((nakRate w.now (w.site n).link).1 + 1) * 1000000 ≤ (nakRate w.now (w.site n).link).2) :
    w.noteNak n k = w.onBundle n k fun b => { b with nakTimes := w.now :: recent w.now 100000 b.nakTimes } := by
  unfold Work.noteNak
  dsimp only
  refine if_neg ?_
  have hl : ((w.onBundle n k fun b => { b with nakTimes := w.now :: recent w.now 100000 b.nakTimes }).site n).link
      = { (w.site n).link with bundles := (w.site n).link.bundles.modify k fun b => { b with nakTimes := w.now :: recent w.now 100000 b.nakTimes } } := by
    simp [Work.onBundle, Work.onLink]
  have hsum := activeSum_modify (w.site n).link.bundles k (fun b => { b with nakTimes := w.now :: recent w.now 100000 b.nakTimes })
    (fun b => (recent w.now 100000 b.nakTimes).length) (fun _ => rfl) fun b => recent_cons_length w.now 100000 b.nakTimes (by omega)
  have hnow : (w.onBundle n k fun b => { b with nakTimes := w.now :: recent w.now 100000 b.nakTimes }).now = w.now := rfl
  rw [hl, hnow]
  simp only [nakRate] at h hsum ⊢
  omega

/-- Bundles and their changes read alike by activity and retrains leave the others of a direction. -/
theorem othersOf_congr {l l' : Link} (k : Nat) (ha : ∀ j, (l'.bundles.getD j {}).active = (l.bundles.getD j {}).active)
    (hr : ∀ j, (l'.bundles.getD j {}).retraining = (l.bundles.getD j {}).retraining) : othersOf l' k = othersOf l k := by
  simp only [othersOf, activeBundles, ha, hr]

/-- A bundle put out in service while others of its direction carry traffic, no SITE_RECAL running (R68). -/
theorem bundleOut_does {w : Work} {n k : Nat} (why : Nat) (ha : (w.bundle n k).active = true) (hl : (w.site n).link.limp = .off)
    (hn : 1 < (activeBundles (w.site n).link (k < 8)).length) (hr : (w.site n).recal = none) :
    let t := w.bundleOut n k why
    (t.bundle n k).out = true ∧ (t.bundle n k).outCause = why ∧ (t.site n).state = 2 ∧ Same offSites w t := by
  have hk := bundle_listed (.inl ha)
  unfold Work.bundleOut
  simp only [ha, hl, Nat.not_le.2 hn, Bool.not_true, Bool.false_eq_true, reduceCtorEq, if_false]
  generalize hv : w.onLink n _ = v
  have hb : (v.bundle n k).out = true ∧ (v.bundle n k).outCause = why := by
    subst v
    rw [bundle_moved w _ hk]
    exact ⟨rfl, rfl⟩
  have hs : Same offSites w v := by subst v; exact onLink_same _ _ _
  have hv' : (v.site n).recal = none := by subst v; simpa [Work.onLink] using hr
  generalize hu : ((v.sideband n 0x07 _).siteState n 2 41).siteLog n 1 1 41 k why = u
  have hu' : u.site n = { v.site n with state := 2, cause := 41 } := by subst u; simp [Work.siteLog, Work.siteState, Work.sideband]
  have hsu : Same offSites v u := by
    subst u
    exact ((emit_reports v _).same _).trans ((onSite_same _ _ _).trans ((siteLog_reports _ _ _ _ _ _ _).same _))
  have hf := flush_sends u n
  have hd : (u.flush n).recalDone n k = u.flush n := by
    have : ((u.flush n).site n).recal = none := by rw [hf.site, hu']; exact hv'
    simp [Work.recalDone, this]
  rw [hd]
  have hub : u.bundle n k = v.bundle n k := by rw [Work.bundle, hu']; rfl
  refine ⟨?_, ?_, ?_, hs.trans (hsu.trans hf.same)⟩
  · rw [hf.bundle k, hub]; exact hb.1
  · rw [hf.bundle k, hub]; exact hb.2
  · rw [hf.state, hu']

@[simp] theorem sendMap_bundle (w : Work) (n k h : Nat) (out : Bool) (m j : Nat) : (w.sendMap n k h out).bundle m j = w.bundle m j := rfl

/-- Settles O4: each cause comes to the retrain's own lemma, or puts the bundle out. -/
theorem siteRetrains : Obligations.SiteRetrains := by
  unfold Obligations.SiteRetrains
  intro able retrains
  have goes {s : State} {n k : Nat} {t : Work} (h : Retrains n k s.work t) : retrains s (s.commit t) n k := ⟨h.retraining, h.unacked, h.asked, within_sites h.same⟩
  refine ⟨fun s n k x h hx hn => ?_, fun s n k fromHub h => ?_, fun s n k h => ?_, fun s n k h ha hn => ?_, fun s n k h ha hact hn hl hb hr => ?_, fun s n k h ha hm h0 h1 hn => ?_⟩
  · obtain ⟨hact, hr, hs, hl, ho⟩ := h
    have hk := bundle_listed (.inl hact)
    generalize hv : (s.work.onBundle n k fun b => { b with nakTimes := s.work.now :: recent s.work.now 100000 b.nakTimes }) = v
    have hvb (j : Nat) : v.bundle n j = { s.work.bundle n j with nakTimes := (v.bundle n j).nakTimes } := by
      subst v
      rw [Work.onBundle, bundle_onLink, bundle_modify]
      split <;> rfl
    have hvs : v.site n = { s.work.site n with link := (v.site n).link } := by subst v; simp [Work.onBundle, Work.onLink]
    have hvl : (v.site n).link.limp = (s.work.site n).link.limp := by subst v; simp [Work.onBundle, Work.onLink]
    have hvk : k < (v.site n).link.bundles.length := by subst v; simpa [Work.onBundle, Work.onLink] using hk
    have hvo : othersOf (v.site n).link k = othersOf (s.work.site n).link k :=
      othersOf_congr k (fun j => by have e := congrArg Bundle.active (hvb j); exact e) fun j => by have e := congrArg Bundle.retraining (hvb j); exact e
    refine does_work (exec_ackTimeout n k x s) ((if_pos (by simp [hx, hr])).trans ?_) (goes (t := v.retrainGo n k) ?_)
    · rw [noteNak_within hn, hv]
      refine retrain_eq_go ?_ ?_ ?_ (hvl.trans hl) (hvo ▸ ho)
      · rw [hvb]; exact hact
      · rw [hvb]; exact hr
      · rw [hvs]; exact hs
    · have g := retrainGo_retrains v hvk
      have hsame : Same offSites s.work v := by subst v; exact onLink_same _ _ _
      exact ⟨g.retraining, g.unacked, g.asked, hsame.trans g.same⟩
  · obtain ⟨hact, hr, hs, hl, ho⟩ := h
    exact does_work (exec_lmRetrainReq n k fromHub s) (retrain_eq_go hact hr hs hl ho) (goes (retrainGo_retrains _ (bundle_listed (.inl hact))))
  · refine does_work rfl (if_pos h) ?_
    exact ⟨bundle_onBundle_self _ _ (bundle_listed (.inr h)), rfl, rfl, rfl⟩
  · refine does_work (exec_lmRetrainAckTimeout n k s) ((if_pos (by simp [h, ha])).trans (if_neg (by omega))) ?_
    exact goes (retrainGo_retrains _ (bundle_listed (.inr h)))
  · refine does_work (exec_lmRetrainAckTimeout n k s) ((if_pos (by simp [h, ha])).trans (if_pos hn)) ?_
    obtain ⟨h1, h2, h3, h4⟩ := bundleOut_does 4 hact hl hb hr
    exact ⟨h1, h2, h3, within_sites h4⟩
  · refine does_work (exec_bundleRetrainDone n k [] s) ((if_neg (by simp [h, ha, hm])).trans ((if_neg (by simp [h0, h1])).trans (if_neg ?_))) ?_
    · exact Nat.not_lt.2 hn
    · refine ⟨?_, rfl, rfl, rfl⟩
      rw [bundle_commit, sendMap_bundle, sendMap_bundle]
      exact bundle_onBundle_self _ _ (bundle_listed (.inr h))

end Sys2Proof.Machine
end

section
/-! PROOFS. Site links (02): limp service. -/

namespace Sys2Proof.Machine

theorem exec_lmLimpAck (n stage : Nat) (s : State) : exec (.lmLimpAck n stage) s = s.run fun w => w.limpAck n stage := rfl

theorem exec_lmLimpAckTimeout (n : Nat) (s : State) : exec (.lmLimpAckTimeout n) s = s.run fun w =>
    if (w.site n).link.limp = .ack0 || (w.site n).link.limp = .ack1 then w.deadAgent n 19 else w := rfl

/-! ## The half-rate retrain (R70) -/

theorem limpRetrain_site (w : Work) (n : Nat) (ks : List Nat) (m : Nat) : (w.limpRetrain n ks).site m = w.site m :=
  each_same (fun v : Work => v.site m) _ _ _ fun _ _ => by simp [Work.sideband]

theorem limpRetrain_reports (w : Work) (n : Nat) (ks : List Nat) : Reports w (w.limpRetrain n ks) :=
  Reports.each _ _ _ fun _ _ => (count_reports _ _ _ _ _).trans (emit_reports _ _)

/-- The chiplet is asked for each bundle of a list. -/
theorem limpRetrain_asks (w : Work) (n : Nat) {ks : List Nat} {k : Nat} (hk : k ∈ ks) : Out.sideband n 5 k ∈ (w.limpRetrain n ks).hub.sent := by
  unfold Work.limpRetrain
  induction ks generalizing w with
  | nil => simp at hk
  | cons j ks ih =>
    obtain rfl | hk := List.mem_cons.1 hk
    · refine each_keeps (p := fun v : Work => Out.sideband n 5 k ∈ v.hub.sent) ks _ _ (List.mem_cons_self ..) fun j v hv => ?_
      exact List.mem_cons_of_mem _ (sent_count _ _ _ _ _ hv)
    · exact ih _ hk

theorem mem_limpBundles_both {l : Link} {k : Nat} (hk : k < 16) (ho : (l.bundles.getD k {}).out = false) : k ∈ limpBundles l 2 none := by
  simp only [List.getD_eq_getElem?_getD] at ho
  simp [limpBundles, hk, ho]

/-! ## Limp service begins (R70) -/

/-- The direction of a bundle has its kept bundle chosen anew. -/
def anewDir (l : Link) (k : Nat) : Bool := l.limpDir = 2 || (k < 8) = (l.limpDir = 0)

/-- The bundle as limp service takes it: the kept one active alone, both ends counting from 0 (R70). -/
def keptBundle (l : Link) (b : Bundle) (k : Nat) : Bundle :=
  { b with active := k = l.limpTx || k = l.limpRx, retraining := false, mapSent := false, deskewed := false, nextBseq := 0, expBseq := 0, discarding := false, ackOwed := false }

theorem getD_map_zipIdx {α : Type} (l : List α) (f : α → Nat → α) {k : Nat} (d : α) (h : k < l.length) :
    (l.zipIdx.map fun (b, i) => f b i).getD k d = f (l.getD k d) k := by
  simp [List.getD, h]

/-- A direction whose kept bundle is chosen anew, as the statement names it. -/
theorem anewDir_iff (l : Link) (k : Nat) : anewDir l k = true ↔ l.limpDir = 2 ∨ (k < 8 ↔ l.limpDir = 0) := by
  simp [anewDir]

/-- The link in limp service, its frames moved (R70). -/
def Work.limpLink (w : Work) (n : Nat) : Work :=
  let l := (w.site n).link
  (each ((List.range 8).filter fun k => anewDir l k) (fun k w => w.onLink n (moveFrames k)) w).onLink n fun x =>
    { x with limp := .on, bundles := x.bundles.zipIdx.map fun (b, k) => if anewDir l k then keptBundle l b k else b }

theorem limpAck_one {w : Work} {n : Nat} (h : (w.site n).link.limp = .ack1) : w.limpAck n 1 =
    (if (w.site n).state ≠ 3 then (((w.limpLink n).siteState n 3 (w.site n).link.limpCause).siteLog n 1 1 (w.site n).link.limpCause).irqs ((w.limpLink n).portsForSite n) 2
      else w.limpLink n).flush n := by
  unfold Work.limpAck
  dsimp only
  rw [if_neg (by simp), if_pos (by simp [h])]
  rfl

theorem limpLink_does (w : Work) (n : Nat) :
    ((w.limpLink n).site n).link.limp = .on ∧ ((w.limpLink n).site n).state = (w.site n).state
      ∧ (∀ k < (w.site n).link.bundles.length, ((w.limpLink n).bundle n k).active =
          if anewDir (w.site n).link k then decide (k = (w.site n).link.limpTx) || decide (k = (w.site n).link.limpRx) else (w.bundle n k).active)
      ∧ Same offSites w (w.limpLink n) := by
  have hm : Sends n w (each ((List.range 8).filter fun k => anewDir (w.site n).link k) (fun k w => w.onLink n (moveFrames k)) w) :=
    Sends.each _ _ _ fun k v => Sends.ofLink n v _ (moveFrames_links k _)
  unfold Work.limpLink
  dsimp only
  generalize each _ _ w = v at *
  refine ⟨by simp [Work.onLink], ?_, fun k hk => ?_, hm.same.trans (onLink_same _ _ _)⟩
  · simp only [Work.onLink, site_onSite]
    exact hm.state
  · have hlen : k < (v.site n).link.bundles.length := by rw [hm.link.length]; exact hk
    have hact : ((v.site n).link.bundles.getD k {}).active = (w.bundle n k).active := by have e := congrArg Bundle.active (hm.bundle k); exact e
    rw [bundle_onLink]
    dsimp only
    rw [getD_map_zipIdx _ (fun b k => if anewDir (w.site n).link k then keptBundle (w.site n).link b k else b) _ hlen, ← hact]
    split <;> rfl

/-- The acknowledgement of stage 1 brings limp service. -/
theorem limpAck_one_does {w : Work} {n : Nat} (h : (w.site n).link.limp = .ack1) :
    let t := w.limpAck n 1
    (t.site n).link.limp = .on ∧ ((w.site n).state ≠ 3 → (t.site n).state = 3 ∧ (t.site n).cause = (w.site n).link.limpCause)
      ∧ (∀ k < (w.site n).link.bundles.length, (t.bundle n k).active =
          if anewDir (w.site n).link k then decide (k = (w.site n).link.limpTx) || decide (k = (w.site n).link.limpRx) else (w.bundle n k).active)
      ∧ Same offSites w t := by
  obtain ⟨h1, h2, h3, h4⟩ := limpLink_does w n
  rw [limpAck_one h]
  dsimp only
  generalize w.limpLink n = u at *
  generalize hy : (if (w.site n).state ≠ 3 then _ else u) = y
  have hlink : (y.site n).link = (u.site n).link ∧ Same offSites u y ∧ ((w.site n).state ≠ 3 → (y.site n).state = 3 ∧ (y.site n).cause = (w.site n).link.limpCause) := by
    subst y
    by_cases hs : (w.site n).state = 3
    · rw [if_neg (fun h => h hs)]
      exact ⟨rfl, .refl _ _, fun h => (h hs).elim⟩
    · rw [if_pos hs]
      refine ⟨by simp [Work.siteLog, Work.siteState], ?_, fun _ => by simp [Work.siteLog, Work.siteState]⟩
      exact (onSite_same _ _ _).trans (((siteLog_reports _ _ _ _ _ _ _).trans (irqs_reports _ _ _)).same _)
  obtain ⟨e1, e2, e3⟩ := hlink
  have hf := flush_sends y n
  refine ⟨?_, fun hs => ?_, fun k hk => ?_, h4.trans (e2.trans hf.same)⟩
  · rw [hf.limp, e1]; exact h1
  · rw [hf.state, hf.cause]; exact e3 hs
  · rw [hf.bundle k, ← h3 k hk, Work.bundle, e1]; rfl

/-! ## The kept bundles (R70) -/

theorem exec_limpRetrainDone (n : Nat) (clean : List Nat) (s : State) : exec (.limpRetrainDone n clean) s = s.run fun w =>
    if (w.site n).link.limp ≠ .retrain then w
    else
      let (tx, v) := if (w.site n).link.limpDir = 1 then (some (w.site n).link.limpTx, w) else w.keepBundle n 0 clean
      let (rx, u) := if (w.site n).link.limpDir = 0 then (some (w.site n).link.limpRx, v) else v.keepBundle n 8 clean
      match tx, rx with
      | some t, some r => (u.onLink n fun l => { l with limp := .ack1, limpTx := t, limpRx := r }).sideband n 0x08 (pack [(1, 1), (3, t), (3, r)])
      | _, _ => u.deadAgent n 21 := rfl

/-- The least of a list's figures, from that of one of its elements on, is one element's. -/
theorem foldl_min_reached {c : List Nat} (g : Nat → Nat) {x : Nat} (hx : x ∈ c) : ∃ k ∈ c, g k = c.foldl (fun m k => min m (g k)) (g x) := by
  have h (l : List Nat) (hl : ∀ k ∈ l, k ∈ c) : ∀ y ∈ c, ∃ k ∈ c, g k = l.foldl (fun m k => min m (g k)) (g y) := by
    induction l with
    | nil => exact fun y hy => ⟨y, hy, rfl⟩
    | cons a l ih =>
      intro y hy
      rw [List.foldl_cons]
      have ha := hl a (by simp)
      have hr (k : Nat) (hk : k ∈ l) := hl k (by simp [hk])
      rcases Nat.le_total (g y) (g a) with hle | hle
      · rw [Nat.min_eq_left hle]; exact ih hr y hy
      · rw [Nat.min_eq_right hle]; exact ih hr a ha
  exact h c (fun _ h => h) x hx

/-- A direction with a clean bundle that is not out keeps one of them; a free value is taken, if any choice stands. -/
theorem keepBundle_keeps {w : Work} {n base : Nat} {clean : List Nat} (h : ∃ k < 8, base + k ∈ clean ∧ (w.bundle n (base + k)).out = false) :
    ∃ t, base ≤ t ∧ t < base + 8 ∧ t ∈ clean ∧ w.keepBundle n base clean = (some t, w.onHub fun h => { h with free := h.free + 1 }) := by
  obtain ⟨k, hk, hc, ho⟩ := h
  unfold Work.keepBundle
  dsimp only
  generalize hcs : ((List.range 8).map (· + base)).filter (fun k => k ∈ clean && !(w.bundle n k).out) = c
  have hmem : base + k ∈ c := by subst c; simp [hk, hc, ho, Nat.add_comm]
  have hfrom {j : Nat} (hj : j ∈ c) : base ≤ j ∧ j < base + 8 ∧ j ∈ clean := by
    subst c
    simp only [List.mem_filter, List.mem_map, List.mem_range, Bool.and_eq_true, decide_eq_true_eq] at hj
    obtain ⟨⟨i, hi, rfl⟩, hj, -⟩ := hj
    exact ⟨by omega, by omega, hj⟩
  obtain ⟨x, r, rfl⟩ : ∃ x r, c = x :: r := List.exists_cons_of_ne_nil (List.ne_nil_of_mem hmem)
  obtain ⟨y, hy, hlow⟩ := foldl_min_reached (c := x :: r) (fun k => (recent w.now 100000 (w.bundle n k).nakTimes).length) (x := x) (List.mem_cons_self ..)
  generalize hb : List.filter _ (x :: r) = best
  have hbest : y ∈ best := by
    subst best
    refine List.mem_filter.2 ⟨hy, ?_⟩
    simpa using hlow
  have hsub {j : Nat} (hj : j ∈ best) : j ∈ x :: r := by subst best; exact (List.mem_filter.1 hj).1
  have hpos : 0 < best.length := List.length_pos_of_mem hbest
  rw [if_neg (List.ne_nil_of_mem hbest)]
  have hi : Config.keepAmong w.hub.free % best.length < best.length := Nat.mod_lt _ hpos
  obtain ⟨h1, h2, h3⟩ := hfrom (hsub (List.getElem_mem hi))
  exact ⟨_, h1, h2, h3, by rw [List.getElem?_eq_getElem hi]⟩

/-- Settles O5: the stages of limp entry, each by its own lemma. -/
theorem siteLimp : Obligations.SiteLimp := by
  unfold Obligations.SiteLimp
  refine ⟨fun s n h => ?_, fun s n h => ?_, fun s n h hs hr ht hq => ?_, fun s n clean h hd h0 h8 => ?_⟩
  · refine does_work (exec_lmLimpAck n 0 s) (w := (s.work.onLink n fun l => { l with limp := .retrain }).limpRetrain n (limpBundles (s.work.site n).link 2 none)) ?_ ?_
    · unfold Work.limpAck
      dsimp only
      rw [if_pos (by simp [h])]
    · refine ⟨?_, fun k hk ho => limpRetrain_asks _ _ (mem_limpBundles_both hk ho), within_sites ((onLink_same _ _ _).trans ((limpRetrain_reports _ _ _).same _))⟩
      simp [limpRetrain_site, Work.onLink]
  · obtain ⟨h1, h2, h3, h4⟩ := limpAck_one_does h
    refine does_work (exec_lmLimpAck n 1 s) rfl ⟨h1, h2, fun k hk => ?_, within_sites h4⟩
    have e := h3 k hk
    split
    · rename_i hany
      rw [if_pos ((anewDir_iff _ _).2 hany)] at e
      rw [bundle_commit, e]
      simp
    · rename_i hany
      rw [if_neg (fun ha => hany ((anewDir_iff _ _).1 ha))] at e
      exact e
  · obtain ⟨h1, h2, h3, h4, h5, h6⟩ := deadAgent_serving s.work n 19 hs hr ht hq
    exact does_work (exec_lmLimpAckTimeout n s) (if_pos (by simpa using h)) ⟨h1, h2, h3, h5, h6⟩
  · obtain ⟨t, -, ht, htc, e0⟩ := keepBundle_keeps (w := s.work) (n := n) (base := 0) (clean := clean) (by simpa using h0)
    obtain ⟨r, hr8, hr, hrc, e8⟩ := keepBundle_keeps (w := s.work.onHub fun h => { h with free := h.free + 1 }) (n := n) (base := 8) (clean := clean) (by
      obtain ⟨k, hk, hc, ho⟩ := h8
      exact ⟨k, hk, by rwa [Nat.add_comm], by rwa [Nat.add_comm]⟩)
    refine does_work (exec_limpRetrainDone n clean s) (w := ((((s.work.onHub fun h => { h with free := h.free + 1 }).onHub fun h => { h with free := h.free + 1 }).onLink n
      fun l => { l with limp := .ack1, limpTx := t, limpRx := r }).sideband n 0x08 (pack [(1, 1), (3, t), (3, r)]))) ?_ ?_
    · simp [h, hd, e0, e8]
    · refine ⟨?_, ?_, ?_, ?_, ?_, ?_, rfl, rfl, rfl⟩ <;> simp [Work.sideband, Work.onLink, htc, hr8, hrc]
      · omega
      · omega

end Sys2Proof.Machine
end

section
/-! PROOFS. The operator catalogue (07): arithmetic, logic, functions, reductions, and streams that are misaligned. -/

namespace Sys2Proof.Machine

/-- Settles O20: each command runs its operator (R221), and an operator that may issue gives its results. -/
theorem arithmetic : Obligations.Arithmetic := by
  unfold Obligations.Arithmetic
  exact ⟨operates_of_runOp (c := .add) fun _ _ => rfl, operates_of_runOp (c := .sub) fun _ _ => rfl, operates_of_runOp (c := .mul) fun _ _ => rfl,
    operates_of_runOp (c := .max) fun _ _ => rfl, operates_of_runOp (c := .min) fun _ _ => rfl, operates_of_runOp (c := .fma) fun _ _ => rfl,
    operates_of_runOp (c := .div) fun _ _ => rfl, operates_of_runOp (c := .abs) fun _ _ => rfl, operates_of_runOp (c := .neg) fun _ _ => rfl,
    operates_of_runOp (c := .scale) fun _ _ => rfl, operates_of_runOp (c := .clamp) fun _ _ => rfl⟩

/-- Settles O22: each command runs its operator (R222, R233). -/
theorem logic : Obligations.Logic := by
  unfold Obligations.Logic
  exact ⟨operates_of_runOp (c := .cmpOp) fun _ _ => rfl, operates_of_runOp (c := .sel) fun _ _ => rfl, operates_of_runOp (c := .bitop) fun _ _ => rfl,
    operates_of_runOp (c := .shift) fun _ _ => rfl, operates_of_runOp (c := .fill) fun _ _ => rfl, operates_of_runOp (c := .nzmask) fun _ _ => rfl⟩

/-- Settles O24: each command runs its function of one source (R223, R224, R232). -/
theorem functions : Obligations.Functions := by
  unfold Obligations.Functions
  refine ⟨?_, operates_of_runOp (c := .gelu) fun _ _ => rfl, operates_of_runOp (c := .silu) fun _ _ => rfl⟩
  simp only [List.forall_mem_cons]
  exact ⟨operates_of_runOp (c := .exp) fun _ _ => rfl, operates_of_runOp (c := .exp2) fun _ _ => rfl, operates_of_runOp (c := .log) fun _ _ => rfl,
    operates_of_runOp (c := .recip) fun _ _ => rfl, operates_of_runOp (c := .sqrt) fun _ _ => rfl, operates_of_runOp (c := .rsqrt) fun _ _ => rfl,
    operates_of_runOp (c := .tanh) fun _ _ => rfl, operates_of_runOp (c := .sigmoid) fun _ _ => rfl, operates_of_runOp (c := .dequant) fun _ _ => rfl, nofun⟩

/-- Settles O25: each command runs its reduction or row operator (R225 to R229). -/
theorem reductions : Obligations.Reductions := by
  unfold Obligations.Reductions
  exact ⟨operates_of_runOp (c := .rsum) fun _ _ => rfl, operates_of_runOp (c := .rsumsq) fun _ _ => rfl, operates_of_runOp (c := .rmax) fun _ _ => rfl,
    operates_of_runOp (c := .rmin) fun _ _ => rfl, operates_of_runOp (c := .ramax) fun _ _ => rfl, operates_of_runOp (c := .rdot) fun _ _ => rfl,
    operates_of_runOp (c := .softmax) fun _ _ => rfl, operates_of_runOp (c := .rmsnorm) fun _ _ => rfl, operates_of_runOp (c := .layernorm) fun _ _ => rfl,
    operates_of_runOp (c := .rope) fun _ _ => rfl⟩

/-! ## Misaligned streams (R194) -/

/-- A command ends its recipe with MISALIGNED at its step where a stream does not lie as R194 asks. -/
def EndsMisaligned (c : OpEvent → Instr) (op : Nat) : Prop :=
  ∀ (s : State) (ev : OpEvent) (r : Run), s.CanIssue ev.engine op r → (s.opAt ev r).aligned = false → (s.work.wright ev.engine).accesses ≠ [] →
    Does (c ev) s fun t =>
      t.work.wright ev.engine = { s.work.wright ev.engine with run := some { r with phase := .ending, status := 4, endStep := r.pc, endLoops := r.loops.map fun z => z.2.2 } }
      ∧ Exactly s t (fun h => { h with wrights := t.hub.wrights }) ∧ ∀ g, g ≠ ev.engine → t.work.wright g = s.work.wright g

/-- A step that may issue goes on to what its command does with it. -/
theorem stepGo_issues {s : State} {x op : Nat} {r : Run} (h : s.CanIssue x op r) (k : Run → Step → Work → Work) : s.work.stepGo x op k = k r (curStep r) s.work := by
  obtain ⟨hrun, hphase, hpc, hop⟩ := h
  simp [Work.stepGo, hrun, hphase, hpc, hop]

/-- Issue of a run that issues ends with a status, its accesses left to complete. -/
theorem endRun_issuing {s : State} {x op : Nat} {r : Run} (status : Nat) (h : s.CanIssue x op r) (ha : (s.work.wright x).accesses ≠ []) :
    s.work.endRun x status = s.work.onRun x fun r => if r.phase = .ending then r else runEndsAt r status r.pc (loopIndices r) := by
  obtain ⟨hrun, -, -, -⟩ := h
  unfold Work.endRun Work.tryEnd
  split
  · refine if_neg ?_
    simp [Work.onRun, ha]
  · rfl

theorem endsMisaligned_of_endRun {c : OpEvent → Instr} {op : Nat} {f : OpEvent → Work → Work} (hexec : ∀ ev s, exec (c ev) s = s.run (f ev))
    (hf : ∀ (s : State) (ev : OpEvent) (r : Run), s.CanIssue ev.engine op r → (s.opAt ev r).aligned = false → f ev s.work = s.work.endRun ev.engine stMisaligned) :
    EndsMisaligned c op := by
  intro s ev r hissue halign hacc
  refine does_work (hexec ev s) ((hf s ev r hissue halign).trans (endRun_issuing _ hissue hacc)) ?_
  obtain ⟨hrun, hphase, -, -⟩ := hissue
  refine ⟨?_, ⟨rfl, rfl, rfl⟩, fun g hg => wright_onWright_ne _ _ hg⟩
  simp [Work.onRun, hrun, hphase, runEndsAt, stMisaligned, loopIndices]

theorem endsMisaligned_of_runOp {c : OpEvent → Instr} {op : Nat} {f : Op → OpOut} (hexec : ∀ ev s, exec (c ev) s = s.run fun k => k.runOp ev op f) : EndsMisaligned c op := by
  refine endsMisaligned_of_endRun hexec fun s ev r hissue halign => ?_
  rw [Work.runOp, stepGo_issues hissue]
  have h : ({ m := struck (s.work.wright ev.engine) ev, r := r, st := curStep r } : Op).aligned = false := halign
  simp [h]

/-- What a GATE step that may issue does (R208, R241, R242). -/
def Work.gateStep (k : Work) (ev : OpEvent) (r : Run) (st : Step) : Work :=
  let x := ev.engine
  let c : Op := { m := struck (k.wright x) ev, r := r, st := st }
  let g := c.gate x r.launch.berth
  let b := bits st.imm 4 0
  let regs := (c.src st.sa st.ta g.hdr.nlog).regs 0 g.hdr.nlog ++ [(c.pos st.sb, g.payload.length)]
  if !c.aligned then k.endRun x stMisaligned
  else if regs.any fun (a, n) => pendIn c.m a n then k
  else if 8192 < stagedBeats (k.bearing b) + g.hdr.beats then k
  else
    let k := ((k.count 2 x 15 (vecsFor st.ta g.hdr.nlog + st.nv)).viewCount r.launch.berth 0 (vecsFor st.ta g.hdr.nlog + st.nv)).count 2 x 22 ev.once.length
    let k := ((k.onWright x fun m => struck m ev).count 2 x 23 ev.corrected).stallCount x 18
    match ev.twice with
    | some v => k.datapathFault x v
    | none =>
      if badRegs c.m regs then (k.gateRejected x r.launch.entry g.hdr.table g.hdr.row).nextStep x
      else match k.gateArrives b g with
        | (some _, k) => (k.gateRejected x r.launch.entry g.hdr.table g.hdr.row).nextStep x
        | (none, k) => k.nextStep x

theorem exec_gateOperator (ev : OpEvent) (s : State) : exec (.gateOperator ev) s = s.run fun k => k.stepGo ev.engine 0x5E fun r st k => k.gateStep ev r st := rfl

theorem gate_endsMisaligned : EndsMisaligned .gateOperator 0x5E := by
  refine endsMisaligned_of_endRun exec_gateOperator fun s ev r hissue halign => ?_
  rw [stepGo_issues hissue]
  have h : ({ m := struck (s.work.wright ev.engine) ev, r := r, st := curStep r } : Op).aligned = false := halign
  simp [Work.gateStep, h]

/-- Settles O27: GATE, and every command that runs an operator, ends its run where the streams are misaligned. -/
theorem operatorsMisaligned : Obligations.OperatorsMisaligned := by
  show ∀ y ∈ catalogue, EndsMisaligned y.1 y.2
  simp only [catalogue, List.cons_append, List.nil_append, List.forall_mem_cons]
  have op {c : OpEvent → Instr} {n : Nat} {f : Op → OpOut} (h : ∀ ev s, exec (c ev) s = s.run fun k => k.runOp ev n f) : EndsMisaligned c n := endsMisaligned_of_runOp h
  refine ⟨op fun _ _ => rfl, op fun _ _ => rfl, op fun _ _ => rfl, op fun _ _ => rfl, op fun _ _ => rfl, op fun _ _ => rfl, op fun _ _ => rfl, op fun _ _ => rfl, op fun _ _ => rfl, op fun _ _ => rfl, op fun _ _ => rfl, op fun _ _ => rfl, op fun _ _ => rfl, op fun _ _ => rfl, op fun _ _ => rfl, op fun _ _ => rfl, op fun _ _ => rfl, op fun _ _ => rfl, op fun _ _ => rfl, op fun _ _ => rfl, op fun _ _ => rfl, op fun _ _ => rfl, op fun _ _ => rfl, op fun _ _ => rfl, op fun _ _ => rfl, op fun _ _ => rfl, op fun _ _ => rfl, op fun _ _ => rfl, op fun _ _ => rfl, op fun _ _ => rfl, op fun _ _ => rfl, op fun _ _ => rfl, op fun _ _ => rfl, op fun _ _ => rfl, op fun _ _ => rfl, op fun _ _ => rfl, op fun _ _ => rfl, op fun _ _ => rfl, op fun _ _ => rfl, op fun _ _ => rfl, op fun _ _ => rfl, op fun _ _ => rfl, op fun _ _ => rfl, op fun _ _ => rfl, op fun _ _ => rfl, op fun _ _ => rfl, op fun _ _ => rfl, op fun _ _ => rfl, op fun _ _ => rfl, gate_endsMisaligned, nofun⟩

/-! ## ADD of a device stream -/

/-- A run at an ADD whose result goes to a stream of device memory at 2^21, past the end of local memory. -/
def strayRun : Run :=
  { recipe := { steps := [{ op := 0x10, sd := 1 }], streams := [{}, { space := 1, base := 2 ^ 21 }] } }

/-- Engine 0 at that step; byte 0 of local memory is 1. -/
def strayAdd : State := { State.reset with hub := { State.reset.hub with wrights := [(0, { run := some strayRun, mem := [(0, 1)] })] } }

/-- Refutes O21: alignment alone lets SD be a stream of device memory (no recipe that R195 admits has it). Its position 2^21 names byte 0 of local memory again, and byte 0,
below that position, changes from 1 to 2: the sum of the least FP32 value and itself. -/
theorem not_addElements : ¬ Obligations.AddElements := by
  intro h
  obtain ⟨t, ht, -, hb, -⟩ := h strayAdd {} strayRun 0 (2 ^ 21) rfl (by decide) rfl (by decide) (by decide) rfl rfl rfl rfl (by decide)
  obtain ⟨u, hu, hgives, -⟩ := arithmetic.1 strayAdd {} strayRun (by decide) rfl rfl (by decide +kernel)
  obtain rfl : u = t := by
    rw [ht] at hu
    exact (Host.Outcome.next.inj hu).symm
  have hread := hb 0 1 (by decide)
  rw [hgives] at hread
  exact absurd hread (by decide +kernel)

end Sys2Proof.Machine
end

section
/-! PROOFS. O8 fails: an engine's access that waits for room is put before the homes first, and takes the number that the CLOSE would have. -/

namespace Sys2Proof.Machine

/-- What holds of every next state of a command holds of what the model evaluates to. -/
theorem Does.eval {c : Instr} {s : State} {P : State → Prop} (h : Does c s P) {f : State → Bool} (hf : ∀ t, P t → f t = true) :
    (match exec c s with | .next t => f t | _ => true) = true := by
  obtain ⟨t, ht, hP⟩ := h
  rw [ht]
  exact hf t hP

/-- The leaf of a coherent 64 KiB page in the scratch of partition 0. -/
def coherentLeaf : Nat := pack [(2, 1), (1, 1), (1, 1), (76, 0), (36, 0x400000)]

/-- A table of berth 4 with one expert at site S0. -/
def scratchTable : BTable := { hdr := { berth := 4, zeroRow := true, rowStride := 256, ntok := 16, outcomeBase := 0x1000 }, experts := [{ kind := 1 }] }

/-- The output of rank 0 of record 2 of engine 0. -/
def outputPacket : Packet := { token := 2, table := 5, otable := 5, row := 1, payload := List.replicate 32 0, fmt := 0, beats := 1 }

/-- That output is summed at engine 0, for which a read of another access waits for room. -/
def summing : State := { State.reset with hub := { State.reset.hub with
  memory := { State.reset.hub.memory with parts := [(0, { mode := 3, holder := 4 })] }
  chart := { State.reset.hub.chart with tlb := [{ unit := 80, berth := 4, base := 0, log2 := 16, leaf := coherentLeaf }] }
  tables := [(5, scratchTable)]
  bearings := [(0, { recs := [(2, { table := 5, row := 1, phase := .running, ranks := [{ remote := true }, {}] })], combining := [(8, { packet := outputPacket })] })]
  fabric := { State.reset.hub.fabric with nextId := 9, todo := [{ agent := .bearing 0, tag := recTag 3, unit := 80, berth := 4, start := 0, dva := 0, len := 32, kind := .read, prio := 1 }] } } }

/-- Refutes O8 by its first clause: the waiting read enters the fabric as message 9, and the CLOSE of the rank as message 10. -/
theorem not_bearingEnds : ¬ Obligations.BearingEnds := by
  intro h
  have hdoes := h.1 summing 8 0 outputPacket scratchTable (by decide +kernel) rfl (by decide +kernel) rfl (by decide +kernel) (by decide +kernel) (by decide +kernel)
  have heval := hdoes.eval (f := fun t => (tfind t.hub.fabric.toks 9).isSome) fun t ht => by
    cases hp : tfind t.hub.fabric.toks 9 with
    | none => exact absurd (ht.2.symm.trans (congrArg _ hp)) nofun
    | some p => rfl
  exact absurd heval (by decide +kernel)

end Sys2Proof.Machine
end

section
/-! PROOFS. Refutations of O10, O11, O12 and O33, each at a state that the hypotheses of a clause admit and its conclusion forgets. -/

namespace Sys2Proof.Machine

/-- A site in full service: its bundles active, COH in force, credits on both sides. -/
def fullSite : Site :=
  { state := 1, link := { step := 9, bundles := List.replicate 16 { active := true } }
    port := { coh := true, token := true, helm := true, initSent := true, initGot := true, toChip := hubGrants, granted := hubGrants, fromChip := hubGrants }
    power := { pwrEn := true, vcsPg := true, rstN := true } }

/-- P0 in service, its Log enabled in host memory at 0x1000. -/
def loggedPort : Port := { state := 2, ready := true, width := 16, rate := 6, perstN := true, funcs := [(0, { bme := true })], log := { enable := true, log2 := 4, base := 0x1000 } }

/-! ## The last echo -/

/-- Site S0 awaits the last of its echoes, and a host hears the Log. -/
def lastEcho : State := { State.reset with hub := { State.reset.hub with
  ports := [(0, loggedPort)], sites := [(0, { fullSite with state := 6, port := { fullSite.port with echoes := [[1]], echoLeft := 1 } })] } }

/-- Refutes O10 by its third clause: the Log entry of a site that enters service is written to host memory, which is not as before. -/
theorem not_siteProtocolStart : ¬ Obligations.SiteProtocolStart := by
  rintro ⟨-, -, h, -⟩
  have heval := (h lastEcho 0 [1] (by decide +kernel) rfl rfl (by decide) rfl (by decide +kernel) rfl).eval (f := fun t => t.mem.byte (hostKey 0 0x1000) == 0) fun t ht => by
    obtain ⟨-, -, -, hmem, -⟩ := ht
    rw [hmem]
    rfl
  exact absurd heval (by decide +kernel)

/-! ## Answers before INIT -/

/-- An answer on its way to a site in service whose INIT is not recorded. -/
def answerBeforeInit : State := { State.reset with hub := { State.reset.hub with
  sites := [(0, { fullSite with port := { fullSite.port with initGot := false } })], fabric := { State.reset.hub.fabric with nextId := 4, rsps := [(3, { site := 0, tag := 5, berth := 4 })] } } }

/-- Refutes O11 by its third clause: before the chiplet's INIT an answer waits (R77), and the clause does not ask that the INIT has come. -/
theorem not_siteRequests : ¬ Obligations.SiteRequests := by
  rintro ⟨-, -, h, -⟩
  have heval := (h answerBeforeInit 0 3 0 { site := 0, tag := 5, berth := 4 }
    (by decide +kernel) rfl rfl rfl (by decide +kernel) (by decide +kernel) rfl).eval (f := fun t => !t.hub.sent.isEmpty) fun t ht => by
      obtain ⟨hsent, -⟩ := ht
      cases hl : t.hub.sent with
      | nil => rw [hl] at hsent; exact absurd hsent List.not_mem_nil
      | cons o l => rfl
  exact absurd heval (by decide +kernel)

/-! ## Dirty data that goes ahead -/

/-- Site S1's read of line 0x80000000, S0 its owner snooped alone. -/
def aheadRead : MemReq := { agent := .site 1, kind := .rdShared, tag := 7, berth := 4, bytes := 128, dpa := 0x004000000000 }

/-- S0 answers that snoop; the line lies in the scratch of partition 0, which berth 4 holds. -/
def dataAhead : State := { State.reset with hub := { State.reset.hub with
  memory := { State.reset.hub.memory with parts := [(0, { mode := 3, holder := 4 })] }
  sites := [(0, { fullSite with port := { fullSite.port with snoops := [(2, { line := 0x80000000 })] } }), (1, fullSite)]
  ledger := { State.reset.hub.ledger with entries := [(0x80000000, { st := .EM, owner := 0 })], txns := [(0x80000000, { why := .request aheadRead, waiting := [0], alone := true })] } } }

/-- Refutes O12 by its first clause: data of the one owner that was snooped goes on to the requester at once (R288), so the fabric changes and not the sites alone. -/
theorem not_siteSnoops : ¬ Obligations.SiteSnoops := by
  rintro ⟨h, -⟩
  have heval := (h dataAhead 0 2 (List.replicate 128 1) { line := 0x80000000 } (by decide +kernel) rfl rfl rfl).eval (f := fun t => t.hub.fabric.rsps.isEmpty) fun t ht => by
    obtain ⟨-, -, -, hhub⟩ := ht
    rw [hhub]
    rfl
  exact absurd heval (by decide +kernel)

/-! ## A host line listed twice -/

/-- S0 reads host line 0x1000 of P0. -/
def hostRead : MemReq := { agent := .site 0, kind := .rdShared, tag := 5, berth := 4, bytes := 128, dpa := 0x0008000000001000, shared := true }

/-- The home awaits the host's answer; memory, which is not in its canonical form, lists the line's first byte twice. -/
def listedTwice : State := { State.reset with
  mem := { cells := [(0x0008000000001000, 5), (0x0008000000001000, 6)] }
  hub := { State.reset.hub with ledger := { State.reset.hub.ledger with txns := [(0x0008000000001000 / 128, { why := .request hostRead, hostWait := true })] } } }

/-- Refutes O33 by its third clause, which does not ask that memory is canonical: the host's zero unlists the first cell of its byte, and the second shows. -/
theorem not_hostLines : ¬ Obligations.HostLines := by
  rintro ⟨-, -, h, -⟩
  have heval := (h listedTwice 0 (0x0008000000001000 / 128) { why := .request hostRead, hostWait := true } hostRead 0 (List.replicate 128 0)
    rfl rfl rfl rfl rfl (by decide +kernel) (by decide +kernel) rfl rfl rfl rfl rfl rfl rfl (by decide +kernel)).eval
      (f := fun t => t.mem.bytes (0x0008000000001000 / 128 * 128) 128 == List.replicate 128 0) fun t ht => by
        obtain ⟨hbytes, -⟩ := ht
        rw [hbytes]
        exact beq_self_eq_true _
  exact absurd heval (by decide +kernel)

end Sys2Proof.Machine
end

section
/-! PROOFS. Refutations of O18, O38, O40, O46, O49 and O55: accesses under way that share a number, accesses that an invalidation cuts short, tables that list a key twice. -/

namespace Sys2Proof.Machine

/-! ## Two accesses of one number -/

/-- A LOAD of one vector of device memory at 0x1000. -/
def loadRun : Run :=
  { launch := { berth := 4 }, recipe := { berth := 4, steps := [{ op := 3, sa := 1 }], streams := [{}, { space := 1, base := 0x1000 }] } }

/-- Engine 0 at that LOAD; an access under way has the number that the LOAD's will have, and reads under descriptor 7. -/
def sharedNumber : State := { State.reset with hub := { State.reset.hub with
  memory := { State.reset.hub.memory with parts := [(0, { mode := 3, holder := 4 })] }
  chart := { State.reset.hub.chart with tlb := [{ unit := 16, berth := 4, base := 0, log2 := 16, leaf := coherentLeaf }] }
  wrights := [(0, { run := some loadRun, accesses := [{ id := 1, packs := [7] }] })] } }

/-- Refutes O18 by its first clause: what the LOAD notes of its access it notes of every access of that number, so the one before it does not stand as it was. -/
theorem not_accessSteps : ¬ Obligations.AccessSteps := by
  rintro ⟨h, -⟩
  have heval := (h sharedNumber 0 loadRun [] [] (by decide +kernel) rfl (by decide +kernel) (by decide +kernel) (by decide +kernel) rfl (by decide +kernel)).eval
    (f := fun t => (t.work.wright 0).accesses.head?.map (·.packs) == some [7]) fun t ht => by
      obtain ⟨⟨a, hacc, -⟩, -⟩ := ht
      rw [hacc]
      rfl
  exact absurd heval (by decide +kernel)

/-! ## Accesses that an invalidation cuts short -/

/-- The word of an entry: opcode, host pointer, then fields from bit 128 on. -/
def bodyWord (opcode : Nat) (fields : List (Nat × Nat)) : Nat := pack ([(8, opcode), (120, 0)] ++ fields)

/-- The entry that the manager of P0 has issued in its ring 0. -/
def managerEntry : EntryRef := { berth := 0, ring := 0, index := 3 }

/-- The manager of P0 has issued an entry of a word. -/
def managerIssues (word : Nat) (f : Hub → Hub) : State := { State.reset with hub := f { State.reset.hub with
  ten := { State.reset.hub.ten with
    mgr := [0, 9, 9, 9], pools := [(0, { berthCount := 8, groups := 3, markCount := 8 })]
    rings := [(0, { log2 := 4, enable := true, state := 1, started := [{ index := 3, word := word }] })] } } }

/-- A read of Bearing engine 0 for berth 4, its first piece issued, the second still waiting for room. -/
def halfIssued : SourcePiece := { agent := .bearing 0, tag := recTag 3, unit := 80, berth := 4, start := 0, dva := 32, len := 32, kind := .read, prio := 1 }

/-- CHART_INVAL of everything of berth 4. -/
def invalBerth : Nat := bodyWord 0x21 [(14, 4), (2, 2)]

/-- That command with the read under way. -/
def cutByInval : State := managerIssues invalBerth fun h => { h with fabric := { h.fabric with todo := [halfIssued] } }

/-- Refutes O38 by its third clause: the rest of the read is never issued and its access has failed (R365), so the fabric is not as before. -/
theorem not_chartWalks : ¬ Obligations.ChartWalks := by
  rintro ⟨-, -, h⟩
  have heval := (h cutByInval managerEntry { index := 3, word := invalBerth } (bits invalBerth 383 128) 2 (by decide +kernel) (by decide +kernel) rfl (by decide +kernel)
    (fun _ => by decide +kernel) (fun hk => absurd rfl hk) (by decide)).eval (f := fun t => t.hub.fabric.todo == [halfIssued]) fun t ht => by
      obtain ⟨-, -, -, -, hhub⟩ := ht
      rw [hhub]
      rfl
  exact absurd heval (by decide +kernel)

/-- The leaf of a 64 KiB page of berth 4 in window 0. -/
def windowLeaf : Nat := pack [(2, 1), (1, 1), (77, 0), (36, 0x400000000)]

/-- WINDOW_SET that closes window 0. -/
def closeWindow : Nat := bodyWord 0x22 [(8, 0)]

/-- That command with the read under way in the window. -/
def cutByWindow : State := managerIssues closeWindow fun h => { h with
  chart := { h.chart with tlb := [{ unit := 80, berth := 4, base := 0, log2 := 16, leaf := windowLeaf }] }, fabric := { h.fabric with todo := [halfIssued] } }

/-- Refutes O40 by its second clause: the window closed, the rest of the read is never issued and its access has failed, so the fabric is not as before. -/
theorem not_windows : ¬ Obligations.Windows := by
  rintro ⟨-, h, -⟩
  have heval := (h cutByWindow managerEntry { index := 3, word := closeWindow } (bits closeWindow 383 128) (by decide +kernel) (by decide +kernel) rfl
    (by decide +kernel)).eval (f := fun t => t.hub.fabric.todo == [halfIssued]) fun t ht => by
      obtain ⟨-, -, -, -, hhub⟩ := ht
      rw [hhub]
      rfl
  exact absurd heval (by decide +kernel)

/-! ## Keys that a table lists twice -/

/-- BERTH_OPEN of berth 4, whose second generation is listed with two keys. -/
def openBerth4 : Nat := bodyWord 0x30 [(14, 4)]
def keyedTwice : State := managerIssues openBerth4 fun h => { h with memory := { h.memory with keys := [(9, 7), (9, 8)] } }

/-- Refutes O46 by its first clause: one of the two entries goes, and the second generation still has the other's key. -/
theorem not_tenants : ¬ Obligations.Tenants := by
  rintro ⟨h, -⟩
  have heval := (h keyedTwice managerEntry { index := 3, word := openBerth4 } 4 ⟨by decide +kernel, by decide +kernel, by decide +kernel⟩ (by decide +kernel) (by decide +kernel) (by decide +kernel)
    (by decide +kernel) (by decide +kernel) rfl).eval (f := fun t => t.work.key 4 1 == 0) fun t ht => by
      obtain ⟨-, -, hkey, -⟩ := ht
      rw [hkey]
      rfl
  exact absurd heval (by decide +kernel)

/-- A table that is being removed, and listed twice. -/
def removingTable : BTable := { scratchTable with removing := true, removeEntry := some managerEntry }
def tabledTwice : State := managerIssues 0 fun h => { h with tables := [(5, removingTable), (5, removingTable)] }

/-- Refutes O49 by its first clause: one of the two goes, and the other is still there. -/
theorem not_tenantEvents : ¬ Obligations.TenantEvents := by
  rintro ⟨h, -⟩
  have heval := (h tabledTwice managerEntry { index := 3, word := 0 } 5 removingTable (by decide +kernel) rfl rfl rfl (by decide +kernel)).eval
    (f := fun t => (t.work.table 5).isNone) fun t ht => by
      obtain ⟨htable, -⟩ := ht
      rw [htable]
      rfl
  exact absurd heval (by decide +kernel)

/-- A window request of S0 that waits for its answer, listed twice under its tag. -/
def windowOut : WinOut := { req := { agent := .site 0, tag := 5, berth := 4 }, hub := 2 }
def outstandingTwice : State := { State.reset with hub := { State.reset.hub with hawser := { State.reset.hub.hawser with outstanding := [(7, windowOut), (7, windowOut)] } } }

/-- Refutes O55 by its clause on a request that is not answered in time: one of the two is ended, and the tag still names the other. -/
theorem not_hawserLinks : ¬ Obligations.HawserLinks := by
  rintro ⟨-, -, -, -, -, -, -, -, -, -, -, -, -, -, -, h, -⟩
  have heval := (h outstandingTwice 7 windowOut 0 (by decide +kernel) rfl rfl rfl).eval (f := fun t => (tfind t.hub.hawser.outstanding 7).isNone) fun t ht => by
    obtain ⟨htag, -⟩ := ht
    rw [htag]
    rfl
  exact absurd heval (by decide +kernel)

end Sys2Proof.Machine
end

section
/-! PROOFS. Refutations of O45 and O48: a function listed twice, a waiter whose spilled entry is being read. -/

namespace Sys2Proof.Machine

/-- Function 1 of P0, being reset, is listed twice. -/
def funcTwice : State := { State.reset with hub := { State.reset.hub with ports := [(0, { vfEnable := true, funcs := [(1, { flr := true }), (1, { flr := true })] })] } }

/-- Refutes O45 by its clause on the end of an FLR of a virtual function: one of the two is gone, and the function shows the other. -/
theorem not_portFunctions : ¬ Obligations.PortFunctions := by
  rintro ⟨-, -, -, -, -, -, -, -, h, -⟩
  have heval := (h funcTwice { port := 0, func := 1 } (by decide) rfl rfl).eval (f := fun t => !(t.work.func { port := 0, func := 1 }).flr) fun t ht => by
    obtain ⟨hfunc, -⟩ := ht
    rw [hfunc]
    rfl
  exact absurd heval (by decide +kernel)

/-- WRIGHT_OUT of engine 0 with a drain of 1. -/
def drainEngine0 : Nat := pack [(8, 0x42), (248, 0), (8, 0), (8, 0), (16, 1)]

/-- That command while engine 0 runs a recipe; the spilled entry of a wait of its has been read. -/
def drainedReader : State := managerIssues drainEngine0 fun h => { h with
  ten := { h.ten with pools := [(0, { berthCount := 8, wright := 1 })] }
  wrights := [(0, { run := some {} })]
  helm := { h.helm with reading := [{ id := 1, waiter := { party := .wright 0, what := .mark 0 0, berth := 4 }, cause := 0, value := 0, ready := true }] } }

/-- Refutes O48 by its clause on an engine that drains: the wait's outcome reaches the run, which does not stand as it was. -/
theorem not_tenantService : ¬ Obligations.TenantService := by
  rintro ⟨-, -, -, -, -, -, -, -, h, -⟩
  have heval := (h drainedReader managerEntry { index := 3, word := drainEngine0 } 0 {} ⟨by decide +kernel, by decide +kernel, by decide +kernel⟩ (by decide +kernel) (by decide +kernel)
    rfl rfl rfl (by decide +kernel) ⟨rfl, rfl⟩).eval (f := fun t => ((t.work.wright 0).run.getD {}).waitMet == none) fun t ht => by
      obtain ⟨hwright, -⟩ := ht
      rw [hwright]
      rfl
  exact absurd heval (by decide +kernel)

end Sys2Proof.Machine
end

section
/-! PROOFS. The refutation of O36: a reload while a channel is isolated. -/

namespace Sys2Proof.Machine

/-- Block 0 is reloaded from P0's host memory at 0x1000, whose first byte is 5; channel 7 is isolated. -/
def isolatedReload : State := { State.reset with
  mem := { cells := [(hostKey 0 0x10000, 5)] }
  hub := { State.reset.hub with
    ports := [(0, loggedPort)]
    memory := { State.reset.hub.memory with channels := [(7, { isolated := true })], reloads := [{ block := 0, running := true, origin := { origin := 0x10000 } }] } } }

/-- Refutes O36 by its first clause, which does not ask that every channel serves: with a channel isolated the reload fails (R601) and the block is not written. -/
theorem not_reloads : ¬ Obligations.Reloads := by
  rintro ⟨h, -⟩
  have heval := (h isolatedReload 0 { origin := 0x10000 } rfl rfl (by decide +kernel) rfl rfl (by decide) (by decide +kernel) (by decide +kernel)).eval
    (f := fun t => t.mem.byte 0 == 5) fun t ht => by
      obtain ⟨-, hbytes⟩ := ht
      have hbyte : t.mem.byte 0 = 5 := hbytes 0 (by decide)
      rw [hbyte]
      rfl
  exact absurd heval (by decide +kernel)

end Sys2Proof.Machine
end

section
/-! PROOFS. The Purser as SPDM responder (R458-R464): the connection's steps, what is asked of a negotiated connection, sessions. -/

namespace Sys2Proof.Machine

/-! ## Bytes of fixed length -/

theorem leBytes_length (n v : Nat) : (leBytes n v).length = n := by
  induction n generalizing v with
  | zero => rfl
  | succ n ih => simp [leBytes, ih]

theorem digestBytes_length (what : Nat) (l : List Nat) : (digestBytes what l).length = 64 := leBytes_length 64 _

/-- Blocks of one length, one for each member of a list. -/
theorem length_flatMap_blocks {α : Type} {n : Nat} {f : α → List Byte} (hf : ∀ a, (f a).length = n) (l : List α) : (l.flatMap f).length = n * l.length := by
  induction l with
  | nil => rfl
  | cons a l ih => rw [List.flatMap_cons, List.length_append, hf, ih, List.length_cons, Nat.mul_succ, Nat.add_comm]

/-! ## The state of a connection -/

theorem spdmOf_onSpdm (w : Work) (p : Transport) (f : Spdm → Spdm) : (w.onSpdm p f).spdmOf p = f (w.spdmOf p) := by
  cases p with
  | doe k => exact tget_tmod_self _ _ _ _
  | i3c => rfl

/-- A request whose step of the connection has been taken is answered. -/
theorem spdmAfter_ready {w : Work} {p : Transport} {ok : Spdm → Bool} {k : Work → Work} (hup : w.spdmUp p = true) (hok : ok (w.spdmOf p) = true) :
    w.spdmAfter p ok k = k w := by
  simp [Work.spdmAfter, hup, hok]

/-- A request inside an open session is answered. -/
theorem inSession_open {w : Work} {p : Transport} {n : Nat} {k : Work → Work} (hup : w.spdmUp p = true) (hok : (w.spdmOf p).negotiated = true)
    (hin : ((w.spdmOf p).sessions.any fun x => x.1 = n && x.2.1) = true) : w.inSession p n k = k w := by
  rw [Work.inSession, spdmAfter_ready hup hok]
  exact if_pos hin

/-! ## Sessions -/

theorem sessions_finished {l : List (Nat × Bool × Nat)} {n : Nat} (h : (l.any fun x => x.1 = n && !x.2.1) = true) :
    ((l.map fun x => (x.1, x.2.1 || x.1 = n, x.2.2)).any fun x => x.1 = n && x.2.1) = true := by
  obtain ⟨x, hx, hn⟩ := List.any_eq_true.1 h
  exact List.any_eq_true.2 ⟨_, List.mem_map_of_mem hx, by simp_all⟩

theorem sessions_ended (l : List (Nat × Bool × Nat)) (n : Nat) : ((l.filter fun x => x.1 ≠ n).any fun x => x.1 = n) = false := by
  simp

/-! ## What each request runs -/

theorem exec_getVersion (s : State) (p : Transport) : exec (.getVersion p) s = s.run fun w =>
    w.spdmAfter p (fun _ => true) fun w => (w.onSpdm p fun x => { versioned := true, nextSession := x.nextSession }).spdmSend p 0x04 [0x13] := rfl

theorem exec_getCapabilities (s : State) (p : Transport) : exec (.getCapabilities p) s = s.run fun w =>
    w.spdmAfter p (·.versioned) fun w => (w.onSpdm p fun x => { x with capable := true }).spdmSend p 0x61 [0x62D6] := rfl

theorem exec_negotiateAlgorithms (s : State) (p : Transport) : exec (.negotiateAlgorithms p true) s = s.run fun w =>
    w.spdmAfter p (·.capable) fun w => (w.onSpdm p fun x => { x with negotiated := true }).spdmSend p 0x63 [0x0200, 0x0004, 0x0010, 0x0002, 0x0001] := rfl

theorem exec_getDigests (s : State) (p : Transport) : exec (.getDigests p) s = s.run fun w =>
    w.spdmAfter p (·.negotiated) fun w => w.spdmSend p 0x01 [maskOf w.slots] (w.slots.flatMap fun i => digestBytes 34 ((w.chain i).map BitVec.toNat)) := rfl

theorem exec_getCertificate (s : State) (p : Transport) (k a n : Nat) : exec (.getCertificate p k a n) s = s.run fun w =>
    w.spdmAfter p (·.negotiated) fun w =>
      if !w.hasChain k || (w.chain k).length ≤ a then w.spdmError p errInvalidRequest
      else w.spdmSend p 0x02 [k, min n ((w.chain k).length - a), (w.chain k).length - a - min n ((w.chain k).length - a)] (slice (w.chain k) a (min n ((w.chain k).length - a))) := rfl

/-- What CHALLENGE digests: a slot's chain, and the measurements. -/
def Work.challenged (w : Work) (k : Nat) : List Byte :=
  digestBytes 34 ((w.chain k).map BitVec.toNat) ++ digestBytes 42 ((measIndices.flatMap w.measurement).map BitVec.toNat)

theorem challenged_length (w : Work) (k : Nat) : (w.challenged k).length = 128 := by
  rw [Work.challenged, List.length_append, digestBytes_length, digestBytes_length]

theorem exec_challenge (s : State) (p : Transport) (k n : Nat) : exec (.challenge p k n) s = s.run fun w =>
    w.spdmAfter p (·.negotiated) fun w =>
      if !w.hasChain k then w.spdmError p errInvalidRequest
      else w.spdmSend p 0x03 [k, n] (w.challenged k ++ w.signed (leBytes 32 n ++ w.challenged k)) := rfl

/-- The responder's share of a key exchange, signed. -/
def Work.keyShare (w : Work) (r x : Nat) : List Byte := digestBytes 44 [x, r] ++ w.signed (digestBytes 44 [x, r])

theorem exec_keyExchange (s : State) (p : Transport) (x : Nat) : exec (.keyExchange p x) s = s.run fun w =>
    w.spdmAfter p (·.negotiated) fun w =>
      if 2 ≤ (w.spdmOf p).sessions.length then w.spdmError p errSessionLimit
      else (w.fresh.2.onSpdm p fun y => { y with sessions := y.sessions ++ [((w.spdmOf p).nextSession, false, 0)], nextSession := y.nextSession + 1 }).spdmSend p 0x64
        [(w.spdmOf p).nextSession] (w.fresh.2.keyShare w.fresh.1 x) := rfl

theorem exec_finish (s : State) (p : Transport) (n : Nat) (verified : Bool) : exec (.finish p n verified) s = s.run fun w =>
    w.spdmAfter p (·.negotiated) fun w =>
      if !((w.spdmOf p).sessions.any fun (i, ok, _) => i = n && !ok) then w.spdmError p errInvalidSession
      else if verified then (w.onSpdm p fun x => { x with sessions := x.sessions.map fun (i, ok, k) => (i, ok || i = n, k) }).spdmSend p 0x65 [n]
      else (w.onSpdm p fun x => { x with sessions := x.sessions.filter fun (i, _, _) => i ≠ n }).spdmError p errDecrypt := rfl

theorem exec_heartbeat (s : State) (p : Transport) (n : Nat) : exec (.heartbeat p n) s = s.run fun w => w.inSession p n fun w => w.spdmSend p 0x68 [n] := rfl

theorem exec_keyUpdate (s : State) (p : Transport) (n : Nat) : exec (.keyUpdate p n) s = s.run fun w => w.inSession p n fun w =>
    (w.onSpdm p fun x => { x with sessions := x.sessions.map fun (i, ok, k) => (i, ok, if i = n then k + 1 else k) }).spdmSend p 0x69 [n] := rfl

theorem exec_endSession (s : State) (p : Transport) (n : Nat) : exec (.endSession p n) s = s.run fun w => w.inSession p n fun w =>
    (w.onSpdm p fun x => { x with sessions := x.sessions.filter fun (i, _, _) => i ≠ n }).spdmSend p 0x6C [n] := rfl

theorem exec_berthQuote (s : State) (p : Transport) (b n : Nat) : exec (.berthQuote p b n) s = s.run fun w =>
    w.spdmAfter p (·.negotiated) fun w =>
      if 4096 ≤ b then w.spdmError p errInvalidRequest
      else w.spdmSend p 0x7E [0x1F8C, 0x0001] (w.quote b n ++ w.grantList b ++ w.signed (w.quote b n ++ w.grantList b)) := rfl

/-! ## Measurements -/

/-- An index of R459 asks for its own block alone. -/
theorem measIndices_single {i : Nat} (h : i ∈ measIndices) :
    (if i = 0xFF then measIndices else measIndices.filter fun j => j = i) = [i] ∧ i ≠ 0 := by
  have hall : ∀ i ∈ measIndices, (if i = 0xFF then measIndices else measIndices.filter fun j => j = i) = [i] ∧ i ≠ 0 := by decide
  exact hall i h

theorem exec_getMeasurements_single (s : State) (p : Transport) {i : Nat} (n : Nat) (h : i ∈ measIndices) :
    exec (.getMeasurements p i n true) s = s.run fun w => w.spdmAfter p (·.negotiated) fun w =>
      w.spdmSend p 0x60 [1, i] (w.measurement i ++ w.signed (leBytes 32 n ++ w.measurement i)) := by
  obtain ⟨hwant, hzero⟩ := measIndices_single h
  have hx : exec (.getMeasurements p i n true) s = execGetMeasurements p i n true s := rfl
  simp only [hx, execGetMeasurements, hwant]
  simp [hzero]

/-- Settles O50, request by request: its step of the connection taken, each is answered as its equation says. -/
theorem attestation : Obligations.Attestation := by
  unfold Obligations.Attestation
  refine ⟨?version, ?capabilities, ?algorithms, ?digests, ?certificate, ?challenge, ?measurements, ?exchange, ?limit, ?finish, ?unverified, ?heartbeat, ?update, ?endSession, ?quote⟩
  case version =>
    intro s p hup
    refine does_work (exec_getVersion s p) (spdmAfter_ready hup rfl) ?_
    exact ⟨spdmOf_onSpdm _ _ _, rfl, rfl, rfl, rfl⟩
  case capabilities =>
    intro s p hup hv
    refine does_work (exec_getCapabilities s p) (spdmAfter_ready hup hv) ?_
    exact ⟨spdmOf_onSpdm _ _ _, rfl, rfl, rfl, rfl⟩
  case algorithms =>
    intro s p hup hc
    refine does_work (exec_negotiateAlgorithms s p) (spdmAfter_ready hup hc) ?_
    exact ⟨spdmOf_onSpdm _ _ _, rfl, rfl, rfl, rfl⟩
  case digests =>
    intro s p ⟨hup, hn⟩
    refine does_work (exec_getDigests s p) (spdmAfter_ready hup hn) ?_
    refine ⟨⟨_, ⟨rfl, rfl, rfl, rfl⟩, ?_⟩, rfl⟩
    exact length_flatMap_blocks (fun _ => digestBytes_length _ _) _
  case certificate =>
    intro s p k a n ⟨hup, hn⟩ hchain hlen hpos
    have hmin : min n ((s.work.chain k).length - a) = n := by omega
    refine does_work (exec_getCertificate s p k a n) (spdmAfter_ready hup hn) ?_
    have hbad : ¬ (!s.work.hasChain k || decide ((s.work.chain k).length ≤ a)) = true := by simp [hchain]; omega
    simp only [hbad, if_false, hmin]
    exact ⟨⟨rfl, rfl, rfl, rfl⟩, rfl⟩
  case challenge =>
    intro s p k n ⟨hup, hn⟩ hchain
    refine does_work (exec_challenge s p k n) ((spdmAfter_ready hup hn).trans (if_neg (by simp [hchain]))) ?_
    refine ⟨⟨_, ⟨rfl, rfl, rfl, rfl⟩, ?_⟩, rfl⟩
    exact challenged_length _ _
  case measurements =>
    intro s p i n ⟨hup, hn⟩ hi
    refine does_work (exec_getMeasurements_single s p n hi) (spdmAfter_ready hup hn) ?_
    exact ⟨⟨rfl, rfl, rfl, rfl⟩, rfl⟩
  case exchange =>
    intro s p x ⟨hup, hn⟩ hroom
    refine does_work (exec_keyExchange s p x) ((spdmAfter_ready hup hn).trans (if_neg (by omega))) ?_
    refine ⟨?_, ⟨_, rfl⟩, rfl⟩
    exact spdmOf_onSpdm _ _ _
  case limit =>
    intro s p x ⟨hup, hn⟩ hfull
    refine does_work (exec_keyExchange s p x) ((spdmAfter_ready hup hn).trans (if_pos hfull)) ?_
    exact ⟨⟨rfl, rfl, rfl, rfl⟩, rfl⟩
  case finish =>
    intro s p n ⟨hup, hn⟩ hopen
    refine does_work (exec_finish s p n true) ((spdmAfter_ready hup hn).trans ((if_neg (by simp only [hopen]; decide)).trans (if_pos rfl))) ?_
    refine ⟨?_, ?_, rfl, rfl, rfl, rfl⟩
    · exact (congrArg (fun x : Spdm => x.sessions.any fun y => y.1 = n && y.2.1) (spdmOf_onSpdm _ _ _)).trans (sessions_finished hopen)
    · exact (congrArg (fun x : Spdm => x.sessions.length) (spdmOf_onSpdm _ _ _)).trans (List.length_map _)
  case unverified =>
    intro s p n ⟨hup, hn⟩ hopen
    refine does_work (exec_finish s p n false) ((spdmAfter_ready hup hn).trans ((if_neg (by simp only [hopen]; decide)).trans (if_neg Bool.false_ne_true))) ?_
    refine ⟨?_, rfl, rfl, rfl, rfl⟩
    exact (congrArg (fun x : Spdm => x.sessions.any _) (spdmOf_onSpdm _ _ _)).trans (sessions_ended _ n)
  case heartbeat =>
    intro s p n ⟨hup, hn, hin⟩
    refine does_work (exec_heartbeat s p n) (inSession_open hup hn hin) ?_
    exact ⟨⟨rfl, rfl, rfl, rfl⟩, rfl⟩
  case update =>
    intro s p n ⟨hup, hn, hin⟩
    refine does_work (exec_keyUpdate s p n) (inSession_open hup hn hin) ?_
    exact ⟨congrArg Spdm.sessions (spdmOf_onSpdm _ _ _), rfl, rfl, rfl, rfl⟩
  case endSession =>
    intro s p n ⟨hup, hn, hin⟩
    refine does_work (exec_endSession s p n) (inSession_open hup hn hin) ?_
    refine ⟨?_, rfl, rfl, rfl, rfl⟩
    exact (congrArg (fun x : Spdm => x.sessions.any _) (spdmOf_onSpdm _ _ _)).trans (sessions_ended _ n)
  case quote =>
    intro s p b n ⟨hup, hn⟩ hb
    refine does_work (exec_berthQuote s p b n) ((spdmAfter_ready hup hn).trans (if_neg (by omega))) ?_
    exact ⟨⟨rfl, rfl, rfl, rfl⟩, rfl⟩

end Sys2Proof.Machine
end

section
/-! PROOFS. Commands of ring entries: what a command does to its work once the entry waits for it, and what its completion leaves. -/

namespace Sys2Proof.Machine

/-- A tenant's entry that waits for its command is marked as running and its body begins (R408). -/
theorem command_begins {s : State} {e : EntryRef} {x : RingEntry} {op : Nat} (h : s.Issued e x op)
    (hhelm : op < 0x14 ∨ 0x16 < op ∨ s.work.helmPaused = false) (k : Nat → Work → Work) : s.work.command e op false k = k x.word (s.work.markRunning e) := by
  obtain ⟨hs, hp, hop, hx, -, -, hpause⟩ := h
  have hh : (decide (0x14 ≤ op) && decide (op ≤ 0x16) && s.work.helmPaused) = false := by
    rcases hhelm with hlo | hhi | hfree
    · simp [Nat.not_le.2 hlo]
    · simp [Nat.not_le.2 hhi]
    · simp [hfree]
  simp [Work.command, hs, hp, hop, hx, hpause, hh]

/-- An entry runs on a work, and its function is there as in the state: its port's link, and whether it may issue. -/
structure Work.Answers (v : Work) (s : State) (e : EntryRef) : Prop where
  ring : v.ring e.berth e.ring = (s.work.markRunning e).ring e.berth e.ring
  func : v.funcOf e.berth = s.work.funcOf e.berth
  up : ∀ p, v.portUp p = s.work.portUp p
  issues : ∀ f, v.mayIssue f = s.work.mayIssue f

theorem Work.Runs.answers {v : Work} {s : State} {e : EntryRef} (h : v.Runs s e) : v.Answers s e := ⟨h.ring, h.func, h.portUp, h.mayIssue⟩

theorem markRunning_answers (s : State) (e : EntryRef) : (s.work.markRunning e).Answers s e := (markRunning_runs s e).answers

theorem Work.Answers.frame {v v' : Work} {s : State} {e : EntryRef} (h : v.Answers s e) (ht : v'.hub.ten = v.hub.ten) (hup : ∀ p, v'.portUp p = v.portUp p)
    (hissue : ∀ f, v'.mayIssue f = v.mayIssue f) : v'.Answers s e := by
  obtain ⟨hring, hfunc, hups, hissues⟩ := h
  refine ⟨?_, ?_, fun p => (hup p).trans (hups p), fun f => (hissue f).trans (hissues f)⟩
  · unfold Work.ring at hring ⊢
    rw [ht, hring]
  · unfold Work.funcOf Work.bindOf Work.mgr Work.berth at hfunc ⊢
    rw [ht, hfunc]

/-- The state with the ports of a work: where the entry runs as `Work.Runs` says. -/
def State.withPorts (s : State) (v : Work) : State := { s with hub := { s.hub with ports := v.hub.ports } }

theorem Work.Answers.runs {v : Work} {s : State} {e : EntryRef} (h : v.Answers s e) : v.Runs (s.withPorts v) e := ⟨h.ring, h.func, rfl⟩

theorem sent_hostWrite (w : Work) (f : FuncRef) (a : Nat) (d : List Byte) : w.hub.sent ⊆ (w.hostWrite f a d).hub.sent := by
  unfold Work.hostWrite
  split
  · exact List.Subset.refl _
  · split
    · have hpoke : (w.poke (hostKey f.port a) d).hub.sent = w.hub.sent := by
        unfold Work.poke
        split <;> rfl
      exact fun o ho => List.mem_cons_of_mem _ (hpoke ▸ ho)
    · exact List.Subset.refl _

/-- A running entry that completes: it has left its ring with its record written, rings and what reports change have changed, nothing is unsent. -/
theorem Work.Answers.completes {v : Work} {s : State} {e : EntryRef} {x : RingEntry} {op : Nat} (h : v.Answers s e) (hi : s.Issued e x op) (st d r : Nat) :
    s.Completes (s.commit (v.complete e st d r)) e x st d r ∧ RingsOnly v (v.complete e st d r) ∧ v.hub.sent ⊆ (v.complete e st d r).hub.sent := by
  have hi' : (s.withPorts v).Issued e x op := hi
  obtain ⟨hgone, hrecord⟩ := h.runs.completes hi' st d r
  refine ⟨⟨hgone, fun hp hm => hrecord ((h.up _).trans hp) ((h.issues _).trans hm)⟩, h.runs.complete_ringsOnly hi' st d r, ?_⟩
  rw [h.runs.complete_eq hi']
  exact fun o ho => sent_count _ _ _ _ _ (sent_hostWrite _ _ _ _ ho)

/-- A command whose effect is to complete a running entry: the entry completes, and besides rings and what reports change the hub is as the entry's work left it. -/
theorem Work.Answers.does_complete {c : Instr} {s : State} {f : Work → Work} {v : Work} {e : EntryRef} {x : RingEntry} {op st d r : Nat} (h : v.Answers s e)
    (hi : s.Issued e x op) (hexec : exec c s = s.run f) (hf : f s.work = v.complete e st d r) :
    Does c s fun t => s.Completes t e x st d r ∧ RingsOnly v t.work ∧ t.pending = s.pending ∧ v.hub.sent ⊆ t.hub.sent := by
  obtain ⟨hdone, hrings, hsent⟩ := h.completes hi st d r
  exact does_work hexec hf ⟨hdone, hrings, rfl, hsent⟩

/-- A consequence of what a command does. -/
theorem Does.imp {c : Instr} {s : State} {P Q : State → Prop} (h : Does c s P) (hpq : ∀ t, P t → Q t) : Does c s Q := by
  obtain ⟨t, hx, hp⟩ := h
  exact ⟨t, hx, hpq t hp⟩

/-- What a command has changed once its entry completes: what its work changed, rings, and what reports change. -/
theorem within_rings {s t : State} {v : Work} {f : Hub → Hub} (h : RingsOnly v t.work) (hp : t.pending = s.pending)
    (hf : quietHub { v.hub with ten := t.hub.ten } = quietHub (f s.hub)) : Within s t f :=
  ⟨hp, (congrArg (fun q : Hub => { q with ten := t.hub.ten }) h).trans hf⟩

theorem RingsOnly.helm {w w' : Work} (h : RingsOnly w w') : w'.hub.helm = w.hub.helm := by have e := congrArg Hub.helm h; exact e
theorem RingsOnly.bwr {w w' : Work} (h : RingsOnly w w') : w'.hub.bwr = w.hub.bwr := by have e := congrArg Hub.bwr h; exact e
theorem RingsOnly.packs {w w' : Work} (h : RingsOnly w w') : w'.hub.packs = w.hub.packs := by have e := congrArg Hub.packs h; exact e
theorem RingsOnly.recipes {w w' : Work} (h : RingsOnly w w') : w'.hub.recipes = w.hub.recipes := by have e := congrArg Hub.recipes h; exact e
theorem RingsOnly.tables {w w' : Work} (h : RingsOnly w w') : w'.hub.tables = w.hub.tables := by have e := congrArg Hub.tables h; exact e
theorem RingsOnly.chart {w w' : Work} (h : RingsOnly w w') : w'.hub.chart = w.hub.chart := by have e := congrArg Hub.chart h; exact e

end Sys2Proof.Machine
end

section
/-! PROOFS. The commands of the Helm (08) where no waiter stands: configurations, bindings, status, the timeout of a gate. -/

namespace Sys2Proof.Machine

/-! ## The Helm without waiters -/

/-- The Helm's record put back as it was. -/
theorem onHelm_same (w : Work) {f : HelmState → HelmState} (h : f w.hub.helm = w.hub.helm) : w.onHelm f = w := by
  unfold Work.onHelm Work.onHub
  dsimp only
  rw [h]

theorem takeWaiters_none {w : Work} (h : w.hub.helm.waiters = []) (pick : Waiter → Bool) : w.takeWaiters pick = ([], w) := by
  unfold Work.takeWaiters
  rw [onHelm_same w (by rw [h, List.filter_nil, ← h]), h]
  rfl

theorem serveMark_idle {w : Work} (h : w.hub.helm.waiters = []) (m : Nat) : w.serveMark m = w := by
  simp only [Work.serveMark, takeWaiters_none h, each_nil]

/-! ## Marks -/

/-- A mark below the thresholds of its outbound bindings owes nothing (R260). -/
theorem markPulses_below {w : Work} {m : Nat} (h : ∀ k ∈ w.bindingsOf 2 m, (w.mark m).value < (tget {} w.hub.helm.bindings k).threshold) : w.markPulses m = w :=
  each_fixed _ _ _ fun k hk => if_pos (h k hk)

/-- Pulses that the count of a binding has room for are owed. -/
theorem owe_within {w : Work} {k n : Nat} {b : Binding} (hb : tfind w.hub.helm.bindings k = some b) (hn : n ≠ 0) (hroom : b.owed + n ≤ 0xFFFF) :
    w.owe k n = w.onHelm fun h => { h with bindings := tset h.bindings k { b with owed := b.owed + n } } := by
  have hget : tget {} w.hub.helm.bindings k = b := by rw [tget_eq_tfind, hb]; rfl
  have hover : ¬ 0xFFFF < b.owed + n := by omega
  simp only [Work.owe, hget, hn, if_false, hover, decide_false, Bool.or_false, Nat.min_eq_right hroom, Bool.false_eq_true]

/-- A mark that has reached the threshold of its one outbound binding owes a pulse for each step (R260). -/
theorem markPulses_steps {w : Work} {m k n : Nat} {b : Binding} (hone : w.bindingsOf 2 m = [k]) (hb : tfind w.hub.helm.bindings k = some b)
    (hreach : b.threshold ≤ (w.mark m).value) (hstep : b.step ≠ 0) (hn : n = ((w.mark m).value - b.threshold) / b.step + 1) (hroom : b.owed + n ≤ 0xFFFF) :
    ∃ l, w.markPulses m = w.onHelm (fun h => { h with bindings := l }) ∧ tfind l k = some { b with owed := b.owed + n, threshold := b.threshold + n * b.step } := by
  have hget : tget {} w.hub.helm.bindings k = b := by rw [tget_eq_tfind, hb]; rfl
  have hnot : ¬ (w.mark m).value < b.threshold := by omega
  simp only [Work.markPulses, hone, each_cons, each_nil, hget, hnot, if_false, hstep, ← hn]
  rw [owe_within hb (hn ▸ Nat.succ_ne_zero _) hroom]
  refine ⟨_, rfl, ?_⟩
  simp [tmod]

/-- A mark's new value where nothing waits (R247). -/
theorem markConfig_idle {w : Work} (h : w.hub.helm.waiters = []) (m v : Nat) (clear : Bool) :
    w.markConfig m v clear = (w.onMark m fun x => { value := v, sat := x.sat && !clear }).markPulses m := by
  unfold Work.markConfig
  dsimp only
  have hidle : (w.onMark m fun x => { value := v, sat := x.sat && !clear }).hub.helm.waiters = [] := h
  rw [serveMark_idle hidle, ite_self]

/-! ## Gates and semaphores -/

/-- A gate whose generation nobody has joined takes its configuration without a break (R247, R253). -/
theorem gateConfig_closed {w : Work} {g : Nat} (hc : (w.gate g).count = 0) (hn : (w.gate g).next = 0) (r : Nat) :
    w.gateConfig g r = w.onGate g fun x =>
      { lastWait := x.lastWait, waitSum := x.waitSum, releases := x.releases, peerSlowed := x.peerSlowed, slowedHub := x.slowedHub,
        parties := bits r 70 64, upEn := bit r 71, upHub := bits r 83 72, upGate := bits r 93 84, acceptRemote := bit r 94, timeout := bits r 111 96 } := by
  simp [Work.gateConfig, hc, hn]

/-- A semaphore takes its configuration where nothing waits (R254). -/
theorem semConfig_idle {w : Work} (h : w.hub.helm.waiters = []) (o c top : Nat) :
    w.semConfig o c top = w.onSem o fun _ => { count := if top = 0 then 0 else c, max := top } := by
  unfold Work.semConfig
  have hidle : (w.onSem o fun _ => { count := if top = 0 then 0 else c, max := top }).hub.helm.waiters = [] := h
  simp only [takeWaiters_none hidle, each_nil, hidle, List.length_nil]
  rfl

theorem gate_onGate_ne (w : Work) {g j : Nat} (f : HGate → HGate) (h : j ≠ g) : (w.onGate g f).gate j = w.gate j := tget_tmod_ne _ _ _ h
theorem mark_onMark_ne (w : Work) {m j : Nat} (f : Mark → Mark) (h : j ≠ m) : (w.onMark m f).mark j = w.mark j := tget_tmod_ne _ _ _ h
theorem sem_onSem_ne (w : Work) {k j : Nat} (f : Sem → Sem) (h : j ≠ k) : (w.onSem k f).sem j = w.sem j := tget_tmod_ne _ _ _ h

/-! ## HELM_CONFIG -/

/-- HELM_CONFIG of a record, on the work where its entry runs (R247). -/
def Work.helmConfigAt (w : Work) (e : EntryRef) (r : Nat) : Work :=
  let kind := bits r 1 0
  let o := bits r 19 4
  let b := bits r 33 20
  if helmObjects kind ≤ o || (kind = 1 && (w.hubBeyond (bits r 83 72) || (bit r 71 && bits r 70 64 = 0))) then w.complete e stBadIdent
  else if b ≠ e.berth then w.complete e stNotOwner
  else if kind < 3 && w.holder (helmKind kind) o ≠ some b then (w.helmError b o 2).complete e stHelmError 2
  else if kind = 3 || (kind = 1 && 64 < bits r 70 64) || (kind = 2 && bits r 95 80 ≠ 0 && bits r 95 80 < bits r 79 64) then w.complete e stBadShape
  else
    let w := match kind with
      | 0 => w.markConfig o (bits r 95 64) (bit r 96)
      | 1 => w.gateConfig o r
      | _ => w.semConfig o (bits r 79 64) (bits r 95 80)
    w.complete e stOk

theorem exec_helmConfig (e : EntryRef) (s : State) : exec (.helmConfig e) s = s.run fun w => w.command e 0x14 false fun x w => w.helmConfigAt e (bits x 255 128) := rfl

section
variable {w : Work} {e : EntryRef} {r : Nat} (hb : bits r 33 20 = e.berth)
include hb

theorem helmConfigAt_mark (hk : bits r 1 0 = 0) (ho : bits r 19 4 < 4096) (hh : w.holder 2 (bits r 19 4) = some e.berth) :
    w.helmConfigAt e r = (w.markConfig (bits r 19 4) (bits r 95 64) (bit r 96)).complete e stOk := by
  have hlt : ¬ 4096 ≤ bits r 19 4 := by omega
  simp [Work.helmConfigAt, hk, hb, hh, hlt, helmObjects, helmKind]

theorem helmConfigAt_gate (hk : bits r 1 0 = 1) (ho : bits r 19 4 < 1024) (hh : w.holder 3 (bits r 19 4) = some e.berth)
    (hhub : w.hubBeyond (bits r 83 72) = false) (hup : bit r 71 = true → bits r 70 64 ≠ 0) (hp : bits r 70 64 ≤ 64) :
    w.helmConfigAt e r = (w.gateConfig (bits r 19 4) r).complete e stOk := by
  have hlt : ¬ 1024 ≤ bits r 19 4 := by omega
  have hparties : ¬ 64 < bits r 70 64 := by omega
  simp [Work.helmConfigAt, hk, hb, hh, hlt, hhub, hparties, helmObjects, helmKind]
  exact fun h1 h2 => absurd h2 (hup h1)

theorem helmConfigAt_sem (hk : bits r 1 0 = 2) (ho : bits r 19 4 < 512) (hh : w.holder 4 (bits r 19 4) = some e.berth) (hc : bits r 79 64 ≤ bits r 95 80) :
    w.helmConfigAt e r = (w.semConfig (bits r 19 4) (bits r 79 64) (bits r 95 80)).complete e stOk := by
  have hlt : ¬ 512 ≤ bits r 19 4 := by omega
  have hcount : ¬ bits r 95 80 < bits r 79 64 := by omega
  simp [Work.helmConfigAt, hk, hb, hh, hlt, hcount, helmObjects, helmKind]

end

/-! ## HELM_BIND -/

/-- The place of a binding: its site, direction and wire. -/
def bindPlace (r : Nat) : Nat := bits r 4 0 * 64 + bits r 5 5 * 32 + bits r 10 6

/-- The binding that a record asks for. -/
def bindingOf (r b : Nat) : Binding := { action := bits r 13 11, object := bits r 31 16, berth := b, threshold := bits r 95 64, step := bits r 111 96 }

/-- HELM_BIND of a record, on the work where its entry runs (R259). -/
def Work.helmBindAt (w : Work) (e : EntryRef) (r : Nat) : Work :=
  let kind := bindKind (bits r 5 5) (bits r 13 11)
  let o := bits r 31 16
  let b := bits r 45 32
  let inRange : Bool := match kind with | some k => o < helmObjects (k - 2) | none => true
  let held : Bool := match kind with | some k => w.holder k o = some b | none => true
  if 16 ≤ bits r 4 0 || !bit w.hub.board.sites (bits r 4 0) || !inRange then w.complete e stBadIdent
  else if b ≠ e.berth || !w.siteHeld (bits r 4 0) b then w.complete e stNotOwner
  else if !held then (w.helmError b o 2).complete e stHelmError 2
  else if kind.isNone && bits r 13 11 ≠ 0 then w.complete e stBadShape
  else
    (w.onHelm fun h => { h with bindings := if bits r 13 11 = 0 then tdel h.bindings (bindPlace r) else tset h.bindings (bindPlace r) (bindingOf r b) }).complete e stOk

theorem exec_helmBind (e : EntryRef) (s : State) : exec (.helmBind e) s = s.run fun w => w.command e 0x15 false fun x w => w.helmBindAt e (bits x 255 128) := rfl

section
variable {w : Work} {e : EntryRef} {r : Nat} (hs : bits r 4 0 < 16) (hon : bit w.hub.board.sites (bits r 4 0) = true)
  (hheld : w.siteHeld (bits r 4 0) e.berth = true) (hb : bits r 45 32 = e.berth)
include hs hon hheld hb

theorem helmBindAt_binds {k : Nat} (hk : bindKind (bits r 5 5) (bits r 13 11) = some k) (ho : bits r 31 16 < helmObjects (k - 2))
    (hh : w.holder k (bits r 31 16) = some e.berth) (ha : bits r 13 11 ≠ 0) :
    w.helmBindAt e r = (w.onHelm fun h => { h with bindings := tset h.bindings (bindPlace r) (bindingOf r e.berth) }).complete e stOk := by
  have hlt : ¬ 16 ≤ bits r 4 0 := by omega
  simp [Work.helmBindAt, hlt, hon, hheld, hb, hk, ho, hh, ha]

theorem helmBindAt_unbinds (ha : bits r 13 11 = 0) :
    w.helmBindAt e r = (w.onHelm fun h => { h with bindings := tdel h.bindings (bindPlace r) }).complete e stOk := by
  have hlt : ¬ 16 ≤ bits r 4 0 := by omega
  have hk : bindKind (bits r 5 5) 0 = none := by
    unfold bindKind
    split <;> rfl
  simp [Work.helmBindAt, hlt, hon, hheld, hb, ha, hk]

end

/-! ## HELM_READ -/

theorem exec_helmRead (e : EntryRef) (s : State) : exec (.helmRead e) s = s.run fun w => w.command e 0x16 false fun x w =>
    if bits x 257 256 = 3 then w.complete e stBadShape
    else if w.holder (helmKind (bits x 257 256)) (bits x 275 260) ≠ some e.berth then (w.helmError e.berth (bits x 275 260) 2).complete e stHelmError 2
    else (w.hostWrite (w.funcOf e.berth) (bits x 191 128) (w.helmStatus (bits x 257 256) (bits x 275 260))).complete e stOk 0
      (if bits x 257 256 = 0 then (w.mark (bits x 275 260)).value else 0) := rfl

/-! ## Functions of the ports -/

theorem func_onFunc_ne (w : Work) {f h : FuncRef} (g : Func → Func) (hne : h ≠ f) : (w.onFunc f g).func h = w.func h := by
  unfold Work.func Work.onFunc
  by_cases hp : h.port = f.port
  · have hf : h.func ≠ f.func := fun hf => hne (by cases h; cases f; simp_all)
    rw [hp, port_onPort]
    exact tget_tmod_ne _ _ _ hf
  · rw [port_onPort_ne _ _ hp]

theorem portUp_onPort (w : Work) (p : Nat) (f : Port → Port) (hf : (f (w.port p)).state = (w.port p).state) (q : Nat) : (w.onPort p f).portUp q = w.portUp q := by
  unfold Work.portUp
  by_cases hq : q = p
  · rw [hq, port_onPort, hf]
  · rw [port_onPort_ne _ _ hq]

/-- A write or a vector that a function owes does not change whether it may issue. -/
theorem mayIssue_onFunc (w : Work) (f : FuncRef) (g : Func → Func) (hg : ∀ x, ((g x).bme, (g x).d3hot, (g x).flr, (g x).tdi) = (x.bme, x.d3hot, x.flr, x.tdi)) (h : FuncRef) :
    (w.onFunc f g).mayIssue h = w.mayIssue h := by
  unfold Work.mayIssue
  by_cases hh : h = f
  · have hx := hg (w.func f)
    simp only [Prod.mk.injEq] at hx
    obtain ⟨hbme, hd3, hflr, htdi⟩ := hx
    simp only [hh, func_onFunc, hbme, hd3, hflr, htdi]
  · rw [func_onFunc_ne _ _ hh]

theorem portUp_of_ports {w w' : Work} (h : w'.hub.ports = w.hub.ports) (p : Nat) : w'.portUp p = w.portUp p := by unfold Work.portUp Work.port; rw [h]
theorem mayIssue_of_ports {w w' : Work} (h : w'.hub.ports = w.hub.ports) (f : FuncRef) : w'.mayIssue f = w.mayIssue f := by unfold Work.mayIssue Work.func Work.port; rw [h]

theorem poke_ports (w : Work) (a : Nat) (d : List Byte) : (w.poke a d).hub.ports = w.hub.ports := by
  unfold Work.poke
  split <;> rfl

/-- A host write leaves every port's link, and whether a function may issue, as they were. -/
theorem Work.Answers.hostWrite {v : Work} {s : State} {e : EntryRef} (h : v.Answers s e) (f : FuncRef) (a : Nat) (d : List Byte) : (v.hostWrite f a d).Answers s e := by
  have hten := (hostWrite_reports v f a d).ten
  unfold Work.hostWrite at hten ⊢
  split
  · exact h
  · split
    · exact h.frame (by simp) (portUp_of_ports (poke_ports v _ _)) (mayIssue_of_ports (poke_ports v _ _))
    · exact h.frame rfl (portUp_onPort v _ _ rfl) (mayIssue_onFunc v f _ fun _ => rfl)

/-- A change of the Helm alone leaves an entry running. -/
theorem Work.Answers.onHelm {v : Work} {s : State} {e : EntryRef} (h : v.Answers s e) (f : HelmState → HelmState) : (v.onHelm f).Answers s e :=
  h.frame rfl (fun _ => rfl) fun _ => rfl

/-! ## The timeout of a gate -/

/-- A hub without the fabric between hubs. -/
def offHawser (h : Hub) : Hub := { h with hawser := {} }

theorem hwsDrain_same (k n : Nat) (w : Work) : Same offHawser w (w.hwsDrain k n) := by
  induction n generalizing w with
  | zero => exact .refl _ w
  | succ n ih =>
    unfold Work.hwsDrain
    dsimp only
    split
    · split
      · exact .refl _ w
      · refine Same.trans ?_ (ih _)
        refine Same.trans (b := w.onHPort k _) rfl (Reports.same ((emit_reports _ _).trans (count_reports _ _ _ _ _)) _)
    · exact .refl _ w

/-- An item sent to another hub leaves every block but the fabric between hubs, and what reports change. -/
theorem hwsItem_same (w : Work) (k : Nat) (o : Out) : Same offHawser w (w.hwsItem k o) := Same.trans (b := w.onHPort k _) rfl (hwsDrain_same k _ _)

theorem helmSend_same (w : Work) (kind : Nat) (m : HelmMsg) : Same offHawser w (w.helmSend kind m) := by
  unfold Work.helmSend
  split
  · exact hwsItem_same w _ _
  · exact .refl _ w

theorem Same.helm_offHawser {w w' : Work} (h : Same offHawser w w') : w'.hub.helm = w.hub.helm := by have e := congrArg Hub.helm h; exact e

theorem helmError_reports (w : Work) (b o c : Nat) : Reports w (w.helmError b o c) := (log_reports w _).trans (count_reports _ _ _ _ _)

/-- The record of a gate reads from the Helm alone. -/
theorem gate_of_helm {w w' : Work} (h : w'.hub.helm = w.hub.helm) (g : Nat) : w'.gate g = w.gate g := by unfold Work.gate; rw [h]

/-- A gate breaks where nothing waits: its record shows the cause, whoever else hears of it (R253, R265). -/
theorem gateBreak_idle {w : Work} {g c : Nat} (hp : (w.gate g).parties ≠ 0) (hb : (w.gate g).broken = false) (h : w.hub.helm.waiters = []) :
    (w.gateBreak g c).gate g = { w.gate g with broken := true, cause := c } := by
  have htell (v : Work) (l : List (Nat × Nat)) (m : Nat × Nat → HelmMsg) : (each l (fun x v => v.helmSend 2 (m x)) v).gate g = v.gate g :=
    each_same (fun v : Work => v.gate g) l _ v fun x v => gate_of_helm (helmSend_same v _ _).helm_offHawser g
  have hbroken (b : Nat) : ((w.helmError b g c).onGate g fun x => { x with broken := true, cause := c }).gate g = { w.gate g with broken := true, cause := c } := by
    rw [gate_onGate, gate_of_helm (helmError_reports w b g c).helm]
  unfold Work.gateBreak
  simp only [hp, if_false, hb, Bool.false_eq_true, takeWaiters_none h, each_nil]
  refine (htell _ _ fun x => _).trans ?_
  split
  · rw [gate_of_helm (helmSend_same _ _ _).helm_offHawser]
    exact hbroken _
  · exact hbroken _

theorem exec_gateTimeout (g : Nat) (s : State) : exec (.gateTimeout g) s = s.run fun w =>
    if (w.gate g).timeout ≠ 0 && (w.gate g).firstAt.isSome && !(w.gate g).broken then w.gateBreak g 6 else w := rfl

/-! ## The obligation -/

/-- A command whose effect is a change of the Helm: it completes, and the Helm alone has changed besides rings. -/
theorem does_onHelm {c : Instr} {s : State} {e : EntryRef} {x : RingEntry} {op : Nat} {F : Work → Work} {f : HelmState → HelmState} (hi : s.Issued e x op)
    (hexec : exec c s = s.run F) (hF : F s.work = ((s.work.markRunning e).onHelm f).complete e stOk) :
    Does c s fun t => t.hub.helm = f s.hub.helm ∧ s.Completes t e x 0 0 0 ∧ Within s t (fun h => { h with helm := t.hub.helm, ten := t.hub.ten }) := by
  refine (((markRunning_answers s e).onHelm f).does_complete hi hexec hF).imp fun t ⟨hdone, hrings, hqueue, _⟩ => ?_
  have hhelm : t.hub.helm = f s.hub.helm := hrings.helm
  refine ⟨hhelm, hdone, within_rings hrings hqueue ?_⟩
  rw [hhelm]
  rfl

theorem helmConfig_begins {s : State} {e : EntryRef} {x : RingEntry} (hi : s.Issued e x 0x14) (hfree : s.work.helmPaused = false) :
    (s.work.command e 0x14 false fun x w => w.helmConfigAt e (bits x 255 128)) = (s.work.markRunning e).helmConfigAt e (bits x.word 255 128) :=
  command_begins hi (.inr (.inr hfree)) _

theorem helmBind_begins {s : State} {e : EntryRef} {x : RingEntry} (hi : s.Issued e x 0x15) (hfree : s.work.helmPaused = false) :
    (s.work.command e 0x15 false fun x w => w.helmBindAt e (bits x 255 128)) = (s.work.markRunning e).helmBindAt e (bits x.word 255 128) :=
  command_begins hi (.inr (.inr hfree)) _

/-- HELM_READ of a mark that the entry's berth holds writes its status record and completes with its value (R268, R412). -/
theorem helmRead_mark {s : State} {e : EntryRef} {x : RingEntry} (hi : s.Issued e x 0x16) (hfree : s.work.helmPaused = false) (hk : bits x.word 257 256 = 0)
    (hh : s.work.holder 2 (bits x.word 275 260) = some e.berth) :
    exec (.helmRead e) s = s.run fun w => ((s.work.markRunning e).hostWrite (s.work.funcOf e.berth) (bits x.word 191 128)
      (leBytes 32 (pack [(32, (s.work.mark (bits x.word 275 260)).value), (1, b2n (s.work.mark (bits x.word 275 260)).sat)]))).complete e stOk 0
        (s.work.mark (bits x.word 275 260)).value := by
  have hbody := command_begins hi (.inr (.inr hfree)) fun x w =>
    if bits x 257 256 = 3 then w.complete e stBadShape
    else if w.holder (helmKind (bits x 257 256)) (bits x 275 260) ≠ some e.berth then (w.helmError e.berth (bits x 275 260) 2).complete e stHelmError 2
    else (w.hostWrite (w.funcOf e.berth) (bits x 191 128) (w.helmStatus (bits x 257 256) (bits x 275 260))).complete e stOk 0
      (if bits x 257 256 = 0 then (w.mark (bits x 275 260)).value else 0)
  have hholder : (s.work.markRunning e).holder (helmKind 0) (bits x.word 275 260) = some e.berth := hh
  rw [exec_helmRead]
  refine congrArg (fun v : Work => Host.Outcome.next (s.commit v)) (hbody.trans ?_)
  have hthree : ¬ (0 : Nat) = 3 := by decide
  simp only [hk, hholder, ne_eq, not_true_eq_false, hthree, if_false, if_true]
  rfl

/-- The change of the Helm's record that a configuration of a mark makes. -/
def helmMark (r : Nat) (h : HelmState) : HelmState :=
  { h with marks := tmod {} h.marks (bits r 19 4) fun y => { value := bits r 95 64, sat := y.sat && !bit r 96 } }

theorem helmMark_eq (w : Work) (r : Nat) : (w.onMark (bits r 19 4) fun y => { value := bits r 95 64, sat := y.sat && !bit r 96 }) = w.onHelm (helmMark r) := rfl

theorem helmMark_mark (w : Work) (r : Nat) : (w.onHelm (helmMark r)).mark (bits r 19 4) = { value := bits r 95 64, sat := (w.mark (bits r 19 4)).sat && !bit r 96 } :=
  mark_onMark _ _ _

/-- The changes of the Helm's record that configurations of a gate and of a semaphore make. -/
def helmGate (r : Nat) (h : HelmState) : HelmState :=
  { h with gates := tmod {} h.gates (bits r 19 4) fun x =>
      { lastWait := x.lastWait, waitSum := x.waitSum, releases := x.releases, peerSlowed := x.peerSlowed, slowedHub := x.slowedHub,
        parties := bits r 70 64, upEn := bit r 71, upHub := bits r 83 72, upGate := bits r 93 84, acceptRemote := bit r 94, timeout := bits r 111 96 } }
def helmSem (r : Nat) (h : HelmState) : HelmState := { h with sems := tmod {} h.sems (bits r 19 4) fun _ => { count := bits r 79 64, max := bits r 95 80 } }

theorem helmMark_marks_ne (r : Nat) (h : HelmState) {m : Nat} (hm : m ≠ bits r 19 4) : tget ({} : Mark) (helmMark r h).marks m = tget {} h.marks m := by
  simp [helmMark, tget_tmod_ne _ _ _ hm]

theorem helmGate_gates_ne (r : Nat) (h : HelmState) {g : Nat} (hg : g ≠ bits r 19 4) : tget ({} : HGate) (helmGate r h).gates g = tget {} h.gates g := by
  simp [helmGate, tget_tmod_ne _ _ _ hg]

theorem helmSem_sems_ne (r : Nat) (h : HelmState) {k : Nat} (hk : k ≠ bits r 19 4) : tget ({} : Sem) (helmSem r h).sems k = tget {} h.sems k := by
  simp [helmSem, tget_tmod_ne _ _ _ hk]

theorem helmSem_sems (r : Nat) (h : HelmState) : tget ({} : Sem) (helmSem r h).sems (bits r 19 4) = { count := bits r 79 64, max := bits r 95 80 } := by
  simp [helmSem]

theorem helmGate_gates (r : Nat) (h : HelmState) : ∃ x : HGate, tget ({} : HGate) (helmGate r h).gates (bits r 19 4) =
    { lastWait := x.lastWait, waitSum := x.waitSum, releases := x.releases, peerSlowed := x.peerSlowed, slowedHub := x.slowedHub,
      parties := bits r 70 64, upEn := bit r 71, upHub := bits r 83 72, upGate := bits r 93 84, acceptRemote := bit r 94, timeout := bits r 111 96 } := by
  refine ⟨tget {} h.gates (bits r 19 4), ?_⟩
  simp [helmGate]

theorem helmMark_marks (r : Nat) (h : HelmState) :
    tget ({} : Mark) (helmMark r h).marks (bits r 19 4) = { value := bits r 95 64, sat := (tget ({} : Mark) h.marks (bits r 19 4)).sat && !bit r 96 } := by
  simp [helmMark]

section
variable {s : State} {e : EntryRef} {x : RingEntry} {r : Nat} (hi : s.Issued e x 0x14) (hfree : s.work.helmPaused = false) (hr : r = bits x.word 255 128)
  (hb : bits r 33 20 = e.berth)
include hi hfree hr hb

/-- HELM_CONFIG of a mark, its outbound bindings not reached. -/
theorem helmConfig_sets_mark (hk : bits r 1 0 = 0) (ho : bits r 19 4 < 4096) (hh : s.work.holder 2 (bits r 19 4) = some e.berth) (hw : s.hub.helm.waiters = [])
    (hbelow : ∀ k ∈ s.work.bindingsOf 2 (bits r 19 4), bits r 95 64 < (tget {} s.hub.helm.bindings k).threshold) :
    Does (.helmConfig e) s fun t => t.hub.helm = helmMark r s.hub.helm ∧ s.Completes t e x 0 0 0 ∧ Within s t (fun h => { h with helm := t.hub.helm, ten := t.hub.ten }) := by
  have hpulse : ((s.work.markRunning e).onHelm (helmMark r)).markPulses (bits r 19 4) = (s.work.markRunning e).onHelm (helmMark r) :=
    markPulses_below fun k hk => by rw [helmMark_mark]; exact hbelow k hk
  have hconfig := (markConfig_idle (w := s.work.markRunning e) hw (bits r 19 4) (bits r 95 64) (bit r 96)).trans hpulse
  refine does_onHelm hi (exec_helmConfig e s) ((helmConfig_begins hi hfree).trans ?_)
  rw [← hr, helmConfigAt_mark (w := s.work.markRunning e) hb hk ho hh, hconfig]

/-- HELM_CONFIG of a mark that reaches the threshold of its one outbound binding. -/
theorem helmConfig_owes_pulses {k n : Nat} {b : Binding} (hk : bits r 1 0 = 0) (ho : bits r 19 4 < 4096) (hh : s.work.holder 2 (bits r 19 4) = some e.berth) (hw : s.hub.helm.waiters = [])
    (hone : s.work.bindingsOf 2 (bits r 19 4) = [k]) (hbind : tfind s.hub.helm.bindings k = some b) (hreach : b.threshold ≤ bits r 95 64) (hstep : b.step ≠ 0)
    (hn : n = (bits r 95 64 - b.threshold) / b.step + 1) (hroom : b.owed + n ≤ 0xFFFF) : Does (.helmConfig e) s fun t =>
      tfind t.hub.helm.bindings k = some { b with owed := b.owed + n, threshold := b.threshold + n * b.step } ∧ s.Completes t e x 0 0 0 := by
  obtain ⟨l, hpulse, hfind⟩ := markPulses_steps (w := (s.work.markRunning e).onHelm (helmMark r)) (m := bits r 19 4) (n := n) hone hbind
    (by rw [helmMark_mark]; exact hreach) hstep (by rw [helmMark_mark]; exact hn) hroom
  have hconfig := (markConfig_idle (w := s.work.markRunning e) hw (bits r 19 4) (bits r 95 64) (bit r 96)).trans hpulse
  refine (does_onHelm (f := fun h => { helmMark r h with bindings := l }) hi (exec_helmConfig e s) ((helmConfig_begins hi hfree).trans ?_)).imp
    fun t ⟨hhelm, hdone, _⟩ => ⟨?_, hdone⟩
  · rw [← hr, helmConfigAt_mark (w := s.work.markRunning e) hb hk ho hh, hconfig]
    rfl
  · rw [hhelm]
    exact hfind

/-- HELM_CONFIG of a gate whose generation nobody has joined. -/
theorem helmConfig_sets_gate (hk : bits r 1 0 = 1) (ho : bits r 19 4 < 1024) (hh : s.work.holder 3 (bits r 19 4) = some e.berth)
    (hhub : s.work.hubBeyond (bits r 83 72) = false) (hup : bit r 71 = true → bits r 70 64 ≠ 0) (hp : bits r 70 64 ≤ 64)
    (hcount : (s.work.gate (bits r 19 4)).count = 0) (hnext : (s.work.gate (bits r 19 4)).next = 0) :
    Does (.helmConfig e) s fun t => t.hub.helm = helmGate r s.hub.helm ∧ s.Completes t e x 0 0 0 ∧ Within s t (fun h => { h with helm := t.hub.helm, ten := t.hub.ten }) := by
  have hconfig : (s.work.markRunning e).gateConfig (bits r 19 4) r = (s.work.markRunning e).onHelm (helmGate r) :=
    gateConfig_closed (w := s.work.markRunning e) hcount hnext r
  refine does_onHelm hi (exec_helmConfig e s) ((helmConfig_begins hi hfree).trans ?_)
  rw [← hr, helmConfigAt_gate (w := s.work.markRunning e) hb hk ho hh hhub hup hp, hconfig]

/-- HELM_CONFIG of a semaphore. -/
theorem helmConfig_sets_sem (hk : bits r 1 0 = 2) (ho : bits r 19 4 < 512) (hh : s.work.holder 4 (bits r 19 4) = some e.berth) (hc : bits r 79 64 ≤ bits r 95 80)
    (hw : s.hub.helm.waiters = []) :
    Does (.helmConfig e) s fun t => t.hub.helm = helmSem r s.hub.helm ∧ s.Completes t e x 0 0 0 ∧ Within s t (fun h => { h with helm := t.hub.helm, ten := t.hub.ten }) := by
  have hcount : (if bits r 95 80 = 0 then 0 else bits r 79 64) = bits r 79 64 := by
    split
    · omega
    · rfl
  have hconfig : (s.work.markRunning e).semConfig (bits r 19 4) (bits r 79 64) (bits r 95 80) = (s.work.markRunning e).onHelm (helmSem r) := by
    rw [semConfig_idle hw, hcount]
    rfl
  refine does_onHelm hi (exec_helmConfig e s) ((helmConfig_begins hi hfree).trans ?_)
  rw [← hr, helmConfigAt_sem (w := s.work.markRunning e) hb hk ho hh hc, hconfig]

end

/-- Settles O29: with no waiter each configuration is one change of the Helm's record and the entry's completion; a gate's timeout breaks it. -/
theorem helmCommands : Obligations.HelmCommands := by
  unfold Obligations.HelmCommands
  refine ⟨?mark, ?pulses, ?gate, ?sem, ?bind, ?unbind, ?read, ?timeout⟩
  case mark =>
    rintro s e x r _ hi hfree hr rfl hk ho hb hh hw hbelow
    refine (helmConfig_sets_mark hi hfree hr hb hk ho hh hw hbelow).imp fun t ⟨hhelm, hdone, hwithin⟩ => ?_
    have hmark (m : Nat) := congrArg (fun h : HelmState => tget ({} : Mark) h.marks m) hhelm
    exact ⟨(hmark _).trans (helmMark_marks _ _), fun m hm => (hmark m).trans (helmMark_marks_ne _ _ hm), hdone, hwithin⟩
  case pulses =>
    rintro s e x r _ k b n hi hfree hr rfl hk ho hb hh hw hone hbind hreach hstep hn hroom
    exact helmConfig_owes_pulses hi hfree hr hb hk ho hh hw hone hbind hreach hstep hn hroom
  case gate =>
    rintro s e x r _ hi hfree hr rfl hk ho hb hh hhub hup hp hcount hnext
    refine (helmConfig_sets_gate hi hfree hr hb hk ho hh hhub hup hp hcount hnext).imp fun t ⟨hhelm, hdone, hwithin⟩ => ?_
    have hgate (g : Nat) := congrArg (fun h : HelmState => tget ({} : HGate) h.gates g) hhelm
    obtain ⟨y, hy⟩ := helmGate_gates r s.hub.helm
    have hself := (hgate (bits r 19 4)).trans hy
    refine ⟨congrArg HGate.parties hself, congrArg HGate.upEn hself, congrArg HGate.upHub hself, congrArg HGate.upGate hself, congrArg HGate.acceptRemote hself,
      congrArg HGate.timeout hself, congrArg HGate.gen hself, congrArg HGate.count hself, congrArg HGate.broken hself, fun g hg => ?_, hdone, hwithin⟩
    exact (hgate g).trans (helmGate_gates_ne _ _ hg)
  case sem =>
    rintro s e x r _ hi hfree hr rfl hk ho hb hh hc hw
    refine (helmConfig_sets_sem hi hfree hr hb hk ho hh hc hw).imp fun t ⟨hhelm, hdone, hwithin⟩ => ?_
    have hsem (k : Nat) := congrArg (fun h : HelmState => tget ({} : Sem) h.sems k) hhelm
    exact ⟨(hsem _).trans (helmSem_sems _ _), fun k hk => (hsem k).trans (helmSem_sems_ne _ _ hk), hdone, hwithin⟩
  case bind =>
    rintro s e x _ k hi hfree rfl hs hon hheld hb hk ho hh ha
    have hbody := (helmBind_begins hi hfree).trans (helmBindAt_binds (w := s.work.markRunning e) hs hon hheld hb hk ho hh ha)
    refine (does_onHelm hi (exec_helmBind e s) hbody).imp fun t ⟨hhelm, hdone, hwithin⟩ => ⟨?_, hdone, hwithin⟩
    rw [hhelm]
    exact tfind_tset_self _ _ _
  case unbind =>
    rintro s e x _ hi hfree rfl hs hon hheld hb ha
    have hbody := (helmBind_begins hi hfree).trans (helmBindAt_unbinds (w := s.work.markRunning e) hs hon hheld hb ha)
    exact (does_onHelm hi (exec_helmBind e s) hbody).imp fun t ⟨hhelm, hdone, hwithin⟩ => ⟨congrArg HelmState.bindings hhelm, hdone, hwithin⟩
  case read =>
    rintro s e x _ hi hfree rfl hk hh
    refine (((markRunning_answers s e).hostWrite _ _ _).does_complete hi (helmRead_mark hi hfree hk hh) rfl).imp fun t ⟨hdone, hrings, hqueue, hsent⟩ =>
      ⟨fun hp hm => hsent (mem_sent_hostWrite _ _ _ _ hp hm), hdone, within_rings hrings hqueue ?_⟩
    exact congrArg (fun q : Hub => { q with ten := t.hub.ten }) (hostWrite_reports (s.work.markRunning e) _ _ _)
  case timeout =>
    intro s g ht hat hb hp hw
    exact does_work (exec_gateTimeout g s) (if_pos (by simp [ht, hat, hb])) (gateBreak_idle hp hb hw)

end Sys2Proof.Machine
end

section
/-! PROOFS. Messages between hubs that reach their gate (R263-R266, R559). -/

namespace Sys2Proof.Machine

/-! ## What a message runs -/

theorem exec_arriveMsg (p : Nat) (m : HelmMsg) (s : State) : exec (.arriveMsg p m) s = s.run fun w => w.helmIn p 0 m := rfl
theorem exec_releaseMsg (p : Nat) (m : HelmMsg) (s : State) : exec (.releaseMsg p m) s = s.run fun w => w.helmIn p 1 m := rfl
theorem exec_breakMsg (p : Nat) (m : HelmMsg) (s : State) : exec (.breakMsg p m) s = s.run fun w => w.helmIn p 2 m := rfl
theorem exec_rejectMsg (p : Nat) (m : HelmMsg) (s : State) : exec (.rejectMsg p m) s = s.run fun w => w.helmIn p 3 m := rfl
theorem exec_slowedMsg (p : Nat) (m : HelmMsg) (s : State) : exec (.slowedMsg p m) s = s.run fun w => w.helmIn p 4 m := rfl

section
variable {w : Work} {p : Nat} {m : HelmMsg} (hup : w.hportTrained p = true) (hhere : m.dstHub = w.hubId)
include hup hhere

/-- A message for this hub on a trained port is taken at once while the Helm runs. -/
theorem helmIn_taken (k : Nat) (hrun : w.helmPaused = false) : w.helmIn p k m = w.helmTake k m := by
  simp [Work.helmIn, hup, hhere, hrun]

/-- While the Helm's microcode is being replaced it is held behind those before it (R559). -/
theorem helmIn_held (k : Nat) (hpause : w.helmPaused = true) : w.helmIn p k m = w.helmHold (.msg k m) := by
  simp [Work.helmIn, hup, hhere, hpause]

end

/-! ## ARRIVE -/

/-- The hub of an ARRIVE is noted at its gate, the operation counted. -/
def Work.arrivalNoted (w : Work) (m : HelmMsg) : Work := (w.onGate m.dstGate fun x => { x with remotes := addTo x.remotes (m.srcHub, m.srcGate) }).count 4 0 1

theorem arrivalNoted_gate (w : Work) (m : HelmMsg) :
    (w.arrivalNoted m).gate m.dstGate = { w.gate m.dstGate with remotes := addTo (w.gate m.dstGate).remotes (m.srcHub, m.srcGate) } := by
  rw [Work.arrivalNoted, gate_of_helm (count_reports _ _ _ _ _).helm, gate_onGate]

/-- A gate's record with one arrival of another hub more. -/
def gateCounted (now : Nat) (x : HGate) : HGate := { x with count := x.count + 1, firstAt := some (x.firstAt.getD now) }

/-- An ARRIVE of the gate's generation that does not fill the gate counts one arrival (R263). -/
theorem arriveTaken_counts {w : Work} {m : HelmMsg} (hlive : w.gateLive m.dstGate = true) (haccept : (w.gate m.dstGate).acceptRemote = true)
    (hb : (w.gate m.dstGate).broken = false) (hgen : m.gen = (w.gate m.dstGate).gen) (hsent : (w.gate m.dstGate).sentArrive = false)
    (hroom : (w.gate m.dstGate).count + 1 < (w.gate m.dstGate).parties) :
    w.arriveTaken m = (w.arrivalNoted m).onGate m.dstGate (gateCounted (w.arrivalNoted m).now) := by
  have hgate := arrivalNoted_gate w m
  have htaken : w.arriveTaken m = (w.arrivalNoted m).gateCount m.dstGate false := by
    simp only [Work.arriveTaken, hlive, haccept, hb, hgen, Bool.not_true, Bool.or_self, Bool.false_eq_true, if_false, ne_eq, not_true_eq_false]
    rfl
  have hopen : ((w.arrivalNoted m).gate m.dstGate).sentArrive = false := by rw [hgate]; exact hsent
  have hfew : (((w.arrivalNoted m).onGate m.dstGate (gateCounted (w.arrivalNoted m).now)).gate m.dstGate).count < ((w.arrivalNoted m).gate m.dstGate).parties := by
    rw [gate_onGate, hgate]
    exact hroom
  rw [htaken, Work.gateCount]
  simp only [hopen, Bool.false_eq_true, if_false]
  exact if_pos hfew

/-- The hub without the Helm. -/
def offHelm (h : Hub) : Hub := { h with helm := {} }

theorem within_helm {s : State} {w : Work} (h : Same offHelm s.work w) : Within s (s.commit w) fun h => { h with helm := w.hub.helm } :=
  ⟨rfl, congrArg (fun q : Hub => { q with helm := w.hub.helm }) h⟩

theorem arrivalNoted_same (w : Work) (m : HelmMsg) : Same offHelm w (w.arrivalNoted m) :=
  Same.trans (b := w.onGate m.dstGate _) rfl ((count_reports _ _ _ _ _).same _)

/-! ## RELEASE -/

/-- The record of a gate once it is released, its LAST_WAIT known (R251, R268). -/
def gateReleased (last : Nat) (x : HGate) : HGate :=
  { x with count := x.next, next := 0, gen := (x.gen + 1) % 65536, sentArrive := false, lastRemotes := x.remotes, remotes := [],
           firstAt := x.nextAt, localAt := x.nextLocal, nextAt := none, nextLocal := none, lastWait := last,
           waitSum := satAdd (2 ^ 48 - 1) x.waitSum last, releases := satAdd 0xFFFFFFFF x.releases 1 }

theorem gateWait_hub (w : Work) (x : HGate) : (w.gateWait x).2.hub = { w.hub with free := (w.gateWait x).2.hub.free } := by
  unfold Work.gateWait
  split <;> rfl

theorem gateWait_gate (w : Work) (x : HGate) (g : Nat) : (w.gateWait x).2.gate g = w.gate g := by
  unfold Work.gate
  rw [gateWait_hub]

/-- A gate without waiters, bindings, rounds and counted hubs is released: its next generation begins with the arrivals it has already (R251, R263, R268). -/
theorem gateRelease_alone {w : Work} {g : Nat} (hw : w.hub.helm.waiters = []) (hb : w.hub.helm.bindings = []) (ht : w.hub.tables = []) (hr : (w.gate g).remotes = [])
    (hroom : (w.gate g).next < (w.gate g).parties) :
    w.gateRelease g = (w.gateWait (w.gate g)).2.onGate g (gateReleased (w.gateWait (w.gate g)).1) := by
  have hnone : w.bindingsOf 1 g = [] := by simp [Work.bindingsOf, hb]
  have hcount : (((w.gateWait (w.gate g)).2.onGate g (gateReleased (w.gateWait (w.gate g)).1)).gate g).count = (w.gate g).next := by
    rw [gate_onGate, gateWait_gate]
    rfl
  have hstays : (((w.gate g).upEn && decide (((((w.gateWait (w.gate g)).2.onGate g (gateReleased (w.gateWait (w.gate g)).1)).gate g).count) = (w.gate g).parties))) = false := by
    rw [hcount]
    simp [Nat.ne_of_lt hroom]
  simp only [Work.gateRelease, takeWaiters_none hw, each_nil, hnone, ht, List.filter_nil, List.map_nil, hr]
  exact if_neg (by rw [Bool.not_eq_true]; exact hstays)

theorem releaseTaken_waited {w : Work} {m : HelmMsg} (hlive : w.gateLive m.dstGate = true) (hb : (w.gate m.dstGate).broken = false) (hup : (w.gate m.dstGate).upEn = true)
    (hsent : (w.gate m.dstGate).sentArrive = true) (hgen : m.gen = (w.gate m.dstGate).gen) : w.releaseTaken m = w.gateRelease m.dstGate := by
  simp [Work.releaseTaken, hlive, hb, hup, hsent, hgen]

theorem gateWait_local {w : Work} {x : HGate} {t : Nat} (h : x.localAt = some t) : (w.gateWait x).1 = min 0xFFFFFFFF ((w.now - t) * 1200) := by
  simp [Work.gateWait, h]

/-! ## SLOWED -/

/-- The gates that stand with a slowed hub show it (R266). -/
def markSlowed (hub : Nat) (x : HGate) : HGate :=
  if (x.upEn && x.upHub = hub) || (x.remotes ++ x.lastRemotes).any fun (h, _) => h = hub then { x with peerSlowed := true, slowedHub := hub } else x

theorem markSlowed_upstream {hub : Nat} {x : HGate} (hup : x.upEn = true) (hhub : x.upHub = hub) : markSlowed hub x = { x with peerSlowed := true, slowedHub := hub } := by
  simp [markSlowed, hup, hhub]

theorem slowedTaken_eq (w : Work) (m : HelmMsg) :
    w.slowedTaken m = (w.onHelm fun h => { h with gates := h.gates.map fun (k, x) => (k, markSlowed m.srcHub x) }).log { cls := 6, sev := 0, cause := 0, unit := m.srcHub, detail := m.opPoint } := rfl

/-- A listed value of a table each of whose values is changed. -/
theorem tget_map {α : Type} (d : α) (f : α → α) (t : Tab α) {i : Nat} (h : (tfind t i).isSome = true) : tget d (t.map fun (k, x) => (k, f x)) i = f (tget d t i) := by
  induction t with
  | nil => simp [tfind] at h
  | cons p t ih =>
    obtain ⟨k, x⟩ := p
    simp only [List.map_cons, tget, tfind] at h ⊢
    split
    next hk => rfl
    next hk =>
      rw [if_neg hk] at h
      split
      next hlt =>
        rw [if_pos hlt] at h
        exact ih h
      next hlt => rw [if_neg hlt] at h; simp at h

/-! ## The obligation -/

/-- Settles O30, message by message: what reaches its gate acts on the gate's record, what comes while the microcode is replaced is held. -/
theorem helmMessages : Obligations.HelmMessages := by
  unfold Obligations.HelmMessages
  refine ⟨?arrive, ?release, ?breaks, ?slowed, ?held⟩
  case arrive =>
    rintro s p m ⟨hup, hhere, hrun⟩ hlive haccept hb hgen hsent hroom
    refine does_work (exec_arriveMsg p m s) ((helmIn_taken hup hhere 0 hrun).trans (arriveTaken_counts hlive haccept hb hgen hsent hroom)) ?_
    have hself := (gate_onGate (s.work.arrivalNoted m) m.dstGate (gateCounted (s.work.arrivalNoted m).now)).trans (congrArg (gateCounted _) (arrivalNoted_gate s.work m))
    refine ⟨congrArg HGate.count hself, ?_, (congrArg HGate.gen hself).trans rfl, within_helm ((arrivalNoted_same s.work m).trans rfl)⟩
    exact (congrArg HGate.remotes hself).symm ▸ (mem_addTo _ _ _).2 (.inl rfl)
  case release =>
    rintro s p m ⟨hup, hhere, hrun⟩ hlive hb hupEn hsent hgen hroom hw hbind htab hrem
    refine does_work (exec_releaseMsg p m s) ((helmIn_taken hup hhere 1 hrun).trans ((releaseTaken_waited hlive hb hupEn hsent hgen).trans (gateRelease_alone hw hbind htab hrem hroom))) ?_
    have hself := (gate_onGate (s.work.gateWait (s.work.gate m.dstGate)).2 m.dstGate (gateReleased (s.work.gateWait (s.work.gate m.dstGate)).1)).trans
      (congrArg (gateReleased _) (gateWait_gate s.work (s.work.gate m.dstGate) m.dstGate))
    refine ⟨congrArg HGate.gen hself, congrArg HGate.count hself, congrArg HGate.sentArrive hself, fun t ht => (congrArg HGate.lastWait hself).trans (gateWait_local ht), rfl, ?_⟩
    exact congrArg (fun q : Hub => quietHub { q with helm := ((s.work.gateWait (s.work.gate m.dstGate)).2.onGate m.dstGate (gateReleased (s.work.gateWait (s.work.gate m.dstGate)).1)).hub.helm })
      (gateWait_hub s.work (s.work.gate m.dstGate))
  case breaks =>
    rintro s p m c hc ⟨hup, hhere, hrun⟩ hb hp hw
    have hgate := gateBreak_idle (c := m.cause) hp hb hw
    rcases List.mem_cons.1 hc with rfl | hc
    · exact does_work (exec_breakMsg p m s) (helmIn_taken hup hhere 2 hrun) hgate
    · rw [List.mem_singleton] at hc
      subst hc
      exact does_work (exec_rejectMsg p m s) (helmIn_taken hup hhere 3 hrun) hgate
  case slowed =>
    rintro s p m g ⟨hup, hhere, hrun⟩ hupEn hhub hlisted
    refine does_work (exec_slowedMsg p m s) ((helmIn_taken hup hhere 4 hrun).trans (slowedTaken_eq s.work m)) ?_
    have hlog := log_reports (s.work.onHelm fun h => { h with gates := h.gates.map fun (k, x) => (k, markSlowed m.srcHub x) })
      { cls := 6, sev := 0, cause := 0, unit := m.srcHub, detail := m.opPoint }
    refine ⟨?_, within_helm (Same.trans (b := s.work.onHelm _) rfl (hlog.same _))⟩
    exact (gate_of_helm hlog.helm g).trans ((tget_map ({} : HGate) (markSlowed m.srcHub) s.hub.helm.gates hlisted).trans (markSlowed_upstream hupEn hhub))
  case held =>
    rintro s p m k c hc hup hhere hpause
    simp only [List.mem_cons, Prod.mk.injEq, List.not_mem_nil, or_false] at hc
    rcases hc with ⟨rfl, rfl⟩ | ⟨rfl, rfl⟩ | ⟨rfl, rfl⟩ | ⟨rfl, rfl⟩ | ⟨rfl, rfl⟩
    · exact does_work (exec_arriveMsg p m s) (helmIn_held hup hhere 0 hpause) ⟨rfl, rfl, rfl⟩
    · exact does_work (exec_releaseMsg p m s) (helmIn_held hup hhere 1 hpause) ⟨rfl, rfl, rfl⟩
    · exact does_work (exec_breakMsg p m s) (helmIn_held hup hhere 2 hpause) ⟨rfl, rfl, rfl⟩
    · exact does_work (exec_rejectMsg p m s) (helmIn_held hup hhere 3 hpause) ⟨rfl, rfl, rfl⟩
    · exact does_work (exec_slowedMsg p m s) (helmIn_held hup hhere 4 hpause) ⟨rfl, rfl, rfl⟩

end Sys2Proof.Machine
end

section
/-! PROOFS. Bandwidth regulation (11): GUARANTEE_SET, and the windows in which guarantees are watched. -/

namespace Sys2Proof.Machine

/-! ## What regulation changes of itself -/

/-- From one work to the next regulation alone has changed, its guarantees not. -/
structure Regulates (w w' : Work) : Prop where
  only : w' = w.onBwr fun _ => w'.hub.bwr
  recs : w'.hub.bwr.recs = w.hub.bwr.recs

theorem Regulates.refl (w : Work) : Regulates w w := ⟨rfl, rfl⟩

theorem Regulates.trans {a b c : Work} (h : Regulates a b) (k : Regulates b c) : Regulates a c := by
  refine ⟨?_, k.recs.trans h.recs⟩
  have hb : b.onBwr (fun _ => c.hub.bwr) = a.onBwr fun _ => c.hub.bwr := (congrArg (fun v : Work => v.onBwr fun _ => c.hub.bwr) h.only).trans rfl
  exact k.only.trans hb

theorem Regulates.onBwr (w : Work) {f : Bwr → Bwr} (h : (f w.hub.bwr).recs = w.hub.bwr.recs) : Regulates w (w.onBwr f) := ⟨rfl, h⟩

theorem Regulates.each {α : Type} (l : List α) (f : α → Work → Work) (w : Work) (hf : ∀ a w, Regulates w (f a w)) : Regulates w (each l f w) :=
  each_keeps l f w (.refl w) fun a _ h => h.trans (hf a _)

theorem settleCredits_regulates (w : Work) (k : Nat) : Regulates w (w.settleCredits k) := .each _ _ w fun _ v => .onBwr v rfl

theorem Regulates.ite {w a b : Work} {c : Prop} [Decidable c] (ha : Regulates w a) (hb : Regulates w b) : Regulates w (if c then a else b) := by
  split
  · exact ha
  · exact hb

theorem derateOne_regulates (w : Work) (k : Nat) : Regulates w (w.derateOne k) := by
  have hsettled (c : Prop) [Decidable c] : Regulates w (if c then w else w.settleCredits k) := .ite (.refl w) (settleCredits_regulates w k)
  unfold Work.derateOne
  exact .ite (.ite (hsettled _) ((hsettled _).trans (.each _ _ _ fun _ v => .onBwr v rfl)))
    ((Regulates.ite (hsettled _) ((hsettled _).trans (.each _ _ _ fun _ v => .onBwr v rfl))).trans (.onBwr _ rfl))

theorem derate_regulates (w : Work) : Regulates w w.derate := .each _ _ w fun k v => derateOne_regulates v k

theorem Regulates.hub {w w' : Work} (h : Regulates w w') : w'.hub = { w.hub with bwr := w'.hub.bwr } := congrArg Work.hub h.only
theorem Regulates.writes {w w' : Work} (h : Regulates w w') : w'.writes = w.writes := (congrArg Work.writes h.only).trans rfl

/-- Regulation leaves an entry running. -/
theorem Work.Answers.regulates {v v' : Work} {s : State} {e : EntryRef} (h : v.Answers s e) (k : Regulates v v') : v'.Answers s e := by
  have hports : v'.hub.ports = v.hub.ports := by rw [k.hub]
  exact h.frame (by rw [k.hub]) (portUp_of_ports hports) (mayIssue_of_ports hports)

/-! ## GUARANTEE_SET -/

/-- The guarantee that a record asks for (R336). -/
def guarOf (r port : Nat) : Guar := { guar := bits r 31 16, weight := bits r 39 32, mode := bits r 41 40, qshare := bits r 54 48, otMax := bits r 74 64, port := port }

/-- The place of a record's guarantee. -/
def guarPlace (r : Nat) : Nat := bits r 5 0 * 10 + resIndex (bits r 9 8) (bits r 11 10)

/-- The other guarantees on a resource. -/
def otherGuars (recs : Tab Guar) (i k : Nat) : List Guar := (recs.filter fun (j, _) => j % 10 = k && j ≠ i).map (·.2)

/-- A guarantee is noted, the credits of its resource settled (R336, R340). -/
def Work.guarNoted (w : Work) (r : Nat) (new : Guar) : Work :=
  (w.settleCredits (resIndex (bits r 9 8) (bits r 11 10))).onBwr fun b => { b with recs := if new.guar = 0 then tdel b.recs (guarPlace r) else tset b.recs (guarPlace r) new }

/-- A port with a guarantee is not in L0p (R384). -/
def Work.guarWakes (w : Work) (r : Nat) (new : Guar) : Work :=
  if new.guar ≠ 0 && 2 ≤ resIndex (bits r 9 8) (bits r 11 10) then w.onPort (bits r 11 10) fun p => { p with l0p := false } else w

/-- A guarantee is recorded, its resource's scale anew (R336, R340, R384). -/
def Work.guarRecord (w : Work) (r : Nat) (new : Guar) : Work := ((w.guarNoted r new).guarWakes r new).derateOne (resIndex (bits r 9 8) (bits r 11 10))

/-- GUARANTEE_SET of a record, on the work where its entry runs (R336, R337). -/
def Work.guaranteeAt (w : Work) (e : EntryRef) (r : Nat) : Work :=
  let k := resIndex (bits r 9 8) (bits r 11 10)
  let new := guarOf r (w.portOf e.berth)
  let old : Guar := tget {} w.hub.bwr.recs (guarPlace r)
  let others := otherGuars w.hub.bwr.recs (guarPlace r) k
  if bits r 5 0 = 0 || !w.itemInPool e 8 (bits r 5 0) then w.complete e stBadIdent
  else if !guarShapeOk (bits r 9 8) (bits r 11 10) new.weight new.mode new.qshare new.otMax then w.complete e stBadShape
  else if old.guar ≤ new.guar && 9 * w.capacity k < 10000 * ((others.map fun o => o.guar).sum + new.guar) then w.complete e stOverAdmit
  else if !queuesFit (new :: others) then w.complete e stQueueSpace
  else (w.guarRecord r new).complete e stOk

theorem exec_guaranteeSet (e : EntryRef) (s : State) : exec (.guaranteeSet e) s = s.run fun w => w.command e 0x27 true fun x w => w.guaranteeAt e (bits x 383 128) := rfl

theorem guaranteeAt_admitted {w : Work} {e : EntryRef} {r : Nat} (hg : bits r 5 0 ≠ 0) (hpool : w.itemInPool e 8 (bits r 5 0) = true)
    (hshape : guarShapeOk (bits r 9 8) (bits r 11 10) (bits r 39 32) (bits r 41 40) (bits r 54 48) (bits r 74 64) = true)
    (hsum : 10000 * (((otherGuars w.hub.bwr.recs (guarPlace r) (resIndex (bits r 9 8) (bits r 11 10))).map fun o => o.guar).sum + bits r 31 16)
      ≤ 9 * w.capacity (resIndex (bits r 9 8) (bits r 11 10)))
    (hfit : queuesFit (guarOf r (w.portOf e.berth) :: otherGuars w.hub.bwr.recs (guarPlace r) (resIndex (bits r 9 8) (bits r 11 10))) = true) :
    w.guaranteeAt e r = (w.guarRecord r (guarOf r (w.portOf e.berth))).complete e stOk := by
  have hadmit : ¬ 9 * w.capacity (resIndex (bits r 9 8) (bits r 11 10))
      < 10000 * (((otherGuars w.hub.bwr.recs (guarPlace r) (resIndex (bits r 9 8) (bits r 11 10))).map fun o => o.guar).sum + (guarOf r (w.portOf e.berth)).guar) :=
    Nat.not_lt.2 hsum
  have hok : guarShapeOk (bits r 9 8) (bits r 11 10) (guarOf r (w.portOf e.berth)).weight (guarOf r (w.portOf e.berth)).mode (guarOf r (w.portOf e.berth)).qshare
      (guarOf r (w.portOf e.berth)).otMax = true := hshape
  simp only [Work.guaranteeAt, hg, hpool, hok, hadmit, hfit, decide_false, Bool.and_false, Bool.not_true, Bool.or_self, Bool.false_eq_true, if_false]

theorem guarWakes_reports (w : Work) (r : Nat) (new : Guar) : Reports w (w.guarWakes r new) := by
  unfold Work.guarWakes
  split
  · exact onPort_reports w _ _
  · exact .refl w

theorem Work.Answers.guarWakes {v : Work} {s : State} {e : EntryRef} (h : v.Answers s e) (r : Nat) (new : Guar) : (v.guarWakes r new).Answers s e := by
  unfold Work.guarWakes
  split
  · refine h.frame rfl (portUp_onPort v _ _ rfl) fun f => ?_
    unfold Work.mayIssue Work.func
    by_cases hf : f.port = bits r 11 10
    · rw [hf, port_onPort]
    · rw [port_onPort_ne _ _ hf]
  · exact h

theorem Work.Answers.guarRecord {v : Work} {s : State} {e : EntryRef} (h : v.Answers s e) (r : Nat) (new : Guar) : (v.guarRecord r new).Answers s e := by
  have hnoted : (v.guarNoted r new).Answers s e := (h.regulates (settleCredits_regulates v _)).frame rfl (fun _ => rfl) fun _ => rfl
  exact (hnoted.guarWakes r new).regulates (derateOne_regulates _ _)

/-- The hub without regulation. -/
def offBwr (h : Hub) : Hub := { h with bwr := {} }

theorem Regulates.same {w w' : Work} (h : Regulates w w') : Same offBwr w w' := by
  unfold Same
  rw [h.hub]
  rfl

/-- Recording a guarantee changes regulation, and of the ports what reports change. -/
theorem guarRecord_same (w : Work) (r : Nat) (new : Guar) : Same offBwr w (w.guarRecord r new) := by
  have hnoted : Same offBwr w (w.guarNoted r new) := (settleCredits_regulates w _).same.trans rfl
  exact hnoted.trans (((guarWakes_reports _ r new).same _).trans (derateOne_regulates _ _).same)

theorem guarRecord_recs (w : Work) (r : Nat) {new : Guar} (h : new.guar ≠ 0) : (w.guarRecord r new).hub.bwr.recs = tset w.hub.bwr.recs (guarPlace r) new := by
  have hnoted : (w.guarNoted r new).hub.bwr.recs = tset w.hub.bwr.recs (guarPlace r) new := by
    rw [Work.guarNoted, onBwr_bwr, if_neg h, (settleCredits_regulates _ _).recs]
  rw [Work.guarRecord, (derateOne_regulates _ _).recs, (guarWakes_reports _ _ _).bwr, hnoted]

/-! ## The end of a window -/

/-- The causes that a window reports (R343). -/
def Work.windowCauses (w : Work) (g k : Nat) (limited : Bool) : Nat :=
  tget 0 w.hub.bwr.causes (g * 10 + k) ||| w.derateCauses k ||| pack [(6, 0), (1, b2n limited), (1, b2n (w.groupSiteWeak g))]

/-- The window after one that was judged (R342). -/
def nextWindow (i causes : Nat) (miss : Bool) (b : Bwr) : Bwr := { b with charged := tdel b.charged i, lastMiss := tset b.lastMiss i miss, causes := tset b.causes i causes }

/-- A backlogged window of a group and resource that carries is counted. -/
def Work.windowCounted (w : Work) (ev : WindowEvent) : Work := if ev.backlogged && w.capacity ev.res ≠ 0 then w.count 11 (ev.group * 10 + ev.res) 1 else w

theorem windowCounted_reports (w : Work) (ev : WindowEvent) : Reports w (w.windowCounted ev) := by
  unfold Work.windowCounted
  split
  · exact count_reports w _ _ _ _
  · exact .refl w

/-- A guarantee that is missed in a window: a backlog, and fewer bytes than it gives (R342). -/
def Work.windowMiss (w : Work) (live : Bool) (ev : WindowEvent) (bytes : Nat) : Bool :=
  match tfind w.hub.bwr.recs (ev.group * 10 + ev.res) with
  | some r => live && ev.backlogged && 256 * bytes < r.guar * 1000 * w.hub.bwr.window * (256 - w.hub.bwr.tol)
  | none => false

theorem exec_regulationWindowEnd (ev : WindowEvent) (s : State) : exec (.regulationWindowEnd ev) s = s.run fun w =>
    if ev.group = 0 || 64 ≤ ev.group || 10 ≤ ev.res then w
    else
      let v := w.windowCounted ev
      let miss := v.windowMiss (w.capacity ev.res ≠ 0) ev (tget 0 w.hub.bwr.charged (ev.group * 10 + ev.res))
      (if miss then v.guarMiss ev.group ev.res (tget 0 w.hub.bwr.charged (ev.group * 10 + ev.res)) (v.windowCauses ev.group ev.res ev.otLimited) else v).onBwr
        fun b => nextWindow (ev.group * 10 + ev.res) ((if miss then v.guarMiss ev.group ev.res (tget 0 w.hub.bwr.charged (ev.group * 10 + ev.res))
          (v.windowCauses ev.group ev.res ev.otLimited) else v).derateCauses ev.res) miss b := rfl

/-- A missed guarantee is counted, for its berths too, and enters the Logs (R343, R344). -/
def Work.missNoted (w : Work) (g k bytes causes : Nat) : Work :=
  let i := g * 10 + k
  let r : Guar := tget {} w.hub.bwr.recs i
  (each ((((w.count 11 i 2).hub.bwr.groups.filter fun (_, h) => h = g)).map (·.1)) (fun b w => w.viewCount b 7) (w.count 11 i 2)).log
    { cls := 0x0B, sev := if causes = 0 then 2 else 1, cause := if causes = 0 then 0x8013 else 0x8012, unit := i, addr := bytes, detail := causes + r.guar * 65536 }

/-- The interrupt of a missed guarantee was raised a short while ago (R383). -/
def Work.missQuiet (w : Work) (i : Nat) : Bool := match tfind w.hub.bwr.missIrq i with | some t => w.now < t + 10000 | none => false

theorem guarMiss_eq (w : Work) (g k bytes causes : Nat) : w.guarMiss g k bytes causes =
    let v := w.missNoted g k bytes causes
    if tget false v.hub.bwr.lastMiss (g * 10 + k) || v.missQuiet (g * 10 + k) then v
    else ((v.onBwr fun b => { b with missIrq := tset b.missIrq (g * 10 + k) v.now }).irq (tget ({} : Guar) w.hub.bwr.recs (g * 10 + k)).port 9).emit (.pldm 9) := rfl

theorem missNoted_bwr (w : Work) (g k bytes causes : Nat) : (w.missNoted g k bytes causes).hub.bwr = w.hub.bwr := by
  unfold Work.missNoted
  dsimp only
  rw [log_bwr]
  exact (each_same (fun v : Work => v.hub.bwr) _ (fun b v => v.viewCount b 7) _ fun _ _ => rfl).trans (count_bwr _ _ _ _ _)

/-- What a missed guarantee tells leaves what the windows have charged. -/
theorem guarMiss_charged (w : Work) (g k bytes causes : Nat) : (w.guarMiss g k bytes causes).hub.bwr.charged = w.hub.bwr.charged := by
  rw [guarMiss_eq]
  dsimp only
  split
  · rw [missNoted_bwr]
  · rw [emit_bwr, irq_bwr, onBwr_bwr, missNoted_bwr]

/-- Where no guarantee was missed the memory is as before, and besides what reports change regulation alone has changed. -/
theorem windowCounted_keeps (w : Work) (ev : WindowEvent) : SameMem w (w.windowCounted ev) := by
  unfold Work.windowCounted
  split
  · exact count_mem w _ _ _ _
  · exact ⟨rfl, rfl⟩

theorem windowMiss_none {w : Work} {ev : WindowEvent} (h : tfind w.hub.bwr.recs (ev.group * 10 + ev.res) = none) (live : Bool) (bytes : Nat) : w.windowMiss live ev bytes = false := by
  rw [Work.windowMiss, h]

theorem windowMiss_short {w : Work} {ev : WindowEvent} {q : Guar} {bytes : Nat} (h : tfind w.hub.bwr.recs (ev.group * 10 + ev.res) = some q) (hb : ev.backlogged = true)
    (hfew : 256 * bytes < q.guar * 1000 * w.hub.bwr.window * (256 - w.hub.bwr.tol)) : w.windowMiss true ev bytes = true := by
  simp [Work.windowMiss, h, hb, hfew]

theorem commit_mem_of_sameMem {s : State} {w : Work} (h : SameMem s.work w) : (s.commit w).mem = s.mem := by
  rw [commit_mem, h.2]
  rfl

theorem within_bwr {s : State} {w : Work} (h : Same offBwr s.work w) : Within s (s.commit w) fun h => { h with bwr := w.hub.bwr } :=
  ⟨rfl, congrArg (fun q : Hub => { q with bwr := w.hub.bwr }) h⟩

/-- Settles O37: an admitted guarantee is recorded in its place; a window's end takes what was charged, and a backlogged window charged too little is a miss. -/
theorem guarantees : Obligations.Guarantees := by
  unfold Obligations.Guarantees
  refine ⟨?set, ?quiet, ?miss⟩
  case set =>
    rintro s e x r _ _ q _ hi hm hr rfl rfl hg hpool rfl hshape rfl hsum hfit hguar
    have hbegin : (s.work.command e 0x27 true fun x w => w.guaranteeAt e (bits x 383 128)) = (s.work.markRunning e).guaranteeAt e r :=
      (command_issued hi hm (.inr (by omega)) _).trans (by rw [hr])
    have hbody := hbegin.trans (guaranteeAt_admitted (w := s.work.markRunning e) hg hpool hshape hsum hfit)
    refine (((markRunning_answers s e).guarRecord r _).does_complete hi (exec_guaranteeSet e s) hbody).imp fun t ⟨hdone, hrings, hqueue, _⟩ => ?_
    have hrecs : t.hub.bwr.recs = tset s.hub.bwr.recs (guarPlace r) (guarOf r (s.work.portOf e.berth)) :=
      (congrArg Bwr.recs hrings.bwr).trans (guarRecord_recs (s.work.markRunning e) r hguar)
    refine ⟨?_, fun j hj => ?_, hdone, within_rings hrings hqueue ?_⟩
    · rw [hrecs]
      exact tfind_tset_self _ _ _
    · rw [hrecs]
      exact tfind_tset_ne _ _ hj
    · rw [show t.hub.bwr = _ from hrings.bwr]
      exact congrArg (fun h : Hub => { h with bwr := ((s.work.markRunning e).guarRecord r (guarOf r (s.work.portOf e.berth))).hub.bwr, ten := t.hub.ten })
        (guarRecord_same (s.work.markRunning e) r (guarOf r (s.work.portOf e.berth)))
  case quiet =>
    intro s g k b o hg hlt hk hnone
    have hbound : ¬ (decide (g = 0) || decide (64 ≤ g) || decide (10 ≤ k)) = true := by simp; omega
    have hcounted := windowCounted_reports s.work { group := g, res := k, backlogged := b, otLimited := o }
    have hmiss := windowMiss_none (w := s.work.windowCounted { group := g, res := k, backlogged := b, otLimited := o }) (ev := { group := g, res := k, backlogged := b, otLimited := o })
      (by rw [hcounted.bwr]; exact hnone)
    refine does_work (exec_regulationWindowEnd _ s) (if_neg hbound) ?_
    simp only [hmiss, Bool.false_eq_true, if_false]
    refine ⟨?_, ?_, commit_mem_of_sameMem (windowCounted_keeps s.work _), within_bwr (((hcounted.same _)).trans rfl)⟩
    · exact congrArg (fun x : Bwr => tdel x.charged (g * 10 + k)) hcounted.bwr
    · exact tget_tset_self _ _ _ _
  case miss =>
    intro s g k o q hg hlt hk hq hlive hfew
    have hbound : ¬ (decide (g = 0) || decide (64 ≤ g) || decide (10 ≤ k)) = true := by simp; omega
    have hcounted := windowCounted_reports s.work { group := g, res := k, backlogged := true, otLimited := o }
    have hmiss := windowMiss_short (w := s.work.windowCounted { group := g, res := k, backlogged := true, otLimited := o }) (ev := { group := g, res := k, backlogged := true, otLimited := o })
      (bytes := tget 0 s.work.hub.bwr.charged (g * 10 + k)) (by rw [hcounted.bwr]; exact hq) rfl (by rw [hcounted.bwr]; exact hfew)
    refine does_work (exec_regulationWindowEnd _ s) (if_neg hbound) ?_
    have hl : decide (s.work.capacity k ≠ 0) = true := decide_eq_true hlive
    simp only [hl, hmiss, if_true]
    refine ⟨tget_tset_self _ _ _ _, ?_⟩
    rw [commit_hub, onBwr_bwr]
    dsimp only [nextWindow]
    rw [guarMiss_charged, hcounted.bwr]
    rfl

end Sys2Proof.Machine
end

section
/-! PROOFS. Helm operations of a site (R108, R109, R255-R260). -/

namespace Sys2Proof.Machine

/-! ## What an operation leaves standing -/

/-- From one work to the next every mark is as it was, and every site's stream stands where it stood. -/
structure MarksStand (w w' : Work) : Prop where
  marks : w'.hub.helm.marks = w.hub.helm.marks
  up : ∀ m, streamUp (w'.site m) = streamUp (w.site m)

theorem MarksStand.refl (w : Work) : MarksStand w w := ⟨rfl, fun _ => rfl⟩
theorem MarksStand.trans {a b c : Work} (h : MarksStand a b) (k : MarksStand b c) : MarksStand a c := ⟨k.marks.trans h.marks, fun m => (k.up m).trans (h.up m)⟩
theorem MarksStand.each {α : Type} (l : List α) (f : α → Work → Work) (w : Work) (hf : ∀ a w, MarksStand w (f a w)) : MarksStand w (each l f w) :=
  each_keeps l f w (.refl w) fun a _ h => h.trans (hf a _)
theorem MarksStand.mark {w w' : Work} (h : MarksStand w w') (m : Nat) : w'.mark m = w.mark m := by unfold Work.mark; rw [h.marks]

theorem Reports.site {w w' : Work} (h : Reports w w') (m : Nat) : w'.site m = w.site m := by unfold Work.site; rw [h.sites]

theorem Reports.marksStand {w w' : Work} (h : Reports w w') : MarksStand w w' := ⟨by rw [h.helm], fun m => by rw [h.site]⟩

theorem Sends.helm {n : Nat} {w w' : Work} (h : Sends n w w') : w'.hub.helm = w.hub.helm := by rw [h.hub]

/-- Sending to a site leaves every site's stream where it stands. -/
theorem Sends.streamUp {n : Nat} {w w' : Work} (h : Sends n w w') (m : Nat) : streamUp (w'.site m) = streamUp (w.site m) := by
  by_cases hm : m = n
  · rw [hm, h.up]
  · rw [h.other m hm]

theorem notify_marksStand (w : Work) (p : Party) (c v : Nat) : MarksStand w (w.notify p c v) := by
  cases p with
  | site n tag b => exact ⟨congrArg HelmState.marks (siteSend_sends w n _).helm, (siteSend_sends w n _).streamUp⟩
  | wright x => exact ⟨rfl, fun _ => rfl⟩
  | launch x => exact ⟨rfl, fun _ => rfl⟩
  | entry b r i => exact ⟨rfl, fun _ => rfl⟩

theorem tellWaiter_marksStand (w : Work) (x : Waiter) (c v : Nat) : MarksStand w (w.tellWaiter x c v) := by
  unfold Work.tellWaiter
  split
  · exact notify_marksStand w _ _ _
  · exact ⟨rfl, fun _ => rfl⟩

/-- Serving a mark tells its waiters; its value stands. -/
theorem serveMark_marksStand (w : Work) (m : Nat) : MarksStand w (w.serveMark m) :=
  MarksStand.trans (b := (w.takeWaiters _).2) ⟨rfl, fun _ => rfl⟩ (.each _ _ _ fun x v => tellWaiter_marksStand v x _ _)

theorem owe_marksStand (w : Work) (k n : Nat) : MarksStand w (w.owe k n) := by
  unfold Work.owe
  dsimp only
  split
  · exact .refl w
  · split
    · refine MarksStand.trans ?_ ((log_reports _ _).trans (count_reports _ _ _ _ _)).marksStand
      exact ⟨rfl, fun _ => rfl⟩
    · exact ⟨rfl, fun _ => rfl⟩

/-- The pulses that a mark owes are no change of its value. -/
theorem markPulses_marksStand (w : Work) (m : Nat) : MarksStand w (w.markPulses m) := by
  refine .each _ _ w fun k v => ?_
  dsimp only
  split
  · exact .refl v
  · exact (owe_marksStand v k _).trans ⟨rfl, fun _ => rfl⟩

/-! ## An operation reaches the Helm -/

/-- A site's operation held at its port, its credit spent. -/
def Work.hlmHolding (w : Work) (n : Nat) (c : Credits) (h : HeldHlm) : Work :=
  (w.onSPort n fun p => { p with toChip := c }).onSPort n fun p => { p with hlmHeld := p.hlmHeld ++ [h] }

/-- The operation taken from its port. -/
def Work.hlmTaken (w : Work) (n : Nat) (c : Credits) (h : HeldHlm) : Work := (w.hlmHolding n c h).onSPort n fun p => { p with hlmHeld := [] }

theorem hlmTaken_helm (w : Work) (n : Nat) (c : Credits) (h : HeldHlm) : (w.hlmTaken n c h).hub.helm = w.hub.helm := rfl

theorem hlmTaken_site (w : Work) (n : Nat) (c : Credits) (h : HeldHlm) :
    (w.hlmTaken n c h).site n = { w.site n with port := { (w.site n).port with toChip := c, hlmHeld := [] } } := by
  simp [Work.hlmTaken, Work.hlmHolding, Work.onSPort]

/-- A site's operation may be taken at once (R108). -/
structure HlmTakes (w : Work) (n : Nat) (o : HlmOp) : Prop where
  up : streamUp (w.site n) = true
  init : (w.site n).port.initGot = true
  helm : (w.site n).port.helm = true
  credit : 0 < (w.site n).port.toChip.hlmHdr
  none_held : (w.site n).port.hlmHeld = []
  running : w.unitPaused 2 = false
  unordered : o.release = false

/-- What follows an operation's effect: its credit goes back to the site (R84, R108). -/
def Work.hlmEnds (w : Work) (n : Nat) : Work :=
  let u := w.giveBack n { hlmHdr := 1 }
  if streamUp (u.site n) then u else u.withdrawSite n

theorem hlmPump_one {w : Work} {n q hop : Nat} {o : HlmOp} (hheld : (w.site n).port.hlmHeld = [{ seq := q, hop := hop, op := o }]) (hrun : w.helmPaused = false)
    (hrel : o.release = false) : w.hlmPump n = ((w.onSPort n fun p => { p with hlmHeld := [] }).hlmApply n hop o).hlmEnds n := by
  simp [Work.hlmPump, hheld, hrun, Work.hlmList, hlmReady, hrel, Work.hlmEnds]

/-- An operation that may be taken acts at once. -/
theorem hlmIn_takes {w : Work} {n : Nat} {o : HlmOp} (h : HlmTakes w n o) (hop : Nat) :
    ∃ c x, w.hlmIn n hop o = ((w.hlmTaken n c x).hlmApply n hop o).hlmEnds n := by
  have hspend : ∃ c, spend (w.site n).port.toChip { hlmHdr := 1 } = some c := by
    have := h.credit
    simp [spend]
    omega
  obtain ⟨c, hc⟩ := hspend
  have hport : ((w.onSPort n fun p => { p with toChip := c }).site n).port = { (w.site n).port with toChip := c } := by simp [Work.onSPort]
  refine ⟨c, { seq := (w.site n).port.reqSeq, hop := hop, op := o }, ?_⟩
  have hholds : w.hlmIn n hop o = (w.hlmHolding n c { seq := (w.site n).port.reqSeq, hop := hop, op := o }).hlmPump n := by
    simp only [Work.hlmIn, Work.received, h.up, h.init, hc, Bool.not_true, Bool.false_eq_true, if_false, hport, h.helm]
    rfl
  rw [hholds]
  have hrun : (w.hlmHolding n c { seq := (w.site n).port.reqSeq, hop := hop, op := o }).helmPaused = false := h.running
  have hheld : ((w.hlmHolding n c { seq := (w.site n).port.reqSeq, hop := hop, op := o }).site n).port.hlmHeld = [{ seq := (w.site n).port.reqSeq, hop := hop, op := o }] := by
    simp [Work.hlmHolding, Work.onSPort, h.none_held]
  rw [Work.hlmTaken]
  exact hlmPump_one hheld hrun h.unordered

/-- While the site's stream is up, the Helm is what the operation left. -/
theorem hlmEnds_up {w : Work} {n : Nat} (hup : streamUp (w.site n) = true) : w.hlmEnds n = w.giveBack n { hlmHdr := 1 } := by
  have hsends := siteSend_sends (w.onSPort n fun p => { p with toChip := addCredits p.toChip { hlmHdr := 1 } }) n (creditBytes { hlmHdr := 1 })
  have hstands : streamUp ((w.giveBack n { hlmHdr := 1 }).site n) = true := by
    refine (hsends.streamUp n).trans ?_
    simpa [streamUp, siteServing, Work.onSPort] using hup
  exact if_pos hstands

theorem hlmEnds_helm {w : Work} {n : Nat} (hup : streamUp (w.site n) = true) : (w.hlmEnds n).hub.helm = w.hub.helm := by
  rw [hlmEnds_up hup]
  exact (siteSend_sends _ n _).helm

theorem hlmTaken_up {w : Work} {n : Nat} (h : streamUp (w.site n) = true) (c : Credits) (x : HeldHlm) : streamUp ((w.hlmTaken n c x).site n) = true := by
  rw [hlmTaken_site]
  exact h

/-! ## One message on an idle link -/

/-- A message that fills no more than one payload is one. -/
theorem chunks_short {α : Type} {n : Nat} {l : List α} (hn : n ≠ 0) (hne : l ≠ []) (h : l.length ≤ n) : chunks n l = [l] := by
  obtain ⟨a, t, rfl⟩ := List.exists_cons_of_ne_nil hne
  have hdrop : (a :: t).drop n = [] := List.drop_eq_nil_of_le h
  unfold chunks
  rw [List.length_cons, chunksAux.eq_3 _ _ _ (by simp), hdrop, List.take_of_length_le h]
  cases t.length <;> rfl

/-- A frame that owes no acknowledgement goes out with none. -/
theorem putFrame_plain {w : Work} {n k : Nat} (f : TxFrame) (hack : (w.bundle n (k + 8)).ackOwed = false) :
    w.putFrame n k f = w.emit (.frame n k (frameBytes 0 f.bseq 0 f.sseq f.payload)) := by
  simp [Work.putFrame, hack]

theorem placeFrame_plain {w : Work} {n k : Nat} (sseq : Nat) (p : List Byte) {f : Link → Link} (hf : ∀ l, (f l).bundles = l.bundles) (hk : nextBundle (w.site n).link = some k)
    (hack : (w.bundle n (k + 8)).ackOwed = false) :
    Out.frame n k (frameBytes 0 (w.bundle n k).nextBseq 0 sseq p) ∈ (w.placeFrame n sseq p f).hub.sent := by
  unfold Work.placeFrame
  simp only [hk]
  rw [putFrame_plain]
  · exact List.mem_cons_self ..
  · have hne : k ≠ k + 8 := by omega
    simpa [Work.onBundle, Work.onLink, Work.bundle, hf, hne] using hack

/-- A site's link has nothing waiting, and its next frame goes on bundle k, which owes no acknowledgement. -/
structure Idle (w : Work) (n k : Nat) : Prop where
  queue : (w.site n).link.txQueue = []
  resend : (w.site n).link.resend = []
  limp : (w.site n).link.limp = .off
  window : windowOpen (w.site n).link = true
  next : nextBundle (w.site n).link = some k
  noAck : (w.bundle n (k + 8)).ackOwed = false

/-- The one payload that waits goes on the next bundle while the window is open (R55). -/
theorem flush_one {w : Work} {n : Nat} {p : List Byte} (hq : (w.site n).link.txQueue = [p]) (hr : (w.site n).link.resend = []) (hl : (w.site n).link.limp = .off)
    (hw : windowOpen (w.site n).link = true) :
    w.flush n = w.placeFrame n (w.site n).link.txSseq p fun l => { l with txQueue := [], txSseq := (l.txSseq + 1) % 65536 } := by
  simp [Work.flush, hq, hr, hl, Work.drainTx, hw]

/-- A payload put into a site's queue. -/
def Work.queued (w : Work) (n : Nat) (m : List Byte) : Work := w.onLink n fun l => { l with txQueue := l.txQueue ++ chunks 1012 m }

/-- A message of one payload into an idle stream leaves in a frame of its own (R55, R79; log 18). -/
theorem siteSend_idle {w : Work} {n k : Nat} {m : List Byte} (hup : streamUp (w.site n) = true) (h : Idle w n k) (hne : m ≠ []) (hlen : m.length ≤ 1012) :
    Out.frame n k (frameBytes 0 (w.bundle n k).nextBseq 0 (w.site n).link.txSseq m) ∈ (w.siteSend n m).hub.sent := by
  have hlink : ((w.queued n m).site n).link = { (w.site n).link with txQueue := [m] } := by simp [Work.queued, Work.onLink, h.queue, chunks_short (by decide) hne hlen]
  have hbundle (j : Nat) : (w.queued n m).bundle n j = w.bundle n j := by unfold Work.bundle; rw [hlink]
  have hsend : w.siteSend n m = (w.queued n m).flush n := if_neg (by rw [hup]; decide)
  rw [hsend, flush_one (p := m) (by rw [hlink]) (by rw [hlink]; exact h.resend) (by rw [hlink]; exact h.limp) (by rw [hlink]; exact h.window), ← hbundle k, hlink]
  exact placeFrame_plain _ m (fun _ => rfl) (by rw [hlink]; exact h.next) (by rw [hbundle]; exact h.noAck)

/-! ## What each operation does -/

theorem exec_markAdd (n : Nat) (o : HlmOp) (s : State) : exec (.markAdd n o) s = s.run fun w => w.hlmIn n 0 o := rfl
theorem exec_markWait (n : Nat) (o : HlmOp) (s : State) : exec (.markWait n o) s = s.run fun w => w.hlmIn n 1 o := rfl
theorem exec_markRead (n : Nat) (o : HlmOp) (s : State) : exec (.markRead n o) s = s.run fun w => w.hlmIn n 2 o := rfl
theorem exec_gateArrive (n : Nat) (o : HlmOp) (s : State) : exec (.gateArrive n o) s = s.run fun w => w.hlmIn n 3 o := rfl
theorem exec_semAcquire (n : Nat) (o : HlmOp) (s : State) : exec (.semAcquire n o) s = s.run fun w => w.hlmIn n 4 o := rfl
theorem exec_semRelease (n : Nat) (o : HlmOp) (s : State) : exec (.semRelease n o) s = s.run fun w => w.hlmIn n 5 o := rfl

/-- A mark with room counts what is added: its value is the sum, every stream stands (R248). -/
theorem markAdd_counts {w : Work} {b m v : Nat} (hrun : w.helmPaused = false) (hheld : w.holder 2 m = some b) (hsat : (w.mark m).sat = false)
    (hroom : (w.mark m).value + v ≤ 0xFFFFFFFF) :
    (w.markAdd b m v).1 = 0 ∧ (w.markAdd b m v).2.mark m = { w.mark m with value := (w.mark m).value + v }
    ∧ ∀ k, streamUp ((w.markAdd b m v).2.site k) = streamUp (w.site k) := by
  have heq : w.markAdd b m v = (0, (((w.onMark m fun x => { x with value := x.value + v }).count 4 0 0).serveMark m).markPulses m) := by
    simp [Work.markAdd, hrun, hheld, hsat, Nat.not_lt.2 hroom]
  have hstands : MarksStand (w.onMark m fun x => { x with value := x.value + v }) (w.markAdd b m v).2 := by
    rw [heq]
    exact (count_reports _ _ _ _ _).marksStand.trans ((serveMark_marksStand _ m).trans (markPulses_marksStand _ m))
  exact ⟨by rw [heq], (hstands.mark m).trans (mark_onMark w m _), fun k => (hstands.up k).trans rfl⟩

/-- While the chip has room for waiters one more joins them (R262). -/
theorem addWaiter_onChip {w : Work} {x : Waiter} (h : w.hub.helm.waiters.length < 16384) : w.addWaiter x = some (w.onHelm fun h => { h with waiters := h.waiters ++ [x] }) :=
  if_pos (Nat.lt_of_le_of_lt (List.length_filter_le _ _) h)

/-- A wait on a mark that has not reached the value joins the waiters on the chip while they have room (R249, R262). -/
theorem markWait_waits {w : Work} {p : Party} {b m t : Nat} (hrun : w.helmPaused = false) (hheld : w.holder 2 m = some b) (hsat : (w.mark m).sat = false)
    (hbelow : (w.mark m).value < t) (hroom : w.hub.helm.waiters.length < 16384) :
    w.markWait p b m t = (w.count 4 0 0).onHelm fun h => { h with waiters := h.waiters ++ [{ party := p, what := .mark m t, berth := b }] } := by
  have hhelm : (w.count 4 0 0).hub.helm = w.hub.helm := (count_reports w 4 0 0 1).helm
  have hchip := addWaiter_onChip (w := w.count 4 0 0) (x := { party := p, what := .mark m t, berth := b }) (by rw [hhelm]; exact hroom)
  simp only [Work.markWait, hrun, hheld, hsat, Nat.not_le.2 hbelow, hchip, ne_eq, not_true_eq_false, Bool.false_eq_true, if_false]

/-- An arrival that does not fill its gate counts (R251). -/
theorem gateArrive_counts {w : Work} {b g : Nat} (hrun : w.helmPaused = false) (hheld : w.holder 3 g = some b) (hb : (w.gate g).broken = false)
    (hsent : (w.gate g).sentArrive = false) (hroom : (w.gate g).count + 1 < (w.gate g).parties) :
    (w.gateArrive none b g).1 = 0 ∧ ((w.gateArrive none b g).2.gate g).count = (w.gate g).count + 1 ∧ ((w.gateArrive none b g).2.gate g).gen = (w.gate g).gen
    ∧ ∀ k, streamUp ((w.gateArrive none b g).2.site k) = streamUp (w.site k) := by
  have hgate : (w.count 4 0 1).gate g = w.gate g := gate_of_helm (count_reports w 4 0 1 1).helm g
  have hp : (w.gate g).parties ≠ 0 := by omega
  have heq : w.gateArrive none b g = (0, (w.count 4 0 1).onGate g fun x =>
      { x with count := x.count + 1, firstAt := (w.count 4 0 1).since x.firstAt true, localAt := (w.count 4 0 1).since x.localAt true }) := by
    simp [Work.gateArrive, hrun, hheld, hb, hp, Work.gateCount, hgate, hsent, hroom]
  rw [heq]
  refine ⟨rfl, ?_, ?_, fun k => ((count_reports w 4 0 1 1).marksStand.up k)⟩
  · rw [gate_onGate, hgate]
  · rw [gate_onGate, hgate]

theorem sem_of_helm {w w' : Work} (h : w'.hub.helm = w.hub.helm) (k : Nat) : w'.sem k = w.sem k := by unfold Work.sem; rw [h]

/-- Units that are there are taken at once where nothing waits (R254). -/
theorem semAcquire_takes {w : Work} {p : Party} {b k u : Nat} (hheld : w.holder 4 k = some b) (hu : 0 < u) (hthere : u ≤ (w.sem k).count)
    (hmax : (w.sem k).count ≤ (w.sem k).max) (hw : w.hub.helm.waiters = []) :
    w.semAcquire p b k u = ((w.count 4 0 2).onSem k fun y => { y with count := y.count - u }).notify p 0 0 := by
  have hhelm : (w.count 4 0 2).hub.helm = w.hub.helm := (count_reports w 4 0 2 1).helm
  have h0 : (w.sem k).max ≠ 0 := by omega
  have h1 : u ≠ 0 := by omega
  have h2 : ¬ (w.sem k).max < u := by omega
  simp [Work.semAcquire, hheld, h0, h1, h2, hhelm, hw, hthere]

/-- Units given back join the count where nothing waits (R254). -/
theorem semRelease_gives {w : Work} {b k u : Nat} (hrun : w.helmPaused = false) (hheld : w.holder 4 k = some b) (hmax : 0 < (w.sem k).max)
    (hroom : (w.sem k).count + u ≤ (w.sem k).max) (hw : w.hub.helm.waiters = []) :
    w.semRelease b k u = (0, (w.count 4 0 2).onSem k fun y => { y with count := min y.max (y.count + u) }) := by
  have hhelm : (w.count 4 0 2).hub.helm = w.hub.helm := (count_reports w 4 0 2 1).helm
  have h0 : (w.sem k).max ≠ 0 := by omega
  simp [Work.semRelease, hrun, hheld, h0, Nat.not_lt.2 hroom, hhelm, hw, Work.serveSem]

/-! ## The operations on the work taken from the port -/

theorem mark_of_helm {w w' : Work} (h : w'.hub.helm = w.hub.helm) (k : Nat) : w'.mark k = w.mark k := by unfold Work.mark; rw [h]

section
variable {v : Work} {n : Nat} {o : HlmOp}

theorem hlmApply_markAdd (hok : hlmOk 0 o = true) (hzero : (v.markAdd o.berth o.object o.value).1 = 0) :
    v.hlmApply n 0 o = (v.markAdd o.berth o.object o.value).2.notify (.site n o.tag o.berth) 0 0 := by simp [Work.hlmApply, hok, hzero]

theorem hlmApply_markWait (hok : hlmOk 1 o = true) : v.hlmApply n 1 o = v.markWait (.site n o.tag o.berth) o.berth o.object o.value := by simp [Work.hlmApply, hok]

theorem hlmApply_markRead (hok : hlmOk 2 o = true) (hheld : v.holder 2 o.object = some o.berth) :
    v.hlmApply n 2 o = (v.count 4 0 0).siteSend n (notifyBytes 0 o.tag o.berth (v.mark o.object).value) := by simp [Work.hlmApply, hok, hheld, Work.notify]

theorem hlmApply_gateArrive (hok : hlmOk 3 o = true) (hone : o.value = 1) (hzero : (v.gateArrive none o.berth o.object).1 = 0) :
    v.hlmApply n 3 o = (v.gateArrive none o.berth o.object).2.notify (.site n o.tag o.berth) 0 0 := by simp [Work.hlmApply, hok, hone, hzero]

theorem hlmApply_semAcquire (hok : hlmOk 4 o = true) : v.hlmApply n 4 o = v.semAcquire (.site n o.tag o.berth) o.berth o.object o.value := by simp [Work.hlmApply, hok]

theorem hlmApply_semRelease (hok : hlmOk 5 o = true) (hzero : (v.semRelease o.berth o.object o.value).1 = 0) :
    v.hlmApply n 5 o = (v.semRelease o.berth o.object o.value).2.notify (.site n o.tag o.berth) 0 0 := by simp [Work.hlmApply, hok, hzero]

end

theorem notify_site_helm (w : Work) (n tag b c v : Nat) : (w.notify (.site n tag b) c v).hub.helm = w.hub.helm := (siteSend_sends w n _).helm

/-! ## The obligation -/

theorem siteSend_sent (w : Work) (n : Nat) (m : List Byte) : w.hub.sent ⊆ (w.siteSend n m).hub.sent := by
  unfold Work.siteSend
  split
  · exact List.Subset.refl _
  · exact fun _ h => flush_sent (w.onLink n _) n h

theorem giveBack_sent (w : Work) (n : Nat) (c : Credits) : w.hub.sent ⊆ (w.giveBack n c).hub.sent := fun _ h => siteSend_sent (w.onSPort n _) n _ h

/-- What a work on which a site's operation acts has of the state that it came to. -/
structure HlmWork (w : Work) (n : Nat) (v : Work) : Prop where
  helm : v.hub.helm = w.hub.helm
  running : v.helmPaused = false
  holder : ∀ k i, v.holder k i = w.holder k i
  link : (v.site n).link = (w.site n).link
  up : streamUp (v.site n) = true

theorem hlmTaken_work {w : Work} {n : Nat} {o : HlmOp} (h : HlmTakes w n o) (c : Credits) (x : HeldHlm) : HlmWork w n (w.hlmTaken n c x) :=
  ⟨rfl, h.running, fun _ _ => rfl, by rw [hlmTaken_site], hlmTaken_up h.up c x⟩

/-- A command of an operation: the Helm is what the operation leaves of it, and what it sends is sent. -/
theorem does_hlm {c : Instr} {s : State} {n hop : Nat} {o : HlmOp} {P : State → Prop} (hexec : exec c s = s.run fun w => w.hlmIn n hop o) (h : HlmTakes s.work n o)
    (hP : ∀ v, HlmWork s.work n v → streamUp ((v.hlmApply n hop o).site n) = true
      ∧ ∀ t : State, t.hub.helm = (v.hlmApply n hop o).hub.helm → (v.hlmApply n hop o).hub.sent ⊆ t.hub.sent → P t) : Does c s P := by
  obtain ⟨k, x, heq⟩ := hlmIn_takes h hop
  obtain ⟨hup, hp⟩ := hP _ (hlmTaken_work h k x)
  refine does_work hexec heq (hp _ (hlmEnds_helm hup) ?_)
  have hsent : ((s.work.hlmTaken n k x).hlmApply n hop o).hub.sent ⊆ (((s.work.hlmTaken n k x).hlmApply n hop o).hlmEnds n).hub.sent := by
    rw [hlmEnds_up hup]
    exact giveBack_sent _ n _
  exact hsent

section
variable {s : State} {n : Nat} {o : HlmOp} (h : HlmTakes s.work n o)
include h

theorem does_markAdd (hok : hlmOk 0 o = true) (hheld : s.work.holder 2 o.object = some o.berth) (hsat : (s.work.mark o.object).sat = false)
    (hroom : (s.work.mark o.object).value + o.value ≤ 0xFFFFFFFF) : Does (.markAdd n o) s fun t =>
      (t.work.mark o.object).value = (s.work.mark o.object).value + o.value ∧ (t.work.mark o.object).sat = false := by
  refine does_hlm (exec_markAdd n o s) h fun v hv => ?_
  have hsame := mark_of_helm hv.helm o.object
  obtain ⟨hzero, hmark, hup⟩ := markAdd_counts (b := o.berth) hv.running ((hv.holder _ _).trans hheld) (hsame ▸ hsat) (hsame ▸ hroom)
  have hstands := notify_marksStand (v.markAdd o.berth o.object o.value).2 (.site n o.tag o.berth) 0 0
  rw [hlmApply_markAdd hok hzero]
  refine ⟨(hstands.up n).trans ((hup n).trans hv.up), fun t ht _ => ?_⟩
  have hend := (mark_of_helm (w' := t.work) ht o.object).trans ((hstands.mark _).trans hmark)
  rw [hsame] at hend
  exact ⟨congrArg Mark.value hend, (congrArg Mark.sat hend).trans hsat⟩

theorem does_markWait (hok : hlmOk 1 o = true) (hheld : s.work.holder 2 o.object = some o.berth) (hsat : (s.work.mark o.object).sat = false)
    (hbelow : (s.work.mark o.object).value < o.value) (hroom : s.hub.helm.waiters.length < 16384) : Does (.markWait n o) s fun t =>
      t.hub.helm.waiters = s.hub.helm.waiters ++ [{ party := .site n o.tag o.berth, what := .mark o.object o.value, berth := o.berth }] := by
  refine does_hlm (exec_markWait n o s) h fun v hv => ?_
  have hsame := mark_of_helm hv.helm o.object
  have hcount := count_reports v 4 0 0 1
  rw [hlmApply_markWait hok, markWait_waits (p := .site n o.tag o.berth) hv.running ((hv.holder _ _).trans hheld) (hsame ▸ hsat) (hsame ▸ hbelow)
    (Nat.lt_of_le_of_lt (Nat.le_of_eq (congrArg (fun q : HelmState => q.waiters.length) hv.helm)) hroom)]
  refine ⟨(hcount.marksStand.up n).trans hv.up, fun t ht _ => ?_⟩
  exact (congrArg HelmState.waiters ht).trans (congrArg (fun q : HelmState => q.waiters ++ _) (hcount.helm.trans hv.helm))

theorem does_markRead {k : Nat} (hok : hlmOk 2 o = true) (hheld : s.work.holder 2 o.object = some o.berth) (hidle : Idle s.work n k) : Does (.markRead n o) s fun t =>
      Out.frame n k (frameBytes 0 (s.work.bundle n k).nextBseq 0 (s.work.site n).link.txSseq (notifyBytes 0 o.tag o.berth (s.work.mark o.object).value)) ∈ t.hub.sent
      ∧ t.hub.helm = s.hub.helm := by
  refine does_hlm (exec_markRead n o s) h fun v hv => ?_
  have hcount := count_reports v 4 0 0 1
  have hlink : ((v.count 4 0 0).site n).link = (s.work.site n).link := by rw [hcount.site, hv.link]
  have hbundle (j : Nat) : (v.count 4 0 0).bundle n j = s.work.bundle n j := by unfold Work.bundle; rw [hlink]
  have hup : streamUp ((v.count 4 0 0).site n) = true := (hcount.marksStand.up n).trans hv.up
  have hready : Idle (v.count 4 0 0) n k := by
    obtain ⟨hq, hr, hl, hw, hk, ha⟩ := hidle
    exact ⟨by rw [hlink, hq], by rw [hlink, hr], by rw [hlink, hl], by rw [hlink, hw], by rw [hlink, hk], by rw [hbundle, ha]⟩
  have hlen (z : Nat) : (notifyBytes 0 o.tag o.berth z).length = 16 := leBytes_length 16 _
  have hframe := siteSend_idle (m := notifyBytes 0 o.tag o.berth (v.mark o.object).value) hup hready (List.ne_nil_of_length_pos (by rw [hlen]; decide)) (by rw [hlen]; decide)
  have hsends := siteSend_sends (v.count 4 0 0) n (notifyBytes 0 o.tag o.berth (v.mark o.object).value)
  rw [hlmApply_markRead hok ((hv.holder _ _).trans hheld)]
  rw [hbundle, hlink] at hframe
  refine ⟨(hsends.streamUp n).trans hup, fun t ht hsent => ⟨?_, ht.trans (hsends.helm.trans (hcount.helm.trans hv.helm))⟩⟩
  rw [← mark_of_helm hv.helm]
  exact hsent hframe

theorem does_gateArrive (hok : hlmOk 3 o = true) (hone : o.value = 1) (hheld : s.work.holder 3 o.object = some o.berth) (hb : (s.work.gate o.object).broken = false)
    (hsent : (s.work.gate o.object).sentArrive = false) (hroom : (s.work.gate o.object).count + 1 < (s.work.gate o.object).parties) : Does (.gateArrive n o) s fun t =>
      (t.work.gate o.object).count = (s.work.gate o.object).count + 1 ∧ (t.work.gate o.object).gen = (s.work.gate o.object).gen := by
  refine does_hlm (exec_gateArrive n o s) h fun v hv => ?_
  have hsame := gate_of_helm hv.helm o.object
  obtain ⟨hzero, hcount, hgen, hup⟩ := gateArrive_counts (b := o.berth) hv.running ((hv.holder _ _).trans hheld) (hsame ▸ hb) (hsame ▸ hsent) (hsame ▸ hroom)
  rw [hlmApply_gateArrive hok hone hzero]
  refine ⟨((notify_marksStand _ _ 0 0).up n).trans ((hup n).trans hv.up), fun t ht _ => ?_⟩
  have hend := gate_of_helm (w' := t.work) (ht.trans (notify_site_helm _ n o.tag o.berth 0 0)) o.object
  rw [hend, hcount, hgen, hsame]
  exact ⟨rfl, rfl⟩

theorem does_semAcquire (hok : hlmOk 4 o = true) (hheld : s.work.holder 4 o.object = some o.berth) (hpos : 0 < o.value) (hthere : o.value ≤ (s.work.sem o.object).count)
    (hmax : (s.work.sem o.object).count ≤ (s.work.sem o.object).max) (hw : s.hub.helm.waiters = []) : Does (.semAcquire n o) s fun t =>
      (t.work.sem o.object).count = (s.work.sem o.object).count - o.value := by
  refine does_hlm (exec_semAcquire n o s) h fun v hv => ?_
  have hsame := sem_of_helm hv.helm o.object
  have hcount := count_reports v 4 0 2 1
  rw [hlmApply_semAcquire hok, semAcquire_takes (p := .site n o.tag o.berth) ((hv.holder _ _).trans hheld) hpos (hsame ▸ hthere) (hsame ▸ hmax) (hv.helm ▸ hw)]
  refine ⟨((notify_marksStand _ _ 0 0).up n).trans ((hcount.marksStand.up n).trans hv.up), fun t ht _ => ?_⟩
  rw [sem_of_helm (w' := t.work) (ht.trans (notify_site_helm _ n o.tag o.berth 0 0)) o.object, sem_onSem, sem_of_helm hcount.helm, hsame]

theorem does_semRelease (hok : hlmOk 5 o = true) (hheld : s.work.holder 4 o.object = some o.berth) (hmax : 0 < (s.work.sem o.object).max)
    (hroom : (s.work.sem o.object).count + o.value ≤ (s.work.sem o.object).max) (hw : s.hub.helm.waiters = []) : Does (.semRelease n o) s fun t =>
      (t.work.sem o.object).count = (s.work.sem o.object).count + o.value := by
  refine does_hlm (exec_semRelease n o s) h fun v hv => ?_
  have hsame := sem_of_helm hv.helm o.object
  have hcount := count_reports v 4 0 2 1
  have hgives := semRelease_gives (b := o.berth) hv.running ((hv.holder _ _).trans hheld) (hsame ▸ hmax) (hsame ▸ hroom) (hv.helm ▸ hw)
  rw [hlmApply_semRelease hok (by rw [hgives]), hgives]
  refine ⟨((notify_marksStand _ _ 0 0).up n).trans ((hcount.marksStand.up n).trans hv.up), fun t ht _ => ?_⟩
  rw [sem_of_helm (w' := t.work) (ht.trans (notify_site_helm _ n o.tag o.berth 0 0)) o.object, sem_onSem, sem_of_helm hcount.helm, hsame]
  exact Nat.min_eq_right hroom

end

theorem exec_eventWirePulse (n wire : Nat) (s : State) : exec (.eventWirePulse n wire) s = s.run fun w =>
    match (if helmLive (w.site n) then tfind w.hub.helm.bindings (n * 64 + wire) else none) with
    | none => w.count 4 0 17
    | some b =>
      match b.action with
      | 1 => (w.markAdd b.berth b.object 1).2
      | 2 => (w.gateArrive none b.berth b.object).2
      | 3 => (w.semRelease b.berth b.object 1).2
      | _ => w.count 4 0 17 := rfl

theorem exec_outboundPulse (n wire : Nat) (s : State) : exec (.outboundPulse n wire) s = s.run fun w =>
    match tfind w.hub.helm.bindings (n * 64 + 32 + wire) with
    | none => w
    | some b =>
      if b.owed = 0 || !helmLive (w.site n) then w
      else (w.onHelm fun h => { h with bindings := tset h.bindings (n * 64 + 32 + wire) { b with owed := b.owed - 1 } }).sitePin (.eventWire n wire) true := rfl

/-- Settles O13: an operation is taken at once and acts on its object's record, which the answer and the credit leave alone; a pulse acts through its binding. -/
theorem siteHelm : Obligations.SiteHelm := by
  unfold Obligations.SiteHelm
  intro takes
  have htakes {s : State} {n : Nat} {o : HlmOp} : takes s n o → HlmTakes s.work n o := fun ⟨hup, hinit, hhelm, hcredit, hheld, hrun, hrel⟩ => ⟨hup, hinit, hhelm, hcredit, hheld, hrun, hrel⟩
  refine ⟨fun s n o h => does_markAdd (htakes h), fun s n o h => does_markWait (htakes h), ?read, fun s n o h => does_gateArrive (htakes h),
    fun s n o h => does_semAcquire (htakes h), fun s n o h => does_semRelease (htakes h), ?pulse, ?outbound⟩
  case read => exact fun s n o k h hok hheld _ hq hr hl hw hk ha => does_markRead (htakes h) hok hheld ⟨hq, hr, hl, hw, hk, ha⟩
  case pulse =>
    intro s n wire b hlive hb hact hrun hheld hsat hroom
    have hbinding : (if helmLive (s.work.site n) then tfind s.work.hub.helm.bindings (n * 64 + wire) else none) = some b := by rw [if_pos hlive]; exact hb
    obtain ⟨_, hmark, _⟩ := markAdd_counts (v := 1) hrun hheld hsat hroom
    refine does_work (exec_eventWirePulse n wire s) (w := (s.work.markAdd b.berth b.object 1).2) ?_ (congrArg Mark.value hmark)
    simp only [hbinding, hact]
  case outbound =>
    intro s n wire b hlive hb howed
    have hne : b.owed ≠ 0 := by omega
    refine does_work (exec_outboundPulse n wire s)
      (w := (s.work.onHelm fun h => { h with bindings := tset h.bindings (n * 64 + 32 + wire) { b with owed := b.owed - 1 } }).sitePin (.eventWire n wire) true) ?_ ?_
    · have hfind : tfind s.work.hub.helm.bindings (n * 64 + 32 + wire) = some b := hb
      simp only [hfind, hne, hlive, decide_false, Bool.not_true, Bool.or_self, Bool.false_eq_true, if_false]
    · exact ⟨tfind_tset_self _ _ _, rfl, rfl, rfl, rfl⟩

end Sys2Proof.Machine
end

section
/-! PROOFS. Board memory channels (R306-R309, R317, R324, R325, R601). -/

namespace Sys2Proof.Machine

/-! ## What notices leave of the memory units -/

theorem notify_memory (w : Work) (p : Party) (c v : Nat) : (w.notify p c v).hub.memory = w.hub.memory := by
  cases p with
  | site n tag b =>
    have e := congrArg Hub.memory (siteSend_sends w n (notifyBytes (if c = 0 then 0 else 9) tag b v)).hub
    exact e
  | wright x => rfl
  | launch x => rfl
  | entry b r i => rfl

theorem spillOut_memory (w : Work) (l : List SpillRead) : (w.spillOut l).hub.memory = w.hub.memory := by
  induction l generalizing w with
  | nil => rfl
  | cons x l ih =>
    unfold Work.spillOut
    split
    · rw [ih, notify_memory]
    · rfl

/-- Waiters whose spilled entries are lost are told; the memory units stand (R262). -/
theorem spillLost_memory (w : Work) (lost : Nat → Bool) : (w.spillLost lost).hub.memory = w.hub.memory := by
  unfold Work.spillLost
  dsimp only
  refine (each_same (fun v : Work => v.hub.memory) _ _ _ fun x v => ?_).trans ((spillOut_memory _ _).trans rfl)
  exact ((helmError_reports _ _ _ _).memory).trans (notify_memory v _ _ _)

theorem derate_memory (w : Work) : w.derate.hub.memory = w.hub.memory := by rw [(derate_regulates w).hub]

theorem viewCounts_memory (l : List Nat) (i : Nat) (w : Work) : (each l (fun b w => w.viewCount b i) w).hub.memory = w.hub.memory :=
  each_same (fun v : Work => v.hub.memory) _ _ _ fun _ _ => rfl

/-! ## A channel fails -/

/-- The record of a channel that is isolated. -/
def channelIsolated (x : Channel) : Channel := { x with isolated := true, retraining := false, draining := false }

theorem channel_of_memory {w w' : Work} (h : w'.hub.memory = w.hub.memory) (c : Nat) : w'.channel c = w.channel c := by unfold Work.channel; rw [h]

/-- A channel that serves is isolated as it fails; with no line in the Hold nothing else of the memory units changes (R601). -/
theorem channelFail_memory {w : Work} {c : Nat} (hc : c < 128) (hs : channelServes (w.channel c) = true) (hh : w.hub.memory.hold = []) :
    (w.channelFail c).hub.memory = (w.onChannel c channelIsolated).hub.memory := by
  have hhold : ((w.onChannel c fun x => { x with isolated := true, retraining := false, draining := false }).hub.memory.hold.filter fun l => channelOf (l.granule * 256) = c) = [] := by
    have : (w.onChannel c fun x => { x with isolated := true, retraining := false, draining := false }).hub.memory.hold = [] := hh
    rw [this]
    rfl
  unfold Work.channelFail
  simp only [Nat.not_le.2 hc, hs, decide_false, Bool.not_true, Bool.or_self, Bool.false_eq_true, if_false, hhold, each_nil]
  refine (derate_memory _).trans ((spillLost_memory _ _).trans ((irqs_reports _ _ _).memory.trans ?_))
  exact (viewCounts_memory _ _ _).trans (log_reports _ _).memory

theorem channelFail_channel {w : Work} {c : Nat} (hc : c < 128) (hs : channelServes (w.channel c) = true) (hh : w.hub.memory.hold = []) :
    (w.channelFail c).channel c = channelIsolated (w.channel c) :=
  (channel_of_memory (channelFail_memory hc hs hh) c).trans (channel_onChannel w c channelIsolated)

theorem channelFail_channel_ne {w : Work} {c d : Nat} (hc : c < 128) (hs : channelServes (w.channel c) = true) (hh : w.hub.memory.hold = []) (hd : d ≠ c) :
    (w.channelFail c).channel d = w.channel d :=
  (channel_of_memory (channelFail_memory hc hs hh) d).trans (channel_onChannel_ne w channelIsolated hd)

/-! ## The place of a granule -/

/-- The fields of the place of a granule: its low seven bits, and above them its number (R309). -/
theorem granule_bits {k low : Nat} (hlow : low < 128) (hk : k < 2 ^ 15) :
    bits (k * 128 + low) 6 0 = low ∧ bits (k * 128 + low) 13 7 = bits k 6 0 ∧ bits (k * 128 + low) 20 14 = bits k 13 7 ∧ bits (k * 128 + low) 21 21 = bits k 14 14 := by
  unfold bits
  simp only [Nat.reducePow, Nat.reduceAdd, Nat.reduceSub]
  omega

/-- Granule k of a channel's share of a region lies on that channel: the XOR of its place undoes that of its number (R309). -/
theorem channelOf_granuleAt (r : Nat) {c k : Nat} (hc : c < 128) (hk : k < 2 ^ 15) : channelOf (granuleAt r c k * 256) = c := by
  have hlow : c ^^^ bits k 6 0 ^^^ bits k 13 7 ^^^ bits k 14 14 < 2 ^ 7 := by
    refine Nat.xor_lt_two_pow (Nat.xor_lt_two_pow (Nat.xor_lt_two_pow hc ?_) ?_) ?_
    · exact Nat.mod_lt _ (by decide)
    · exact Nat.mod_lt _ (by decide)
    · exact Nat.lt_of_lt_of_le (Nat.mod_lt _ (by decide)) (by decide)
  have hplace : granuleAt r c k * 256 % 2 ^ 30 / 256 = k * 128 + (c ^^^ bits k 6 0 ^^^ bits k 13 7 ^^^ bits k 14 14) := by
    unfold granuleAt
    generalize c ^^^ bits k 6 0 ^^^ bits k 13 7 ^^^ bits k 14 14 = low at hlow
    omega
  obtain ⟨h0, h7, h14, h21⟩ := granule_bits hlow hk
  unfold channelOf
  simp only [hplace, h0, h7, h14, h21]
  generalize bits k 6 0 = x
  generalize bits k 13 7 = y
  generalize bits k 14 14 = z
  refine Nat.eq_of_testBit_eq fun i => ?_
  simp only [Nat.testBit_xor]
  cases c.testBit i <;> cases x.testBit i <;> cases y.testBit i <;> cases z.testBit i <;> rfl

/-! ## A retrain -/

/-- The record of a channel that has trained at a rate. -/
def channelTrained (r : Nat) (x : Channel) : Channel := { x with retraining := false, rate := r }

/-- A channel trained at a rate; one below the rate of the others is reported (R307). -/
def Work.rateTaken (w : Work) (c r : Nat) : Work :=
  if r < w.hub.memory.rateRun then (w.onChannel c (channelTrained r)).log { cls := 0x0A, sev := 1, cause := 0x8015, unit := c, detail := r } else w.onChannel c (channelTrained r)

theorem rateTaken_reports (w : Work) (c r : Nat) : Reports (w.onChannel c (channelTrained r)) (w.rateTaken c r) := by
  unfold Work.rateTaken
  split
  · exact log_reports _ _
  · exact .refl _

/-- The hub without its memory units and regulation. -/
def offMemory (h : Hub) : Hub := { h with memory := {}, bwr := {} }

theorem Regulates.offMemory {w w' : Work} (h : Regulates w w') : Same offMemory w w' := by
  unfold Same
  rw [h.hub]
  rfl

theorem rateTaken_same (w : Work) (c r : Nat) : Same offMemory w (w.rateTaken c r).derate :=
  Same.trans (b := w.onChannel c (channelTrained r)) rfl (((rateTaken_reports w c r).same _).trans (derate_regulates _).offMemory)

theorem rateTaken_memory (w : Work) (c r : Nat) : (w.rateTaken c r).derate.hub.memory = (w.onChannel c (channelTrained r)).hub.memory :=
  (derate_memory _).trans (rateTaken_reports w c r).memory

theorem within_memory {s : State} {w : Work} (h : Same offMemory s.work w) : Within s (s.commit w) fun h => { h with memory := w.hub.memory, bwr := w.hub.bwr } :=
  ⟨rfl, congrArg (fun q : Hub => { q with memory := w.hub.memory, bwr := w.hub.bwr }) h⟩

/-! ## The obligation -/

theorem exec_readAgeing (id : Nat) (s : State) : exec (.readAgeing id) s = s.run fun w =>
    match tfind w.hub.fabric.reqs id with
    | none => w
    | some r =>
      if r.queued.isNone || !isRead r || 2 ≤ r.prio then w
      else w.onFabric fun f => { f with reqs := tset f.reqs id { r with prio := r.prio + 1 } } := rfl

theorem exec_channelFailure (c : Nat) (s : State) : exec (.channelFailure c) s = s.run fun w => w.channelFail c := rfl

theorem exec_refresh (c g : Nat) (s : State) : exec (.refresh c g) s = s.run fun w =>
    if c < 128 && channelServes (w.channel c) then w.count 7 c (13 + w.refreshBin c g) else w := rfl

theorem exec_deviceTemperatureReport (c temp : Nat) (s : State) : exec (.deviceTemperatureReport c temp) s = s.run fun w =>
    w.onChannel c fun x => { x with temp := temp, base1 := x.base1 || w.hub.memory.rfshTlimit < temp || x.testTemp + 5 < temp } := rfl

theorem exec_temperatureRecovery (c : Nat) (s : State) : exec (.temperatureRecovery c) s = s.run fun w =>
    if (w.channel c).temp + 3 ≤ min w.hub.memory.rfshTlimit ((w.channel c).testTemp + 5) then w.onChannel c fun x => { x with base1 := false } else w := rfl

theorem exec_channelRetrainDone (c : Nat) (ok : Bool) (rate : Nat) (s : State) : exec (.channelRetrainDone c ok rate) s = s.run fun w =>
    if !(w.channel c).retraining then w
    else match (if ok then trainedRate w.hub.memory.rateRun rate else none) with
    | none => w.channelFail c
    | some r => (w.rateTaken c r).derate := rfl

/-- Settles O35: each channel command's change of its record, and the place of a granule. -/
theorem channels : Obligations.Channels := by
  unfold Obligations.Channels
  refine ⟨?ageing, ?fails, ?trains, ?unTrained, fun r c k hc hk => channelOf_granuleAt r hc hk, ?refresh, ?hot, ?recovers⟩
  case ageing =>
    intro s id r hid hq hread hprio
    refine does_work (exec_readAgeing id s) (w := s.work.onFabric fun f => { f with reqs := tset f.reqs id { r with prio := r.prio + 1 } }) ?_ ?_
    · have hfind : tfind s.work.hub.fabric.reqs id = some r := hid
      have hsome : r.queued.isNone = false := by rw [Option.isNone_eq_false_iff]; exact hq
      simp only [hfind, hsome, hread, Nat.not_le.2 hprio, decide_false, Bool.not_true, Bool.or_self, Bool.false_eq_true, if_false]
    · exact ⟨tfind_tset_self _ _ _, rfl, rfl, rfl⟩
  case fails =>
    intro s c hc hs hh _
    exact does_work (exec_channelFailure c s) rfl ⟨channelFail_channel hc hs hh, fun d hd => channelFail_channel_ne hc hs hh hd⟩
  case trains =>
    intro s c rate r hr ht
    have htrained : trainedRate s.work.hub.memory.rateRun rate = some r := ht
    refine does_work (exec_channelRetrainDone c true rate s) (w := (s.work.rateTaken c r).derate) ?_ ?_
    · simp only [hr, htrained, if_true, Bool.not_true, Bool.false_eq_true, if_false]
    · have hmem := rateTaken_memory s.work c r
      have hsame := rateTaken_same s.work c r
      generalize (s.work.rateTaken c r).derate = v at hmem hsame
      exact ⟨(channel_of_memory hmem c).trans (channel_onChannel _ _ _), fun d hd => (channel_of_memory hmem d).trans (channel_onChannel_ne _ _ hd), within_memory hsame⟩
  case unTrained =>
    intro s c ok rate hc hr hs hno hh _
    have hnone : (if ok then trainedRate s.work.hub.memory.rateRun rate else none) = none := by
      rcases hno with rfl | hno
      · rfl
      · exact (ite_congr rfl (fun _ => hno) fun _ => rfl).trans (ite_self _)
    refine does_work (exec_channelRetrainDone c ok rate s) (w := s.work.channelFail c) ?_ (channelFail_channel hc hs hh)
    simp only [hr, hnone, Bool.not_true, Bool.false_eq_true, if_false]
  case refresh =>
    intro s c g
    refine does_work (exec_refresh c g s) rfl ?_
    split
    · exact ⟨commit_mem_of_sameMem (count_mem s.work _ _ _ _), rfl, count_reports s.work _ _ _ _⟩
    · exact ⟨rfl, rfl, rfl⟩
  case hot =>
    intro s c temp
    refine does_work (exec_deviceTemperatureReport c temp s) rfl ?_
    exact ⟨channel_onChannel _ _ _, rfl, rfl, rfl⟩
  case recovers =>
    intro s c hlimit htest
    refine does_work (exec_temperatureRecovery c s) (if_pos (Nat.le_min.2 ⟨hlimit, by omega⟩)) ?_
    exact ⟨channel_onChannel _ _ _, rfl, rfl, rfl⟩

end Sys2Proof.Machine
end

section
/-! PROOFS. Links and networks of the fabric (R275, R276, R280, R297). -/

namespace Sys2Proof.Machine

/-! ## A flit is checked -/

/-- The hub without its fabric and free values. -/
def offFabric (h : Hub) : Hub := { h with fabric := {}, free := 0 }

theorem within_fabric {s : State} {w : Work} (h : Same offFabric s.work w) : Within s (s.commit w) fun h => { h with fabric := w.hub.fabric, free := w.hub.free } :=
  ⟨rfl, congrArg (fun q : Hub => { q with fabric := w.hub.fabric, free := w.hub.free }) h⟩

theorem fresh_same (w : Work) : Same offFabric w w.fresh.2 := rfl
theorem fresh_fabric (w : Work) : w.fresh.2.hub.fabric = w.hub.fabric := rfl

/-- The flit that was due has left the buffers that held it. -/
def Work.flitTaken (w : Work) (l dir : Nat) : Work := if (w.flitDue l dir).isSome then w.onFabric fun f => takeFlit f l dir else w

/-- A flit counted in the network's stall counters. -/
def Work.flitCounted (w : Work) (l dir vn : Nat) : Work := (w.flitTaken l dir).fresh.2.count 5 (2 * l + dir) (5 + vn) (w.fresh.1 % 2 ^ 48)

theorem flitTaken_same (w : Work) (l dir : Nat) : Same offFabric w (w.flitTaken l dir) := by
  unfold Work.flitTaken
  split <;> rfl

theorem flitCounted_same (w : Work) (l dir vn : Nat) : Same offFabric w (w.flitCounted l dir vn) :=
  (flitTaken_same w l dir).trans (Same.trans (b := (w.flitTaken l dir).fresh.2) rfl ((count_reports _ _ _ _ _).same _))

theorem flitCounted_fabric (w : Work) (l dir vn : Nat) : (w.flitCounted l dir vn).hub.fabric = (w.flitTaken l dir).hub.fabric :=
  (count_reports _ _ _ _ _).fabric

/-- A flit that its link may carry now. -/
structure FlitGoes (w : Work) (l dir vn : Nat) : Prop where
  link : l < 303
  direction : dir < 2
  network : vn < 5
  present : l ∉ w.hub.fabric.linksOut
  due : (w.flitDue l dir).any (· ≠ vn) = false

theorem FlitGoes.starts {w : Work} {l dir vn : Nat} (h : FlitGoes w l dir vn) : (303 ≤ l || 2 ≤ dir || 5 ≤ vn || l ∈ w.hub.fabric.linksOut || (w.flitDue l dir).any (· ≠ vn)) = false := by
  obtain ⟨hl, hd, hv, hout, hdue⟩ := h
  rw [hdue]
  simp [hout]
  omega

/-- The good end of a flit: the row of failures of its direction is over (R280). -/
def Work.flitGood (w : Work) (l dir vn quality : Nat) : Work :=
  let w := (w.count 5 (2 * l + dir) vn).onFabric fun f => { f with failRow := tdel f.failRow (2 * l + dir) }
  if quality = 1 then w.count 5 (2 * l + dir) 10 else w

/-- The record of a flit that failed its check. -/
def flitRefused (now l dir vn : Nat) (f : Fabric) : Fabric :=
  { f with failRow := tset f.failRow (2 * l + dir) (tget 0 f.failRow (2 * l + dir) + 1)
           failTimes := tset f.failTimes (2 * l + dir) (now :: recent now 1000 (tget [] f.failTimes (2 * l + dir)))
           retry := tset f.retry (2 * l + dir) vn }

theorem flit_good {w : Work} {l dir vn q : Nat} (h : FlitGoes w l dir vn) (hq : q < 2) : w.flit l dir vn q = (w.flitCounted l dir vn).flitGood l dir vn q := by
  unfold Work.flit
  dsimp only
  rw [h.starts, if_neg Bool.false_ne_true, if_pos hq]
  rfl

/-- A flit that fails its check is counted and stays in the retry buffer; past its bounds the link goes out. -/
theorem flit_bad {w : Work} {l dir vn : Nat} (h : FlitGoes w l dir vn) : w.flit l dir vn 2 =
    if 16 ≤ tget 0 (w.flitCounted l dir vn).hub.fabric.failRow (2 * l + dir) + 1
        || 1000 < ((w.flitCounted l dir vn).now :: recent (w.flitCounted l dir vn).now 1000 (tget [] (w.flitCounted l dir vn).hub.fabric.failTimes (2 * l + dir))).length then
      (((w.flitCounted l dir vn).count 5 (2 * l + dir) 11).onFabric (flitRefused (w.flitCounted l dir vn).now l dir vn)).linkOut l
    else ((w.flitCounted l dir vn).count 5 (2 * l + dir) 11).onFabric (flitRefused (w.flitCounted l dir vn).now l dir vn) := by
  have hfabric : ((w.flitCounted l dir vn).count 5 (2 * l + dir) 11).hub.fabric = (w.flitCounted l dir vn).hub.fabric := (count_reports _ _ _ _ _).fabric
  have hrecord : ((w.flitCounted l dir vn).count 5 (2 * l + dir) 11).onFabric (flitRefused (w.flitCounted l dir vn).now l dir vn)
      = ((w.flitCounted l dir vn).count 5 (2 * l + dir) 11).onFabric fun f =>
        { f with failRow := tset f.failRow (2 * l + dir) (tget 0 (w.flitCounted l dir vn).hub.fabric.failRow (2 * l + dir) + 1)
                 failTimes := tset f.failTimes (2 * l + dir) ((w.flitCounted l dir vn).now :: recent (w.flitCounted l dir vn).now 1000 (tget [] (w.flitCounted l dir vn).hub.fabric.failTimes (2 * l + dir)))
                 retry := tset f.retry (2 * l + dir) vn } := by
    unfold Work.onFabric Work.onHub flitRefused
    dsimp only
    rw [hfabric]
  rw [hrecord]
  unfold Work.flit
  dsimp only
  rw [h.starts, if_neg Bool.false_ne_true, if_neg (by decide)]
  rfl

/-! ## What a flit leaves of the fabric's record -/

theorem flitTaken_none {w : Work} {l dir : Nat} (h : w.flitDue l dir = none) : w.flitTaken l dir = w := by simp [Work.flitTaken, h]
theorem flitTaken_some {w : Work} {l dir v : Nat} (h : w.flitDue l dir = some v) : w.flitTaken l dir = w.onFabric fun f => takeFlit f l dir := by simp [Work.flitTaken, h]

theorem takeFlit_keeps (f : Fabric) (l dir : Nat) :
    (takeFlit f l dir).failRow = f.failRow ∧ (takeFlit f l dir).failTimes = f.failTimes ∧ (takeFlit f l dir).linksOut = f.linksOut := by
  unfold takeFlit
  split <;> exact ⟨rfl, rfl, rfl⟩

/-- A flit that is due leaves the failures and the links out as they were. -/
theorem flitCounted_keeps (w : Work) (l dir vn : Nat) : (w.flitCounted l dir vn).hub.fabric.failRow = w.hub.fabric.failRow
    ∧ (w.flitCounted l dir vn).hub.fabric.failTimes = w.hub.fabric.failTimes ∧ (w.flitCounted l dir vn).hub.fabric.linksOut = w.hub.fabric.linksOut := by
  rw [flitCounted_fabric]
  unfold Work.flitTaken
  split
  · exact takeFlit_keeps _ _ _
  · exact ⟨rfl, rfl, rfl⟩

theorem flitCounted_now (w : Work) (l dir vn : Nat) : (w.flitCounted l dir vn).now = w.now := by
  have h := congrArg Hub.now (flitCounted_same w l dir vn)
  exact h

theorem flitGood_fabric (w : Work) (l dir vn q : Nat) : (w.flitGood l dir vn q).hub.fabric = { w.hub.fabric with failRow := tdel w.hub.fabric.failRow (2 * l + dir) } := by
  have hcount : ((w.count 5 (2 * l + dir) vn).onFabric fun f => { f with failRow := tdel f.failRow (2 * l + dir) }).hub.fabric
      = { w.hub.fabric with failRow := tdel w.hub.fabric.failRow (2 * l + dir) } := congrArg (fun f : Fabric => { f with failRow := tdel f.failRow (2 * l + dir) }) (count_reports w _ _ _ _).fabric
  unfold Work.flitGood
  dsimp only
  split
  · exact (count_reports _ _ _ _ _).fabric.trans hcount
  · exact hcount

theorem flitGood_same (w : Work) (l dir vn q : Nat) : Same offFabric w (w.flitGood l dir vn q) := by
  have hcount : Same offFabric w ((w.count 5 (2 * l + dir) vn).onFabric fun f => { f with failRow := tdel f.failRow (2 * l + dir) }) := ((count_reports w _ _ _ _).same _).trans rfl
  unfold Work.flitGood
  dsimp only
  split
  · exact hcount.trans ((count_reports _ _ _ _ _).same _)
  · exact hcount

/-- A link taken out is one of those out, and the flits of its retry buffers go first among those that its bundle resends (R280). -/
theorem linkOut_fabric (w : Work) (l : Nat) : (w.linkOut l).hub.fabric.linksOut = addTo w.hub.fabric.linksOut l
    ∧ (w.linkOut l).hub.fabric.resend = tmod [] (tmod [] w.hub.fabric.resend (2 * bundleOf l) fun x => (tfind w.hub.fabric.retry (2 * l + 0)).toList ++ x) (2 * bundleOf l + 1)
        fun x => (tfind w.hub.fabric.retry (2 * l + 1)).toList ++ x := by
  have hlog (v : Work) (e : LogEvent) : (v.log e).hub.fabric = v.hub.fabric := (log_reports v e).fabric
  have hderate (v : Work) : v.derate.hub.fabric = v.hub.fabric := by rw [(derate_regulates v).hub]
  unfold Work.linkOut
  dsimp only
  rw [hderate]
  split
  · rw [hlog]
    exact ⟨congrArg Fabric.linksOut (hlog _ _), congrArg Fabric.resend (hlog _ _)⟩
  · rw [hlog]
    exact ⟨rfl, rfl⟩

/-- The first flit that the bundle of a link taken out resends is the one of the link's retry buffer. -/
theorem linkOut_resends {w : Work} {l dir v : Nat} (hd : dir < 2) (h : tfind w.hub.fabric.retry (2 * l + dir) = some v) :
    (tget [] (w.linkOut l).hub.fabric.resend (2 * bundleOf l + dir)).head? = some v := by
  rw [(linkOut_fabric w l).2]
  obtain rfl | rfl : dir = 0 ∨ dir = 1 := by omega
  · rw [tget_tmod_ne _ _ _ (by omega), h, Nat.add_zero, tget_tmod_self]
    rfl
  · rw [tget_tmod_self, h]
    rfl

/-! ## The obligation -/

theorem exec_fabricFlit (l d v q : Nat) (s : State) : exec (.fabricFlit l d v q) s = s.run fun w => w.flit l d v q := rfl

theorem exec_routingReformationDone (s : State) : exec .routingReformationDone s = s.run fun w =>
    if w.hub.fabric.heldFrom.isNone then w
    else (w.writeRoutes.onFabric fun f => { f with heldFrom := none, resend := f.resend.filter fun (k, _) => k / 2 ∉ w.lostBundles }).log { cls := 7, sev := 0, cause := 0x8010 } := rfl

/-- A message of a network is among those in flight that have been served as priority 3. -/
def Work.ageNoted (w : Work) (id : Nat) : Work := w.onFabric fun f => { f with aged := addTo f.aged id }

theorem exec_arbiterAgeing (vn id : Nat) (s : State) : exec (.arbiterAgeing vn id) s = s.run fun w =>
    match vn with
    | 0 => if (tfind w.hub.fabric.reqs id).isSome then w.onFabric fun f => { f with reqs := tmod {} f.reqs id fun r => { r with aged := true } } else w
    | 1 => w.ageSnoop id
    | 2 => if (match tfind w.hub.fabric.rsps id with | some r => !r.read | none => false) then w.ageNoted id else w
    | 3 => if (match tfind w.hub.fabric.rsps id with | some r => r.read | none => false) then w.ageNoted id else w
    | 4 => if (tfind w.hub.fabric.toks id).isSome then w.ageNoted id else w
    | _ => w := rfl

/-- A good flit ends the row of failures of its link's direction (R280). -/
theorem does_goodFlit {s : State} {l d v q : Nat} (h : FlitGoes s.work l d v) (hq : q < 2) : Does (.fabricFlit l d v q) s fun t =>
    t.hub.fabric = { (s.work.flitTaken l d).hub.fabric with failRow := tdel s.hub.fabric.failRow (2 * l + d) } ∧ Within s t (fun h => { h with fabric := t.hub.fabric, free := t.hub.free }) := by
  refine does_work (exec_fabricFlit l d v q s) (flit_good h hq) ?_
  refine ⟨(flitGood_fabric _ l d v q).trans ?_, within_fabric ((flitCounted_same s.work l d v).trans (flitGood_same _ l d v q))⟩
  rw [(flitCounted_keeps s.work l d v).1, flitCounted_fabric]
  rfl

/-- A flit that fails its check within the bounds is counted and stands in the retry buffer (R280, R297). -/
theorem does_badFlit {s : State} {l d v : Nat} (h : FlitGoes s.work l d v) (hrow : tget 0 s.hub.fabric.failRow (2 * l + d) + 1 < 16)
    (htimes : (recent s.work.now 1000 (tget [] s.hub.fabric.failTimes (2 * l + d))).length < 1000) : Does (.fabricFlit l d v 2) s fun t =>
      tget 0 t.hub.fabric.failRow (2 * l + d) = tget 0 s.hub.fabric.failRow (2 * l + d) + 1 ∧ tfind t.hub.fabric.retry (2 * l + d) = some v
      ∧ t.hub.fabric.linksOut = s.hub.fabric.linksOut ∧ Within s t (fun h => { h with fabric := t.hub.fabric, free := t.hub.free }) := by
  obtain ⟨hfail, htime, hlinks⟩ := flitCounted_keeps s.work l d v
  have hcount := count_reports (s.work.flitCounted l d v) 5 (2 * l + d) 11 1
  have hfabric : (((s.work.flitCounted l d v).count 5 (2 * l + d) 11).onFabric (flitRefused (s.work.flitCounted l d v).now l d v)).hub.fabric
      = flitRefused (s.work.flitCounted l d v).now l d v (s.work.flitCounted l d v).hub.fabric := congrArg (flitRefused _ l d v) hcount.fabric
  refine does_work (exec_fabricFlit l d v 2 s) ((flit_bad h).trans (if_neg ?_)) ?_
  · rw [hfail, htime, flitCounted_now]
    have h1 : ¬ 16 ≤ tget 0 s.work.hub.fabric.failRow (2 * l + d) + 1 := Nat.not_le.2 hrow
    have h2 : ¬ 1000 < (s.work.now :: recent s.work.now 1000 (tget [] s.work.hub.fabric.failTimes (2 * l + d))).length := Nat.not_lt.2 htimes
    simp only [h1, h2, decide_false, Bool.or_self, Bool.false_eq_true, not_false_eq_true]
  · refine ⟨?_, ?_, (congrArg Fabric.linksOut hfabric).trans hlinks, within_fabric ((flitCounted_same s.work l d v).trans ((hcount.same _).trans rfl))⟩
    · refine (congrArg (fun f : Fabric => tget 0 f.failRow (2 * l + d)) hfabric).trans ((tget_tset_self _ _ _ _).trans ?_)
      rw [hfail]
      rfl
    · exact (congrArg (fun f : Fabric => tfind f.retry (2 * l + d)) hfabric).trans (tfind_tset_self _ _ _)

/-- The sixteenth failure in a row takes the link out, its flit first among those that its bundle resends (R280). -/
theorem does_lastFlit {s : State} {l d v : Nat} (h : FlitGoes s.work l d v) (hrow : 15 ≤ tget 0 s.hub.fabric.failRow (2 * l + d)) : Does (.fabricFlit l d v 2) s fun t =>
    l ∈ t.hub.fabric.linksOut ∧ (tget [] t.hub.fabric.resend (2 * bundleOf l + d)).head? = some v := by
  have hcount := count_reports (s.work.flitCounted l d v) 5 (2 * l + d) 11 1
  refine does_work (exec_fabricFlit l d v 2 s) ((flit_bad h).trans (if_pos ?_)) ?_
  · rw [(flitCounted_keeps s.work l d v).1]
    have h1 : 16 ≤ tget 0 s.work.hub.fabric.failRow (2 * l + d) + 1 := Nat.succ_le_succ hrow
    simp only [h1, decide_true, Bool.true_or]
  · have hout := (linkOut_fabric (((s.work.flitCounted l d v).count 5 (2 * l + d) 11).onFabric (flitRefused (s.work.flitCounted l d v).now l d v)) l).1
    have hfirst := linkOut_resends (w := ((s.work.flitCounted l d v).count 5 (2 * l + d) 11).onFabric (flitRefused (s.work.flitCounted l d v).now l d v)) (l := l) (v := v)
      h.direction (tfind_tset_self _ _ _)
    generalize (((s.work.flitCounted l d v).count 5 (2 * l + d) 11).onFabric (flitRefused (s.work.flitCounted l d v).now l d v)).linkOut l = x at hout hfirst
    have hin : l ∈ x.hub.fabric.linksOut := by
      rw [hout]
      exact (mem_addTo _ _ _).2 (.inl rfl)
    exact ⟨hin, hfirst⟩

/-- A message of a network other than REQ and SNP that is in flight is noted as aged (R276). -/
theorem does_ageNoted {c : Instr} {s : State} {id : Nat} {f : Work → Work} (hexec : exec c s = s.run f) (hf : f s.work = s.work.ageNoted id) : Does c s fun t =>
    id ∈ t.hub.fabric.aged ∧ Exactly s t (fun h => { h with fabric := t.hub.fabric }) := by
  refine does_work hexec hf ?_
  exact ⟨(mem_addTo _ _ _).2 (.inl rfl), rfl, rfl, rfl⟩

theorem FlitGoes.due_or {w : Work} {l d v : Nat} (hl : l < 303) (hd : d < 2) (hv : v < 5) (hout : l ∉ w.hub.fabric.linksOut)
    (h : w.flitDue l d = none ∨ w.flitDue l d = some v) : FlitGoes w l d v := by
  refine ⟨hl, hd, hv, hout, ?_⟩
  rcases h with h | h <;> simp [h]

/-- Settles O31: a flit by its check, the end of a reformation, and ageing network by network. -/
theorem fabricLinks : Obligations.FabricLinks := by
  unfold Obligations.FabricLinks
  refine ⟨?undue, ?due, ?bad, ?last, ?reformed, ?request, ?snoop, ?others⟩
  case undue =>
    intro s l d v q hl hd hv hq hout hnone
    have h := does_goodFlit (.due_or hl hd hv hout (.inl hnone)) hq
    rw [flitTaken_none hnone] at h
    exact h
  case due =>
    intro s l d v q hl hd hv hq hout hsome
    have h := does_goodFlit (.due_or hl hd hv hout (.inr hsome)) hq
    rw [flitTaken_some hsome] at h
    exact h
  case bad => exact fun s l d v hl hd hv hout hdue hrow htimes => does_badFlit (.due_or hl hd hv hout hdue) hrow htimes
  case last => exact fun s l d v hl hd hv hout hsome hrow => does_lastFlit (.due_or hl hd hv hout (.inr hsome)) hrow
  case reformed =>
    intro s k hk
    have hheld : ¬ s.work.hub.fabric.heldFrom.isNone = true := by rw [show s.work.hub.fabric.heldFrom = some k from hk]; simp
    refine does_work (exec_routingReformationDone s) (if_neg hheld) ?_
    have hlog := log_reports (s.work.writeRoutes.onFabric fun f => { f with heldFrom := none, resend := f.resend.filter fun x => x.1 / 2 ∉ s.work.lostBundles })
      { cls := 7, sev := 0, cause := 0x8010 }
    have hquiet : quietHub (s.commit ((s.work.writeRoutes.onFabric fun f => { f with heldFrom := none, resend := f.resend.filter fun x => x.1 / 2 ∉ s.work.lostBundles }).log
        { cls := 7, sev := 0, cause := 0x8010 })).hub = _ := hlog
    refine ⟨hlog.fabric, rfl, hquiet.trans ?_⟩
    rw [show (s.commit _).hub.fabric = _ from hlog.fabric]
    rfl
  case request =>
    intro s id r hid
    have hfind : (tfind s.work.hub.fabric.reqs id).isSome = true := by rw [show tfind s.work.hub.fabric.reqs id = some r from hid]; rfl
    have hget : tget {} s.hub.fabric.reqs id = r := by rw [tget_eq_tfind, hid]; rfl
    refine does_work (exec_arbiterAgeing 0 id s) (if_pos hfind) ?_
    refine ⟨?_, rfl, rfl, rfl⟩
    exact (tfind_tset_self _ _ _).trans (by rw [show tget {} s.work.hub.fabric.reqs id = r from hget])
  case snoop =>
    intro s n l hn
    refine does_work (exec_arbiterAgeing 1 (16 * l + n) s) rfl ?_
    have hsite : (16 * l + n) % 16 = n := by omega
    have hline : (16 * l + n) / 16 = l := by omega
    refine ⟨?_, rfl, rfl, rfl⟩
    have hport : ((s.work.ageSnoop (16 * l + n)).site n).port.snpQueue = (s.work.site n).port.snpQueue.map fun x => if x.line = l then { x with aged := true } else x := by
      simp [Work.ageSnoop, hsite, hline, Work.onSPort]
    exact hport
  case others =>
    rintro s v id (⟨rfl, r, hr, hread⟩ | ⟨rfl, r, hr, hread⟩ | ⟨rfl, ht⟩)
    · refine does_ageNoted (exec_arbiterAgeing 2 id s) (if_pos ?_)
      rw [show tfind s.work.hub.fabric.rsps id = some r from hr]
      simp [hread]
    · refine does_ageNoted (exec_arbiterAgeing 3 id s) (if_pos ?_)
      rw [show tfind s.work.hub.fabric.rsps id = some r from hr]
      exact hread
    · exact does_ageNoted (exec_arbiterAgeing 4 id s) (if_pos ht)

end Sys2Proof.Machine
end

section
/-! PROOFS. Control steps of a recipe (R189, R194-R197). -/

namespace Sys2Proof.Machine

/-! ## A step changes the run alone -/

/-- From s to t the run of an engine has become r; nothing else has changed. -/
def State.Runs (s t : State) (g : Nat) (r : Run) : Prop :=
  t.work.wright g = { s.work.wright g with run := some r } ∧ (∀ y, y ≠ g → t.work.wright y = s.work.wright y) ∧ Exactly s t (fun h => { h with wrights := t.hub.wrights })

theorem onRun_wright {w : Work} {g : Nat} {r : Run} (hrun : (w.wright g).run = some r) (f : Run → Run) : (w.onRun g f).wright g = { w.wright g with run := some (f r) } := by
  simp [Work.onRun, hrun]

theorem does_onRun {c : Instr} {s : State} {F : Work → Work} {g : Nat} {r r' : Run} {f : Run → Run} (hexec : exec c s = s.run F) (hF : F s.work = s.work.onRun g f)
    (hrun : (s.work.wright g).run = some r) (hf : f r = r') : Does c s fun t => s.Runs t g r' := by
  refine does_work hexec hF ?_
  exact ⟨hf ▸ onRun_wright hrun f, fun y hy => wright_onWright_ne _ _ hy, rfl, rfl, rfl⟩

/-- A step that is one change of the run. -/
theorem does_step {c : Instr} {s : State} {g op : Nat} {r r' : Run} {k : Run → Step → Work → Work} {f : Run → Run} (hexec : exec c s = s.run fun w => w.stepGo g op k)
    (h : s.CanIssue g op r) (hk : k r (curStep r) s.work = s.work.onRun g f) (hf : f r = r') : Does c s fun t => s.Runs t g r' :=
  does_onRun hexec ((stepGo_issues h k).trans hk) h.1 hf

/-- A run that issues goes on with the next step. -/
def runNext (r : Run) : Run := { r with pc := r.pc + 1, phase := .issue }

theorem runNext_issuing {r : Run} (h : r.phase = .issue) : runNext r = { r with pc := r.pc + 1 } := by
  unfold runNext
  rw [← h]

theorem exec_stepNop (g : Nat) (s : State) : exec (.stepNop g) s = s.run fun k => k.stepGo g 0x00 fun _ _ k => k.onRun g runNext := rfl

/-- The number of passes that a LOOP asks for (R196). -/
def loopCount (r : Run) (st : Step) : Nat := if bit st.mode 0 then r.params.getD (bits st.imm 5 0) 0 % 2 ^ 32 else bits st.imm 23 0

theorem exec_loopStep (g : Nat) (s : State) : exec (.loopStep g) s = s.run fun k => k.stepGo g 0x01 fun r st k =>
    if loopCount r st = 0 then k.onRun g fun r => { r with pc := skipLoop (r.recipe.steps.drop (r.pc + 1)) (r.pc + 1) 0 }
    else k.onRun g fun r' => { r' with loops := r'.loops ++ [(r'.pc + 1, loopCount r st, 0)], pc := r'.pc + 1 } := rfl

theorem exec_endloop (g : Nat) (s : State) : exec (.endloop g) s = s.run fun k => k.stepGo g 0x02 fun r _ k =>
    match r.loops.getLast? with
    | some (start, n, i) =>
      if i + 1 < n then k.onRun g fun r => { r with loops := r.loops.dropLast ++ [(start, n, i + 1)], pc := start }
      else k.onRun g fun r => { r with loops := r.loops.dropLast, pc := r.pc + 1 }
    | none => k.nextStep g := rfl

theorem exec_fenceStep (g : Nat) (s : State) : exec (.fenceStep g) s = s.run fun k => k.stepGo g 0x07 fun _ _ k => if (k.wright g).accesses = [] then k.onRun g runNext else k := rfl

section
variable {s : State} {g : Nat} {r : Run}

theorem does_stepNop (h : s.CanIssue g 0x00 r) : Does (.stepNop g) s fun t => s.Runs t g { r with pc := r.pc + 1 } :=
  does_step (exec_stepNop g s) h rfl (runNext_issuing h.2.1)

theorem does_loopOpens (h : s.CanIssue g 0x01 r) (hn : 0 < loopCount r (curStep r)) :
    Does (.loopStep g) s fun t => s.Runs t g { r with loops := r.loops ++ [(r.pc + 1, loopCount r (curStep r), 0)], pc := r.pc + 1 } :=
  does_step (exec_loopStep g s) h (if_neg (by omega)) rfl

theorem does_loopSkips (h : s.CanIssue g 0x01 r) (hn : loopCount r (curStep r) = 0) :
    Does (.loopStep g) s fun t => s.Runs t g { r with pc := skipLoop (r.recipe.steps.drop (r.pc + 1)) (r.pc + 1) 0 } :=
  does_step (exec_loopStep g s) h (if_pos hn) rfl

theorem does_loopRepeats {ls : List (Nat × Nat × Nat)} {a n i : Nat} (h : s.CanIssue g 0x02 r) (hl : r.loops = ls ++ [(a, n, i)]) (hi : i + 1 < n) :
    Does (.endloop g) s fun t => s.Runs t g { r with loops := ls ++ [(a, n, i + 1)], pc := a } := by
  refine does_step (exec_endloop g s) (f := fun r => { r with loops := r.loops.dropLast ++ [(a, n, i + 1)], pc := a }) h ?_ ?_
  · simp only [hl, List.getLast?_concat, hi, if_true]
  · simp only [hl, List.dropLast_concat]

theorem does_loopCloses {ls : List (Nat × Nat × Nat)} {a n i : Nat} (h : s.CanIssue g 0x02 r) (hl : r.loops = ls ++ [(a, n, i)]) (hi : n ≤ i + 1) :
    Does (.endloop g) s fun t => s.Runs t g { r with loops := ls, pc := r.pc + 1 } := by
  refine does_step (exec_endloop g s) (f := fun r => { r with loops := r.loops.dropLast, pc := r.pc + 1 }) h ?_ ?_
  · simp only [hl, List.getLast?_concat, Nat.not_lt.2 hi, if_false]
  · simp only [hl, List.dropLast_concat]

theorem does_fenceStep (h : s.CanIssue g 0x07 r) :
    Does (.fenceStep g) s fun t => s.Runs t g { r with pc := if (s.work.wright g).accesses = [] then r.pc + 1 else r.pc } := by
  by_cases ha : (s.work.wright g).accesses = []
  · refine does_step (exec_fenceStep g s) h (if_pos ha) ?_
    rw [if_pos ha]
    exact runNext_issuing h.2.1
  · refine does_work (exec_fenceStep g s) ((stepGo_issues h _).trans (if_neg ha)) ?_
    rw [if_neg ha]
    refine ⟨?_, fun _ _ => rfl, rfl, rfl, rfl⟩
    rw [← h.1]
    rfl

end

/-! ## WAIT -/

/-- The run of an engine that waits at its Helm port. -/
def runWaits (r : Run) : Run := { r with phase := .helm, waitMet := none }

theorem exec_waitStep (g : Nat) (s : State) : exec (.waitStep g) s = s.run fun k => k.stepGo g 0x05 fun r st k =>
    if k.helmPaused then k
    else match st.mode with
    | 0 => ((k.onRun g runWaits).markWait (.wright g) r.launch.berth (bits st.imm 11 0) (r.params.getD st.sb 0 % 2 ^ 32)).waitDone g
    | 1 => if ((k.onRun g runWaits).gateArrive (some (.wright g)) r.launch.berth (bits st.imm 11 0)).1 = 0 then
        ((k.onRun g runWaits).gateArrive (some (.wright g)) r.launch.berth (bits st.imm 11 0)).2.waitDone g
        else ((k.onRun g runWaits).gateArrive (some (.wright g)) r.launch.berth (bits st.imm 11 0)).2.endRun g stHelmError
    | _ => ((k.onRun g runWaits).semAcquire (.wright g) r.launch.berth (bits st.imm 11 0) 1).waitDone g := rfl

theorem exec_waitSatisfied (g : Nat) (s : State) : exec (.waitSatisfied g) s = s.run fun k => k.waitDone g := rfl

/-- A wait on a mark that has its value is met at once (R248). -/
theorem markWait_met {w : Work} {p : Party} {b m t : Nat} (hrun : w.helmPaused = false) (hheld : w.holder 2 m = some b) (hsat : (w.mark m).sat = false) (hreach : t ≤ (w.mark m).value) :
    w.markWait p b m t = (w.count 4 0 0).notify p 0 (w.mark m).value := by
  simp only [Work.markWait, hrun, hheld, hsat, hreach, ne_eq, not_true_eq_false, Bool.false_eq_true, if_false, if_true]

theorem waitDone_met {w : Work} {g : Nat} {r : Run} (hrun : (w.wright g).run = some r) (hphase : r.phase = .helm) (hmet : r.waitMet = some 0) :
    w.waitDone g = (w.onRun g fun r => { r with waitMet := none }).onRun g runNext := by
  simp only [Work.waitDone, hrun, hphase, hmet, ne_eq, not_true_eq_false, if_false]
  rfl

theorem waitDone_waits {w : Work} {g : Nat} {r : Run} (hrun : (w.wright g).run = some r) (hphase : r.phase = .helm) (hmet : r.waitMet = none) : w.waitDone g = w := by
  simp only [Work.waitDone, hrun, hphase, hmet, ne_eq, not_true_eq_false, if_false]

/-- An engine's run once its wait is met. -/
def Work.metRun (w : Work) (g value : Nat) : Work := ((w.notify (.wright g) 0 value).onRun g fun r => { r with waitMet := none }).onRun g runNext

theorem waitDone_notified {w : Work} {g : Nat} {m : Wright} {r : Run} (hw : w.wright g = { m with run := some r }) (hphase : r.phase = .helm) (value : Nat) :
    (w.notify (.wright g) 0 value).waitDone g = w.metRun g value := by
  refine waitDone_met (r := { r with waitMet := some 0 }) ?_ hphase rfl
  simp [Work.notify, hw]

theorem metRun_wright {w : Work} {g : Nat} {m : Wright} {r : Run} (hw : w.wright g = { m with run := some r }) (value : Nat) :
    (w.metRun g value).wright g = { m with run := some (runNext { r with waitMet := none }) } := by
  simp [Work.metRun, Work.notify, Work.onRun, hw]

section
variable {s : State} {g : Nat} {r : Run}

/-- What a WAIT on a mark does once its step issues. -/
theorem waitStep_mark (h : s.CanIssue g 0x05 r) (hrun : s.work.helmPaused = false) (hmode : (curStep r).mode = 0) :
    exec (.waitStep g) s = s.run fun _ => ((s.work.onRun g runWaits).markWait (.wright g) r.launch.berth (bits (curStep r).imm 11 0) (r.params.getD (curStep r).sb 0 % 2 ^ 32)).waitDone g := by
  rw [exec_waitStep]
  refine congrArg (fun w : Work => Host.Outcome.next (s.commit w)) ((stepGo_issues h _).trans ?_)
  simp only [hrun, hmode, Bool.false_eq_true, if_false]

theorem does_waitMet {m v : Nat} (h : s.CanIssue g 0x05 r) (hrun : s.work.helmPaused = false) (hmode : (curStep r).mode = 0) (hm : m = bits (curStep r).imm 11 0)
    (hv : v = r.params.getD (curStep r).sb 0 % 2 ^ 32) (hheld : s.work.holder 2 m = some r.launch.berth) (hsat : (s.work.mark m).sat = false) (hreach : v ≤ (s.work.mark m).value) :
    Does (.waitStep g) s fun t => t.work.wright g = { s.work.wright g with run := some { r with pc := r.pc + 1, waitMet := none } } ∧ t.hub.helm = s.hub.helm ∧ t.mem = s.mem := by
  subst hm hv
  have hmet := markWait_met (w := s.work.onRun g runWaits) (p := .wright g) hrun hheld hsat hreach
  have hhelm := (count_reports (s.work.onRun g runWaits) 4 0 0 1).helm
  have hmem := count_mem (s.work.onRun g runWaits) 4 0 0 1
  have hwright : ((s.work.onRun g runWaits).count 4 0 0).wright g = { s.work.wright g with run := some (runWaits r) } := by
    rw [wright_count, onRun_wright h.1]
  generalize (s.work.onRun g runWaits).count 4 0 0 = v at hmet hhelm hmem hwright
  refine does_work (waitStep_mark h hrun hmode) ((congrArg (fun w : Work => w.waitDone g) hmet).trans (waitDone_notified hwright rfl _)) ?_
  refine ⟨(metRun_wright hwright _).trans ?_, hhelm, commit_mem_of_sameMem hmem⟩
  have hphase : r.phase = .issue := h.2.1
  unfold runNext runWaits
  rw [← hphase]

theorem does_waitStays {m v : Nat} (h : s.CanIssue g 0x05 r) (hrun : s.work.helmPaused = false) (hmode : (curStep r).mode = 0) (hm : m = bits (curStep r).imm 11 0)
    (hv : v = r.params.getD (curStep r).sb 0 % 2 ^ 32) (hheld : s.work.holder 2 m = some r.launch.berth) (hsat : (s.work.mark m).sat = false) (hbelow : (s.work.mark m).value < v)
    (hroom : s.hub.helm.waiters.length < 16384) : Does (.waitStep g) s fun t =>
      t.work.wright g = { s.work.wright g with run := some { r with phase := .helm, waitMet := none } }
      ∧ t.hub.helm.waiters = s.hub.helm.waiters ++ [{ party := .wright g, what := .mark m v, berth := r.launch.berth }] := by
  subst hm hv
  have hwaits := markWait_waits (w := s.work.onRun g runWaits) (p := .wright g) hrun hheld hsat hbelow hroom
  have hwright : (((s.work.onRun g runWaits).count 4 0 0).onHelm fun h => { h with waiters := h.waiters ++
      [{ party := .wright g, what := .mark (bits (curStep r).imm 11 0) (r.params.getD (curStep r).sb 0 % 2 ^ 32), berth := r.launch.berth }] }).wright g
        = { s.work.wright g with run := some (runWaits r) } := by
    rw [wright_onHelm, wright_count, onRun_wright h.1]
  refine does_work (waitStep_mark h hrun hmode) ((congrArg (fun w : Work => w.waitDone g) hwaits).trans (waitDone_waits (r := runWaits r) (by rw [hwright]) rfl rfl)) ?_
  exact ⟨hwright, congrArg (fun q : HelmState => q.waiters ++ _) (count_reports (s.work.onRun g runWaits) 4 0 0 1).helm⟩

theorem does_waitSatisfied (hrun : (s.work.wright g).run = some r) (hphase : r.phase = .helm) (hmet : r.waitMet = some 0) :
    Does (.waitSatisfied g) s fun t => s.Runs t g { r with pc := r.pc + 1, phase := .issue, waitMet := none } := by
  refine does_work (exec_waitSatisfied g s) (waitDone_met hrun hphase hmet) ?_
  refine ⟨?_, fun y hy => (wright_onWright_ne _ _ hy).trans (wright_onWright_ne _ _ hy), rfl, rfl, rfl⟩
  have hend : ((s.work.onRun g fun r => { r with waitMet := none }).onRun g runNext).wright g = { s.work.wright g with run := some (runNext { r with waitMet := none }) } := by
    simp [Work.onRun, hrun]
  exact hend

end

/-! ## SIGNAL -/

theorem exec_signalStep (g : Nat) (s : State) : exec (.signalStep g) s = s.run fun k => k.stepGo g 0x06 fun r st k =>
    if k.helmPaused || (k.wright g).accesses.any fun a => a.store then k
    else
      let x := match st.mode with
        | 0 => k.markAdd r.launch.berth (bits st.imm 11 0) 1
        | 1 => k.markAdd r.launch.berth (bits st.imm 11 0) (r.params.getD st.sb 0 % 2 ^ 32)
        | _ => k.semRelease r.launch.berth (bits st.imm 11 0) 1
      if x.1 = 0 then x.2.onRun g runNext else x.2.endRun g stHelmError := rfl

theorem owe_wright (w : Work) (k n g : Nat) : (w.owe k n).wright g = w.wright g := by
  unfold Work.owe
  dsimp only
  split
  · rfl
  · split
    · rw [wright_count, wright_log, wright_onHelm]
    · rfl

theorem markPulses_wright (w : Work) (m g : Nat) : (w.markPulses m).wright g = w.wright g := by
  refine each_same (fun v : Work => v.wright g) _ _ w fun k v => ?_
  dsimp only
  split
  · rfl
  · rw [wright_onHelm, owe_wright]

/-- An addition to a mark that nothing waits on leaves every engine as it was. -/
theorem markAdd_wright {w : Work} {b m v : Nat} (hrun : w.helmPaused = false) (hheld : w.holder 2 m = some b) (hsat : (w.mark m).sat = false)
    (hroom : (w.mark m).value + v ≤ 0xFFFFFFFF) (hw : w.hub.helm.waiters = []) (g : Nat) : (w.markAdd b m v).2.wright g = w.wright g := by
  have hidle : ((w.onMark m fun x => { x with value := x.value + v }).count 4 0 0).hub.helm.waiters = [] := by rw [(count_reports _ _ _ _ _).helm]; exact hw
  have heq : w.markAdd b m v = (0, ((w.onMark m fun x => { x with value := x.value + v }).count 4 0 0).markPulses m) := by
    simp only [Work.markAdd, hrun, hheld, hsat, Nat.not_lt.2 hroom, serveMark_idle hidle, ne_eq, not_true_eq_false, Bool.false_eq_true, if_false]
  rw [heq, markPulses_wright, wright_count]
  rfl

theorem does_signalStep {s : State} {g m : Nat} {r : Run} (h : s.CanIssue g 0x06 r) (hrun : s.work.helmPaused = false) (hmode : (curStep r).mode = 0)
    (hm : m = bits (curStep r).imm 11 0) (hstores : ∀ a ∈ (s.work.wright g).accesses, a.store = false) (hheld : s.work.holder 2 m = some r.launch.berth)
    (hsat : (s.work.mark m).sat = false) (hroom : (s.work.mark m).value < 0xFFFFFFFF) (hw : s.hub.helm.waiters = []) : Does (.signalStep g) s fun t =>
      (t.work.mark m).value = (s.work.mark m).value + 1 ∧ t.work.wright g = { s.work.wright g with run := some { r with pc := r.pc + 1 } } := by
  subst hm
  obtain ⟨hzero, hmark, _⟩ := markAdd_counts (v := 1) hrun hheld hsat hroom
  have hwright := markAdd_wright (v := 1) hrun hheld hsat hroom hw g
  have hnone : ((s.work.wright g).accesses.any fun a => a.store) = false := by
    rw [List.any_eq_false]
    exact fun a ha => by rw [hstores a ha]; exact Bool.false_ne_true
  refine does_work (exec_signalStep g s) (w := (s.work.markAdd r.launch.berth (bits (curStep r).imm 11 0) 1).2.onRun g runNext) ((stepGo_issues h _).trans ?_) ?_
  · simp only [hrun, hnone, Bool.or_self, Bool.false_eq_true, if_false, hmode, hzero, if_true]
  · refine ⟨congrArg Mark.value hmark, ?_⟩
    have hend : ((s.work.markAdd r.launch.berth (bits (curStep r).imm 11 0) 1).2.onRun g runNext).wright g = { s.work.wright g with run := some (runNext r) } := by
      rw [onRun_wright (r := r) (by rw [hwright]; exact h.1), hwright]
    exact hend.trans (by rw [runNext_issuing h.2.1])

end Sys2Proof.Machine
end

section
/-! PROOFS. What a recipe's end leaves: the tokens of its inbox closed, its launch completed (R202, R204, R206). -/

namespace Sys2Proof.Machine

/-! ## Closing tokens -/

/-- From one work to the next the rings, the engines, the ports' links and what functions may issue stand, and nothing is unsent. -/
structure Carries (w w' : Work) : Prop where
  ten : w'.hub.ten = w.hub.ten
  wrights : w'.hub.wrights = w.hub.wrights
  up : ∀ p, w'.portUp p = w.portUp p
  issues : ∀ f, w'.mayIssue f = w.mayIssue f
  sent : w.hub.sent ⊆ w'.hub.sent

theorem Carries.refl (w : Work) : Carries w w := ⟨rfl, rfl, fun _ => rfl, fun _ => rfl, List.Subset.refl _⟩
theorem Carries.trans {a b c : Work} (h : Carries a b) (k : Carries b c) : Carries a c :=
  ⟨k.ten.trans h.ten, k.wrights.trans h.wrights, fun p => (k.up p).trans (h.up p), fun f => (k.issues f).trans (h.issues f), List.Subset.trans h.sent k.sent⟩
theorem Carries.each {α : Type} (l : List α) (f : α → Work → Work) (w : Work) (hf : ∀ a w, Carries w (f a w)) : Carries w (each l f w) :=
  each_keeps l f w (.refl w) fun a _ h => h.trans (hf a _)

/-- A change of another block that sends nothing. -/
theorem Carries.elsewhere {w w' : Work} (ht : w'.hub.ten = w.hub.ten) (hw : w'.hub.wrights = w.hub.wrights) (hp : w'.hub.ports = w.hub.ports) (hs : w'.hub.sent = w.hub.sent) :
    Carries w w' := ⟨ht, hw, portUp_of_ports hp, mayIssue_of_ports hp, by rw [hs]; exact List.Subset.refl _⟩

theorem Carries.emit (w : Work) (o : Out) : Carries w (w.emit o) := ⟨rfl, rfl, fun _ => rfl, fun _ => rfl, List.subset_cons_self _ _⟩

theorem Carries.onFunc (w : Work) (f : FuncRef) (g : Func → Func) (hg : ∀ x, ((g x).bme, (g x).d3hot, (g x).flr, (g x).tdi) = (x.bme, x.d3hot, x.flr, x.tdi)) :
    Carries w (w.onFunc f g) := ⟨rfl, rfl, portUp_onPort w _ _ rfl, mayIssue_onFunc w f g hg, List.Subset.refl _⟩

theorem mayIssue_onPort (w : Work) (p : Nat) (f : Port → Port) (hf : (f (w.port p)).funcs = (w.port p).funcs) (h : FuncRef) : (w.onPort p f).mayIssue h = w.mayIssue h := by
  unfold Work.mayIssue Work.func
  by_cases hp : h.port = p
  · rw [hp, port_onPort, hf]
  · rw [port_onPort_ne _ _ hp]

theorem tlp_carries (w : Work) (p c n : Nat) : Carries w (w.tlp p c n) := .elsewhere rfl rfl rfl rfl

theorem sendVector_carries (w : Work) (f : FuncRef) (v owe : Nat) : Carries w (w.sendVector f v owe) := by
  have hpend : Carries w (w.onFunc f fun fn => { fn with pendingVec := addTo fn.pendingVec v }) := .onFunc w f _ fun _ => rfl
  have hout (n : Nat) : Carries w (if w.mayIssue f then (w.emit (.msix f n)).tlp f.port 1 else w.onFunc f fun fn => { fn with owedVecs := fn.owedVecs ++ [owe] }) := by
    split
    · exact (Carries.emit w _).trans (tlp_carries _ _ _ _)
    · exact .onFunc w f _ fun _ => rfl
  unfold Work.sendVector
  dsimp only
  split
  · split
    · exact hpend
    · exact hout _
  · split
    · exact .refl w
    · split
      · exact hpend
      · exact hout _

theorem raise_carries (w : Work) (f : FuncRef) (v owe : Nat) : Carries w (w.raise f v owe) := by
  unfold Work.raise
  refine Carries.trans ?_ (sendVector_carries _ f v owe)
  split
  · exact ⟨rfl, rfl, portUp_onPort w _ _ rfl, mayIssue_onPort w _ _ rfl, List.Subset.refl _⟩
  · exact .onFunc w f _ fun _ => rfl

theorem irqs_carries (w : Work) (l : List Nat) (src : Nat) : Carries w (w.irqs l src) := .each l _ w fun _ v => raise_carries v _ _ _

theorem count_carries (w : Work) (k i c n : Nat) : Carries w (w.count k i c n) := by
  unfold Work.count
  dsimp only
  split
  · exact .elsewhere rfl rfl rfl rfl
  · split
    · refine Carries.trans ?_ (irqs_carries _ _ _)
      exact .elsewhere rfl rfl rfl rfl
    · exact .elsewhere rfl rfl rfl rfl

theorem onHPort_carries (w : Work) (k : Nat) (f : HPort → HPort) : Carries w (w.onHPort k f) := .elsewhere rfl rfl rfl rfl

theorem hwsDrain_carries (k n : Nat) (w : Work) : Carries w (w.hwsDrain k n) := by
  induction n generalizing w with
  | zero => exact .refl w
  | succ n ih =>
    unfold Work.hwsDrain
    dsimp only
    split
    · split
      · exact .refl w
      · exact (((onHPort_carries w k _).trans (.emit _ _)).trans (count_carries _ _ _ _ _)).trans (ih _)
    · exact .refl w

theorem hwsItem_carries (w : Work) (k : Nat) (o : Out) : Carries w (w.hwsItem k o) := (onHPort_carries w k _).trans (hwsDrain_carries k _ _)

theorem bodyPumpList_carries (k : Nat) (l : List HWait) (stuck : List Nat) (w : Work) : Carries w (w.bodyPumpList k l stuck) := by
  induction l generalizing w stuck with
  | nil => exact .refl w
  | cons x l ih =>
    unfold Work.bodyPumpList
    dsimp only
    split
    · exact (onHPort_carries w k _).trans (ih _ _)
    · refine Carries.trans ?_ (ih _ _)
      have hitem := (onHPort_carries w k fun p => { p with credits := tset p.credits (msgChannel x.msg) (tget 0 (w.hport k).credits (msgChannel x.msg) - msgUnits x.msg) }).trans
        (hwsItem_carries _ k (.body k x.msg))
      split
      · exact (hitem.trans (hwsItem_carries _ _ _)).trans (count_carries _ _ _ _ _)
      · exact hitem

theorem sendBody_carries (w : Work) (k : Nat) (m : BodyMsg) : Carries w (w.sendBody k m) :=
  ((onHPort_carries w k _).trans (onHPort_carries _ k _)).trans (bodyPumpList_carries k _ _ _)

/-- A rank closed at its origin: the packet goes into the fabric or to another hub. -/
theorem closeRank_carries (w : Work) (p : Packet) (cause : Nat) : Carries w (w.closeRank p cause) := by
  unfold Work.closeRank Work.toOrigin
  split
  · exact .elsewhere rfl rfl rfl rfl
  · unfold Work.tokToHub
    cases w.route (handleHub { p with kind := .close, cause := cause, payload := [], beats := 0, fmt := 0, poison := false }.token) with
    | none => exact .refl w
    | some k => exact sendBody_carries w k _

theorem Carries.wright {w w' : Work} (h : Carries w w') (g : Nat) : w'.wright g = w.wright g := by unfold Work.wright; rw [h.wrights]

/-! ## Completions after the run has ended -/

/-- From one work to the next an entry that has left its ring has not come back, an engine without a run has none, and nothing is unsent. -/
structure Ends (g : Nat) (e : EntryRef) (w w' : Work) : Prop where
  gone : w.started e = none → w'.started e = none
  idle : (w.wright g).run = none → (w'.wright g).run = none
  sent : w.hub.sent ⊆ w'.hub.sent

section
variable {g : Nat} {e : EntryRef}

theorem Ends.refl (w : Work) : Ends g e w w := ⟨id, id, List.Subset.refl _⟩
theorem Ends.trans {a b c : Work} (h : Ends g e a b) (k : Ends g e b c) : Ends g e a c := ⟨k.gone ∘ h.gone, k.idle ∘ h.idle, List.Subset.trans h.sent k.sent⟩
theorem Ends.each {α : Type} (l : List α) (f : α → Work → Work) (w : Work) (hf : ∀ a w, Ends g e w (f a w)) : Ends g e w (each l f w) :=
  each_keeps l f w (.refl w) fun a _ h => h.trans (hf a _)

theorem started_of_ten {w w' : Work} (h : w'.hub.ten = w.hub.ten) (e : EntryRef) : w'.started e = w.started e := by unfold Work.started Work.ring; rw [h]

theorem Carries.ends {w w' : Work} (h : Carries w w') : Ends g e w w' := ⟨fun k => (started_of_ten h.ten e).trans k, fun k => (congrArg Wright.run (h.wright g)).trans k, h.sent⟩

/-- Reports that unsend nothing. -/
theorem Reports.ends {w w' : Work} (h : Reports w w') (hs : w.hub.sent ⊆ w'.hub.sent) : Ends g e w w' :=
  ⟨fun k => (started_of_ten h.ten e).trans k, fun k => (congrArg (fun x : Tab Wright => (tget ({} : Wright) x g).run) h.wrights).trans k, hs⟩

theorem started_onRing (w : Work) (b r : Nat) (f : Ring → Ring) (hf : ∀ x, (w.ring b r).started.find? (fun y => y.index = x) = none → (f (w.ring b r)).started.find? (fun y => y.index = x) = none)
    (h : w.started e = none) : (w.onRing b r f).started e = none := by
  unfold Work.started at h ⊢
  by_cases hr : e.berth * 4 + e.ring = b * 4 + r
  · have hself : (w.onRing b r f).ring e.berth e.ring = f (w.ring b r) := by
      unfold Work.ring Work.onRing Work.onHub
      dsimp only
      rw [hr, tget_tmod_self]
    have hring : w.ring e.berth e.ring = w.ring b r := by unfold Work.ring; rw [hr]
    rw [hself]
    rw [hring] at h
    exact hf _ h
  · have hother : (w.onRing b r f).ring e.berth e.ring = w.ring e.berth e.ring := tget_tmod_ne _ _ _ hr
    rw [hother]
    exact h

/-- A change of a ring that starts nothing. -/
theorem Ends.onRing (w : Work) (b r : Nat) (f : Ring → Ring) (hf : ∀ x, (w.ring b r).started.find? (fun y => y.index = x) = none → (f (w.ring b r)).started.find? (fun y => y.index = x) = none) :
    Ends g e w (w.onRing b r f) := ⟨started_onRing w b r f hf, id, List.Subset.refl _⟩

/-- A change of an engine that gives it no run. -/
theorem Ends.onWright (w : Work) (x : Nat) (f : Wright → Wright) (hf : ∀ y, y.run = none → (f y).run = none) : Ends g e w (w.onWright x f) := by
  refine ⟨id, fun h => ?_, List.Subset.refl _⟩
  by_cases hx : g = x
  · rw [hx, wright_onWright]
    exact hf _ (hx ▸ h)
  · rw [wright_onWright_ne _ _ hx]
    exact h

theorem Ends.onHelm (w : Work) (f : HelmState → HelmState) : Ends g e w (w.onHelm f) := ⟨id, id, List.Subset.refl _⟩

theorem notify_ends (w : Work) (p : Party) (c v : Nat) : Ends g e w (w.notify p c v) := by
  cases p with
  | site n tag b =>
    have hsends := siteSend_sends w n (notifyBytes (if c = 0 then 0 else 9) tag b v)
    have hten := congrArg Hub.ten hsends.hub
    have hwrights := congrArg Hub.wrights hsends.hub
    refine ⟨fun h => (started_of_ten (w' := w.siteSend n _) hten e).trans h, fun h => ?_, siteSend_sent w n _⟩
    exact (congrArg (fun x : Tab Wright => (tget ({} : Wright) x g).run) hwrights).trans h
  | wright x => exact .onWright w x _ fun y hy => by rw [hy]; rfl
  | launch x => exact .onWright w x _ fun y hy => hy
  | entry b r i => exact .onRing w b r _ fun x hx => hx

theorem tellWaiter_ends (w : Work) (x : Waiter) (c v : Nat) : Ends g e w (w.tellWaiter x c v) := by
  unfold Work.tellWaiter
  split
  · exact notify_ends w _ _ _
  · exact ⟨id, id, List.Subset.refl _⟩

theorem helmError_ends (w : Work) (b o c : Nat) : Ends g e w (w.helmError b o c) :=
  (helmError_reports w b o c).ends (List.Subset.trans (log_signals w (show (6 : Nat) % 256 ≠ 0 by decide)).sent_subset (count_alerts _ _ _ _ _).toSignals.sent_subset)

theorem owe_ends (w : Work) (k n : Nat) : Ends g e w (w.owe k n) := by
  unfold Work.owe
  dsimp only
  split
  · exact .refl w
  · split
    · refine Ends.trans (Ends.trans ?_ ((log_reports _ _).ends (log_signals _ (show (6 : Nat) % 256 ≠ 0 by decide)).sent_subset)) (count_carries _ _ _ _ _).ends
      exact .onHelm w _
    · exact .onHelm w _

theorem markPulses_ends (w : Work) (m : Nat) : Ends g e w (w.markPulses m) := by
  refine .each _ _ w fun k v => ?_
  dsimp only
  split
  · exact .refl v
  · exact (owe_ends v _ _).trans (.onHelm _ _)

theorem takeWaiters_ends (w : Work) (pick : Waiter → Bool) : Ends g e w (w.takeWaiters pick).2 := ⟨id, id, List.Subset.refl _⟩

theorem serveMark_ends (w : Work) (m : Nat) : Ends g e w (w.serveMark m) :=
  Ends.trans (takeWaiters_ends w _) (.each _ _ _ fun x v => tellWaiter_ends v x _ _)

theorem failTaken_ends (w : Work) (pick : Waiter → Bool) (c : Nat) : Ends g e w (each (w.takeWaiters pick).1 (fun y v => v.failWaiter y c) (w.takeWaiters pick).2) :=
  Ends.trans (takeWaiters_ends w pick) (.each _ _ _ fun y v => (tellWaiter_ends v y c 0).trans (helmError_ends _ _ _ _))

/-- An addition to a mark, whatever comes of it. -/
theorem markAdd_ends (w : Work) (b m v : Nat) : Ends g e w (w.markAdd b m v).2 := by
  have hmark (f : Mark → Mark) : Ends g e w ((w.onMark m f).count 4 0 0) := Ends.trans (b := w.onMark m f) (.onHelm w _) (count_carries _ _ _ _ _).ends
  unfold Work.markAdd
  dsimp only
  split
  · exact Ends.onHelm w fun h => { h with held := h.held ++ [.add b m v] }
  · split
    · exact helmError_ends w b m 2
    · split
      · exact helmError_ends w b m 4
      · split
        · dsimp only
          refine Ends.trans ?_ (failTaken_ends _ _ 4)
          exact ((hmark _).trans (helmError_ends _ b m 4)).trans (markPulses_ends _ m)
        · exact ((hmark _).trans (serveMark_ends _ m)).trans (markPulses_ends _ m)

theorem hostWrite_ends (w : Work) (f : FuncRef) (a : Nat) (d : List Byte) : Ends g e w (w.hostWrite f a d) := (hostWrite_reports w f a d).ends (sent_hostWrite w f a d)

theorem retireEntry_ends (w : Work) (b r i : Nat) : Ends g e w (w.onRing b r (retireEntry i)) := by
  refine .onRing w b r _ fun x hx => ?_
  rw [retireEntry_started, List.find?_eq_none] at *
  exact fun y hy => hx y (List.mem_filter.1 hy).1

/-- A completion starts no entry and gives no engine a run. -/
theorem complete_ends (w : Work) (e' : EntryRef) (st d r : Nat) : Ends g e w (w.complete e' st d r) := by
  have hmark (v : Work) (c : Prop) [Decidable c] (b m : Nat) : Ends g e v (if c then (v.markAdd b m 1).2 else v) := by
    split
    · exact markAdd_ends v b m 1
    · exact .refl v
  have hraise (v : Work) (c : Prop) [Decidable c] (f : FuncRef) (n : Nat) : Ends g e v (if c then v.raise f n else v) := by
    split
    · exact (raise_carries v f n n).ends
    · exact .refl v
  unfold Work.complete
  split
  · refine Ends.trans (Ends.trans ?_ (hmark _ _ _ _)) (hraise _ _ _ _)
    exact ((hostWrite_ends w _ _ _).trans (count_carries _ _ _ _ _).ends).trans (retireEntry_ends _ _ _ _)
  · exact .refl w

end

/-! ## The end of a run -/

/-- From one work to the next the rings, the ports' links, what functions may issue, and of an engine its queue and take-out stand. -/
structure Leaves (x : Nat) (w w' : Work) : Prop where
  ten : w'.hub.ten = w.hub.ten
  up : ∀ p, w'.portUp p = w.portUp p
  issues : ∀ f, w'.mayIssue f = w.mayIssue f
  waits : ((w'.wright x).draining, (w'.wright x).queue) = ((w.wright x).draining, (w.wright x).queue)

theorem Leaves.refl (x : Nat) (w : Work) : Leaves x w w := ⟨rfl, fun _ => rfl, fun _ => rfl, rfl⟩
theorem Leaves.trans {x : Nat} {a b c : Work} (h : Leaves x a b) (k : Leaves x b c) : Leaves x a c :=
  ⟨k.ten.trans h.ten, fun p => (k.up p).trans (h.up p), fun f => (k.issues f).trans (h.issues f), k.waits.trans h.waits⟩

theorem Carries.leaves {w w' : Work} (h : Carries w w') (x : Nat) : Leaves x w w' := ⟨h.ten, h.up, h.issues, by rw [h.wright]⟩

theorem Leaves.onWright (w : Work) (x : Nat) (f : Wright → Wright) (hf : ∀ y, ((f y).draining, (f y).queue) = (y.draining, y.queue)) : Leaves x w (w.onWright x f) :=
  ⟨rfl, fun _ => rfl, fun _ => rfl, by rw [wright_onWright]; exact hf _⟩

/-- The tokens of an inbox closed. -/
theorem closeInbox_leaves (w : Work) (x : Nat) : Leaves x w (w.closeInbox x) :=
  Leaves.trans (b := w.onWright x fun e => { e with inbox := [], full := if (w.wright x).inbox.map (·.2) = [] then e.full else false }) (.onWright w x _ fun _ => rfl)
    ((Carries.each _ _ _ fun p v => closeRank_carries v p 1).leaves x)

theorem run_onWright (w : Work) (x : Nat) (f : Wright → Wright) (hf : ∀ y, (f y).run = y.run) : ((w.onWright x f).wright x).run = (w.wright x).run := by
  rw [wright_onWright]
  exact hf _

theorem inboxPut_leaves (w : Work) (x : Nat) (p : Packet) : Leaves x w (w.inboxPut x p) ∧ ((w.inboxPut x p).wright x).run = (w.wright x).run := by
  unfold Work.inboxPut
  dsimp only
  split
  · exact ⟨.onWright w x _ fun _ => rfl, run_onWright w x _ fun _ => rfl⟩
  · exact ⟨.onWright w x _ fun _ => rfl, run_onWright w x _ fun _ => rfl⟩

/-- Held tokens go into free slots of their engine (R204). -/
theorem fillInbox_leaves (w : Work) (x : Nat) : Leaves x w (w.fillInbox x) ∧ ((w.fillInbox x).wright x).run = (w.wright x).run := by
  refine each_keeps (p := fun v : Work => Leaves x w v ∧ (v.wright x).run = (w.wright x).run) _ _ _ ?_ fun p v h => ?_
  · exact ⟨.onWright w x _ fun _ => rfl, run_onWright w x _ fun _ => rfl⟩
  · exact ⟨h.1.trans (inboxPut_leaves v x p).1, (inboxPut_leaves v x p).2.trans h.2⟩

/-- The run is over: its engine's record shows none, no read forwarded to it stands. -/
def Work.runOver (w : Work) (x : Nat) (l : Launch) : Work := (w.onWright x fun e => { e with run := none, resident := some l.recipe, stopEntries := [] }).dropFwd (.wright x) 0

theorem runOver_leaves (w : Work) (x : Nat) (l : Launch) : Leaves x w (w.runOver x l) ∧ ((w.runOver x l).wright x).run = none := by
  refine ⟨Leaves.trans (b := w.onWright x fun e => { e with run := none, resident := some l.recipe, stopEntries := [] }) (.onWright w x _ fun _ => rfl) ⟨rfl, fun _ => rfl, fun _ => rfl, rfl⟩, ?_⟩
  rw [Work.runOver, Work.dropFwd, wright_onFabric, wright_onWright]

/-- The inbox once a run is over: closed where the engine is out, else held tokens go into its free slots (R204, R205). -/
def Work.runLeaves (w : Work) (x : Nat) (l : Launch) : Work :=
  let u := (if (w.wright x).out then w.closeInbox x else w).runOver x l
  if (u.wright x).out then u else u.fillInbox x

theorem runLeaves_leaves (w : Work) (x : Nat) (l : Launch) : Leaves x w (w.runLeaves x l) ∧ ((w.runLeaves x l).wright x).run = none := by
  have hclosed : Leaves x w (if (w.wright x).out then w.closeInbox x else w) := by
    split
    · exact closeInbox_leaves w x
    · exact .refl x w
  unfold Work.runLeaves
  dsimp only
  generalize (if (w.wright x).out then w.closeInbox x else w) = v at hclosed
  obtain ⟨hover, hrun⟩ := runOver_leaves v x l
  split
  · exact ⟨hclosed.trans hover, hrun⟩
  · obtain ⟨hfill, hfilled⟩ := fillInbox_leaves (v.runOver x l) x
    exact ⟨(hclosed.trans hover).trans hfill, hfilled.trans hrun⟩

/-- The completion of a started entry that asks for neither mark nor interrupt: its record, its count, its ring (R406). -/
theorem complete_plain {v : Work} {s : State} {e : EntryRef} {y : RingEntry} (hten : v.hub.ten = s.hub.ten) (hs : s.work.started e = some y)
    (hpx : (s.work.ring e.berth e.ring).px2 = false) (hmark : bit y.word 15 = false) (hirq : bit y.word 13 = false) (st : Nat) :
    v.complete e st = ((v.hostWrite (s.work.funcOf e.berth) ((s.work.ring e.berth e.ring).cplBase + 16 * e.index)
        (leBytes 16 (pack [(16, e.index), (1, bits y.word 12 12), (7, 0), (8, st), (16, 0), (16, 0), (64, 0)]))).count 15 (s.work.funcOf e.berth).port
        (statusIndex st)).onRing e.berth e.ring (retireEntry e.index) := by
  have hring : v.ring e.berth e.ring = s.work.ring e.berth e.ring := by unfold Work.ring; rw [hten]; rfl
  have hfunc : v.funcOf e.berth = s.work.funcOf e.berth := by unfold Work.funcOf Work.bindOf Work.mgr Work.berth; rw [hten]; rfl
  have hstarted : v.started e = some y := (started_of_ten (w' := v) (w := s.work) hten e).trans hs
  simp [Work.complete, hstarted, Work.finish, hring, hfunc, hpx, entryPhase, hmark, hirq]

/-- A started entry that completes has left its ring, its record written. -/
theorem complete_gone {v : Work} {s : State} {e : EntryRef} {y : RingEntry} (hten : v.hub.ten = s.hub.ten) (hup : ∀ p, v.portUp p = s.work.portUp p)
    (hissue : ∀ f, v.mayIssue f = s.work.mayIssue f) (hs : s.work.started e = some y)
    (hpx : (s.work.ring e.berth e.ring).px2 = false) (hmark : bit y.word 15 = false) (hirq : bit y.word 13 = false) (st : Nat) :
    s.Completes (s.commit (v.complete e st)) e y st 0 0 := by
  rw [complete_plain hten hs hpx hmark hirq]
  refine ⟨started_onRing_retireEntry _ e, fun hp hm => sent_count _ _ _ _ _ (mem_sent_hostWrite v _ _ _ ?_ ?_)⟩
  · exact (hup _).trans hp
  · exact (hissue _).trans hm

theorem complete_wright (w : Work) (e : EntryRef) (st x : Nat) (hpx : (w.ring e.berth e.ring).px2 = false) (hmark : ∀ y, w.started e = some y → bit y.word 15 = false) :
    (w.complete e st).wright x = w.wright x := by
  unfold Work.complete
  split
  next y hy =>
    unfold Work.finish
    simp only [hpx, hmark y hy, Bool.not_false, Bool.and_false, Bool.false_eq_true, if_false]
    split
    · simp
    · simp
  · rfl

/-! ## A run that ends by itself with status OK -/

/-- The end of a run with status OK, no current token, done mark or report: its launch completes, then the stops that wait (R202, R210). -/
theorem runEnds_plain {w : Work} {x : Nat} {r : Run} (hrun : (w.wright x).run = some r) (hcur : r.current = none) (hst : r.status = 0) (hdone : r.launch.doneEn = false)
    (hrep : r.launch.report = 0) : ∃ stops, w.runEnds x
      = each stops (fun e v => v.complete e stOk) ((((((w.runLeaves x r.launch).count 2 x 1)).complete r.launch.entry 0).outDone x 0).headWait x) := by
  have hnull : w.nullAnswer x = w := by simp only [Work.nullAnswer, hrun, hcur]
  refine ⟨((if (w.wright x).out then w.closeInbox x else w).wright x).stopEntries, ?_⟩
  unfold Work.runEnds
  simp only [hrun, hnull, hst, hdone, Work.launchEnds, hrep, stStopped, stEngineOut, Bool.false_and, Bool.false_eq_true, if_false, if_true, Nat.add_zero]
  rfl

theorem outDone_idle {w : Work} {x : Nat} (h : (w.wright x).draining = none) (status : Nat) : w.outDone x status = w := by simp only [Work.outDone, h]
theorem headWait_empty {w : Work} {x : Nat} (h : (w.wright x).queue = []) : w.headWait x = w := by simp only [Work.headWait, h]

/-- A run that ends with status OK while no take-out waits and nothing is queued: the engine has no run, and the launch's entry has completed. -/
theorem runEnds_completes {w : Work} {s : State} {x : Nat} {r : Run} {y : RingEntry} (hten : w.hub.ten = s.hub.ten) (hup : ∀ p, w.portUp p = s.work.portUp p)
    (hissue : ∀ f, w.mayIssue f = s.work.mayIssue f) (hrun : (w.wright x).run = some r) (hcur : r.current = none) (hst : r.status = 0) (hdone : r.launch.doneEn = false)
    (hrep : r.launch.report = 0) (hdrain : (w.wright x).draining = none) (hqueue : (w.wright x).queue = []) (hs : s.work.started r.launch.entry = some y)
    (hpx : (s.work.ring r.launch.entry.berth r.launch.entry.ring).px2 = false) (hmark : bit y.word 15 = false) (hirq : bit y.word 13 = false) :
    ((w.runEnds x).wright x).run = none ∧ s.Completes (s.commit (w.runEnds x)) r.launch.entry y 0 0 0 := by
  obtain ⟨stops, heq⟩ := runEnds_plain hrun hcur hst hdone hrep
  obtain ⟨hleaves, hnone⟩ := runLeaves_leaves w x r.launch
  have hall : Leaves x w ((w.runLeaves x r.launch).count 2 x 1) := hleaves.trans ((count_carries _ 2 x 1 1).leaves x)
  have hidle : (((w.runLeaves x r.launch).count 2 x 1).wright x).run = none := by rw [wright_count]; exact hnone
  generalize (w.runLeaves x r.launch).count 2 x 1 = v at heq hall hidle
  have hv : v.hub.ten = s.hub.ten := hall.ten.trans hten
  have hring : (v.ring r.launch.entry.berth r.launch.entry.ring).px2 = false := by unfold Work.ring; rw [hv]; exact hpx
  have hstarted : v.started r.launch.entry = some y := (started_of_ten (w' := v) (w := s.work) hv _).trans hs
  have hwright := complete_wright v r.launch.entry 0 x hring fun z hz => by rw [← Option.some.inj (hstarted.symm.trans hz)]; exact hmark
  have hwaits := hall.waits
  rw [Prod.mk.injEq] at hwaits
  have hcompletes := complete_gone hv (fun p => (hall.up p).trans (hup p)) (fun f => (hall.issues f).trans (hissue f)) hs hpx hmark hirq 0
  rw [outDone_idle (by rw [hwright, hwaits.1, hdrain]), headWait_empty (by rw [hwright, hwaits.2, hqueue])] at heq
  have hends := Ends.each (g := x) (e := r.launch.entry) stops (fun e v => v.complete e stOk) (v.complete r.launch.entry 0) fun e v => complete_ends v e stOk 0 0
  rw [heq]
  exact ⟨hends.idle (by rw [hwright]; exact hidle), hends.gone hcompletes.1, fun hp hm => hends.sent (hcompletes.2 hp hm)⟩

/-! ## HALT -/

/-- HALT, or the end of the step list, at an engine that issues (R196). -/
def Work.haltStep (k : Work) (g : Nat) : Work :=
  match (k.wright g).run with
  | some r => if r.phase = .issue && (r.recipe.steps.length ≤ r.pc || (curStep r).op = 0x0F) then k.endRun g stOk else k
  | none => k

theorem exec_halt (g : Nat) (s : State) : exec (.halt g) s = s.run fun k => k.haltStep g := rfl

section
variable {s : State} {g : Nat} {r : Run} (h : s.CanIssue g 0x0F r)
include h

/-- HALT at its step ends issue with status OK. -/
theorem haltStep_ends : s.work.haltStep g = s.work.endRun g stOk := by
  obtain ⟨hrun, hphase, -, hop⟩ := h
  simp only [Work.haltStep, hrun, hphase, hop, decide_true, Bool.or_true, Bool.and_self, if_true]

/-- The run that HALT ends. -/
theorem haltEnds_run : (if r.phase = .ending then r else runEndsAt r stOk r.pc (loopIndices r)) = { r with phase := .ending, status := 0, endStep := r.pc, endLoops := loopIndices r } := by
  obtain ⟨-, hphase, -, -⟩ := h
  simp [runEndsAt, hphase, stOk]

theorem does_haltWaits (ha : (s.work.wright g).accesses ≠ []) :
    Does (.halt g) s fun t => s.Runs t g { r with phase := .ending, status := 0, endStep := r.pc, endLoops := loopIndices r } :=
  does_onRun (exec_halt g s) ((haltStep_ends h).trans (endRun_issuing stOk h ha)) h.1 (haltEnds_run h)

theorem does_haltEnds {y : RingEntry} (ha : (s.work.wright g).accesses = []) (hcur : r.current = none) (hdone : r.launch.doneEn = false) (hrep : r.launch.report = 0)
    (hdrain : (s.work.wright g).draining = none) (hqueue : (s.work.wright g).queue = []) (hs : s.work.started r.launch.entry = some y)
    (hpx : (s.work.ring r.launch.entry.berth r.launch.entry.ring).px2 = false) (hmark : bit y.word 15 = false) (hirq : bit y.word 13 = false) :
    Does (.halt g) s fun t => (t.work.wright g).run = none ∧ s.Completes t r.launch.entry y 0 0 0 := by
  have hwright := onRun_wright h.1 fun r => if r.phase = .ending then r else runEndsAt r stOk r.pc (loopIndices r)
  rw [haltEnds_run h] at hwright
  have hend : s.work.endRun g stOk = (s.work.onRun g fun r => if r.phase = .ending then r else runEndsAt r stOk r.pc (loopIndices r)).runEnds g := by
    rw [Work.endRun, Work.tryEnd, hwright]
    simp [ha, stStopped, stEngineOut]
  have hcompletes := runEnds_completes (w := s.work.onRun g fun r => if r.phase = .ending then r else runEndsAt r stOk r.pc (loopIndices r)) (s := s) (x := g)
    (r := { r with phase := .ending, status := 0, endStep := r.pc, endLoops := loopIndices r }) (y := y) rfl (fun _ => rfl) (fun _ => rfl) (by rw [hwright]) hcur rfl hdone hrep
    (by rw [hwright]; exact hdrain) (by rw [hwright]; exact hqueue) hs hpx hmark hirq
  exact does_work (exec_halt g s) ((haltStep_ends h).trans hend) hcompletes

end

/-! ## The obligation -/

/-- Settles O17, step by step. -/
theorem controlSteps : Obligations.ControlSteps := by
  unfold Obligations.ControlSteps
  refine ⟨fun s g r => does_stepNop, fun s g r => does_loopOpens, fun s g r => does_loopSkips, fun s g r ls a n i => does_loopRepeats, fun s g r ls a n i => does_loopCloses,
    fun s g r => does_fenceStep, fun s g r m v => does_waitMet, fun s g r m v => does_waitStays, fun s g r => does_waitSatisfied, fun s g r m => does_signalStep,
    fun s g r => does_haltWaits, fun s g r y h ha hcur hdone hrep hdrain hqueue hs hpx hmark hirq => does_haltEnds h ha hcur hdone hrep hdrain hqueue hs hpx hmark hirq⟩

end Sys2Proof.Machine
end

section
/-! PROOFS. The service of an expert: INBOX, ANSWER, and the stall (R204, R206, R207). -/

namespace Sys2Proof.Machine

/-! ## The inbox -/

theorem nullAnswer_none {w : Work} {x : Nat} {r : Run} (hrun : (w.wright x).run = some r) (hcur : r.current = none) : w.nullAnswer x = w := by
  simp only [Work.nullAnswer, hrun, hcur]

/-- With no token held at the keeper nothing goes into the inbox. -/
theorem fillInbox_none {w : Work} {x : Nat} (h : (w.wright x).waitingToks = []) : w.fillInbox x = w.onWright x fun e => { e with waitingToks := [] } := by
  simp only [Work.fillInbox, h, each_nil]

theorem spillToks_none {w : Work} {x : Nat} (h : (w.wright x).waitingToks = []) : w.spillToks x = w.onWright x fun e => { e with waitingToks := [] } := by
  simp only [Work.spillToks, h, List.map_nil, each_nil]

/-- The run of an engine whose current token is taken from a slot (R206). -/
def tokenTaken (a : Nat) (p : Packet) (r : Run) : Run :=
  { r with current := some p, currentSlot := a, params := (((r.params.set 60 a).set 61 p.expert).set 62 p.rank).set 63 (p.expert * (curStep r).imm % 2 ^ 64) }

theorem takeToken_eq (w : Work) (x a : Nat) (p : Packet) : w.takeToken x a p = (w.onRun x (tokenTaken a p)).onRun x runNext := rfl

theorem exec_inbox (g : Nat) (s : State) : exec (.inbox g) s = s.run fun k => k.stepGo g 0x08 fun _ st k =>
    match (((k.nullAnswer g).fillInbox g).wright g).inbox with
    | (a, p) :: _ => ((k.nullAnswer g).fillInbox g).takeToken g a p
    | [] => if bit st.mode 0 then ((k.nullAnswer g).fillInbox g).endRun g stOk else ((k.nullAnswer g).fillInbox g).onRun g fun r => { r with phase := .inbox } := rfl

/-- An engine's service of a token at its present step. -/
def Work.inboxPresent (k : Work) (g : Nat) : Work :=
  match (k.wright g).run, (k.wright g).inbox with
  | some r, (a, p) :: _ => if r.phase = .inbox then k.takeToken g a p else k
  | _, _ => k

theorem exec_inboxTokenPresent (g : Nat) (s : State) : exec (.inboxTokenPresent g) s = s.run fun k => k.inboxPresent g := rfl

theorem exec_answer (g : Nat) (s : State) : exec (.answer g) s = s.run fun k => k.stepGo g 0x09 fun r st k =>
    match r.current with
    | none => (k.count 2 g 26).onRun g runNext
    | some p =>
      if bit st.mode 0 then ((k.nullAnswer g).slotFreed g r.currentSlot).onRun g runNext
      else
        let pos := streamPos r (streamOf r st.sa)
        let n := 32 * (match k.table p.table with | some t => t.hdr.outBeats | none => 0)
        if pos % 128 ≠ 0 then k.endRun g stMisaligned
        else if pendIn (k.wright g) pos n then k
        else ((((k.combineOut (g / 4) p 0 (localRead (k.wright g) pos n) (poisonIn (k.wright g) pos n)).onRun g fun r => { r with current := none }).count 2 g 24).slotFreed g r.currentSlot).onRun g
          runNext := rfl

/-- The stall of an engine's service (R204). -/
def Work.serveStalls (w : Work) (g : Nat) : Work :=
  let e := w.wright g
  let serving := match e.run with | some r => r.recipe.serve | none => false
  let waits := e.inbox ≠ [] || e.waitingToks ≠ []
  let full := 0 < e.slots && e.slots ≤ e.inbox.length
  if waits && (!serving || full) then (w.onWright g fun e => { e with stalled := e.stalled || !serving, full := e.full || full }).spillToks g else w

theorem exec_serveStallTimeout (g : Nat) (s : State) : exec (.serveStallTimeout g) s = s.run fun k => k.serveStalls g := rfl

/-- An engine with no token held at the keeper put back as it was. -/
theorem wright_waitingNone {x : Wright} (h : x.waitingToks = []) : { x with waitingToks := [] } = x := by rw [← h]

section
variable {s : State} {g : Nat} {r : Run}

/-- A change of one engine alone. -/
theorem does_engine {c : Instr} {F : Work → Work} {f : Wright → Wright} {m : Wright} (hexec : exec c s = s.run F) (hF : F s.work = s.work.onWright g f) (hf : f (s.work.wright g) = m) :
    Does c s fun t => t.work.wright g = m ∧ Exactly s t (fun h => { h with wrights := t.hub.wrights }) := by
  refine does_work hexec hF ?_
  exact ⟨(wright_onWright _ _ _).trans hf, rfl, rfl, rfl⟩

theorem inbox_opens (h : s.CanIssue g 0x08 r) (hcur : r.current = none) (hwait : (s.work.wright g).waitingToks = []) :
    (s.work.nullAnswer g).fillInbox g = s.work.onWright g fun e => { e with waitingToks := [] } := by
  rw [nullAnswer_none h.1 hcur, fillInbox_none hwait]

theorem does_inboxTakes {a : Nat} {p : Packet} {q : List (Nat × Packet)} (h : s.CanIssue g 0x08 r) (hcur : r.current = none) (hwait : (s.work.wright g).waitingToks = [])
    (hin : (s.work.wright g).inbox = (a, p) :: q) : Does (.inbox g) s fun t =>
      t.work.wright g = { s.work.wright g with run := some (runNext (tokenTaken a p r)) } ∧ Exactly s t (fun h => { h with wrights := t.hub.wrights }) := by
  have hopen := inbox_opens h hcur hwait
  refine does_work (exec_inbox g s) (w := (s.work.onWright g fun e => { e with waitingToks := [] }).takeToken g a p) ((stepGo_issues h _).trans ?_) ?_
  · simp only [hopen, wright_onWright, hin]
  · refine ⟨?_, rfl, rfl, rfl⟩
    have hwright : (s.work.onWright g fun e => { e with waitingToks := [] }).wright g = s.work.wright g := (wright_onWright _ _ _).trans (wright_waitingNone hwait)
    have hrun : ((s.work.onWright g fun e => { e with waitingToks := [] }).wright g).run = some r := by rw [hwright]; exact h.1
    have htaken := onRun_wright hrun (tokenTaken a p)
    have hnext := onRun_wright (w := (s.work.onWright g fun e => { e with waitingToks := [] }).onRun g (tokenTaken a p)) (g := g) (by rw [htaken]) runNext
    rw [htaken, hwright] at hnext
    exact hnext

theorem does_inboxWaits (h : s.CanIssue g 0x08 r) (hmode : bit (curStep r).mode 0 = false) (hcur : r.current = none) (hwait : (s.work.wright g).waitingToks = [])
    (hin : (s.work.wright g).inbox = []) : Does (.inbox g) s fun t =>
      t.work.wright g = { s.work.wright g with run := some { r with phase := .inbox } } ∧ Exactly s t (fun h => { h with wrights := t.hub.wrights }) := by
  have hopen := inbox_opens h hcur hwait
  refine does_work (exec_inbox g s) (w := (s.work.onWright g fun e => { e with waitingToks := [] }).onRun g fun r => { r with phase := .inbox }) ((stepGo_issues h _).trans ?_) ?_
  · simp only [hopen, wright_onWright, hin, hmode, Bool.false_eq_true, if_false]
  · refine ⟨?_, rfl, rfl, rfl⟩
    have hwright : (s.work.onWright g fun e => { e with waitingToks := [] }).wright g = s.work.wright g := (wright_onWright _ _ _).trans (wright_waitingNone hwait)
    have hend := onRun_wright (w := s.work.onWright g fun e => { e with waitingToks := [] }) (g := g) (r := r) (by rw [hwright]; exact h.1) fun r => { r with phase := .inbox }
    rw [hwright] at hend
    exact hend

theorem does_inboxPresent {a : Nat} {p : Packet} {q : List (Nat × Packet)} (hrun : (s.work.wright g).run = some r) (hphase : r.phase = .inbox)
    (hin : (s.work.wright g).inbox = (a, p) :: q) : Does (.inboxTokenPresent g) s fun t =>
      t.work.wright g = { s.work.wright g with run := some (runNext (tokenTaken a p r)) } ∧ Exactly s t (fun h => { h with wrights := t.hub.wrights }) := by
  refine does_work (exec_inboxTokenPresent g s) (w := s.work.takeToken g a p) ?_ ?_
  · simp only [Work.inboxPresent, hrun, hin, hphase, if_true]
  · refine ⟨?_, rfl, rfl, rfl⟩
    have htaken := onRun_wright hrun (tokenTaken a p)
    have hnext := onRun_wright (w := s.work.onRun g (tokenTaken a p)) (g := g) (by rw [htaken]) runNext
    rw [htaken] at hnext
    exact hnext

theorem does_answerNone (h : s.CanIssue g 0x09 r) (hcur : r.current = none) : Does (.answer g) s fun t =>
    t.work.wright g = { s.work.wright g with run := some { r with pc := r.pc + 1 } } ∧ t.mem = s.mem ∧ Within s t (fun h => { h with wrights := t.hub.wrights }) := by
  have hcount := count_reports s.work 2 g 26 1
  have hmem := count_mem s.work 2 g 26 1
  have hwright : (s.work.count 2 g 26).wright g = s.work.wright g := wright_count _ _ _ _ _ _
  refine does_work (exec_answer g s) (w := (s.work.count 2 g 26).onRun g runNext) ((stepGo_issues h _).trans ?_) ?_
  · simp only [hcur]
  · generalize s.work.count 2 g 26 = v at hcount hmem hwright
    have hend := onRun_wright (w := v) (g := g) (r := r) (by rw [hwright]; exact h.1) runNext
    rw [hwright, runNext_issuing h.2.1] at hend
    refine ⟨hend, commit_mem_of_sameMem (w := v.onRun g runNext) hmem, rfl, ?_⟩
    exact congrArg (fun q : Hub => { q with wrights := (v.onRun g runNext).hub.wrights }) hcount

end

/-! ## ANSWER -/

theorem localRead_length (m : Wright) (a n : Nat) : (localRead m a n).length = n := by simp [localRead]

/-- The COMBINE of an expert's output (R140, R207). -/
def combineOf (w : Work) (b : Nat) (p : Packet) (t : BTable) (out : List Byte) (poison : Bool) : Packet :=
  { p with kind := .combine, fmt := 0, beats := t.hdr.outBeats, payload := out, poison := poison, dst := b, hub := w.hubId }

/-- A dense output of its table's length goes to its token's engine of this hub as a COMBINE (R140). -/
theorem combineOut_sends {w : Work} {b : Nat} {p : Packet} {t : BTable} {out : List Byte} (ht : w.table p.table = some t) (hlen : out.length = 32 * t.hdr.outBeats)
    (hhere : handleHub p.token = w.hubId) (poison : Bool) : w.combineOut b p 0 out poison = w.sendTok (combineOf w b p t out poison) := by
  simp [Work.combineOut, ht, densePayload, hlen, hhere, combineOf]

/-- A value of a table is listed in it. -/
theorem mem_of_tfind {α : Type} {t : Tab α} {i : Nat} {x : α} (h : tfind t i = some x) : (i, x) ∈ t := by
  induction t with
  | nil => simp [tfind] at h
  | cons y t ih =>
    obtain ⟨k, z⟩ := y
    unfold tfind at h
    split at h
    next hk => rw [Option.some.inj h, hk]; exact List.mem_cons_self ..
    next hk =>
      split at h
      · exact List.mem_cons_of_mem _ (ih h)
      · simp at h

theorem pendIn_none {m : Wright} (h : m.pend = []) (a n : Nat) : pendIn m a n = false := by simp [pendIn, h]

/-- A current token answered: its COMBINE sent, its slot free, issue goes on (R207). -/
def Work.answers (w : Work) (g slot : Nat) (q : Packet) : Work :=
  (((((w.sendTok q).onRun g fun r => { r with current := none }).count 2 g 24).onWright g fun e => { e with inbox := tdel e.inbox slot, full := false }).onWright g
    fun e => { e with waitingToks := [] }).onRun g runNext

theorem answers_wright {w : Work} {g : Nat} {r : Run} (hrun : (w.wright g).run = some r) (slot : Nat) (q : Packet) :
    (w.answers g slot q).wright g = { w.wright g with run := some (runNext { r with current := none }), inbox := tdel (w.wright g).inbox slot, full := false, waitingToks := [] } := by
  have hwright : ((w.sendTok q).onRun g fun r => { r with current := none }).wright g = { w.wright g with run := some { r with current := none } } :=
    onRun_wright (w := w.sendTok q) hrun _
  simp [Work.answers, Work.onRun, hrun, Work.sendTok]

theorem answers_toks (w : Work) (g slot : Nat) (q : Packet) : (w.answers g slot q).hub.fabric.toks = tset w.hub.fabric.toks w.hub.fabric.nextId q :=
  congrArg Fabric.toks (count_reports ((w.sendTok q).onRun g fun r => { r with current := none }) 2 g 24 1).fabric

theorem slotFreed_none {w : Work} {x slot : Nat} (h : (w.wright x).waitingToks = []) :
    w.slotFreed x slot = (w.onWright x fun e => { e with inbox := tdel e.inbox slot, full := false }).onWright x fun e => { e with waitingToks := [] } := by
  have hwait : ((w.onWright x fun e => { e with inbox := tdel e.inbox slot, full := false }).wright x).waitingToks = [] := by rw [wright_onWright]; exact h
  rw [Work.slotFreed, fillInbox_none hwait]

theorem does_answer {s : State} {g n a : Nat} {r : Run} {p : Packet} {tb : BTable} (h : s.CanIssue g 0x09 r) (hcur : r.current = some p) (hmode : bit (curStep r).mode 0 = false)
    (ht : s.work.table p.table = some tb) (hhere : handleHub p.token = s.work.hubId) (hn : n = 32 * tb.hdr.outBeats) (ha : a = streamPos r (streamOf r (curStep r).sa))
    (halign : a % 128 = 0) (hpend : (s.work.wright g).pend = []) (hwait : (s.work.wright g).waitingToks = []) : Does (.answer g) s fun t =>
      (∃ y ∈ t.hub.fabric.toks, y.2 = combineOf s.work (g / 4) p tb (localRead (s.work.wright g) a n) (poisonIn (s.work.wright g) a n))
      ∧ (t.work.wright g).inbox = tdel (s.work.wright g).inbox r.currentSlot ∧ (t.work.wright g).run = some { r with pc := r.pc + 1, current := none } := by
  have hcombine := combineOut_sends (b := g / 4) (out := localRead (s.work.wright g) a n) ht (by rw [localRead_length, hn]) hhere (poisonIn (s.work.wright g) a n)
  generalize combineOf s.work (g / 4) p tb (localRead (s.work.wright g) a n) (poisonIn (s.work.wright g) a n) = q at hcombine ⊢
  have hfree : ((((s.work.sendTok q).onRun g fun r => { r with current := none }).count 2 g 24).wright g).waitingToks = [] := by
    rw [wright_count, onRun_wright (w := s.work.sendTok q) h.1]
    exact hwait
  refine does_work (exec_answer g s) (w := s.work.answers g r.currentSlot q) ((stepGo_issues h _).trans ?_) ?_
  · subst ha hn
    simp only [hcur, hmode, ht, halign, pendIn_none hpend, Bool.false_eq_true, if_false, ne_eq, not_true_eq_false, hcombine]
    rw [slotFreed_none hfree]
    rfl
  · have hwright := answers_wright h.1 r.currentSlot q
    have htoks := answers_toks s.work g r.currentSlot q
    generalize s.work.answers g r.currentSlot q = v at hwright htoks
    refine ⟨⟨(s.work.hub.fabric.nextId, q), ?_, rfl⟩, congrArg Wright.inbox hwright, (congrArg Wright.run hwright).trans ?_⟩
    · have hin : (s.work.hub.fabric.nextId, q) ∈ v.hub.fabric.toks := by
        rw [htoks]
        exact mem_of_tfind (tfind_tset_self _ _ _)
      exact hin
    · have hphase : ({ r with current := none } : Run).phase = .issue := h.2.1
      rw [runNext_issuing hphase]

/-- Tokens that wait while nothing serves them stall their engine (R204). -/
theorem serveStalls_idle {w : Work} {g : Nat} (hrun : (w.wright g).run = none) (hin : (w.wright g).inbox ≠ []) (hwait : (w.wright g).waitingToks = []) :
    w.serveStalls g = (w.onWright g fun e => { e with
      stalled := true, full := e.full || (decide (0 < (w.wright g).slots) && decide ((w.wright g).slots ≤ (w.wright g).inbox.length)) }).onWright g fun e => { e with waitingToks := [] } := by
  have hheld : ((w.onWright g fun e => { e with
      stalled := true, full := e.full || (decide (0 < (w.wright g).slots) && decide ((w.wright g).slots ≤ (w.wright g).inbox.length)) }).wright g).waitingToks = [] := by
    rw [wright_onWright]; exact hwait
  rw [← spillToks_none hheld]
  simp [Work.serveStalls, hrun, hin]

theorem does_serveStall {s : State} {g : Nat} (hrun : (s.work.wright g).run = none) (hin : (s.work.wright g).inbox ≠ []) (hwait : (s.work.wright g).waitingToks = []) :
    Does (.serveStallTimeout g) s fun t => t.work.wright g = { s.work.wright g with
      stalled := true, full := (s.work.wright g).full || (decide (0 < (s.work.wright g).slots) && decide ((s.work.wright g).slots ≤ (s.work.wright g).inbox.length)) }
      ∧ Exactly s t (fun h => { h with wrights := t.hub.wrights }) := by
  refine does_work (exec_serveStallTimeout g s) (serveStalls_idle hrun hin hwait) ?_
  refine ⟨?_, rfl, rfl, rfl⟩
  refine (wright_onWright _ _ _).trans ?_
  rw [wright_onWright]
  rw [← hwait]

/-! ## The obligation -/

/-- The run that a token was taken into, its step done. -/
theorem runNext_tokenTaken (a : Nat) (p : Packet) (r : Run) : runNext (tokenTaken a p r) = { r with
    current := some p, currentSlot := a, pc := r.pc + 1, phase := .issue,
    params := (((r.params.set 60 a).set 61 p.expert).set 62 p.rank).set 63 (p.expert * (curStep r).imm % 2 ^ 64) } := rfl

/-- Settles O19: what INBOX, ANSWER and the stall do of their engine. -/
theorem expertService : Obligations.ExpertService := by
  unfold Obligations.ExpertService
  refine ⟨?takes, ?waits, ?present, ?none, ?answers, ?stall⟩
  case takes => exact fun s g r a p q => does_inboxTakes
  case waits => exact fun s g r => does_inboxWaits
  case present => exact fun s g r a p q => does_inboxPresent
  case none => exact fun s g r => does_answerNone
  case answers => exact fun s g r p tb a n h hcur hmode ht hhere hn ha halign hpend hwait => does_answer h hcur hmode ht hhere hn ha halign hpend hwait
  case stall => exact fun s g => does_serveStall

end Sys2Proof.Machine
end

section
/-! PROOFS. Packs and recipes are installed, removed, launched, begun and stopped (R156-R159, R191, R198, R201, R202). -/

namespace Sys2Proof.Machine

/-! ## Structures in host memory (R408) -/

/-- A structure in host memory that can be read is given to what follows as one word. -/
theorem withStructure_host {s : State} {e : EntryRef} {x : RingEntry} {n : Nat} (h : s.HostReads e x n) (k : Nat → Work → Work) :
    (s.work.markRunning e).withStructure e x.word n k = k (s.hostWord e x n) (s.work.markRunning e) := by
  obtain ⟨hspace, hup, hclean⟩ := h
  have hfunc : (s.work.markRunning e).funcOf e.berth = s.work.funcOf e.berth := rfl
  have hport : (s.work.markRunning e).portUp (s.work.funcOf e.berth).port = true := hup
  have hpoison : (s.work.markRunning e).poisoned (hostKey (s.work.funcOf e.berth).port (bits x.word 191 128)) n = false := hclean
  simp only [Work.withStructure, Work.readPointer, hspace, if_true, Work.readHost, hfunc, hport, hpoison, Bool.not_true, Bool.false_eq_true, if_false]
  rfl

/-! ## Packs -/

/-- PACK_INSTALL of an image (R157). -/
def Work.packInstallAt (w : Work) (e : EntryRef) (i : Nat) : Work :=
  let p : Pack := { berth := bits i 45 32, word := i }
  let n := bits i 27 16
  if bits i 15 0 ≠ 1 then w.complete e stBadVersion
  else if 4096 ≤ p.berth || (!w.hub.board.berthsHigh && 256 ≤ p.berth) then w.complete e stBadIdent
  else if p.berth ≠ e.berth || w.holder 7 n ≠ some e.berth then w.complete e stNotOwner
  else if (tfind w.hub.packs n).isSome then w.complete e stPackBusy
  else if !packShape p then w.complete e stBadShape
  else if w.hub.packs.any (fun (_, q) => q.berth = p.berth && packsMeet p q) then w.complete e stPackOverlap
  else (w.onHub fun h => { h with packs := tset h.packs n p }).complete e stOk

theorem exec_packInstall (e : EntryRef) (s : State) : exec (.packInstall e) s = s.run fun w => w.command e 0x10 false fun x w => w.withStructure e x 64 fun i w => w.packInstallAt e i := rfl

/-- An image that passes every check is installed (R157). -/
theorem packInstallAt_installs {w : Work} {e : EntryRef} {i : Nat} (hv : bits i 15 0 = 1) (hb : bits i 45 32 = e.berth) (hlt : e.berth < 4096) (hhigh : w.hub.board.berthsHigh = true)
    (hheld : w.holder 7 (bits i 27 16) = some e.berth) (hfree : tfind w.hub.packs (bits i 27 16) = none) (hshape : packShape { berth := e.berth, word := i } = true)
    (hmeet : ∀ y ∈ w.hub.packs, y.2.berth = e.berth → packsMeet { berth := e.berth, word := i } y.2 = false) :
    w.packInstallAt e i = (w.onHub fun h => { h with packs := tset h.packs (bits i 27 16) { berth := e.berth, word := i } }).complete e stOk := by
  have hnone : (w.hub.packs.any fun y => y.2.berth = e.berth && packsMeet { berth := e.berth, word := i } y.2) = false := by
    rw [List.any_eq_false]
    intro y hy
    by_cases hyb : y.2.berth = e.berth
    · simp [hmeet y hy hyb]
    · simp [hyb]
  simp only [Work.packInstallAt, hv, hb, Nat.not_le.2 hlt, hhigh, hheld, hfree, hshape, hnone, ne_eq, not_true_eq_false, decide_false, Bool.not_true, Bool.false_and, Bool.or_self,
    Option.isSome_none, Bool.false_eq_true, if_false]

/-- PACK_REMOVE of a descriptor (R159). -/
def Work.packRemoveAt (w : Work) (e : EntryRef) (n : Nat) : Work :=
  if w.holder 7 n ≠ some e.berth then w.complete e stNotOwner
  else match tfind w.hub.packs n with
    | some p => if p.removing then w.complete e stNotInstalled else w.packRemove n (some e)
    | none => w.complete e stNotInstalled

theorem exec_packRemove (e : EntryRef) (s : State) : exec (.packRemove e) s = s.run fun w => w.command e 0x11 false fun x w => w.packRemoveAt e (bits x 267 256) := rfl

/-- Settles O15: the image that the entry names is installed and the entry completes; a removal closes its descriptor. -/
theorem packs : Obligations.Packs := by
  unfold Obligations.Packs
  refine ⟨?install, ?remove⟩
  case install =>
    intro s e x i n hi hreads hword hn hv hb hlt hhigh hheld hfree hshape hmeet
    subst hn
    have hbegins := (command_begins hi (.inl (by omega)) fun x w => w.withStructure e x 64 fun i w => w.packInstallAt e i).trans (withStructure_host hreads _)
    rw [← hword] at hbegins
    have hinstalls := packInstallAt_installs (w := s.work.markRunning e) hv hb hlt hhigh hheld hfree hshape hmeet
    have hanswers : ((s.work.markRunning e).onHub fun h => { h with packs := tset h.packs (bits i 27 16) { berth := e.berth, word := i } }).Answers s e :=
      (markRunning_answers s e).frame rfl (fun _ => rfl) fun _ => rfl
    refine (hanswers.does_complete hi (exec_packInstall e s) (hbegins.trans hinstalls)).imp fun t ⟨hdone, hrings, hqueue, _⟩ => ?_
    have hpacks : t.hub.packs = tset s.hub.packs (bits i 27 16) { berth := e.berth, word := i } := hrings.packs
    refine ⟨?_, fun m hm => ?_, hdone, within_rings hrings hqueue ?_⟩
    · rw [hpacks, tfind_tset_self]
    · rw [hpacks, tfind_tset_ne _ _ hm]
    · rw [hpacks]
      rfl
  case remove =>
    intro s e x p n hi hn hheld hfind hopen
    subst hn
    have hbegins := command_begins hi (.inl (by omega)) fun x w => w.packRemoveAt e (bits x 267 256)
    refine does_work (exec_packRemove e s) (w := (s.work.markRunning e).onHub fun h => { h with packs := tset h.packs (bits x.word 267 256) { p with removing := true, removeEntry := some e } })
      (hbegins.trans ?_) ?_
    · have hh : (s.work.markRunning e).holder 7 (bits x.word 267 256) = some e.berth := hheld
      have hf : tfind (s.work.markRunning e).hub.packs (bits x.word 267 256) = some p := hfind
      simp only [Work.packRemoveAt, hh, hf, hopen, Work.packRemove, ne_eq, not_true_eq_false, Bool.false_eq_true, if_false]
    · exact ⟨tfind_tset_self _ _ _, fun m hm => tfind_tset_ne _ _ hm, rfl, rfl, rfl⟩

end Sys2Proof.Machine
end

section
/-! PROOFS. What a read of device virtual memory leaves as it was, and how many bytes it gives (R188, R291, R347-R353). -/

namespace Sys2Proof.Machine

/-! ## What a read leaves -/

/-- The hub without what an access to memory changes on its way: sites, fabric, memory units, regulation, Chart units, the berths' views, free values. -/
def offReads (h : Hub) : Hub := { h with sites := [], fabric := {}, memory := {}, bwr := {}, chart := {}, ten := {}, free := 0 }

/-- From one work to the next only those have changed, and what reports change. -/
abbrev Reads (w w' : Work) : Prop := Same offReads w w'

theorem Reports.reads {w w' : Work} (h : Reports w w') : Reads w w' := h.same _
theorem Reads.wrights {w w' : Work} (h : Reads w w') : w'.hub.wrights = w.hub.wrights := by have e := congrArg Hub.wrights h; exact e
theorem Reads.wright {w w' : Work} (h : Reads w w') (g : Nat) : w'.wright g = w.wright g := by unfold Work.wright; rw [h.wrights]

section
variable (w : Work)

theorem count_reads (k i c n : Nat) : Reads w (w.count k i c n) := (count_reports w k i c n).reads
theorem log_reads (e : LogEvent) : Reads w (w.log e) := (log_reports w e).reads
theorem viewCount_reads (b i n : Nat) : Reads w (w.viewCount b i n) := rfl
theorem onMem_reads (f : MemUnits → MemUnits) : Reads w (w.onMem f) := rfl
theorem onChart_reads (f : Chart → Chart) : Reads w (w.onChart f) := rfl
theorem onSPort_reads (n : Nat) (f : SPort → SPort) : Reads w (w.onSPort n f) := rfl

theorem charge_reads (b k ctl n : Nat) : Reads w (w.charge b k ctl n) := by
  have hcredit : Reads w (match tfind w.hub.bwr.recs (w.groupOf b * 10 + k) with
      | some _ => w.setCredit (w.groupOf b * 10 + k) ctl (max (-(w.accrual (w.groupOf b * 10 + k) 2 : Int)) (w.creditNow (w.groupOf b * 10 + k) ctl - n))
      | none => w) := by
    split
    · rfl
    · exact .refl _ w
  unfold Work.charge
  dsimp only
  have hcounted (v : Work) (hv : Reads w v) : Reads w ((v.onBwr fun x => { x with charged := tmod 0 x.charged (w.groupOf b * 10 + k) (· + n) }).count 11 (w.groupOf b * 10 + k) 0 n) :=
    Same.trans hv (Same.trans (b := v.onBwr _) rfl (count_reads _ _ _ _ _))
  split
  · exact (hcounted _ hcredit).trans (viewCount_reads _ _ _ _)
  · split
    · exact (hcounted _ hcredit).trans (viewCount_reads _ _ _ _)
    · exact hcounted _ hcredit

theorem chargeAt_reads (b k ctl n prio : Nat) : Reads w (w.chargeAt b k ctl n prio) := by
  unfold Work.chargeAt
  split
  · exact .refl _ w
  · exact charge_reads w b k ctl n

theorem busRead_reads (b g prio : Nat) : Reads w (w.busRead b g prio) :=
  Same.trans (b := (w.checkHit g).2) rfl ((count_reads _ _ _ _ _).trans (chargeAt_reads _ _ _ _ _ _))

theorem busWrite_reads (b g prio : Nat) (whole : Bool) : Reads w (w.busWrite b g prio whole) := by
  have hcounted : Reads w ((w.checkHit g).2.count 7 (channelOf (g * 256)) (4 + prio)) := Same.trans (b := (w.checkHit g).2) rfl (count_reads _ _ _ _ _)
  unfold Work.busWrite
  dsimp only
  split
  · exact (hcounted.trans (count_reads _ _ _ _ _)).trans (chargeAt_reads _ _ _ _ _ _)
  · exact hcounted.trans (chargeAt_reads _ _ _ _ _ _)

theorem writeBackLine_reads (l : HoldLine) : Reads w (w.writeBackLine l) := by
  unfold Work.writeBackLine
  dsimp only
  split
  · exact ((count_reads w _ _ _ _).trans (busWrite_reads _ _ _ _ _)).trans (onMem_reads _ _)
  · exact onMem_reads w _

theorem holdCharge_reads (b a n prio g : Nat) : Reads w (w.holdCharge b a n prio g) := chargeAt_reads w _ _ _ _ _

end

/-! ## The Hold -/

/-- A granule that goes past the Hold (R301). -/
def Work.holdUncached (w : Work) (b a n : Nat) (write : Bool) (prio g : Nat) (merges : Bool) : Work :=
  if write then (w.count 8 (dieOf g) 2).busWrite b g prio (whole 256 a n g && !merges) else (w.count 8 (dieOf g) 2).busRead b g prio

/-- A line of the Hold is used: it becomes the newest (R301). -/
def Work.holdUse (w : Work) (b a n : Nat) (write : Bool) (prio g : Nat) (l : HoldLine) : Work :=
  let l := if write then w.dirtyLine l a n else l
  (w.holdCharge b a n prio g).onMem fun m => { m with hold := l :: m.hold.filter fun x => x.granule ≠ g }

/-- A granule enters a partition's way. -/
def Work.holdFill (w : Work) (b slot gen a n : Nat) (write : Bool) (prio g : Nat) (merges : Bool) (p : Nat) : Work :=
  let v := if write && !merges && ((partsOf 128 a n).filter fun l => l / 2 = g).all (fun l => whole 128 a n l) then w.count 8 (dieOf g) 1
    else (w.count 8 (dieOf g) 1).busRead b g prio
  v.holdUse b a n write prio g { granule := g, part := p, berth := b, slot := slot, gen := gen }

/-- A granule that the Hold does not have. -/
def Work.holdMiss (w : Work) (b slot gen a n : Nat) (write : Bool) (prio g : Nat) (merges : Bool) : Work :=
  let set := setOfGranule g
  let ways := (w.ways b (dieOf g)).filter fun p => (p, set) ∉ w.hub.memory.rowsRetired
  if ways = [] || b ∈ w.hub.memory.purging then w.holdUncached b a n write prio g merges
  else
    let inSet := w.hub.memory.hold.filter fun l => dieOf l.granule = dieOf g && setOfGranule l.granule = set
    match ways.find? fun p => inSet.all fun l => l.part ≠ p with
    | some p => w.holdFill b slot gen a n write prio g merges p
    | none =>
      match (inSet.filter fun l => l.part ∈ ways && l.berth = b).getLast? with
      | some v => (w.writeBackLine v).holdFill b slot gen a n write prio g merges v.part
      | none => w.holdUncached b a n write prio g merges

theorem holdGranule_eq (w : Work) (b slot gen a n : Nat) (write : Bool) (prio g : Nat) (merges : Bool) : w.holdGranule b slot gen a n write prio g merges =
    if dieOf g ∈ w.hub.memory.diesOut then w.holdUncached b a n write prio g merges
    else match w.hub.memory.hold.find? fun l => l.granule = g with
      | some l => if l.slot = slot && l.gen = gen then (w.count 8 (dieOf g) 0).holdUse b a n write prio g l else (w.writeBackLine l).holdMiss b slot gen a n write prio g merges
      | none => w.holdMiss b slot gen a n write prio g merges := rfl

section
variable (w : Work) (b slot gen a n : Nat) (write : Bool) (prio g : Nat) (merges : Bool)

theorem holdUncached_reads : Reads w (w.holdUncached b a n write prio g merges) := by
  unfold Work.holdUncached
  split
  · exact (count_reads w _ _ _ _).trans (busWrite_reads _ _ _ _ _)
  · exact (count_reads w _ _ _ _).trans (busRead_reads _ _ _ _)

theorem holdUse_reads (l : HoldLine) : Reads w (w.holdUse b a n write prio g l) := (holdCharge_reads w b a n prio g).trans (onMem_reads _ _)

theorem holdFill_reads (p : Nat) : Reads w (w.holdFill b slot gen a n write prio g merges p) := by
  unfold Work.holdFill
  refine Same.trans ?_ (holdUse_reads _ _ _ _ _ _ _ _)
  split
  · exact count_reads w _ _ _ _
  · exact (count_reads w _ _ _ _).trans (busRead_reads _ _ _ _)

theorem holdMiss_reads : Reads w (w.holdMiss b slot gen a n write prio g merges) := by
  unfold Work.holdMiss
  dsimp only
  split
  · exact holdUncached_reads w _ _ _ _ _ _ _
  · split
    · exact holdFill_reads w _ _ _ _ _ _ _ _ _ _
    · split
      · exact (writeBackLine_reads w _).trans (holdFill_reads _ _ _ _ _ _ _ _ _ _ _)
      · exact holdUncached_reads w _ _ _ _ _ _ _

/-- One granule of an access passes the Hold: whatever it finds there, only memory units and what is charged change. -/
theorem holdGranule_reads : Reads w (w.holdGranule b slot gen a n write prio g merges) := by
  rw [holdGranule_eq]
  split
  · exact holdUncached_reads w _ _ _ _ _ _ _
  · split
    · split
      · exact (count_reads w _ _ _ _).trans (holdUse_reads _ _ _ _ _ _ _ _)
      · exact (writeBackLine_reads w _).trans (holdMiss_reads _ _ _ _ _ _ _ _ _ _)
    · exact holdMiss_reads w _ _ _ _ _ _ _ _ _

theorem holdAccess_reads : Reads w (w.holdAccess b slot gen a n write prio merges) := by
  unfold Work.holdAccess
  split
  · exact .each _ _ w fun g v => holdGranule_reads v _ _ _ _ _ _ _ _ _
  · split
    · exact chargeAt_reads w _ _ _ _ _
    · exact chargeAt_reads w _ _ _ _ _
    · exact .refl _ w

end

/-! ## Translation -/

section
variable (w : Work)

theorem walkStall_reads (u : Nat) : Reads w (w.walkStall u) := by
  have hcount : Reads w (w.fresh.2.count 12 u 3 (w.fresh.1 % 2 ^ 48)) := Same.trans (b := w.fresh.2) rfl (count_reads _ _ _ _ _)
  unfold Work.walkStall
  dsimp only
  split
  · exact hcount.trans (count_reads _ _ _ _ _)
  · exact hcount

theorem hotSample_reads (u b dva e : Nat) : Reads w (w.hotSample u b dva e) := by
  unfold Work.hotSample
  dsimp only
  split
  · rfl
  · split
    · rfl
    · split
      · rfl
      · refine Same.trans ?_ (count_reads _ _ _ _ _)
        rfl

variable {w} in
theorem reads_ite {α : Type} {c : Prop} [Decidable c] {a b : α × Work} (ha : Reads w a.2) (hb : Reads w b.2) : Reads w (if c then a else b).2 := by
  split
  · exact ha
  · exact hb

theorem leafCheck_reads (u b dva e log2 : Nat) (q : Ask) : Reads w (w.leafCheck u b dva e log2 q).2 := by
  have hpacked : Reads w (if bit e 24 then w.count 12 u 8 else w) := by
    split
    · exact count_reads w _ _ _ _
    · exact .refl _ w
  refine reads_ite (count_reads w _ _ _ _) (reads_ite (count_reads w _ _ _ _) (reads_ite (count_reads w _ _ _ _) (reads_ite (log_reads w _) ?_)))
  dsimp only
  split
  · exact hpacked.trans (hotSample_reads _ _ _ _ _)
  · exact hpacked

theorem walk_reads (u b dva : Nat) : Reads w (w.walk u b dva).2 := by
  have hreads (r : Root) (rs : List Nat) : Reads w ((each rs.reverse (fun a v => v.holdAccess r.tableBerth r.tableBerth r.tkgen a 16 false 3) w).count 12 u 2 rs.length) :=
    (Same.each _ _ w fun a v => holdAccess_reads v _ _ _ _ _ _ _ _).trans (count_reads _ _ _ _ _)
  unfold Work.walk
  dsimp only
  split
  · exact count_reads w _ _ _ _
  · split
    · exact (log_reads w _).trans (count_reads _ _ _ _ _)
    · split
      · refine Same.trans ?_ (count_reads _ _ _ _ _)
        split
        · exact (hreads _ _).trans (log_reads _ _)
        · exact (hreads _ _).trans (log_reads _ _)
        · exact hreads _ _
      · split
        · exact (hreads _ _).trans ((log_reads _ _).trans (count_reads _ _ _ _ _))
        · exact (hreads _ _).trans (onChart_reads _ _)

end

section
variable (w : Work)

theorem xlate_reads (u b dva : Nat) (q : Ask) : Reads w (w.xlate u b dva q).2 := by
  unfold Work.xlate
  dsimp only
  split
  · split
    · exact onChart_reads w _
    · exact .refl _ w
  · split
    · exact (count_reads w _ _ _ _).trans (leafCheck_reads _ _ _ _ _ _ _)
    · have hmissed : Reads w ((w.count 12 u 1).viewCount b 8) := (count_reads w _ _ _ _).trans (viewCount_reads _ _ _ _)
      split
      · exact hmissed.trans (onChart_reads _ _)
      · have hwalked := (hmissed.trans (walkStall_reads _ u)).trans (walk_reads _ u b dva)
        split
        next v hw => rw [hw] at hwalked; exact hwalked
        next t v hw => rw [hw] at hwalked; exact hwalked.trans (leafCheck_reads _ _ _ _ _ _ _)

theorem xlateNow_reads (u b dva : Nat) (q : Ask) : Reads w (w.xlateNow u b dva q).2 := by
  have hx := xlate_reads w u b dva q
  unfold Work.xlateNow
  split
  next v hv =>
    rw [hv] at hx
    have hwalked := hx.trans (walk_reads v u b dva)
    split
    next z hz => rw [hz] at hwalked; exact hwalked
    next t z hz => rw [hz] at hwalked; exact hwalked.trans (leafCheck_reads _ _ _ _ _ _ _)
  · exact hx

theorem bmeCount_reads (d status : Nat) : Reads w (w.bmeCount d status) := by
  unfold Work.bmeCount
  split
  · exact count_reads w _ _ _ _
  · exact .refl _ w

theorem hostReqs_reads (q : D2H) (a n : Nat) : Reads w (w.hostReqs q a n) := by
  unfold Work.hostReqs
  split
  · exact .each _ _ w fun _ _ => rfl
  · exact .refl _ w

theorem fetchStart_reads (k : Agent × Nat) (b dva n e d prio : Nat) : Reads w (w.fetchStart k b dva n e d prio) := rfl

end

/-! ## Reads -/

/-- A read of one piece, given what a dense view reads. -/
theorem readPiece_reads (w : Work) (u b a n prio : Nat) (key : Option (Agent × Nat)) {view : Work → Pack → DvaRes × Work} (hview : ∀ v p, Reads v (view v p).2) :
    Reads w (w.readPiece u b a n prio key view).2 := by
  unfold Work.readPiece
  dsimp only
  split
  · split
    · exact .refl _ w
    · split
      · exact .refl _ w
      · split <;> exact .refl _ w
  · have hx := xlateNow_reads w u b a {}
    split
    next v hv => rw [hv] at hx; exact hx
    next v hv => rw [hv] at hx; exact hx
    next v hv => rw [hv] at hx; exact hx
    next e p v hv =>
      rw [hv] at hx
      split
      · exact hx
      · exact hx.trans (hview _ _)
      · split
        · exact hx.trans (fetchStart_reads _ _ _ _ _ _ _ _)
        · exact hx.trans (bmeCount_reads _ _ _)
        · split
          · exact hx
          · exact (hx.trans (holdAccess_reads _ _ _ _ _ _ _ _ _)).trans (hostReqs_reads _ _ _ _)

/-- Pieces read one after another. -/
theorem joinReads_reads (parts : List (Nat × Nat)) (dva : Nat) {read : Work → Nat → Nat → DvaRes × Work} (hread : ∀ v a n, Reads v (read v a n).2) (w : Work) :
    Reads w (w.joinReads parts dva read).2 := by
  unfold Work.joinReads
  suffices h : ∀ acc : DvaRes × Work, Reads w acc.2 → Reads w (parts.foldl (fun (acc : DvaRes × Work) (o, len) =>
      match acc.1 with
      | .ok d ps =>
        match read acc.2 ((dva + o) % 2 ^ 57) len with
        | (.ok e qs, w) => (.ok (d ++ e) (ps ++ qs), w)
        | (.bad s t x, w) => (.bad s t (o + x), w)
        | (.wait, w) => (.wait, w)
      | r => (r, acc.2)) acc).2 from h _ (.refl _ w)
  induction parts with
  | nil => exact fun acc h => h
  | cons x parts ih =>
    intro acc h
    refine ih _ ?_
    dsimp only
    split
    · have hr := h.trans (hread acc.2 ((dva + x.1) % 2 ^ 57) x.2)
      split
      next hv => rw [hv] at hr; exact hr
      next hv => rw [hv] at hr; exact hr
      next hv => rw [hv] at hr; exact hr
    · exact h

section
variable (w : Work)

theorem readPlain_reads (u b dva n prio : Nat) (key : Option (Agent × Nat)) : Reads w (w.readPlain u b dva n prio key).2 :=
  joinReads_reads _ _ (fun v a len => readPiece_reads v u b a len prio key fun v _ => .refl _ v) w

theorem indexRead_reads (u b : Nat) (p : Pack) (m a n prio : Nat) (key : Option (Agent × Nat)) : Reads w (w.indexRead u b p m a n prio key).2 := by
  unfold Work.indexRead
  split
  · exact onSPort_reads w _ _
  · have hr := readPlain_reads w u b a n prio key
    split
    next hv =>
      rw [hv] at hr
      split
      · exact hr
      · exact hr.trans ((count_reads _ _ _ _ _).trans (onSPort_reads _ _ _))
    · exact hr

theorem slotRead_reads (u b : Nat) (p : Pack) (k a n prio : Nat) (key : Option (Agent × Nat)) : Reads w (w.slotRead u b p k a n prio key).2 := by
  unfold Work.slotRead
  split
  · exact readPlain_reads w _ _ _ _ _ _
  · refine joinReads_reads _ _ (fun v x len => ?_) w
    dsimp only
    split
    · rfl
    · have hr := readPlain_reads v u b (x / 256 * 256) 256 prio key
      split
      next hv => rw [hv] at hr; exact hr.trans rfl
      · exact hr

theorem withIndex_reads {r : DvaRes × Work} (hr : Reads w r.2) (ones : Nat) {f : List Byte → Work → PackRes × Work} (hf : ∀ e v, Reads v (f e v).2) : Reads w (Work.withIndex r ones f).2 := by
  unfold Work.withIndex
  split
  · exact hr
  · exact hr
  · exact hr.trans (hf _ _)
  · exact hr

theorem withSlot_reads {r : DvaRes × Work} (hr : Reads w r.2) (placed : Bool) {f : List Byte → Bool → Work → PackRes × Work} (hf : ∀ e b v, Reads v (f e b v).2) :
    Reads w (Work.withSlot r placed f).2 := by
  unfold Work.withSlot
  split
  · exact hr
  · exact hr
  · exact hr.trans (hf _ _ _)

/-- One granule of a dense view, whatever its stored form. -/
theorem packGranule_reads (u b : Nat) (p : Pack) (k prio : Nat) (key : Option (Agent × Nat)) : Reads w (w.packGranule u b p k prio key).2 := by
  unfold Work.packGranule
  dsimp only
  split
  · refine withIndex_reads w (indexRead_reads w _ _ _ _ _ _ _ _) _ fun e v => ?_
    split
    · exact .refl _ v
    · exact withSlot_reads v (readPlain_reads v _ _ _ _ _ _) _ fun _ _ z => .refl _ z
  · refine withIndex_reads w (indexRead_reads w _ _ _ _ _ _ _ _) _ fun e v => ?_
    split
    · exact .refl _ v
    · split
      · exact .refl _ v
      · refine withSlot_reads v (slotRead_reads v _ _ _ _ _ _ _ _) _ fun d bad z => ?_
        repeat' split
        all_goals exact .refl _ z
  · exact withSlot_reads w (slotRead_reads w _ _ _ _ _ _ _ _) _ fun _ _ z => .refl _ z

theorem readDense_reads (u b : Nat) (p : Pack) (a n prio : Nat) (key : Option (Agent × Nat)) : Reads w (w.readDense u b p a n prio key).2 := by
  have hg := packGranule_reads w u b p ((a - packDense p) / 256) prio key
  unfold Work.readDense
  dsimp only
  split
  next hv => rw [hv] at hg; exact hg
  next hv => rw [hv] at hg; exact (hg.trans (log_reads _ _)).trans rfl
  next hv => rw [hv] at hg; exact hg
  next hv => rw [hv] at hg; exact hg

/-- A read of device virtual memory changes nothing but what its accesses pass. -/
theorem readDva_reads (u b dva n prio : Nat) (key : Option (Agent × Nat)) : Reads w (w.readDva u b dva n prio key).2 :=
  joinReads_reads _ _ (fun v a len => readPiece_reads v u b a len prio key fun v p => readDense_reads v u b p a len prio key) w

end

/-! ## How many bytes a read gives -/

theorem slice_length (l : List Byte) (o n : Nat) : (slice l o n).length = n := by
  simp only [slice, List.length_append, List.length_replicate]
  have : ((l.drop o).take n).length ≤ n := List.length_take_le _ _
  omega

theorem junk_length (w : Work) (n : Nat) : (w.junk n).1.length = n := by simp [Work.junk]

theorem get_length (w : Work) (slot gen a n : Nat) : (w.get slot gen a n).length = n := by
  unfold Work.get
  split
  · simp
  · simp [Mem.bytes]

/-- A piece that reads gives as many bytes as are asked for. -/
theorem readPiece_length {w : Work} {u b a n prio : Nat} {key : Option (Agent × Nat)} {view : Work → Pack → DvaRes × Work}
    (hview : ∀ v p d ps, (view v p).1 = .ok d ps → d.length = n) {d : List Byte} {ps : List Nat} (h : (w.readPiece u b a n prio key view).1 = .ok d ps) : d.length = n := by
  unfold Work.readPiece at h
  dsimp only at h
  split at h
  · repeat' split at h
    all_goals simp at h
    · rw [← h.1, slice_length]
    · rw [← h.1, slice_length]
  · split at h
    · simp at h
    · simp at h
    · simp at h
    · split at h
      · simp at h
      · exact hview _ _ _ _ h
      · split at h
        · simp at h
        · simp at h
        · split at h
          · simp at h
          · simp at h
            rw [← h.1, get_length]

end Sys2Proof.Machine
end

section
/-! PROOFS. Recipes are installed, removed, launched, begun and stopped (R191, R198, R201, R202). -/

namespace Sys2Proof.Machine

/-! ## How many bytes a read gives -/

theorem readDense_length {w : Work} {u b : Nat} {p : Pack} {a n prio : Nat} {key : Option (Agent × Nat)} {d : List Byte} {ps : List Nat} (h : (w.readDense u b p a n prio key).1 = .ok d ps) :
    d.length = n := by
  unfold Work.readDense at h
  dsimp only at h
  split at h
  · injection h with hd
    rw [← hd, slice_length]
  · injection h with hd
    rw [← hd, junk_length]
  · cases h
  · cases h

/-- A result that is no failure holds so many bytes. -/
def Gives (n : Nat) (x : DvaRes) : Prop := ∀ d ps, x = .ok d ps → d.length = n

/-- Pieces read one after another give what each gives, in all. -/
theorem joinReads_length (parts : List (Nat × Nat)) (dva : Nat) {read : Work → Nat → Nat → DvaRes × Work} (hread : ∀ v a n, Gives n (read v a n).1) (w : Work) :
    Gives (parts.map (·.2)).sum (w.joinReads parts dva read).1 := by
  unfold Work.joinReads
  suffices h : ∀ (acc : DvaRes × Work) k, Gives k acc.1 → Gives (k + (parts.map (·.2)).sum) (parts.foldl (fun (acc : DvaRes × Work) (o, len) =>
      match acc.1 with
      | .ok d ps =>
        match read acc.2 ((dva + o) % 2 ^ 57) len with
        | (.ok e qs, w) => (.ok (d ++ e) (ps ++ qs), w)
        | (.bad s t x, w) => (.bad s t (o + x), w)
        | (.wait, w) => (.wait, w)
      | r => (r, acc.2)) acc).1 by
    have hall := h (.ok [] [], w) 0 fun d ps hd => by injection hd with hd; rw [← hd]; rfl
    rwa [Nat.zero_add] at hall
  induction parts with
  | nil => exact fun acc k h => h
  | cons x parts ih =>
    intro acc k h
    rw [List.map_cons, List.sum_cons, ← Nat.add_assoc]
    refine ih _ _ ?_
    dsimp only
    split
    next d ps hd =>
      have hr := hread acc.2 ((dva + x.1) % 2 ^ 57) x.2
      split
      next e qs v hv =>
        rw [hv] at hr
        intro d' ps' hd'
        injection hd' with hd'
        rw [← hd', List.length_append, h d ps hd, hr e qs rfl]
      · exact fun _ _ hd' => nomatch hd'
      · exact fun _ _ hd' => nomatch hd'
    next hnot => exact fun d ps hd => absurd hd (hnot d ps)

/-- The granules from a on, up to the k-th, share out what lies below its end. -/
theorem granules_sum (a n k : Nat) : ((List.range k).map fun i => min (a + n) ((i + a / 256) * 256 + 256) - max a ((i + a / 256) * 256)).sum = min (a + n) ((k + a / 256) * 256) - a := by
  induction k with
  | zero => simp; omega
  | succ k ih =>
    rw [List.range_succ, List.map_append, List.sum_append, ih]
    simp only [List.map_cons, List.map_nil, List.sum_cons, List.sum_nil]
    omega

/-- The pieces of n bytes are n bytes in all. -/
theorem pieces_sum (a n : Nat) : ((pieces a n).map (·.2)).sum = n := by
  unfold pieces partsOf
  split
  next hn => simp [hn]
  next hn =>
    rw [List.map_map, List.map_map]
    refine (granules_sum a n ((a + n - 1) / 256 - a / 256 + 1)).trans ?_
    omega

/-- A read of device virtual memory gives as many bytes as are asked for. -/
theorem readDva_length {w : Work} {u b dva n prio : Nat} {key : Option (Agent × Nat)} {d : List Byte} {ps : List Nat} (h : (w.readDva u b dva n prio key).1 = .ok d ps) : d.length = n := by
  have hsum := joinReads_length (pieces dva n) dva (fun v a len _ _ hd => readPiece_length (fun v p d ps => readDense_length) hd) w d ps h
  rwa [pieces_sum] at hsum

theorem chunksAux_length {α : Type} {n : Nat} (hn : 0 < n) (f m : Nat) (l : List α) (hl : l.length = n * m) (hm : m ≤ f) : (chunksAux n f l).length = m := by
  induction m generalizing f l with
  | zero =>
    have : l = [] := List.eq_nil_of_length_eq_zero (by omega)
    subst this
    cases f <;> rfl
  | succ m ih =>
    have hpos : 0 < l.length := by rw [hl]; exact Nat.mul_pos hn (Nat.succ_pos m)
    obtain ⟨f, rfl⟩ : ∃ k, f = k + 1 := ⟨f - 1, by omega⟩
    obtain ⟨x, t, rfl⟩ := List.exists_cons_of_ne_nil (List.length_pos_iff.1 hpos)
    rw [chunksAux.eq_3 _ _ _ (by simp), List.length_cons, ih f _ ?_ (by omega)]
    rw [List.length_drop, hl, Nat.mul_succ]
    omega

/-- A list of n * m elements is cut into m parts of n. -/
theorem chunks_length {α : Type} {n m : Nat} (hn : 0 < n) {l : List α} (hl : l.length = n * m) : (chunks n l).length = m :=
  chunksAux_length hn _ _ _ hl (by rw [hl]; exact Nat.le_mul_of_pos_left m hn)

/-! ## Install and remove -/

/-- RECIPE_INSTALL of an image (R198). -/
def Work.recipeInstallAt (w : Work) (e : EntryRef) (i : Nat) : Work :=
  let r := recipeAt i
  let n := bits i 25 16
  if bits i 15 0 ≠ 1 then w.complete e stBadVersion
  else if 4096 ≤ r.berth || (!w.hub.board.berthsHigh && 256 ≤ r.berth) || !r.steps.all w.stepIdent then w.complete e stBadIdent
  else if r.berth ≠ e.berth || w.holder 5 n ≠ some e.berth
      || r.steps.any (fun s => match stepObject s with | some (k, o) => w.holder k o ≠ some r.berth | none => false) then w.complete e stNotOwner
  else if (tfind w.hub.recipes n).isSome then w.complete e stRecipeBusy
  else if !recipeShape r then w.complete e stBadShape
  else (w.onHub fun h => { h with recipes := tset h.recipes n r }).complete e stOk

theorem exec_recipeInstall (e : EntryRef) (s : State) : exec (.recipeInstall e) s = s.run fun w => w.command e 0x04 false fun x w => w.withStructure e x 64 fun h w =>
    w.withStructure e x (imageBytes h) fun i w => w.recipeInstallAt e i := rfl

/-- An image that passes every check is installed (R198). -/
theorem recipeInstallAt_installs {w : Work} {e : EntryRef} {i : Nat} {r : Recipe} (hr : recipeAt i = r) (hv : bits i 15 0 = 1) (hb : r.berth = e.berth) (hlt : e.berth < 4096)
    (hhigh : w.hub.board.berthsHigh = true) (hident : r.steps.all w.stepIdent = true) (hheld : w.holder 5 (bits i 25 16) = some e.berth) (hobj : ∀ st ∈ r.steps, stepObject st = none)
    (hfree : tfind w.hub.recipes (bits i 25 16) = none) (hshape : recipeShape r = true) :
    w.recipeInstallAt e i = (w.onHub fun h => { h with recipes := tset h.recipes (bits i 25 16) r }).complete e stOk := by
  have hnone : (r.steps.any fun st => match stepObject st with | some (k, o) => w.holder k o ≠ some r.berth | none => false) = false := by
    rw [List.any_eq_false]
    intro st hst
    simp [hobj st hst]
  simp only [Work.recipeInstallAt, hr, hv, hb, Nat.not_le.2 hlt, hhigh, hident, hheld, hfree, hshape, ne_eq, not_true_eq_false, decide_false, Bool.not_true, Bool.false_and, Bool.or_self,
    Bool.false_or, Option.isSome_none, Bool.false_eq_true, if_false]
  rw [if_neg]
  simpa [hb] using hnone

/-- RECIPE_REMOVE of a recipe (R191). -/
def Work.recipeRemoveAt (w : Work) (e : EntryRef) (n : Nat) : Work :=
  if w.holder 5 n ≠ some e.berth then w.complete e stNotOwner
  else match tfind w.hub.recipes n with
    | some r => if r.removing then w.complete e stNotInstalled else w.recipeRemove n (some e)
    | none => w.complete e stNotInstalled

theorem exec_recipeRemove (e : EntryRef) (s : State) : exec (.recipeRemove e) s = s.run fun w => w.command e 0x05 false fun x w => w.recipeRemoveAt e (bits x 265 256) := rfl

/-- An image in host memory that passes every check is installed. -/
theorem does_recipeInstall {s : State} {e : EntryRef} {x : RingEntry} {k i : Nat} {r : Recipe} (hi : s.Issued e x 0x04) (hreads : s.HostReads e x 64) (hk : k = s.hostWord e x 64)
    (himage : s.HostReads e x (imageBytes k)) (hword : i = s.hostWord e x (imageBytes k)) (hr : recipeAt i = r) (hv : bits i 15 0 = 1) (hb : r.berth = e.berth) (hlt : e.berth < 4096)
    (hhigh : s.hub.board.berthsHigh = true) (hident : r.steps.all s.work.stepIdent = true) (hheld : s.work.holder 5 (bits i 25 16) = some e.berth) (hobj : ∀ st ∈ r.steps, stepObject st = none)
    (hfree : tfind s.hub.recipes (bits i 25 16) = none) (hshape : recipeShape r = true) : Does (.recipeInstall e) s fun t =>
      tfind t.hub.recipes (bits i 25 16) = some r ∧ (∀ m, m ≠ bits i 25 16 → tfind t.hub.recipes m = tfind s.hub.recipes m) ∧ s.Completes t e x 0 0 0
      ∧ Within s t (fun h => { h with recipes := t.hub.recipes, ten := t.hub.ten }) := by
  have hbegins := (command_begins hi (.inl (by omega)) fun x w => w.withStructure e x 64 fun h w =>
    w.withStructure e x (imageBytes h) fun i w => w.recipeInstallAt e i).trans (withStructure_host hreads _)
  rw [← hk] at hbegins
  replace hbegins := hbegins.trans (withStructure_host himage _)
  rw [← hword] at hbegins
  have hinstalls := recipeInstallAt_installs (w := s.work.markRunning e) hr hv hb hlt hhigh hident hheld hobj hfree hshape
  have hanswers : ((s.work.markRunning e).onHub fun h => { h with recipes := tset h.recipes (bits i 25 16) r }).Answers s e :=
    (markRunning_answers s e).frame rfl (fun _ => rfl) fun _ => rfl
  refine (hanswers.does_complete hi (exec_recipeInstall e s) (hbegins.trans hinstalls)).imp fun t ⟨hdone, hrings, hqueue, _⟩ => ?_
  have hrecipes : t.hub.recipes = tset s.hub.recipes (bits i 25 16) r := hrings.recipes
  refine ⟨?_, fun m hm => ?_, hdone, within_rings hrings hqueue ?_⟩
  · rw [hrecipes, tfind_tset_self]
  · rw [hrecipes, tfind_tset_ne _ _ hm]
  · rw [hrecipes]
    rfl

/-- A removal closes its recipe. -/
theorem does_recipeRemove {s : State} {e : EntryRef} {x : RingEntry} {r : Recipe} (hi : s.Issued e x 0x05) (hheld : s.work.holder 5 (bits x.word 265 256) = some e.berth)
    (hfind : tfind s.hub.recipes (bits x.word 265 256) = some r) (hopen : r.removing = false) : Does (.recipeRemove e) s fun t =>
      tfind t.hub.recipes (bits x.word 265 256) = some { r with removing := true, removeEntry := some e } ∧ (∀ m, m ≠ bits x.word 265 256 → tfind t.hub.recipes m = tfind s.hub.recipes m)
      ∧ Exactly s t (fun h => { h with recipes := t.hub.recipes, ten := t.hub.ten }) := by
  have hbegins := command_begins hi (.inl (by omega)) fun x w => w.recipeRemoveAt e (bits x 265 256)
  refine does_work (exec_recipeRemove e s) (w := (s.work.markRunning e).onHub fun h => { h with recipes := tset h.recipes (bits x.word 265 256) { r with removing := true, removeEntry := some e } })
    (hbegins.trans ?_) ?_
  · have hh : (s.work.markRunning e).holder 5 (bits x.word 265 256) = some e.berth := hheld
    have hf : tfind (s.work.markRunning e).hub.recipes (bits x.word 265 256) = some r := hfind
    simp only [Work.recipeRemoveAt, hh, hf, hopen, Work.recipeRemove, ne_eq, not_true_eq_false, Bool.false_eq_true, if_false]
  · exact ⟨tfind_tset_self _ _ _, fun m hm => tfind_tset_ne _ _ hm, rfl, rfl, rfl⟩

/-! ## Launch -/

/-- The launch goes to the end of its engine's queue; the head of a queue that was empty begins to wait. -/
def Work.launchQueued (w : Work) (g : Nat) (l : Launch) : Work :=
  let head := (w.wright g).queue = []
  let w := w.onWright g fun y => { y with queue := y.queue ++ [l] }
  if head then w.headWait g else w

/-- RECIPE_LAUNCH on an engine (R201, R410). -/
def Work.recipeLaunchAt (w : Work) (e : EntryRef) (x g : Nat) (l : Launch) : Work :=
  if 64 ≤ g || (w.wright g).failed then w.complete e stBadIdent
  else if w.holder 1 g ≠ some e.berth then w.complete e stNotOwner
  else match tfind w.hub.recipes l.recipe with
    | none => w.launchEnds g { l with report := 0 } stNotInstalled []
    | some r =>
      if r.berth ≠ e.berth || r.removing then w.launchEnds g { l with report := 0 } stNotInstalled []
      else if !r.serve && bits x 381 352 ≠ 0 then w.complete e stBadShape
      else if (w.wright g).out then w.launchEnds g { l with report := 0 } stEngineOut []
      else if 16 ≤ (w.wright g).queue.length then w.launchEnds g { l with report := 0 } stEngineBusy []
      else w.launchQueued g l

theorem exec_recipeLaunch (e : EntryRef) (s : State) : exec (.recipeLaunch e) s = s.run fun w => w.command e 0x02 false fun x w => w.recipeLaunchAt e x (bits x 135 128) (launchAt e x) := rfl

/-- A launch with nothing to wait for, or behind another, only joins the queue. -/
theorem launchQueued_plain {w : Work} {g : Nat} {l : Launch} (h : (w.wright g).queue ≠ [] ∨ l.startEn = false) :
    w.launchQueued g l = w.onWright g fun y => { y with queue := y.queue ++ [l] } := by
  unfold Work.launchQueued
  dsimp only
  split
  next hempty =>
    have hstart := h.resolve_left (not_not_intro hempty)
    have hqueue : ((w.onWright g fun y => { y with queue := y.queue ++ [l] }).wright g).queue = [l] := by rw [wright_onWright, hempty]; rfl
    simp only [Work.headWait, hqueue, hstart, Bool.false_and, Bool.false_eq_true, if_false]
  next => rfl

/-- An admitted launch joins the queue of its engine. -/
theorem does_recipeLaunch {s : State} {e : EntryRef} {x : RingEntry} {g : Nat} {l : Launch} {r : Recipe} (hi : s.Issued e x 0x02) (hg : g = bits x.word 135 128) (hlt : g < 64)
    (hok : (s.work.wright g).failed = false) (hheld : s.work.holder 1 g = some e.berth) (hl : l = launchAt e x.word) (hfind : tfind s.hub.recipes l.recipe = some r) (hb : r.berth = e.berth)
    (hopen : r.removing = false) (hserve : r.serve = true ∨ bits x.word 381 352 = 0) (hin : (s.work.wright g).out = false) (hroom : (s.work.wright g).queue.length < 16)
    (hwait : (s.work.wright g).queue ≠ [] ∨ l.startEn = false) : Does (.recipeLaunch e) s fun t =>
      t.work.wright g = { s.work.wright g with queue := (s.work.wright g).queue ++ [l] } ∧ (∀ y, y ≠ g → t.work.wright y = s.work.wright y)
      ∧ Exactly s t (fun h => { h with wrights := t.hub.wrights, ten := t.hub.ten }) := by
  subst hg hl
  have hbegins := command_begins hi (.inl (by omega)) fun x w => w.recipeLaunchAt e x (bits x 135 128) (launchAt e x)
  refine does_work (exec_recipeLaunch e s) (w := (s.work.markRunning e).onWright (bits x.word 135 128) fun y => { y with queue := y.queue ++ [launchAt e x.word] })
    (hbegins.trans ?_) ?_
  · have hw : (s.work.markRunning e).wright (bits x.word 135 128) = s.work.wright (bits x.word 135 128) := rfl
    have hh : (s.work.markRunning e).holder 1 (bits x.word 135 128) = some e.berth := hheld
    have hf : tfind (s.work.markRunning e).hub.recipes (launchAt e x.word).recipe = some r := hfind
    have hshape : (!r.serve && decide (bits x.word 381 352 ≠ 0)) = false := by
      rcases hserve with h | h
      · simp [h]
      · simp [h]
    simp only [Work.recipeLaunchAt, hw, Nat.not_le.2 hlt, hok, hh, hf, hb, hopen, hshape, hin, Nat.not_le.2 hroom, ne_eq, not_true_eq_false, decide_false, Bool.or_self, Bool.false_eq_true,
      if_false]
    exact launchQueued_plain hwait
  · exact ⟨wright_onWright _ _ _, fun y hy => wright_onWright_ne _ _ hy, rfl, rfl, rfl⟩

/-! ## Start -/

/-- The parameter words that no parameter block gives are free values. -/
def Work.freeParams (w : Work) (n : Nat) : List Nat := (w.freshes n).1.map (· % 2 ^ 64)

theorem freeParams_length (w : Work) (n : Nat) : (w.freeParams n).length = n := by simp [Work.freeParams, Work.freshes]

/-- An engine's launch is its run, at step 0. -/
def launchRuns (l : Launch) (r : Recipe) (ps : List Nat) (y : Wright) : Wright :=
  { y with queue := y.queue.drop 1, resident := some l.recipe, run := some { launch := l, recipe := r, params := ps } }

/-- The head of an engine's queue is its run, with these parameters read (R201). -/
def Work.runStarts (w : Work) (g : Nat) (l : Launch) (r : Recipe) (ws : List Nat) : Work :=
  let v := (w.freshes (64 - ws.length)).2.onWright g (launchRuns l r (ws ++ w.freeParams (64 - ws.length)))
  (if 8 * r.nparam = 0 then v else v.dropFetch (.wright g) 0).count 2 g 0

theorem runStarts_wright (w : Work) (g : Nat) (l : Launch) (r : Recipe) (ws : List Nat) :
    (w.runStarts g l r ws).wright g = launchRuns l r (ws ++ w.freeParams (64 - ws.length)) (w.wright g) := by
  have hstarts : ((w.freshes (64 - ws.length)).2.onWright g (launchRuns l r (ws ++ w.freeParams (64 - ws.length)))).wright g
      = launchRuns l r (ws ++ w.freeParams (64 - ws.length)) (w.wright g) := wright_onWright _ _ _
  rw [Work.runStarts, wright_count]
  split
  · exact hstarts
  · exact hstarts

/-- With no parameters the launch starts at once. -/
theorem launchBegins_bare {w : Work} {g : Nat} {l : Launch} {r : Recipe} (hn : r.nparam = 0) (hs : r.serve = false) : w.launchBegins g l r = w.runStarts g l r [] := by
  unfold Work.launchBegins
  rw [if_pos (by omega), hs]
  rfl

/-- With its parameters read, none of them poisoned, the launch starts with them. -/
theorem launchBegins_reads {w v : Work} {g : Nat} {l : Launch} {r : Recipe} {d : List Byte} (hn : 0 < r.nparam) (hs : r.serve = false)
    (hread : w.readDva (wrightUnit g) l.berth l.param (8 * r.nparam) 1 (some (.wright g, 0)) = (.ok d [], v)) : w.launchBegins g l r = v.runStarts g l r ((chunks 8 d).map leNat) := by
  unfold Work.launchBegins
  rw [if_neg (by omega), hread, hs]
  rfl

/-- The command on an engine's queue. -/
def Work.queueStarts (k : Work) (w : Nat) : Work :=
  let y := k.wright w
  match y.run, y.queue with
  | none, l :: q =>
    if y.out then k
    else if l.startFailed ≠ 0 then ((k.onWright w fun y => { y with queue := q }).launchDropped w l stHelmError).headWait w
    else if l.startEn && !l.startMet then k
    else match tfind k.hub.recipes l.recipe with
      | some r =>
        if k.imageLost w l.recipe r then ((k.onWright w fun y => { y with queue := q }).launchDropped w l stTargetDead).headWait w
        else k.launchBegins w l r
      | none => ((k.onWright w fun y => { y with queue := q }).launchDropped w l stNotInstalled).headWait w
  | _, _ => k

theorem exec_recipeStart (g : Nat) (s : State) : exec (.recipeStart g) s = s.run fun k => k.queueStarts g := rfl

/-- A head whose start condition holds begins. -/
theorem queueStarts_begins {w : Work} {g : Nat} {l : Launch} {q : List Launch} {r : Recipe} (hrun : (w.wright g).run = none) (hqueue : (w.wright g).queue = l :: q)
    (hin : (w.wright g).out = false) (hstart : l.startFailed = 0) (hmet : l.startEn = false ∨ l.startMet = true) (hfind : tfind w.hub.recipes l.recipe = some r)
    (himage : w.imageLost g l.recipe r = false) : w.queueStarts g = w.launchBegins g l r := by
  have hwaits : (l.startEn && !l.startMet) = false := by rcases hmet with h | h <;> simp [h]
  simp only [Work.queueStarts, hrun, hqueue, hin, hstart, hwaits, hfind, himage, ne_eq, not_true_eq_false, Bool.false_eq_true, if_false]

theorem does_startBare {s : State} {g : Nat} {l : Launch} {q : List Launch} {r : Recipe} (hqueue : (s.work.wright g).queue = l :: q) (hn : r.nparam = 0) (hs : r.serve = false)
    (hbegins : s.work.queueStarts g = s.work.launchBegins g l r) : Does (.recipeStart g) s fun t =>
      (∃ ps, ps.length = 64 ∧ t.work.wright g = { s.work.wright g with queue := q, resident := some l.recipe, run := some { launch := l, recipe := r, params := ps } })
      ∧ t.mem = s.mem ∧ Within s t (fun h => { h with wrights := t.hub.wrights, free := t.hub.free }) := by
  refine does_work (exec_recipeStart g s) (hbegins.trans (launchBegins_bare hn hs)) ?_
  have hengine : ((s.work.runStarts g l r []).wright g) = launchRuns l r (s.work.freeParams 64) (s.work.wright g) := runStarts_wright s.work g l r []
  have hmem : SameMem s.work (s.work.runStarts g l r []) := by
    rw [Work.runStarts, if_pos (by omega)]
    exact SameMem.trans ⟨rfl, rfl⟩ (count_mem _ _ _ _ _)
  have hreports : Reports ((s.work.freshes 64).2.onWright g (launchRuns l r (s.work.freeParams 64))) (s.work.runStarts g l r []) := by
    rw [Work.runStarts, if_pos (by omega)]
    exact count_reports _ _ _ _ _
  have hwithin : Within s (s.commit (s.work.runStarts g l r [])) fun h => { h with wrights := (s.work.runStarts g l r []).hub.wrights, free := (s.work.runStarts g l r []).hub.free } := by
    refine ⟨rfl, ?_⟩
    have hq := congrArg (fun h : Hub => { h with wrights := (s.work.runStarts g l r []).hub.wrights, free := (s.work.runStarts g l r []).hub.free }) hreports
    have hw := congrArg Hub.wrights hreports
    have hf := congrArg Hub.free hreports
    dsimp only [quietHub] at hw hf
    refine Eq.trans ?_ hq
    rfl
  refine ⟨⟨s.work.freeParams 64, freeParams_length _ _, hengine.trans ?_⟩, commit_mem_of_sameMem hmem, hwithin⟩
  rw [launchRuns, hqueue]
  rfl

theorem does_startReads {s : State} {g : Nat} {l : Launch} {q : List Launch} {r : Recipe} {d : List Byte} (hrun : (s.work.wright g).run = none) (hqueue : (s.work.wright g).queue = l :: q)
    (hn : 0 < r.nparam) (hs : r.serve = false) (hread : (s.work.readDva (wrightUnit g) l.berth l.param (8 * r.nparam) 1 (some (.wright g, 0))).1 = .ok d [])
    (hbegins : s.work.queueStarts g = s.work.launchBegins g l r) : Does (.recipeStart g) s fun t =>
      (t.work.wright g).queue = q ∧ (t.work.wright g).run.map (fun y => (y.launch, y.recipe, y.pc, y.loops)) = some (l, r, 0, [])
      ∧ (t.work.wright g).run.map (fun y => y.params.take r.nparam) = some (((chunks 8 d).map leNat).take r.nparam) := by
  have hlength := readDva_length hread
  have hengine := (readDva_reads s.work (wrightUnit g) l.berth l.param (8 * r.nparam) 1 (some (.wright g, 0))).wright g
  generalize hresult : s.work.readDva (wrightUnit g) l.berth l.param (8 * r.nparam) 1 (some (.wright g, 0)) = res at hread hengine
  obtain ⟨res, v⟩ := res
  dsimp only at hread hengine
  rw [hread] at hresult
  refine does_work (exec_recipeStart g s) (hbegins.trans (launchBegins_reads hn hs hresult)) ?_
  have hstarts := runStarts_wright v g l r ((chunks 8 d).map leNat)
  rw [hengine] at hstarts
  have hwords : ((chunks 8 d).map leNat).length = r.nparam := by rw [List.length_map, chunks_length (by omega) hlength]
  generalize v.runStarts g l r ((chunks 8 d).map leNat) = u at hstarts
  have hw : (s.commit u).work.wright g = launchRuns l r ((chunks 8 d).map leNat ++ v.freeParams (64 - ((chunks 8 d).map leNat).length)) (s.work.wright g) := hstarts
  refine ⟨?_, ?_, ?_⟩
  · rw [hw, launchRuns, hqueue]
    rfl
  · rw [hw]
    rfl
  · rw [hw]
    refine congrArg some ?_
    exact List.take_append_of_le_length (Nat.le_of_eq hwords.symm)

/-! ## Stop -/

/-- What outcomes of waits do not touch at an engine. -/
def engineUntold (x : Wright) : Wright := { x with queue := [], run := x.run.map fun r => { r with waitMet := none } }

/-- From one work to the next the engine may have been told the outcome of a wait, and memory is as before. -/
structure Told (g : Nat) (w w' : Work) : Prop where
  engine : engineUntold (w'.wright g) = engineUntold (w.wright g)
  mem : SameMem w w'

theorem Told.refl (g : Nat) (w : Work) : Told g w w := ⟨rfl, rfl, rfl⟩
theorem Told.trans {g : Nat} {a b c : Work} (h : Told g a b) (k : Told g b c) : Told g a c := ⟨k.engine.trans h.engine, h.mem.trans k.mem⟩
theorem Told.each {g : Nat} {α : Type} (l : List α) (f : α → Work → Work) (w : Work) (hf : ∀ a w, Told g w (f a w)) : Told g w (each l f w) :=
  each_keeps l f w (.refl g w) fun a _ h => h.trans (hf a _)

theorem told_ite {g : Nat} {w a b : Work} {c : Prop} [Decidable c] (ha : Told g w a) (hb : Told g w b) : Told g w (if c then a else b) := by
  split
  · exact ha
  · exact hb

theorem Told.onWright {g : Nat} (w : Work) (x : Nat) (f : Wright → Wright) (hf : ∀ y, engineUntold (f y) = engineUntold y) : Told g w (w.onWright x f) := by
  refine ⟨?_, rfl, rfl⟩
  by_cases h : g = x
  · rw [h, wright_onWright, hf]
  · rw [wright_onWright_ne w f h]

theorem notify_told (g : Nat) (w : Work) (p : Party) (c v : Nat) : Told g w (w.notify p c v) := by
  cases p with
  | site n tag b =>
    have h := siteSend_sends w n (notifyBytes (if c = 0 then 0 else 9) tag b v)
    have hw : (w.siteSend n (notifyBytes (if c = 0 then 0 else 9) tag b v)).hub.wrights = w.hub.wrights := by rw [h.hub]
    refine ⟨congrArg engineUntold ?_, h.mem, h.writes⟩
    exact congrArg (fun l => tget {} l g) hw
  | wright x =>
    refine .onWright w x _ fun y => ?_
    cases hy : y.run <;> simp [engineUntold, hy]
  | launch x => exact .onWright w x _ fun y => rfl
  | entry b r i => exact ⟨rfl, rfl, rfl⟩

theorem tellWaiter_told (g : Nat) (w : Work) (x : Waiter) (c v : Nat) : Told g w (w.tellWaiter x c v) := by
  unfold Work.tellWaiter
  split
  · exact notify_told g w _ _ _
  · exact ⟨rfl, rfl, rfl⟩

theorem spillOut_told (g : Nat) (l : List SpillRead) (w : Work) : Told g w (w.spillOut l) := by
  induction l generalizing w with
  | nil => exact ⟨rfl, rfl, rfl⟩
  | cons x l ih =>
    rw [Work.spillOut]
    split
    · exact (notify_told g w _ _ _).trans (ih _)
    · exact ⟨rfl, rfl, rfl⟩

theorem serveSem_told (g n : Nat) (fuel : Nat) (w : Work) : Told g w (w.serveSem n fuel) := by
  induction fuel generalizing w with
  | zero => exact .refl g w
  | succ fuel ih =>
    rw [Work.serveSem]
    split
    · exact .refl g w
    · refine told_ite (.refl g w) (Told.trans ?_ ((tellWaiter_told g _ _ _ _).trans (ih _)))
      exact ⟨rfl, rfl, rfl⟩

/-- Waits are withdrawn: those behind them may be told, and nothing else reaches an engine. -/
theorem withdrawWaits_told (g : Nat) (w : Work) (pick : Party → Bool) : Told g w (w.withdrawWaits pick) := by
  unfold Work.withdrawWaits
  dsimp only
  refine Told.trans ?_ (.each _ _ _ fun n v => serveSem_told g n _ v)
  refine Told.trans ?_ (spillOut_told g _ _)
  exact ⟨rfl, rfl, rfl⟩

/-- The accesses of an engine that stops: its LOADs are discarded, its STOREs go on (R202). -/
def storesOnly (e : Wright) : Wright :=
  let loads := e.accesses.filter fun a => !a.store
  { e with accesses := e.accesses.filter fun a => a.store, pend := e.pend.filter fun v => loads.all fun a => v ∉ a.vecs }

/-- A run whose engine stops (R202). -/
def runStopped (status : Nat) (r : Run) : Run :=
  if r.phase = .ending then { r with status := if r.status = 0 || r.status = stStopped then status else r.status } else runEndsAt r status r.pc (loopIndices r)

theorem stopRun_eq (w : Work) (x status : Nat) : w.stopRun x status =
    ((((((w.withdrawWaits fun p => p = .wright x).nullAnswer x).closeInbox x).onWright x storesOnly).onRun x (runStopped status)).tryEnd x) := rfl

/-- An engine that issues, with no token, is stopped: its run ends and stays for its STOREs. -/
theorem stopRun_stops {w : Work} {x : Nat} {r : Run} (hrun : (w.wright x).run = some r) (hphase : r.phase = .issue) (hcur : r.current = none) (hin : (w.wright x).inbox = []) :
    ((w.stopRun x stStopped).wright x).run.map (fun y => (y.phase, y.status, y.endStep)) = some (.ending, 1, r.pc) ∧ ((w.stopRun x stStopped).wright x).stopEntries = (w.wright x).stopEntries
    ∧ ((w.stopRun x stStopped).wright x).accesses = (w.wright x).accesses.filter (fun a => a.store) ∧ SameMem w (w.stopRun x stStopped) := by
  have htold := withdrawWaits_told x w fun p => p = .wright x
  rw [stopRun_eq]
  generalize (w.withdrawWaits fun p => p = .wright x) = v at htold
  have hrunv : ∃ r', (v.wright x).run = some r' ∧ { r' with waitMet := none } = { r with waitMet := none } := by
    have h := congrArg Wright.run htold.engine
    simp only [engineUntold, hrun, Option.map_some] at h
    exact Option.map_eq_some_iff.1 h
  obtain ⟨r', hr', heq⟩ := hrunv
  have hphase' : r'.phase = .issue := (congrArg Run.phase heq).trans hphase
  have hcur' : r'.current = none := (congrArg Run.current heq).trans hcur
  have hpc' : r'.pc = r.pc := by have h := congrArg Run.pc heq; exact h
  have hin' : (v.wright x).inbox = [] := (congrArg Wright.inbox htold.engine).trans hin
  have hacc : (v.wright x).accesses = (w.wright x).accesses := by have h := congrArg Wright.accesses htold.engine; exact h
  have hstops : (v.wright x).stopEntries = (w.wright x).stopEntries := by have h := congrArg Wright.stopEntries htold.engine; exact h
  have hclosed : v.closeInbox x = v.onWright x fun e => { e with inbox := [], full := e.full } := by
    rw [Work.closeInbox, hin']
    rfl
  rw [nullAnswer_none hr' hcur', hclosed]
  have hstopped : runStopped stStopped r' = { r' with phase := .ending, status := 1, endStep := r'.pc, endLoops := loopIndices r' } := by
    simp [runStopped, runEndsAt, hphase', stStopped]
  have hengine : ((((v.onWright x fun e => { e with inbox := [], full := e.full }).onWright x storesOnly).onRun x (runStopped stStopped)).wright x)
      = { storesOnly { v.wright x with inbox := [] } with run := some { r' with phase := .ending, status := 1, endStep := r'.pc, endLoops := loopIndices r' } } := by
    rw [onRun_wright (r := r'), hstopped]
    · rw [wright_onWright, wright_onWright]
    · rw [wright_onWright, wright_onWright]
      exact hr'
  have hstays : ∀ u : Work, u.wright x = { storesOnly { v.wright x with inbox := [] } with run := some { r' with phase := .ending, status := 1, endStep := r'.pc, endLoops := loopIndices r' } } →
      u.tryEnd x = u := fun u hu => by simp [Work.tryEnd, hu, stStopped]
  rw [hstays _ hengine, hengine]
  refine ⟨?_, hstops, ?_, htold.mem.trans ⟨rfl, rfl⟩⟩
  · rw [Option.map_some, hpc']
  · rw [← hacc]
    rfl

/-- RECIPE_STOP on an engine (R202). -/
def Work.recipeStopAt (w : Work) (e : EntryRef) (g : Nat) : Work :=
  if 64 ≤ g || (w.wright g).failed then w.complete e stBadIdent
  else if w.holder 1 g ≠ some e.berth then w.complete e stNotOwner
  else
    let w := w.wrightStop g stStopped
    if (w.wright g).run.isNone then w.complete e stOk
    else w.onWright g fun y => { y with stopEntries := y.stopEntries ++ [e] }

theorem exec_recipeStop (e : EntryRef) (s : State) : exec (.recipeStop e) s = s.run fun w => w.command e 0x03 false fun x w => w.recipeStopAt e (bits x 263 256) := rfl

/-- With no launch queued, emptying the queue only withdraws waits. -/
theorem emptyQueue_told {w : Work} {x : Nat} (hqueue : (w.wright x).queue = []) (status : Nat) : Told x w (w.emptyQueue x status) := by
  unfold Work.emptyQueue
  rw [hqueue]
  dsimp only [each]
  refine Told.trans ?_ (withdrawWaits_told x _ _)
  exact (Told.onWright w x (fun e => { e with queue := [] }) fun y => rfl).trans ⟨rfl, rfl, rfl⟩

theorem does_recipeStop {s : State} {e : EntryRef} {x : RingEntry} {g : Nat} {r : Run} (hi : s.Issued e x 0x03) (hg : g = bits x.word 263 256) (hlt : g < 64)
    (hok : (s.work.wright g).failed = false) (hheld : s.work.holder 1 g = some e.berth) (hrun : (s.work.wright g).run = some r) (hphase : r.phase = .issue) (hcur : r.current = none)
    (hin : (s.work.wright g).inbox = []) (hqueue : (s.work.wright g).queue = []) : Does (.recipeStop e) s fun t =>
      (t.work.wright g).run.map (fun y => (y.phase, y.status, y.endStep)) = some (.ending, 1, r.pc) ∧ (t.work.wright g).stopEntries = (s.work.wright g).stopEntries ++ [e]
      ∧ (t.work.wright g).accesses = (s.work.wright g).accesses.filter (fun a => a.store) ∧ t.mem = s.mem := by
  subst hg
  have hbegins := command_begins hi (.inl (by omega)) fun x w => w.recipeStopAt e (bits x 263 256)
  have htold := emptyQueue_told (w := s.work.markRunning e) hqueue stStopped
  have hmarked : SameMem s.work (s.work.markRunning e) := ⟨rfl, rfl⟩
  have hw : (s.work.markRunning e).wright (bits x.word 263 256) = s.work.wright (bits x.word 263 256) := rfl
  have hat : (s.work.markRunning e).recipeStopAt e (bits x.word 263 256) = (let w := ((s.work.markRunning e).emptyQueue (bits x.word 263 256) stStopped).stopRun (bits x.word 263 256) stStopped
      if (w.wright (bits x.word 263 256)).run.isNone then w.complete e stOk else w.onWright (bits x.word 263 256) fun y => { y with stopEntries := y.stopEntries ++ [e] }) := by
    have hh : (s.work.markRunning e).holder 1 (bits x.word 263 256) = some e.berth := hheld
    simp only [Work.recipeStopAt, hw, Nat.not_le.2 hlt, hok, hh, ne_eq, not_true_eq_false, decide_false, Bool.or_self, Bool.false_eq_true, if_false]
    rfl
  replace hbegins := hbegins.trans hat
  have htells := htold.engine
  rw [hw] at htells
  generalize (s.work.markRunning e).emptyQueue (bits x.word 263 256) stStopped = v at htold htells hbegins
  obtain ⟨r', hr', heq⟩ : ∃ r', (v.wright (bits x.word 263 256)).run = some r' ∧ { r' with waitMet := none } = { r with waitMet := none } := by
    have h := congrArg Wright.run htells
    simp only [engineUntold, hrun, Option.map_some] at h
    exact Option.map_eq_some_iff.1 h
  have hpc : r'.pc = r.pc := by have h := congrArg Run.pc heq; exact h
  obtain ⟨hends, hstops, haccs, hmem⟩ := stopRun_stops hr' ((congrArg Run.phase heq).trans hphase) ((congrArg Run.current heq).trans hcur) ((congrArg Wright.inbox htells).trans hin)
  generalize v.stopRun (bits x.word 263 256) stStopped = u at hends hstops haccs hmem hbegins
  have hsome : (u.wright (bits x.word 263 256)).run.isNone = false := by
    cases hu : (u.wright (bits x.word 263 256)).run with
    | none => rw [hu] at hends; simp at hends
    | some y => rfl
  rw [if_neg (by rw [hsome]; simp)] at hbegins
  refine does_work (exec_recipeStop e s) hbegins ?_
  have hsame : (v.wright (bits x.word 263 256)).stopEntries = (s.work.wright (bits x.word 263 256)).stopEntries := by have h := congrArg Wright.stopEntries htells; exact h
  have hkept : (v.wright (bits x.word 263 256)).accesses = (s.work.wright (bits x.word 263 256)).accesses := by have h := congrArg Wright.accesses htells; exact h
  have hengine : ((s.commit (u.onWright (bits x.word 263 256) fun y => { y with stopEntries := y.stopEntries ++ [e] })).work.wright (bits x.word 263 256))
      = { u.wright (bits x.word 263 256) with stopEntries := (u.wright (bits x.word 263 256)).stopEntries ++ [e] } := wright_onWright _ _ _
  have hall : SameMem s.work (u.onWright (bits x.word 263 256) fun y => { y with stopEntries := y.stopEntries ++ [e] }) :=
    SameMem.trans ((hmarked.trans htold.mem).trans hmem) ⟨rfl, rfl⟩
  refine ⟨?_, ?_, ?_, commit_mem_of_sameMem hall⟩
  · rw [hengine, ← hpc]
    exact hends
  · rw [hengine]
    exact congrArg (· ++ [e]) (hstops.trans hsame)
  · rw [hengine]
    exact haccs.trans (congrArg (fun l => l.filter fun a => a.store) hkept)

/-- Settles O16: recipes are installed and removed under the checks of their entries; a launch joins its engine's queue, its head starts at step 0, and a stop leaves the run for its STOREs. -/
theorem recipes : Obligations.Recipes := by
  unfold Obligations.Recipes
  refine ⟨?install, ?remove, ?launch, ?bare, ?reads, ?stop⟩
  case install =>
    intro s e x k i r n hi hreads hk himage hword hr hn hv hb hlt hhigh hident hheld hobj hfree hshape
    subst hn
    exact does_recipeInstall hi hreads hk himage hword hr.symm hv hb hlt hhigh hident hheld hobj hfree hshape
  case remove =>
    intro s e x r n hi hn hheld hfind hopen
    subst hn
    exact does_recipeRemove hi hheld hfind hopen
  case launch =>
    intro s e x g l r hi hg hlt hok hheld hl hfind hb hopen hserve hin hroom hwait
    exact does_recipeLaunch hi hg hlt hok hheld hl hfind hb hopen hserve hin hroom hwait
  case bare =>
    intro s g l q r hrun hqueue hin hstart hmet hfind himage hn hs
    exact does_startBare hqueue hn hs (queueStarts_begins hrun hqueue hin hstart hmet hfind himage)
  case reads =>
    intro s g l q r d hrun hqueue hin hstart hmet hfind himage hn _ hs hread
    exact does_startReads hrun hqueue hn hs hread (queueStarts_begins hrun hqueue hin hstart hmet hfind himage)
  case stop =>
    intro s e x g r hi hg hlt hok hheld hrun hphase hcur hin hqueue
    exact does_recipeStop hi hg hlt hok hheld hrun hphase hcur hin hqueue

end Sys2Proof.Machine
end

section
/-! PROOFS. Throttle level, operating points, droop, ageing, temperature, voltage control (R507-R519, R588, R591). -/

namespace Sys2Proof.Machine

/-! ## The level and what follows it -/

/-- The hub without the Binnacle and the sites. -/
def offSteer (h : Hub) : Hub := { h with bin := {}, sites := [] }

/-- The Binnacle without its points on their way, the cause that BIN_STAT shows, and when it last told. -/
def binSteady (b : Bin) : Bin := { b with pendingOp := [], partly := false, cause := 0, lastIrq := none, lastExcess := none }

/-- From one work to the next the points and the sites' limits have followed a level, and memory below the hosts' is spared. -/
structure Steers (w w' : Work) : Prop extends Signals w w' where
  same : Same offSteer w w'
  bin : binSteady w'.hub.bin = binSteady w.hub.bin

theorem Steers.trans {a b c : Work} (h : Steers a b) (k : Steers b c) : Steers a c := ⟨h.toSignals.trans k.toSignals, h.same.trans k.same, k.bin.trans h.bin⟩
theorem Steers.ofReports {w w' : Work} (h : Reports w w') (k : Signals w w') : Steers w w' := ⟨k, h.same _, by rw [h.bin]⟩
theorem Steers.refl (w : Work) : Steers w w := .ofReports (.refl w) (Alerts.refl w).toSignals
theorem Steers.avsLost {w w' : Work} (h : Steers w w') : w'.hub.bin.avsLost = w.hub.bin.avsLost := by have e := congrArg Bin.avsLost h.bin; exact e
theorem Steers.each {α : Type} (l : List α) (f : α → Work → Work) (w : Work) (hf : ∀ a w, Steers w (f a w)) : Steers w (each l f w) :=
  each_keeps l f w (.refl w) fun a _ h => h.trans (hf a _)
theorem Steers.onBin (w : Work) (f : Bin → Bin) (hf : binSteady (f w.hub.bin) = binSteady w.hub.bin) : Steers w (w.onBin f) := ⟨(onBin_alerts w f).toSignals, rfl, hf⟩
theorem Steers.count (w : Work) (k i c n : Nat) : Steers w (w.count k i c n) := .ofReports (count_reports w k i c n) (count_alerts w k i c n).toSignals
theorem Steers.log (w : Work) {e : LogEvent} (he : e.cls % 256 ≠ 0) : Steers w (w.log e) := .ofReports (log_reports w e) (log_signals w he)
theorem Steers.irqs (w : Work) (l : List Nat) (src : Nat) : Steers w (w.irqs l src) := .ofReports (irqs_reports w l src) (irqs_alerts w l src).toSignals
theorem Steers.emit (w : Work) (o : Out) (ho : ∀ q k m, o ≠ .helm q k m) : Steers w (w.emit o) := .ofReports (emit_reports w o) (Alerts.emit w o ho).toSignals

theorem setVoltage_steers (w : Work) (op : Nat) : Steers w (w.setVoltage op) := by
  unfold Work.setVoltage
  split
  · exact .refl w
  · exact .emit w _ (by simp)

theorem retargetTo_steers (w : Work) (d t : Nat) : Steers w (w.retargetTo d t) := by
  have hbegin : Steers w ((w.onBin fun b => { b with pendingOp := tset b.pendingOp d t, partly := true }).count 18 0 (16 + d)) :=
    (Steers.onBin w (fun b => { b with pendingOp := tset b.pendingOp d t, partly := true }) rfl).trans (.count _ _ _ _ _)
  unfold Work.retargetTo
  dsimp only
  split
  · exact .refl w
  · split
    · exact hbegin.trans (setVoltage_steers _ t)
    · exact hbegin

theorem retarget_steers (w : Work) : Steers w w.retarget := by
  rw [retarget_eq]
  exact .each _ _ w fun x v => retargetTo_steers v x.1 x.2

theorem sendLimit_steers (w : Work) (n l c : Nat) : Steers w (w.sendLimit n l c) := by
  have hpower : Steers w (w.onSPower n fun p => { p with limit := l, limitCause := c }) := by
    refine ⟨Alerts.toSignals (.elsewhere ?_ ?_ ?_ ?_), rfl, rfl⟩ <;> rfl
  exact hpower.trans (.emit _ _ (by simp))

theorem sendLimits_steers (w : Work) : Steers w w.sendLimits := by
  refine .each _ _ w fun n v => ?_
  dsimp only
  split
  · exact .refl v
  · exact sendLimit_steers v _ _ _

/-- The level that the rules ask for, bounded, or 7 where it is held there (R513, R519, R588). -/
def levelAsked (b : Bin) (l : Nat) : Nat := if b.avsLost || b.critical then 7 else min l 7

/-- The Binnacle with a new level (R515). -/
def binAt (now l : Nat) (b : Bin) : Bin := { b with level := levelAsked b l, lastChange := if levelAsked b l = b.level then b.lastChange else now }

theorem steers_ite {w a b : Work} {c : Prop} [Decidable c] (ha : Steers w a) (hb : Steers w b) : Steers w (if c then a else b) := by
  split
  · exact ha
  · exact hb

/-- A level sets the Binnacle's level; points, limits and reports follow (R513, R515). -/
theorem level_steers (w : Work) (l : Nat) : Steers (w.onBin (binAt w.now l)) (w.level l) := by
  unfold Work.level
  extract_lets old k set counted cause follows logged soon
  have hset : set = w.onBin (binAt w.now l) := rfl
  rw [← hset]
  have hcounted : Steers set counted := steers_ite (.refl _) (.count _ _ _ _ _)
  clear_value set k old
  have hfollows : Steers counted follows := ((Steers.onBin counted (fun b => { b with cause := cause }) rfl).trans (retarget_steers _)).trans (sendLimits_steers _)
  clear_value counted cause
  have hlogged : Steers follows logged := .log _ (by show (0x12 : Nat) % 256 ≠ 0; decide)
  clear_value follows
  have htold : Steers logged (((logged.onBin fun b => { b with lastIrq := some logged.now }).emit (.pldm 11)).irqs logged.portsUp 11) :=
    ((Steers.onBin logged (fun b => { b with lastIrq := some logged.now }) rfl).trans (.emit _ _ (by simp))).trans (.irqs _ _ _)
  clear_value logged soon
  have hsteers := hcounted.trans hfollows
  exact steers_ite hsteers (steers_ite (hsteers.trans hlogged) ((hsteers.trans hlogged).trans htold))

/-- From one work to the next the Binnacle has become b, points, limits and reports following, and memory below the hosts' is spared. -/
structure Steered (w : Work) (b : Bin) (w' : Work) : Prop extends Signals w w' where
  same : Same offSteer w w'
  bin : binSteady w'.hub.bin = binSteady b

theorem Steers.steered {v w : Work} {f : Bin → Bin} (h : Steers (v.onBin f) w) : Steered v (f v.hub.bin) w := by
  have hset : Same offSteer v (v.onBin f) := rfl
  exact ⟨(onBin_alerts v f).toSignals.trans h.toSignals, hset.trans h.same, h.bin⟩

theorem Steered.steers {u v w : Work} {b : Bin} (h : Steered u b v) (k : Steers v w) : Steered u b w := ⟨h.toSignals.trans k.toSignals, h.same.trans k.same, k.bin.trans h.bin⟩

theorem Steered.onBin {u v : Work} {b : Bin} (h : Steered u b v) (f : Bin → Bin) (hf : binSteady (f v.hub.bin) = binSteady v.hub.bin) : Steered u b (v.onBin f) :=
  h.steers (.onBin v f hf)

/-- What a command on the level leaves: memory below the hosts', and every block but the Binnacle and the sites. -/
theorem Steered.apart {s : State} {b : Bin} {w : Work} (h : Steered s.work b w) :
    (∀ a < 0x0008000000000000, (s.commit w).mem.byte a = s.mem.byte a) ∧ Within s (s.commit w) fun q => { q with bin := w.hub.bin, sites := w.hub.sites } :=
  ⟨fun _ ha => h.toSignals.commit_byte ha, rfl, congrArg (fun q : Hub => { q with bin := w.hub.bin, sites := w.hub.sites }) h.same⟩

section
variable {u w : Work} {b : Bin} (h : Steered u b w)
include h

theorem Steered.level : w.hub.bin.level = b.level := by have e := congrArg Bin.level h.bin; exact e
theorem Steered.lastChange : w.hub.bin.lastChange = b.lastChange := by have e := congrArg Bin.lastChange h.bin; exact e
theorem Steered.pkgW : w.hub.bin.pkgW = b.pkgW := by have e := congrArg Bin.pkgW h.bin; exact e
theorem Steered.hist : w.hub.bin.hist = b.hist := by have e := congrArg Bin.hist h.bin; exact e
theorem Steered.hubW : w.hub.bin.hubW = b.hubW := by have e := congrArg Bin.hubW h.bin; exact e
theorem Steered.energy : w.hub.bin.energy = b.energy := by have e := congrArg Bin.energy h.bin; exact e
theorem Steered.pkgEnergy : w.hub.bin.pkgEnergy = b.pkgEnergy := by have e := congrArg Bin.pkgEnergy h.bin; exact e
theorem Steered.droopOver : w.hub.bin.droopOver = b.droopOver := by have e := congrArg Bin.droopOver h.bin; exact e
theorem Steered.peakOver : w.hub.bin.peakOver = b.peakOver := by have e := congrArg Bin.peakOver h.bin; exact e
theorem Steered.temps : (w.hub.bin.hubTj, w.hub.bin.holdTj) = (b.hubTj, b.holdTj) := by have e := congrArg (fun b : Bin => (b.hubTj, b.holdTj)) h.bin; exact e
theorem Steered.thermalHold : w.hub.bin.thermalHold = b.thermalHold := by have e := congrArg Bin.thermalHold h.bin; exact e
theorem Steered.critical : w.hub.bin.critical = b.critical := by have e := congrArg Bin.critical h.bin; exact e
theorem Steered.avsLost : w.hub.bin.avsLost = b.avsLost := by have e := congrArg Bin.avsLost h.bin; exact e

end

/-! ## Commands on the level -/

/-- Power is added up (R511, R523). -/
def binMeasured (x : PowerSample) (pkg : Nat) (b : Bin) : Bin :=
  { b with energy := b.energy + 1000 * (x.hubW + x.holdW), pkgEnergy := b.pkgEnergy + 1000 * pkg, pkgW := pkg, hubW := x.hubW, hist := (pkg :: b.hist).take 60000, droopOver := x.stretchOver }

/-- Temperatures read (R519). -/
def binSensed (hubTj holdTj : Nat) (b : Bin) : Bin :=
  { b with
    hubTj := hubTj, holdTj := holdTj
    thermalHold := (b.body.tThrottle ≤ hubTj || 90 ≤ holdTj) || (b.thermalHold && !(hubTj + 3 ≤ b.body.tThrottle && holdTj ≤ 87))
    critical := b.critical && (b.body.tThrottle ≤ hubTj || 90 ≤ holdTj) }

theorem sensors_steers (w : Work) (h m : Nat) : Steers (w.onBin (binSensed h m)) (w.sensors h m) := by
  have hset : (w.onBin fun b => { b with
      hubTj := h, holdTj := m
      thermalHold := (w.hub.bin.body.tThrottle ≤ h || 90 ≤ m) || (b.thermalHold && !(h + 3 ≤ w.hub.bin.body.tThrottle && m ≤ 87))
      critical := b.critical && (w.hub.bin.body.tThrottle ≤ h || 90 ≤ m) }) = w.onBin (binSensed h m) := rfl
  unfold Work.sensors
  dsimp only
  rw [hset]
  split
  · exact .count _ _ _ _ _
  · exact .refl _

theorem sensors_bin (w : Work) (h m : Nat) : (w.sensors h m).hub.bin = binSensed h m w.hub.bin := by
  unfold Work.sensors
  dsimp only
  split
  · rw [count_bin]
    rfl
  · rfl

theorem sensors_steered (w : Work) (h m : Nat) : Steered w (binSensed h m w.hub.bin) (w.sensors h m) := (sensors_steers w h m).steered

/-- Sensors read, then a level set: both show in the Binnacle. -/
theorem sensors_level (w : Work) (h m l : Nat) : Steered w (binAt w.now l (binSensed h m w.hub.bin)) ((w.sensors h m).level l) := by
  have hread := sensors_steered w h m
  have hlevel := (level_steers (w.sensors h m) l).steered
  have hnow : (w.sensors h m).now = w.now := by have e := congrArg Hub.now hread.same; exact e
  rw [sensors_bin, hnow] at hlevel
  exact ⟨hread.toSignals.trans hlevel.toSignals, hread.same.trans hlevel.same, hlevel.bin⟩

/-- The level that an evaluation asks for (R512). -/
def throttleStep (now hubW : Nat) (b : Bin) : Nat :=
  let rise := averageRule b || b.body.hubMaxW < hubW || thermalRaise b || b.droopOver
  let hold := rise || b.thermalHold || b.peakOver
  if rise then b.level + 1 else if !hold && averagesLow b && b.lastChange + 10000 ≤ now then b.level - 1 else b.level

/-- An evaluation while limits are evaluated: power added up, sensors read, the level moved as the rules ask (R511-R513). -/
theorem throttleEvaluation_steered {s : State} (x : PowerSample) (hup : s.work.binUp = true) (hruns : s.work.binPaused = false) :
    let b := binSensed x.hubTj x.holdTj (binMeasured x (s.work.packageW x.hubW x.holdW) s.hub.bin)
    ∃ v, exec (.throttleEvaluation x) s = .next (s.commit v) ∧ Steered s.work (binAt s.work.now (throttleStep s.work.now x.hubW b) b) v := by
  refine ⟨_, rfl, ?_⟩
  have hwork : ({ mem := s.mem, writes := [], hub := s.hub } : Work) = s.work := rfl
  rw [hwork]
  dsimp -zeta only
  rw [if_neg (by rw [hup]; decide)]
  extract_lets pkg measured read b avg hub rise hold asked counted late
  have hmeasured : measured = s.work.onBin (binMeasured x pkg) := rfl
  have hpaused : measured.binPaused = false := hruns
  have hread : Steered measured (binSensed x.hubTj x.holdTj measured.hub.bin) read := sensors_steered measured _ _
  have hb : b = binSensed x.hubTj x.holdTj measured.hub.bin := sensors_bin measured _ _
  have hnow : read.now = s.work.now := by have e := congrArg Hub.now hread.same; exact e
  have hasked : asked = throttleStep read.now x.hubW b := rfl
  have hlevel : Steered measured (binAt measured.now asked (binSensed x.hubTj x.holdTj measured.hub.bin)) (read.level asked) := sensors_level measured _ _ _
  clear_value read b asked late
  have hcounted : Steered measured (binAt measured.now asked (binSensed x.hubTj x.holdTj measured.hub.bin)) counted := hlevel.steers (.count _ _ _ _ _)
  clear_value counted
  subst hb
  rw [hasked, hnow] at hcounted
  have htold : Steers counted ((counted.onBin fun b => { b with lastExcess := some counted.now }).log
      { cls := 0x12, sev := 0, cause := 0x8009, addr := 0, detail := pack [(8, 7), (8, counted.hub.bin.cause), (16, pkg)] }) :=
    (Steers.onBin counted (fun b => { b with lastExcess := some counted.now }) rfl).trans (.log _ (by show (0x12 : Nat) % 256 ≠ 0; decide))
  rw [if_neg (by rw [hpaused]; decide)]
  have hset : Same offSteer s.work measured := rfl
  have hends := hcounted.steers (steers_ite (c := (counted.hub.bin.level = 7 && limitExceeded (binSensed x.hubTj x.holdTj measured.hub.bin) x.hubW && late) = true) htold (.refl _))
  exact ⟨(onBin_alerts s.work _).toSignals.trans hends.toSignals, hset.trans hends.same, hends.bin⟩

/-- Whether the last peak check found PEAK_W exceeded. -/
def binPeak (o : Bool) (b : Bin) : Bin := { b with peakOver := o }

/-- The critical state (R519). -/
def binCritical (b : Bin) : Bin := { b with critical := true, thermalHold := true }

/-- A peak over PEAK_W is noted, and asks for two steps (R512). -/
theorem peakCheck_steered {s : State} (h m : Nat) (hup : s.work.binUp = true) (hruns : s.work.binPaused = false) :
    let tops : Bool := s.hub.bin.body.peakW < s.work.packageW h m
    ∃ v, exec (.peakCheck h m) s = .next (s.commit v)
      ∧ Steered s.work (binAt s.work.now (if tops then s.hub.bin.level + 2 else s.hub.bin.level) (binPeak tops s.hub.bin)) v := by
  intro tops
  refine ⟨_, rfl, ?_⟩
  have hwork : ({ mem := s.mem, writes := [], hub := s.hub } : Work) = s.work := rfl
  rw [hwork]
  dsimp -zeta only
  rw [if_neg (c := (!s.work.binUp || s.work.binPaused) = true) (by rw [hup, hruns]; decide)]
  extract_lets tops' noted
  have hset : Steered s.work (binPeak tops s.hub.bin) noted := (Steers.refl (s.work.onBin (binPeak tops))).steered
  have hbin : noted.hub.bin = binPeak tops s.hub.bin := rfl
  have hnow : noted.now = s.work.now := rfl
  have htops : tops' = tops := rfl
  clear_value noted tops'
  subst htops
  clear_value tops
  have hlevel := (level_steers noted (if tops then noted.hub.bin.level + 2 else noted.hub.bin.level)).steered
  have hb : (binAt noted.now (if tops then noted.hub.bin.level + 2 else noted.hub.bin.level) noted.hub.bin)
      = binAt s.work.now (if tops then s.hub.bin.level + 2 else s.hub.bin.level) (binPeak tops s.hub.bin) := by rw [hbin, hnow]; rfl
  rw [← hb]
  exact ⟨hset.toSignals.trans hlevel.toSignals, hset.same.trans hlevel.same, hlevel.bin⟩

/-- A sensor crosses its throttle point: the level stands, held or released by the thermal rule (R519). -/
theorem sensorThreshold_steered {s : State} (h m : Nat) (hup : s.work.binUp = true) (hruns : s.work.binPaused = false) :
    ∃ v, exec (.sensorThreshold h m) s = .next (s.commit v) ∧ Steered s.work (binAt s.work.now s.hub.bin.level (binSensed h m s.hub.bin)) v := by
  refine ⟨_, rfl, ?_⟩
  have hwork : ({ mem := s.mem, writes := [], hub := s.hub } : Work) = s.work := rfl
  rw [hwork]
  dsimp -zeta only
  rw [if_neg (by rw [hup, hruns]; decide)]
  extract_lets read
  have hlevel : read.hub.bin.level = s.hub.bin.level := by
    have e := congrArg Bin.level (sensors_bin s.work h m)
    exact e
  rw [hlevel]
  exact sensors_level s.work h m s.hub.bin.level

/-- The critical state takes the level to 7; the Log and the ports hear (R519). -/
theorem thermalCritical_steered {s : State} (hup : s.work.binUp = true) (hfree : s.hub.bin.critical = false) :
    ∃ v, exec .thermalCritical s = .next (s.commit v) ∧ Steered s.work (binAt s.work.now 7 (binCritical s.hub.bin)) v ∧ .pldm 12 ∈ v.hub.sent := by
  refine ⟨_, rfl, ?_⟩
  have hwork : ({ mem := s.mem, writes := [], hub := s.hub } : Work) = s.work := rfl
  rw [hwork]
  dsimp -zeta only
  rw [if_neg (by rw [hup, show s.work.hub.bin.critical = false from hfree]; decide)]
  extract_lets raised logged
  have hset : Steered s.work (binCritical s.hub.bin) ((s.work.onBin binCritical).count 18 0 23) :=
    (Steers.refl (s.work.onBin binCritical)).steered.steers (.count _ _ _ _ _)
  have hbin : ((s.work.onBin binCritical).count 18 0 23).hub.bin = (binCritical s.hub.bin) := by
    rw [count_bin]
    rfl
  have hnow : ((s.work.onBin binCritical).count 18 0 23).now = s.work.now := by have e := congrArg Hub.now hset.same; exact e
  have hlevel := (level_steers ((s.work.onBin binCritical).count 18 0 23) 7).steered
  rw [hbin, hnow] at hlevel
  have hr : raised = ((s.work.onBin binCritical).count 18 0 23).level 7 := rfl
  rw [← hr] at hlevel
  have hraised : Steered s.work (binAt s.work.now 7 (binCritical s.hub.bin)) raised :=
    ⟨hset.toSignals.trans hlevel.toSignals, hset.same.trans hlevel.same, hlevel.bin⟩
  clear_value raised
  have hlog : Steers raised logged := .log _ (by show (0x12 : Nat) % 256 ≠ 0; decide)
  clear_value logged
  have hlogged := hraised.steers hlog
  have htold : Steers logged ((logged.emit (.pldm 12)).irqs logged.portsUp 12) := (Steers.emit logged (.pldm 12) (by simp)).trans (.irqs _ _ _)
  exact ⟨hlogged.steers htold, sent_irqs _ _ _ (List.mem_cons_self ..)⟩

/-! ## Without voltage control -/

/-- From one work to the next no set point has gone out over the AVSBus. -/
def NoVoltage (w w' : Work) : Prop := ∀ r v, .avs r v ∈ w'.hub.sent → .avs r v ∈ w.hub.sent

theorem NoVoltage.refl (w : Work) : NoVoltage w w := fun _ _ => id
theorem NoVoltage.trans {a b c : Work} (h : NoVoltage a b) (k : NoVoltage b c) : NoVoltage a c := fun r v => h r v ∘ k r v
theorem NoVoltage.each {α : Type} (l : List α) (f : α → Work → Work) (w : Work) (hf : ∀ a w, NoVoltage w (f a w)) : NoVoltage w (each l f w) :=
  each_keeps l f w (.refl w) fun a _ h => h.trans (hf a _)
theorem NoVoltage.silent {w w' : Work} (h : w'.hub.sent = w.hub.sent) : NoVoltage w w' := fun _ _ hm => h ▸ hm
theorem NoVoltage.emit (w : Work) (o : Out) (ho : ∀ r v, o ≠ .avs r v) : NoVoltage w (w.emit o) := fun r v hm => (List.mem_cons.1 hm).resolve_left fun e => ho r v e.symm
theorem noVoltage_ite {w a b : Work} {c : Prop} [Decidable c] (ha : NoVoltage w a) (hb : NoVoltage w b) : NoVoltage w (if c then a else b) := by
  split
  · exact ha
  · exact hb

theorem hostWrite_noVoltage (w : Work) (f : FuncRef) (a : Nat) (d : List Byte) : NoVoltage w (w.hostWrite f a d) := by
  have hpoke : NoVoltage w (w.poke (hostKey f.port a) d) := .silent (by unfold Work.poke; split <;> rfl)
  unfold Work.hostWrite
  refine noVoltage_ite (.refl w) (noVoltage_ite ?_ (.silent rfl))
  exact (hpoke.trans (.emit _ _ (by simp))).trans (.silent rfl)

theorem sendVector_noVoltage (w : Work) (f : FuncRef) (v owe : Nat) : NoVoltage w (w.sendVector f v owe) := by
  have hout (n : Nat) : NoVoltage w (if w.mayIssue f then (w.emit (.msix f n)).tlp f.port 1 else w.onFunc f fun fn => { fn with owedVecs := fn.owedVecs ++ [owe] }) :=
    noVoltage_ite ((NoVoltage.emit w _ (by simp)).trans (.silent rfl)) (.silent rfl)
  unfold Work.sendVector
  dsimp only
  refine noVoltage_ite (noVoltage_ite (.silent rfl) (hout v)) ?_
  split
  · exact .refl w
  · exact noVoltage_ite (.silent rfl) (hout _)

theorem raise_noVoltage (w : Work) (f : FuncRef) (v owe : Nat) : NoVoltage w (w.raise f v owe) := by
  unfold Work.raise
  dsimp only
  split
  · exact NoVoltage.trans (b := w.onPort _ _) (.silent rfl) (sendVector_noVoltage _ _ _ _)
  · exact NoVoltage.trans (b := w.onFunc _ _) (.silent rfl) (sendVector_noVoltage _ _ _ _)

theorem irqs_noVoltage (w : Work) (l : List Nat) (src : Nat) : NoVoltage w (w.irqs l src) := .each l _ w fun _ v => raise_noVoltage v _ _ _

theorem count_noVoltage (w : Work) (k i c n : Nat) : NoVoltage w (w.count k i c n) := by
  unfold Work.count
  dsimp only
  refine noVoltage_ite (.silent rfl) (noVoltage_ite ?_ (.silent rfl))
  refine NoVoltage.trans ?_ (irqs_noVoltage _ _ _)
  exact .silent rfl

theorem mlogPut_noVoltage (w : Work) (e : LogEvent) : NoVoltage w (w.mlogPut e) := by
  have hlog (r : LogRing) : NoVoltage w (w.onHub fun h => { h with mlog := r }) := .silent rfl
  unfold Work.mlogPut
  dsimp only
  exact noVoltage_ite (noVoltage_ite ((hlog _).trans (.emit _ _ (by simp))) (hlog _)) (hlog _)

theorem setLog_noVoltage (w : Work) (p : Nat) (r : LogRing) : NoVoltage w (w.setLog p r) := .silent rfl

theorem plogPut_noVoltage (w : Work) (p : Nat) (e : LogEvent) : NoVoltage w (w.plogPut p e) := by
  have hpri (r : LogRing) (x : Nat) (slot : Option Nat) : NoVoltage w (w.plogPri p r x slot) := by
    cases slot with
    | none => exact .refl w
    | some i => exact hostWrite_noVoltage w _ _ _
  have hstore (v : Work) (r : LogRing) (x cls sev : Nat) : NoVoltage v (v.plogStore p r x cls sev) := by
    have hput := (setLog_noVoltage v p (logAppend r x).1).trans (hostWrite_noVoltage _ { port := p, func := 0 } (r.base + 32 * r.tail) (leBytes 32 (logAppend r x).2))
    unfold Work.plogStore
    dsimp only
    exact noVoltage_ite (noVoltage_ite ((setLog_noVoltage v _ _).trans (raise_noVoltage _ _ _ _)) (setLog_noVoltage v _ _))
      (noVoltage_ite (hput.trans (raise_noVoltage _ _ _ _)) hput)
  unfold Work.plogPut
  dsimp only
  exact noVoltage_ite (setLog_noVoltage w _ _) (noVoltage_ite (setLog_noVoltage w _ _) ((hpri _ _ _).trans (hstore _ _ _ _ _)))

theorem log_noVoltage (w : Work) (e : LogEvent) : NoVoltage w (w.log e) := by
  unfold Work.log
  exact (mlogPut_noVoltage w e).trans (.each _ _ _ fun p v => plogPut_noVoltage v p e)

/-- Without voltage control a change of points commands no set point (R588). -/
theorem retarget_noVoltage {w : Work} (h : w.hub.bin.avsLost = true) : NoVoltage w w.retarget := by
  have hturn (d t : Nat) (v : Work) (hv : v.hub.bin.avsLost = true) : NoVoltage v (v.retargetTo d t) := by
    have hbegin : NoVoltage v ((v.onBin fun b => { b with pendingOp := tset b.pendingOp d t, partly := true }).count 18 0 (16 + d)) :=
      NoVoltage.trans (b := v.onBin _) (.silent rfl) (count_noVoltage _ _ _ _ _)
    have hlost : ((v.onBin fun b => { b with pendingOp := tset b.pendingOp d t, partly := true }).count 18 0 (16 + d)).hub.bin.avsLost = true := by
      rw [count_bin]
      exact hv
    unfold Work.retargetTo
    dsimp only
    refine noVoltage_ite (.refl v) (noVoltage_ite ?_ hbegin)
    rw [Work.setVoltage, if_pos hlost]
    exact hbegin
  rw [retarget_eq]
  refine (each_keeps (p := fun v => NoVoltage w v ∧ v.hub.bin.avsLost = true) _ _ w ⟨.refl w, h⟩ fun x v hv => ⟨hv.1.trans (hturn x.1 x.2 v hv.2), ?_⟩).1
  exact (retargetTo_steers v x.1 x.2).avsLost.trans hv.2

theorem sendLimits_noVoltage (w : Work) : NoVoltage w w.sendLimits := by
  refine .each _ _ w fun n v => ?_
  have hpower (l c : Nat) : NoVoltage v (v.sendLimit n l c) := NoVoltage.trans (b := v.onSPower n _) (.silent rfl) (.emit _ _ (by simp))
  exact noVoltage_ite (.refl v) (hpower _ _)

/-- Without voltage control a level commands no set point. -/
theorem level_noVoltage {w : Work} (h : w.hub.bin.avsLost = true) (l : Nat) : NoVoltage w (w.level l) := by
  unfold Work.level
  extract_lets old k set counted cause follows logged soon
  have hset : NoVoltage w set := .silent rfl
  have hlost : set.hub.bin.avsLost = true := h
  have hcounted : NoVoltage set counted := noVoltage_ite (.refl _) (count_noVoltage _ _ _ _ _)
  have hsteers : Steers set counted := steers_ite (.refl _) (.count _ _ _ _ _)
  clear_value set k old
  have hstill : (counted.onBin fun b => { b with cause := cause }).hub.bin.avsLost = true := hsteers.avsLost.trans hlost
  have hcause : NoVoltage counted (counted.onBin fun b => { b with cause := cause }) := .silent rfl
  have hfollows : NoVoltage counted follows := (hcause.trans (retarget_noVoltage hstill)).trans (sendLimits_noVoltage _)
  clear_value counted cause
  have hlogged : NoVoltage follows logged := log_noVoltage _ _
  clear_value follows
  have hirq : NoVoltage logged (logged.onBin fun b => { b with lastIrq := some logged.now }) := .silent rfl
  have htold : NoVoltage logged (((logged.onBin fun b => { b with lastIrq := some logged.now }).emit (.pldm 11)).irqs logged.portsUp 11) :=
    (hirq.trans (.emit _ _ (by simp))).trans (irqs_noVoltage _ _ _)
  clear_value logged soon
  have hall := (hset.trans hcounted).trans hfollows
  exact noVoltage_ite hall (noVoltage_ite (hall.trans hlogged) ((hall.trans hlogged).trans htold))

/-- Voltage control lost, a change of the arithmetic point under way stopped (R588). -/
def binLost (b : Bin) : Bin := { b with avsLost := true, pendingOp := tdel b.pendingOp 0, partly := tdel b.pendingOp 0 ≠ [] }

theorem avsbusFailure_steered {s : State} (hup : s.work.binUp = true) (hfree : s.hub.bin.avsLost = false) :
    ∃ v, exec .avsbusFailure s = .next (s.commit v) ∧ Steered s.work (binAt s.work.now 7 (binLost s.hub.bin)) v ∧ NoVoltage s.work v := by
  refine ⟨_, rfl, ?_⟩
  have hwork : ({ mem := s.mem, writes := [], hub := s.hub } : Work) = s.work := rfl
  rw [hwork]
  dsimp -zeta only
  rw [if_neg (by rw [hup, show s.work.hub.bin.avsLost = false from hfree]; decide)]
  extract_lets lost
  have hset : Steered s.work (binLost s.hub.bin) lost := (Steers.refl (s.work.onBin binLost)).steered
  have hvoltage : NoVoltage s.work lost := .silent rfl
  have hbin : lost.hub.bin = binLost s.hub.bin := rfl
  have hnow : lost.now = s.work.now := rfl
  clear_value lost
  have hlevel := (level_steers lost 7).steered
  have hnone := level_noVoltage (w := lost) (by rw [hbin]; rfl) 7
  rw [hbin, hnow] at hlevel
  have hraised : Steered s.work (binAt s.work.now 7 (binLost s.hub.bin)) (lost.level 7) := ⟨hset.toSignals.trans hlevel.toSignals, hset.same.trans hlevel.same, hlevel.bin⟩
  exact ⟨hraised.steers (.log _ (by show (0x12 : Nat) % 256 ≠ 0; decide)), (hvoltage.trans hnone).trans (log_noVoltage _ _)⟩

/-! ## Points that are reached, droop, ageing -/

theorem hwsDrain_mem (k n : Nat) (w : Work) : SameMem w (w.hwsDrain k n) := by
  induction n generalizing w with
  | zero => exact ⟨rfl, rfl⟩
  | succ n ih =>
    unfold Work.hwsDrain
    dsimp only
    split
    · split
      · exact ⟨rfl, rfl⟩
      · refine SameMem.trans (SameMem.trans ?_ (count_mem _ _ _ _ _)) (ih _)
        exact ⟨rfl, rfl⟩
    · exact ⟨rfl, rfl⟩

theorem helmSend_mem (w : Work) (kind : Nat) (m : HelmMsg) : SameMem w (w.helmSend kind m) := by
  unfold Work.helmSend
  split
  · exact SameMem.trans ⟨rfl, rfl⟩ (hwsDrain_mem _ _ _)
  · exact ⟨rfl, rfl⟩

theorem helmSend_bin (w : Work) (kind : Nat) (m : HelmMsg) : (w.helmSend kind m).hub.bin = w.hub.bin := by
  have e := congrArg Hub.bin (helmSend_same w kind m)
  exact e

/-- From one work to the next memory and the Binnacle are the same. -/
structure SparesBin (w w' : Work) : Prop where
  mem : SameMem w w'
  bin : w'.hub.bin = w.hub.bin

theorem SparesBin.refl (w : Work) : SparesBin w w := ⟨⟨rfl, rfl⟩, rfl⟩
theorem SparesBin.trans {a b c : Work} (h : SparesBin a b) (k : SparesBin b c) : SparesBin a c := ⟨h.mem.trans k.mem, k.bin.trans h.bin⟩
theorem SparesBin.each {α : Type} (l : List α) (f : α → Work → Work) (w : Work) (hf : ∀ a w, SparesBin w (f a w)) : SparesBin w (each l f w) :=
  each_keeps l f w (.refl w) fun a _ h => h.trans (hf a _)

theorem sparesBin_ite {w a b : Work} {c : Prop} [Decidable c] (ha : SparesBin w a) (hb : SparesBin w b) : SparesBin w (if c then a else b) := by
  split
  · exact ha
  · exact hb

theorem sendPhase_sparesBin (w : Work) : SparesBin w w.sendPhase := .each _ _ w fun _ _ => ⟨⟨rfl, rfl⟩, rfl⟩

theorem derate_sparesBin (w : Work) : SparesBin w w.derate := by
  have h := (derate_regulates w).only
  generalize w.derate = v at h
  exact ⟨⟨by have e := congrArg Work.mem h; exact e, by have e := congrArg Work.writes h; exact e⟩, by have e := congrArg (fun x : Work => x.hub.bin) h; exact e⟩

/-- A point is in force in its domain, and no change of it is under way (R508). -/
def binReached (d t : Nat) (b : Bin) : Bin :=
  let p := tdel b.pendingOp d
  { b with pendingOp := p, partly := p ≠ [], arithOp := if d = 0 then t else b.arithOp, holdOp := if d = 1 then t else b.holdOp, memOp := if d = 2 then t else b.memOp }

theorem opReached_some {w : Work} {d t : Nat} (h : tfind w.hub.bin.pendingOp d = some t) : w.opReached d =
    (let v := w.onBin (binReached d t)
     if d ≠ 0 then v.derate
     else if t = w.hub.bin.arithOp then v
     else
       let v := v.sendPhase
       let (a, _, _, _) := v.preferences
       if t < a && t < w.hub.bin.arithOp then each v.slowedPeers (fun h w => w.helmSend 4 { dstHub := h, opPoint := t }) v else v) := by
  unfold Work.opReached
  rw [h]
  rfl

/-- What hears of a point that is reached, and what follows, leave memory and the Binnacle (R508, R509, R514). -/
theorem opReached_sparesBin {w : Work} {d t : Nat} (h : tfind w.hub.bin.pendingOp d = some t) : SparesBin (w.onBin (binReached d t)) (w.opReached d) := by
  rw [opReached_some h]
  generalize w.onBin (binReached d t) = v
  dsimp only
  refine sparesBin_ite (derate_sparesBin _) (sparesBin_ite (.refl _) (sparesBin_ite ?_ (sendPhase_sparesBin _)))
  exact (sendPhase_sparesBin _).trans (.each _ _ _ fun h v => ⟨helmSend_mem v _ _, helmSend_bin v _ _⟩)

theorem exec_opChangeDone (d : Nat) (s : State) : exec (.opChangeDone d) s = s.run fun w => if !w.binUp || (d = 0 && w.hub.bin.stretched) then w else w.opReached d := rfl

/-- A change of a point ends at its target. -/
theorem does_opChangeDone {s : State} {d v : Nat} (hup : s.work.binUp = true) (hgo : d ≠ 0 ∨ s.hub.bin.stretched = false) (hd : d < 3) (h : tfind s.hub.bin.pendingOp d = some v) :
    Does (.opChangeDone d) s fun t => opOf t.hub.bin d = v ∧ (∀ k < 3, k ≠ d → opOf t.hub.bin k = opOf s.hub.bin k) ∧ t.hub.bin.pendingOp = tdel s.hub.bin.pendingOp d
      ∧ t.hub.bin.level = s.hub.bin.level ∧ t.mem = s.mem := by
  have hreached := opReached_sparesBin (w := s.work) h
  have hruns : (!s.work.binUp || (decide (d = 0) && s.work.hub.bin.stretched)) = false := by
    have hs : s.work.hub.bin.stretched = s.hub.bin.stretched := rfl
    rcases hgo with hgo | hgo
    · simp [hup, hgo]
    · simp [hup, hs, hgo]
  refine does_work (exec_opChangeDone d s) (w := s.work.opReached d) (by rw [hruns]; rfl) ?_
  have hbin : (s.work.opReached d).hub.bin = binReached d v s.hub.bin := hreached.bin
  have hset : SameMem s.work (s.work.onBin (binReached d v)) := ⟨rfl, rfl⟩
  have hmem := commit_mem_of_sameMem (hset.trans hreached.mem)
  generalize s.work.opReached d = u at hbin hmem
  have hb : (s.commit u).hub.bin = binReached d v s.hub.bin := hbin
  rw [hb]
  refine ⟨?_, ?_, rfl, rfl, hmem⟩
  · obtain rfl | rfl | rfl : d = 0 ∨ d = 1 ∨ d = 2 := by omega
    all_goals rfl
  · intro k hk hne
    obtain rfl | rfl | rfl : k = 0 ∨ k = 1 ∨ k = 2 := by omega
    · simp [opOf, binReached, Ne.symm hne]
    · simp [opOf, binReached, Ne.symm hne]
    · simp [opOf, binReached, Ne.symm hne]

/-- The Binnacle with its arithmetic clock stretched or not (R516). -/
def binStretch (x : Bool) (b : Bin) : Bin := { b with stretched := x }

theorem exec_droopDetect (s : State) : exec .droopDetect s = s.run fun w => if !w.binUp || w.hub.bin.stretched then w else (w.onBin (binStretch true)).count 18 0 19 := rfl

theorem exec_droopRecovery (s : State) : exec .droopRecovery s = s.run fun w =>
    if !w.hub.bin.stretched then w else (w.fresh.2.onBin (binStretch false)).count 18 0 20 (w.fresh.1 % 2 ^ 48) := rfl

theorem trimRaised_gives (w : Work) (p v : Nat) : SparesBin (w.onBin fun b => { b with trims := tset b.trims p v }) (w.trimRaised p v)
    ∧ (w.trimRaised p v).hub.start.profile.trims = tset w.hub.start.profile.trims p v ∧ BinFrame w (w.trimRaised p v) := by
  have hcount := KeepsSeven.count (w.onBin fun b => { b with trims := tset b.trims p v }) 18 0 21 1
  have hset : BinFrame w (w.onBin fun b => { b with trims := tset b.trims p v }) := rfl
  have hstart : ((w.onBin fun b => { b with trims := tset b.trims p v }).count 18 0 21).hub.start = w.hub.start := count_start _ _ _ _ _
  have hframe := hset.trans hcount.frame
  refine ⟨⟨count_mem _ _ _ _ _, count_bin _ _ _ _ _⟩, ?_, ?_⟩
  · unfold Work.trimRaised
    generalize (w.onBin fun b => { b with trims := tset b.trims p v }).count 18 0 21 = u at hstart
    exact congrArg (fun x : Start => tset x.profile.trims p v) hstart
  · unfold Work.trimRaised
    generalize (w.onBin fun b => { b with trims := tset b.trims p v }).count 18 0 21 = u at hframe
    have hprofile : BinFrame u (u.onProfile fun x => { x with trims := tset x.trims p v }) := rfl
    exact hframe.trans hprofile

theorem setVoltage_mem (w : Work) (op : Nat) : SameMem w (w.setVoltage op) := by
  unfold Work.setVoltage
  split <;> exact ⟨rfl, rfl⟩

theorem setVoltage_sends {w : Work} (h : w.hub.bin.avsLost = false) (op : Nat) : .avs 0 (arithMv w.hub.bin op) ∈ (w.setVoltage op).hub.sent := by
  rw [Work.setVoltage, if_neg (by rw [h]; decide)]
  exact List.mem_cons_self ..

/-- A point that has aged gains 5 mV, in the Binnacle and in the profile (R517, R518). -/
theorem does_ages {s : State} {p : Nat} (hup : s.work.binUp = true) (hp : p < 8) (hroom : tget 0 s.hub.bin.trims p + 5 ≤ 60) : Does (.ageingMeasurement [p]) s fun t =>
    t.hub.bin = { s.hub.bin with trims := tset s.hub.bin.trims p (tget 0 s.hub.bin.trims p + 5) } ∧ tget 0 t.hub.start.profile.trims p = tget 0 s.hub.bin.trims p + 5
    ∧ (opTarget s.hub.bin 0 = p → s.hub.bin.avsLost = false → .avs 0 (arithMv s.hub.bin p + 5) ∈ t.hub.sent)
    ∧ t.mem = s.mem ∧ Within s t (fun h => { h with bin := t.hub.bin, start := t.hub.start }) := by
  have hone : (List.range 8).filter (fun q => q ∈ [p]) = [p] := by
    obtain rfl | rfl | rfl | rfl | rfl | rfl | rfl | rfl : p = 0 ∨ p = 1 ∨ p = 2 ∨ p = 3 ∨ p = 4 ∨ p = 5 ∨ p = 6 ∨ p = 7 := by omega
    all_goals rfl
  have htrim : s.work.trimUp p = (if opTarget (s.work.trimRaised p (tget 0 s.hub.bin.trims p + 5)).hub.bin 0 = p then (s.work.trimRaised p (tget 0 s.hub.bin.trims p + 5)).setVoltage p
      else s.work.trimRaised p (tget 0 s.hub.bin.trims p + 5)) := trimUp_raises (w := s.work) (op := p) hroom
  obtain ⟨hspares, htrims, hframe⟩ := trimRaised_gives s.work p (tget 0 s.hub.bin.trims p + 5)
  generalize s.work.trimRaised p (tget 0 s.hub.bin.trims p + 5) = v at htrim hspares htrims hframe
  have hbin : v.hub.bin = { s.hub.bin with trims := tset s.hub.bin.trims p (tget 0 s.hub.bin.trims p + 5) } := hspares.bin
  have hset : SameMem s.work (s.work.onBin fun b => { b with trims := tset b.trims p (tget 0 s.hub.bin.trims p + 5) }) := ⟨rfl, rfl⟩
  have hmem : SameMem s.work v := hset.trans hspares.mem
  have htarget : opTarget v.hub.bin 0 = opTarget s.hub.bin 0 := by rw [hbin]; rfl
  have hmv : arithMv v.hub.bin p = arithMv s.hub.bin p + 5 := by
    rw [hbin, arithMv, arithMv, tget_tset_self]
    exact (Nat.add_assoc _ _ _).symm
  have hends : ∃ u, s.work.trimUp p = u ∧ Reports v u ∧ SameMem v u ∧ (opTarget s.hub.bin 0 = p → s.hub.bin.avsLost = false → .avs 0 (arithMv s.hub.bin p + 5) ∈ u.hub.sent) := by
    refine ⟨_, htrim, ?_⟩
    rw [htarget]
    split
    next h =>
      refine ⟨setVoltage_reports v p, setVoltage_mem v p, fun _ hlost => ?_⟩
      rw [← hmv]
      exact setVoltage_sends (by rw [hbin]; exact hlost) p
    next h => exact ⟨.refl v, ⟨rfl, rfl⟩, fun hp => absurd hp h⟩
  obtain ⟨u, hu, hreports, humem, hsent⟩ := hends
  refine does_work (exec_ageingMeasurement [p] s) (w := u) ?_ ?_
  · rw [hup]
    exact (congrArg (fun l => each l (fun p w => Work.trimUp w p) s.work) hone).trans hu
  · have hub : u.hub.bin = v.hub.bin := hreports.bin
    have hus : u.hub.start = v.hub.start := hreports.start
    refine ⟨hub.trans hbin, ?_, hsent, commit_mem_of_sameMem (hmem.trans humem), rfl, hframe.trans (.ofReports hreports)⟩
    have hp : tget 0 u.hub.start.profile.trims p = tget 0 s.hub.bin.trims p + 5 := by rw [hus, htrims, tget_tset_self]
    exact hp

/-! ## Resets on temperature -/

/-- The hub without the sites and the memory units. -/
def offReset (h : Hub) : Hub := { h with sites := [], memory := {} }

theorem discardLine_same (w : Work) (l : HoldLine) : Same offReset w (w.discardLine l) := by
  have hback (v : Work) (o : Nat) (d : List Byte) (m : MemOp) : Same offReset v ((v.poke o d).op m) := by
    unfold Work.poke
    split <;> rfl
  have hline (v : Work) (f : MemUnits → MemUnits) : Same offReset v (v.onMem f) := rfl
  unfold Work.discardLine
  dsimp only
  refine Same.trans ?_ (hline _ _)
  split
  · split
    · exact (hback _ _ _ _).trans (hback _ _ _ _)
    · exact hback _ _ _ _
  · split
    · exact hback _ _ _ _
    · exact .refl _ _

/-- What a reset does before the blocks start anew: sites reset and unpowered, the Hold's lines lost (R591). -/
def Work.resetClears (w : Work) : Work :=
  let w := each (List.range 16) (fun n w => (w.siteReset n).sitePowerOff n) w
  each w.hub.memory.hold (fun l w => w.discardLine l) w

theorem hubReset_eq (w : Work) (cold : Bool) : w.hubReset cold = (w.resetClears.op (.wipe 0x004000000000 (48 * 2 ^ 24))).onHub fun h => resetHub h cold := rfl

theorem resetClears_same (w : Work) : Same offReset w w.resetClears := by
  unfold Work.resetClears
  dsimp only
  refine Same.trans (.each _ _ w fun n v => ?_) (.each _ _ _ fun l v => discardLine_same v l)
  have h := (siteReset_same v n).trans (sitePowerOff_same _ n)
  exact congrArg (fun h : Hub => { h with memory := {} }) h

/-- A reset leaves the board's pins, the hub in reset, and the next start cold where it is asked so (R591). -/
theorem hubReset_start (w : Work) : (w.hubReset true).hub.board = w.hub.board ∧ (w.hubReset true).hub.start.hubRstN = false ∧ (w.hubReset true).hub.start.coldPending = true := by
  have hboard := congrArg Hub.board (resetClears_same w)
  rw [hubReset_eq]
  generalize w.resetClears = v at hboard
  exact ⟨hboard, rfl, rfl⟩

theorem exec_hubThermtrip (s : State) : exec .hubThermtrip s = s.run fun w =>
    ((w.emit (.pin .thermtripN false)).onHub fun h => { h with board := { h.board with thermtripN := false } }).askReset true := rfl

/-! ## The averages -/

theorem avgOver_low {b : Bin} {i v k : Nat} (hk : 95 ≤ k) (h : 100 * (limSamples b i).sum < 95 * v * (limSamples b i).length) : avgOver b i v k = false := by
  have hle : 95 * v * (limSamples b i).length ≤ k * v * (limSamples b i).length := Nat.mul_le_mul_right _ (Nat.mul_le_mul_right _ hk)
  simp only [avgOver, decide_eq_false_iff_not, Nat.not_lt]
  omega

/-- Where every average is low the average rule asks for nothing (R512). -/
theorem averageRule_low {b : Bin} (h : averagesLow b = true) : averageRule b = false := by
  unfold averageRule
  rw [List.any_eq_false]
  intro x hx
  have hlow := List.all_eq_true.1 h x hx
  simp only [Bool.and_eq_true, decide_eq_true_eq] at hlow
  simp [avgOver_low (k := 100) (by omega) hlow.1, avgOver_low (k := 98) (by omega) hlow.1]

/-- Where nothing exceeds its limits and every average is low for long, an evaluation asks for one level less (R512). -/
theorem throttleStep_falls {now hubW : Nat} {b : Bin} (hlow : averagesLow b = true) (hhub : hubW ≤ b.body.hubMaxW) (hcool : thermalRaise b = false) (hdroop : b.droopOver = false)
    (hheld : b.thermalHold = false) (hpeak : b.peakOver = false) (hlong : b.lastChange + 10000 ≤ now) : throttleStep now hubW b = b.level - 1 := by
  simp [throttleStep, averageRule_low hlow, Nat.not_lt.2 hhub, hcool, hdroop, hheld, hpeak, hlow, hlong]

/-- Where the hub's own limit is passed an evaluation asks for one level more. -/
theorem throttleStep_rises {now hubW : Nat} {b : Bin} (h : b.body.hubMaxW < hubW) : throttleStep now hubW b = b.level + 1 := by
  simp [throttleStep, h]

/-- Sensors three degrees below their points hold nothing (R519). -/
theorem binSensed_cool {h m : Nat} {b : Bin} (hh : h + 3 ≤ b.body.tThrottle) (hm : m ≤ 87) :
    (binSensed h m b).thermalHold = false ∧ (binSensed h m b).critical = false ∧ thermalRaise (binSensed h m b) = false := by
  have hlow : ¬ b.body.tThrottle ≤ h := by omega
  have hdie : ¬ 90 ≤ m := by omega
  simp [binSensed, thermalRaise, hlow, hdie, hh, hm]

/-- The state in which the limits are evaluated: nothing holds the level (R512, R588). -/
theorem levelAsked_free {b : Bin} (h : b.avsLost = false) (hc : b.critical = false) (l : Nat) : levelAsked b l = min l 7 := by simp [levelAsked, h, hc]

theorem binSensed_free {h m : Nat} {b : Bin} (hc : b.critical = false) : (binSensed h m b).critical = false := by simp [binSensed, hc]

theorem does_throttles {s : State} {x : PowerSample} (hup : s.work.binUp = true) (hruns : s.work.binPaused = false) {P : State → Prop}
    (h : ∀ v, Steered s.work (binAt s.work.now (throttleStep s.work.now x.hubW (binSensed x.hubTj x.holdTj (binMeasured x (s.work.packageW x.hubW x.holdW) s.hub.bin)))
      (binSensed x.hubTj x.holdTj (binMeasured x (s.work.packageW x.hubW x.holdW) s.hub.bin))) v → P (s.commit v)) : Does (.throttleEvaluation x) s P := by
  obtain ⟨v, hv, hsteered⟩ := throttleEvaluation_steered x hup hruns
  exact ⟨_, hv, h v hsteered⟩

/-- Settles O56: a level is set as its rule asks, and points, limits and reports follow it, sparing memory and the other blocks; points, droop and ageing change the Binnacle as they say. -/
theorem powerControl : Obligations.PowerControl := by
  unfold Obligations.PowerControl
  intro up free measured noted apart cool
  refine ⟨?rises, ?falls, ?paused, ?peak, ?plain, ?arith, ?other, ?waits, ?droops, ?recovers, ?ages, ?hot, ?cooled, ?critical, ?trip, ?lost⟩
  case rises =>
    rintro s x ⟨hup, hruns⟩ ⟨hv, hc⟩ hover
    refine does_throttles hup hruns fun v h => ?_
    have hstep := throttleStep_rises (now := s.work.now) (hubW := x.hubW) (b := binSensed x.hubTj x.holdTj (binMeasured x (s.work.packageW x.hubW x.holdW) s.hub.bin)) hover
    have hasked := levelAsked_free (b := binSensed x.hubTj x.holdTj (binMeasured x (s.work.packageW x.hubW x.holdW) s.hub.bin)) hv (binSensed_free hc) (s.hub.bin.level + 1)
    rw [hstep] at h
    refine ⟨?_, ⟨h.pkgW, h.hist, h.hubW, h.energy, h.pkgEnergy, h.droopOver⟩, h.temps, h.apart⟩
    exact h.level.trans (hasked.trans (Nat.min_comm _ _))
  case falls =>
    rintro s x ⟨hup, hruns⟩ ⟨hv, hc⟩ hpos hle hhub ⟨hh, hm⟩ hdroop hpeak hlow hlong
    refine does_throttles hup hruns fun v h => ?_
    obtain ⟨hheld, hcrit, hraise⟩ := binSensed_cool (b := binMeasured x (s.work.packageW x.hubW x.holdW) s.hub.bin) hh hm
    have hstep := throttleStep_falls (now := s.work.now) (hubW := x.hubW) (b := binSensed x.hubTj x.holdTj (binMeasured x (s.work.packageW x.hubW x.holdW) s.hub.bin))
      hlow hhub hraise hdroop hheld hpeak hlong
    have hasked := levelAsked_free (b := binSensed x.hubTj x.holdTj (binMeasured x (s.work.packageW x.hubW x.holdW) s.hub.bin)) hv hcrit (s.hub.bin.level - 1)
    rw [Nat.min_eq_left (by omega)] at hasked
    rw [hstep] at h
    refine ⟨h.level.trans hasked, h.lastChange.trans (if_neg fun heq => ?_), ⟨h.pkgW, h.hist, h.hubW, h.energy, h.pkgEnergy, h.droopOver⟩, h.thermalHold.trans hheld, h.apart⟩
    have hsame : s.hub.bin.level - 1 = s.hub.bin.level := hasked.symm.trans heq
    omega
  case paused =>
    intro s x hup hpaused
    refine ⟨_, rfl, ?_⟩
    have hwork : ({ mem := s.mem, writes := [], hub := s.hub } : Work) = s.work := rfl
    rw [hwork]
    dsimp -zeta only
    rw [if_neg (by rw [hup]; decide)]
    extract_lets pkg read
    have hread : read.binPaused = true := hpaused
    rw [if_pos hread]
    exact ⟨⟨rfl, rfl, rfl, rfl, rfl, rfl⟩, rfl, rfl, rfl, rfl⟩
  case peak =>
    rintro s h m ⟨hup, hruns⟩ ⟨hv, hc⟩ hover
    obtain ⟨v, hexec, hst⟩ := peakCheck_steered h m hup hruns
    rw [decide_eq_true hover] at hst
    refine ⟨_, hexec, hst.peakOver, ?_, hst.apart⟩
    exact hst.level.trans ((levelAsked_free (b := binPeak true s.hub.bin) hv hc _).trans (Nat.min_comm _ _))
  case plain =>
    rintro s h m ⟨hup, hruns⟩ ⟨hv, hc⟩ hle hunder
    obtain ⟨v, hexec, hst⟩ := peakCheck_steered h m hup hruns
    rw [decide_eq_false (Nat.not_lt.2 hunder)] at hst
    refine ⟨_, hexec, hst.peakOver, ?_, hst.apart⟩
    exact hst.level.trans ((levelAsked_free (b := binPeak false s.hub.bin) hv hc _).trans (Nat.min_eq_left hle))
  case arith =>
    intro s v hup hst h
    exact does_opChangeDone hup (.inr hst) (by omega) h
  case other =>
    intro s d v hup hd h
    exact does_opChangeDone hup (.inl (by omega)) (by omega) h
  case waits =>
    intro s hst
    refine does_work (exec_opChangeDone 0 s) (w := s.work) ?_ ⟨rfl, rfl, rfl⟩
    have hs : s.work.hub.bin.stretched = true := hst
    rw [if_pos (by rw [hs]; simp)]
  case droops =>
    intro s hup hst
    have hs : s.work.hub.bin.stretched = false := hst
    refine does_work (exec_droopDetect s) (if_neg (by rw [hup, hs]; decide)) ?_
    have hreports := count_reports (s.work.onBin (binStretch true)) 18 0 19 1
    have hset : SameMem s.work (s.work.onBin (binStretch true)) := ⟨rfl, rfl⟩
    have hmem := commit_mem_of_sameMem (hset.trans (count_mem (s.work.onBin (binStretch true)) 18 0 19 1))
    generalize (s.work.onBin (binStretch true)).count 18 0 19 = u at hreports hmem
    exact ⟨hreports.bin, hmem, rfl, congrArg (fun q : Hub => { q with bin := u.hub.bin }) hreports⟩
  case recovers =>
    intro s hst
    have hs : s.work.hub.bin.stretched = true := hst
    refine does_work (exec_droopRecovery s) (if_neg (by rw [hs]; decide)) ?_
    have hreports := count_reports (s.work.fresh.2.onBin (binStretch false)) 18 0 20 (s.work.fresh.1 % 2 ^ 48)
    have hset : SameMem s.work (s.work.fresh.2.onBin (binStretch false)) := ⟨rfl, rfl⟩
    have hmem := commit_mem_of_sameMem (hset.trans (count_mem (s.work.fresh.2.onBin (binStretch false)) 18 0 20 (s.work.fresh.1 % 2 ^ 48)))
    generalize (s.work.fresh.2.onBin (binStretch false)).count 18 0 20 (s.work.fresh.1 % 2 ^ 48) = u at hreports hmem
    exact ⟨hreports.bin, hmem, rfl, congrArg (fun q : Hub => { q with bin := u.hub.bin, free := u.hub.free }) hreports⟩
  case ages =>
    intro s p hup hp hroom
    exact does_ages hup hp hroom
  case hot =>
    rintro s h m ⟨hup, hruns⟩ ⟨hv, hc⟩ hle hhot
    obtain ⟨v, hexec, hst⟩ := sensorThreshold_steered h m hup hruns
    refine ⟨_, hexec, hst.thermalHold.trans ?_, hst.temps, ?_, hst.apart⟩
    · rcases hhot with hhot | hhot <;> simp [binAt, binSensed, hhot]
    · exact hst.level.trans ((levelAsked_free (b := binSensed h m s.hub.bin) hv (binSensed_free hc) _).trans (Nat.min_eq_left hle))
  case cooled =>
    rintro s h m ⟨hup, hruns⟩ ⟨hh, hm⟩
    obtain ⟨v, hexec, hst⟩ := sensorThreshold_steered h m hup hruns
    obtain ⟨hheld, hcrit, -⟩ := binSensed_cool (b := s.hub.bin) hh hm
    exact ⟨_, hexec, hst.thermalHold.trans hheld, hst.critical.trans hcrit, hst.apart⟩
  case critical =>
    intro s hup hc
    obtain ⟨v, hexec, hst, hsent⟩ := thermalCritical_steered hup hc
    refine ⟨_, hexec, hst.critical, hst.level.trans ?_, hst.thermalHold, hsent, hst.apart⟩
    simp [binAt, levelAsked, binCritical]
  case trip =>
    intro s hn hheld
    have hreset := hubReset_start ((s.work.emit (.pin .thermtripN false)).onHub fun h => { h with board := { h.board with thermtripN := false } })
    have hheld' : ((s.work.emit (.pin .thermtripN false)).onHub fun h => { h with board := { h.board with thermtripN := false } }).resetHeldOff = false := hheld
    refine does_work (exec_hubThermtrip s) (if_neg (by rw [hheld']; decide)) ?_
    generalize (Work.hubReset _ true) = u at hreset
    obtain ⟨hboard, hrst, hcold⟩ := hreset
    have hpin := congrArg Board.thermtripN hboard
    exact ⟨hpin, hrst, hcold⟩
  case lost =>
    intro s hup hv
    obtain ⟨v, hexec, hst, hnone⟩ := avsbusFailure_steered hup hv
    refine ⟨_, hexec, hst.avsLost, hst.level.trans ?_, hnone, hst.apart⟩
    simp [binAt, levelAsked, binLost]

end Sys2Proof.Machine
end

section
/-! PROOFS. Links of the host ports (R371-R373, R384, R391, R392). -/

namespace Sys2Proof.Machine

/-! ## What reports leave of a port -/

/-- A port without its functions, its status bits and its Log. -/
def portStill (x : Port) : Port := { x with funcs := [], isr := [], log := {} }

/-- From one work to the next ports have changed in their functions, status bits and Logs alone. -/
def PortsKept (w w' : Work) : Prop := ∀ p, portStill (w'.port p) = portStill (w.port p)

theorem PortsKept.refl (w : Work) : PortsKept w w := fun _ => rfl
theorem PortsKept.trans {a b c : Work} (h : PortsKept a b) (k : PortsKept b c) : PortsKept a c := fun p => (k p).trans (h p)
theorem PortsKept.each {α : Type} (l : List α) (f : α → Work → Work) (w : Work) (hf : ∀ a w, PortsKept w (f a w)) : PortsKept w (each l f w) :=
  each_keeps l f w (.refl w) fun a _ h => h.trans (hf a _)
theorem PortsKept.elsewhere {w w' : Work} (h : w'.hub.ports = w.hub.ports) : PortsKept w w' := fun p => by unfold Work.port; rw [h]
theorem portsKept_ite {w a b : Work} {c : Prop} [Decidable c] (ha : PortsKept w a) (hb : PortsKept w b) : PortsKept w (if c then a else b) := by
  split
  · exact ha
  · exact hb

theorem PortsKept.onPort (w : Work) (p : Nat) (f : Port → Port) (hf : portStill (f (w.port p)) = portStill (w.port p)) : PortsKept w (w.onPort p f) := by
  intro q
  by_cases h : q = p
  · rw [h, port_onPort, hf]
  · rw [port_onPort_ne w f h]

theorem PortsKept.onFunc (w : Work) (f : FuncRef) (g : Func → Func) : PortsKept w (w.onFunc f g) := .onPort w _ _ rfl

section
variable {w w' : Work} (h : PortsKept w w') (p : Nat)
include h

theorem PortsKept.state : (w'.port p).state = (w.port p).state := by have e := congrArg Port.state (h p); exact e
theorem PortsKept.ide : (w'.port p).ide = (w.port p).ide := by have e := congrArg Port.ide (h p); exact e
theorem PortsKept.porters : (w'.port p).porters = (w.port p).porters := by have e := congrArg Port.porters (h p); exact e
theorem PortsKept.l0s : (w'.port p).l0s = (w.port p).l0s := by have e := congrArg Port.l0s (h p); exact e
theorem PortsKept.l0p : (w'.port p).l0p = (w.port p).l0p := by have e := congrArg Port.l0p (h p); exact e
theorem PortsKept.l1 : (w'.port p).l1 = (w.port p).l1 := by have e := congrArg Port.l1 (h p); exact e
theorem PortsKept.before : (w'.port p).before = (w.port p).before := by have e := congrArg Port.before (h p); exact e
theorem PortsKept.ready : (w'.port p).ready = (w.port p).ready := by have e := congrArg Port.ready (h p); exact e
theorem PortsKept.trained : ((w'.port p).state, (w'.port p).width, (w'.port p).rate, (w'.port p).flit, (w'.port p).cxl) = ((w.port p).state, (w.port p).width, (w.port p).rate, (w.port p).flit, (w.port p).cxl) := by
  have e := congrArg (fun x : Port => (x.state, x.width, x.rate, x.flit, x.cxl)) (h p)
  exact e

end

theorem hostWrite_portsKept (w : Work) (f : FuncRef) (a : Nat) (d : List Byte) : PortsKept w (w.hostWrite f a d) := by
  have hpoke : PortsKept w (w.poke (hostKey f.port a) d) := .elsewhere (by unfold Work.poke; split <;> rfl)
  unfold Work.hostWrite
  refine portsKept_ite (.refl w) (portsKept_ite ?_ (.onFunc w _ _))
  exact hpoke.trans (.elsewhere rfl)

theorem sendVector_portsKept (w : Work) (f : FuncRef) (v owe : Nat) : PortsKept w (w.sendVector f v owe) := by
  have hout (n : Nat) : PortsKept w (if w.mayIssue f then (w.emit (.msix f n)).tlp f.port 1 else w.onFunc f fun fn => { fn with owedVecs := fn.owedVecs ++ [owe] }) :=
    portsKept_ite (.elsewhere rfl) (.onFunc w _ _)
  unfold Work.sendVector
  dsimp only
  refine portsKept_ite (portsKept_ite (.onFunc w _ _) (hout v)) ?_
  split
  · exact .refl w
  · exact portsKept_ite (.onFunc w _ _) (hout _)

theorem raise_portsKept (w : Work) (f : FuncRef) (v owe : Nat) : PortsKept w (w.raise f v owe) := by
  unfold Work.raise
  dsimp only
  split
  · exact (PortsKept.onPort w _ _ rfl).trans (sendVector_portsKept _ _ _ _)
  · exact (PortsKept.onFunc w _ _).trans (sendVector_portsKept _ _ _ _)

theorem irqs_portsKept (w : Work) (l : List Nat) (src : Nat) : PortsKept w (w.irqs l src) := .each l _ w fun _ v => raise_portsKept v _ _ _

theorem count_portsKept (w : Work) (k i c n : Nat) : PortsKept w (w.count k i c n) := by
  unfold Work.count
  dsimp only
  refine portsKept_ite (.elsewhere rfl) (portsKept_ite ?_ (.elsewhere rfl))
  refine PortsKept.trans ?_ (irqs_portsKept _ _ _)
  exact .elsewhere rfl

theorem setLog_portsKept (w : Work) (p : Nat) (r : LogRing) : PortsKept w (w.setLog p r) := .onPort w _ _ rfl

theorem plogPut_portsKept (w : Work) (p : Nat) (e : LogEvent) : PortsKept w (w.plogPut p e) := by
  have hpri (r : LogRing) (x : Nat) (slot : Option Nat) : PortsKept w (w.plogPri p r x slot) := by
    cases slot with
    | none => exact .refl w
    | some i => exact hostWrite_portsKept w _ _ _
  have hstore (v : Work) (r : LogRing) (x cls sev : Nat) : PortsKept v (v.plogStore p r x cls sev) := by
    have hput := (setLog_portsKept v p (logAppend r x).1).trans (hostWrite_portsKept _ { port := p, func := 0 } (r.base + 32 * r.tail) (leBytes 32 (logAppend r x).2))
    unfold Work.plogStore
    dsimp only
    exact portsKept_ite (portsKept_ite ((setLog_portsKept v _ _).trans (raise_portsKept _ _ _ _)) (setLog_portsKept v _ _))
      (portsKept_ite (hput.trans (raise_portsKept _ _ _ _)) hput)
  unfold Work.plogPut
  dsimp only
  exact portsKept_ite (setLog_portsKept w _ _) (portsKept_ite (setLog_portsKept w _ _) ((hpri _ _ _).trans (hstore _ _ _ _ _)))

theorem log_portsKept (w : Work) (e : LogEvent) : PortsKept w (w.log e) := by
  unfold Work.log
  have hput : PortsKept w (w.mlogPut e) := by
    refine .elsewhere ?_
    unfold Work.mlogPut
    dsimp only
    split
    · split <;> rfl
    · rfl
  exact hput.trans (.each _ _ _ fun p v => plogPut_portsKept v p e)

theorem derate_portsKept (w : Work) : PortsKept w w.derate := .elsewhere (by rw [(derate_regulates w).hub])

/-! ## Commands on a link -/

/-- A command whose work changes one port, then only counts. -/
theorem does_portCounted {c : Instr} {s : State} {F : Work → Work} {p k i n : Nat} {f : Port → Port} (hexec : exec c s = s.run F) (hF : F s.work = (s.work.onPort p f).count k i n) {P : Port → Prop}
    (hP : ∀ x, portStill x = portStill (f (s.work.port p)) → P x) : Does c s fun t => P (t.work.port p) ∧ Within s t id ∧ t.mem = s.mem := by
  refine does_work hexec hF ?_
  have hkept := count_portsKept (s.work.onPort p f) k i n 1 p
  have hreports := (onPort_reports s.work p f).trans (count_reports (s.work.onPort p f) k i n 1)
  have hset : SameMem s.work (s.work.onPort p f) := ⟨rfl, rfl⟩
  have hmem := commit_mem_of_sameMem (hset.trans (count_mem (s.work.onPort p f) k i n 1))
  rw [port_onPort] at hkept
  generalize (s.work.onPort p f).count k i n = u at hkept hreports hmem
  exact ⟨hP _ hkept, ⟨rfl, hreports⟩, hmem⟩

/-- What a command that sets a port's link leaves: all but regulation. -/
theorem within_derated {s : State} {p : Nat} {f : Port → Port} {v : Work} (h : Reports (s.work.onPort p f) v) {w : Work} (hw : Reports v.derate w) :
    Within s (s.commit w) fun h => { h with bwr := w.hub.bwr } := by
  have hset : Same offBwr s.work (s.work.onPort p f) := rfl
  exact within_bwr (((hset.trans (h.same offBwr)).trans (derate_regulates v).same).trans (hw.same offBwr))

theorem exec_perstNRelease (p : Nat) (s : State) : exec (.perstNRelease p) s = s.run fun w => w.onPort p fun x => { x with perstN := true, perstHeld := false } := rfl
theorem exec_configReady (p : Nat) (s : State) : exec (.configReady p) s = s.run fun w => if (w.port p).perstN && w.hub.start.hubRstN then w.onPort p fun x => { x with configReady := true } else w := rfl
theorem exec_linkTrainingDone (p : Nat) (r : LinkTrain) (s : State) : exec (.linkTrainingDone p r) s = s.run fun w => if w.mayTrain p then w.portTrained p r else w := rfl
theorem exec_linkTrainingTimeout (p : Nat) (s : State) : exec (.linkTrainingTimeout p) s = s.run fun w =>
    if w.mayTrain p then ((w.onPort p fun x => { x with state := 0 }).portLog p 1 0).derate else w := rfl
theorem exec_l0sExit (p d : Nat) (s : State) : exec (.l0sExit p d) s = s.run fun w => w.onPort p fun x => { x with l0s := rmv x.l0s d } := rfl
theorem exec_l0pExit (p : Nat) (s : State) : exec (.l0pExit p) s = s.run fun w => w.onPort p fun x => { x with l0p := false } := rfl
theorem exec_l1Exit (p : Nat) (s : State) : exec (.l1Exit p) s = s.run fun w => w.onPort p fun x => { x with l1 := false } := rfl
theorem exec_l0sEntry (p d : Nat) (s : State) : exec (.l0sEntry p d) s = s.run fun w =>
    if w.linkIdle p && !(w.port p).flit && d < 2 && d ∉ (w.port p).l0s then (w.onPort p fun x => { x with l0s := addTo x.l0s d }).count 14 p 23 else w := rfl
theorem exec_l0pEntry (p n : Nat) (s : State) : exec (.l0pEntry p n) s = s.run fun w =>
    if w.linkIdle p && (w.port p).flit && !(w.port p).l0p && n < (w.port p).width && w.guarSum (2 + p) + w.guarSum (6 + p) = 0 then
      (w.onPort p fun x => { x with l0p := true }).count 14 p 24 else w := rfl
theorem exec_l1Entry (p : Nat) (s : State) : exec (.l1Entry p) s = s.run fun w =>
    if w.linkIdle p && !(w.port p).l1 && w.portQuiet p then (w.onPort p fun x => { x with l1 := true }).count 14 p 25 else w := rfl

/-- A port whose link begins a retrain (R391). -/
def portRetrains (x : Port) : Port := { x with before := x.state, state := 4, l0s := [], l1 := false }

theorem exec_linkRetrainStart (p : Nat) (s : State) : exec (.linkRetrainStart p) s = s.run fun w =>
    if !((w.port p).state = 1 || (w.port p).state = 2 || (w.port p).state = 3) then w else ((w.onPort p portRetrains).count 14 p 9).derate := rfl

/-- A command that changes one port alone. -/
theorem does_onPort {c : Instr} {s : State} {F : Work → Work} {p : Nat} {f : Port → Port} {x : Port} (hexec : exec c s = s.run F) (hF : F s.work = s.work.onPort p f) (hf : f (s.work.port p) = x) :
    Does c s fun t => t.work.port p = x ∧ Exactly s t (fun h => { h with ports := t.hub.ports }) ∧ ∀ q, q ≠ p → t.work.port q = s.work.port q := by
  refine does_work hexec hF ⟨(port_onPort s.work p f).trans hf, ⟨rfl, rfl, rfl⟩, fun q hq => port_onPort_ne s.work f hq⟩

/-- A port that has trained (R371, R372). -/
def portTrains (r : LinkTrain) (x : Port) : Port := { x with state := trainedState r, width := r.width, rate := r.rate, flit := r.flit, cxl := r.cxl }

/-- READY rises where the hub has finished its start (R372, R541). -/
def Work.portReadies (w : Work) (p : Nat) : Work := if w.hub.start.state = 1 && !(w.port p).ready then (w.onPort p fun x => { x with ready := true }).irq p 0 else w

theorem portTrained_eq (w : Work) (p : Nat) (r : LinkTrain) : w.portTrained p r =
    ((w.onPort p (portTrains r)).portLog p (if trainedState r = 3 then 0 else 1) (trainedState r) (r.width + 32 * r.rate)).derate.portReadies p := by
  unfold Work.portTrained Work.portReadies portTrains
  rfl

theorem portReadies_reports (w : Work) (p : Nat) : Reports w (w.portReadies p) := by
  unfold Work.portReadies
  split
  · exact (onPort_reports w p _).trans (raise_reports _ _ _ _)
  · exact .refl w

theorem portReadies_trained (w : Work) (p : Nat) : (((w.portReadies p).port p).state, ((w.portReadies p).port p).width, ((w.portReadies p).port p).rate, ((w.portReadies p).port p).flit,
    ((w.portReadies p).port p).cxl) = ((w.port p).state, (w.port p).width, (w.port p).rate, (w.port p).flit, (w.port p).cxl) ∧ (w.hub.start.state = 1 → ((w.portReadies p).port p).ready = true) := by
  unfold Work.portReadies
  split
  next h =>
    have hkept := raise_portsKept (w.onPort p fun x => { x with ready := true }) { port := p, func := 0 } ((w.onPort p fun x => { x with ready := true }).irqVector p 0) (4096 + 0)
    have htrained := hkept.trained p
    have hready := hkept.ready p
    rw [port_onPort] at htrained hready
    exact ⟨htrained, fun _ => hready⟩
  next h =>
    refine ⟨rfl, fun hs => ?_⟩
    simpa [hs] using h

section
variable {s : State} {p : Nat}

theorem does_trains {r : LinkTrain} (h : s.work.mayTrain p = true) : Does (.linkTrainingDone p r) s fun t =>
    ((t.work.port p).state, (t.work.port p).width, (t.work.port p).rate, (t.work.port p).flit, (t.work.port p).cxl) = (trainedState r, r.width, r.rate, r.flit, r.cxl)
    ∧ (s.hub.start.state = 1 → (t.work.port p).ready = true) ∧ Within s t (fun h => { h with bwr := t.hub.bwr }) := by
  refine does_work (exec_linkTrainingDone p r s) ((if_pos h).trans (portTrained_eq _ _ _)) ?_
  have hlog := log_reports (s.work.onPort p (portTrains r)) { cls := 0x0D, sev := (if trainedState r = 3 then 0 else 1), cause := trainedState r, unit := p, detail := r.width + 32 * r.rate }
  have hkept := log_portsKept (s.work.onPort p (portTrains r)) { cls := 0x0D, sev := (if trainedState r = 3 then 0 else 1), cause := trainedState r, unit := p, detail := r.width + 32 * r.rate }
  unfold Work.portLog
  generalize (s.work.onPort p (portTrains r)).log _ = v at hlog hkept
  have hwithin := within_derated hlog (portReadies_reports v.derate p)
  obtain ⟨htrained, hready⟩ := portReadies_trained v.derate p
  have hderated := (hkept.trans (derate_portsKept v)).trained p
  rw [port_onPort] at hderated
  have hstart : v.derate.hub.start = s.hub.start := by
    rw [(derate_regulates v).hub]
    exact hlog.start
  rw [hstart] at hready
  generalize v.derate.portReadies p = u at hwithin htrained hready
  exact ⟨htrained.trans hderated, hready, hwithin⟩

theorem does_trainsNot (h : s.work.mayTrain p = true) : Does (.linkTrainingTimeout p) s fun t => (t.work.port p).state = 0 ∧ Within s t (fun h => { h with bwr := t.hub.bwr }) := by
  refine does_work (exec_linkTrainingTimeout p s) (if_pos h) ?_
  have hlog := log_reports (s.work.onPort p fun x => { x with state := 0 }) { cls := 0x0D, sev := 1, cause := 0, unit := p, detail := 0 }
  have hkept := log_portsKept (s.work.onPort p fun x => { x with state := 0 }) { cls := 0x0D, sev := 1, cause := 0, unit := p, detail := 0 }
  unfold Work.portLog
  generalize (s.work.onPort p fun x => { x with state := 0 }).log _ = v at hlog hkept
  have hwithin := within_derated hlog (.refl v.derate)
  have hstate := (hkept.trans (derate_portsKept v)).state p
  rw [port_onPort] at hstate
  generalize v.derate = u at hwithin hstate
  exact ⟨hstate, hwithin⟩

theorem does_retrains (h : s.work.linkIdle p = true) : Does (.linkRetrainStart p) s fun t =>
    (t.work.port p).state = 4 ∧ (t.work.port p).before = (s.work.port p).state ∧ Within s t (fun h => { h with bwr := t.hub.bwr }) ∧ t.mem = s.mem := by
  have hidle : (!((s.work.port p).state = 1 || (s.work.port p).state = 2 || (s.work.port p).state = 3)) = false := by
    have hneg : (!s.work.linkIdle p) = false := by rw [h]; rfl
    exact hneg
  refine does_work (exec_linkRetrainStart p s) (if_neg (by rw [hidle]; decide)) ?_
  have hcount := count_reports (s.work.onPort p portRetrains) 14 p 9 1
  have hkept := count_portsKept (s.work.onPort p portRetrains) 14 p 9 1
  have hset : SameMem s.work (s.work.onPort p portRetrains) := ⟨rfl, rfl⟩
  have hmem := hset.trans (count_mem (s.work.onPort p portRetrains) 14 p 9 1)
  generalize (s.work.onPort p portRetrains).count 14 p 9 = v at hcount hkept hmem
  have hwithin := within_derated hcount (.refl v.derate)
  have hall := hkept.trans (derate_portsKept v)
  have hstate := hall.state p
  have hbefore := hall.before p
  rw [port_onPort] at hstate hbefore
  have hsame := commit_mem_of_sameMem (hmem.trans (derate_sparesBin v).mem)
  generalize v.derate = u at hwithin hstate hbefore hsame
  exact ⟨hstate, hbefore, hwithin, hsame⟩

end

/-! ## The end of a retrain -/

/-- From one work to the next nothing but what reports change has changed, and of ports what `PortsKept` says. -/
structure Still (w w' : Work) : Prop where
  reports : Reports w w'
  kept : PortsKept w w'

theorem Still.refl (w : Work) : Still w w := ⟨.refl w, .refl w⟩
theorem Still.trans {a b c : Work} (h : Still a b) (k : Still b c) : Still a c := ⟨h.reports.trans k.reports, h.kept.trans k.kept⟩
theorem Still.each {α : Type} (l : List α) (f : α → Work → Work) (w : Work) (hf : ∀ a w', Still w w' → Still w' (f a w')) : Still w (each l f w) :=
  each_keeps l f w (.refl w) fun a _ h => h.trans (hf a _ h)

theorem still_ite {w a b : Work} {c : Prop} [Decidable c] (ha : Still w a) (hb : Still w b) : Still w (if c then a else b) := by
  split
  · exact ha
  · exact hb

/-- What a function owes leaves it. -/
theorem flushOwed_still (w : Work) (f : FuncRef) : Still w (w.flushOwed f) := by
  have hwrites (l : List (Nat × List Byte)) (v : Work) : Still v (each l (fun (a, d) w => w.hostWrite f a d) v) :=
    .each _ _ v fun a u _ => ⟨hostWrite_reports u f a.1 a.2, hostWrite_portsKept u f a.1 a.2⟩
  have hvecs (l : List Nat) (v : Work) : Still v (each l (fun v w => if 4096 ≤ v then w.sendVector f (w.irqVector f.port (v - 4096)) v else w.sendVector f v) v) :=
    .each _ _ v fun a u _ => still_ite ⟨sendVector_reports u f _ _, sendVector_portsKept u f _ _⟩ ⟨sendVector_reports u f _ _, sendVector_portsKept u f _ _⟩
  have hset (g : Func → Func) : Still w (w.onFunc f g) := ⟨rfl, .onFunc w f g⟩
  unfold Work.flushOwed
  exact still_ite (.refl w) (((hset _).trans (hwrites _ _)).trans (hvecs _ _))

/-- With no rings and no copies, a function that may issue again sends only what it owes. -/
theorem kickFunc_still {w : Work} {f : FuncRef} (hrings : w.hub.ten.rings = []) (hporters : (w.port f.port).porters = []) : Still w (w.kickFunc f) := by
  unfold Work.kickFunc
  dsimp only
  have hflush := flushOwed_still w f
  generalize w.flushOwed f = v at hflush
  have hring (u : Work) (hu : Still w u) (b r : Nat) : u.ring b r = {} := by
    have hten : u.hub.ten.rings = [] := by rw [hu.reports.ten]; exact hrings
    unfold Work.ring
    rw [hten]
    rfl
  have hfetch : Still v (each (v.berthsOf f) (fun b w => w.fetchAll b) v) := by
    refine .each _ _ _ fun b u hu => .each _ _ _ fun r z hz => ?_
    have h : z.fetchGo b r = z := by
      unfold Work.fetchGo
      dsimp only
      rw [hring z ((hflush.trans hu).trans hz) b r]
      rfl
    rw [h]
    exact .refl z
  generalize each (v.berthsOf f) (fun b w => w.fetchAll b) v = u at hfetch
  have hboth := hflush.trans hfetch
  refine hboth.trans (.each _ _ _ fun j z hz => ?_)
  have hnone : (z.porter f.port j).queue = [] := by
    have hp := ((hboth.trans hz).kept.porters f.port).trans hporters
    unfold Work.porter
    rw [hp]
    rfl
  rw [hnone]
  exact .refl z

theorem kickPort_still {w : Work} {p : Nat} (hrings : w.hub.ten.rings = []) (hporters : (w.port p).porters = []) : Still w (w.kickPort p) := by
  have hall (l : List Nat) (v : Work) (hv : Still w v) : Still w (each (l.map fun i => ({ port := p, func := i } : FuncRef)) (fun f w => w.kickFunc f) v) := by
    induction l generalizing v with
    | nil => exact hv
    | cons i l ih =>
      have hkick := kickFunc_still (w := v) (f := { port := p, func := i }) ((congrArg Tenancy.rings hv.reports.ten).trans hrings) ((hv.kept.porters p).trans hporters)
      rw [List.map_cons, each_cons]
      exact ih (v.kickFunc { port := p, func := i }) (hv.trans hkick)
  exact hall _ w (.refl w)

/-- The port has the link that its retrain ended with. -/
def Work.retrained (w : Work) (p old : Nat) (r : LinkTrain) : Work :=
  let w := w.onPort p (portTrains r)
  if trainedState r = old then w else w.portLog p 1 (trainedState r) (r.width + 32 * r.rate)

/-- The end of a retrain (R391). -/
def Work.linkRetrained (w : Work) (p : Nat) (result : Option LinkTrain) : Work :=
  if (w.port p).state ≠ 4 then w
  else match result with
    | none => w.linkLost p 10
    | some r => (w.retrained p (w.port p).before r).derate.kickPort p

theorem exec_linkRetrainEnd (p : Nat) (result : Option LinkTrain) (s : State) : exec (.linkRetrainEnd p result) s = s.run fun w => w.linkRetrained p result := rfl

theorem retrained_still (w : Work) (p old : Nat) (r : LinkTrain) : Still (w.onPort p (portTrains r)) (w.retrained p old r) :=
  still_ite (.refl _) ⟨log_reports _ _, log_portsKept _ _⟩

theorem does_retrained {s : State} {p : Nat} {r : LinkTrain} (h : (s.work.port p).state = 4) (hporters : (s.work.port p).porters = []) (hrings : s.hub.ten.rings = []) :
    Does (.linkRetrainEnd p (some r)) s fun t =>
      ((t.work.port p).state, (t.work.port p).width, (t.work.port p).rate, (t.work.port p).flit, (t.work.port p).cxl) = (trainedState r, r.width, r.rate, r.flit, r.cxl)
      ∧ Within s t (fun h => { h with bwr := t.hub.bwr }) := by
  refine does_work (exec_linkRetrainEnd p (some r) s) (w := (s.work.retrained p (s.work.port p).before r).derate.kickPort p) (if_neg (not_not_intro h)) ?_
  have hset := retrained_still s.work p (s.work.port p).before r
  generalize s.work.retrained p (s.work.port p).before r = v at hset
  have hten : v.derate.hub.ten.rings = [] := by
    rw [(derate_regulates v).hub]
    exact (congrArg Tenancy.rings hset.reports.ten).trans hrings
  have hkept := hset.kept.trans (derate_portsKept v)
  have hnone : (v.derate.port p).porters = [] := by
    rw [hkept.porters p, port_onPort]
    exact hporters
  have hkick := kickPort_still hten hnone
  have hwithin := within_derated hset.reports hkick.reports
  have htrained := (hkept.trans hkick.kept).trained p
  rw [port_onPort] at htrained
  generalize v.derate.kickPort p = u at hwithin htrained
  exact ⟨htrained, hwithin⟩

/-! ## The loss of a link -/

/-- A ring as an outcome of a wait leaves it, or stopped with its function: either way it stops as it would have, and one that has stopped stands. -/
def RingGoes (r r' : Ring) : Prop := ringStops true r' = ringStops true r ∧ ∀ r₀, r = ringStops true r₀ → r' = r

theorem ringStops_twice (r : Ring) : ringStops true (ringStops true r) = ringStops true r := by simp [ringStops]

theorem RingGoes.refl (r : Ring) : RingGoes r r := ⟨rfl, fun _ _ => rfl⟩

theorem RingGoes.trans {a b c : Ring} (h : RingGoes a b) (k : RingGoes b c) : RingGoes a c := by
  refine ⟨k.1.trans h.1, fun r₀ hr => ?_⟩
  have hb := h.2 r₀ hr
  rw [k.2 r₀ (hb.trans hr), hb]

theorem RingGoes.stops (r : Ring) : RingGoes r (ringStops true r) := ⟨ringStops_twice r, fun r₀ hr => by rw [hr, ringStops_twice]⟩

theorem RingGoes.told (r : Ring) (f : RingEntry → RingEntry) : RingGoes r { r with fetched := r.fetched.map f } := by
  refine ⟨by simp [ringStops, announced, ringSize], fun r₀ hr => ?_⟩
  subst hr
  rfl

/-- Nothing at a port, at the engines, at the Helm or in the Ledger goes on when its link is lost. -/
structure PortIdle (p : Nat) (w : Work) : Prop where
  copies : ∀ j, (w.porter p j).queue = []
  queues : ∀ x, (w.wright x).queue = []
  runs : ∀ x, (w.wright x).run = none
  waiters : w.hub.helm.waiters = []
  held : w.hub.helm.held = []
  sems : w.hub.helm.sems = []
  ledger : w.hub.ledger = {}
  holds : w.hub.chart.holds = []

/-- From one work to the next the functions of a port have gone on stopping: nothing has begun, the link and the berths' functions stand, rings have at most stopped. -/
structure Loses (p : Nat) (w w' : Work) : Prop where
  idle : PortIdle p w → PortIdle p w'
  link : ((w'.port p).state, (w'.port p).ide) = ((w.port p).state, (w.port p).ide)
  berths : ∀ f b, b ∈ w.berthsOf f → b ∈ w'.berthsOf f
  rings : ∀ k, RingGoes (tget {} w.hub.ten.rings k) (tget {} w'.hub.ten.rings k)

namespace Loses

theorem refl (p : Nat) (w : Work) : Loses p w w := ⟨id, rfl, fun _ _ => id, fun _ => .refl _⟩

theorem trans {p : Nat} {a b c : Work} (h : Loses p a b) (k : Loses p b c) : Loses p a c :=
  ⟨k.idle ∘ h.idle, k.link.trans h.link, fun f x => k.berths f x ∘ h.berths f x, fun i => (h.rings i).trans (k.rings i)⟩

/-- A fold whose turns lose, each on an idle port. -/
theorem each {p : Nat} {α : Type} (l : List α) (f : α → Work → Work) {w : Work} (hi : PortIdle p w) (hf : ∀ a v, PortIdle p v → Loses p v (f a v)) : Loses p w (each l f w) :=
  each_keeps (p := fun v => Loses p w v) l f w (refl p w) fun a v h => h.trans (hf a v (h.idle hi))

theorem ofStill {p : Nat} {w w' : Work} (h : Reports w w') (hk : PortsKept w w') : Loses p w w' := by
  refine ⟨fun hi => ?_, ?_, fun f b hb => ?_, fun k => ?_⟩
  · refine ⟨fun j => ?_, fun x => ?_, fun x => ?_, ?_, ?_, ?_, ?_, ?_⟩
    · unfold Work.porter
      rw [hk.porters p]
      exact hi.copies j
    · unfold Work.wright
      rw [h.wrights]
      exact hi.queues x
    · unfold Work.wright
      rw [h.wrights]
      exact hi.runs x
    · rw [h.helm]; exact hi.waiters
    · rw [h.helm]; exact hi.held
    · rw [h.helm]; exact hi.sems
    · rw [h.ledger]; exact hi.ledger
    · rw [h.chart]; exact hi.holds
  · rw [hk.state p, hk.ide p]
  · unfold Work.berthsOf Work.bindOf Work.mgr Work.berth
    rw [h.ten]
    exact hb
  · rw [h.ten]
    exact .refl _

theorem onFunc (p : Nat) (w : Work) (f : FuncRef) (g : Func → Func) : Loses p w (w.onFunc f g) := ofStill rfl (.onFunc w f g)

theorem onWright (p : Nat) (w : Work) (x : Nat) (f : Wright → Wright) (hf : ∀ y, y.queue = [] → y.run = none → (f y).queue = [] ∧ (f y).run = none) : Loses p w (w.onWright x f) := by
  refine ⟨fun hi => ?_, rfl, fun _ _ => id, fun _ => .refl _⟩
  have hboth (y : Nat) : ((w.onWright x f).wright y).queue = [] ∧ ((w.onWright x f).wright y).run = none := by
    by_cases h : y = x
    · rw [h, wright_onWright]
      exact hf _ (hi.queues x) (hi.runs x)
    · rw [wright_onWright_ne w f h]
      exact ⟨hi.queues y, hi.runs y⟩
  exact ⟨hi.copies, fun y => (hboth y).1, fun y => (hboth y).2, hi.waiters, hi.held, hi.sems, hi.ledger, hi.holds⟩

theorem onRing (p : Nat) (w : Work) (b r : Nat) (f : Ring → Ring) (hf : ∀ x, RingGoes x (f x)) : Loses p w (w.onRing b r f) := by
  refine ⟨fun hi => ⟨hi.copies, hi.queues, hi.runs, hi.waiters, hi.held, hi.sems, hi.ledger, hi.holds⟩, rfl, fun _ _ => id, fun k => ?_⟩
  by_cases h : k = b * 4 + r
  · have hk : tget {} (w.onRing b r f).hub.ten.rings k = f (tget {} w.hub.ten.rings k) := by rw [h]; exact tget_tmod_self _ _ _ _
    rw [hk]
    exact hf _
  · have hk : tget {} (w.onRing b r f).hub.ten.rings k = tget {} w.hub.ten.rings k := tget_tmod_ne _ _ _ h
    rw [hk]
    exact .refl _

theorem notify (p : Nat) (w : Work) (q : Party) (c v : Nat) : Loses p w (w.notify q c v) := by
  cases q with
  | site n tag b =>
    have h := siteSend_sends w n (notifyBytes (if c = 0 then 0 else 9) tag b v)
    unfold Work.notify
    dsimp only
    generalize w.siteSend n (notifyBytes (if c = 0 then 0 else 9) tag b v) = u at h
    have hhub := h.hub
    refine ⟨fun hi => ?_, ?_, fun f b hb => ?_, fun k => ?_⟩
    · obtain ⟨hcopies, hqueues, hruns, hwaiters, hheld, hsems, hledger, hholds⟩ := hi
      unfold Work.porter Work.port at hcopies
      unfold Work.wright at hqueues hruns
      constructor
      · unfold Work.porter Work.port
        rw [hhub]
        exact hcopies
      · unfold Work.wright
        rw [hhub]
        exact hqueues
      · unfold Work.wright
        rw [hhub]
        exact hruns
      all_goals rw [hhub]
      all_goals assumption
    · unfold Work.port
      rw [hhub]
    · unfold Work.berthsOf Work.bindOf Work.mgr Work.berth
      rw [hhub]
      exact hb
    · rw [hhub]
      exact .refl _
  | wright x => exact onWright p w x _ fun y hq hr => ⟨hq, by rw [hr]; rfl⟩
  | launch x => exact onWright p w x _ fun y hq hr => ⟨by rw [hq], hr⟩
  | entry b r i => exact onRing p w b r _ fun x => .told x _

theorem spillOut (p : Nat) (l : List SpillRead) (w : Work) : Loses p w (w.spillOut l) := by
  have hread (v : Work) (q : List SpillRead) : Loses p v (v.onHelm fun h => { h with reading := q }) :=
    ⟨fun hi => ⟨hi.copies, hi.queues, hi.runs, hi.waiters, hi.held, hi.sems, hi.ledger, hi.holds⟩, rfl, fun _ _ => id, fun _ => .refl _⟩
  induction l generalizing w with
  | nil => exact hread w []
  | cons x l ih =>
    rw [Work.spillOut]
    split
    · exact (notify p w _ _ _).trans (ih _)
    · exact hread w _

theorem withdrawWaits {p : Nat} {w : Work} (hi : PortIdle p w) (pick : Party → Bool) : Loses p w (w.withdrawWaits pick) := by
  unfold Work.withdrawWaits
  extract_lets waits dropped told
  have hdropped : Loses p w dropped := by
    refine ⟨fun hi => ⟨hi.copies, hi.queues, hi.runs, ?_, ?_, hi.sems, hi.ledger, hi.holds⟩, rfl, fun _ _ => id, fun _ => .refl _⟩
    · have hw := hi.waiters
      exact (congrArg (List.filter _) hw).trans rfl
    · have hh := hi.held
      exact (congrArg (List.filter _) hh).trans rfl
  clear_value dropped
  have htold : Loses p dropped told := spillOut p _ _
  clear_value told
  have hsems := ((hdropped.trans htold).idle hi).sems
  rw [hsems]
  exact hdropped.trans htold

end Loses

/-- Keys of a table stay where one value changes. -/
theorem key_tmod {α : Type} (d : α) (t : Tab α) (i : Nat) (f : α → α) {k : Nat} (h : k ∈ t.map (·.1)) : k ∈ (tmod d t i f).map (·.1) := by
  have hset (a : α) : k ∈ (tset t i a).map (·.1) := by
    induction t with
    | nil => simp at h
    | cons x t ih =>
      obtain ⟨j, y⟩ := x
      rw [List.map_cons, List.mem_cons] at h
      unfold tset
      split
      next hj =>
        rw [List.map_cons, List.mem_cons]
        exact h.imp (fun e => e.trans hj) id
      next hj =>
        split
        · rw [List.map_cons, List.mem_cons]
          exact h.imp id ih
        · rw [List.map_cons, List.mem_cons, List.map_cons, List.mem_cons]
          exact .inr h
  exact hset _

/-- A field that a change leaves is the same in a table whose values all change so. -/
theorem tget_map_same {α β : Type} (d : α) (f : α → α) (g : α → β) (hf : ∀ x, g (f x) = g x) (t : Tab α) (i : Nat) : g (tget d (t.map fun (k, x) => (k, f x)) i) = g (tget d t i) := by
  induction t with
  | nil => rfl
  | cons x t ih =>
    obtain ⟨k, x⟩ := x
    simp only [List.map_cons, tget]
    split
    · exact hf x
    · split
      · exact ih
      · rfl

/-- Which berths a function has rests on the berths listed, their bindings, and the managers. -/
theorem berthsOf_mono {w w' : Work} (hmgr : w'.hub.ten.mgr = w.hub.ten.mgr) (hbind : ∀ b, (w'.berth b).bind = (w.berth b).bind)
    (hkeys : ∀ b, b ∈ w.hub.ten.berths.map (·.1) → b ∈ w'.hub.ten.berths.map (·.1)) {f : FuncRef} {b : Nat} (h : b ∈ w.berthsOf f) : b ∈ w'.berthsOf f := by
  have hbinds : ∀ b, w'.bindOf b = w.bindOf b := by
    intro b
    unfold Work.bindOf Work.mgr
    rw [hmgr, hbind]
  have hown : b ∈ (w.hub.ten.berths.filter fun (b, _) => match w.bindOf b with | some y => y.port = f.port && y.func = f.func | none => false).map (·.1) →
      b ∈ (w'.hub.ten.berths.filter fun (b, _) => match w'.bindOf b with | some y => y.port = f.port && y.func = f.func | none => false).map (·.1) := by
    intro hb
    obtain ⟨x, hx, rfl⟩ := List.mem_map.1 hb
    obtain ⟨hx, hmatch⟩ := List.mem_filter.1 hx
    obtain ⟨y, hy, hyx⟩ := List.mem_map.1 (hkeys x.1 (List.mem_map_of_mem hx))
    refine List.mem_map.2 ⟨y, List.mem_filter.2 ⟨hy, ?_⟩, hyx⟩
    dsimp only at hmatch hyx ⊢
    rw [hyx, hbinds]
    exact hmatch
  have hmem_addTo {l : List Nat} {a : Nat} : b ∈ addTo l a ↔ b = a ∨ b ∈ l := by
    unfold addTo
    split
    next ha => exact ⟨.inr, fun h => h.elim (fun e => e ▸ ha) id⟩
    next => exact List.mem_cons
  unfold Work.berthsOf at h ⊢
  have hm : w'.mgr f.port = w.mgr f.port := by unfold Work.mgr; rw [hmgr]
  dsimp only at h ⊢
  split at h
  next hpf =>
    rw [hmem_addTo] at h
    rw [if_pos hpf, hmem_addTo, hm]
    exact h.imp id hown
  next hvf =>
    rw [if_neg hvf]
    exact hown h

namespace Loses

theorem onBerthView (p : Nat) (w : Work) (b : Nat) : Loses p w (w.onBerth b fun x => { x with view := viewAbandon x.view }) := by
  refine ⟨fun hi => ⟨hi.copies, hi.queues, hi.runs, hi.waiters, hi.held, hi.sems, hi.ledger, hi.holds⟩, rfl, fun f c hc => ?_, fun _ => .refl _⟩
  refine berthsOf_mono (w := w) (w' := w.onBerth b _) rfl (fun c => ?_) (fun c hc => key_tmod ({} : Berth) w.hub.ten.berths b _ hc) hc
  by_cases h : c = b
  · rw [h, berth_onBerth]
  · rw [berth_onBerth_ne w _ h]

theorem orphan (p : Nat) (w : Work) (pick : EntryRef → Bool) : Loses p w (w.orphan pick) := by
  unfold Work.orphan
  extract_lets m o
  refine ⟨fun hi => ⟨hi.copies, fun x => ?_, fun x => ?_, hi.waiters, hi.held, hi.sems, hi.ledger, ?_⟩, rfl, fun f c hc => ?_, fun _ => .refl _⟩
  · exact (tget_map_same ({} : Wright) (fun x : Wright => { x with draining := o x.draining, stopEntries := x.stopEntries.filter fun e => (o (some e)).isSome }) (·.queue) (fun _ => rfl) w.hub.wrights x).trans (hi.queues x)
  · exact (tget_map_same ({} : Wright) (fun x : Wright => { x with draining := o x.draining, stopEntries := x.stopEntries.filter fun e => (o (some e)).isSome }) (·.run) (fun _ => rfl) w.hub.wrights x).trans (hi.runs x)
  · have hh := hi.holds
    exact (congrArg (List.map _) hh).trans rfl
  · refine berthsOf_mono (w := w) (w' := w.onHub _) ?_ (fun c => ?_) (fun c hc => ?_) hc
    · rfl
    · exact tget_map_same ({} : Berth) (fun b : Berth => { b with closeEntry := m b.closeEntry }) (·.bind) (fun _ => rfl) w.hub.ten.berths c
    · refine Eq.mp (congrArg (c ∈ ·) ?_) hc
      exact (List.map_map (l := w.hub.ten.berths) (f := fun x => (x.1, { x.2 with closeEntry := m x.2.closeEntry })) (g := (·.1))).symm

theorem dropAtc {p : Nat} (w : Work) (j : Nat) (keep : Atc → Bool) : Loses p w (w.onPorter p j fun y => { y with atc := y.atc.filter keep }) := by
  have hport : ((w.onPorter p j fun y => { y with atc := y.atc.filter keep }).port p) = { w.port p with porters := tmod {} (w.port p).porters j fun y => { y with atc := y.atc.filter keep } } := port_onPort _ _ _
  refine ⟨fun hi => ⟨fun i => ?_, hi.queues, hi.runs, hi.waiters, hi.held, hi.sems, hi.ledger, hi.holds⟩, by rw [hport], fun _ _ => id, fun _ => .refl _⟩
  unfold Work.porter
  rw [hport]
  by_cases h : i = j
  · rw [h, tget_tmod_self]
    exact hi.copies j
  · rw [tget_tmod_ne _ _ _ h]
    exact hi.copies i

/-- An engine with nothing queued and nothing running has nothing to stop (R389). -/
theorem wrightDrops {p : Nat} {w : Work} (hi : PortIdle p w) (x : Nat) (pick : EntryRef → Bool) : Loses p w (w.wrightDrops x pick) := by
  have hq := hi.queues x
  have hr := hi.runs x
  simp only [Work.wrightDrops, hq, hr, Bool.false_eq_true, if_false]
  exact onWright p w x _ fun y hq hr => ⟨by rw [hq]; rfl, by rw [hr]; rfl⟩

theorem porterDrops {p : Nat} {w : Work} (hi : PortIdle p w) (j : Nat) (pick : CopyJob → Bool) (aborts : Bool) : w.porterDrops p j pick aborts = w := by
  simp only [Work.porterDrops, hi.copies j]

end Loses

/-! ## What a loss leaves at the port and of its rings -/

/-- The function of a port that a number names. -/
abbrev funcAt (p i : Nat) : FuncRef := { port := p, func := i }

theorem each_reaches {α σ : Type} {q r : σ → Prop} (l : List α) (f : α → σ → σ) {a : α} (ha : a ∈ l) {s : σ} (hq : q s) (hkeeps : ∀ a s, q s → q (f a s)) (hgets : ∀ s, q s → r (f a s))
    (hholds : ∀ b s, q s → r s → r (f b s)) : r (each l f s) := by
  induction l generalizing s with
  | nil => simp at ha
  | cons b l ih =>
    rw [each_cons]
    rcases List.mem_cons.1 ha with rfl | ha
    · exact (each_keeps (p := fun s => q s ∧ r s) l f _ ⟨hkeeps _ _ hq, hgets _ hq⟩ fun c s h => ⟨hkeeps c s h.1, hholds c s h.1 h.2⟩).2
    · exact ih ha (hkeeps b s hq)

/-- The rings of berths stop, each in its turn. -/
theorem rings_stop {p : Nat} (w : Work) (bs : List Nat) (hi : PortIdle p w) :
    Loses p w (each bs (fun b w => each (List.range 4) (fun r w => w.onRing b r (ringStops true)) w) w)
    ∧ ∀ b ∈ bs, ∀ r < 4, (each bs (fun b w => each (List.range 4) (fun r w => w.onRing b r (ringStops true)) w) w).ring b r = ringStops true (w.ring b r) := by
  have hone (b : Nat) (v : Work) : Loses p v (each (List.range 4) (fun r w => w.onRing b r (ringStops true)) v) :=
    each_keeps (p := fun u => Loses p v u) _ _ v (.refl p v) fun r u h => h.trans (.onRing p u b r _ .stops)
  have hall (v : Work) : Loses p v (each bs (fun b w => each (List.range 4) (fun r w => w.onRing b r (ringStops true)) w) v) :=
    each_keeps (p := fun u => Loses p v u) _ _ v (.refl p v) fun b u h => h.trans (hone b u)
  have hstands {u v : Work} (h : Loses p u v) {b r : Nat} (hu : u.ring b r = ringStops true (w.ring b r)) : v.ring b r = ringStops true (w.ring b r) := by
    have hr := (h.rings (b * 4 + r)).2 (w.ring b r) hu
    exact hr.trans hu
  have hends {v : Work} (h : Loses p w v) (b r : Nat) : (v.onRing b r (ringStops true)).ring b r = ringStops true (w.ring b r) := by
    rw [ring_onRing]
    exact (h.rings (b * 4 + r)).1
  refine ⟨hall w, fun b hb r hr => ?_⟩
  refine each_reaches (q := fun v => Loses p w v) (r := fun v => v.ring b r = ringStops true (w.ring b r)) bs _ hb (.refl p w) (fun c v h => h.trans (hone c v)) (fun v hv => ?_)
    fun c v _ h => hstands (hone c v) h
  exact each_reaches (q := fun u => Loses p w u) (r := fun u => u.ring b r = ringStops true (w.ring b r)) (List.range 4) _ (List.mem_range.2 hr) hv
    (fun c u h => h.trans (.onRing p u b c _ .stops)) (fun u hu => hends hu b r) fun c u _ h => hstands (.onRing p u b c _ .stops) h

/-- A function stops with its port's link: its rings stop, and nothing begins (R389, R392). -/
theorem funcStops_loses {p i : Nat} {w : Work} (hi : PortIdle p w) : Loses p w (w.funcStops (funcAt p i) true)
    ∧ ∀ b ∈ w.berthsOf (funcAt p i), ∀ r < 4, (w.funcStops (funcAt p i) true).ring b r = ringStops true (w.ring b r) := by
  unfold Work.funcStops
  extract_lets bs mine cleared withdrawn stopped dropped engines viewed
  have hcleared : Loses p w cleared := .onFunc p w _ _
  have hwithdrawn : Loses p cleared withdrawn := .withdrawWaits (hcleared.idle hi) _
  have hbefore := hcleared.trans hwithdrawn
  have hstopped : Loses p withdrawn stopped ∧ ∀ b ∈ bs, ∀ r < 4, stopped.ring b r = ringStops true (withdrawn.ring b r) := rings_stop withdrawn bs (hbefore.idle hi)
  have htostop := hbefore.trans hstopped.1
  have hdropped : Loses p stopped dropped := by
    refine .each _ _ (htostop.idle hi) fun j v hv => ?_
    rw [Loses.porterDrops hv]
    exact .dropAtc v j _
  have hengines : Loses p dropped engines := .each _ _ (hdropped.idle (htostop.idle hi)) fun x v hv => .wrightDrops hv x _
  have hviewed : Loses p engines viewed := .each _ _ (hengines.idle (hdropped.idle (htostop.idle hi))) fun b v _ => .onBerthView p v b
  have hafter := ((hdropped.trans hengines).trans hviewed).trans (.orphan p viewed mine)
  refine ⟨htostop.trans hafter, fun b hb r hr => ?_⟩
  have hsame : ringStops true (withdrawn.ring b r) = ringStops true (w.ring b r) := (hbefore.rings (b * 4 + r)).1
  have hring := (hstopped.2 b hb r hr).trans hsame
  exact ((hafter.rings (b * 4 + r)).2 (w.ring b r) hring).trans hring

/-- From one work to the next a port is the same. -/
def PortSame (p : Nat) (w w' : Work) : Prop := w'.port p = w.port p

theorem PortSame.trans {p : Nat} {a b c : Work} (h : PortSame p a b) (k : PortSame p b c) : PortSame p a c := Eq.trans k h

section
variable {p q : Nat} (hq : p ≠ q) (w : Work)
include hq

theorem onFunc_portSame (i : Nat) (g : Func → Func) : PortSame p w (w.onFunc (funcAt q i) g) := port_onPort_ne w _ hq

theorem hostWrite_portSame (i a : Nat) (d : List Byte) : PortSame p w (w.hostWrite (funcAt q i) a d) := by
  unfold Work.hostWrite
  split
  · rfl
  · split
    · unfold Work.poke
      split <;> rfl
    · exact onFunc_portSame hq w _ _

theorem sendVector_portSame (i v owe : Nat) : PortSame p w (w.sendVector (funcAt q i) v owe) := by
  have hout (n : Nat) : PortSame p w (if w.mayIssue (funcAt q i) then (w.emit (.msix (funcAt q i) n)).tlp q 1 else w.onFunc (funcAt q i) fun fn => { fn with owedVecs := fn.owedVecs ++ [owe] }) := by
    split
    · rfl
    · exact onFunc_portSame hq w _ _
  unfold Work.sendVector
  dsimp only
  split
  · split
    · exact onFunc_portSame hq w _ _
    · exact hout v
  · split
    · rfl
    · split
      · exact onFunc_portSame hq w _ _
      · exact hout _

theorem irq_portSame (src : Nat) : PortSame p w (w.irq q src) := by
  unfold Work.irq Work.raise
  exact PortSame.trans (b := w.onPort q _) (port_onPort_ne w _ hq) (sendVector_portSame hq _ 0 _ _)

theorem setLog_portSame (r : LogRing) : PortSame p w (w.setLog q r) := port_onPort_ne w _ hq

theorem plogPut_portSame (e : LogEvent) : PortSame p w (w.plogPut q e) := by
  have hpri (r : LogRing) (x : Nat) (slot : Option Nat) : PortSame p w (w.plogPri q r x slot) := by
    cases slot with
    | none => rfl
    | some i => exact hostWrite_portSame hq w 0 _ _
  have hstore (v : Work) (r : LogRing) (x cls sev : Nat) : PortSame p v (v.plogStore q r x cls sev) := by
    have hput := (setLog_portSame hq v (logAppend r x).1).trans (hostWrite_portSame hq _ 0 (r.base + 32 * r.tail) (leBytes 32 (logAppend r x).2))
    unfold Work.plogStore
    dsimp only
    split
    · split
      · exact (setLog_portSame hq v _).trans (irq_portSame hq _ _)
      · exact setLog_portSame hq v _
    · split
      · exact hput.trans (irq_portSame hq _ _)
      · exact hput
  unfold Work.plogPut
  dsimp only
  split
  · exact setLog_portSame hq w _
  · split
    · exact setLog_portSame hq w _
    · exact (hpri _ _ _).trans (hstore _ _ _ _ _)

end

/-- An event of the hub leaves a port without link as it is. -/
theorem portLog_down {p : Nat} {w : Work} (h : w.portUp p = false) (q sev cause detail : Nat) : (w.portLog q sev cause detail).port p = w.port p := by
  have hput (e : LogEvent) : PortSame p w (w.mlogPut e) := by
    unfold Work.mlogPut
    dsimp only
    split
    · split <;> rfl
    · rfl
  have hall (l : List Nat) (e : LogEvent) (hl : p ∉ l) (v : Work) (hv : PortSame p w v) : PortSame p w (each l (fun q w => w.plogPut q e) v) := by
    induction l generalizing v with
    | nil => exact hv
    | cons q l ih =>
      rw [List.mem_cons, not_or] at hl
      obtain ⟨hne, hl⟩ := hl
      rw [each_cons]
      exact ih hl _ (hv.trans (plogPut_portSame hne v e))
  exact hall w.portsUp _ (fun hp => by simp [Work.portsUp, h] at hp) _ (hput _)

/-- With no line tracked, the loss of a port's lines is only told to those who wait for an answer (R294). -/
theorem hostLinesLost_idle {p : Nat} {w : Work} (hledger : w.hub.ledger = {}) (hholds : w.hub.chart.holds = []) : (w.hostLinesLost p).hub.ports = w.hub.ports ∧ (w.hostLinesLost p).hub.ten = w.hub.ten := by
  unfold Work.hostLinesLost
  extract_lets here led queued held opened open_ holders freed told answered snooped
  have hopen : open_ = [] := by simp [open_, opened, queued, held, led, hledger]
  have hholders : holders = [] := by simp [holders, led, hledger]
  have hanswered : answered = told := by simp only [answered, hopen, each_nil]
  have hsnooped : snooped = told := by simp only [snooped, hholders, each_nil, hanswered]
  have hwaits : told.hub.ledger.waits = [] := by
    have h : told.hub.ledger.waits = w.hub.ledger.waits.filter fun x => !here x.1 := rfl
    rw [h, hledger]
    rfl
  have hports : told.hub.ports = w.hub.ports := rfl
  have hten : told.hub.ten = w.hub.ten := rfl
  have hnone : told.hub.chart.holds = [] := hholds
  rw [hsnooped]
  clear_value told
  rw [← hports, ← hten, Work.wakeHome, hwaits, List.length_nil, Work.wakePasses, Work.pageSteps, hnone]
  exact ⟨rfl, rfl⟩

/-- A port whose link is lost, its functions about to stop (R392). -/
def portDown (x : Port) : Port :=
  { x with state := 5, width := 0, rate := 0, flit := false, cxl := false, l0p := false, l0s := [], l1 := false, before := 0, cxlReset := false, ide := [] }

/-- A port whose functions have stopped with its link. -/
def portEnded (x : Port) : Port := { pageReset x with funcs := [] }

theorem linkLost_eq {w : Work} {p : Nat} (h0 : (w.port p).state ≠ 0) (h5 : (w.port p).state ≠ 5) (counter : Nat) : w.linkLost p counter =
    ((((each (w.funcsOf p) (fun f w => w.funcStops f true) ((w.count 14 p counter).onPort p portDown)).onPort p portEnded).hostLinesLost p).portLog p 2 5).derate := by
  unfold Work.linkLost
  dsimp only
  rw [if_neg (by simp [h0, h5])]
  rfl

/-- What the loss of a link leaves of a port and of the rings of its PF0 (R392). -/
structure LinkGone (p : Nat) (w w' : Work) : Prop where
  state : (w'.port p).state = 5
  funcs : (w'.port p).funcs = []
  ide : (w'.port p).ide = []
  vfEnable : (w'.port p).vfEnable = false
  times : ((w'.port p).l1Idle, (w'.port p).hostTimeout, (w'.port p).priTimeout) = (100, 10, 100)
  rings : ∀ b ∈ w.berthsOf (funcAt p 0), ∀ r < 4, w'.ring b r = ringStops true (w.ring b r)

/-- The functions of a port stop one after another, PF0 among them. -/
theorem functions_stop {p : Nat} {w : Work} (hi : PortIdle p w) (l : List Nat) (hl : 0 ∈ l) :
    Loses p w (each (l.map (funcAt p)) (fun f w => w.funcStops f true) w)
    ∧ ∀ b ∈ w.berthsOf (funcAt p 0), ∀ r < 4, (each (l.map (funcAt p)) (fun f w => w.funcStops f true) w).ring b r = ringStops true (w.ring b r) := by
  have hfold (v : Work) : each (l.map (funcAt p)) (fun f w => w.funcStops f true) v = each l (fun i w => w.funcStops (funcAt p i) true) v := List.foldl_map
  rw [hfold]
  have hgoes (i : Nat) (v : Work) (h : Loses p w v) : Loses p w (v.funcStops (funcAt p i) true) := h.trans (funcStops_loses (h.idle hi)).1
  refine ⟨each_keeps (p := fun v => Loses p w v) l _ w (.refl p w) hgoes, fun b hb r hr => ?_⟩
  refine each_reaches (q := fun v => Loses p w v) (r := fun v => v.ring b r = ringStops true (w.ring b r)) l _ hl (.refl p w) hgoes (fun v hv => ?_) fun i v hv h => ?_
  · rw [(funcStops_loses (hv.idle hi)).2 b (hv.berths _ b hb) r hr]
    exact (hv.rings (b * 4 + r)).1
  · exact (((funcStops_loses (i := i) (hv.idle hi)).1.rings (b * 4 + r)).2 (w.ring b r) h).trans h

theorem mem_foldl_addTo {a : Nat} (l : List Nat) (m : List Nat) (h : a ∈ m) : a ∈ l.foldl addTo m := by
  induction l generalizing m with
  | nil => exact h
  | cons b l ih =>
    refine ih _ ?_
    unfold addTo
    split
    · exact h
    · exact List.mem_cons_of_mem _ h

/-- PF0 is always among the functions of a port. -/
theorem funcsOf_pf0 (w : Work) (p : Nat) : ∃ l : List Nat, w.funcsOf p = l.map (funcAt p) ∧ 0 ∈ l := by
  refine ⟨_, rfl, mem_foldl_addTo _ _ ?_⟩
  unfold addTo
  split
  next h => exact h
  next => exact List.mem_cons_self ..

/-- The loss of a link ends every function of its port (R392). -/
theorem linkLost_gone {w : Work} {p : Nat} (h0 : (w.port p).state ≠ 0) (h5 : (w.port p).state ≠ 5) (hi : PortIdle p w) (counter : Nat) : LinkGone p w (w.linkLost p counter) := by
  obtain ⟨l, hl, hpf0⟩ := funcsOf_pf0 w p
  rw [linkLost_eq h0 h5, hl]
  have hcount : Loses p w (w.count 14 p counter) := .ofStill (count_reports w 14 p counter 1) (count_portsKept w 14 p counter 1)
  generalize w.count 14 p counter = c at hcount
  have hdown : (c.onPort p portDown).port p = portDown (c.port p) := port_onPort _ _ _
  have hidle : PortIdle p (c.onPort p portDown) := by
    have hci := hcount.idle hi
    refine ⟨fun j => ?_, hci.queues, hci.runs, hci.waiters, hci.held, hci.sems, hci.ledger, hci.holds⟩
    unfold Work.porter
    rw [hdown]
    exact hci.copies j
  obtain ⟨hstops, hrings⟩ := functions_stop hidle l hpf0
  have hbefore (b r : Nat) : ringStops true ((c.onPort p portDown).ring b r) = ringStops true (w.ring b r) := (hcount.rings (b * 4 + r)).1
  have hberths (b : Nat) (hb : b ∈ w.berthsOf (funcAt p 0)) : b ∈ (c.onPort p portDown).berthsOf (funcAt p 0) := hcount.berths _ b hb
  have hlink := hstops.link
  rw [hdown] at hlink
  have hquiet := hstops.idle hidle
  generalize each (l.map (funcAt p)) (fun f w => w.funcStops f true) (c.onPort p portDown) = v at hrings hlink hquiet
  have hstate : (v.port p).state = 5 := congrArg Prod.fst hlink
  have hide : (v.port p).ide = [] := congrArg Prod.snd hlink
  have hended : (v.onPort p portEnded).port p = portEnded (v.port p) := port_onPort _ _ _
  obtain ⟨hports, hten⟩ := hostLinesLost_idle (p := p) (w := v.onPort p portEnded) hquiet.ledger hquiet.holds
  have hport : ((v.onPort p portEnded).hostLinesLost p).port p = portEnded (v.port p) := by
    rw [← hended]
    unfold Work.port
    rw [hports]
  have hring (b r : Nat) : ((v.onPort p portEnded).hostLinesLost p).ring b r = v.ring b r := by
    unfold Work.ring
    rw [hten]
    rfl
  generalize (v.onPort p portEnded).hostLinesLost p = u at hport hring
  have hdead : u.portUp p = false := by
    have hs : (u.port p).state = 5 := by rw [hport]; exact hstate
    simp [Work.portUp, hs]
  have hlogged := portLog_down hdead p 2 5 0
  have hreports : Reports u (u.portLog p 2 5) := log_reports u _
  generalize u.portLog p 2 5 = z at hlogged hreports
  have hhub := (derate_regulates z).hub
  generalize z.derate = y at hhub
  have hy : y.port p = portEnded (v.port p) := by
    rw [← hport, ← hlogged]
    unfold Work.port
    rw [hhub]
  refine ⟨?_, ?_, ?_, ?_, ?_, fun b hb r hr => ?_⟩
  · rw [hy]
    exact hstate
  · rw [hy]
    rfl
  · rw [hy]
    exact hide
  · rw [hy]
    rfl
  · rw [hy]
    rfl
  · have hyu : y.ring b r = u.ring b r := by
      unfold Work.ring
      rw [hhub]
      exact congrArg (fun x : Tenancy => tget {} x.rings (b * 4 + r)) hreports.ten
    rw [hyu, hring, hrings b (hberths b hb) r hr, hbefore]

theorem exec_linkDown (p : Nat) (s : State) : exec (.linkDown p) s = s.run fun w => w.linkLost p 10 := rfl
theorem exec_hotReset (p : Nat) (s : State) : exec (.hotReset p) s = s.run fun w => w.linkLost p 11 := rfl

/-- A port whose PERST_N is asserted (R392). -/
def portPerst (x : Port) : Port := { x with perstN := false, configReady := false }

theorem exec_perstNAssert (p : Nat) (s : State) : exec (.perstNAssert p) s = s.run fun w =>
    if w.resetHeldOff then w.onPort p fun x => { x with perstHeld := true } else (w.linkLost p 10).onPort p portPerst := rfl

theorem LinkGone.perst {p : Nat} {w w' : Work} (h : LinkGone p w w') : LinkGone p w (w'.onPort p portPerst) := by
  have hp : (w'.onPort p portPerst).port p = portPerst (w'.port p) := port_onPort _ _ _
  exact ⟨by rw [hp]; exact h.state, by rw [hp]; exact h.funcs, by rw [hp]; exact h.ide, by rw [hp]; exact h.vfEnable, by rw [hp]; exact h.times, h.rings⟩

/-- Settles O44: a training sets the port's link and only regulation follows; a loss stops the functions one after another, whatever the Helm has read for them, and leaves the port's page at reset. -/
theorem portLinks : Obligations.PortLinks := by
  unfold Obligations.PortLinks
  intro bwr quiet lost
  have hidle {s : State} {p : Nat} (h : quiet s p) : PortIdle p s.work := by
    obtain ⟨-, -, hporters, hwrights, hwaiters, hheld, hsems, hledger, hholds⟩ := h
    refine ⟨fun j => ?_, fun x => ?_, fun x => ?_, hwaiters, hheld, hsems, hledger, hholds⟩
    · unfold Work.porter
      rw [hporters]
      rfl
    · exact congrArg (fun l => (tget {} l x).queue) hwrights
    · exact congrArg (fun l => (tget {} l x).run) hwrights
  have hgone {s : State} {p : Nat} {w : Work} (h : LinkGone p s.work w) : lost s (s.commit w) p := by
    refine ⟨h.state, ?_, h.ide, h.vfEnable, h.times, fun b r hb hr => h.rings b hb r hr⟩
    have hf : ((s.commit w).work.port p).funcs = [] := h.funcs
    rw [hf]
    rfl
  refine ⟨?released, ?configured, ?trains, ?trainsNot, ?retrains, ?retrained, ?down, ?retrainLost, ?perst, ?perstHeld, ?l0s, ?l0sExit, ?l0p, ?l0pExit, ?l1, ?l1Exit⟩
  case released =>
    exact fun s p => does_onPort (exec_perstNRelease p s) rfl rfl
  case configured =>
    intro s p hperst hrst
    have hgo : ((s.work.port p).perstN && s.work.hub.start.hubRstN) = true := by
      have hr : s.work.hub.start.hubRstN = true := hrst
      rw [hperst, hr]
      rfl
    exact does_onPort (exec_configReady p s) (if_pos hgo) rfl
  case trains => exact fun s p r h => does_trains h
  case trainsNot => exact fun s p h => does_trainsNot h
  case retrains => exact fun s p h => does_retrains h
  case retrained => exact fun s p r h hporters hrings _ => does_retrained h hporters hrings
  case down =>
    intro s p c hc hq
    rcases List.mem_cons.1 hc with rfl | hc
    · exact does_work (exec_linkDown p s) rfl (hgone (linkLost_gone hq.1 hq.2.1 (hidle hq) 10))
    · obtain rfl := List.mem_singleton.1 hc
      exact does_work (exec_hotReset p s) rfl (hgone (linkLost_gone hq.1 hq.2.1 (hidle hq) 11))
  case retrainLost =>
    intro s p hq h4
    exact does_work (exec_linkRetrainEnd p none s) (w := s.work.linkLost p 10) (if_neg (not_not_intro h4)) (hgone (linkLost_gone hq.1 hq.2.1 (hidle hq) 10))
  case perst =>
    intro s p hq hheld
    refine does_work (exec_perstNAssert p s) (w := (s.work.linkLost p 10).onPort p portPerst) (if_neg (by rw [hheld]; decide)) ?_
    have hport : ((s.work.linkLost p 10).onPort p portPerst).port p = portPerst ((s.work.linkLost p 10).port p) := port_onPort _ _ _
    have hall := hgone (linkLost_gone hq.1 hq.2.1 (hidle hq) 10).perst
    generalize s.work.linkLost p 10 = v at hport hall
    exact ⟨hall, by have e := congrArg Port.perstN hport; exact e, by have e := congrArg Port.configReady hport; exact e⟩
  case perstHeld =>
    intro s p hheld
    obtain ⟨t, ht, hport, hexact, -⟩ := does_onPort (exec_perstNAssert p s) (p := p) (f := fun x => { x with perstHeld := true }) (x := { s.work.port p with perstHeld := true }) (if_pos hheld) rfl
    exact ⟨t, ht, hport, hexact⟩
  case l0s =>
    intro s p d hi hflit hd hnot
    have hgo : (s.work.linkIdle p && !(s.work.port p).flit && d < 2 && d ∉ (s.work.port p).l0s) = true := by simp [hi, hflit, hd, hnot]
    refine does_portCounted (exec_l0sEntry p d s) (if_pos hgo) (P := fun x => d ∈ x.l0s) fun x hx => ?_
    have hl : x.l0s = addTo (s.work.port p).l0s d := by have e := congrArg Port.l0s hx; exact e
    rw [hl, addTo, if_neg hnot]
    exact List.mem_cons_self ..
  case l0sExit =>
    intro s p d
    obtain ⟨t, ht, hport, hexact, -⟩ := does_onPort (exec_l0sExit p d s) (p := p) rfl rfl
    exact ⟨t, ht, hport, hexact⟩
  case l0p =>
    intro s p n hi hflit hn hg hh
    by_cases hin : (s.work.port p).l0p = true
    · refine does_work (exec_l0pEntry p n s) (w := s.work) (if_neg (by simp [hin])) ⟨hin, ⟨rfl, rfl⟩, rfl⟩
    · have hgo : (s.work.linkIdle p && (s.work.port p).flit && !(s.work.port p).l0p && n < (s.work.port p).width && s.work.guarSum (2 + p) + s.work.guarSum (6 + p) = 0) = true := by
        simp [hi, hflit, hn, hg, hh, hin]
      refine does_portCounted (exec_l0pEntry p n s) (if_pos hgo) (P := fun x => x.l0p = true) fun x hx => ?_
      have e := congrArg Port.l0p hx
      exact e
  case l0pExit =>
    intro s p
    obtain ⟨t, ht, hport, hexact, -⟩ := does_onPort (exec_l0pExit p s) (p := p) rfl rfl
    exact ⟨t, ht, hport, hexact⟩
  case l1 =>
    intro s p hi hq
    by_cases hin : (s.work.port p).l1 = true
    · refine does_work (exec_l1Entry p s) (w := s.work) (if_neg (by simp [hin])) ⟨hin, ⟨rfl, rfl⟩, rfl⟩
    · have hgo : (s.work.linkIdle p && !(s.work.port p).l1 && s.work.portQuiet p) = true := by simp [hi, hq, hin]
      refine does_portCounted (exec_l1Entry p s) (if_pos hgo) (P := fun x => x.l1 = true) fun x hx => ?_
      have e := congrArg Port.l1 hx
      exact e
  case l1Exit =>
    intro s p
    obtain ⟨t, ht, hport, hexact, -⟩ := does_onPort (exec_l1Exit p s) (p := p) rfl rfl
    exact ⟨t, ht, hport, hexact⟩

end Sys2Proof.Machine
end

section
/-! PROOFS. Management orders to the Purser (R465-R470, R473, R474, R477-R483, R510). -/

namespace Sys2Proof.Machine

/-! ## An order of a code (R465-R470) -/

/-- The nonce of an order is used. -/
def Work.nonceUsed (w : Work) (o : OrderHdr) : Work := w.onPurser fun p => { p with nonces := rmv p.nonces o.nonce }

section
variable {w : Work} {o : OrderHdr} {code role : Nat}

theorem order_acts (hm : w.mute = false) (hc : o.order = code) (hok : w.orderBad o role = none) {bad : Option Nat} (hbad : bad = none) (act : Work → Work) :
    w.order o code role bad act = act (w.nonceUsed o) := by
  subst hbad
  simp only [Work.order, hm, hc, hok, ne_eq, not_true_eq_false, Bool.false_eq_true, if_false]
  rfl

theorem order_refused {st : Nat} (hm : w.mute = false) (hc : o.order = code) (hbad : w.orderBad o role = some st) (bad : Option Nat) (act : Work → Work) :
    w.order o code role bad act = w.orderReply o.viaEthernet code st o.nonce := by
  simp only [Work.order, hm, hc, hbad, ne_eq, not_true_eq_false, Bool.false_eq_true, if_false]

theorem order_fails {st : Nat} (hm : w.mute = false) (hc : o.order = code) (hok : w.orderBad o role = none) (act : Work → Work) :
    w.order o code role (some st) act = w.orderReply o.viaEthernet code st o.nonce := by
  simp only [Work.order, hm, hc, hok, ne_eq, not_true_eq_false, Bool.false_eq_true, if_false]

/-- An order that passes has come by Ethernet. -/
theorem viaEthernet_of_passes (hok : w.orderBad o role = none) : o.viaEthernet = true := by
  cases h : o.viaEthernet with
  | true => rfl
  | false =>
    rw [Work.orderBad, if_pos (by simp [h])] at hok
    cases hok

/-- In service no order is held back. -/
theorem heldBack_runs (hm : w.mute = false) (hs : w.hub.start.state = 1) (c : HeldOrder) (early : Bool) (k : Work → Work) : w.heldBack c early k = k w := by
  simp [Work.heldBack, hm, hs]

end

theorem firstBad_false {s : Nat} (l : List (Bool × Nat)) : firstBad ((false, s) :: l) = firstBad l := rfl

/-! ## The orders -/

theorem exec_powerLimit (o : OrderHdr) (b : PowerBody) (s : State) : exec (.powerLimit o b) s = s.runAll fun w => w.heldBack (.powerLimit o b) false fun w => w.doPowerLimit o b false := rfl
theorem exec_poolWrite (o : OrderHdr) (x : Pool) (s : State) : exec (.poolWrite o x) s = s.runAll fun w => w.heldBack (.poolWrite o x) false fun w => w.doPoolWrite o x := rfl
theorem exec_mgrSet (o : OrderHdr) (l : List (Nat × Nat)) (s : State) : exec (.mgrSet o l) s = s.runAll fun w => w.heldBack (.mgrSet o l) false fun w => w.doMgrSet o l := rfl
theorem exec_lcTransition (o : OrderHdr) (c : Nat) (r : Bool) (s : State) : exec (.lcTransition o c r) s = s.run fun w => w.heldBack (.lcTransition o c r) false fun w => w.doLcTransition o c r := rfl
theorem exec_warrantInstall (o : OrderHdr) (x : Warrant) (s : State) : exec (.warrantInstall o x) s = s.run fun w => w.heldBack (.warrantInstall o x) false fun w => w.doWarrantInstall o x := rfl
theorem exec_credSet (o : OrderHdr) (v : Nat) (l : List Cred) (s : State) : exec (.credSet o v l) s = s.run fun w => w.heldBack (.credSet o v l) false fun w => w.doCredSet o v l false := rfl
theorem exec_certSet (o : OrderHdr) (d : List Byte) (s : State) : exec (.certSet o d) s = s.run fun w => w.heldBack (.certSet o d) false fun w => w.doCertSet o d := rfl
theorem exec_debugOpen (o : OrderHdr) (n : Nat) (l : List (Nat × Nat)) (s : State) : exec (.debugOpen o n l) s = s.run fun w => w.heldBack (.debugOpen o n l) false fun w => w.doDebugOpen o n l := rfl
theorem exec_debugClose (o : OrderHdr) (s : State) : exec (.debugClose o) s = s.run fun w => w.heldBack (.debugClose o) false fun w => w.doDebugClose o := rfl
theorem exec_getNonce (s : State) : exec (.getNonce true) s = s.run fun w => if w.mute then w else
    (w.fresh.2.onPurser fun p => { p with nonces := (p.nonces ++ [w.fresh.1 % 2 ^ 64]).drop (p.nonces.length + 1 - 16) }).orderReply true 0x0001 rpOk 0 (leBytes 8 (w.fresh.1 % 2 ^ 64)) := rfl
theorem exec_getIdentity (v : Bool) (s : State) : exec (.getIdentity v) s = s.run fun w =>
    if !w.hub.start.hubRstN then w
    else w.orderReply v 0x0002 rpOk 0 (leBytes 8 w.hub.purser.serial ++ leBytes 2 w.hub.purser.lcCode ++ if w.lc = 5 then
      (match w.hub.purser.intent with | some i => leBytes 2 i.source ++ leBytes 2 i.target ++ leBytes 8 w.hub.purser.serial | none => []) else digestBytes 34 ((w.chain 0).map BitVec.toNat)) := rfl

/-- What an order in service needs to be acted on (R465-R469). -/
structure OrderPasses (s : State) (o : OrderHdr) (code role : Nat) : Prop where
  calm : s.Calm
  mute : s.work.mute = false
  state : s.work.hub.start.state = 1
  code : o.order = code
  ok : s.work.orderBad o role = none

section
variable {s : State} {c : Instr} {o : OrderHdr} {code role : Nat} {h : HeldOrder} {early : Bool} {k : Work → Work} {u : Work} {P : State → Prop}

/-- An order that is not held back does what its work says. -/
theorem does_order (hm : s.work.mute = false) (hs : s.work.hub.start.state = 1) (hexec : exec c s = s.run fun w => w.heldBack h early k) (hk : k s.work = u) (hp : P (s.commit u)) : Does c s P :=
  does_work hexec ((heldBack_runs hm hs h early k).trans hk) hp

/-- The same of an order after which what has been begun settles: where nothing has, nothing follows. -/
theorem does_orderAll (hm : s.work.mute = false) (hs : s.work.hub.start.state = 1) (hexec : exec c s = s.runAll fun w => w.heldBack h early k) (hk : k s.work = u) (hc : u.calm)
    (hp : P (s.commit u)) : Does c s P := by
  refine does_runAll hexec ?_
  rw [heldBack_runs hm hs, hk, settle_calm _ hc]
  exact hp

end

/-- A reply of the Purser (R470). -/
theorem replied (s : State) (v : Bool) (k st n : Nat) (d : List Byte) :
    (s.commit (s.work.orderReply v k st n d)).hub.sent = .order v k st n d :: s.hub.sent ∧ Exactly s (s.commit (s.work.orderReply v k st n d)) (fun h => { h with sent := (s.work.orderReply v k st n d).hub.sent }) :=
  ⟨rfl, rfl, rfl, rfl⟩

/-- Where no site serves, a body of power limits comes into force in the Binnacle alone. -/
theorem powerInForce_alone {w : Work} {b : PowerBody} (h : ∀ n < 16, siteServing (w.site n) = false) : w.powerInForce b = w.onHub fun h => { h with bin := { h.bin with body := b } } := by
  have hnone : ((List.range 16).filter fun n => siteServing ((w.onHub fun h => { h with bin := { h.bin with body := b } }).site n) && w.hub.bin.body.siteW.getD n 110 ≠ b.siteW.getD n 110) = [] := by
    rw [List.filter_eq_nil_iff]
    intro n hn
    have hs : siteServing ((w.onHub fun h => { h with bin := { h.bin with body := b } }).site n) = false := h n (List.mem_range.1 hn)
    simp [hs]
  unfold Work.powerInForce
  dsimp only
  rw [hnone]
  rfl

/-! ## What each order does once it passes -/

section
variable {w : Work} {o : OrderHdr}

theorem doMgrSet_acts (hm : w.mute = false) (hc : o.order = 0x0012) (hok : w.orderBad o rolePool = none) {p b : Nat} (hp : p < 4) (hb : b < 4096) (hnodup : (w.hub.ten.mgrNext.set p b).Nodup) :
    w.doMgrSet o [(p, b)] = ((w.nonceUsed o).onTen fun t => { t with mgrNext := w.hub.ten.mgrNext.set p b }).orderOk o := by
  unfold Work.doMgrSet
  refine (order_acts hm hc hok (if_neg ?_) _).trans rfl
  simp only [List.any_cons, List.any_nil, List.foldl_cons, List.foldl_nil, Bool.or_false, Bool.or_eq_true, decide_eq_true_eq, Bool.not_eq_true', decide_eq_false_iff_not, not_true_eq_false, hnodup, or_false]
  omega

theorem doPoolWrite_acts (hm : w.mute = false) (hc : o.order = 0x0011) (hok : w.orderBad o rolePool = none) {x : Pool} (hport : x.port < 4) (hcount : x.berthCount ≤ 16384) (hrefused : w.poolRefused x = false)
    (hleaves : w.poolLeaves (w.pool x.port) x x.port = []) : w.doPoolWrite o x = ((w.nonceUsed o).onTen fun t => { t with pools := tset t.pools x.port x }).orderOk o := by
  have hbad : firstBad [(4 ≤ x.port || 16384 < x.berthCount, rpBadShape), (w.poolRefused x, rpNotPermitted)] = none := by
    simp [firstBad, Nat.not_le.2 hport, Nat.not_lt.2 hcount, hrefused]
  have hnone : (w.nonceUsed o).poolLeaves ((w.nonceUsed o).pool x.port) x x.port = [] := hleaves
  refine (order_acts hm hc hok hbad _).trans ?_
  dsimp only
  rw [hnone]
  unfold Work.withdrawAll
  rw [each_nil]
  simp only [Work.onTen, Work.onHub, List.append_nil, if_true]

theorem doLcTransition_acts (hm : w.mute = false) (hc : o.order = 0x0020) (hok : w.orderBad o roleLc = none) {c d : Nat} (hi : w.hub.purser.intent = none) (hlc : lcState c = some d) (hallowed : lcAllowed w.lc d = true)
    (hcred : o.cred ≠ 0) : w.doLcTransition o c true =
      (((w.nonceUsed o).onPurser fun p => { p with intent := some { source := w.hub.purser.lcCode, target := c, burning := true, nonce := o.nonce } }).emit
        (.flash 0x02030000 (leBytes 2 w.hub.purser.lcCode ++ leBytes 2 c ++ leBytes 8 w.hub.purser.serial))).orderReply true 0x0020 rpAccepted o.nonce := by
  unfold Work.doLcTransition
  refine (order_acts hm hc hok ?_ _).trans rfl
  simp [firstBad, hi, hlc, hallowed, hcred]

theorem doWarrantInstall_acts (hm : w.mute = false) (hc : o.order = 0x0028) (hok : w.orderBad o roleWarrant = none) {x : Warrant} (hi : w.hub.purser.intent = none) (hv : x.version = 1) (hsig : x.sigOk = true)
    (hserial : x.serial = w.hub.purser.serial) (hrsvd : x.rsvdZero = true) (hfloor : x.floor ≤ 64) (hpop : popcount x.sites 16 = 8 ∨ popcount x.sites 16 = 16) (hsites : x.sites < 2 ^ 16) (hhawser : x.hawser < 2 ^ 8)
    (htherm : w.hub.purser.warrantTherm ≤ x.floor) : w.doWarrantInstall o x =
      (((w.nonceUsed o).onPurser fun p => { p with warrantStored := some x, warrantTherm := x.floor }).emit (.flash 0x02010000 [])).orderOk o := by
  have hn : (decide (popcount x.sites 16 ≠ 8) && decide (popcount x.sites 16 ≠ 16)) = false := by rcases hpop with h | h <;> simp [h]
  unfold Work.doWarrantInstall
  refine (order_acts hm hc hok ?_ _).trans rfl
  rw [hn]
  simp only [firstBad, hi, hv, hsig, hserial, hrsvd, Nat.not_lt.2 hfloor, Nat.not_le.2 hsites, Nat.not_le.2 hhawser, Nat.not_lt.2 htherm, Option.isSome_none, ne_eq, not_true_eq_false,
    decide_false, Bool.not_true, Bool.or_self, Bool.false_eq_true, if_false]

theorem doCredSet_acts (hm : w.mute = false) (hc : o.order = 0x0038) (hok : w.orderBad o roleCred = none) {v : Nat} {l : List Cred} (hlen : l.length = 7) (hroles : ∀ c ∈ l, c.roles < 256)
    (hlow : w.hub.purser.credTherm < v) (hhigh : v ≤ 64) : w.doCredSet o v l false =
      (((w.nonceUsed o).onPurser fun p => { p with credStored := w.hub.purser.creds.take 1 ++ l, creds := w.hub.purser.creds.take 1 ++ l, credVersion := v, credTherm := v }).emit (.flash 0x02000000 [])).orderOk o := by
  have hany : (l.any fun c => 256 ≤ c.roles) = false := by
    rw [List.any_eq_false]
    intro c hc
    simp [Nat.not_le.2 (hroles c hc)]
  unfold Work.doCredSet
  refine (order_acts hm hc hok ?_ _).trans rfl
  rw [hany]
  simp [firstBad, hlen, Nat.not_lt.2 hhigh, Nat.not_le.2 hlow]
  omega

theorem doCertSet_acts (hm : w.mute = false) (hc : o.order = 0x0039) (hok : w.orderBad o roleCred = none) {d : List Byte} (hlc : w.lc = 1 ∨ w.lc = 2) (hlen : d.length ≤ 2048) :
    w.doCertSet o d = ((w.nonceUsed o).onPurser fun p => { p with slot1 := d }).orderOk o := by
  unfold Work.doCertSet
  refine (order_acts hm hc hok ?_ _).trans rfl
  rcases hlc with h | h <;> simp [firstBad, h, Nat.not_lt.2 hlen]

theorem doPowerLimit_acts (hm : w.mute = false) (hc : o.order = 0x0010) (hok : w.orderBad o rolePower = none) {b : PowerBody} (hb : powerOk b = true) (hsites : ∀ n < 16, siteServing (w.site n) = false) :
    w.doPowerLimit o b false = ((((w.nonceUsed o).onPurser fun p => { p with powerStored := some b }).emit (.flash 0x02020000 [])).onHub fun h => { h with bin := { h.bin with body := b } }).orderOk o := by
  refine (order_acts hm hc hok (if_pos hb) _).trans ?_
  dsimp only
  rw [if_neg (by decide)]
  exact congrArg (fun u : Work => u.orderOk o) (powerInForce_alone hsites)

theorem doDebugOpen_acts (hm : w.mute = false) (hc : o.order = 0x0030) (hok : w.orderBad o roleDebug = none) {n : Nat} (hn : n < 8) (hlc : w.lc ≠ 2) :
    w.doDebugOpen o n [] = ((w.nonceUsed o).onPurser fun p => { p with debugOpen := true, debugScope := n }).orderOk o := by
  rw [Work.doDebugOpen, if_pos (by simp [hlc])]
  exact order_acts hm hc hok (if_neg (Nat.not_le.2 hn)) _

/-- In Fielded debug stays closed without a consent of every open tenant (R478). -/
theorem doDebugOpen_missing (hm : w.mute = false) (hc : o.order = 0x0030) (hok : w.orderBad o roleDebug = none) {n : Nat} (hn : n < 8) (hlc : w.lc = 2) (htenants : w.openTenants ≠ []) :
    w.doDebugOpen o n [] = w.orderReply o.viaEthernet 0x0030 rpConsentMissing o.nonce := by
  rw [Work.doDebugOpen, if_neg (by simp [hm, hc, hok, hlc, Nat.not_le.2 hn])]
  dsimp only [List.filter_nil, Work.readConsents]
  obtain ⟨b, l, hl⟩ := List.exists_cons_of_ne_nil htenants
  rw [if_neg (by simp), if_pos (by rw [hl]; simp)]
  exact order_fails hm hc hok _

theorem doDebugOpen_refused {st : Nat} (hm : w.mute = false) (hc : o.order = 0x0030) (hbad : w.orderBad o roleDebug = some st) (n : Nat) (l : List (Nat × Nat)) :
    w.doDebugOpen o n l = w.orderReply o.viaEthernet 0x0030 st o.nonce := by
  rw [Work.doDebugOpen, if_pos (by simp [hbad])]
  exact order_refused hm hc hbad _ _

end

section
variable {s : State} {o : OrderHdr} {st : Nat}

/-- A reply that an order refused leaves, with no effect (R470). -/
def Refused (s : State) (o : OrderHdr) (code st : Nat) (t : State) : Prop :=
  t.hub.sent = .order o.viaEthernet code st o.nonce [] :: s.hub.sent ∧ Exactly s t (fun h => { h with sent := t.hub.sent })

theorem refused_powerLimit (hcalm : s.work.calm) (hm : s.work.mute = false) (hs : s.work.hub.start.state = 1) (hc : o.order = 0x0010) (hbad : s.work.orderBad o rolePower = some st) (b : PowerBody) :
    Does (.powerLimit o b) s (Refused s o 0x0010 st) :=
  does_orderAll hm hs (exec_powerLimit o b s) (order_refused hm hc hbad _ _) hcalm (replied s _ _ _ _ _)

theorem refused_poolWrite (hcalm : s.work.calm) (hm : s.work.mute = false) (hs : s.work.hub.start.state = 1) (hc : o.order = 0x0011) (hbad : s.work.orderBad o rolePool = some st) (x : Pool) :
    Does (.poolWrite o x) s (Refused s o 0x0011 st) :=
  does_orderAll hm hs (exec_poolWrite o x s) (order_refused hm hc hbad _ _) hcalm (replied s _ _ _ _ _)

theorem refused_mgrSet (hcalm : s.work.calm) (hm : s.work.mute = false) (hs : s.work.hub.start.state = 1) (hc : o.order = 0x0012) (hbad : s.work.orderBad o rolePool = some st) (l : List (Nat × Nat)) :
    Does (.mgrSet o l) s (Refused s o 0x0012 st) :=
  does_orderAll hm hs (exec_mgrSet o l s) (u := s.work.orderReply o.viaEthernet 0x0012 st o.nonce) (by unfold Work.doMgrSet; exact order_refused hm hc hbad _ _) hcalm (replied s _ _ _ _ _)

theorem refused_lcTransition (hm : s.work.mute = false) (hs : s.work.hub.start.state = 1) (hc : o.order = 0x0020) (hbad : s.work.orderBad o roleLc = some st) (n : Nat) :
    Does (.lcTransition o n true) s (Refused s o 0x0020 st) :=
  does_order hm hs (exec_lcTransition o n true s) (u := s.work.orderReply o.viaEthernet 0x0020 st o.nonce) (by unfold Work.doLcTransition; exact order_refused hm hc hbad _ _) (replied s _ _ _ _ _)

theorem refused_debugOpen (hm : s.work.mute = false) (hs : s.work.hub.start.state = 1) (hc : o.order = 0x0030) (hbad : s.work.orderBad o roleDebug = some st) (n : Nat) (l : List (Nat × Nat)) :
    Does (.debugOpen o n l) s (Refused s o 0x0030 st) :=
  does_order hm hs (exec_debugOpen o n l s) (doDebugOpen_refused hm hc hbad n l) (replied s _ _ _ _ _)

theorem refused_debugClose (hm : s.work.mute = false) (hs : s.work.hub.start.state = 1) (hc : o.order = 0x0031) (hbad : s.work.orderBad o roleDebug = some st) :
    Does (.debugClose o) s (Refused s o 0x0031 st) :=
  does_order hm hs (exec_debugClose o s) (order_refused hm hc hbad _ _) (replied s _ _ _ _ _)

theorem refused_certSet (hm : s.work.mute = false) (hs : s.work.hub.start.state = 1) (hc : o.order = 0x0039) (hbad : s.work.orderBad o roleCred = some st) (d : List Byte) :
    Does (.certSet o d) s (Refused s o 0x0039 st) :=
  does_order hm hs (exec_certSet o d s) (order_refused hm hc hbad _ _) (replied s _ _ _ _ _)

end

/-- What an order acted on leaves: its nonce used, its reply sent, memory as before. -/
def OrderDone (s : State) (o : OrderHdr) (st : Nat) (t : State) : Prop :=
  t.hub.purser.nonces = rmv s.hub.purser.nonces o.nonce ∧ .order true o.order st o.nonce [] ∈ t.hub.sent ∧ t.mem = s.mem

/-- The Purser and what is sent alone changed. -/
def PurserOnly (s t : State) : Prop := Exactly s t fun h => { h with purser := t.hub.purser, sent := t.hub.sent }

section
variable {s : State} {o : OrderHdr}

theorem sent_orderOk {role : Nat} (hok : s.work.orderBad o role = none) (u : Work) : .order true o.order 0 o.nonce [] ∈ (u.orderOk o).hub.sent := by
  rw [← viaEthernet_of_passes hok]
  exact List.mem_cons_self ..

theorem getNonce_gives (hm : s.work.mute = false) : Does (.getNonce true) s fun t => ∃ n < 2 ^ 64, t.hub.purser.nonces = (s.hub.purser.nonces ++ [n]).drop (s.hub.purser.nonces.length + 1 - 16)
    ∧ t.hub.sent = .order true 0x0001 0 0 (leBytes 8 n) :: s.hub.sent ∧ Exactly s t (fun h => { h with purser := t.hub.purser, sent := t.hub.sent, free := t.hub.free }) := by
  refine does_work (exec_getNonce s) (if_neg (by rw [hm]; decide)) ?_
  exact ⟨s.work.fresh.1 % 2 ^ 64, Nat.mod_lt _ (by decide), rfl, rfl, rfl, rfl, rfl⟩

theorem getIdentity_gives {v : Bool} (hrst : s.work.hub.start.hubRstN = true) (hlc : s.work.lc ≠ 5) : Does (.getIdentity v) s fun t =>
    (∃ d, d.length = 64 ∧ t.hub.sent = .order v 0x0002 0 0 (leBytes 8 s.hub.purser.serial ++ leBytes 2 s.hub.purser.lcCode ++ d) :: s.hub.sent) ∧ Exactly s t (fun h => { h with sent := t.hub.sent }) := by
  refine does_work (exec_getIdentity v s) (if_neg (by rw [hrst]; decide)) ?_
  rw [if_neg hlc]
  exact ⟨⟨_, digestBytes_length _ _, rfl⟩, rfl, rfl, rfl⟩

/-- The hub without its Purser, the Binnacle and what is sent. -/
def offLimits (h : Hub) : Hub := { h with purser := {}, bin := {}, sent := [] }

section
variable (w : Work)

theorem onPurser_limits (f : Purser → Purser) : offLimits (w.onPurser f).hub = offLimits w.hub := rfl
theorem emit_limits (x : Out) : offLimits (w.emit x).hub = offLimits w.hub := rfl
theorem onBody_limits (b : PowerBody) : offLimits (w.onHub fun h => { h with bin := { h.bin with body := b } }).hub = offLimits w.hub := rfl

end

theorem exactly_limits {v : Work} (hw : v.writes = []) (h : offLimits v.hub = offLimits s.work.hub) :
    Exactly s (s.commit v) fun h => { h with purser := (s.commit v).hub.purser, bin := (s.commit v).hub.bin, sent := (s.commit v).hub.sent } := by
  refine ⟨rfl, ?_, congrArg (fun q : Hub => { q with purser := v.hub.purser, bin := v.hub.bin, sent := v.hub.sent }) h⟩
  show s.mem.applyAll v.writes.reverse = s.mem
  rw [hw]
  rfl

theorem powerLimit_stored {b : PowerBody} (hp : OrderPasses s o 0x0010 0) (hb : powerOk b = true) (hsites : ∀ n < 16, siteServing (s.work.site n) = false) : Does (.powerLimit o b) s fun t =>
    t.hub.purser.powerStored = some b ∧ t.hub.bin = { s.hub.bin with body := b } ∧ OrderDone s o 0 t ∧ Exactly s t (fun h => { h with purser := t.hub.purser, bin := t.hub.bin, sent := t.hub.sent }) := by
  refine does_orderAll hp.mute hp.state (exec_powerLimit o b s) (doPowerLimit_acts hp.mute hp.code hp.ok hb hsites) hp.calm ?_
  refine ⟨rfl, rfl, ⟨rfl, sent_orderOk hp.ok _, rfl⟩, exactly_limits rfl ?_⟩
  exact (emit_limits _ _).trans ((onBody_limits _ b).trans ((emit_limits _ _).trans ((onPurser_limits _ _).trans (onPurser_limits _ _))))

theorem poolWrite_written {x : Pool} (hp : OrderPasses s o 0x0011 1) (hport : x.port < 4) (hcount : x.berthCount ≤ 16384) (hrefused : s.work.poolRefused x = false)
    (hleaves : s.work.poolLeaves (s.work.pool x.port) x x.port = []) : Does (.poolWrite o x) s fun t =>
    t.work.pool x.port = x ∧ (∀ p, p ≠ x.port → t.work.pool p = s.work.pool p) ∧ OrderDone s o 0 t ∧ Exactly s t (fun h => { h with ten := t.hub.ten, purser := t.hub.purser, sent := t.hub.sent }) := by
  refine does_orderAll hp.mute hp.state (exec_poolWrite o x s) (doPoolWrite_acts hp.mute hp.code hp.ok hport hcount hrefused hleaves) hp.calm ?_
  refine ⟨?_, fun p hne => ?_, ⟨rfl, sent_orderOk hp.ok _, rfl⟩, rfl, rfl, rfl⟩
  · exact tget_tset_self _ _ _ _
  · exact tget_tset_ne _ _ _ hne

theorem mgrSet_set {p b : Nat} (hp : OrderPasses s o 0x0012 1) (hport : p < 4) (hb : b < 4096) (hnodup : (s.work.hub.ten.mgrNext.set p b).Nodup) : Does (.mgrSet o [(p, b)]) s fun t =>
    t.hub.ten = { s.hub.ten with mgrNext := s.hub.ten.mgrNext.set p b } ∧ OrderDone s o 0 t ∧ Exactly s t (fun h => { h with ten := t.hub.ten, purser := t.hub.purser, sent := t.hub.sent }) := by
  refine does_orderAll hp.mute hp.state (exec_mgrSet o [(p, b)] s) (doMgrSet_acts hp.mute hp.code hp.ok hport hb hnodup) hp.calm ?_
  exact ⟨rfl, ⟨rfl, sent_orderOk hp.ok _, rfl⟩, rfl, rfl, rfl⟩

theorem lcTransition_begun {c d : Nat} (hp : OrderPasses s o 0x0020 2) (hi : s.work.hub.purser.intent = none) (hlc : lcState c = some d) (hallowed : lcAllowed s.work.lc d = true) (hcred : o.cred ≠ 0) :
    Does (.lcTransition o c true) s fun t => t.hub.purser.intent = some { source := s.hub.purser.lcCode, target := c, burning := true, nonce := o.nonce } ∧ t.hub.purser.lcCode = s.hub.purser.lcCode
      ∧ OrderDone s o 1 t ∧ PurserOnly s t := by
  refine does_order hp.mute hp.state (exec_lcTransition o c true s) (doLcTransition_acts hp.mute hp.code hp.ok hi hlc hallowed hcred) ?_
  refine ⟨rfl, rfl, ⟨rfl, ?_, rfl⟩, rfl, rfl, rfl⟩
  rw [hp.code]
  exact List.mem_cons_self ..

theorem warrantInstall_stored {x : Warrant} (hp : OrderPasses s o 0x0028 3) (hi : s.work.hub.purser.intent = none) (hv : x.version = 1) (hsig : x.sigOk = true) (hserial : x.serial = s.work.hub.purser.serial)
    (hrsvd : x.rsvdZero = true) (hfloor : x.floor ≤ 64) (hpop : popcount x.sites 16 = 8 ∨ popcount x.sites 16 = 16) (hsites : x.sites < 2 ^ 16) (hhawser : x.hawser < 2 ^ 8)
    (htherm : s.work.hub.purser.warrantTherm ≤ x.floor) : Does (.warrantInstall o x) s fun t =>
      t.hub.purser = { s.hub.purser with nonces := rmv s.hub.purser.nonces o.nonce, warrantStored := some x, warrantTherm := x.floor } ∧ OrderDone s o 0 t ∧ PurserOnly s t := by
  refine does_order hp.mute hp.state (exec_warrantInstall o x s) (doWarrantInstall_acts hp.mute hp.code hp.ok hi hv hsig hserial hrsvd hfloor hpop hsites hhawser htherm) ?_
  exact ⟨rfl, ⟨rfl, sent_orderOk hp.ok _, rfl⟩, rfl, rfl, rfl⟩

theorem debugOpen_opens {n : Nat} (hp : OrderPasses s o 0x0030 4) (hn : n < 8) (hlc : s.work.lc ≠ 2) : Does (.debugOpen o n []) s fun t =>
    t.hub.purser = { s.hub.purser with nonces := rmv s.hub.purser.nonces o.nonce, debugOpen := true, debugScope := n } ∧ OrderDone s o 0 t ∧ PurserOnly s t := by
  refine does_order hp.mute hp.state (exec_debugOpen o n [] s) (doDebugOpen_acts hp.mute hp.code hp.ok hn hlc) ?_
  exact ⟨rfl, ⟨rfl, sent_orderOk hp.ok _, rfl⟩, rfl, rfl, rfl⟩

theorem debugOpen_missing {n : Nat} (hp : OrderPasses s o 0x0030 4) (hn : n < 8) (hlc : s.work.lc = 2) (htenants : s.work.openTenants ≠ []) : Does (.debugOpen o n []) s (Refused s o 0x0030 0x16) :=
  does_order hp.mute hp.state (exec_debugOpen o n [] s) (doDebugOpen_missing hp.mute hp.code hp.ok hn hlc htenants) (replied s _ _ _ _ _)

theorem debugClose_closes (hp : OrderPasses s o 0x0031 4) : Does (.debugClose o) s fun t =>
    t.hub.purser = { s.hub.purser with nonces := rmv s.hub.purser.nonces o.nonce, debugOpen := false, debugScope := 0 } ∧ OrderDone s o 0 t ∧ PurserOnly s t := by
  refine does_order hp.mute hp.state (exec_debugClose o s) (order_acts hp.mute hp.code hp.ok rfl _) ?_
  exact ⟨rfl, ⟨rfl, sent_orderOk hp.ok _, rfl⟩, rfl, rfl, rfl⟩

theorem credSet_set {v : Nat} {l : List Cred} (hp : OrderPasses s o 0x0038 5) (hlen : l.length = 7) (hroles : ∀ c ∈ l, c.roles < 256) (hlow : s.work.hub.purser.credTherm < v) (hhigh : v ≤ 64) : Does (.credSet o v l) s fun t =>
    t.hub.purser.creds = s.hub.purser.creds.take 1 ++ l ∧ t.hub.purser.credStored = t.hub.purser.creds ∧ t.hub.purser.credTherm = v ∧ t.hub.purser.credVersion = v ∧ OrderDone s o 0 t ∧ PurserOnly s t := by
  refine does_order hp.mute hp.state (exec_credSet o v l s) (doCredSet_acts hp.mute hp.code hp.ok hlen hroles hlow hhigh) ?_
  exact ⟨rfl, rfl, rfl, rfl, ⟨rfl, sent_orderOk hp.ok _, rfl⟩, rfl, rfl, rfl⟩

theorem certSet_set {d : List Byte} (hp : OrderPasses s o 0x0039 5) (hlc : s.work.lc = 1 ∨ s.work.lc = 2) (hlen : d.length ≤ 2048) : Does (.certSet o d) s fun t =>
    t.hub.purser = { s.hub.purser with nonces := rmv s.hub.purser.nonces o.nonce, slot1 := d } ∧ OrderDone s o 0 t ∧ PurserOnly s t := by
  refine does_order hp.mute hp.state (exec_certSet o d s) (doCertSet_acts hp.mute hp.code hp.ok hlc hlen) ?_
  exact ⟨rfl, ⟨rfl, sent_orderOk hp.ok _, rfl⟩, rfl, rfl, rfl⟩

end

/-- Settles O51: an order that passes its checks acts on the work whose nonce is used, and every other is only answered. -/
theorem orders : Obligations.Orders := by
  unfold Obligations.Orders
  intro passes done purser
  have hpass {s : State} {o : OrderHdr} {code role : Nat} (h : passes s o code role) : OrderPasses s o code role := ⟨h.1, h.2.1, h.2.2.1, h.2.2.2.1, h.2.2.2.2⟩
  refine ⟨fun s hm => getNonce_gives hm, fun s v hrst hlc => getIdentity_gives hrst hlc, fun s o b hp hb hsites => powerLimit_stored (hpass hp) hb hsites,
    fun s o x hp hport hcount hrefused hleaves => poolWrite_written (hpass hp) hport hcount hrefused hleaves, fun s o p b hp hport hb hnodup => mgrSet_set (hpass hp) hport hb hnodup,
    fun s o c d hp hi hlc hallowed hcred => lcTransition_begun (hpass hp) hi hlc hallowed hcred,
    fun s o x hp hi hv hsig hserial hrsvd hfloor hpop hsites hhawser htherm => warrantInstall_stored (hpass hp) hi hv hsig hserial hrsvd hfloor hpop hsites hhawser htherm,
    fun s o n hp hn hlc => debugOpen_opens (hpass hp) hn hlc, fun s o n hp hn hlc htenants => debugOpen_missing (hpass hp) hn hlc htenants, fun s o hp => debugClose_closes (hpass hp),
    fun s o v l hp hlen hroles hlow hhigh => credSet_set (hpass hp) hlen hroles hlow hhigh, fun s o d hp hlc hlen => certSet_set (hpass hp) hlc hlen, ?refused⟩
  case refused =>
    intro s o c k r st b x l n d hcalm hm hs hmem hc hbad
    simp only [List.mem_cons, Prod.mk.injEq, List.mem_nil_iff, or_false] at hmem
    rcases hmem with ⟨rfl, rfl, rfl⟩ | ⟨rfl, rfl, rfl⟩ | ⟨rfl, rfl, rfl⟩ | ⟨rfl, rfl, rfl⟩ | ⟨rfl, rfl, rfl⟩ | ⟨rfl, rfl, rfl⟩ | ⟨rfl, rfl, rfl⟩
    · exact refused_powerLimit hcalm hm hs hc hbad b
    · exact refused_poolWrite hcalm hm hs hc hbad x
    · exact refused_mgrSet hcalm hm hs hc hbad l
    · exact refused_lcTransition hm hs hc hbad n
    · exact refused_debugOpen hm hs hc hbad n l
    · exact refused_debugClose hm hs hc hbad
    · exact refused_certSet hm hs hc hbad d

end Sys2Proof.Machine
end

section
/-! PROOFS. Service and firmware orders (R116, R203, R524, R528, R530, R538, R544, R555-R561). -/

namespace Sys2Proof.Machine

/-! ## An order of service or firmware (R541, R555, R559) -/

/-- What an order of service or firmware needs to be acted on. -/
structure ServicePasses (s : State) (o : OrderHdr) (code role : Nat) : Prop extends OrderPasses s o code role where
  running : s.work.svcPaused = false

/-- What such an order leaves when it is done: recorded, its nonce used, its reply sent. -/
def ServiceDone (s : State) (o : OrderHdr) (d : List Byte) (t : State) : Prop :=
  t.hub.svc.order = o.order ∧ t.hub.purser.nonces = rmv s.hub.purser.nonces o.nonce ∧ .order true o.order 0 o.nonce d ∈ t.hub.sent

theorem heldService_runs {w : Work} (hm : w.mute = false) (hp : w.svcPaused = false) (hs : w.hub.start.state = 1) (c : HeldOrder) (early : Bool) (k : Work → Work) : w.heldService c early k = k w := by
  rw [Work.heldService, if_neg (by simp [hp])]
  exact heldBack_runs hm hs c early k

/-- Where nothing waits to settle, such an order does what its work says. -/
theorem does_service {s : State} {o : OrderHdr} {code role : Nat} (hp : ServicePasses s o code role) {c : Instr} {h : HeldOrder} {early : Bool} {k : Work → Work} {u : Work} {P : State → Prop}
    (hexec : exec c s = s.runAll fun w => w.heldService h early k) (hk : k s.work = u) (hc : u.calm) (hu : P (s.commit u)) : Does c s P := by
  refine does_runAll hexec ?_
  rw [heldService_runs hp.mute hp.running hp.state, hk, settle_calm _ hc]
  exact hu

/-- The nonce of an order is used and the order is recorded as the last one started (R560). -/
def Work.recorded (w : Work) (o : OrderHdr) (code : Nat) (partly : Bool := false) : Work := (w.nonceUsed o).svcOrder code partly

section
variable (w : Work) (o : OrderHdr) (code : Nat) (partly : Bool)

@[simp] theorem recorded_svc : (w.recorded o code partly).hub.svc = { w.hub.svc with order := code, partly := partly } := rfl
@[simp] theorem recorded_nonces : (w.recorded o code partly).hub.purser.nonces = rmv w.hub.purser.nonces o.nonce := rfl
@[simp] theorem recorded_writes : (w.recorded o code partly).writes = w.writes := rfl

/-- The hub without its start, its service record, its Purser and what is sent. -/
def offImage (h : Hub) : Hub := { h with start := {}, svc := {}, purser := {}, sent := [] }

/-- The hub without its service record, its Purser and what is sent; and that also without the management Log, or the ports. -/
def offServed (h : Hub) : Hub := { h with svc := {}, purser := {}, sent := [] }
def offMlog (h : Hub) : Hub := { offServed h with mlog := {} }
def offPorts (h : Hub) : Hub := { offServed h with ports := [] }

theorem recorded_served : offServed (w.recorded o code partly).hub = offServed w.hub := rfl
theorem recorded_image : offImage (w.recorded o code partly).hub = offImage w.hub := rfl

end

theorem sent_orderOk_data {w : Work} {o : OrderHdr} {role : Nat} (hok : w.orderBad o role = none) (u : Work) (d : List Byte) : .order true o.order 0 o.nonce d ∈ (u.orderOk o d).hub.sent := by
  rw [← viaEthernet_of_passes hok]
  exact List.mem_cons_self ..

section
variable {s : State} {o : OrderHdr} {code role : Nat} {v : Work} {d : List Byte}

theorem serviceDone (hp : ServicePasses s o code role) (hsvc : v.hub.svc.order = code) (hn : v.hub.purser.nonces = rmv s.work.hub.purser.nonces o.nonce) : ServiceDone s o d (s.commit (v.orderOk o d)) :=
  ⟨hsvc.trans hp.code.symm, hn, sent_orderOk_data hp.ok _ _⟩

theorem port_orderOk (s : State) (v : Work) (o : OrderHdr) (p : Nat) : (s.commit (v.orderOk o)).work.port p = v.port p := rfl

theorem exactly_image (hw : v.writes = []) (h : offImage v.hub = offImage s.work.hub) :
    Exactly s (s.commit v) fun h => { h with start := (s.commit v).hub.start, svc := (s.commit v).hub.svc, purser := (s.commit v).hub.purser, sent := (s.commit v).hub.sent } := by
  refine ⟨rfl, ?_, congrArg (fun q : Hub => { q with start := v.hub.start, svc := v.hub.svc, purser := v.hub.purser, sent := v.hub.sent }) h⟩
  show s.mem.applyAll v.writes.reverse = s.mem
  rw [hw]
  rfl

theorem exactly_mlog (hw : v.writes = []) (h : offMlog v.hub = offMlog s.work.hub) :
    Exactly s (s.commit v) fun h => { h with svc := (s.commit v).hub.svc, purser := (s.commit v).hub.purser, mlog := (s.commit v).hub.mlog, sent := (s.commit v).hub.sent } := by
  refine ⟨rfl, ?_, congrArg (fun q : Hub => { q with svc := v.hub.svc, purser := v.hub.purser, mlog := v.hub.mlog, sent := v.hub.sent }) h⟩
  show s.mem.applyAll v.writes.reverse = s.mem
  rw [hw]
  rfl

theorem exactly_ports (hw : v.writes = []) (h : offPorts v.hub = offPorts s.work.hub) :
    Exactly s (s.commit v) fun h => { h with ports := (s.commit v).hub.ports, svc := (s.commit v).hub.svc, purser := (s.commit v).hub.purser, sent := (s.commit v).hub.sent } := by
  refine ⟨rfl, ?_, congrArg (fun q : Hub => { q with ports := v.hub.ports, svc := v.hub.svc, purser := v.hub.purser, sent := v.hub.sent }) h⟩
  show s.mem.applyAll v.writes.reverse = s.mem
  rw [hw]
  rfl

theorem exactly_purser (hw : v.writes = []) (h : offServed v.hub = offServed s.work.hub) :
    Exactly s (s.commit v) fun h => { h with svc := (s.commit v).hub.svc, purser := (s.commit v).hub.purser, sent := (s.commit v).hub.sent } := by
  refine ⟨rfl, ?_, congrArg (fun q : Hub => { q with svc := v.hub.svc, purser := v.hub.purser, sent := v.hub.sent }) h⟩
  show s.mem.applyAll v.writes.reverse = s.mem
  rw [hw]
  rfl

end

theorem exec_logRead (o : OrderHdr) (a n : Nat) (p : Bool) (s : State) : exec (.logRead o a n p) s = s.runAll fun w => w.heldService (.logRead o a n p) true fun w => w.doLogRead o a n p := rfl
theorem exec_resetOrder (o : OrderHdr) (c d : Bool) (s : State) : exec (.resetOrder o c d) s = s.runAll fun w => w.heldBack (.reset o c d) true fun w => w.doReset o c d := rfl
theorem exec_deadAgent (o : OrderHdr) (n : Nat) (s : State) : exec (.deadAgent o n) s = s.runAll fun w => w.heldService (.deadAgent o n) false fun w => w.doDeadAgent o n := rfl
theorem exec_assured (o : OrderHdr) (b : Bool) (s : State) : exec (.assured o b) s = s.runAll fun w => w.heldService (.assured o b) false fun w => w.doAssured o b := rfl
theorem exec_unitOut (o : OrderHdr) (k u : Nat) (s : State) : exec (.unitOut o k u) s = s.runAll fun w => w.heldService (.unitOut o k u) false fun w => w.doUnitOut o k u := rfl
theorem exec_unitIn (o : OrderHdr) (k u : Nat) (b : Bool) (s : State) : exec (.unitIn o k u b) s = s.runAll fun w => w.heldService (.unitIn o k u b) false fun w => w.doUnitIn o k u b := rfl
theorem exec_recal (o : OrderHdr) (k u l : Nat) (s : State) : exec (.recal o k u l) s = s.runAll fun w => w.heldService (.recal o k u l) false fun w => w.doRecal o k u l := rfl
theorem exec_imageBegin (o : OrderHdr) (n : Nat) (s : State) : exec (.imageBegin o n) s = s.runAll fun w => w.heldService (.imageBegin o n) true fun w => w.doImageBegin o n := rfl
theorem exec_imageChunk (o : OrderHdr) (a : Nat) (d : List Byte) (s : State) : exec (.imageChunk o a d) s = s.runAll fun w => w.heldService (.imageChunk o a d) true fun w => w.doImageChunk o a d := rfl
theorem exec_imageCommit (o : OrderHdr) (b c : Bool) (f : ImageFacts) (s : State) : exec (.imageCommit o b c f) s = s.runAll fun w => w.heldService (.imageCommit o f) true fun w => w.doImageCommit o b c f := rfl
theorem exec_unitReplace (o : OrderHdr) (u i : Nat) (f : ImageFacts) (s : State) : exec (.unitReplace o u i f) s = s.runAll fun w =>
    if w.hub.svc.replacing.isSome && !w.mute then w.onHub fun h => { h with heldOrders := h.heldOrders ++ [.unitReplace o u i f] } else w.heldService (.unitReplace o u i f) false fun w => w.doUnitReplace o u i f := rfl

/-- The hub without its service record and its Purser. -/
def offSvc (h : Hub) : Hub := { h with svc := {}, purser := {} }

theorem within_svc {s : State} {w : Work} (h : Same offSvc s.work w) : Within s (s.commit w) fun h => { h with svc := w.hub.svc, purser := w.hub.purser } :=
  ⟨rfl, congrArg (fun q : Hub => { q with svc := w.hub.svc, purser := w.hub.purser }) h⟩

theorem Reports.calm {w w' : Work} (h : Reports w w') (hc : w.calm) : w'.calm := by
  unfold Work.calm
  rw [h.hawser, h.ten, h.memory]
  exact hc

/-! ## What the simple orders do -/

section
variable {w : Work} {o : OrderHdr}

theorem doLogRead_acts (hm : w.mute = false) (hc : o.order = 0x0050) (hok : w.orderBad o roleService = none) {a n : Nat} (h0 : 0 < n) (hn : n ≤ 240) (ha : a < 65536) (hgap : w.hub.mlog.gapCount = 0) :
    w.doLogRead o a n false = (((w.recorded o 0x0050).orderOk o (w.logEntries a n false)).onHub fun h => { h with mlog := { h.mlog with head := (a + n) % 4096 } }) := by
  unfold Work.doLogRead
  refine (order_acts hm hc hok (if_neg ?_) _).trans ?_
  · simp only [Bool.or_eq_true, decide_eq_true_eq]
    omega
  · dsimp only
    rw [if_neg (by decide), Work.logGap, if_pos]
    · rfl
    · simp only [Bool.or_eq_true, decide_eq_true_eq]
      exact .inl hgap

theorem doAssured_acts (hm : w.mute = false) (hc : o.order = 0x0057) (hok : w.orderBad o roleService = none) (b : Bool) :
    w.doAssured o b = (((w.recorded o 0x0057).onSvc fun x => { x with assured := b }).log { cls := 0x15, sev := 0, cause := 0x8017, detail := b2n b }).orderOk o := order_acts hm hc hok rfl _

theorem doUnitIn_port_acts (hm : w.mute = false) (hc : o.order = 0x0054) (hok : w.orderBad o roleService = none) {p : Nat} (hp : p < 4) (b : Bool) :
    w.doUnitIn o 5 p b = (((w.recorded o 0x0054).onSvc fun x => { x with action := some (5, p) }).onPort p fun x => { x with heldOut := false }).orderOk o := by
  unfold Work.doUnitIn
  refine (order_acts hm hc hok (if_neg ?_) _).trans rfl
  simpa [kindUnits] using hp

theorem doImageBegin_acts (hm : w.mute = false) (hc : o.order = 0x0040) (hok : w.orderBad o roleFirmware = none) {n : Nat} (hlow : 4096 ≤ n) (hhigh : n ≤ 2 ^ 25) (hs : w.hub.start.state = 1) :
    w.doImageBegin o n = (((w.recorded o 0x0040).onStart fun x => { x with transfer := some { len := n }, flashValid := false }).emit (.flash 0 [])).orderOk o := by
  unfold Work.doImageBegin
  refine (order_acts hm hc hok (if_neg (by simp only [Bool.or_eq_true, decide_eq_true_eq]; omega)) _).trans ?_
  have hrec : decide (((w.nonceUsed o).hub.start).state = 2) = false := by
    rw [decide_eq_false_iff_not]
    show ¬ w.hub.start.state = 2
    omega
  dsimp only
  rw [hrec, if_neg (by decide)]
  rfl

theorem doImageChunk_acts (hm : w.mute = false) (hc : o.order = 0x0041) (hok : w.orderBad o roleFirmware = none) {a : Nat} {d : List Byte} {x : Transfer} (hx : w.hub.start.transfer = some x) (hrec : x.recovery = false)
    (hd : d.length ≤ 7936) (hlen : a + d.length ≤ x.len) : w.doImageChunk o a d = ((w.recorded o 0x0041).emit (.flash a d)).orderOk o := by
  have hbad : (if 7936 < d.length || x.len < a + d.length then some rpBadShape else none : Option Nat) = none := by
    rw [if_neg]
    simp only [Bool.or_eq_true, decide_eq_true_eq]
    omega
  have hx' : ((w.nonceUsed o).svcOrder 0x0041).hub.start.transfer = some x := hx
  unfold Work.doImageChunk
  rw [hx]
  refine (order_acts hm hc hok hbad _).trans ?_
  dsimp only
  rw [hx']
  dsimp only
  rw [if_neg (by simp [hrec])]
  rfl

theorem doImageCommit_acts (hm : w.mute = false) (hc : o.order = 0x0042) (hok : w.orderBad o roleFirmware = none) {x : Transfer} (hx : w.hub.start.transfer = some x) (hrec : x.recovery = false)
    {f : ImageFacts} (hf : imageBad f = none) (b c : Bool) : w.doImageCommit o b c f = (((w.recorded o 0x0042).onStart fun x => { x with transfer := none }).flashHolds f.version).orderOk o := by
  unfold Work.doImageCommit
  rw [hx]
  refine (order_acts hm hc hok rfl _).trans ?_
  dsimp only
  rw [hf]
  dsimp only
  rw [if_pos (by simp [hrec])]
  rfl

theorem doUnitReplace_acts (hm : w.mute = false) (hc : o.order = 0x0043) (hok : w.orderBad o roleFirmware = none) {u i : Nat} (hu : u < 3) (hi : i < 8) (hv : w.hub.start.flashValid = true)
    {f : ImageFacts} (hf : imageBad f = none) : w.doUnitReplace o u i f = (w.recorded o 0x0043 true).onSvc fun x => { x with replacing := some (u, i), replaceNonce := o.nonce, replaceVersion := f.version } := by
  have hunits : replaceUnits u = 8 := by
    obtain rfl | rfl | rfl : u = 0 ∨ u = 1 ∨ u = 2 := by omega
    · rfl
    · rfl
    · rfl
  have h3 : u ≠ 3 := by omega
  have h4 : u ≠ 4 := by omega
  unfold Work.doUnitReplace
  refine (order_acts hm hc hok ?_ _).trans ?_
  · rw [hunits, if_neg (by omega), if_neg (by simp [hv])]
    exact hf
  · split
    · exact absurd rfl h3
    · exact absurd rfl h4
    · rfl

end

section
variable {s : State} {o : OrderHdr}

theorem logRead_reads {a n : Nat} (hp : ServicePasses s o 0x0050 7) (h0 : 0 < n) (hn : n ≤ 240) (ha : a < 65536) (hgap : s.work.hub.mlog.gapCount = 0) : Does (.logRead o a n false) s fun t =>
    ServiceDone s o (s.work.logEntries a n false) t ∧ t.hub.mlog = { s.hub.mlog with head := (a + n) % 4096 }
      ∧ Exactly s t (fun h => { h with svc := t.hub.svc, purser := t.hub.purser, mlog := t.hub.mlog, sent := t.hub.sent }) := by
  have hmlog : offMlog (s.work.recorded o 0x0050).hub = offMlog s.work.hub := congrArg (fun h : Hub => { h with mlog := {} }) (recorded_served s.work o 0x0050 false)
  refine does_service hp (exec_logRead o a n false s) (doLogRead_acts hp.mute hp.code hp.ok h0 hn ha hgap) hp.calm ⟨?_, rfl, exactly_mlog rfl hmlog⟩
  exact serviceDone (v := s.work.recorded o 0x0050) hp rfl rfl

theorem assured_set {b : Bool} (hp : ServicePasses s o 0x0057 7) : Does (.assured o b) s fun t =>
    t.hub.svc.assured = b ∧ ServiceDone s o [] t ∧ Within s t (fun h => { h with svc := t.hub.svc, purser := t.hub.purser }) := by
  have hlog := log_reports (w := (s.work.recorded o 0x0057).onSvc fun x => { x with assured := b }) { cls := 0x15, sev := 0, cause := 0x8017, detail := b2n b }
  have hsame : Same offSvc s.work ((s.work.recorded o 0x0057).onSvc fun x => { x with assured := b }) := rfl
  have hsvc := hlog.svc
  have hpurser := hlog.purser
  have hcalm : ((s.work.recorded o 0x0057).onSvc fun x => { x with assured := b }).calm := hp.calm
  replace hcalm := hlog.calm hcalm
  have hall := within_svc (hsame.trans (hlog.same offSvc))
  refine does_service hp (exec_assured o b s) (doAssured_acts hp.mute hp.code hp.ok b) hcalm ?_
  generalize Work.log _ _ = v at *
  exact ⟨congrArg Svc.assured hsvc, serviceDone hp (congrArg Svc.order hsvc) (congrArg Purser.nonces hpurser), hall⟩

theorem unitIn_port {p : Nat} {b : Bool} (hp : ServicePasses s o 0x0054 7) (h4 : p < 4) : Does (.unitIn o 5 p b) s fun t =>
    t.work.port p = { s.work.port p with heldOut := false } ∧ ServiceDone s o [] t ∧ Exactly s t (fun h => { h with ports := t.hub.ports, svc := t.hub.svc, purser := t.hub.purser, sent := t.hub.sent }) := by
  have hports : offPorts (s.work.recorded o 0x0054).hub = offPorts s.work.hub := congrArg (fun h : Hub => { h with ports := [] }) (recorded_served s.work o 0x0054 false)
  refine does_service hp (exec_unitIn o 5 p b s) (doUnitIn_port_acts hp.mute hp.code hp.ok h4 b) hp.calm ⟨?_, serviceDone hp rfl rfl, exactly_ports rfl hports⟩
  exact (port_orderOk _ _ _ _).trans (port_onPort ((s.work.recorded o 0x0054).onSvc fun x => { x with action := some (5, p) }) p fun x => { x with heldOut := false })

theorem imageBegin_begins {n : Nat} (hp : ServicePasses s o 0x0040 6) (hlow : 4096 ≤ n) (hhigh : n ≤ 2 ^ 25) : Does (.imageBegin o n) s fun t =>
    t.hub.start = { s.hub.start with transfer := some { len := n }, flashValid := false } ∧ ServiceDone s o [] t ∧ Exactly s t (fun h => { h with start := t.hub.start, svc := t.hub.svc, purser := t.hub.purser, sent := t.hub.sent }) := by
  refine does_service hp (exec_imageBegin o n s) (doImageBegin_acts hp.mute hp.code hp.ok hlow hhigh hp.state) hp.calm ?_
  exact ⟨rfl, serviceDone hp rfl rfl, exactly_image rfl (recorded_image s.work o 0x0040 false)⟩

theorem imageChunk_takes {a : Nat} {d : List Byte} {x : Transfer} (hp : ServicePasses s o 0x0041 6) (hx : s.work.hub.start.transfer = some x) (hrec : x.recovery = false) (hd : d.length ≤ 7936) (hlen : a + d.length ≤ x.len) :
    Does (.imageChunk o a d) s fun t => .flash a d ∈ t.hub.sent ∧ ServiceDone s o [] t ∧ Exactly s t (fun h => { h with svc := t.hub.svc, purser := t.hub.purser, sent := t.hub.sent }) := by
  refine does_service hp (exec_imageChunk o a d s) (doImageChunk_acts hp.mute hp.code hp.ok hx hrec hd hlen) hp.calm ?_
  exact ⟨List.mem_cons_of_mem _ (List.mem_cons_self ..), serviceDone hp rfl rfl, exactly_purser rfl (recorded_served s.work o 0x0041 false)⟩

theorem imageCommit_commits {x : Transfer} {f : ImageFacts} {b c : Bool} (hp : ServicePasses s o 0x0042 6) (hx : s.work.hub.start.transfer = some x) (hrec : x.recovery = false) (hf : imageBad f = none) :
    Does (.imageCommit o b c f) s fun t => t.hub.start = { s.hub.start with transfer := none, flashValid := true, flashVersion := f.version } ∧ ServiceDone s o [] t
      ∧ Exactly s t (fun h => { h with start := t.hub.start, svc := t.hub.svc, purser := t.hub.purser, sent := t.hub.sent }) := by
  refine does_service hp (exec_imageCommit o b c f s) (doImageCommit_acts hp.mute hp.code hp.ok hx hrec hf b c) hp.calm ?_
  exact ⟨rfl, serviceDone hp rfl rfl, exactly_image rfl (recorded_image s.work o 0x0042 false)⟩

theorem unitReplace_begins {u i : Nat} {f : ImageFacts} (hp : ServicePasses s o 0x0043 6) (hnone : s.work.hub.svc.replacing = none) (hu : u < 3) (hi : i < 8) (hv : s.work.hub.start.flashValid = true) (hf : imageBad f = none) :
    Does (.unitReplace o u i f) s fun t => t.hub.svc = { s.hub.svc with order := 0x0043, partly := true, replacing := some (u, i), replaceNonce := o.nonce, replaceVersion := f.version }
      ∧ t.hub.purser.nonces = rmv s.hub.purser.nonces o.nonce ∧ Exactly s t (fun h => { h with svc := t.hub.svc, purser := t.hub.purser }) := by
  refine does_runAll (exec_unitReplace o u i f s) ?_
  have hcalm : ((s.work.recorded o 0x0043 true).onSvc fun x => { x with replacing := some (u, i), replaceNonce := o.nonce, replaceVersion := f.version }).calm := hp.calm
  have hfree : ¬(s.work.hub.svc.replacing.isSome && !s.work.mute) = true := by simp [show s.hub.svc.replacing = none from hnone]
  rw [if_neg hfree, heldService_runs hp.mute hp.running hp.state, doUnitReplace_acts hp.mute hp.code hp.ok hu hi hv hf, settle_calm _ hcalm]
  exact ⟨rfl, rfl, rfl, rfl, rfl⟩

end

end Sys2Proof.Machine
end

section
/-! PROOFS. What taking engines and sites out of service leaves as it was (R116, R203). -/

namespace Sys2Proof.Machine

/-! ## Steady changes -/

/-- What routing tokens, telling waiters and completing entries leave as it was: the memory units, messages of other hubs, withdrawals, berths, the service record, the Purser, the start. -/
def kept (h : Hub) : MemUnits × List BodyMsg × List Withdrawal × Tab Berth × Svc × Purser × Start := (h.memory, h.hawser.inbound, h.ten.withdrawals, h.ten.berths, h.svc, h.purser, h.start)

/-- From one work to the next an engine is out as before, without a run where it had none, and what is `kept` stands. -/
structure Steady (g : Nat) (w w' : Work) : Prop where
  out : (w'.wright g).out = (w.wright g).out
  idle : (w.wright g).run = none → (w'.wright g).run = none
  kept : kept w'.hub = kept w.hub

section
variable {g : Nat}

theorem Steady.refl (w : Work) : Steady g w w := ⟨rfl, id, rfl⟩
theorem Steady.trans {a b c : Work} (h : Steady g a b) (k : Steady g b c) : Steady g a c := ⟨k.out.trans h.out, k.idle ∘ h.idle, k.kept.trans h.kept⟩
theorem Steady.each {α : Type} (l : List α) (f : α → Work → Work) (w : Work) (hf : ∀ a w, Steady g w (f a w)) : Steady g w (each l f w) :=
  each_keeps l f w (.refl w) fun a _ h => h.trans (hf a _)

theorem Steady.ite {w a b : Work} {c : Prop} [Decidable c] (ha : Steady g w a) (hb : Steady g w b) : Steady g w (if c then a else b) := by
  split
  · exact ha
  · exact hb

/-- A change of other blocks. -/
theorem Steady.elsewhere {w w' : Work} (hw : w'.hub.wrights = w.hub.wrights) (hk : Machine.kept w'.hub = Machine.kept w.hub) : Steady g w w' := by
  have h : w'.wright g = w.wright g := congrArg (fun x : Tab Wright => tget ({} : Wright) x g) hw
  exact ⟨by rw [h], fun k => by rw [h]; exact k, hk⟩

theorem Reports.steady {w w' : Work} (h : Reports w w') : Steady g w w' := by
  have hk := congrArg Machine.kept h
  exact .elsewhere h.wrights hk

theorem Steady.calm {w w' : Work} (h : Steady g w w') (hc : w.calm) : w'.calm := by
  have hk := h.kept
  simp only [Machine.kept, Prod.mk.injEq] at hk
  obtain ⟨hm, hi, hw, hb, -⟩ := hk
  unfold Work.calm
  rw [hm, hi, hw, hb]
  exact hc

theorem Steady.svc {w w' : Work} (h : Steady g w w') : w'.hub.svc = w.hub.svc := by
  have hk := h.kept
  simp only [Machine.kept, Prod.mk.injEq] at hk
  exact hk.2.2.2.2.1

theorem Steady.purser {w w' : Work} (h : Steady g w w') : w'.hub.purser = w.hub.purser := by
  have hk := h.kept
  simp only [Machine.kept, Prod.mk.injEq] at hk
  exact hk.2.2.2.2.2.1

theorem Steady.onWright (w : Work) (x : Nat) (f : Wright → Wright) (ho : ∀ y, (f y).out = y.out) (hr : ∀ y, y.run = none → (f y).run = none) : Steady g w (w.onWright x f) := by
  by_cases h : g = x
  · subst h
    exact ⟨by rw [wright_onWright, ho], fun k => by rw [wright_onWright]; exact hr _ k, rfl⟩
  · exact ⟨by rw [wright_onWright_ne _ _ h], fun k => by rw [wright_onWright_ne _ _ h]; exact k, rfl⟩

theorem Steady.onFabric (w : Work) (f : Fabric → Fabric) : Steady g w (w.onFabric f) := .elsewhere rfl rfl
theorem Steady.onHelm (w : Work) (f : HelmState → HelmState) : Steady g w (w.onHelm f) := .elsewhere rfl rfl
theorem Steady.onHPort (w : Work) (k : Nat) (f : HPort → HPort) : Steady g w (w.onHPort k f) := .elsewhere rfl rfl
theorem Steady.onRing (w : Work) (b r : Nat) (f : Ring → Ring) : Steady g w (w.onRing b r f) := .elsewhere rfl rfl
theorem Steady.emit (w : Work) (o : Out) : Steady g w (w.emit o) := .elsewhere rfl rfl

/-! ## Tokens -/

theorem count_steady (w : Work) (k i c n : Nat) : Steady g w (w.count k i c n) := (count_reports w k i c n).steady
theorem sendTok_steady (w : Work) (p : Packet) : Steady g w (w.sendTok p) := .onFabric w _
theorem issue_steady (w : Work) (r : MemReq) : Steady g w (w.issue r) := .onFabric w _

theorem hwsDrain_steady (k n : Nat) (w : Work) : Steady g w (w.hwsDrain k n) := by
  induction n generalizing w with
  | zero => exact .refl w
  | succ n ih =>
    unfold Work.hwsDrain
    dsimp only
    split
    · refine .ite (.refl w) ?_
      exact (((Steady.onHPort w k _).trans (.emit _ _)).trans (count_steady _ _ _ _ _)).trans (ih _)
    · exact .refl w

theorem hwsItem_steady (w : Work) (k : Nat) (o : Out) : Steady g w (w.hwsItem k o) := (Steady.onHPort w k _).trans (hwsDrain_steady k _ _)

theorem bodyPumpList_steady (k : Nat) (l : List HWait) (stuck : List Nat) (w : Work) : Steady g w (w.bodyPumpList k l stuck) := by
  induction l generalizing w stuck with
  | nil => exact .refl w
  | cons x l ih =>
    unfold Work.bodyPumpList
    dsimp only
    refine .ite ((Steady.onHPort w k _).trans (ih _ _)) (Steady.trans ?_ (ih _ _))
    have hitem := (Steady.onHPort (g := g) w k fun p => { p with credits := tset p.credits (msgChannel x.msg) (tget 0 (w.hport k).credits (msgChannel x.msg) - msgUnits x.msg) }).trans
      (hwsItem_steady _ k (.body k x.msg))
    split
    · exact (hitem.trans (hwsItem_steady _ _ _)).trans (count_steady _ _ _ _ _)
    · exact hitem

theorem sendBody_steady (w : Work) (k : Nat) (m : BodyMsg) : Steady g w (w.sendBody k m) :=
  ((Steady.onHPort w k _).trans (.onHPort _ k _)).trans (bodyPumpList_steady k _ _ _)

/-- A packet that leaves for another hub, where a route goes there. -/
theorem tokToHub_steady {w w' : Work} {hub : Nat} {p : Packet} (h : w.tokToHub hub p = some w') : Steady g w w' := by
  unfold Work.tokToHub at h
  obtain ⟨k, -, rfl⟩ := Option.map_eq_some_iff.1 h
  exact sendBody_steady w k _

theorem toOrigin_steady (w : Work) (p : Packet) : Steady g w (w.toOrigin p) := by
  unfold Work.toOrigin
  refine .ite (sendTok_steady w _) ?_
  cases h : w.tokToHub (handleHub p.token) p with
  | none => exact .refl w
  | some w' => exact tokToHub_steady h

theorem closeRank_steady (w : Work) (p : Packet) (cause : Nat) : Steady g w (w.closeRank p cause) := toOrigin_steady w _

theorem markRemote_steady (w : Work) (p : Packet) : Steady g w (w.markRemote p) := by
  unfold Work.markRemote
  dsimp only
  split
  · exact .elsewhere rfl rfl
  · exact .refl w

theorem sendDispatch_steady (w : Work) (self : Nat) (t : BTable) (p : Packet) : Steady g w (w.sendDispatch self t p) := by
  unfold Work.sendDispatch
  dsimp only
  refine .ite ?_ ((sendTok_steady w _).trans (count_steady _ _ _ _ _))
  split
  · next w' h => exact ((tokToHub_steady h).trans (markRemote_steady _ _)).trans (count_steady _ _ _ _ _)
  · exact closeRank_steady w p 8

theorem deferTok_steady (w : Work) (b : Nat) (t : BTable) (p : Packet) (u : Bool) : Steady g w (w.deferTok b t p u) := by
  unfold Work.deferTok
  extract_lets k id a d parts asks write bad waits v v'
  refine .ite (closeRank_steady w p 3) (.ite (closeRank_steady w p 12) (.ite (sendTok_steady w _) ?_))
  have hkeeper : Steady g v v' := .elsewhere rfl rfl
  refine (((Steady.onFabric w _).trans hkeeper).trans (.each _ _ _ fun x y => ?_)).trans (count_steady _ _ _ _ _)
  obtain ⟨o, n, r⟩ := x
  cases r with
  | ok e dpa => exact issue_steady y _
  | bad => exact .refl y
  | wait => exact .refl y
  | miss => exact .refl y

theorem overflow_steady (w : Work) (b : Nat) (t : BTable) (p : Packet) : Steady g w (w.overflow b t p) := by
  unfold Work.overflow
  split
  · exact closeRank_steady w p _
  · exact deferTok_steady w b t p _
  · split
    · exact .ite ((sendDispatch_steady w b t _).trans (count_steady _ _ _ _ _)) (closeRank_steady w p 4)
    · exact closeRank_steady w p 4

theorem overflowTok_steady (w : Work) (k : Nat) (p : Packet) : Steady g w (w.overflowTok k p) := by
  unfold Work.overflowTok
  split
  · exact .ite ((toOrigin_steady w _).trans (count_steady _ _ _ _ _)) (overflow_steady w k _ p)
  · exact closeRank_steady w p _

/-! ## Engines -/

theorem closeInbox_steady (w : Work) (x : Nat) : Steady g w (w.closeInbox x) :=
  Steady.trans (b := w.onWright x fun e => { e with inbox := [], full := if (w.wright x).inbox.map (·.2) = [] then e.full else false }) (.onWright w x _ (fun _ => rfl) fun _ h => h)
    (.each _ _ _ fun p v => closeRank_steady v p 1)

theorem spillToks_steady (w : Work) (x : Nat) : Steady g w (w.spillToks x) :=
  Steady.trans (b := w.onWright x fun e => { e with waitingToks := [] }) (.onWright w x _ (fun _ => rfl) fun _ h => h) (.each _ _ _ fun p v => overflowTok_steady v _ p)

/-- An engine without a run has no token to answer. -/
theorem nullAnswer_idle {w : Work} {x : Nat} (h : (w.wright x).run = none) : w.nullAnswer x = w := by rw [Work.nullAnswer, h]

theorem tryEnd_idle {w : Work} {x : Nat} (h : (w.wright x).run = none) : w.tryEnd x = w := by rw [Work.tryEnd, h]

/-! ## Waits -/

theorem notify_steady (w : Work) (p : Party) (c v : Nat) : Steady g w (w.notify p c v) := by
  cases p with
  | site n tag b =>
    have h := siteSend_sends w n (notifyBytes (if c = 0 then 0 else 9) tag b v)
    have hw := congrArg Hub.wrights h.hub
    have hk := congrArg Machine.kept h.hub
    exact .elsewhere hw hk
  | wright x => exact .onWright w x _ (fun _ => rfl) fun y hy => by rw [hy]; rfl
  | launch x => exact .onWright w x _ (fun _ => rfl) fun _ hy => hy
  | entry b r i => exact .onRing w b r _

theorem tellWaiter_steady (w : Work) (x : Waiter) (c v : Nat) : Steady g w (w.tellWaiter x c v) := by
  unfold Work.tellWaiter
  split
  · exact notify_steady w _ _ _
  · exact .elsewhere rfl rfl

theorem spillOut_steady (l : List SpillRead) (w : Work) : Steady g w (w.spillOut l) := by
  induction l generalizing w with
  | nil => exact .onHelm w _
  | cons x l ih =>
    rw [Work.spillOut]
    exact .ite ((notify_steady w _ _ _).trans (ih _)) (.onHelm w _)

theorem serveSem_steady (n fuel : Nat) (w : Work) : Steady g w (w.serveSem n fuel) := by
  induction fuel generalizing w with
  | zero => exact .refl w
  | succ fuel ih =>
    rw [Work.serveSem]
    split
    · exact .refl w
    · refine .ite (.refl w) (Steady.trans ?_ ((tellWaiter_steady _ _ _ _).trans (ih _)))
      exact .elsewhere rfl rfl

theorem withdrawWaits_steady (w : Work) (pick : Party → Bool) : Steady g w (w.withdrawWaits pick) := by
  unfold Work.withdrawWaits
  dsimp only
  refine Steady.trans ?_ (.each _ _ _ fun n v => serveSem_steady n _ v)
  exact (Steady.onHelm w _).trans (spillOut_steady _ _)

/-! ## Completions -/

theorem helmError_steady (w : Work) (b o c : Nat) : Steady g w (w.helmError b o c) := (helmError_reports w b o c).steady

theorem owe_steady (w : Work) (k n : Nat) : Steady g w (w.owe k n) := by
  unfold Work.owe
  dsimp only
  refine .ite (.refl w) (.ite ?_ (.onHelm w _))
  exact Steady.trans (Steady.trans (.onHelm w _) (log_reports _ _).steady) (count_steady _ _ _ _ _)

theorem markPulses_steady (w : Work) (m : Nat) : Steady g w (w.markPulses m) := by
  refine .each _ _ w fun k v => ?_
  exact .ite (.refl v) ((owe_steady v _ _).trans (.onHelm _ _))

theorem failTaken_steady (w : Work) (pick : Waiter → Bool) (c : Nat) : Steady g w (Machine.each (w.takeWaiters pick).1 (fun y v => v.failWaiter y c) (w.takeWaiters pick).2) :=
  Steady.trans (b := (w.takeWaiters pick).2) (.elsewhere rfl rfl) (.each _ _ _ fun y v => (tellWaiter_steady v y c 0).trans (helmError_steady _ _ _ _))

theorem serveMark_steady (w : Work) (m : Nat) : Steady g w (w.serveMark m) :=
  Steady.trans (b := (w.takeWaiters _).2) (.elsewhere rfl rfl) (.each _ _ _ fun x v => tellWaiter_steady v x _ _)

/-- An addition to a mark, whatever comes of it. -/
theorem markAdd_steady (w : Work) (b m v : Nat) : Steady g w (w.markAdd b m v).2 := by
  have hmark (f : Mark → Mark) : Steady g w ((w.onMark m f).count 4 0 0) := Steady.trans (b := w.onMark m f) (.onHelm w _) (count_steady _ _ _ _ _)
  unfold Work.markAdd
  dsimp only
  split
  · exact Steady.onHelm w fun h => { h with held := h.held ++ [.add b m v] }
  · split
    · exact helmError_steady w b m 2
    · split
      · exact helmError_steady w b m 4
      · split
        · dsimp only
          refine Steady.trans ?_ (failTaken_steady _ _ 4)
          exact ((hmark _).trans (helmError_steady _ b m 4)).trans (markPulses_steady _ m)
        · exact ((hmark _).trans (serveMark_steady _ m)).trans (markPulses_steady _ m)

theorem complete_steady (w : Work) (e : EntryRef) (st d r : Nat) : Steady g w (w.complete e st d r) := by
  unfold Work.complete
  split
  · refine Steady.trans (Steady.trans ?_ (.ite (markAdd_steady _ _ _ _) (.refl _))) (.ite (raise_reports _ _ _ _).steady (.refl _))
    exact ((hostWrite_reports w _ _ _).steady.trans (count_steady _ _ _ _ _)).trans (.onRing _ _ _ _)
  · exact .refl w

theorem outDone_steady (w : Work) (x st : Nat) : Steady g w (w.outDone x st) := by
  unfold Work.outDone
  split
  · refine Steady.trans ?_ (complete_steady _ _ _ _ _)
    have htoks := (closeInbox_steady (g := g) w x).trans (spillToks_steady _ x)
    generalize (w.closeInbox x).spillToks x = v at htoks
    exact htoks.trans (.onWright v x (fun y => { y with draining := none }) (fun _ => rfl) fun _ h => h)
  · exact .refl w

/-! ## An engine out of service and in again (R203) -/

/-- An idle engine's empty queue is emptied. -/
theorem emptyQueue_steady {w : Work} {x : Nat} (hq : (w.wright x).queue = []) (st : Nat) : Steady g w (w.emptyQueue x st) := by
  unfold Work.emptyQueue
  rw [hq]
  dsimp only [each_nil]
  refine Steady.trans (b := (w.onWright x fun e => { e with queue := [] }).dropFetch (.wright x) 0) ?_ (withdrawWaits_steady _ _)
  exact (Steady.onWright w x (fun e => { e with queue := [] }) (fun _ => rfl) fun _ h => h).trans (.elsewhere rfl rfl)

/-- An engine taken out is marked out. -/
def markedOut (e : Option EntryRef) (y : Wright) : Wright := { y with out := true, draining := if e.isSome then e else y.draining }

theorem wrightOut_idle {w : Work} {x : Nat} (hr : (w.wright x).run = none) (hq : (w.wright x).queue = []) (e : Option EntryRef) :
    Steady x (w.onWright x (markedOut e)) (w.wrightOut x e) := by
  have hclear : ∀ f : ExpEntry → Bool, Steady x (w.onWright x (markedOut e)) ((w.clearMarks f).onWright x (markedOut e)) := fun f => .elsewhere rfl rfl
  have hmark (f : ExpEntry → Bool) : ((w.clearMarks f).onWright x (markedOut e)).wright x = markedOut e (w.wright x) := wright_onWright _ _ _
  unfold Work.wrightOut
  dsimp only
  generalize hv : (w.clearMarks fun k => decide (k.kind = 2) && decide (k.wright = x)) = v
  have hv1 := hclear fun k => decide (k.kind = 2) && decide (k.wright = x)
  have hv2 := hmark fun k => decide (k.kind = 2) && decide (k.wright = x)
  rw [hv] at hv1 hv2
  have hempty : Steady x (v.onWright x (markedOut e)) ((v.onWright x (markedOut e)).emptyQueue x stEngineOut) := emptyQueue_steady (by rw [hv2]; exact hq) _
  refine hv1.trans (hempty.trans (.ite ?_ (.refl _)))
  exact ((closeInbox_steady _ x).trans (spillToks_steady _ x)).trans (outDone_steady _ x 0)

theorem stopRun_idle {w : Work} {x : Nat} (hr : (w.wright x).run = none) (st : Nat) : Steady x w (w.stopRun x st) := by
  have hwait := withdrawWaits_steady (g := x) w fun p => p = .wright x
  rw [stopRun_eq]
  generalize (w.withdrawWaits fun p => p = .wright x) = v at hwait
  rw [nullAnswer_idle (hwait.idle hr)]
  have hin := closeInbox_steady (g := x) v x
  have hstores : Steady x (v.closeInbox x) ((v.closeInbox x).onWright x storesOnly) := .onWright _ x _ (fun _ => rfl) fun _ h => h
  have hrun : Steady x ((v.closeInbox x).onWright x storesOnly) (((v.closeInbox x).onWright x storesOnly).onRun x (runStopped st)) := .onWright _ x _ (fun _ => rfl) fun y hy => by rw [hy]; rfl
  have hall := ((hwait.trans hin).trans hstores).trans hrun
  rw [tryEnd_idle (hall.idle hr)]
  exact hall

/-- An idle engine goes out at once. -/
theorem engineOut_idle {w : Work} {x : Nat} (hr : (w.wright x).run = none) (hq : (w.wright x).queue = []) (e : Option EntryRef) :
    ((w.engineOut x e 0).wright x).out = true ∧ ((w.engineOut x e 0).wright x).run = none ∧ kept (w.engineOut x e 0).hub = kept w.hub := by
  unfold Work.engineOut
  dsimp only
  rw [if_pos rfl]
  have hlog := (log_reports (w := w) { cls := 5, sev := 3, cause := stEngineOut, unit := x })
  have hwright : (w.log { cls := 5, sev := 3, cause := stEngineOut, unit := x }).wright x = w.wright x := congrArg (fun l : Tab Wright => tget ({} : Wright) l x) hlog.wrights
  have hk := (hlog.steady (g := x)).kept
  generalize w.log { cls := 5, sev := 3, cause := stEngineOut, unit := x } = v at *
  have hout := wrightOut_idle (w := v) (x := x) (by rw [hwright]; exact hr) (by rw [hwright]; exact hq) e
  have hmarked : (v.onWright x (markedOut e)).wright x = markedOut e (v.wright x) := wright_onWright _ _ _
  have hmk : kept (v.onWright x (markedOut e)).hub = kept v.hub := rfl
  have hidle : ((v.wrightOut x e).wright x).run = none := hout.idle (by rw [hmarked, hwright]; exact hr)
  have hstop := stopRun_idle hidle stEngineOut
  refine ⟨?_, hstop.idle hidle, ?_⟩
  · rw [hstop.out, hout.out, hmarked]
    rfl
  · rw [hstop.kept, hout.kept, hmk, hk]

/-- An engine returns zeroed. -/
theorem engineIn_in (w : Work) (x : Nat) : ((w.engineIn x).wright x).out = false ∧ ((w.engineIn x).wright x).mem = [] ∧ kept (w.engineIn x).hub = kept w.hub := by
  unfold Work.engineIn Work.wrightZero
  have hin := (closeInbox_steady (g := x) w x).kept
  generalize w.closeInbox x = v at hin
  refine ⟨?_, ?_, hin⟩
  · rw [wright_onWright]
  · rw [wright_onWright, wright_onWright]

end

end Sys2Proof.Machine
end

section
/-! PROOFS. Orders that take units out of service and in, retrain them, reset the hub, end a replacement (R116, R203, R524, R555-R561). -/

namespace Sys2Proof.Machine

/-! ## Sites (R116) -/

/-- A serving site without tokens outstanding and without a recalibration is declared dead: what its tenants, the memory units and the services keep stands. -/
theorem deadAgent_kept {w : Work} {n : Nat} (c : Nat) (hs : siteServing (w.site n) = true) (hr : (w.site n).recal = none) (ht : (w.site n).port.tokIns = []) (hq : (w.site n).port.tokQueue = []) :
    kept (w.deadAgent n c).hub = kept w.hub := by
  have h6 : (w.site n).state ≠ 6 := by intro h; simp [siteServing, h] at hs
  have h4 : (w.site n).state ≠ 4 := by intro h; simp [siteServing, h] at hs
  unfold Work.deadAgent
  simp only [h6, h4, hs, hr, decide_false, Bool.false_and, Bool.not_true, if_false, Bool.false_eq_true]
  have hreset : kept (w.siteReset n).hub = kept w.hub := by
    have h := congrArg kept (siteReset_same w n)
    exact h
  generalize hv : Work.clearMarks _ (fun e => decide (e.kind = 1) && decide (e.site = n)) = v
  have hkept : kept v.hub = kept w.hub := by rw [← hv]; exact hreset
  have hport : (v.site n).port = (w.site n).port := by
    rw [← hv]
    have clear (x : Work) (f : ExpEntry → Bool) : (x.clearMarks f).site n = x.site n := rfl
    rw [clear]
    simp
  have hclosed : v.closeTokIns n = v.onSPort n fun p => { p with tokIns := [], tokQueue := [], tokWithheld := false } := by
    simp [Work.closeTokIns, hport, ht, hq]
  have hwithdraw (x : Work) : kept (x.withdrawSite n).hub = kept x.hub := (withdrawWaits_steady (g := 0) (x.onHelm _) _).kept
  have hall : kept ((v.closeTokIns n).withdrawSite n).hub = kept w.hub := by
    rw [hwithdraw, hclosed]
    exact hkept
  generalize (v.closeTokIns n).withdrawSite n = u at hall
  have hoff : kept (if decide (c = 17) || decide (c = 20) then u.sitePowerOff n else u).hub = kept w.hub := by
    split
    · have h := congrArg kept (sitePowerOff_same u n)
      exact h.trans hall
    · exact hall
  generalize (if decide (c = 17) || decide (c = 20) then u.sitePowerOff n else u) = x at hoff
  have hlog := (siteLog_reports x n (if decide (c = 20) || decide (c = 21) then 1 else 2) 3 c 0 0).trans (irqs_reports _ (Work.portsOfSite (x.siteLog n (if decide (c = 20) || decide (c = 21) then 1 else 2) 3 c) n) 1)
  exact ((hlog.steady (g := 0)).kept).trans hoff

theorem calm_of_kept {w w' : Work} (h : kept w'.hub = kept w.hub) (hc : w.calm) : w'.calm := by
  simp only [kept, Prod.mk.injEq] at h
  obtain ⟨hm, hi, hw, hb, -⟩ := h
  unfold Work.calm
  rw [hm, hi, hw, hb]
  exact hc

theorem svc_of_kept {w w' : Work} (h : kept w'.hub = kept w.hub) : w'.hub.svc = w.hub.svc := congrArg (fun x => x.2.2.2.2.1) h
theorem purser_of_kept {w w' : Work} (h : kept w'.hub = kept w.hub) : w'.hub.purser = w.hub.purser := congrArg (fun x => x.2.2.2.2.2.1) h

theorem kept_of_sites {w w' : Work} (h : Same offSites w w') : kept w'.hub = kept w.hub := by
  have e := congrArg kept h
  exact e

/-! ## What the orders do -/

section
variable {w : Work} {o : OrderHdr}

/-- An order recorded with the unit that it acts on (R557). -/
def Work.actsOn (w : Work) (o : OrderHdr) (code kind unit : Nat) : Work := (w.recorded o code).onSvc fun x => { x with action := some (kind, unit) }

theorem orderOk_calm (h : w.calm) (o : OrderHdr) : (w.orderOk o).calm := h
theorem recorded_calm (h : w.calm) (o : OrderHdr) (code : Nat) : (w.recorded o code).calm := h
theorem actsOn_calm (h : w.calm) (o : OrderHdr) (code kind unit : Nat) : (w.actsOn o code kind unit).calm := h

theorem doDeadAgent_acts (hm : w.mute = false) (hc : o.order = 0x0056) (hok : w.orderBad o roleService = none) {n : Nat} (hn : n < 16) :
    w.doDeadAgent o n = ((w.recorded o 0x0056).deadAgent n 23).orderOk o := order_acts hm hc hok (if_neg (Nat.not_le.2 hn)) _

theorem doUnitOut_engine_acts (hm : w.mute = false) (hc : o.order = 0x0053) (hok : w.orderBad o roleService = none) {g : Nat} (hg : g < 64) (hin : (w.wright g).out = false) :
    w.doUnitOut o 1 g = ((w.actsOn o 0x0053 1 g).engineOut g none 0).orderOk o := by
  unfold Work.doUnitOut
  refine (order_acts hm hc hok (if_neg ?_) _).trans ?_
  · simpa [kindUnits] using hg
  · have hin' : ((w.actsOn o 0x0053 1 g).wright g).out = false := hin
    exact congrArg (fun u : Work => u.orderOk o) (if_neg (Bool.eq_false_iff.1 hin'))

theorem doUnitIn_engine_acts (hm : w.mute = false) (hc : o.order = 0x0054) (hok : w.orderBad o roleService = none) {g : Nat} (hg : g < 64) (hout : (w.wright g).out = true) (hfailed : (w.wright g).failed = false)
    (hrun : (w.wright g).run = none) : w.doUnitIn o 1 g true = ((w.actsOn o 0x0054 1 g).engineIn g).orderOk o := by
  unfold Work.doUnitIn
  refine (order_acts hm hc hok ?_ _).trans ?_
  · rw [if_neg (by simpa [kindUnits] using hg)]
    simp [Work.unitStays, hout, hfailed, hrun]
  · have hout' : ((w.actsOn o 0x0054 1 g).wright g).out = true := hout
    exact congrArg (fun u : Work => u.orderOk o) (if_pos hout')

theorem doRecal_bundle_acts (hm : w.mute = false) (hc : o.order = 0x0055) (hok : w.orderBad o roleService = none) {n k : Nat} (hn : n < 16) (hk : k < 16) (hs : siteServing (w.site n) = true)
    (ha : (w.bundle n k).active = true) : w.doRecal o 0 n k = ((w.actsOn o 0x0055 10 (n * 16 + k)).retrain n k).orderOk o := by
  unfold Work.doRecal
  refine (order_acts hm hc hok ?_ _).trans rfl
  simp [Work.recalBad, hn, hk, hs, ha]

theorem doReset_acts (hm : w.mute = false) (hc : o.order = 0x0052) (hok : w.orderBad o roleService = none) (cold : Bool) (hoff : w.resetHeldOff = false) :
    w.doReset o cold false = (((w.recorded o 0x0052).orderOk o).onStart fun x => { x with restarted := false }).hubReset cold := by
  unfold Work.doReset
  refine (order_acts hm hc hok rfl _).trans ?_
  have hoff' : (((w.recorded o 0x0052).orderOk o).onStart fun x => { x with restarted := false }).resetHeldOff = false := hoff
  exact if_neg (Bool.eq_false_iff.1 hoff')

end

/-! ## A reset (R524, R591) -/

theorem lookupCell_filter {m : List Host.Cell} {f : Host.Cell → Bool} {a : Nat} (h : ∀ v, f (a, v) = false) : lookupCell (m.filter f) a = 0 := by
  induction m with
  | nil => rfl
  | cons x r ih =>
    obtain ⟨k, v⟩ := x
    rw [List.filter_cons]
    split
    · next hf =>
      have hk : ¬ k = a := by
        intro hk
        rw [hk, h v] at hf
        cases hf
      rw [lookupCell]
      simp [hk, ih]
    · exact ih

/-- A wiped byte reads 0. -/
theorem byte_wipe {m : Mem} {a n x : Nat} (hlow : a ≤ x) (hhigh : x < a + n) : (m.apply (.wipe a n)).byte x = 0 := by
  refine lookupCell_filter fun v => ?_
  simp only [Bool.or_eq_false_iff, decide_eq_false_iff_not]
  omega

theorem mem_tset {α : Type} {t : Tab α} {i : Nat} {a : α} {x : Nat × α} (h : x ∈ tset t i a) : x.2 = a ∨ x ∈ t := by
  induction t with
  | nil =>
    rw [tset, List.mem_singleton] at h
    exact .inl (by rw [h])
  | cons y r ih =>
    obtain ⟨k, b⟩ := y
    unfold tset at h
    grind

theorem foldl_open_berths (l : List Nat) (t : Tab Berth) (h : ∀ x ∈ t, x.2.unbind = none ∧ x.2.state ≠ .closing) :
    ∀ x ∈ l.foldl (fun t b => tset t b ({ state := .open } : Berth)) t, x.2.unbind = none ∧ x.2.state ≠ .closing := by
  induction l generalizing t with
  | nil => exact h
  | cons b l ih =>
    refine ih _ fun x hx => ?_
    rcases mem_tset hx with hx | hx
    · rw [hx]
      exact ⟨rfl, by decide⟩
    · exact h x hx

/-- A reset hub has nothing to settle. -/
theorem hubReset_calm (w : Work) (cold : Bool) : (w.hubReset cold).calm := by
  rw [hubReset_eq]
  generalize w.resetClears = v
  have hb := foldl_open_berths v.hub.ten.mgrNext [] fun x hx => absurd hx List.not_mem_nil
  exact ⟨rfl, rfl, rfl, rfl, fun x hx => (hb x hx).1, fun x hx => (hb x hx).2⟩

/-- Local memory of the Hold reads 0 after a reset. -/
theorem hubReset_wiped (s : State) (w : Work) (cold : Bool) : (s.commit (w.hubReset cold)).mem.byte 0x004000000000 = 0 := by
  rw [hubReset_eq]
  generalize w.resetClears = v
  show (s.mem.applyAll (MemOp.wipe 0x004000000000 (48 * 2 ^ 24) :: v.writes).reverse).byte 0x004000000000 = 0
  rw [List.reverse_cons, Mem.applyAll, List.foldl_append]
  exact byte_wipe (Nat.le_refl _) (by decide)

section
variable {s : State} {o : OrderHdr}

theorem resetOrder_resets {x : Bool} (hp : ServicePasses s o 0x0052 7) (hoff : s.work.resetHeldOff = false) : Does (.resetOrder o x false) s fun t =>
    t.hub.start.hubRstN = false ∧ (t.hub.ledger, t.hub.fabric) = ({}, {}) ∧ t.hub.chart = {} ∧ t.hub.helm = {} ∧ t.hub.bearings.length + t.hub.tables.length + t.hub.wrights.length = 0 ∧ t.hub.memory.owner.length = 0
    ∧ t.hub.ten.mgr = s.hub.ten.mgrNext ∧ t.hub.purser.nonces = [] ∧ t.hub.purser.warrantStored = s.hub.purser.warrantStored ∧ t.mem.byte 0x004000000000 = 0 := by
  refine does_runAll (exec_resetOrder o x false s) ?_
  rw [heldBack_runs hp.mute hp.state, doReset_acts hp.mute hp.code hp.ok x hoff, settle_calm _ (hubReset_calm _ _)]
  have hwiped := hubReset_wiped s (((s.work.recorded o 0x0052).orderOk o).onStart fun x => { x with restarted := false }) x
  have hsame := resetClears_same (((s.work.recorded o 0x0052).orderOk o).onStart fun x => { x with restarted := false })
  have hten := congrArg (fun h : Hub => h.ten.mgrNext) hsame
  have hpurser := congrArg (fun h : Hub => h.purser.warrantStored) hsame
  rw [hubReset_eq] at hwiped ⊢
  generalize (((s.work.recorded o 0x0052).orderOk o).onStart fun x => { x with restarted := false }).resetClears = v at *
  exact ⟨rfl, rfl, rfl, rfl, rfl, rfl, hten, rfl, hpurser, hwiped⟩

theorem deadAgent_dies {n : Nat} (hp : ServicePasses s o 0x0056 7) (hn : n < 16) (hs : siteServing (s.work.site n) = true) (hr : (s.work.site n).recal = none) (ht : (s.work.site n).port.tokIns = [])
    (hq : (s.work.site n).port.tokQueue = []) : Does (.deadAgent o n) s fun t =>
      (t.work.site n).state = 4 ∧ (t.work.site n).cause = 23 ∧ (t.work.site n).reclaiming = true ∧ (t.work.site n).power.rstN = false ∧ ServiceDone s o [] t := by
  obtain ⟨hstate, hcause, hreclaim, -, hrst, -⟩ := deadAgent_serving (s.work.recorded o 0x0056) n 23 hs hr ht hq
  have hkept := deadAgent_kept (w := s.work.recorded o 0x0056) 23 hs hr ht hq
  have hcalm := orderOk_calm (calm_of_kept hkept (recorded_calm (work_calm hp.calm) _ _)) o
  refine does_service hp (exec_deadAgent o n s) (doDeadAgent_acts hp.mute hp.code hp.ok hn) hcalm ?_
  have hsvc := congrArg Svc.order (svc_of_kept hkept)
  have hpurser := congrArg Purser.nonces (purser_of_kept hkept)
  generalize (s.work.recorded o 0x0056).deadAgent n 23 = v at *
  exact ⟨hstate, hcause, hreclaim, hrst, serviceDone hp hsvc hpurser⟩

theorem unitOut_engine {g : Nat} (hp : ServicePasses s o 0x0053 7) (hg : g < 64) (hin : (s.work.wright g).out = false) (hr : (s.work.wright g).run = none) (hq : (s.work.wright g).queue = []) : Does (.unitOut o 1 g) s fun t =>
    (t.work.wright g).out = true ∧ (t.work.wright g).run = none ∧ t.hub.svc.action = some (1, g) ∧ ServiceDone s o [] t := by
  obtain ⟨hout, hidle, hkept⟩ := engineOut_idle (w := s.work.actsOn o 0x0053 1 g) (x := g) hr hq none
  refine does_service hp (exec_unitOut o 1 g s) (doUnitOut_engine_acts hp.mute hp.code hp.ok hg hin) (orderOk_calm (calm_of_kept hkept (actsOn_calm (work_calm hp.calm) _ _ _ _)) o) ?_
  have hsvc := svc_of_kept hkept
  have hpurser := congrArg Purser.nonces (purser_of_kept hkept)
  generalize (s.work.actsOn o 0x0053 1 g).engineOut g none 0 = v at *
  exact ⟨hout, hidle, congrArg Svc.action hsvc, serviceDone hp (congrArg Svc.order hsvc) hpurser⟩

theorem unitIn_engine {g : Nat} (hp : ServicePasses s o 0x0054 7) (hg : g < 64) (hout : (s.work.wright g).out = true) (hfailed : (s.work.wright g).failed = false) (hr : (s.work.wright g).run = none) : Does (.unitIn o 1 g true) s fun t =>
    (t.work.wright g).out = false ∧ (t.work.wright g).mem = [] ∧ t.hub.svc.action = some (1, g) ∧ ServiceDone s o [] t := by
  obtain ⟨hin, hmem, hkept⟩ := engineIn_in (s.work.actsOn o 0x0054 1 g) g
  refine does_service hp (exec_unitIn o 1 g true s) (doUnitIn_engine_acts hp.mute hp.code hp.ok hg hout hfailed hr) (orderOk_calm (calm_of_kept hkept (actsOn_calm (work_calm hp.calm) _ _ _ _)) o) ?_
  have hsvc := svc_of_kept hkept
  have hpurser := congrArg Purser.nonces (purser_of_kept hkept)
  generalize (s.work.actsOn o 0x0054 1 g).engineIn g = v at *
  exact ⟨hin, hmem, congrArg Svc.action hsvc, serviceDone hp (congrArg Svc.order hsvc) hpurser⟩

/-- The hub without its sites, its service record and its Purser. -/
def offSitesSvc (h : Hub) : Hub := { h with sites := [], svc := {}, purser := {} }

theorem sitesSvc_of_sites {w w' : Work} (h : Same offSites w w') : Same offSitesSvc w w' := by
  have e := congrArg (fun h : Hub => ({ h with svc := {}, purser := {} } : Hub)) h
  exact e

theorem within_sitesSvc {w : Work} (h : Same offSitesSvc s.work w) : Within s (s.commit w) fun h => { h with sites := w.hub.sites, svc := w.hub.svc, purser := w.hub.purser } :=
  ⟨rfl, congrArg (fun q : Hub => { q with sites := w.hub.sites, svc := w.hub.svc, purser := w.hub.purser }) h⟩

theorem recal_retrains {n k : Nat} (hp : ServicePasses s o 0x0055 7) (hn : n < 16) (hk : k < 16) (hs : siteServing (s.work.site n) = true) (ha : (s.work.bundle n k).active = true) (hr : (s.work.bundle n k).retraining = false)
    (hl : (s.work.site n).link.limp = .off) (ho : othersOf (s.work.site n).link k ≠ []) : Does (.recal o 0 n k) s fun t =>
      (t.work.bundle n k).retraining = true ∧ t.hub.svc.action = some (10, n * 16 + k) ∧ ServiceDone s o [] t ∧ Within s t (fun h => { h with sites := t.hub.sites, svc := t.hub.svc, purser := t.hub.purser }) := by
  have hgo : (s.work.actsOn o 0x0055 10 (n * 16 + k)).retrain n k = (s.work.actsOn o 0x0055 10 (n * 16 + k)).retrainGo n k := by
    have hsite : (s.work.actsOn o 0x0055 10 (n * 16 + k)).site n = s.work.site n := rfl
    have hbundle : (s.work.actsOn o 0x0055 10 (n * 16 + k)).bundle n k = s.work.bundle n k := rfl
    exact retrain_eq_go (by rw [hbundle, ha]) (by rw [hbundle, hr]) (by rw [hsite, hs]) (by rw [hsite, hl]) (by rw [hsite]; exact ho)
  have hgoes := retrainGo_retrains (s.work.actsOn o 0x0055 10 (n * 16 + k)) (n := n) (k := k) (bundle_listed (.inl ha))
  have hkept := kept_of_sites hgoes.same
  have hbefore : Same offSitesSvc s.work (s.work.actsOn o 0x0055 10 (n * 16 + k)) := rfl
  have hwithin := within_sitesSvc (hbefore.trans (sitesSvc_of_sites hgoes.same))
  have hacts := doRecal_bundle_acts hp.mute hp.code hp.ok hn hk hs ha
  rw [hgo] at hacts
  refine does_service hp (exec_recal o 0 n k s) hacts (orderOk_calm (calm_of_kept hkept (actsOn_calm (work_calm hp.calm) _ _ _ _)) o) ?_
  have hsvc := svc_of_kept hkept
  have hpurser := congrArg Purser.nonces (purser_of_kept hkept)
  have hretraining := hgoes.retraining
  generalize (s.work.actsOn o 0x0055 10 (n * 16 + k)).retrainGo n k = v at *
  exact ⟨hretraining, congrArg Svc.action hsvc, serviceDone hp (congrArg Svc.order hsvc) hpurser, hwithin⟩

end

/-! ## The end of a replacement (R559) -/

/-- A unit's new firmware is measured, the unit no longer replaced. -/
def Work.replaced (w : Work) (i : Nat) : Work :=
  (((w.onPurser fun p => { p with meas := tset p.meas 0x13 (Config.digest 2 [3, w.hub.svc.replaceVersion]) }).onSvc fun x => { x with replacing := none, partly := false }).onSvc fun x => { x with out := rmv x.out (0, i) })

theorem runHeld_none {w : Work} (h : w.hub.heldOrders = []) (late : Bool) : w.runHeld late = w := by
  unfold Work.runHeld
  dsimp only
  rw [h, each_nil]
  unfold Work.onHub
  rw [← h]

/-- What UNIT_REPLACE_DONE does for a unit that runs its new firmware. -/
def Work.replaceEnds (w : Work) : Work :=
  match w.hub.svc.replacing with
  | none => w
  | some (u, i) =>
    if !w.replaceDrained u i then w
    else
      let v := w.onPurser fun p => { p with meas := tset p.meas (replaceIndex u) (Config.digest 2 [replaceIndex u - 0x10, w.hub.svc.replaceVersion]) }
      let v := ((v.onSvc fun x => { x with replacing := none, partly := false }).onSvc fun x => { x with out := rmv x.out (u, i) }).log { cls := 0x14, sev := 0, cause := 0x8016, unit := u, detail := i }
      ((v.unitResumes u i).orderReply true 0x0043 rpOk w.hub.svc.replaceNonce).runHeld false

theorem exec_unitReplaceDone (s : State) : exec (.unitReplaceDone true) s = s.runAll Work.replaceEnds := rfl

theorem replaceEnds_fabric {w : Work} {i : Nat} (hr : w.hub.svc.replacing = some (0, i)) (hd : w.replaceDrained 0 i = true) :
    w.replaceEnds = (((w.replaced i).log { cls := 0x14, sev := 0, cause := 0x8016, unit := 0, detail := i }).orderReply true 0x0043 rpOk w.hub.svc.replaceNonce).runHeld false := by
  unfold Work.replaceEnds
  rw [hr]
  dsimp only
  rw [if_neg (by rw [hd]; decide)]
  rfl

theorem unitReplaceDone_ends {s : State} {i : Nat} (hcalm : s.work.calm) (hr : s.work.hub.svc.replacing = some (0, i)) (hd : s.work.replaceDrained 0 i = true) (hh : s.work.hub.heldOrders = []) : Does (.unitReplaceDone true) s fun t =>
    t.hub.svc.replacing = none ∧ t.hub.svc.partly = false ∧ tfind t.hub.purser.meas 0x13 = some (Config.digest 2 [3, s.hub.svc.replaceVersion]) ∧ .order true 0x0043 0 s.hub.svc.replaceNonce [] ∈ t.hub.sent
    ∧ Within s t (fun h => { h with svc := t.hub.svc, purser := t.hub.purser }) := by
  have hlog := log_reports (w := s.work.replaced i) { cls := 0x14, sev := 0, cause := 0x8016, unit := 0, detail := i }
  have hsame : Same offSvc s.work (s.work.replaced i) := rfl
  have hwithin := within_svc (hsame.trans (hlog.same offSvc))
  have hheld : (s.work.replaced i).hub.heldOrders = [] := hh
  replace hheld := hlog.heldOrders.trans hheld
  have hbefore : (s.work.replaced i).calm := hcalm
  replace hcalm := hlog.calm hbefore
  have hsvc := hlog.svc
  have hpurser := congrArg Purser.meas hlog.purser
  refine does_runAll (exec_unitReplaceDone s) ?_
  rw [replaceEnds_fabric hr hd]
  generalize Work.log _ _ = v at *
  have hheld' : (v.orderReply true 0x0043 rpOk s.work.hub.svc.replaceNonce).hub.heldOrders = [] := hheld
  have hcalm' : (v.orderReply true 0x0043 rpOk s.work.hub.svc.replaceNonce).calm := hcalm
  rw [runHeld_none hheld', settle_calm _ hcalm']
  refine ⟨congrArg Svc.replacing hsvc, congrArg Svc.partly hsvc, ?_, List.mem_cons_self .., hwithin⟩
  exact (congrArg (fun t => tfind t 0x13) hpurser).trans (tfind_tset_self _ _ _)

/-- Settles O52: each order that passes acts on the work on which it is recorded; those on units come to the unit's own lemma. -/
theorem hubOrders : Obligations.HubOrders := by
  unfold Obligations.HubOrders
  intro passes done
  have hpass {s : State} {o : OrderHdr} {code role : Nat} (h : passes s o code role) : ServicePasses s o code role := ⟨⟨h.1, h.2.1, h.2.2.2.1, h.2.2.2.2.1, h.2.2.2.2.2⟩, h.2.2.1⟩
  refine ⟨fun s o a n hp h0 hn ha hgap => logRead_reads (hpass hp) h0 hn ha hgap, fun s o x hp hoff _ => resetOrder_resets (hpass hp) hoff,
    fun s o n hp hn hs hr ht hq _ _ => deadAgent_dies (hpass hp) hn hs hr ht hq, fun s o b hp => assured_set (hpass hp),
    fun s o g hp hg hin hr hq _ _ => unitOut_engine (hpass hp) hg hin hr hq, fun s o g hp hg hout hf hr => unitIn_engine (hpass hp) hg hout hf hr,
    fun s o p b hp h4 => unitIn_port (hpass hp) h4, fun s o n k hp hn hk hs ha hr hl ho => recal_retrains (hpass hp) hn hk hs ha hr hl ho,
    fun s o n hp hlow hhigh => imageBegin_begins (hpass hp) hlow hhigh, fun s o a d x hp hx hrec hd hlen => imageChunk_takes (hpass hp) hx hrec hd hlen,
    fun s o x f b c hp hx hrec hf => imageCommit_commits (hpass hp) hx hrec hf, fun s o u i f hp hnone hu hi hv hf => unitReplace_begins (hpass hp) hnone hu hi hv hf,
    fun s i hcalm hr hd hh => unitReplaceDone_ends (work_calm hcalm) hr hd hh⟩

end Sys2Proof.Machine
end

section
/-! PROOFS. Burns, resets, the end of a start, rails and clocks, the detection of faults (R474, R524, R529, R532, R538, R541, R545, R546, R593, R599). -/

namespace Sys2Proof.Machine

/-- Where nothing waits to settle, a command that settles does what its work says. -/
theorem does_calm {s : State} {c : Instr} {f : Work → Work} {u : Work} {P : State → Prop} (hexec : exec c s = s.runAll f) (hf : f s.work = u) (hc : u.calm) (hu : P (s.commit u)) : Does c s P := by
  refine does_runAll hexec ?_
  rw [hf, settle_calm _ hc]
  exact hu

/-- The hub without its Purser, or without its start, its board, both of these with the Purser. -/
def offPurser (h : Hub) : Hub := { h with purser := {} }
def offStart (h : Hub) : Hub := { h with start := {} }

section
variable {s : State} {w : Work}

theorem within_purser (h : Same offPurser s.work w) : Within s (s.commit w) fun h => { h with purser := w.hub.purser } :=
  ⟨rfl, congrArg (fun q : Hub => { q with purser := w.hub.purser }) h⟩

theorem within_start (h : Same offStart s.work w) : Within s (s.commit w) fun h => { h with start := w.hub.start } :=
  ⟨rfl, congrArg (fun q : Hub => { q with start := w.hub.start }) h⟩

theorem within_reports (h : Reports s.work w) : Within s (s.commit w) id := ⟨rfl, h⟩

end

/-! ## The end of a burn (R474) -/

/-- What the verify read of a burn does (R474). -/
def Work.burnRead (w : Work) (n : Nat) : Work :=
  match w.hub.purser.intent with
  | none => w
  | some i =>
    if !i.burning then w
    else
      let ends (st sev : Nat) : Work :=
        let v := w.onPurser fun p => { p with fuseCode := i.source ||| (n &&& i.target), intent := some { i with burning := false } }
        ((v.orderReply true 0x0020 st i.nonce).log { cls := 0x10, sev := sev, cause := st, detail := i.source ||| (n &&& i.target) }).burnOver
      if i.source ||| (n &&& i.target) = i.target then ends rpBurnt 0
      else if !i.retried then w.onPurser fun p => { p with fuseCode := i.source ||| (n &&& i.target), intent := some { i with retried := true } }
      else ends rpFailed 3

theorem exec_lcBurnDone (n : Nat) (s : State) : exec (.lcBurnDone n) s = s.runAll fun w => w.burnRead n := rfl

/-- Where nothing was held off by a burn, its end brings nothing more. -/
theorem burnOver_quiet {w : Work} (hr : w.hub.start.resetHeld = false) (hp : ∀ p < 4, (w.port p).perstHeld = false) : w.burnOver = w := by
  rw [Work.burnOver, if_neg (by rw [hr]; decide)]
  have h (l : List Nat) (hl : ∀ p ∈ l, p < 4) : each l (fun p w => if (w.port p).perstHeld then (w.linkLost p 10).onPort p fun x => { x with perstN := false, perstHeld := false, configReady := false } else w) w = w := by
    induction l with
    | nil => rfl
    | cons p l ih =>
      rw [each_cons, if_neg (by rw [hp p (hl p (List.mem_cons_self ..))]; decide)]
      exact ih fun q hq => hl q (List.mem_cons_of_mem _ hq)
  exact h _ fun p hp => List.mem_range.1 hp

theorem PortsKept.perstHeld {w w' : Work} (h : PortsKept w w') (p : Nat) : (w'.port p).perstHeld = (w.port p).perstHeld := by have e := congrArg Port.perstHeld (h p); exact e

/-- The reply of a burn that reads back its target (R474). -/
def Work.burnt (w : Work) (i : Intent) : Work := (w.onPurser fun p => { p with fuseCode := i.target, intent := some { i with burning := false } }).orderReply true 0x0020 rpBurnt i.nonce

theorem burnRead_done {w : Work} {i : Intent} {n : Nat} (hi : w.hub.purser.intent = some i) (hb : i.burning = true) (hn : i.source ||| (n &&& i.target) = i.target) (hr : w.hub.start.resetHeld = false)
    (hp : ∀ p < 4, (w.port p).perstHeld = false) : w.burnRead n = (w.burnt i).log { cls := 0x10, sev := 0, cause := rpBurnt, detail := i.target } := by
  have hkept := log_portsKept (w.burnt i) { cls := 0x10, sev := 0, cause := rpBurnt, detail := i.target }
  have hreports := log_reports (w := w.burnt i) { cls := 0x10, sev := 0, cause := rpBurnt, detail := i.target }
  have hquiet := burnOver_quiet (w := (w.burnt i).log { cls := 0x10, sev := 0, cause := rpBurnt, detail := i.target }) ((congrArg Start.resetHeld hreports.start).trans hr) fun p h => (hkept.perstHeld p).trans (hp p h)
  unfold Work.burnRead
  rw [hi]
  dsimp only
  rw [if_neg (by rw [hb]; decide), if_pos hn, hn]
  exact hquiet

theorem lcBurnDone_done {s : State} {i : Intent} {n : Nat} (hc : s.work.calm) (hi : s.work.hub.purser.intent = some i) (hb : i.burning = true) (hn : i.source ||| (n &&& i.target) = i.target)
    (hr : s.work.hub.start.resetHeld = false) (hp : ∀ p < 4, (s.work.port p).perstHeld = false) : Does (.lcBurnDone n) s fun t =>
    t.hub.purser = { s.hub.purser with fuseCode := i.target, intent := some { i with burning := false } } ∧ .order true 0x0020 2 i.nonce [] ∈ t.hub.sent ∧ Within s t (fun h => { h with purser := t.hub.purser }) := by
  have hreports := log_reports (w := s.work.burnt i) { cls := 0x10, sev := 0, cause := rpBurnt, detail := i.target }
  have hsent := (log_signals (s.work.burnt i) (e := { cls := 0x10, sev := 0, cause := rpBurnt, detail := i.target }) (by show (0x10 : Nat) % 256 ≠ 0; decide)).sent_subset
  have hsame : Same offPurser s.work (s.work.burnt i) := rfl
  have hbefore : (s.work.burnt i).calm := hc
  have hcalm := hreports.calm hbefore
  have hpurser := hreports.purser
  have hwithin := within_purser (hsame.trans (hreports.same offPurser))
  have hmem : Out.order true 0x0020 2 i.nonce [] ∈ (s.work.burnt i).hub.sent := List.mem_cons_self ..
  refine does_calm (exec_lcBurnDone n s) (burnRead_done hi hb hn hr hp) hcalm ?_
  generalize Work.log _ _ = v at *
  exact ⟨hpurser, hsent hmem, hwithin⟩

theorem lcBurnDone_again {s : State} {i : Intent} {n : Nat} (hc : s.work.calm) (hi : s.work.hub.purser.intent = some i) (hb : i.burning = true) (hn : i.source ||| (n &&& i.target) ≠ i.target)
    (hr : i.retried = false) : Does (.lcBurnDone n) s fun t =>
    t.hub.purser = { s.hub.purser with fuseCode := i.source ||| (n &&& i.target), intent := some { i with retried := true } } ∧ Exactly s t (fun h => { h with purser := t.hub.purser }) := by
  have hread : s.work.burnRead n = s.work.onPurser fun p => { p with fuseCode := i.source ||| (n &&& i.target), intent := some { i with retried := true } } := by
    unfold Work.burnRead
    rw [hi]
    dsimp only
    rw [if_neg (by rw [hb]; decide), if_neg hn, if_pos (by rw [hr]; decide)]
  exact does_calm (exec_lcBurnDone n s) hread hc ⟨rfl, rfl, rfl, rfl⟩

/-! ## Resets (R524, R593, R599) -/

theorem exec_hubRstNAssert (s : State) : exec .hubRstNAssert s = s.runAll fun w =>
    if (w.onStart fun x => { x with restarted := false }).hub.start.hubRstN then (w.onStart fun x => { x with restarted := false }).askReset (w.hub.start.cold && w.hub.start.state ≠ 1)
    else w.onStart fun x => { x with restarted := false } := rfl
theorem exec_railOutOfRange (r : Nat) (s : State) : exec (.railOutOfRange r) s = s.runAll fun w =>
    let v := (w.onBoard fun b => { b with railsBad := addTo b.railsBad r }).facesLow
    if v.hub.start.hubRstN then v.askReset true else v := rfl
theorem exec_railBackInRange (r : Nat) (s : State) : exec (.railBackInRange r) s = s.runAll fun w => w.onBoard fun b => { b with railsBad := rmv b.railsBad r } := rfl
theorem exec_refclkReturn (c : Nat) (s : State) : exec (.refclkReturn c) s = s.runAll fun w => w.onBoard fun b => { b with clocksLost := rmv b.clocksLost c } := rfl

/-- A clock is noted as lost. -/
def Work.clockLost (w : Work) (c : Nat) : Work := w.onBoard fun b => { b with clocksLost := addTo b.clocksLost c }

theorem exec_refclkLoss (c : Nat) (s : State) : exec (.refclkLoss c) s = s.runAll fun w =>
    if 9 ≤ c || c ∈ w.hub.board.clocksLost then w
    else if !(w.clockLost c).hub.start.hubRstN then w.clockLost c
    else if c < 4 then (w.clockLost c).linkLost c 10
    else if c < 8 then each [2 * (c - 4), 2 * (c - 4) + 1] (fun k w => if w.hportTrained k || (w.hport k).state = 4 then w.hportDown k 0 else w) (w.clockLost c)
    else ((w.clockLost c).log { cls := 0x13, sev := 4, cause := 0, unit := c }).askReset true := rfl

theorem askReset_resets {w : Work} (h : w.resetHeldOff = false) (cold : Bool) : w.askReset cold = w.hubReset cold := if_neg (Bool.eq_false_iff.1 h)

/-- A default site has no power. -/
theorem resetSite_unpowered (l : Tab Site) (f : Site → Site) (hf : ∀ x, (f x).power.pwrEn = false ∧ (f x).power.rstN = false) (n : Nat) :
    (tget ({} : Site) (l.map fun (n, x) => (n, f x)) n).power.pwrEn = false ∧ (tget ({} : Site) (l.map fun (n, x) => (n, f x)) n).power.rstN = false := by
  induction l with
  | nil => exact ⟨rfl, rfl⟩
  | cons x l ih =>
    obtain ⟨k, v⟩ := x
    rw [List.map_cons]
    dsimp only
    rw [tget]
    split
    · exact hf v
    · split
      · exact ih
      · exact ⟨rfl, rfl⟩

section
variable {s : State}

theorem hubRstNAssert_resets (hr : s.work.hub.start.hubRstN = true) (hoff : s.work.resetHeldOff = false) : Does .hubRstNAssert s fun t =>
    t.hub.start.hubRstN = false ∧ t.hub.start.coldPending = (s.hub.start.cold && decide (s.hub.start.state ≠ 1) || s.hub.start.coldPending) ∧ t.hub.purser.serial = s.hub.purser.serial ∧ t.hub.purser.nonces = []
    ∧ t.hub.ten.mgr = s.hub.ten.mgrNext ∧ (t.hub.hawser, t.hub.bin) = ({}, {}) ∧ ∀ n < 16, (t.work.site n).power.pwrEn = false ∧ (t.work.site n).power.rstN = false := by
  have hhub : (s.work.onStart fun x => { x with restarted := false }).hub.start.hubRstN = true := hr
  have hheld : (s.work.onStart fun x => { x with restarted := false }).resetHeldOff = false := hoff
  refine does_calm (exec_hubRstNAssert s) ((if_pos hhub).trans (askReset_resets hheld _)) (hubReset_calm _ _) ?_
  have hsame := resetClears_same (s.work.onStart fun x => { x with restarted := false })
  have hten := congrArg (fun h : Hub => h.ten.mgrNext) hsame
  have hpurser := congrArg (fun h : Hub => h.purser.serial) hsame
  have hcold := congrArg (fun h : Hub => h.start.coldPending) hsame
  rw [hubReset_eq]
  generalize (s.work.onStart fun x => { x with restarted := false }).resetClears = v at *
  refine ⟨rfl, congrArg (fun b => (s.hub.start.cold && decide (s.hub.start.state ≠ 1) || b)) hcold, hpurser, rfl, hten, rfl, fun n _ => ?_⟩
  exact resetSite_unpowered v.hub.sites (fun s => { filler := s.filler, interBad := s.interBad, power := { vcsPg := s.power.vcsPg, pgOut := s.power.pgOut, thermN := s.power.thermN, attnN := s.power.attnN } }) (fun x => ⟨rfl, rfl⟩) n

/-- The bond-face outputs fall: sites alone change. -/
theorem facesLow_same (w : Work) : Same offSites w w.facesLow := by
  refine .each _ _ w fun n v => ?_
  split
  · rfl
  · exact .refl _ v

theorem railOutOfRange_resets {r : Nat} (hr : s.work.hub.start.hubRstN = true) (hoff : s.work.resetHeldOff = false) : Does (.railOutOfRange r) s fun t =>
    t.hub.start.hubRstN = false ∧ t.hub.start.coldPending = true ∧ r ∈ t.hub.board.railsBad := by
  have hsame := facesLow_same (s.work.onBoard fun b => { b with railsBad := addTo b.railsBad r })
  have hstart := congrArg Hub.start hsame
  have hpurser := congrArg Hub.purser hsame
  have hboard := congrArg Hub.board hsame
  refine does_calm (exec_railOutOfRange r s) (u := (s.work.onBoard fun b => { b with railsBad := addTo b.railsBad r }).facesLow.hubReset true) ?_ (hubReset_calm _ _) ?_
  all_goals generalize (s.work.onBoard fun b => { b with railsBad := addTo b.railsBad r }).facesLow = v at *
  · have hhub : v.hub.start.hubRstN = true := (congrArg Start.hubRstN hstart).trans hr
    have hheld : v.resetHeldOff = false := by
      have hp : v.hub.purser = s.work.hub.purser := hpurser
      rw [← hoff, Work.resetHeldOff, hp, Work.resetHeldOff]
    exact (if_pos hhub).trans (askReset_resets hheld true)
  · obtain ⟨hb, hrst, hcold⟩ := hubReset_start v
    have hbad : r ∈ v.hub.board.railsBad := by
      have h := congrArg Board.railsBad hboard
      exact h ▸ (mem_addTo _ _ _).2 (.inl rfl)
    refine ⟨hrst, hcold, ?_⟩
    exact (congrArg (fun b : Board => r ∈ b.railsBad) hb).mpr hbad

theorem refclkLoss_noted {c : Nat} (hc : s.work.calm) (h9 : c < 9) (hnew : c ∉ s.work.hub.board.clocksLost) (hr : s.work.hub.start.hubRstN = false) : Does (.refclkLoss c) s fun t =>
    c ∈ t.hub.board.clocksLost ∧ Exactly s t (fun h => { h with board := t.hub.board }) := by
  have hr' : (s.work.clockLost c).hub.start.hubRstN = false := hr
  have hnew' : ¬(decide (9 ≤ c) || decide (c ∈ s.work.hub.board.clocksLost)) = true := by
    simp only [hnew, decide_false, Bool.or_false, decide_eq_true_eq]
    omega
  exact does_calm (exec_refclkLoss c s) ((if_neg hnew').trans (if_pos (by rw [hr']; rfl))) hc ⟨(mem_addTo _ _ _).2 (.inl rfl), rfl, rfl, rfl⟩

theorem refclkLoss_core (hnew : 8 ∉ s.work.hub.board.clocksLost) (hr : s.work.hub.start.hubRstN = true) (hoff : s.work.resetHeldOff = false) : Does (.refclkLoss 8) s fun t =>
    t.hub.start.hubRstN = false ∧ t.hub.start.coldPending = true ∧ 8 ∈ t.hub.board.clocksLost := by
  have hr' : (s.work.clockLost 8).hub.start.hubRstN = true := hr
  have hnew' : ¬(decide (9 ≤ 8) || decide (8 ∈ s.work.hub.board.clocksLost)) = true := by
    simp only [hnew, decide_false, Bool.or_false]
    decide
  have hlog := log_reports (w := s.work.clockLost 8) { cls := 0x13, sev := 4, cause := 0, unit := 8 }
  have hpurser : ((s.work.clockLost 8).log { cls := 0x13, sev := 4, cause := 0, unit := 8 }).hub.purser = s.work.hub.purser := hlog.purser
  have hboard := hlog.board
  have hheld : ((s.work.clockLost 8).log { cls := 0x13, sev := 4, cause := 0, unit := 8 }).resetHeldOff = false := by rw [← hoff, Work.resetHeldOff, hpurser, Work.resetHeldOff]
  refine does_calm (exec_refclkLoss 8 s) ((if_neg hnew').trans ((if_neg (by rw [hr']; decide)).trans ((if_neg (by decide)).trans ((if_neg (by decide)).trans (askReset_resets hheld true))))) (hubReset_calm _ _) ?_
  generalize (s.work.clockLost 8).log _ = v at *
  obtain ⟨hb, hrst, hcold⟩ := hubReset_start v
  refine ⟨hrst, hcold, ?_⟩
  have hlost : 8 ∈ v.hub.board.clocksLost := by rw [hboard]; exact (mem_addTo _ _ _).2 (.inl rfl)
  exact (congrArg (fun b : Board => 8 ∈ b.clocksLost) hb).mpr hlost

end

/-! ## The end of a start (R529, R538, R541) -/

/-- A start that has come to its last step goes into service (R529). -/
def Work.served (w : Work) : Work := w.onStart fun x => { x with state := 1, step := 6, restarted := false }

/-- READY rises at the ports that are up, and the start's end is logged. -/
def Work.portsReady (w : Work) : Work := (each w.portsUp (fun p w => w.readyRises p) w).log { cls := 0x13, sev := 0, cause := 0x8001 }

/-- What START_COMPLETE does. -/
def Work.startEnds (w : Work) : Work :=
  if !w.startRuns then w
  else if !(List.range 16).any fun n => siteServing (w.site n) then w.startStop 3
  else
    let v := if w.hub.start.cold then (each (List.range 4) (fun p w => w.porterTest p) w).profileStore else w
    ((v.onStart fun x => { x with state := 1, step := if w.hub.start.cold then 12 else 6, restarted := false }).portsReady).runHeld true

theorem exec_startComplete (s : State) : exec .startComplete s = s.runAll Work.startEnds := rfl
theorem exec_startStepTimeout (s : State) : exec .startStepTimeout s = s.runAll fun w => if w.startRuns then w.startStop 4 else w := rfl

theorem startEnds_warm {w : Work} (hr : w.startRuns = true) (hc : w.hub.start.cold = false) (hs : ((List.range 16).any fun n => siteServing (w.site n)) = true) : w.startEnds = w.served.portsReady.runHeld true := by
  unfold Work.startEnds
  rw [if_neg (by rw [hr]; decide), if_neg (by rw [hs]; decide), hc]
  rfl

theorem readyRises_reports (w : Work) (p : Nat) : Reports w (w.readyRises p) := Reports.trans (b := w.onPort p fun x => { x with ready := true }) rfl (raise_reports _ _ _ _)

/-- Ready ports stay so, and the port itself is. -/
theorem readyRises_ready (w : Work) (p : Nat) : ((w.readyRises p).port p).ready = true ∧ ∀ q, (w.port q).ready = true → ((w.readyRises p).port q).ready = true := by
  have hraise := raise_portsKept (w.onPort p fun x => { x with ready := true }) { port := p, func := 0 } ((w.onPort p fun x => { x with ready := true }).irqVector p 0) (4096 + 0)
  have hready (q : Nat) : ((w.readyRises p).port q).ready = ((w.onPort p fun x => { x with ready := true }).port q).ready := hraise.ready q
  refine ⟨by rw [hready, port_onPort], fun q hq => ?_⟩
  rw [hready]
  by_cases h : q = p
  · rw [h, port_onPort]
  · rw [port_onPort_ne _ _ h, hq]

theorem portsReady_reports (w : Work) : Reports w w.portsReady := (Reports.each _ _ w fun p v => readyRises_reports v p).trans (log_reports _ _)

theorem portsReady_ready (w : Work) {p : Nat} (hp : p ∈ w.portsUp) : (w.portsReady.port p).ready = true := by
  have hall : ((each w.portsUp (fun p w => w.readyRises p) w).port p).ready = true :=
    each_reaches (q := fun _ => True) (r := fun v : Work => (v.port p).ready = true) w.portsUp _ hp trivial (fun _ _ _ => trivial) (fun v _ => (readyRises_ready v p).1) fun b v _ h => (readyRises_ready v b).2 p h
  exact ((log_portsKept _ _).ready p).trans hall

section
variable {s : State}

theorem startComplete_serves (hc : s.work.calm) (hr : s.work.startRuns = true) (hcold : s.work.hub.start.cold = false) (hs : ((List.range 16).any fun n => siteServing (s.work.site n)) = true) (hh : s.work.hub.heldOrders = []) :
    Does .startComplete s fun t => t.hub.start = { s.hub.start with state := 1, step := 6, restarted := false } ∧ (∀ p ∈ s.work.portsUp, (t.work.port p).ready = true) ∧ Within s t (fun h => { h with start := t.hub.start }) := by
  have hreports := portsReady_reports s.work.served
  have hready (p : Nat) (hp : p ∈ s.work.portsUp) : (s.work.served.portsReady.port p).ready = true := portsReady_ready s.work.served hp
  have hsame : Same offStart s.work s.work.served := rfl
  have hwithin := within_start (hsame.trans (hreports.same offStart))
  have hbefore : s.work.served.calm := hc
  have hheld : s.work.served.portsReady.hub.heldOrders = [] := hreports.heldOrders.trans hh
  refine does_calm (exec_startComplete s) ((startEnds_warm hr hcold hs).trans (runHeld_none hheld true)) (hreports.calm hbefore) ⟨hreports.start, hready, hwithin⟩

theorem startStepTimeout_stops (hc : s.work.calm) (hr : s.work.startRuns = true) (hagain : s.work.hub.start.restarted = true) : Does .startStepTimeout s fun t =>
    t.hub.start = { s.hub.start with state := 3, cause := 4 } ∧ Within s t (fun h => { h with start := t.hub.start }) := by
  have hreports := log_reports (w := s.work.onStart fun x => { x with state := 3, cause := 4 }) { cls := 0x13, sev := 4, cause := 0x8002, detail := 4 }
  have hsame : Same offStart s.work (s.work.onStart fun x => { x with state := 3, cause := 4 }) := rfl
  have hbefore : (s.work.onStart fun x => { x with state := 3, cause := 4 }).calm := hc
  have hcalm := hreports.calm hbefore
  have hstart := hreports.start
  have hwithin := within_start (hsame.trans (hreports.same offStart))
  have hstop : s.work.startStop 4 = (s.work.onStart fun x => { x with state := 3, cause := 4 }).log { cls := 0x13, sev := 4, cause := 0x8002, detail := 4 } := if_pos ((congrArg Start.restarted hstart).trans hagain)
  refine does_calm (exec_startStepTimeout s) ((if_pos hr).trans hstop) hcalm ?_
  generalize Work.log _ _ = v at *
  exact ⟨hstart, hwithin⟩

/-! ## The profile (R532) -/

theorem exec_profileWrite (s : State) : exec .profileWrite s = s.runAll fun w =>
    let x := w.hub.start
    let due : Bool := match x.lastWrite with | some t => t + 10000000 ≤ w.now | none => true
    if !w.mute && x.state = 1 && x.profile.pendingWrite && due then w.profileStore else w := rfl

theorem profileWrite_writes (hc : s.work.calm) (hs : s.work.serves = true) (hp : s.work.hub.start.profile.pendingWrite = true) (hl : s.work.hub.start.lastWrite = none) : Does .profileWrite s fun t =>
    t.hub.start.profile = { s.hub.start.profile with pendingWrite := false, valid := true } ∧ t.hub.start.stored = t.hub.start.profile ∧ t.hub.start.lastWrite = some s.hub.now
    ∧ (if s.hub.start.seqA ≤ s.hub.start.seqB then t.hub.start.seqA = s.hub.start.seqB + 1 ∧ t.hub.start.seqB = s.hub.start.seqB else t.hub.start.seqB = s.hub.start.seqA + 1 ∧ t.hub.start.seqA = s.hub.start.seqA)
    ∧ Exactly s t (fun h => { h with start := t.hub.start, sent := t.hub.sent }) := by
  have hserves := hs
  simp only [Work.serves, Bool.and_eq_true, Bool.not_eq_true', decide_eq_true_eq] at hserves
  refine does_calm (exec_profileWrite s) (u := s.work.profileStore) ?_ hc ?_
  · dsimp only
    rw [hl]
    exact if_pos (by simp only [hserves.1, hserves.2, hp]; rfl)
  · refine ⟨rfl, rfl, rfl, ?_, rfl, rfl, rfl⟩
    show if s.hub.start.seqA ≤ s.hub.start.seqB then (if s.hub.start.seqA ≤ s.hub.start.seqB then max s.hub.start.seqA s.hub.start.seqB + 1 else s.hub.start.seqA) = s.hub.start.seqB + 1
        ∧ (if s.hub.start.seqA ≤ s.hub.start.seqB then s.hub.start.seqB else max s.hub.start.seqA s.hub.start.seqB + 1) = s.hub.start.seqB
      else (if s.hub.start.seqA ≤ s.hub.start.seqB then s.hub.start.seqB else max s.hub.start.seqA s.hub.start.seqB + 1) = s.hub.start.seqA + 1
        ∧ (if s.hub.start.seqA ≤ s.hub.start.seqB then max s.hub.start.seqA s.hub.start.seqB + 1 else s.hub.start.seqA) = s.hub.start.seqA
    by_cases h : s.hub.start.seqA ≤ s.hub.start.seqB
    · rw [if_pos h, if_pos h, if_pos h, Nat.max_eq_right h]
      exact ⟨rfl, rfl⟩
    · rw [if_neg h, if_neg h, if_neg h, Nat.max_eq_left (by omega)]
      exact ⟨rfl, rfl⟩

/-! ## The detection of faults (R545, R546) -/

theorem exec_selfTestSlice (x : Nat) (b : Bool) (s : State) : exec (.selfTestSlice x b) s = s.runAll fun w => if w.serves && w.hub.svc.assured && w.wrightServes x && !b then w.engineFails x else w := rfl
theorem exec_checkerInjection (c : Nat) (s : State) : exec (.checkerInjection c false) s = s.runAll fun w => if w.serves && w.hub.svc.assured && !false then w.log { cls := 0x15, sev := 2, cause := 0x8018, unit := c } else w := rfl
theorem exec_clockCheck (c : Nat) (s : State) : exec (.clockCheck c true) s = s.runAll fun w => if w.serves && true then w.log { cls := 0x15, sev := 3, cause := 0, unit := c } else w := rfl
theorem exec_watchdogExpiry (u : Nat) (s : State) : exec (.watchdogExpiry u) s = s.runAll fun w =>
    if !w.serves then w
    else
      let v := w.log { cls := 0x15, sev := 3, cause := 1, unit := u }
      if v.wrightServes u then v.engineFails u
      else if 300 ≤ u && u < 303 then v.dieFail (u - 300)
      else if 400 ≤ u && u < 528 then v.channelFail (u - 400)
      else if 700 ≤ u && u < 732 then v.sliceFail (u - 700)
      else v := rfl
theorem exec_patrol (l : List (Nat × Nat)) (s : State) : exec (.patrol l []) s = s.runAll fun w =>
    if !w.serves || !w.hub.svc.assured then w else each l (fun (p, set) w => if p < 48 && set < 65536 then w.holdCorrected p set else w) w := rfl

end

/-- The Log and the interrupts of an engine that fails (R209). -/
def Work.faultTold (w : Work) (g : Nat) : Work := (w.log { cls := 5, sev := 3, cause := stDatapath, unit := g }).irqs w.portsUp 7

theorem engineFails_eq {w : Work} {g : Nat} (hr : (w.wright g).run = none) : w.engineFails g = (w.faultTold g).wrightOut g none := by
  unfold Work.engineFails
  rw [hr]
  rfl

/-- An idle engine that fails is out. -/
theorem engineFails_idle {w : Work} {g : Nat} (hr : (w.wright g).run = none) (hq : (w.wright g).queue = []) (hc : w.calm) :
    ((w.engineFails g).wright g).out = true ∧ ((w.engineFails g).wright g).run = none ∧ (w.engineFails g).calm := by
  rw [engineFails_eq hr]
  have hreports : Reports w (w.faultTold g) := (log_reports w { cls := 5, sev := 3, cause := stDatapath, unit := g }).trans (irqs_reports _ w.portsUp 7)
  have hwright : (w.faultTold g).wright g = w.wright g := congrArg (fun l : Tab Wright => tget ({} : Wright) l g) hreports.wrights
  have hcalm := hreports.calm hc
  generalize w.faultTold g = v at *
  have hout := wrightOut_idle (w := v) (x := g) (by rw [hwright, hr]) (by rw [hwright, hq]) none
  have hmarked : (v.onWright g (markedOut none)).wright g = markedOut none (v.wright g) := wright_onWright _ _ _
  have hbefore : (v.onWright g (markedOut none)).calm := hcalm
  refine ⟨?_, hout.idle ?_, hout.calm hbefore⟩
  · rw [hout.out, hmarked]
    rfl
  · rw [hmarked]
    exact (congrArg Wright.run hwright).trans hr

section
variable {s : State}

theorem selfTestSlice_fails {g : Nat} (hc : s.work.calm) (hs : s.work.serves = true) (ha : s.work.hub.svc.assured = true) (hw : s.work.wrightServes g = true) (hr : (s.work.wright g).run = none) (hq : (s.work.wright g).queue = []) :
    Does (.selfTestSlice g false) s fun t => (t.work.wright g).out = true ∧ (t.work.wright g).run = none := by
  obtain ⟨hout, hidle, hcalm⟩ := engineFails_idle hr hq hc
  exact does_calm (exec_selfTestSlice g false s) (if_pos (by rw [hs, ha, hw]; rfl)) hcalm ⟨hout, hidle⟩

theorem watchdogExpiry_fails {g : Nat} (hc : s.work.calm) (hs : s.work.serves = true) (hw : s.work.wrightServes g = true) (hr : (s.work.wright g).run = none) (hq : (s.work.wright g).queue = []) :
    Does (.watchdogExpiry g) s fun t => (t.work.wright g).out = true ∧ (t.work.wright g).run = none := by
  have hlog := log_reports s.work { cls := 0x15, sev := 3, cause := 1, unit := g }
  have hwright : (s.work.log { cls := 0x15, sev := 3, cause := 1, unit := g }).wright g = s.work.wright g := congrArg (fun l : Tab Wright => tget ({} : Wright) l g) hlog.wrights
  have hserves : (s.work.log { cls := 0x15, sev := 3, cause := 1, unit := g }).wrightServes g = true := by rw [← hw, Work.wrightServes, hwright, Work.wrightServes]
  obtain ⟨hout, hidle, hcalm⟩ := engineFails_idle (g := g) (by rw [hwright, hr]) (by rw [hwright, hq]) (hlog.calm hc)
  exact does_calm (exec_watchdogExpiry g s) ((if_neg (by rw [hs]; decide)).trans (if_pos hserves)) hcalm ⟨hout, hidle⟩

/-- What is logged under its class stands in the management Log. -/
theorem log_mlog_ne (w : Work) {e : LogEvent} (he : e.cls % 256 ≠ 0) : (w.log e).hub.mlog ≠ w.hub.mlog := by
  intro h
  have hseq := log_seq w he
  rw [h] at hseq
  omega

/-- A fault that is logged alone. -/
theorem does_logged {c : Instr} {f : Work → Work} {e : LogEvent} (hexec : exec c s = s.runAll f) (hf : f s.work = s.work.log e) (hc : s.work.calm) (he : e.cls % 256 ≠ 0) :
    Does c s fun t => t.hub.mlog ≠ s.hub.mlog ∧ Within s t id := does_calm hexec hf ((log_reports _ e).calm hc) ⟨log_mlog_ne _ he, within_reports (log_reports _ e)⟩

/-- A corrected word of a Hold row that has had few is noted (R305). -/
theorem holdCorrected_few {w : Work} {p n : Nat} (h : (recent w.hub.now 1000000 (tget [] w.hub.memory.rowErrors (p * 65536 + n))).length < 8) :
    w.holdCorrected p n = (w.count 8 (p / 16) 4).onMem fun m => { m with rowErrors := tset m.rowErrors (p * 65536 + n) (w.hub.now :: recent w.hub.now 1000000 (tget [] w.hub.memory.rowErrors (p * 65536 + n))) } := by
  unfold Work.holdCorrected
  refine if_neg ?_
  rw [List.length_cons]
  show ¬ 8 < (recent w.hub.now 1000000 (tget [] w.hub.memory.rowErrors (p * 65536 + n))).length + 1
  omega

theorem patrol_notes {p n : Nat} (hc : s.work.calm) (hs : s.work.serves = true) (ha : s.work.hub.svc.assured = true) (hp : p < 48) (hn : n < 65536)
    (h : (recent s.work.hub.now 1000000 (tget [] s.work.hub.memory.rowErrors (p * 65536 + n))).length < 8) : Does (.patrol [(p, n)] []) s fun t =>
    tget [] t.hub.memory.rowErrors (p * 65536 + n) = s.hub.now :: recent s.hub.now 1000000 (tget [] s.hub.memory.rowErrors (p * 65536 + n)) ∧ t.mem = s.mem ∧ Within s t (fun h => { h with memory := t.hub.memory }) := by
  have hcount := count_reports s.work 8 (p / 16) 4 1
  have hmem := count_mem s.work 8 (p / 16) 4 1
  have hcalm := hcount.calm hc
  refine does_calm (exec_patrol [(p, n)] s) (u := s.work.holdCorrected p n) ?_ ?_ ?_
  · rw [if_neg (by rw [hs, ha]; decide), each_cons, each_nil]
    exact if_pos (by simp [hp, hn])
  · rw [holdCorrected_few h]
    exact hcalm
  · rw [holdCorrected_few h]
    generalize s.work.count 8 (p / 16) 4 = v at *
    refine ⟨tget_tset_self _ _ _ _, commit_mem_of_sameMem (w := v) hmem, rfl, ?_⟩
    have hsame := congrArg (fun h : Hub => ({ h with memory := (v.onMem fun m => { m with rowErrors := tset m.rowErrors (p * 65536 + n) (s.work.hub.now :: recent s.work.hub.now 1000000 (tget [] s.work.hub.memory.rowErrors (p * 65536 + n))) }).hub.memory } : Hub)) hcount
    exact hsame

end

end Sys2Proof.Machine
end

section
/-! PROOFS. A start of the hub (R454, R483, R529, R530, R533-R536, R539). -/

namespace Sys2Proof.Machine

/-! ## What the steps of a start leave (R529) -/

/-- From one work to the next the start, the warrant in force, the sites and the rate of board memory stand, ports change as by reports, and nothing more is to settle. -/
structure Begun (w w' : Work) : Prop where
  start : w'.hub.start = w.hub.start
  warrant : w'.hub.purser.warrant = w.hub.purser.warrant
  sites : w'.hub.sites = w.hub.sites
  rate : w'.hub.memory.rate = w.hub.memory.rate
  remapped : w'.hub.memory.remapped = w.hub.memory.remapped
  calm : w.calm → w'.calm
  ports : PortsKept w w'

theorem Begun.refl (w : Work) : Begun w w := ⟨rfl, rfl, rfl, rfl, rfl, id, .refl w⟩
theorem Begun.trans {a b c : Work} (h : Begun a b) (k : Begun b c) : Begun a c :=
  ⟨k.start.trans h.start, k.warrant.trans h.warrant, k.sites.trans h.sites, k.rate.trans h.rate, k.remapped.trans h.remapped, k.calm ∘ h.calm, h.ports.trans k.ports⟩
theorem Begun.each {α : Type} (l : List α) (f : α → Work → Work) (w : Work) (hf : ∀ a w, Begun w (f a w)) : Begun w (each l f w) :=
  each_keeps l f w (.refl w) fun a _ h => h.trans (hf a _)

theorem Begun.ite {w a b : Work} {c : Prop} [Decidable c] (ha : Begun w a) (hb : Begun w b) : Begun w (if c then a else b) := by
  split
  · exact ha
  · exact hb

theorem Begun.reports {w w' : Work} (h : Reports w w') (hp : PortsKept w w') : Begun w w' :=
  ⟨h.start, congrArg Purser.warrant h.purser, h.sites, congrArg MemUnits.rate h.memory, congrArg MemUnits.remapped h.memory, h.calm, hp⟩

theorem log_begun (w : Work) (e : LogEvent) : Begun w (w.log e) := .reports (log_reports w e) (log_portsKept w e)

/-- The warrant that is in force after a start: the stored one, where its floor is not below the fuses' (R483). -/
def warrantInForce (p : Purser) : Option Warrant := p.warrantStored.bind fun y => if p.warrantTherm ≤ y.floor then some y else none

/-- What step 4 leaves: the start, the sites and board memory stand, the warrant is in force (R483). -/
structure Trusted (w w' : Work) : Prop where
  start : w'.hub.start = w.hub.start
  warrant : w'.hub.purser.warrant = warrantInForce w.hub.purser
  sites : w'.hub.sites = w.hub.sites
  rate : w'.hub.memory.rate = w.hub.memory.rate
  calm : w.calm → w'.calm
  ports : PortsKept w w'

theorem Trusted.begun {a b c : Work} (h : Trusted a b) (k : Begun b c) : Trusted a c :=
  ⟨k.start.trans h.start, k.warrant.trans h.warrant, k.sites.trans h.sites, k.rate.trans h.rate, k.calm ∘ h.calm, h.ports.trans k.ports⟩

theorem startTrust_trusted (w : Work) (version : Nat) : Trusted w (w.startTrust {} version) := by
  unfold Work.startTrust
  extract_lets p credsGood good x meas w1 w2 w3 pool w4
  have hgood : good = warrantInForce w.hub.purser := by
    show (match w.hub.purser.warrantStored with | some x => if true && decide (w.hub.purser.warrantTherm ≤ x.floor) then some x else none | none => none) = _
    unfold warrantInForce
    cases w.hub.purser.warrantStored with
    | none => rfl
    | some y => simp
  have h1 : Trusted w w1 := ⟨rfl, hgood, rfl, rfl, id, fun _ => rfl⟩
  have h2 : Begun w1 w2 := ⟨rfl, rfl, rfl, rfl, rfl, id, fun _ => rfl⟩
  have h3 : Begun w2 w3 := ⟨rfl, rfl, rfl, rfl, rfl, id, fun _ => rfl⟩
  have h4 : Begun w3 w4 := ⟨rfl, rfl, rfl, rfl, rfl, id, fun _ => rfl⟩
  have hall := ((h1.begun h2).begun h3).begun h4
  clear_value w4
  split
  · exact hall.begun (log_begun _ _)
  · exact hall

theorem takeVoltage_begun (w : Work) : Begun w w.takeVoltage := by
  unfold Work.takeVoltage Work.setVoltage
  exact .ite (.refl w) ⟨rfl, rfl, rfl, rfl, rfl, id, fun _ => rfl⟩

theorem profileBad_warm {p : Profile} (h : p.units = []) (u : Nat) : profileBad p false u = false := by
  simp [profileBad, h, tget]

theorem startUnits_begun {w : Work} (h : w.hub.start.profile.units = []) : Begun w (w.startUnits {} false) := by
  unfold Work.startUnits
  extract_lets p bad dies w1 w2 w3 w4 w5 logged
  have hbad (u : Nat) : bad u = false := by
    have hp := profileBad_warm (p := p) h u
    show (profileBad p false u || (false && _)) = false
    rw [hp]
    rfl
  have hnone (l : List Nat) (f : Nat → Nat) : (l.filter fun b => bad (f b)) = [] := by
    rw [List.filter_eq_nil_iff]
    intro b _
    rw [hbad]
    decide
  have h3 : Begun w w3 := ⟨rfl, rfl, rfl, rfl, rfl, id, fun _ => rfl⟩
  have h4 : w4 = w3 := by
    show Machine.each ((List.range 16).filter fun b => bad (100 + b)) _ w3 = w3
    rw [hnone, each_nil]
  have h5 : w5 = w4 := by
    show Machine.each ((List.range 32).filter fun j => bad (200 + j)) _ w4 = w4
    rw [hnone, each_nil]
  clear_value w3 w4 w5
  subst h4 h5
  exact h3.trans (.each _ _ _ fun u v => log_begun v _)

theorem derate_begun (w : Work) : Begun w w.derate := by
  have h := (derate_regulates w).hub
  refine ⟨by rw [h], by rw [h], by rw [h], by rw [h], by rw [h], fun hc => ?_, derate_portsKept w⟩
  unfold Work.calm
  rw [h]
  exact hc

/-! ## Board memory at a start (R307, R308, R312) -/

theorem trainedRate_self {r : Nat} (h : 28 ≤ r) : trainedRate r r = some r := by
  simp [trainedRate, List.range_succ, h]

/-- A start with another profile, and one whose channels have trained besides. -/
def startProfiled (x : Start) (q : Profile) : Start := { x with profile := q }
def startTrained (x : Start) (q : Profile) : Start := { x with profile := q, selfRefresh := false }

/-- What step 8 leaves where every channel trains: no channel is remapped, the profile at most takes the rates. -/
structure MemoryStarted (w w' : Work) : Prop where
  start : ∃ q : Profile, q.units = w.hub.start.profile.units ∧ w'.hub.start = startTrained w.hub.start q
  warrant : w'.hub.purser.warrant = w.hub.purser.warrant
  sites : w'.hub.sites = w.hub.sites
  remapped : w'.hub.memory.remapped = []
  calm : w.calm → w'.calm
  ports : PortsKept w w'

theorem startMemory_started {w : Work} (hu : w.hub.start.profile.units = []) (hr : w.hub.start.profile.rates = []) (hl : w.hub.start.fuses.lanes = []) (hrate : 28 ≤ w.hub.memory.rate) :
    MemoryStarted w (w.startMemory {} false) := by
  unfold Work.startMemory
  extract_lets p rate trained low lost temps w1 w2 rates w3 hubRegion own w4 w5 w6
  have htrained (c : Nat) : trained c = some rate := by
    have htarget : (if (false || decide (p.target ≠ rate)) = true then rate else tget rate p.rates c) = rate := by
      rw [show p.rates = [] from hr]
      split <;> rfl
    show trainedRate rate (if (false || decide (p.target ≠ rate)) = true then rate else tget rate p.rates c) = some rate
    rw [htarget]
    exact trainedRate_self hrate
  have hlost : lost = [] := by
    show (List.range 128).filter _ = []
    rw [List.filter_eq_nil_iff]
    intro c _
    simp [hl, htrained, profileBad_warm (p := p) hu]
  have h1 : w1.hub.memory.remapped = [] := hlost
  have h2 : w2.hub.start = w.hub.start ∧ w2.hub.purser.warrant = w.hub.purser.warrant ∧ w2.hub.sites = w.hub.sites ∧ w2.hub.memory.remapped = [] ∧ (w.calm → w2.calm) ∧ PortsKept w w2 := ⟨rfl, rfl, rfl, h1, id, fun _ => rfl⟩
  clear_value w2
  obtain ⟨hstart, hwarrant, hsites, hremapped, hcalm, hports⟩ := h2
  have h3 : (∃ q : Profile, q.units = w.hub.start.profile.units ∧ w3.hub.start = startProfiled w.hub.start q) ∧ w3.hub.purser.warrant = w.hub.purser.warrant ∧ w3.hub.sites = w.hub.sites ∧ w3.hub.memory.remapped = []
      ∧ (w.calm → w3.calm) ∧ PortsKept w w3 := by
    have hw3 : w3 = if (decide (rates = p.rates) && decide (p.target = rate)) = true then w2 else w2.onProfile fun x => { x with rates := rates, target := rate } := rfl
    clear_value w3
    rw [hw3]
    split
    · exact ⟨⟨w.hub.start.profile, rfl, hstart⟩, hwarrant, hsites, hremapped, hcalm, hports⟩
    · refine ⟨⟨{ w2.hub.start.profile with rates := rates, target := rate, pendingWrite := true }, ?_, ?_⟩, hwarrant, hsites, hremapped, hcalm, hports⟩
      · show w2.hub.start.profile.units = _
        rw [hstart]
      · exact congrArg (fun x : Start => startProfiled x { w2.hub.start.profile with rates := rates, target := rate, pendingWrite := true }) hstart
  clear_value w3
  obtain ⟨⟨q, hq, hstart3⟩, hwarrant3, hsites3, hremapped3, hcalm3, hports3⟩ := h3
  have h4 : Begun w3 w4 := ⟨rfl, rfl, rfl, rfl, rfl, id, fun _ => rfl⟩
  have h56 : Begun w4 w6 := Begun.trans (b := w5) (.each _ _ _ fun c v => log_begun v _) (.each _ _ _ fun c v => log_begun v _)
  have h6 := h4.trans h56
  clear_value w4 w5 w6
  have hrun := derate_begun (w6.onStart fun x => { x with selfRefresh := false })
  generalize (w6.onStart fun x => { x with selfRefresh := false }).derate = v at *
  refine ⟨⟨q, hq, ?_⟩, hrun.warrant.trans (h6.warrant.trans hwarrant3), hrun.sites.trans (h6.sites.trans hsites3), hrun.remapped.trans (h6.remapped.trans hremapped3), fun hc => hrun.calm (h6.calm (hcalm3 hc)), ?_⟩
  · rw [hrun.start]
    exact congrArg (fun x : Start => ({ x with selfRefresh := false } : Start)) (h6.start.trans hstart3)
  · exact (hports3.trans h6.ports).trans hrun.ports

/-! ## The last steps of a warm start (R35, R504, R533, R535) -/

theorem mapWrights_maps (w : Work) (final : Bool) : Begun (w.onStart fun x => { x with wrightMap := List.range 64 }) (w.mapWrights [] final) := by
  have hmap : wrightMapOf [] = List.range 64 := by decide
  unfold Work.mapWrights
  rw [hmap]
  refine .each _ _ _ fun n v => ?_
  dsimp only
  have hfail : Begun v ((v.onWright n fun x => { x with failed := true }).log { cls := 0x13, sev := 3, cause := 0x8004, unit := n }) :=
    Begun.trans (b := v.onWright n fun x => { x with failed := true }) ⟨rfl, rfl, rfl, rfl, rfl, id, fun _ => rfl⟩ (log_begun _ _)
  have hfirst : Begun v (if (List.range 64).getD n 255 = 255 then (v.onWright n fun x => { x with failed := true }).log { cls := 0x13, sev := 3, cause := 0x8004, unit := n } else v) := .ite hfail (.refl v)
  generalize (if (List.range 64).getD n 255 = 255 then (v.onWright n fun x => { x with failed := true }).log { cls := 0x13, sev := 3, cause := 0x8004, unit := n } else v) = u at hfirst
  exact hfirst.trans (.ite (log_begun _ _) (.refl u))

/-- From one work to the next sites and what reports change alone have changed, and no site waits to come in that did not. -/
structure SitesBegin (w w' : Work) : Prop where
  same : Same offSites w w'
  entries : (∀ n, (w.site n).inEntry = none) → ∀ n, (w'.site n).inEntry = none
  ports : PortsKept w w'

theorem SitesBegin.refl (w : Work) : SitesBegin w w := ⟨.refl _ w, id, .refl w⟩
theorem SitesBegin.trans {a b c : Work} (h : SitesBegin a b) (k : SitesBegin b c) : SitesBegin a c := ⟨h.same.trans k.same, k.entries ∘ h.entries, h.ports.trans k.ports⟩
theorem SitesBegin.ite {w a b : Work} {c : Prop} [Decidable c] (ha : SitesBegin w a) (hb : SitesBegin w b) : SitesBegin w (if c then a else b) := by
  split
  · exact ha
  · exact hb

theorem SitesBegin.onSite (w : Work) (n : Nat) (f : Site → Site) (hf : ∀ x, x.inEntry = none → (f x).inEntry = none) : SitesBegin w (w.onSite n f) := by
  refine ⟨rfl, fun h m => ?_, .elsewhere rfl⟩
  by_cases hm : m = n
  · subst hm
    rw [site_onSite]
    exact hf _ (h m)
  · rw [site_onSite_ne _ _ hm]
    exact h m

theorem SitesBegin.onSPower (w : Work) (n : Nat) (f : SPower → SPower) : SitesBegin w (w.onSPower n f) := .onSite w n _ fun _ h => h
theorem SitesBegin.emit (w : Work) (o : Out) : SitesBegin w (w.emit o) := ⟨rfl, id, .elsewhere rfl⟩

theorem SitesBegin.log (w : Work) (e : LogEvent) : SitesBegin w (w.log e) := by
  have h := log_reports w e
  refine ⟨h.same _, fun hn n => ?_, log_portsKept w e⟩
  have hsite : (w.log e).site n = w.site n := congrArg (fun l : Tab Site => tget ({} : Site) l n) h.sites
  rw [hsite]
  exact hn n

theorem siteReset_begins (w : Work) (n : Nat) : SitesBegin w (w.siteReset n) := .ite ((SitesBegin.onSPower w n _).trans (.emit _ _)) (.refl w)
theorem sitePowerOff_begins (w : Work) (n : Nat) : SitesBegin w (w.sitePowerOff n) := .ite ((SitesBegin.onSPower w n _).trans (.emit _ _)) (.refl w)

theorem startSite_begins (w : Work) (n : Nat) : SitesBegin w (w.startSite n) := by
  have hreset := siteReset_begins w n
  unfold Work.startSite
  dsimp only
  generalize w.siteReset n = v at hreset
  have hgood : SitesBegin v (if ((v.site n).power.vcsPg && !(v.site n).power.pgOut) = true then (v.onSPower n fun p => { p with pgOut := true }).sitePin (.sitePg n) true else v) :=
    .ite ((SitesBegin.onSPower v n _).trans (.emit _ _)) (.refl v)
  generalize (if ((v.site n).power.vcsPg && !(v.site n).power.pgOut) = true then (v.onSPower n fun p => { p with pgOut := true }).sitePin (.sitePg n) true else v) = u at hgood
  have hon : SitesBegin u (if (u.site n).power.pwrEn = true then u else (u.onSPower n fun p => { p with pwrEn := true }).sitePin (.sitePwrEn n) true) :=
    .ite (.refl u) ((SitesBegin.onSPower u n _).trans (.emit _ _))
  generalize (if (u.site n).power.pwrEn = true then u else (u.onSPower n fun p => { p with pwrEn := true }).sitePin (.sitePwrEn n) true) = x at hon
  exact ((hreset.trans hgood).trans hon).trans (.onSite x n _ fun _ h => h)

/-- A site begins its start or is absent, no command waiting for it. -/
theorem siteBegins_begins {w : Work} (hn : ∀ m, (w.site m).inEntry = none) (n : Nat) : SitesBegin w (w.siteBegins n) := by
  unfold Work.siteBegins
  split
  · exact startSite_begins w n
  · unfold Work.siteUnheld
    rw [hn n]
    exact .onSite w n _ fun _ _ => rfl
  · unfold Work.siteAbsent
    have hoff := (siteReset_begins w n).trans (sitePowerOff_begins _ n)
    dsimp only
    generalize (w.siteReset n).sitePowerOff n = v at hoff
    rw [hoff.entries hn n]
    exact (hoff.trans (.onSite v n _ fun _ _ => rfl)).trans (.log _ _)

theorem startSites_begins {w : Work} (hn : ∀ m, (w.site m).inEntry = none) (ev : StartEvent) (cold : Bool) : SitesBegin w (w.startSites ev cold) := by
  refine each_keeps (p := SitesBegin w) _ _ _ (.refl w) fun n v hv => hv.trans ?_
  dsimp only
  generalize hu : Work.onSite v n _ = u
  have hset : SitesBegin v u := hu ▸ .onSite v n _ fun _ h => h
  exact hset.trans (siteBegins_begins ((hv.trans hset).entries hn) n)

/-! ## A warm start (R529, R539) -/

/-- A hub from step 4 of a warm start on, nothing found bad. -/
structure WarmStart (w : Work) : Prop where
  event : w.hub.start.event = {}
  warm : w.hub.start.cold = false
  unburnt : w.hub.start.burnt = false
  units : w.hub.start.profile.units = []
  rates : w.hub.start.profile.rates = []
  lanes : w.hub.start.fuses.lanes = []
  wrights : w.hub.start.fuses.wrights = []
  rate : 28 ≤ w.hub.memory.rate
  sites : w.hub.sites = []

/-- A hub that waits at step 5 for its sites. -/
structure WarmStarted (w w' : Work) : Prop where
  start : (w'.hub.start.state, w'.hub.start.step, w'.hub.start.cold, w'.hub.start.fetchPort, w'.hub.start.wrightMap, w'.hub.start.selfRefresh, w'.hub.start.hubRstN)
    = (0, 5, false, none, List.range 64, false, w.hub.start.hubRstN)
  warrant : w'.hub.purser.warrant = warrantInForce w.hub.purser
  calm : w.calm → w'.calm
  ports : PortsKept w w'

/-- The positions that a start finds bad where nothing is. -/
theorem badPos_none {x : Start} (hu : x.profile.units = []) (hw : x.fuses.wrights = []) (l : List Nat) : ((List.range 66).filter fun u => u ∈ x.fuses.wrights || profileBad x.profile false u || (false && u ∈ l)) = [] := by
  rw [List.filter_eq_nil_iff]
  intro u _
  simp [hw, profileBad_warm hu]

theorem startGo_warm {w : Work} (h : WarmStart w) (version : Nat) : WarmStarted w (w.startGo version) := by
  unfold Work.startGo
  extract_lets ev cold w1 w2 w3 w4 p badPos w5 w6
  have hev : ev = {} := h.event
  have hcold : cold = false := h.warm
  clear_value ev cold
  subst hev hcold
  have h1 : Trusted w w1 := startTrust_trusted w version
  have hstart2 : w2.hub.start = { w.hub.start with state := 0, fetchPort := none, transfer := none } := congrArg (fun x : Start => ({ x with state := 0, fetchPort := none, transfer := none } : Start)) h1.start
  have h2 : w2.hub.purser.warrant = warrantInForce w.hub.purser ∧ w2.hub.sites = [] ∧ w2.hub.memory.rate = w.hub.memory.rate ∧ (w.calm → w2.calm) ∧ PortsKept w w2 := ⟨h1.warrant, h1.sites.trans h.sites, h1.rate, h1.calm, h1.ports⟩
  clear_value w1 w2
  obtain ⟨hwarrant2, hsites2, hrate2, hcalm2, hports2⟩ := h2
  rw [if_neg (by decide)]
  have hvoltage := takeVoltage_begun w2
  have hunits : Begun w2 (w2.takeVoltage.startUnits {} false) := hvoltage.trans (startUnits_begun (by rw [hvoltage.start, hstart2]; exact h.units))
  have hmemory : MemoryStarted (w2.takeVoltage.startUnits {} false) w3 := by
    refine startMemory_started ?_ ?_ ?_ ?_
    · rw [hunits.start, hstart2]; exact h.units
    · rw [hunits.start, hstart2]; exact h.rates
    · rw [hunits.start, hstart2]; exact h.lanes
    · rw [hunits.rate, hrate2]; exact h.rate
  clear_value w3
  generalize w2.takeVoltage.startUnits {} false = u at *
  obtain ⟨q, hq, hstart3⟩ := hmemory.start
  rw [hunits.start, hstart2] at hq hstart3
  rw [if_neg (by rw [hmemory.remapped]; decide)]
  have hw4 : w4 = w3 := if_neg (by
    rw [hstart3]
    show ¬(false || w.hub.start.burnt) = true
    rw [h.unburnt]
    decide)
  have hbad : badPos = [] := by
    have hstart4 : w4.hub.start = w3.hub.start := by rw [hw4]
    refine badPos_none (x := w4.hub.start) ?_ ?_ _
    · rw [hstart4, hstart3]; exact hq.trans h.units
    · rw [hstart4, hstart3]; exact h.wrights
  have hw6 : w6 = w4.mapWrights [] true := by
    show (if false = true then _ else w4.mapWrights badPos true) = w4.mapWrights [] true
    rw [hbad, if_neg (by decide)]
  clear_value w6 w5 badPos p w4
  rw [hw6, hw4]
  clear hw6 hbad hw4
  have hmaps := mapWrights_maps w3 true
  generalize w3.mapWrights [] true = v at *
  have hstart5 : v.hub.start = { startTrained { w.hub.start with state := 0, fetchPort := none, transfer := none } q with wrightMap := List.range 64 } :=
    hmaps.start.trans (congrArg (fun x : Start => ({ x with wrightMap := List.range 64 } : Start)) hstart3)
  have hmapped : v.hub.start.wrightMap = List.range 64 := by rw [hstart5]
  rw [if_neg (by rw [hmapped]; decide)]
  have hsites5 : v.hub.sites = [] := hmaps.sites.trans (hmemory.sites.trans (hunits.sites.trans hsites2))
  have hentries (m : Nat) : (v.site m).inEntry = none := by rw [Work.site, hsites5]; rfl
  have hsites := startSites_begins hentries {} false
  have hstart6 := congrArg Hub.start hsites.same
  have hwarrant6 := congrArg (fun h : Hub => h.purser.warrant) hsites.same
  have hcalm6 : v.calm → (v.startSites {} false).calm := calm_of_kept (kept_of_sites hsites.same)
  have hports6 := hsites.ports
  generalize v.startSites {} false = x at *
  refine ⟨?_, ?_, fun hc => ?_, ?_⟩
  · have hx : x.hub.start = v.hub.start := hstart6
    show (x.hub.start.state, 5, x.hub.start.cold, x.hub.start.fetchPort, x.hub.start.wrightMap, x.hub.start.selfRefresh, x.hub.start.hubRstN) = _
    rw [hx, hstart5]
    show (0, 5, w.hub.start.cold, none, List.range 64, false, w.hub.start.hubRstN) = _
    rw [h.warm]
  · exact hwarrant6.trans (hmaps.warrant.trans (hmemory.warrant.trans (hunits.warrant.trans hwarrant2)))
  · exact hcalm6 (hmaps.calm (hmemory.calm (hunits.calm (hcalm2 hc))))
  · exact ((((hports2.trans hunits.ports).trans hmemory.ports).trans hmaps.ports).trans hports6).trans (.elsewhere rfl)

/-! ## The release of HUB_RST_N (R454, R471, R529, R530, R595) -/

/-- The start's record once the straps are sampled. -/
def startSampled (x : Start) (ev : StartEvent) (now : Nat) (clamshell : Bool) : Start :=
  let profileGood := x.stored.valid && ev.profileOk && ev.clamshell = clamshell
  let cold := x.coldPending || ev.powerOn || !profileGood
  { x with hubRstN := true, state := 0, step := if cold then 2 else 1, cold := cold, coldPending := false, cause := 0, startedAt := now, event := ev, profile := if profileGood then x.stored else {} }

/-- Straps are sampled, the assembly test has run, the life-cycle code of the fuses is in force. -/
def Work.sampled (w : Work) (ev : StartEvent) : Work :=
  (((w.onStart fun y => startSampled y ev w.now w.hub.memory.clamshell).assemblyTest ev.assembly).onHub fun h => { h with board := { h.board with
    thermtripN := true, strapRecovery := ev.strapRecovery, strapTest := ev.strapTest
    clocksLost := ev.refclkHpMissing ++ ev.refclkHwMissing.map (4 + ·) } }).startCode

theorem startBegin_eq (w : Work) (ev : StartEvent) : w.startBegin ev =
    if (w.sampled ev).mute then w.sampled ev
    else
      let v := if ev.strapTest && (w.sampled ev).lc ≠ 0 then (w.sampled ev).log { cls := 0x13, sev := 1, cause := 1 } else w.sampled ev
      if ev.strapRecovery then v.recovery 0 else if !v.hub.start.flashValid || !ev.imageOk then v.recovery 3 else v.startGo v.hub.start.flashVersion := rfl

theorem exec_hubRstNRelease (ev : StartEvent) (s : State) : exec (.hubRstNRelease ev) s = s.runAll fun w =>
    if (if ev.powerOn then w.powerCycle ev.burnPattern else w).mayLeaveReset then (if ev.powerOn then w.powerCycle ev.burnPattern else w).startBegin ev else if ev.powerOn then w.powerCycle ev.burnPattern else w := rfl

/-- The assembly test changes fuses alone. -/
theorem assemblyTest_keeps (w : Work) (l : List HalfFail) : ∃ f : Fuses, w.assemblyTest l = w.onStart fun x => { x with fuses := f } := by
  unfold Work.assemblyTest
  split
  · exact ⟨w.hub.start.fuses, rfl⟩
  · exact ⟨_, rfl⟩

/-- The hub without its start, its board and its Purser. -/
def offStraps (h : Hub) : Hub := { h with start := {}, board := {}, purser := {} }

theorem within_straps {s : State} {w : Work} (h : Same offStraps s.work w) : Within s (s.commit w) fun h => { h with start := w.hub.start, board := w.hub.board, purser := w.hub.purser } :=
  ⟨rfl, congrArg (fun q : Hub => { q with start := w.hub.start, board := w.hub.board, purser := w.hub.purser }) h⟩

/-- What sampling leaves: released, the code of the fuses in force, other blocks as before. -/
theorem sampled_facts (w : Work) (ev : StartEvent) :
    (w.sampled ev).hub.start.hubRstN = true ∧ (w.sampled ev).hub.purser.lcCode = w.hub.purser.fuseCode ∧ Same offStraps w (w.sampled ev) := by
  obtain ⟨f, hf⟩ := assemblyTest_keeps (w.onStart fun y => startSampled y ev w.now w.hub.memory.clamshell) ev.assembly
  have h1 : Same offStraps w (w.onStart fun y => startSampled y ev w.now w.hub.memory.clamshell) := rfl
  have h2 (f : Fuses) (v : Work) : Same offStraps v (v.onStart fun x => { x with fuses := f }) := rfl
  have h3 (b : Hub → Board) (v : Work) : Same offStraps v (v.onHub fun h => { h with board := b h }) := rfl
  have h4 (v : Work) : Same offStraps v v.startCode := rfl
  unfold Work.sampled
  rw [hf]
  refine ⟨rfl, rfl, ?_⟩
  exact ((h1.trans (h2 f _)).trans (h3 _ _)).trans (h4 _)

/-- A code that is not Scrapped's is in force, and the hub is not mute. -/
theorem lc_lt {code d : Nat} (h : lcState code = some d) (hd : d ≠ 4) : d < 4 := by
  unfold lcState at h
  grind

theorem sampled_mute {w : Work} {d : Nat} (h : lcState w.hub.purser.fuseCode = some d) (hd : d ≠ 4) (ev : StartEvent) : (w.sampled ev).mute = false := by
  obtain ⟨hrst, hcode, -⟩ := sampled_facts w ev
  have hlc : (w.sampled ev).lc = d := by rw [Work.lc, hcode, h]; rfl
  have hlow := lc_lt h hd
  simp [Work.mute, hrst, hlc, hlow]

section
variable {s : State}

theorem calm_of_straps {w w' : Work} (h : Same offStraps w w') (hc : w.calm) : w'.calm := by
  have hhawser : w'.hub.hawser = w.hub.hawser := by have e := congrArg Hub.hawser h; exact e
  have hten : w'.hub.ten = w.hub.ten := by have e := congrArg Hub.ten h; exact e
  have hmemory : w'.hub.memory = w.hub.memory := by have e := congrArg Hub.memory h; exact e
  unfold Work.calm
  rw [hhawser, hten, hmemory]
  exact hc

theorem hubRstNRelease_recovers {x : StartEvent} {d : Nat} (hc : s.work.calm) (hp : x.powerOn = false) (hm : s.work.mayLeaveReset = true) (hl : lcState s.work.hub.purser.fuseCode = some d) (hd : d ≠ 4)
    (hr : x.strapRecovery = true) : Does (.hubRstNRelease x) s fun t =>
      t.hub.start.hubRstN = true ∧ t.hub.start.state = 2 ∧ t.hub.start.cause = 0 ∧ t.hub.purser.lcCode = s.hub.purser.fuseCode
      ∧ (t.hub.start.cold = true → t.hub.start.step = 3) ∧ (t.hub.start.cold = false → t.hub.start.step = 1) ∧ Within s t (fun h => { h with start := t.hub.start, board := t.hub.board, purser := t.hub.purser }) := by
  obtain ⟨hrst, hcode, hsame⟩ := sampled_facts s.work x
  have hmute := sampled_mute hl hd x
  have hstrap : Reports (s.work.sampled x) (if (decide (x.strapTest = true) && decide ((s.work.sampled x).lc ≠ 0)) = true then (s.work.sampled x).log { cls := 0x13, sev := 1, cause := 1 } else s.work.sampled x) := by
    split
    · exact log_reports _ _
    · exact .refl _
  have hbegin : s.work.startBegin x = (if (decide (x.strapTest = true) && decide ((s.work.sampled x).lc ≠ 0)) = true then (s.work.sampled x).log { cls := 0x13, sev := 1, cause := 1 } else s.work.sampled x).recovery 0 := by
    rw [startBegin_eq, if_neg (by rw [hmute]; decide)]
    dsimp only
    rw [if_pos hr]
    simp
  generalize (if (decide (x.strapTest = true) && decide ((s.work.sampled x).lc ≠ 0)) = true then (s.work.sampled x).log { cls := 0x13, sev := 1, cause := 1 } else s.work.sampled x) = v at *
  have hlog := log_reports (v.onStart fun x => { x with state := 2, step := if x.cold then 3 else 1, cause := 0 }) { cls := 0x10, sev := 3, cause := 0 }
  have hrecovery : v.recovery 0 = (v.onStart fun x => { x with state := 2, step := if x.cold then 3 else 1, cause := 0 }).log { cls := 0x10, sev := 3, cause := 0 } := rfl
  have hv : Same offStraps v (v.onStart fun x => { x with state := 2, step := if x.cold then 3 else 1, cause := 0 }) := rfl
  have hall := ((hsame.trans (hstrap.same offStraps)).trans hv).trans (hlog.same offStraps)
  have hstart := hlog.start
  have hpurser : ((v.onStart fun x => { x with state := 2, step := if x.cold then 3 else 1, cause := 0 }).log { cls := 0x10, sev := 3, cause := 0 }).hub.purser = v.hub.purser := hlog.purser
  have hpow : (if x.powerOn then s.work.powerCycle x.burnPattern else s.work) = s.work := if_neg (by rw [hp]; decide)
  refine does_calm (exec_hubRstNRelease x s) (u := (v.onStart fun x => { x with state := 2, step := if x.cold then 3 else 1, cause := 0 }).log { cls := 0x10, sev := 3, cause := 0 }) ?_ (calm_of_straps hall hc) ?_
  · rw [hpow, if_pos hm, hbegin, hrecovery]
  · generalize Work.log _ _ = u at *
    have hrst' : v.hub.start.hubRstN = true := (congrArg Start.hubRstN hstrap.start).trans hrst
    have hcode' : u.hub.purser.lcCode = s.work.hub.purser.fuseCode := by rw [hpurser, hstrap.purser, hcode]
    show u.hub.start.hubRstN = true ∧ u.hub.start.state = 2 ∧ u.hub.start.cause = 0 ∧ u.hub.purser.lcCode = _ ∧ (u.hub.start.cold = true → u.hub.start.step = 3) ∧ (u.hub.start.cold = false → u.hub.start.step = 1) ∧ _
    rw [hstart]
    exact ⟨hrst', rfl, rfl, hcode', fun h => if_pos h, fun h => if_neg (by rw [show v.hub.start.cold = false from h]; decide), within_straps hall⟩

/-- The start's record once nothing is strapped and the stored profile is good. -/
theorem startSampled_warm {x : Start} (hv : x.stored.valid = true) (hp : x.coldPending = false) (now : Nat) : startSampled x {} now false =
    { x with hubRstN := true, state := 0, step := 1, cold := false, coldPending := false, cause := 0, startedAt := now, event := {}, profile := x.stored } := by
  simp [startSampled, hv, hp]

/-- What a start may let in force from the fuses. -/
theorem warrantInForce_of_stored {p q : Purser} (hstored : q.warrantStored = p.warrantStored) (htherm : q.warrantTherm = p.warrantTherm) : warrantInForce q = warrantInForce p := by
  unfold warrantInForce
  rw [hstored, htherm]

theorem startCode_warrants (w : Work) : w.startCode.hub.purser.warrantStored = w.hub.purser.warrantStored ∧ w.startCode.hub.purser.warrantTherm = w.hub.purser.warrantTherm := ⟨rfl, rfl⟩

theorem sampled_warrant (w : Work) (ev : StartEvent) : warrantInForce (w.sampled ev).hub.purser = warrantInForce w.hub.purser := by
  obtain ⟨f, hf⟩ := assemblyTest_keeps (w.onStart fun y => startSampled y ev w.now w.hub.memory.clamshell) ev.assembly
  unfold Work.sampled
  rw [hf]
  generalize hv : Work.onHub _ _ = v
  have hpurser : v.hub.purser = w.hub.purser := by rw [← hv]; rfl
  obtain ⟨hstored, htherm⟩ := startCode_warrants v
  exact warrantInForce_of_stored (hstored.trans (congrArg Purser.warrantStored hpurser)) (htherm.trans (congrArg Purser.warrantTherm hpurser))

/-- With no half failed, the assembly test changes nothing. -/
theorem assemblyTest_nil (w : Work) : w.assemblyTest [] = w := by
  unfold Work.assemblyTest
  split <;> rfl

/-- The start's record once sampled with no event, the stored profile good and no burn left over. -/
theorem sampled_start {w : Work} (hvalid : w.hub.start.stored.valid = true) (hpend : w.hub.start.coldPending = false) (hclam : w.hub.memory.clamshell = false) (hintent : w.hub.purser.intent = none) :
    (w.sampled {}).hub.start = { { w.hub.start with hubRstN := true, state := 0, step := 1, cold := false, coldPending := false, cause := 0, startedAt := w.now, event := {}, profile := w.hub.start.stored } with burnt := false } := by
  unfold Work.sampled
  rw [show ({} : StartEvent).assembly = [] from rfl, assemblyTest_nil, hclam]
  generalize hv : Work.onHub _ _ = v
  have hstart : v.hub.start = startSampled w.hub.start {} w.now false := by rw [← hv]; rfl
  have hpurser : v.hub.purser = w.hub.purser := by rw [← hv]; rfl
  have hcode : v.startCode.hub.start = { v.hub.start with burnt := v.hub.purser.intent.isSome } := rfl
  rw [hcode, hpurser, hintent, hstart, startSampled_warm hvalid hpend]
  rfl

theorem hubRstNRelease_starts {d : Nat} (hc : s.work.calm) (hm : s.work.mayLeaveReset = true) (hl : lcState s.work.hub.purser.fuseCode = some d) (hd : d ≠ 4) (hflash : s.work.hub.start.flashValid = true)
    (hvalid : s.work.hub.start.stored.valid = true) (hunits : s.work.hub.start.stored.units = []) (hpend : s.work.hub.start.coldPending = false) (hlanes : s.work.hub.start.fuses.lanes = []) (hwrights : s.work.hub.start.fuses.wrights = [])
    (hsites : s.work.hub.sites = []) (hintent : s.work.hub.purser.intent = none) (hrate : 28 ≤ s.work.hub.memory.rate) (hclam : s.work.hub.memory.clamshell = false) (hrates : s.work.hub.start.stored.rates = []) :
    Does (.hubRstNRelease {}) s fun t =>
      t.hub.start.hubRstN = true ∧ t.hub.start.state = 0 ∧ t.hub.start.step = 5 ∧ t.hub.start.cold = false ∧ t.hub.start.wrightMap = List.range 64 ∧ t.hub.start.selfRefresh = false
      ∧ t.hub.purser.warrant = s.hub.purser.warrantStored.bind fun y => if s.hub.purser.warrantTherm ≤ y.floor then some y else none := by
  obtain ⟨hrst, hcode, hsame⟩ := sampled_facts s.work {}
  have hmute := sampled_mute hl hd {}
  have hstart := sampled_start hvalid hpend hclam hintent
  have hwarm : WarmStart (s.work.sampled {}) := by
    have hsites' : (s.work.sampled {}).hub.sites = s.work.hub.sites := by have e := congrArg Hub.sites hsame; exact e
    have hmemory : (s.work.sampled {}).hub.memory = s.work.hub.memory := by have e := congrArg Hub.memory hsame; exact e
    exact ⟨congrArg Start.event hstart, congrArg Start.cold hstart, congrArg Start.burnt hstart, (congrArg (·.profile.units) hstart).trans hunits, (congrArg (·.profile.rates) hstart).trans hrates,
      (congrArg (·.fuses.lanes) hstart).trans hlanes, (congrArg (·.fuses.wrights) hstart).trans hwrights, by rw [hmemory]; exact hrate, by rw [hsites', hsites]⟩
  have hwarrant := sampled_warrant s.work {}
  have hvalid' : (s.work.sampled {}).hub.start.flashValid = true := by rw [hstart]; exact hflash
  have hgo := startGo_warm hwarm (s.work.sampled {}).hub.start.flashVersion
  have hbegin : s.work.startBegin {} = (s.work.sampled {}).startGo (s.work.sampled {}).hub.start.flashVersion := by
    rw [startBegin_eq, if_neg (by rw [hmute]; decide)]
    dsimp only
    simp [hvalid']
  have hcalm := hgo.calm (calm_of_straps hsame hc)
  refine does_calm (exec_hubRstNRelease {} s) ((if_pos hm).trans hbegin) hcalm ?_
  generalize (s.work.sampled {}).startGo (s.work.sampled {}).hub.start.flashVersion = u at *
  have hfields := hgo.start
  rw [hrst] at hfields
  simp only [Prod.mk.injEq] at hfields
  obtain ⟨hstate, hstep, hcold, -, hmap, hrefresh, hreleased⟩ := hfields
  exact ⟨hreleased, hstate, hstep, hcold, hmap, hrefresh, hgo.warrant.trans hwarrant⟩

end

/-- Settles O53: each reset, start, rail, clock and fault comes to its own lemma. -/
theorem starts : Obligations.Starts := by
  unfold Obligations.Starts
  intro assured idle
  refine ⟨fun s i n hc hi hb hn hr hp => lcBurnDone_done (work_calm hc) hi hb hn hr hp, fun s i n hc hi hb hn hr => lcBurnDone_again (work_calm hc) hi hb hn hr, fun s hr hoff => hubRstNAssert_resets hr hoff,
    fun s r hr hoff => railOutOfRange_resets hr hoff, fun s x d hc hp hm hl hd hr => hubRstNRelease_recovers (work_calm hc) hp hm hl hd hr,
    fun s d hc hm hl hd hf hv hu hp hla hw hs hi hra hcl hrs => hubRstNRelease_starts (work_calm hc) hm hl hd hf hv hu hp hla hw hs hi hra hcl hrs,
    fun s hc hr hcold hs hh => startComplete_serves (work_calm hc) hr hcold hs hh, fun s hc hr ha => startStepTimeout_stops (work_calm hc) hr ha,
    fun s hc hs hp hl => profileWrite_writes (work_calm hc) hs hp hl, ?railBack, fun s c hc h9 hn hr => refclkLoss_noted (work_calm hc) h9 hn hr, fun s hn hr hoff => refclkLoss_core hn hr hoff, ?clockBack, ?sliceGood,
    fun s g ⟨hc, hs, ha⟩ ⟨hw, hr, hq, _⟩ => selfTestSlice_fails (work_calm hc) hs ha hw hr hq, fun s g hc hs ⟨hw, hr, hq, _⟩ => watchdogExpiry_fails (work_calm hc) hs hw hr hq, ?checker, ?clockBad,
    fun s p n ⟨hc, hs, ha⟩ hp hn h => patrol_notes (work_calm hc) hs ha hp hn h⟩
  case railBack => exact fun s r hc => does_calm (exec_railBackInRange r s) rfl (work_calm hc) ⟨rfl, rfl, rfl⟩
  case clockBack => exact fun s c hc => does_calm (exec_refclkReturn c s) rfl (work_calm hc) ⟨rfl, rfl, rfl⟩
  case sliceGood =>
    rintro s g ⟨hc, hs, ha⟩
    exact does_calm (exec_selfTestSlice g true s) (if_neg (by simp)) (work_calm hc) ⟨rfl, rfl, rfl⟩
  case checker =>
    rintro s c ⟨hc, hs, ha⟩
    exact does_logged (exec_checkerInjection c s) (if_pos (by rw [hs]; show (true && s.hub.svc.assured && !false) = true; rw [ha]; rfl)) (work_calm hc) (by show (0x15 : Nat) % 256 ≠ 0; decide)
  case clockBad =>
    intro s c hc hs
    exact does_logged (exec_clockCheck c s) (if_pos (by rw [hs]; rfl)) (work_calm hc) (by show (0x15 : Nat) % 256 ≠ 0; decide)

end Sys2Proof.Machine
end

section
/-! PROOFS. O54 refuted: a host's write to the physical function of a port, its interface in ERROR. -/

namespace Sys2Proof.Machine

/-- The hub runs; P0 is in service, and the interface of its function 0 is in ERROR. -/
def interfaceInError : State := { State.reset with hub := { State.reset.hub with
  start := { State.reset.hub.start with hubRstN := true, state := 1 }
  ports := [(0, { state := 2, ready := true, width := 16, rate := 6, perstN := true, configReady := true, funcs := [(0, { tdi := .error })] })] } }

/-- Refutes O54 by its clause on HPT_CFG, which asks nothing of the function's interface: one in ERROR discards what a host writes (R394), so L1_IDLE stays. -/
theorem not_registerWrites : ¬ Obligations.RegisterWrites := by
  rintro ⟨-, -, -, -, h, -⟩
  have heval := (h interfaceInError 0 7 ⟨⟨⟨rfl, rfl, rfl, rfl, by decide +kernel⟩, by decide +kernel, by decide +kernel, by decide +kernel⟩, rfl⟩
    (by decide) (by decide) (by decide)).eval (f := fun t => (t.work.port 0).l1Idle == 7) fun t ht => by
      obtain ⟨hport, -⟩ := ht
      rw [hport]
      rfl
  exact absurd heval (by decide +kernel)

end Sys2Proof.Machine
end

section
/-! PROOFS. O39 refuted: MIGRATE to board memory outside the manager's pool. -/

namespace Sys2Proof.Machine

/-- The leaf of a 64 KiB page in the scratch of partition 0. -/
def scratchLeaf : Nat := pack [(2, 3), (2, 0), (2, 3), (74, 0), (36, 0x400000)]

/-- MIGRATE of the page of berth 4 at 0 to board memory at 0. -/
def migrateToBoard : Nat := bodyWord 0x1A [(128, 0), (14, 4), (2, 0)]

/-- The manager of P0, whose pool has no region, has issued it; berth 4 maps the page by an entry of its last table, at 1 MiB. -/
def migrating : State := { managerIssues migrateToBoard fun h => { h with
  memory := { h.memory with owner := [(16, 2 ^ 14 + 4)], keys := [(keyIx 4 0, 7)], tag := [(0x1000, 7)] }
  chart := { h.chart with
    roots := [(4, { tableBerth := 4, valid := true, tkgen := 0, l0 := 0 })]
    walks := (List.range 4).map fun l => { unit := 129, berth := 4, level := l, pfx := 0, table := 0, next := 0x100000 } } } with
  mem := { cells := [(0x100000, 0x33), (0x10000C, 0x40)] } }

/-- Refutes O39 by its clause on MIGRATE, which does not ask that the destination lies in the pool: the command ends with BAD_IDENT (R427), and holds no page. -/
theorem not_pages : ¬ Obligations.Pages := by
  rintro ⟨-, h, -⟩
  have heval := (h migrating managerEntry { index := 3, word := migrateToBoard } 4 { unit := 129, berth := 4, base := 0, log2 := 16, leaf := scratchLeaf, addr := 0x100000 }
    (by decide +kernel) (by decide +kernel) (by decide +kernel) (by decide +kernel) (by decide +kernel) (by decide +kernel) (by decide +kernel) (by decide +kernel)
    (by decide +kernel)).eval (f := fun t => !t.hub.chart.holds.isEmpty) fun t ht => by
      obtain ⟨⟨hholds, -⟩, -⟩ := ht
      rw [hholds]
      simp
  exact absurd heval (by decide +kernel)

end Sys2Proof.Machine
end

section
/-! PROOFS. O7 and O42 refuted: an access that waits for room walks first, and caches a large page over one that another access of its unit lies in. -/

namespace Sys2Proof.Machine

/-! ## A walk of a unit whose stall counter is far from its end -/

/-- A miss of a unit is counted and stalled for; the stall counter stood at 0. -/
def Work.stalled (w : Work) (u b : Nat) : Work :=
  ((w.count 12 u 1).viewCount b 8).onHub fun h =>
    { h with free := h.free + 1, cnt := tset h.cnt (cntBase 12 + u * cntStride 12 + 8 * 3) (Config.freeWord h.free % 2 ^ 48) }

/-- A counter at 0 has room for any count of 48 bits. -/
theorem count_room {w : Work} {k i c n : Nat} (hk : k ≠ 11) (h0 : tget 0 w.hub.cnt (cntBase k + i * cntStride k + 8 * c) = 0) (hn : n < 2 ^ 48) :
    w.count k i c n = w.onHub fun h => { h with cnt := tset h.cnt (cntBase k + i * cntStride k + 8 * c) n } := by
  have hroom : ¬ 2 ^ 48 ≤ 0 % 2 ^ 48 + n := by omega
  have hvalue : (0 % 2 ^ 48 + n) % 2 ^ 48 + b2n (bit 0 63 || decide (2 ^ 48 ≤ 0 % 2 ^ 48 + n)) * 2 ^ 63 = n := by
    rw [decide_eq_false hroom, Nat.zero_mod, Nat.zero_add, Nat.mod_eq_of_lt hn]
    rfl
  unfold Work.count
  dsimp only
  rw [if_neg (by simp [hk]), h0, if_neg hroom, hvalue]

/-- No stall is longer than the room of a counter at 0. -/
theorem walkStall_room {w : Work} {u : Nat} (hu : 80 ≤ u) (h0 : tget 0 w.hub.cnt (cntBase 12 + u * cntStride 12 + 8 * 3) = 0) :
    w.walkStall u = w.onHub fun h => { h with free := h.free + 1, cnt := tset h.cnt (cntBase 12 + u * cntStride 12 + 8 * 3) (Config.freeWord h.free % 2 ^ 48) } := by
  have hunit : ¬ (decide (16 ≤ u) && decide (u < 80)) = true := by simp [hu]
  have hcount : w.fresh.2.count 12 u 3 (w.fresh.1 % 2 ^ 48) = _ := count_room (by decide) h0 (Nat.mod_lt _ (by decide))
  exact (if_neg hunit).trans hcount

/-- What the walk of a missed page gives a reader. -/
def Work.afterMiss (w : Work) (u b dva : Nat) : Xlate × Work :=
  match (w.stalled u b).walk u b dva with
  | (none, w) => (.bad 2 0, w)
  | (some t, w) => w.leafCheck u b dva t.leaf t.log2 {}

/-- A page that misses at a unit of the hub's own, its stall counter at 0. -/
structure Misses (w : Work) (u b dva : Nat) : Prop where
  unit : 80 ≤ u
  free : w.pageHeld b dva = false
  miss : (w.hub.chart.tlb.find? fun t => t.unit = u && t.berth = b && t.base = dva / 2 ^ t.log2 * 2 ^ t.log2) = none
  room : tget 0 ((w.count 12 u 1).viewCount b 8).hub.cnt (cntBase 12 + u * cntStride 12 + 8 * 3) = 0
  bad : (w.afterMiss u b dva).1 = .bad 2 0

theorem xlateNow_missed {w : Work} {u b dva : Nat} (h : Misses w u b dva) (e : Bool) : w.xlateNow u b dva { write := false, engine := e } = (.bad 2 0, (w.afterMiss u b dva).2) := by
  have hlow : ¬ u < 16 := by have := h.unit; omega
  have hx : w.xlate u b dva { write := false, engine := e } = w.afterMiss u b dva := by
    unfold Work.xlate Work.afterMiss
    rw [if_neg (by rw [h.free]; decide), h.miss]
    dsimp only
    rw [if_neg hlow, walkStall_room h.unit h.room]
    rfl
  unfold Work.xlateNow
  rw [hx]
  have hbad := h.bad
  generalize w.afterMiss u b dva = y at hbad ⊢
  obtain ⟨y, v⟩ := y
  subst hbad
  rfl

/-- The read of an agent that waits for room, the only one, taken off the list. -/
def Work.untodo (w : Work) (p : SourcePiece) : Work := w.onFabric fun f => { f with todo := f.todo.eraseP fun q => q = p }

/-- An agent's one waiting read, of one piece, finds a page that it may not read: its walk is all that is done. -/
theorem pumpSource_missed {w : Work} {a : Agent} {p : SourcePiece} (htodo : (w.hub.fabric.todo.filter fun q => q.agent = a) = [p]) (hreqs : (w.sourceReqs p.agent).length < 256)
    (hread : p.kind = .read) (hpieces : pieces p.dva p.len = [(0, p.len)]) (hw : Misses w p.unit p.berth (p.dva % 2 ^ 57)) (hv : Misses (w.untodo p) p.unit p.berth (p.dva % 2 ^ 57)) :
    w.pumpSource a = ((w.untodo p).afterMiss p.unit p.berth (p.dva % 2 ^ 57)).2 := by
  have hwrite : decide (p.kind ≠ .read) = false := by simp [hread]
  have hroom : w.sourceFull p = false := by
    have hot : w.otPiece p.agent p.unit p.berth p.dva (decide (p.kind ≠ .read)) = false := by
      unfold Work.otPiece
      rw [hwrite]
      dsimp only
      rw [xlateNow_missed hw]
    unfold Work.sourceFull
    rw [hot]
    split <;> simp [hreqs]
  unfold Work.pumpSource
  rw [htodo, each_cons, each_nil, if_neg (by rw [hroom]; decide)]
  unfold Work.homePieces
  dsimp only
  rw [hpieces, each_cons, each_nil, hwrite]
  dsimp only
  rw [Nat.add_zero]
  have hx := xlateNow_missed hv
  unfold Work.untodo at hx ⊢
  rw [hx]

/-! ## The states -/

/-- A read-only leaf of 1 GiB of board memory of class 1, under a generation that has no key. -/
def keylessLeaf : Nat := pack [(2, 3), (2, 0), (2, 1), (1, 0), (1, 1)]

/-- That leaf lies at 1 MiB in a table of berth 4. -/
def keylessTable : Mem := { cells := [(0x100000, BitVec.ofNat 8 keylessLeaf)] }

/-- The chart of a unit that has walked to that table for a berth, and holds the 64 KiB page at 0. -/
def walked (u b : Nat) (leaf : Nat) (c : Chart) : Chart := { c with
  roots := [(b, { tableBerth := 4, valid := true, tkgen := 0, l0 := 0 })]
  walks := (List.range 2).map fun l => { unit := u, berth := b, level := l, pfx := 0, table := 0, next := 0x100000 }
  tlb := [{ unit := u, berth := b, base := 0, log2 := 16, leaf := leaf }] }

/-- Berth 4 owns the block of the table, under its key; partition 0 is scratch of a berth. -/
def tableOwned (b : Nat) (m : MemUnits) : MemUnits := { m with owner := [(16, 2 ^ 14 + 4)], keys := [(keyIx 4 0, 7)], tag := [(0x1000, 7)], parts := [(0, { mode := 3, holder := b })] }

/-- A read of the page at 128 KiB that waits for room. -/
def waitingRead (a : Agent) (tag u b : Nat) : SourcePiece := { agent := a, tag := tag, unit := u, berth := b, start := 0x20000, dva := 0x20000, len := 32 }

/-! ## A row that is zeroed -/

/-- Record 2 of engine 0, its row being zeroed; a read of the engine waits for room. -/
def zeroingRow : State := { State.reset with mem := keylessTable, hub := { State.reset.hub with
  memory := tableOwned 4 State.reset.hub.memory
  chart := walked 80 4 coherentLeaf State.reset.hub.chart
  tables := [(5, scratchTable)]
  bearings := [(0, { recs := [(2, { table := 5, row := 1, phase := .zeroing, ranks := [{}] })] })]
  fabric := { State.reset.hub.fabric with todo := [waitingRead (.bearing 0) (recTag 3) 80 4] } } }

/-- ZERO_ROW_DONE once the waiting pieces have gone. -/
def Work.zeroRowEnds (w : Work) (b i : Nat) (outcome : XferEnd) : Work :=
  w.underOld (.bearing b) (recTag i) fun w =>
    match tfind (w.bearing b).recs i with
    | none => w
    | some r =>
      if r.phase ≠ .zeroing || w.homePending (.bearing b) (recTag i) then w
      else match w.table r.table with
        | none => w
        | some t =>
          let fail (st : Nat) (w : Work) : Work := (w.homeRelease (.bearing b) (recTag i)).zeroFails b i (if st = 4 || st = 7 then 8 else 12)
          let (outcome, w) := w.endOf (.bearing b) (recTag i) outcome
          if outcome ≠ .ok then fail (endStatus outcome) w
          else match w.writeDva (80 + b) t.hdr.berth (rowAddr t.hdr r.row) (List.replicate (ceilDiv (rowBytes t.hdr) 128 * 128) 0) with
            | (.bad st _ _, w) => fail st w
            | (.wait, w) => w
            | (.ok _ _, w) => (((w.homeRelease (.bearing b) (recTag i)).onRec b i fun r => { r with phase := .running }).dispatchRanks b i).tokenSettle b i

theorem exec_zeroRowDone (b i : Nat) (o : XferEnd) (s : State) : exec (.zeroRowDone b i o) s = s.run fun w => (w.pumpSource (.bearing b)).zeroRowEnds b i o := rfl

theorem zeroingRow_pumped : zeroingRow.work.pumpSource (.bearing 0) = ((zeroingRow.work.untodo (waitingRead (.bearing 0) (recTag 3) 80 4)).afterMiss 80 4 0x20000).2 :=
  pumpSource_missed (by decide +kernel) (by decide +kernel) rfl (by decide +kernel) ⟨by decide, by decide +kernel, by decide +kernel, by decide +kernel, by decide +kernel⟩
    ⟨by decide, by decide +kernel, by decide +kernel, by decide +kernel, by decide +kernel⟩

/-- Refutes O7 by its second clause: the walk of the waiting read caches a read-only gibibyte over the row's own page, so the row is not zeroed and every rank closes. -/
theorem not_bearingTokens : ¬ Obligations.BearingTokens := by
  rintro ⟨-, h, -⟩
  have heval := (h zeroingRow 0 2 { table := 5, row := 1, phase := .zeroing, ranks := [{}] } scratchTable (by decide +kernel) rfl rfl (by decide +kernel) rfl rfl
    (by decide +kernel)).eval (f := fun t => (tfind (t.work.bearing 0).recs 2).map (·.phase) == some .running) fun t ht => by
      rw [ht]
      rfl
  rw [exec_zeroRowDone, run_eq, zeroingRow_pumped] at heval
  exact absurd heval (by decide +kernel)

/-! ## A copy that is done -/

/-- COPY of 128 bytes of the manager's scratch page into host memory. -/
def copyWord : Nat := bodyWord 0x18 [(64, 0), (64, 0x2000), (32, 128), (2, 1)]

/-- That copy, issued. -/
def scratchCopy : CopyJob := { id := 1, entry := managerEntry, src := 0, dst := 0x2000, len := 128, dir := 1, issued := true }

/-- Porter 4 of P0 runs it; a read of the Porter waits for room. -/
def copying : State := { managerIssues copyWord fun h => { h with
  memory := tableOwned 0 h.memory
  chart := walked (porterUnit 0 4) 0 scratchLeaf h.chart
  ports := [(0, { loggedPort with log := {}, porters := [(4, { queue := [scratchCopy] })] })]
  fabric := { h.fabric with todo := [waitingRead (.porter 0 4) 9 (porterUnit 0 4) 0] } } with
  mem := keylessTable }

/-- COPY_DONE of a copy once the waiting pieces have gone. -/
def Work.copyRest (w : Work) (p j : Nat) (c : CopyJob) (outcome : XferEnd) (bytes : Nat) : Work :=
  if w.homePending (.porter p j) c.id then w
  else w.underOld (.porter p j) c.id fun w =>
    let (o, w) := w.endOf (.porter p j) c.id outcome
    let full : Bool := o = .ok || o = .poisoned
    let n := if full then c.len else min bytes c.len
    let w := if c.dir = 2 && !c.wrote && n ≠ 0 then w.copyWrites p j c n else w
    if w.homePending (.porter p j) c.id then w
    else
    let w := if o = .completionTimeout then w.emit (.aer (w.funcOf c.entry.berth)) else w
    let cause := match o with | .completionTimeout => some 19 | .unsupportedRequest => some 20 | .completerAbort => some 21 | _ => none
    match w.copyMove p j c n with
    | (none, w) => w
    | (some (st, done, bad), w) =>
      let (reads, w) := w.fresh
      let w := if c.dir = 0 then ((w.tlp p 0 (reads % 2 ^ 48)).tlp p 6 (reads % 2 ^ 48)).count 14 p 22 (b2n bad) else w
      let w := match cause with | some k => w.count 14 p k | none => w
      if st ≠ 0 then w.copyEnds p j c (statusOf st) 0 done done
      else if full then w.copyEnds p j c (if bad then stPoisoned else stOk) 0 c.len c.len
      else match o with
        | .hostLinkLost => (w.onRing c.entry.berth c.entry.ring fun r => { retireEntry c.entry.index r with ended := satAdd 0xFFFFFFFF r.ended 1 }).porterNext p j c
        | .pageFault page => w.pageFaulted p j c page
        | o => let (s, d, _) := copyStatus o; w.copyEnds p j c s d n n

theorem exec_copyDone (p j : Nat) (o : XferEnd) (n : Nat) (s : State) : exec (.copyDone p j o n) s = s.run fun w => w.copyDone p j o n := rfl

theorem copyDone_issued {w : Work} {p j : Nat} {c : CopyJob} {q : List CopyJob} (hq : (w.porter p j).queue = c :: q) (hi : c.issued = true) (o : XferEnd) (n : Nat) :
    w.copyDone p j o n = (w.pumpSource (.porter p j)).copyRest p j c o n := by
  unfold Work.copyDone
  rw [hq]
  exact if_neg (by rw [hi]; decide)

theorem copying_pumped : copying.work.pumpSource (.porter 0 4) = ((copying.work.untodo (waitingRead (.porter 0 4) 9 (porterUnit 0 4) 0)).afterMiss (porterUnit 0 4) 0 0x20000).2 :=
  pumpSource_missed (by decide +kernel) (by decide +kernel) rfl (by decide +kernel) ⟨by decide, by decide +kernel, by decide +kernel, by decide +kernel, by decide +kernel⟩
    ⟨by decide, by decide +kernel, by decide +kernel, by decide +kernel, by decide +kernel⟩

/-- The record of that copy done with status OK. -/
def copyRecord : Out := .hostWrite {} (16 * 3) (leBytes 16 (pack [(16, 3), (1, bits copyWord 12 12), (7, 0), (8, 0), (16, 0), (16, 0), (64, 128)]))

/-- Refutes O42 by its clause on a copy that is done: the walk of the waiting read caches a leaf without a key over the page that the copy reads, which so ends UNMAPPED. -/
theorem not_copies : ¬ Obligations.Copies := by
  rintro ⟨-, -, -, h, -⟩
  have heval := (h copying 0 4 scratchCopy { index := 3, word := copyWord } ⟨rfl, rfl, rfl, rfl⟩ rfl rfl rfl rfl (by decide +kernel) (by decide +kernel) rfl (by decide +kernel) (by decide +kernel)
    (by decide +kernel)).eval (f := fun t => decide (copyRecord ∈ t.hub.sent)) fun t ht => by
      obtain ⟨-, -, hrecord⟩ := ht
      exact decide_eq_true (hrecord (by decide +kernel) (by decide +kernel))
  rw [exec_copyDone, run_eq, copyDone_issued (w := copying.work) (p := 0) (j := 4) (c := scratchCopy) (q := []) rfl rfl, copying_pumped] at heval
  exact absurd heval (by decide +kernel)

end Sys2Proof.Machine
end

section
/-! PROOFS. O32: requests at the home of their line. -/

namespace Sys2Proof.Machine

/-! ## The priority at which a home hands a request on (R277) -/

theorem ownEnd_congr {v w : Work} (hstart : v.hub.start = w.hub.start) (a : Agent) : v.ownEnd a = w.ownEnd a := by
  cases a <;> simp [Work.ownEnd, Work.wrightEnd, hstart]

theorem reqFrom_congr {v w : Work} (hstart : v.hub.start = w.hub.start) (hfetch : v.hub.fabric.fetches = w.hub.fabric.fetches) (r : MemReq) : v.reqFrom r = w.reqFrom r := by
  have hend (a : Agent) : v.agentEnd a = w.agentEnd a := by
    unfold Work.agentEnd
    rw [hfetch]
    simp only [ownEnd_congr hstart]
  unfold Work.reqFrom
  rw [hend]

/-- A request of the least priority so far may be left out of a minimum. -/
theorem foldl_min_tdel {x : MemReq} {id : Nat} (p : Nat × MemReq → Bool) {t : Tab MemReq} (h : tfind t id = some x) (a : Nat) (ha : a ≤ x.prio) :
    (((tdel t id).filter p).map fun y => y.2.prio).foldl min a = ((t.filter p).map fun y => y.2.prio).foldl min a := by
  induction t generalizing a with
  | nil => simp [tfind] at h
  | cons y t ih =>
    obtain ⟨k, z⟩ := y
    unfold tfind at h
    unfold tdel
    by_cases hk : k = id
    · rw [if_pos hk] at h ⊢
      obtain rfl := Option.some.inj h
      by_cases hp : p (k, z) = true
      · simp [List.filter_cons, hp, Nat.min_eq_left ha]
      · simp [List.filter_cons, hp]
    · rw [if_neg hk] at h ⊢
      have hrest : tfind t id = some x := by
        split at h
        · exact h
        · simp at h
      by_cases hp : p (k, z) = true
      · simp only [List.filter_cons, hp, if_true, List.map_cons, List.foldl_cons]
        exact ih hrest _ (Nat.le_trans (Nat.min_le_left _ _) ha)
      · simp only [List.filter_cons, hp, if_false]
        exact ih hrest _ ha

/-- The request that a home takes off the network does not bear on its own priority. -/
theorem sendPrio_taken {v w : Work} {id : Nat} {r q : MemReq} (hstart : v.hub.start = w.hub.start) (hfetch : v.hub.fabric.fetches = w.hub.fabric.fetches)
    (hreqs : v.hub.fabric.reqs = tdel w.hub.fabric.reqs id) (hr : tfind w.hub.fabric.reqs id = some r) (hq : q.prio = r.prio) : v.sendPrio q = w.sendPrio q := by
  unfold Work.sendPrio
  simp only [reqFrom_congr hstart hfetch, hreqs]
  exact foldl_min_tdel _ hr _ (Nat.le_of_eq hq)

/-! ## A request that meets nothing at its home (R286, R287) -/

/-- A request on its way to a home at which nothing is open or waits, its line of hub memory that no site holds. -/
structure HomeComes (w : Work) (id : Nat) (r : MemReq) : Prop where
  req : tfind w.hub.fabric.reqs id = some r
  away : r.atHome = false
  injected : w.injected id = true
  first : w.reqBehind id r = false
  alone : w.behind r = false
  room : w.homeFull (reqLine r) = false
  here : isHost (reqLine r * 128) = false
  alive : sliceOf (reqLine r * 128) ∉ w.hub.fabric.deadSlices
  entry : w.lineEntry (reqLine r) = none
  sound : reqLine r ∉ w.hub.ledger.hostPoison
  txns : w.hub.ledger.txns = []
  waits : w.hub.ledger.waits = []
  hostTxn : tfind w.hub.ledger.hostTxns (reqLine r) = none
  holds : w.hub.chart.holds = []

theorem wakeHome_none {w : Work} (hwaits : w.hub.ledger.waits = []) (hholds : w.hub.chart.holds = []) (l : Nat) : w.wakeHome l = w := by
  simp [Work.wakeHome, Work.wakePasses, Work.pageSteps, hwaits, hholds, each_nil]

/-- A request taken off the network. -/
def Work.taken (w : Work) (id : Nat) : Work := w.onFabric fun f => { f with reqs := tdel f.reqs id }

/-- A request taken off the network, its home counting it and opening its transaction. -/
def Work.opened (w : Work) (id : Nat) (r : MemReq) : Work :=
  ((w.taken id).count 6 (sliceOf (reqLine r * 128)) 0).setTxn (reqLine r) { why := .request r }

/-- A line with no holder and no host behind it is served at once. -/
theorem beginRequest_served {w : Work} {l : Nat} {r : MemReq} (hsound : l ∉ w.hub.ledger.hostPoison) (hentry : w.lineEntry l = none) (hhere : isHost (l * 128) = false)
    (hroom : allocates r = true → (w.hub.ledger.entries.filter fun y => ledgerSet y.1 = ledgerSet l).length < 16 - (w.hub.ledger.retired.filter fun y => y.1 = ledgerSet l).length) :
    w.beginRequest l r = ((w.count 6 (sliceOf (l * 128)) 0).setTxn l { why := .request r }).serveLine l { why := .request r } r none := by
  have hledger := count_ledger w 6 (sliceOf (l * 128)) 0 1
  have hentry' : (w.count 6 (sliceOf (l * 128)) 0).lineEntry l = none := by rw [Work.lineEntry, hledger]; exact hentry
  unfold Work.beginRequest
  dsimp only
  rw [if_neg (by rw [hledger]; simp [hsound]), if_neg (by rw [hledger]; simp [hsound]), if_neg (by
    rw [hledger]
    intro h
    simp only [Bool.and_eq_true, decide_eq_true_eq] at h
    have := hroom h.1.2
    omega), hentry', show snoopsFor r none = [] from rfl, if_pos rfl]
  unfold Work.resolveRequest
  dsimp only
  rw [if_neg (by rw [hhere]; simp)]
  rfl

/-- What a home does with a request (R286, R287). -/
def Work.homeTakes (w : Work) (id err : Nat) : Work :=
  match tfind w.hub.fabric.reqs id with
  | none => w
  | some r =>
    let l := reqLine r
    if r.atHome || !w.injected id then w
    else if !w.awaitedWb r && (w.reqBehind id r || w.behind r || w.homeFull l) then w
    else
      let w := w.onFabric fun f => { f with reqs := tdel f.reqs id }
      let refused := if !isHost (l * 128) then none
        else if r.kind = .wbDirty || r.kind = .evictClean then (if w.portUp (hostPort (l * 128)) then none else some (7, 0))
        else w.accessCheck r.berth (l * 128)
      if sliceOf (l * 128) ∈ w.hub.fabric.deadSlices then ((w.dropPassed r).answer r 4 0 none).wakeHome l
      else match refused with
        | some (s, d) => (((w.bmeCount (l * 128) s).dropPassed r).answer r s d none).wakeHome l
        | none => (w.dirError l err).homeArrive r

theorem exec_homeRequest (id err : Nat) (s : State) : exec (.homeRequest id err) s = s.run fun w => w.homeTakes id err := rfl

/-- A request at a home where nothing is open comes to be served, then what waited goes on. -/
theorem homeTakes_serves {w : Work} {id : Nat} {r : MemReq} (h : HomeComes w id r)
    (hroom : allocates r = true → (w.hub.ledger.entries.filter fun y => ledgerSet y.1 = ledgerSet (reqLine r)).length < 16 - (w.hub.ledger.retired.filter fun y => y.1 = ledgerSet (reqLine r)).length) :
    w.homeTakes id 0 = ((w.opened id r).serveLine (reqLine r) { why := .request r } r none).wakeHome (reqLine r) := by
  have hbegin := beginRequest_served (w := w.taken id) (l := reqLine r) (r := r) h.sound h.entry h.here hroom
  have htxn : (w.taken id).txn (reqLine r) = none := by
    show tfind w.hub.ledger.txns _ = none
    rw [h.txns]
    rfl
  have hhost : (w.taken id).hostTxn (reqLine r) = none := h.hostTxn
  have hwaits : (w.taken id).hub.ledger.waits = [] := h.waits
  have hentry : (w.taken id).lineEntry (reqLine r) = none := h.entry
  unfold Work.homeTakes
  rw [h.req]
  dsimp only
  rw [if_neg (by rw [h.away, h.injected]; decide), if_neg (by rw [h.first, h.alone, h.room]; simp)]
  refine (if_neg h.alive).trans ?_
  rw [if_pos (by rw [h.here]; rfl)]
  show (w.taken id).homeArrive r = _
  unfold Work.homeArrive Work.underReclaim
  dsimp only
  rw [htxn, hhost]
  dsimp only
  rw [hwaits, hentry, if_neg (by simp [tget]), hbegin]
  rfl

/-- What a request's home leaves of the rest once it has opened the transaction: reports alone. -/
structure Opened (w : Work) (id : Nat) (r : MemReq) (v : Work) : Prop where
  fabric : v.hub.fabric = { w.hub.fabric with reqs := tdel w.hub.fabric.reqs id }
  ledger : v.hub.ledger = { w.hub.ledger with txns := [(reqLine r, { why := .request r })] }
  start : v.hub.start = w.hub.start
  holds : v.hub.chart.holds = w.hub.chart.holds
  mem : SameMem w v

theorem opened_opened {w : Work} {id : Nat} {r : MemReq} (h : HomeComes w id r) : Opened w id r (w.opened id r) := by
  have hcount := count_reports (w.taken id) 6 (sliceOf (reqLine r * 128)) 0 1
  have hmem := count_mem (w.taken id) 6 (sliceOf (reqLine r * 128)) 0 1
  unfold Work.opened
  generalize (w.taken id).count 6 (sliceOf (reqLine r * 128)) 0 = v at *
  refine ⟨hcount.fabric, ?_, hcount.start, congrArg Chart.holds hcount.chart, ⟨hmem.1, hmem.2⟩⟩
  have hledger : v.hub.ledger = w.hub.ledger := hcount.ledger
  show { v.hub.ledger with txns := tset v.hub.ledger.txns (reqLine r) { why := .request r } } = _
  rw [hledger, h.txns]
  rfl

/-- A request as its home hands it on. -/
def homeSent (r : MemReq) : MemReq := { r with atHome := true, viaHome := true }

/-- What a home hands on leaves under the next number, at the priority of what its source had sent (R277). -/
theorem send_sent {w v : Work} {id : Nat} {r : MemReq} (h : HomeComes w id r) (hfabric : v.hub.fabric = { w.hub.fabric with reqs := tdel w.hub.fabric.reqs id })
    (hstart : v.hub.start = w.hub.start) {q : MemReq} (hq : q.prio = r.prio) :
    tfind (v.send q).hub.fabric.reqs w.hub.fabric.nextId = some { q with prio := w.sendPrio q } := by
  have hprio := sendPrio_taken (v := v) hstart (by rw [hfabric]) (by rw [hfabric]) h.req hq
  have hnext : v.hub.fabric.nextId = w.hub.fabric.nextId := by rw [hfabric]
  show tfind (tset v.hub.fabric.reqs v.hub.fabric.nextId { q with prio := v.sendPrio q }) _ = _
  rw [hnext, hprio]
  exact tfind_tset_self _ _ _

/-- A read that leaves no holder goes on to the controller of its memory once its one line is passed. -/
theorem serveLine_rdNc {v : Work} {r : MemReq} {n : Nat} (hk : r.kind = .rdNc) (ha : r.agent = .site n) (hd : r.done = 0) (hf : r.forwarded = []) (hone : (partsOf 128 r.dpa r.bytes).length = 1) :
    v.serveLine (reqLine r) { why := .request r } r none = (v.dropTxn (reqLine r)).send (homeSent r) := by
  have hlines : reqLines r = 1 := by simp [reqLines, coherentKind, hk, hone]
  have hline : reqLine r = r.dpa / 128 := by simp [reqLine, hd]
  have hpass : v.passLine r = (v.dropTxn (reqLine r)).send (homeSent r) := by
    unfold Work.passLine
    rw [hd, hlines, if_neg (by decide)]
    simp [ha, hf, hline, homeSent, hd, readsOnly, hk, each_cons, each_nil]
  rw [← hpass]
  unfold Work.serveLine
  rw [hk]
  rfl

section
variable {s : State} {id n : Nat} {r : MemReq}

theorem homeRequest_reads (h : HomeComes s.work id r) (hk : r.kind = .rdNc) (ha : r.agent = .site n) (hd : r.done = 0) (hf : r.forwarded = []) (hone : (partsOf 128 r.dpa r.bytes).length = 1) :
    Does (.homeRequest id 0) s fun t =>
      tfind t.hub.fabric.reqs s.hub.fabric.nextId = some { homeSent r with prio := s.work.sendPrio (homeSent r) } ∧ t.hub.ledger.txns = [] ∧ t.mem = s.mem := by
  have hopen := opened_opened h
  have hserve := homeTakes_serves h (by simp [allocates, hk])
  rw [serveLine_rdNc hk ha hd hf hone] at hserve
  generalize s.work.opened id r = v at *
  have hsent := send_sent (v := v.dropTxn (reqLine r)) h hopen.fabric hopen.start (q := homeSent r) rfl
  have htxns : ((v.dropTxn (reqLine r)).send (homeSent r)).hub.ledger.txns = [] := by
    show tdel v.hub.ledger.txns _ = []
    rw [hopen.ledger]
    simp [tdel]
  have hwaits : ((v.dropTxn (reqLine r)).send (homeSent r)).hub.ledger.waits = [] := by
    show v.hub.ledger.waits = []
    rw [hopen.ledger]
    exact h.waits
  rw [wakeHome_none hwaits (hopen.holds.trans h.holds)] at hserve
  refine does_work (exec_homeRequest id 0 s) hserve ⟨hsent, htxns, commit_mem_of_sameMem ?_⟩
  exact ⟨hopen.mem.1, hopen.mem.2⟩

/-- The entry of a line granted exclusive to a site. -/
def soleEntry (w : Work) (r : MemReq) (n : Nat) : LEntry := { st := .EM, owner := n, slot := r.slot, gen := r.gen, born := w.hub.ledger.births }

/-- A line granted exclusive to a site: its entry made, its transaction left to the acknowledgement. -/
def Work.grantsSole (w : Work) (l : Nat) (r : MemReq) (e : LEntry) (n : Nat) : Work :=
  ((w.setEntry l (some e)).onLedger fun x => { x with births := x.births + 1 }).setTxn l { why := .request r, ackFrom := some n }

/-- A read as its home hands it on with the grant. -/
def grantSent (r : MemReq) : MemReq := { r with atHome := true, viaHome := true, grant := 2 }

/-- A line that no site holds is granted exclusive, and the read handed on. -/
theorem serveLine_rdShared {v : Work} {l : Nat} (hk : r.kind = .rdShared) (ha : r.agent = .site n) (hs : r.shared = false) (hentry : v.lineEntry l = none) :
    v.serveLine l { why := .request r } r none = (v.grantsSole l r (soleEntry v r n) n).send (grantSent r) := by
  have hsite : (reqSite r).getD 0 = n := by simp [reqSite, ha]
  have hfresh : ({ freshEntry v r none with st := .EM, owner := n } : LEntry) = soleEntry v r n := by simp [freshEntry, soleEntry, hs]
  have hshared : v.serveLine l { why := .request r } r none = v.serveShared l n { why := .request r } r none := by
    unfold Work.serveLine
    rw [hk, hsite]
    rfl
  have hgrant : v.serveShared l n { why := .request r } r none = v.grantLine l { why := .request r } r (soleEntry v r n) 2 none := by
    unfold Work.serveShared
    rw [hentry]
    dsimp only
    rw [if_neg (by simp [hs]), hfresh]
  rw [hshared, hgrant]
  unfold Work.grantLine
  rw [hsite]
  rfl

theorem homeRequest_grants (h : HomeComes s.work id r) (hk : r.kind = .rdShared) (ha : r.agent = .site n) (hs : r.shared = false)
    (hroom : (s.hub.ledger.entries.filter fun y => ledgerSet y.1 = ledgerSet (reqLine r)).length < 16 - (s.hub.ledger.retired.filter fun y => y.1 = ledgerSet (reqLine r)).length) :
    Does (.homeRequest id 0) s fun t =>
      t.work.lineEntry (reqLine r) = some (soleEntry s.work r n) ∧ (t.work.txn (reqLine r)).map (fun x => (x.ackFrom, x.waiting)) = some (some n, [])
      ∧ tfind t.hub.fabric.reqs s.hub.fabric.nextId = some { grantSent r with prio := s.work.sendPrio (homeSent r) } ∧ t.mem = s.mem := by
  have hopen := opened_opened h
  have hserve := homeTakes_serves h fun _ => hroom
  have hentry : (s.work.opened id r).lineEntry (reqLine r) = none := by
    show tfind (s.work.opened id r).hub.ledger.entries _ = none
    rw [hopen.ledger]
    exact h.entry
  have hsole : soleEntry (s.work.opened id r) r n = soleEntry s.work r n := by
    unfold soleEntry
    rw [hopen.ledger]
  rw [serveLine_rdShared hk ha hs hentry, hsole] at hserve
  generalize s.work.opened id r = v at *
  have hentries : (v.grantsSole (reqLine r) r (soleEntry s.work r n) n).lineEntry (reqLine r) = some (soleEntry s.work r n) := tfind_tset_self _ _ _
  have htxn : (v.grantsSole (reqLine r) r (soleEntry s.work r n) n).txn (reqLine r) = some { why := .request r, ackFrom := some n } := tfind_tset_self _ _ _
  have hmem : SameMem s.work (v.grantsSole (reqLine r) r (soleEntry s.work r n) n) := ⟨hopen.mem.1, hopen.mem.2⟩
  have hsent := send_sent (v := v.grantsSole (reqLine r) r (soleEntry s.work r n) n) h hopen.fabric hopen.start (q := grantSent r) rfl
  have hholds : (v.grantsSole (reqLine r) r (soleEntry s.work r n) n).hub.chart.holds = [] := hopen.holds.trans h.holds
  have hwaits : (v.grantsSole (reqLine r) r (soleEntry s.work r n) n).hub.ledger.waits = [] := by
    show v.hub.ledger.waits = []
    rw [hopen.ledger]
    exact h.waits
  generalize v.grantsSole (reqLine r) r (soleEntry s.work r n) n = x at *
  rw [wakeHome_none (w := x.send (grantSent r)) hwaits hholds] at hserve
  refine does_work (exec_homeRequest id 0 s) hserve ⟨hentries, ?_, hsent, commit_mem_of_sameMem ⟨hmem.1, hmem.2⟩⟩
  show (x.txn (reqLine r)).map _ = _
  rw [htxn]
  rfl

/-- The acknowledgement of the only transaction open closes it (R286). -/
theorem grantAcknowledgement_closes {l : Nat} {x : Txn} (htxns : s.hub.ledger.txns = [(l, x)]) (hack : x.ackFrom = some n) (hplaced : x.placed = true) (hafter : x.after = []) (hheld : s.hub.fabric.heldFrom = none)
    (hhost : s.hub.ledger.hostTxns = []) (hwaits : s.hub.ledger.waits = []) (hholds : s.hub.chart.holds = []) :
    Does (.grantAcknowledgement n l) s fun t => t.hub.ledger = { s.hub.ledger with txns := [] } ∧ Exactly s t (fun h => { h with ledger := t.hub.ledger }) := by
  have htxn : s.work.txn l = some x := by
    show tfind s.hub.ledger.txns l = _
    rw [htxns]
    simp [tfind]
  have hclose : s.work.closeGrant l x = s.work.dropTxn l := by rw [Work.closeGrant, hafter, if_pos rfl]
  have hsnoop : (s.work.dropTxn l).hostSnoopNext l n = s.work.dropTxn l := by
    unfold Work.hostSnoopNext
    rw [show (s.work.dropTxn l).hostTxn l = none by show tfind s.hub.ledger.hostTxns l = none; rw [hhost]; rfl]
  have hledger : (s.work.dropTxn l).hub.ledger = { s.hub.ledger with txns := [] } := by
    show { s.hub.ledger with txns := tdel s.hub.ledger.txns l } = _
    rw [htxns]
    simp [tdel]
  refine does_work (w := s.work.dropTxn l) (show exec (.grantAcknowledgement n l) s = execGrantAcknowledgement n l s from rfl) ?_ ⟨hledger, rfl, rfl, rfl⟩
  rw [htxn]
  dsimp only
  rw [if_neg (by simp [hheld, hplaced]), if_pos hack, hclose, hsnoop]
  exact wakeHome_none hwaits hholds l

end

/-- Settles O32: what a home does with a read and with a request for a shared line, and the end of a grant, come to their own lemmas. -/
theorem homeRequests : Obligations.HomeRequests := by
  unfold Obligations.HomeRequests
  intro comes
  refine ⟨fun s id r n hc hk ha hd hf hone => ?_, fun s id r n hc hk ha hs _ hroom => ?_, fun s n l x ht hack hp haf hheld hhost hw hh => grantAcknowledgement_closes ht hack hp haf hheld hhost hw hh⟩
  · obtain ⟨h1, h2, h3, h4, h5, h6, h7, h8, h9, h10, h11, h12, h13, h14⟩ := hc
    exact homeRequest_reads ⟨h1, h2, h3, h4, h5, h6, h7, h8, h9, h10, h11, h12, h13, h14⟩ hk ha hd hf hone
  · obtain ⟨h1, h2, h3, h4, h5, h6, h7, h8, h9, h10, h11, h12, h13, h14⟩ := hc
    exact homeRequest_grants ⟨h1, h2, h3, h4, h5, h6, h7, h8, h9, h10, h11, h12, h13, h14⟩ hk ha hs hroom

end Sys2Proof.Machine
end

section
/-! PROOFS. The commands on Bearing tables: install, update, availability, flush, removal, round (R120-R124, R132). -/

namespace Sys2Proof.Machine

/-! ## Ranks closed elsewhere -/

theorem onHPort_same (w : Work) (k : Nat) (f : HPort → HPort) : Same offHawser w (w.onHPort k f) := rfl

theorem bodyPumpList_same (k : Nat) (l : List HWait) (stuck : List Nat) (w : Work) : Same offHawser w (w.bodyPumpList k l stuck) := by
  induction l generalizing w stuck with
  | nil => exact .refl _ w
  | cons x l ih =>
    unfold Work.bodyPumpList
    dsimp only
    split
    · exact (onHPort_same w k _).trans (ih _ _)
    · refine Same.trans ?_ (ih _ _)
      have hitem := (onHPort_same w k fun p => { p with credits := tset p.credits (msgChannel x.msg) (tget 0 (w.hport k).credits (msgChannel x.msg) - msgUnits x.msg) }).trans
        (hwsItem_same _ k (.body k x.msg))
      split
      · exact (hitem.trans (hwsItem_same _ _ _)).trans ((count_reports _ _ _ _ _).same _)
      · exact hitem

theorem sendBody_same (w : Work) (k : Nat) (m : BodyMsg) : Same offHawser w (w.sendBody k m) := by
  exact ((onHPort_same w k _).trans (onHPort_same _ k _)).trans (bodyPumpList_same k _ _ _)

/-- A hub without what carries packets to their origins: the fabric, and the fabric between hubs. -/
def offToks (h : Hub) : Hub := { h with fabric := {}, hawser := {} }

theorem Same.toks {w w' : Work} (h : Same offHawser w w') : Same offToks w w' := by have e := congrArg (fun x : Hub => { x with fabric := {} }) h; exact e

theorem sendTok_same (w : Work) (p : Packet) : Same offToks w (w.sendTok p) := rfl

/-- A rank is closed by a packet to its origin (R138): the packet leaves the tables and the engines' records. -/
theorem closeRank_same (w : Work) (p : Packet) (cause : Nat) : Same offToks w (w.closeRank p cause) := by
  unfold Work.closeRank Work.toOrigin
  split
  · exact sendTok_same w _
  · unfold Work.tokToHub
    cases w.route (handleHub { p with kind := .close, cause := cause, payload := [], beats := 0, fmt := 0, poison := false }.token) with
    | none => exact .refl _ w
    | some k => exact (sendBody_same w k _).toks

theorem Same.bearings_offToks {w w' : Work} (h : Same offToks w w') : w'.hub.bearings = w.hub.bearings := by have e := congrArg Hub.bearings h; exact e
theorem Same.tables_offToks {w w' : Work} (h : Same offToks w w') : w'.hub.tables = w.hub.tables := by have e := congrArg Hub.tables h; exact e

/-! ## Keepers and tables -/

section
variable (w : Work)

theorem keeper_onKeeper (b t : Nat) (f : Keeper → Keeper) : (w.onKeeper b t f).keeper b t = f (w.keeper b t) := by
  unfold Work.keeper Work.onKeeper Work.onBearing Work.bearing Work.onHub
  simp

theorem keeper_onKeeper_ne {b c : Nat} (t : Nat) (f : Keeper → Keeper) (h : c ≠ b) : (w.onKeeper b t f).keeper c t = w.keeper c t := by
  unfold Work.keeper Work.onKeeper Work.onBearing Work.bearing Work.onHub
  rw [tget_tmod_ne _ _ _ h]

variable {w} in
theorem keeper_of_bearings {v : Work} (h : v.hub.bearings = w.hub.bearings) (b t : Nat) : v.keeper b t = w.keeper b t := by
  unfold Work.keeper Work.bearing
  rw [h]

variable {w} in
theorem onTable_some {n : Nat} {tb : BTable} (h : w.table n = some tb) (f : BTable → BTable) : w.onTable n f = w.onHub fun x => { x with tables := tset x.tables n (f tb) } := by
  simp only [Work.onTable, h]

variable {w} in
theorem table_onTable {n : Nat} {tb : BTable} (h : w.table n = some tb) (f : BTable → BTable) : (w.onTable n f).table n = some (f tb) := by
  rw [onTable_some h]
  exact tfind_tset_self _ _ _

variable {w} in
theorem table_of_tables {v : Work} (h : v.hub.tables = w.hub.tables) (n : Nat) : v.table n = w.table n := by
  unfold Work.table
  rw [h]

end

section
variable {v : Work} {s : State} {e : EntryRef}

theorem Work.Answers.onTable (h : v.Answers s e) (n : Nat) (f : BTable → BTable) : (v.onTable n f).Answers s e := by
  unfold Work.onTable
  split
  · exact h.frame rfl (portUp_of_ports rfl) (mayIssue_of_ports rfl)
  · exact h

theorem Carries.answers {w : Work} (hc : Carries v w) (h : v.Answers s e) : w.Answers s e := h.frame hc.ten hc.up hc.issues

end

theorem bits_tableNumber (x : Nat) : bits x 263 256 ≤ 255 := by
  unfold bits
  omega

/-- The checks that the commands on an installed table share, passed by an entry that runs (R124). -/
theorem onInstalled_opens {s : State} {e : EntryRef} {x : Nat} {tb : BTable} (hh : s.work.holder 6 (bits x 263 256) = some e.berth) (ht : s.work.table (bits x 263 256) = some tb)
    (hopen : tb.removing = false) (k : BTable → Work → Work) : (s.work.markRunning e).onInstalled e (bits x 263 256) k = k tb (s.work.markRunning e) := by
  have hn : ¬ 255 < bits x 263 256 := Nat.not_lt.2 (bits_tableNumber x)
  have hh' : (s.work.markRunning e).holder 6 (bits x 263 256) = some e.berth := hh
  have ht' : (s.work.markRunning e).table (bits x 263 256) = some tb := ht
  simp only [Work.onInstalled, hn, hh', ht', hopen, ne_eq, not_true_eq_false, Bool.false_eq_true, if_false]

/-- A command whose work leaves the entry to complete: it completes, and the tables and the engines are as that work left them. -/
theorem Work.Answers.completes_tables {c : Instr} {s : State} {F : Work → Work} {v : Work} {e : EntryRef} {x : RingEntry} {op r : Nat} (h : v.Answers s e)
    (hi : s.Issued e x op) (hexec : exec c s = s.run F) (hF : F s.work = v.complete e stOk 0 r) :
    Does c s fun t => t.hub.tables = v.hub.tables ∧ t.hub.bearings = v.hub.bearings ∧ s.Completes t e x 0 0 r := by
  refine (h.does_complete hi hexec hF).imp fun t ⟨hdone, hrings, _, _⟩ => ⟨hrings.tables, ?_, hdone⟩
  have e := congrArg Hub.bearings hrings
  exact e

/-! ## BEARING_INSTALL -/

/-- The entries of a table image (R121). -/
def imageEntries (i count base : Nat) : List ExpEntry := (List.range count).map fun j => expEntryOf (bits i (base + 128 * j + 127) (base + 128 * j))

theorem exec_bearingInstall (e : EntryRef) (s : State) : exec (.bearingInstall e) s = s.run fun w => w.command e 0x08 false fun x w => w.withStructure e x 256 fun i w =>
    if 1024 < bits i 59 48 then w.bearingInstall e i
    else w.withStructure e x (256 + 16 * bits i 59 48) fun i w => w.bearingInstall e i := rfl

/-- An image that passes every check is installed (R122). -/
theorem bearingInstall_installs {w : Work} {e : EntryRef} {i : Nat} {es : List ExpEntry} (hes : es = imageEntries i (tabHdrOf i).nexp 2048) (hv : bits i 15 0 = 1)
    (hb : (tabHdrOf i).berth = e.berth) (hlt : e.berth < 4096) (hhigh : w.hub.board.berthsHigh = true) (hident : es.all w.entryIdent = true)
    (howned : es.all (w.entryOwned e.berth) = true) (hheld : w.holder 6 (bits i 23 16) = some e.berth) (hfree : w.table (bits i 23 16) = none)
    (hshape : w.tableShape (tabHdrOf i) es = true) (hspace : w.tableStore + 256 + 16 * (tabHdrOf i).nexp ≤ 2 ^ 20) :
    w.bearingInstall e i = (w.onHub fun x => { x with tables := tset x.tables (bits i 23 16) { hdr := tabHdrOf i, experts := es } }).complete e stOk := by
  subst hes
  unfold imageEntries at hident howned hshape ⊢
  simp only [Work.bearingInstall, hv, hb, Nat.not_le.2 hlt, hhigh, hident, howned, hheld, hfree, hshape, Nat.not_lt.2 hspace, ne_eq, not_true_eq_false, decide_false, Bool.not_true,
    Bool.false_and, Bool.or_self, Option.isSome_none, Bool.false_eq_true, if_false]

theorem does_bearingInstall {s : State} {e : EntryRef} {x : RingEntry} {i n : Nat} {es : List ExpEntry} (hi : s.Issued e x 0x08) (hhead : s.HostReads e x 256)
    (hcount : bits (s.hostWord e x 256) 59 48 ≤ 1024) (hn : n = 256 + 16 * bits (s.hostWord e x 256) 59 48) (hreads : s.HostReads e x n) (hword : i = s.hostWord e x n)
    (hinstalls : (s.work.markRunning e).bearingInstall e i =
      ((s.work.markRunning e).onHub fun x => { x with tables := tset x.tables (bits i 23 16) { hdr := tabHdrOf i, experts := es } }).complete e stOk) :
    Does (.bearingInstall e) s fun t => t.work.table (bits i 23 16) = some { hdr := tabHdrOf i, experts := es } ∧ s.Completes t e x 0 0 0 := by
  subst hn
  have hbegins := (command_begins hi (.inl (by omega)) fun x w => w.withStructure e x 256 fun i w => if 1024 < bits i 59 48 then w.bearingInstall e i
    else w.withStructure e x (256 + 16 * bits i 59 48) fun i w => w.bearingInstall e i).trans (withStructure_host hhead _)
  rw [if_neg (Nat.not_lt.2 hcount), withStructure_host hreads, ← hword] at hbegins
  have hanswers : ((s.work.markRunning e).onHub fun x => { x with tables := tset x.tables (bits i 23 16) { hdr := tabHdrOf i, experts := es } }).Answers s e :=
    (markRunning_answers s e).frame rfl (portUp_of_ports rfl) (mayIssue_of_ports rfl)
  refine (hanswers.completes_tables hi (exec_bearingInstall e s) (hbegins.trans hinstalls)).imp fun t ⟨htables, _, hdone⟩ => ⟨?_, hdone⟩
  exact (congrArg (tfind · (bits i 23 16)) htables).trans (tfind_tset_self _ _ _)

/-! ## BEARING_UPDATE -/

/-- A table whose update begins (R124). -/
def updBegun (first : Nat) (es : List ExpEntry) (e : EntryRef) (t : BTable) : BTable := { t with upd := some { first := first, experts := es, entry := e } }

/-- A table of whose update one replica more has taken. -/
def updGoes (u : TabUpdate) (t : BTable) : BTable := { t with upd := some { u with done := u.done + 1 } }

/-- A table whose update all replicas have taken. -/
def updTaken (u : TabUpdate) (t : BTable) : BTable := { t with upd := none, experts := replaceRun t.experts u.first u.experts }

/-- A replica that takes an update changes what its keeper has counted, and no more. -/
theorem replicaTakes_bearings (w : Work) (b n : Nat) (t : BTable) (u : TabUpdate) : ∃ l, w.replicaTakes b n t u = w.onHub fun h => { h with bearings := l } := by
  unfold Work.replicaTakes
  dsimp only
  split
  · exact ⟨w.hub.bearings, rfl⟩
  · exact ⟨_, rfl⟩

section
variable {w : Work} {n : Nat} {tb : BTable} {u : TabUpdate}

theorem updateNext_goes (ht : w.table n = some tb) (hu : tb.upd = some u) (hlt : u.done + 1 < 16) : w.updateNext n = (w.replicaTakes u.done n tb u).onTable n (updGoes u) := by
  simp only [Work.updateNext, ht, hu, hlt, if_true]
  rfl

theorem updateNext_ends (ht : w.table n = some tb) (hu : tb.upd = some u) (hlast : u.done = 15) :
    w.updateNext n = ((w.replicaTakes 15 n tb u).onTable n (updTaken u)).complete u.entry stOk := by
  simp only [Work.updateNext, ht, hu, hlast, Nat.lt_irrefl, if_false]
  rfl

/-- One replica after another takes an update: the table counts them, its engines' records alone have changed besides. -/
theorem updateNext_exactly (ht : w.table n = some tb) (hu : tb.upd = some u) (hlt : u.done + 1 < 16) :
    (w.updateNext n).table n = some (updGoes u tb) ∧ ∃ l, w.updateNext n = w.onHub fun h => { h with tables := tset h.tables n (updGoes u tb), bearings := l } := by
  rw [updateNext_goes ht hu hlt]
  obtain ⟨l, hl⟩ := replicaTakes_bearings w u.done n tb u
  have ht' : (w.replicaTakes u.done n tb u).table n = some tb := by rw [hl]; exact ht
  refine ⟨table_onTable ht' _, l, ?_⟩
  rw [onTable_some ht', hl]
  rfl

end

/-- BEARING_UPDATE of a table whose checks of the header are passed: the entries that the pointer names. -/
def Work.updateAt (w : Work) (e : EntryRef) (x : Nat) (t : BTable) : Work :=
  if t.experts.length < bits x 275 264 + bits x 287 276 then w.complete e stBadShape
  else w.withStructure e x (16 * bits x 287 276) fun i w =>
    let es := (List.range (bits x 287 276)).map fun j => expEntryOf (bits i (128 * j + 127) (128 * j))
    if !es.all w.entryIdent then w.complete e stBadIdent
    else if !es.all (w.entryOwned e.berth) then w.complete e stNotOwner
    else if !es.all w.entryShape || (t.hdr.remoteTimeout = 0 && es.any fun x => x.kind = 3) then w.complete e stBadShape
    else ((w.onTable (bits x 263 256) (updBegun (bits x 275 264) es e)).setPartial e).updateNext (bits x 263 256)

theorem exec_bearingUpdate (e : EntryRef) (s : State) : exec (.bearingUpdate e) s = s.run fun w => match w.updating e with
    | some n => w.updateNext n
    | none => if w.updateBusy e then w else w.command e 0x09 false fun x w => w.onInstalled e (bits x 263 256) fun t w => w.updateAt e x t := rfl

/-- Entries in host memory that pass every check begin the update of their table, and the first replica takes it. -/
theorem updateAt_begins {s : State} {e : EntryRef} {x : RingEntry} {tb : BTable} {es : List ExpEntry}
    (hlen : bits x.word 275 264 + bits x.word 287 276 ≤ tb.experts.length) (hreads : s.HostReads e x (16 * bits x.word 287 276))
    (hes : es = (List.range (bits x.word 287 276)).map fun j => expEntryOf (bits (s.hostWord e x (16 * bits x.word 287 276)) (128 * j + 127) (128 * j)))
    (hident : es.all s.work.entryIdent = true) (howned : es.all (s.work.entryOwned e.berth) = true) (hshape : es.all s.work.entryShape = true)
    (hremote : es.all (fun y => y.kind ≠ 3) = true) :
    (s.work.markRunning e).updateAt e x.word tb =
      (((s.work.markRunning e).onTable (bits x.word 263 256) (updBegun (bits x.word 275 264) es e)).setPartial e).updateNext (bits x.word 263 256) := by
  have hident' : es.all (s.work.markRunning e).entryIdent = true := hident
  have howned' : es.all ((s.work.markRunning e).entryOwned e.berth) = true := howned
  have hshape' : es.all (s.work.markRunning e).entryShape = true := hshape
  have hnone : (es.any fun x => x.kind = 3) = false := by
    rw [List.any_eq_false]
    intro y hy
    have hne := List.all_eq_true.1 hremote y hy
    simpa using hne
  unfold Work.updateAt
  rw [if_neg (Nat.not_lt.2 hlen), withStructure_host hreads]
  dsimp only
  rw [← hes]
  simp only [hident', howned', hshape', hnone, Bool.not_true, Bool.and_false, Bool.or_self, Bool.false_eq_true, if_false]

theorem updating_none {w : Work} (h : ∀ y ∈ w.hub.tables, y.2.upd = none) (e : EntryRef) : w.updating e = none := by
  have hfind : (w.hub.tables.find? fun (_, t) => t.upd.any fun u => u.entry = e) = none := by
    rw [List.find?_eq_none]
    intro y hy
    simp [h y hy]
  simp only [Work.updating, hfind, Option.map_none]

theorem does_updateBegins {s : State} {e : EntryRef} {x : RingEntry} {tb : BTable} {es : List ExpEntry} {n : Nat} (hi : s.Issued e x 0x09)
    (hheld : s.work.holder 6 (bits x.word 263 256) = some e.berth) (ht : s.work.table (bits x.word 263 256) = some tb) (hopen : tb.removing = false) (hupd : tb.upd = none)
    (hidle : ∀ y ∈ s.hub.tables, y.2.upd = none) (hn : n = bits x.word 287 276) (hlen : bits x.word 275 264 + n ≤ tb.experts.length) (hreads : s.HostReads e x (16 * n))
    (hes : es = (List.range n).map (fun j => expEntryOf (bits (s.hostWord e x (16 * n)) (128 * j + 127) (128 * j))))
    (hident : es.all s.work.entryIdent = true) (howned : es.all (s.work.entryOwned e.berth) = true) (hshape : es.all s.work.entryShape = true)
    (hremote : es.all (fun y => y.kind ≠ 3) = true) : Does (.bearingUpdate e) s fun t =>
      t.work.table (bits x.word 263 256) = some (updGoes { first := bits x.word 275 264, experts := es, entry := e } (updBegun (bits x.word 275 264) es e tb)) := by
  subst hn
  have hbusy : s.work.updateBusy e = false := by simp only [Work.updateBusy, hi.1, Option.bind_some, ht, hupd, Option.isSome_none]
  have hopens : (s.work.markRunning e).onInstalled e (bits x.word 263 256) (fun t w => w.updateAt e x.word t) = (s.work.markRunning e).updateAt e x.word tb :=
    onInstalled_opens hheld ht hopen _
  have hbegins := ((command_begins hi (.inl (by omega)) fun x w => w.onInstalled e (bits x 263 256) fun t w => w.updateAt e x t).trans hopens).trans
    (updateAt_begins hlen hreads hes hident howned hshape hremote)
  refine does_work (exec_bearingUpdate e s) (w := (((s.work.markRunning e).onTable (bits x.word 263 256) (updBegun (bits x.word 275 264) es e)).setPartial e).updateNext (bits x.word 263 256)) ?_ ?_
  · have hnone : s.work.updating e = none := updating_none hidle e
    simp only [hnone, hbusy, Bool.false_eq_true, if_false]
    exact hbegins
  · have hbegun : (((s.work.markRunning e).onTable (bits x.word 263 256) (updBegun (bits x.word 275 264) es e)).setPartial e).table (bits x.word 263 256)
        = some (updBegun (bits x.word 275 264) es e tb) := by
      have ht' : (s.work.markRunning e).table (bits x.word 263 256) = some tb := ht
      exact table_onTable ht' _
    exact (updateNext_exactly hbegun rfl (show 0 + 1 < 16 by decide)).1

/-- The replicas that have taken an update have its entries, the others have theirs. -/
theorem replica_of_table {w : Work} {n : Nat} {t : BTable} {u : TabUpdate} (h : w.table n = some t) (hu : t.upd = some u) (b : Nat) :
    w.replica b n = some (if b < u.done then { w.table n |>.getD {} with experts := replaceRun t.experts u.first u.experts } else w.table n |>.getD {}) := by
  simp only [Work.replica, h, Option.map_some, hu, Option.getD_some]

theorem does_updateGoes {s : State} {e : EntryRef} {n : Nat} {tb : BTable} {u : TabUpdate} (hupdating : s.work.updating e = some n) (ht : s.work.table n = some tb)
    (hu : tb.upd = some u) (hlt : u.done + 1 < 16) : Does (.bearingUpdate e) s fun t =>
      t.work.table n = some { tb with upd := some { u with done := u.done + 1 } } ∧ Exactly s t (fun h => { h with tables := t.hub.tables, bearings := t.hub.bearings }) := by
  obtain ⟨htable, l, heq⟩ := updateNext_exactly ht hu hlt
  refine does_work (exec_bearingUpdate e s) (w := s.work.updateNext n) (by simp only [hupdating]) ⟨htable, rfl, ?_, ?_⟩
  · rw [heq]
    rfl
  · rw [heq]
    rfl

/-- An entry that asks for neither mark nor interrupt completes: the tables stand. -/
theorem complete_tables {v : Work} {s : State} {e : EntryRef} {x : RingEntry} (hten : v.hub.ten = s.hub.ten) (hs : s.work.started e = some x)
    (hpx : (s.work.ring e.berth e.ring).px2 = false) (hmark : bit x.word 15 = false) (hirq : bit x.word 13 = false) (st : Nat) : (v.complete e st).hub.tables = v.hub.tables := by
  rw [complete_plain hten hs hpx hmark hirq]
  exact (RingsOnly.onRing ((hostWrite_reports v _ _ _).trans (count_reports _ _ _ _ _)) e.berth e.ring (retireEntry e.index)).tables

/-- The work whose last replica has taken an update. -/
def Work.lastTakes (w : Work) (l : Tab Bearing) (n : Nat) (t : BTable) : Work := w.onHub fun h => { h with bearings := l, tables := tset h.tables n t }

theorem does_updateEnds {s : State} {e : EntryRef} {x : RingEntry} {n : Nat} {tb : BTable} {u : TabUpdate} (hupdating : s.work.updating e = some n) (ht : s.work.table n = some tb)
    (hu : tb.upd = some u) (hlast : u.done = 15) (hentry : u.entry = e) (hs : s.work.started e = some x) (hpx : (s.work.ring e.berth e.ring).px2 = false)
    (hmark : bit x.word 15 = false) (hirq : bit x.word 13 = false) : Does (.bearingUpdate e) s fun t =>
      t.work.table n = some { tb with upd := none, experts := replaceRun tb.experts u.first u.experts } ∧ s.Completes t e x 0 0 0 := by
  obtain ⟨l, hl⟩ := replicaTakes_bearings s.work 15 n tb u
  have ht' : (s.work.replicaTakes 15 n tb u).table n = some tb := by rw [hl]; exact ht
  have hends : s.work.updateNext n = (s.work.lastTakes l n (updTaken u tb)).complete e stOk := by
    rw [updateNext_ends ht hu hlast, onTable_some ht', hl, hentry]
    rfl
  have hten : (s.work.lastTakes l n (updTaken u tb)).hub.ten = s.hub.ten := rfl
  have hgone := complete_gone hten (portUp_of_ports rfl) (mayIssue_of_ports rfl) hs hpx hmark hirq 0
  refine does_work (exec_bearingUpdate e s) (w := (s.work.lastTakes l n (updTaken u tb)).complete e stOk) ?_ ⟨?_, hgone⟩
  · simp only [hupdating]
    exact hends
  · exact (congrArg (tfind · n) (complete_tables hten hs hpx hmark hirq 0)).trans (tfind_tset_self _ _ _)

/-! ## BEARING_AVAIL -/

/-- The availability marks of a run of experts, set or cleared (R124). -/
def marksOf (x : Nat) (u : List Nat) : List Nat :=
  ((List.range (bits x 287 276)).map (· + bits x 275 264)).foldl (fun u i => if bit x 288 then rmv u i else addTo u i) u

theorem exec_bearingAvail (e : EntryRef) (s : State) : exec (.bearingAvail e) s = s.run fun w => w.command e 0x0A false fun x w =>
    w.onInstalled e (bits x 263 256) fun t w =>
      if t.experts.length < bits x 275 264 + bits x 287 276 then w.complete e stBadShape
      else (w.onTable (bits x 263 256) fun t => { t with unavailable := marksOf x t.unavailable }).complete e stOk := rfl

/-- A run of experts put into a set or taken from it. -/
theorem mem_markRun (set : Bool) (l u : List Nat) (i : Nat) : i ∈ l.foldl (fun u i => if set then rmv u i else addTo u i) u ↔ if i ∈ l then set = false else i ∈ u := by
  induction l generalizing u with
  | nil => simp
  | cons a l ih =>
    rw [List.foldl_cons, ih]
    cases set with
    | true => by_cases hl : i ∈ l <;> by_cases ha : i = a <;> simp [hl, ha]
    | false => by_cases hl : i ∈ l <;> by_cases ha : i = a <;> simp [hl, ha]

theorem mem_marksOf (x : Nat) (u : List Nat) (i : Nat) :
    i ∈ marksOf x u ↔ if bits x 275 264 ≤ i ∧ i < bits x 275 264 + bits x 287 276 then bit x 288 = false else i ∈ u := by
  have hrun : i ∈ (List.range (bits x 287 276)).map (· + bits x 275 264) ↔ bits x 275 264 ≤ i ∧ i < bits x 275 264 + bits x 287 276 := by
    rw [List.mem_map]
    constructor
    · rintro ⟨j, hj, rfl⟩
      have hlt := List.mem_range.1 hj
      omega
    · rintro ⟨hlo, hhi⟩
      exact ⟨i - bits x 275 264, List.mem_range.2 (by omega), by omega⟩
  unfold marksOf
  rw [mem_markRun]
  simp only [hrun]

theorem does_bearingAvail {s : State} {e : EntryRef} {x : RingEntry} {tb : BTable} (hi : s.Issued e x 0x0A) (hheld : s.work.holder 6 (bits x.word 263 256) = some e.berth)
    (ht : s.work.table (bits x.word 263 256) = some tb) (hopen : tb.removing = false) (hlen : bits x.word 275 264 + bits x.word 287 276 ≤ tb.experts.length) :
    Does (.bearingAvail e) s fun t => t.work.table (bits x.word 263 256) = some { tb with unavailable := marksOf x.word tb.unavailable } ∧ s.Completes t e x 0 0 0 := by
  have ht' : (s.work.markRunning e).table (bits x.word 263 256) = some tb := ht
  have hopens : (s.work.markRunning e).onInstalled e (bits x.word 263 256) (fun t w =>
      if t.experts.length < bits x.word 275 264 + bits x.word 287 276 then w.complete e stBadShape
      else (w.onTable (bits x.word 263 256) fun t => { t with unavailable := marksOf x.word t.unavailable }).complete e stOk) =
      ((s.work.markRunning e).onTable (bits x.word 263 256) fun t => { t with unavailable := marksOf x.word t.unavailable }).complete e stOk :=
    (onInstalled_opens hheld ht hopen _).trans (if_neg (Nat.not_lt.2 hlen))
  have hbegins := (command_begins hi (.inl (by omega)) fun x w => w.onInstalled e (bits x 263 256) fun t w =>
      if t.experts.length < bits x 275 264 + bits x 287 276 then w.complete e stBadShape
      else (w.onTable (bits x 263 256) fun t => { t with unavailable := marksOf x t.unavailable }).complete e stOk).trans hopens
  refine (((markRunning_answers s e).onTable _ _).completes_tables hi (exec_bearingAvail e s) hbegins).imp fun t ⟨htables, _, hdone⟩ => ⟨?_, hdone⟩
  exact (congrArg (tfind · (bits x.word 263 256)) htables).trans (table_onTable ht' _)

/-! ## Flush and removal -/

/-- One keeper's deferred tokens of a table close (R124). -/
def Work.flushAt (w : Work) (t b : Nat) : Work :=
  each (w.deferredAt b t) (fun p w => w.closeRank p 14) (w.onKeeper b t fun k => { k with ring := [], todo := 0 })

theorem flushTable_eq (w : Work) (t : Nat) : w.flushTable t = each (List.range 16) (fun b w => w.flushAt t b) w := rfl

section
variable (w : Work) (t b : Nat)

theorem onKeeper_carries (f : Keeper → Keeper) : Carries w (w.onKeeper b t f) := .elsewhere rfl rfl rfl rfl

theorem closeRanks_same (l : List Packet) (cause : Nat) : Same offToks w (each l (fun p w => w.closeRank p cause) w) := .each _ _ w fun p v => closeRank_same v p cause

theorem flushAt_carries : Carries w (w.flushAt t b) := (onKeeper_carries w t b _).trans (.each _ _ _ fun p v => closeRank_carries v p 14)

theorem flushAt_tables : (w.flushAt t b).hub.tables = w.hub.tables := (closeRanks_same (w.onKeeper b t fun k => { k with ring := [], todo := 0 }) _ 14).tables_offToks

theorem flushAt_ring : ((w.flushAt t b).keeper b t).ring = [] := by
  have hkeeper : (w.flushAt t b).keeper b t = (w.onKeeper b t fun k => { k with ring := [], todo := 0 }).keeper b t :=
    keeper_of_bearings (closeRanks_same _ _ 14).bearings_offToks b t
  rw [hkeeper, keeper_onKeeper]

theorem flushAt_keeps {c : Nat} (h : (w.keeper c t).ring = []) : ((w.flushAt t b).keeper c t).ring = [] := by
  by_cases hcb : c = b
  · rw [hcb]
    exact flushAt_ring w t b
  · have hkeeper : (w.flushAt t b).keeper c t = (w.onKeeper b t fun k => { k with ring := [], todo := 0 }).keeper c t :=
      keeper_of_bearings (closeRanks_same _ _ 14).bearings_offToks c t
    rw [hkeeper, keeper_onKeeper_ne _ _ _ hcb]
    exact h

theorem flushTable_carries : Carries w (w.flushTable t) := .each _ _ w fun b v => flushAt_carries v t b

theorem flushTable_tables : (w.flushTable t).hub.tables = w.hub.tables := by
  rw [flushTable_eq]
  exact each_same (fun v : Work => v.hub.tables) _ _ w fun b v => flushAt_tables v t b

variable {b} in
/-- After a flush no keeper holds a deferred token of the table. -/
theorem flushTable_rings (hb : b < 16) : ((w.flushTable t).keeper b t).ring = [] :=
  each_reaches (q := fun _ => True) (r := fun v : Work => (v.keeper b t).ring = []) _ _ (List.mem_range.2 hb) trivial (fun _ _ _ => trivial) (fun v _ => flushAt_ring v t b)
    fun c v _ h => flushAt_keeps v t c h

end

theorem exec_bearingFlush (e : EntryRef) (s : State) : exec (.bearingFlush e) s = s.run fun w => w.command e 0x0B false fun x w =>
    w.onInstalled e (bits x 263 256) fun _ w => (w.flushTable (bits x 263 256)).complete e stOk 0 (w.deferredOf (bits x 263 256)) := rfl

theorem does_bearingFlush {s : State} {e : EntryRef} {x : RingEntry} {tb : BTable} (hi : s.Issued e x 0x0B) (hheld : s.work.holder 6 (bits x.word 263 256) = some e.berth)
    (ht : s.work.table (bits x.word 263 256) = some tb) (hopen : tb.removing = false) : Does (.bearingFlush e) s fun t =>
      (∀ b < 16, (t.work.keeper b (bits x.word 263 256)).ring = []) ∧ s.Completes t e x 0 0 (s.work.deferredOf (bits x.word 263 256)) := by
  have hopens : (s.work.markRunning e).onInstalled e (bits x.word 263 256) (fun _ w => (w.flushTable (bits x.word 263 256)).complete e stOk 0 (w.deferredOf (bits x.word 263 256))) =
      ((s.work.markRunning e).flushTable (bits x.word 263 256)).complete e stOk 0 (s.work.deferredOf (bits x.word 263 256)) :=
    onInstalled_opens hheld ht hopen _
  have hbegins := (command_begins hi (.inl (by omega)) fun x w => w.onInstalled e (bits x 263 256) fun _ w =>
    (w.flushTable (bits x 263 256)).complete e stOk 0 (w.deferredOf (bits x 263 256))).trans hopens
  have hanswers := (flushTable_carries (s.work.markRunning e) (bits x.word 263 256)).answers (markRunning_answers s e)
  refine (hanswers.completes_tables hi (exec_bearingFlush e s) hbegins).imp fun t ⟨_, hbearings, hdone⟩ => ⟨fun b hb => ?_, hdone⟩
  have hkeeper : t.work.keeper b (bits x.word 263 256) = _ := keeper_of_bearings hbearings b _
  rw [hkeeper]
  exact flushTable_rings _ _ hb

theorem exec_bearingRemove (e : EntryRef) (s : State) : exec (.bearingRemove e) s = s.run fun w => w.command e 0x0C false fun x w =>
    w.onInstalled e (bits x 263 256) fun _ w => w.tableRemove (bits x 263 256) (some e) := rfl

/-- Where no update runs on a table a removal has none to finish. -/
theorem updateEnds_none {w : Work} {n : Nat} {tb : BTable} (ht : w.table n = some tb) (hu : tb.upd = none) : w.updateEnds n = w :=
  each_fixed _ _ _ fun _ _ => by simp only [Work.updateNext, ht, hu]

/-- A removal that begins where no update runs (R124). -/
def removalBegun (e : EntryRef) (n : Nat) (t : BTable) : BTable := { t with removing := true, removeEntry := some e, aborted := n }

theorem tableRemove_eq {w : Work} {n : Nat} {tb : BTable} (ht : w.table n = some tb) (hu : tb.upd = none) (e : EntryRef) :
    w.tableRemove n (some e) = (w.onTable n (removalBegun e (w.deferredOf n))).flushTable n := by
  unfold Work.tableRemove
  rw [updateEnds_none ht hu]
  rfl

theorem does_bearingRemove {s : State} {e : EntryRef} {x : RingEntry} {tb : BTable} (hi : s.Issued e x 0x0C) (hheld : s.work.holder 6 (bits x.word 263 256) = some e.berth)
    (ht : s.work.table (bits x.word 263 256) = some tb) (hopen : tb.removing = false) (hupd : tb.upd = none) : Does (.bearingRemove e) s fun t =>
      t.work.table (bits x.word 263 256) = some { tb with removing := true, removeEntry := some e, aborted := s.work.deferredOf (bits x.word 263 256) }
      ∧ ∀ b < 16, (t.work.keeper b (bits x.word 263 256)).ring = [] := by
  have ht' : (s.work.markRunning e).table (bits x.word 263 256) = some tb := ht
  have hopens : (s.work.markRunning e).onInstalled e (bits x.word 263 256) (fun _ w => w.tableRemove (bits x.word 263 256) (some e)) =
      ((s.work.markRunning e).onTable (bits x.word 263 256) (removalBegun e (s.work.deferredOf (bits x.word 263 256)))).flushTable (bits x.word 263 256) :=
    (onInstalled_opens hheld ht hopen _).trans (tableRemove_eq ht' hupd e)
  have hbegins := (command_begins hi (.inl (by omega)) fun x w => w.onInstalled e (bits x 263 256) fun _ w => w.tableRemove (bits x 263 256) (some e)).trans hopens
  have htable := (table_of_tables (flushTable_tables _ (bits x.word 263 256)) (bits x.word 263 256)).trans
    (table_onTable ht' (removalBegun e (s.work.deferredOf (bits x.word 263 256))))
  have hrings := fun b (hb : b < 16) => flushTable_rings ((s.work.markRunning e).onTable (bits x.word 263 256) (removalBegun e (s.work.deferredOf (bits x.word 263 256)))) (bits x.word 263 256) hb
  generalize ((s.work.markRunning e).onTable (bits x.word 263 256) (removalBegun e (s.work.deferredOf (bits x.word 263 256)))).flushTable (bits x.word 263 256) = v at *
  exact does_work (exec_bearingRemove e s) hbegins ⟨htable, hrings⟩

/-! ## BEARING_ROUND -/

/-- The next round at a keeper that holds nothing (R132). -/
def nextRound (k : Keeper) : Keeper := { k with round := (k.round + 1) % 2 ^ 32, counts := [], ring := [], todo := 0 }

theorem advance_empty {w : Work} {t b : Nat} (h : (w.keeper b t).ring = []) : ∃ l, w.advance t b = w.onHub (fun x => { x with bearings := l })
    ∧ (w.advance t b).keeper b t = nextRound (w.keeper b t) ∧ ∀ c, c ≠ b → (w.advance t b).keeper c t = w.keeper c t := by
  have hadvance : w.advance t b = w.onKeeper b t fun k => { k with round := (k.round + 1) % 2 ^ 32, counts := [], todo := 0, passing := false || k.passing } := by
    unfold Work.advance
    rw [h]
    rfl
  rw [hadvance]
  refine ⟨_, rfl, ?_, fun c hc => keeper_onKeeper_ne w t _ hc⟩
  rw [keeper_onKeeper, nextRound, ← h]
  simp only [Bool.false_or]

/-- The round advances once at each of a list of keepers that hold nothing. -/
theorem advances_empty (t : Nat) (bs : List Nat) (w : Work) (hn : bs.Nodup) (h : ∀ b ∈ bs, (w.keeper b t).ring = []) :
    ∃ l, each bs (fun b w => w.advance t b) w = w.onHub (fun x => { x with bearings := l })
    ∧ (∀ b ∈ bs, (each bs (fun b w => w.advance t b) w).keeper b t = nextRound (w.keeper b t))
    ∧ ∀ c, c ∉ bs → (each bs (fun b w => w.advance t b) w).keeper c t = w.keeper c t := by
  induction bs generalizing w with
  | nil => exact ⟨w.hub.bearings, rfl, by simp, fun _ _ => rfl⟩
  | cons b bs ih =>
    obtain ⟨hnew, hrest⟩ := List.nodup_cons.1 hn
    obtain ⟨l, hl, hself, hothers⟩ := advance_empty (h b List.mem_cons_self)
    have hempty : ∀ c ∈ bs, ((w.advance t b).keeper c t).ring = [] := fun c hc => by
      rw [hothers c fun hcb => hnew (hcb ▸ hc)]
      exact h c (List.mem_cons_of_mem _ hc)
    obtain ⟨m, hm, hmembers, hnot⟩ := ih (w.advance t b) hrest hempty
    rw [each_cons]
    refine ⟨m, ?_, fun c hc => ?_, fun c hc => ?_⟩
    · rw [hm, hl]
      rfl
    · rcases List.mem_cons.1 hc with rfl | hc
      · rw [hnot c hnew, hself]
      · rw [hmembers c hc, hothers c fun hcb => hnew (hcb ▸ hc)]
    · rw [hnot c fun hcb => hc (List.mem_cons_of_mem _ hcb), hothers c fun hcb => hc (hcb ▸ List.mem_cons_self)]

theorem exec_bearingRound (e : EntryRef) (s : State) : exec (.bearingRound e) s = s.run fun w => w.command e 0x0D false fun x w =>
    w.onInstalled e (bits x 263 256) fun _ w => (w.advanceAll (bits x 263 256)).complete e stOk := rfl

theorem does_bearingRound {s : State} {e : EntryRef} {x : RingEntry} {tb : BTable} (hi : s.Issued e x 0x0D) (hheld : s.work.holder 6 (bits x.word 263 256) = some e.berth)
    (ht : s.work.table (bits x.word 263 256) = some tb) (hopen : tb.removing = false) (hempty : ∀ b < 16, (s.work.keeper b (bits x.word 263 256)).ring = []) :
    Does (.bearingRound e) s fun t => (∀ b < 16, t.work.keeper b (bits x.word 263 256) = nextRound (s.work.keeper b (bits x.word 263 256))) ∧ s.Completes t e x 0 0 0 := by
  have hopens : (s.work.markRunning e).onInstalled e (bits x.word 263 256) (fun _ w => (w.advanceAll (bits x.word 263 256)).complete e stOk) =
      ((s.work.markRunning e).advanceAll (bits x.word 263 256)).complete e stOk := onInstalled_opens hheld ht hopen _
  have hbegins := (command_begins hi (.inl (by omega)) fun x w => w.onInstalled e (bits x 263 256) fun _ w => (w.advanceAll (bits x 263 256)).complete e stOk).trans hopens
  obtain ⟨l, hl, hrounds, _⟩ := advances_empty (bits x.word 263 256) (List.range 16) (s.work.markRunning e) List.nodup_range fun b hb => hempty b (List.mem_range.1 hb)
  have hanswers : ((s.work.markRunning e).advanceAll (bits x.word 263 256)).Answers s e := by
    rw [Work.advanceAll, hl]
    exact (markRunning_answers s e).frame rfl (portUp_of_ports rfl) (mayIssue_of_ports rfl)
  refine (hanswers.completes_tables hi (exec_bearingRound e s) hbegins).imp fun t ⟨_, hbearings, hdone⟩ => ⟨fun b hb => ?_, hdone⟩
  have hkeeper : t.work.keeper b (bits x.word 263 256) = _ := keeper_of_bearings hbearings b _
  rw [hkeeper]
  exact hrounds b (List.mem_range.2 hb)

/-- Settles O9: each command on a table that passes its checks acts on it; an update goes from replica to replica. -/
theorem bearingTables : Obligations.BearingTables := by
  unfold Obligations.BearingTables
  refine ⟨?install, ?begins, fun s e n tb u => does_updateGoes, fun s e x n tb u => does_updateEnds, ?avail, fun s e x tb => does_bearingFlush, fun s e x tb => does_bearingRemove,
    fun s e x tb => does_bearingRound⟩
  case install =>
    intro s e x n i h es hi hhead hcount hn hreads hword hhdr hes hv hb hlt hhigh hident howned hheld hfree hshape hspace
    subst hhdr
    exact does_bearingInstall hi hhead hcount hn hreads hword (bearingInstall_installs (w := s.work.markRunning e) hes hv hb hlt hhigh hident howned hheld hfree hshape hspace)
  case begins =>
    intro s e x tb n es hi hheld ht hopen hupd hidle hn hlen hreads hes hident howned hshape hremote
    refine (does_updateBegins hi hheld ht hopen hupd hidle hn hlen hreads hes hident howned hshape hremote).imp fun t htable => ⟨htable, fun b => ?_⟩
    exact replica_of_table htable rfl b
  case avail =>
    intro s e x tb hi hheld ht hopen hlen
    refine (does_bearingAvail hi hheld ht hopen hlen).imp fun t ⟨htable, hdone⟩ => ?_
    rw [htable]
    exact ⟨rfl, fun i => mem_marksOf x.word tb.unavailable i, hdone⟩

end Sys2Proof.Machine
end

section
/-! PROOFS. What an access of the hub's own engines leaves of the ports: no more than reports do (R301, R333-R341, R347-R353). -/

namespace Sys2Proof.Machine

section
variable (w : Work)

theorem onBwr_portsKept (f : Bwr → Bwr) : PortsKept w (w.onBwr f) := .elsewhere rfl
theorem viewCount_portsKept (b i n : Nat) : PortsKept w (w.viewCount b i n) := .elsewhere rfl
theorem onMem_portsKept (f : MemUnits → MemUnits) : PortsKept w (w.onMem f) := .elsewhere rfl
theorem onChart_portsKept (f : Chart → Chart) : PortsKept w (w.onChart f) := .elsewhere rfl

variable {w} in
/-- What was counted, or counted in a berth's view too, leaves the ports. -/
theorem PortsKept.counted {v : Work} (h : PortsKept w v) (k i c n : Nat) : PortsKept w (v.count k i c n) := h.trans (count_portsKept _ _ _ _ _)

variable {w} in
theorem PortsKept.viewed {v : Work} (h : PortsKept w v) (b i n : Nat) : PortsKept w (v.viewCount b i n) := h.trans (viewCount_portsKept _ _ _ _)

theorem charge_portsKept (b k ctl n : Nat) : PortsKept w (w.charge b k ctl n) := by
  have hcredit : PortsKept w (match tfind w.hub.bwr.recs (w.groupOf b * 10 + k) with
      | some _ => w.setCredit (w.groupOf b * 10 + k) ctl (max (-(w.accrual (w.groupOf b * 10 + k) 2 : Int)) (w.creditNow (w.groupOf b * 10 + k) ctl - n))
      | none => w) := by
    split
    · exact .elsewhere rfl
    · exact .refl w
  have hcounted := (hcredit.trans (onBwr_portsKept _ fun x => { x with charged := tmod 0 x.charged (w.groupOf b * 10 + k) (· + n) })).counted 11 (w.groupOf b * 10 + k) 0 n
  unfold Work.charge
  dsimp only
  exact portsKept_ite (hcounted.viewed _ _ _) (portsKept_ite (hcounted.viewed _ _ _) hcounted)

theorem chargeAt_portsKept (b k ctl n prio : Nat) : PortsKept w (w.chargeAt b k ctl n prio) := portsKept_ite (.refl w) (charge_portsKept w b k ctl n)

theorem busRead_portsKept (b g prio : Nat) : PortsKept w (w.busRead b g prio) :=
  ((PortsKept.elsewhere (w' := (w.checkHit g).2) rfl).counted _ _ _ _).trans (chargeAt_portsKept _ _ _ _ _ _)

theorem busWrite_portsKept (b g prio : Nat) (whole : Bool) : PortsKept w (w.busWrite b g prio whole) := by
  have hcounted := (PortsKept.elsewhere (w := w) (w' := (w.checkHit g).2) rfl).counted 7 (channelOf (g * 256)) (4 + prio) 1
  unfold Work.busWrite
  dsimp only
  split
  · exact (hcounted.counted _ _ _ _).trans (chargeAt_portsKept _ _ _ _ _ _)
  · exact hcounted.trans (chargeAt_portsKept _ _ _ _ _ _)

theorem writeBackLine_portsKept (l : HoldLine) : PortsKept w (w.writeBackLine l) := by
  unfold Work.writeBackLine
  dsimp only
  exact (portsKept_ite ((count_portsKept w _ _ _ _).trans (busWrite_portsKept _ _ _ _ _)) (.refl w)).trans (onMem_portsKept _ _)

end

section
variable (w : Work) (b slot gen a n : Nat) (write : Bool) (prio g : Nat) (merges : Bool)

theorem holdUncached_portsKept : PortsKept w (w.holdUncached b a n write prio g merges) :=
  portsKept_ite ((count_portsKept w _ _ _ _).trans (busWrite_portsKept _ _ _ _ _)) ((count_portsKept w _ _ _ _).trans (busRead_portsKept _ _ _ _))

theorem holdUse_portsKept (l : HoldLine) : PortsKept w (w.holdUse b a n write prio g l) := (chargeAt_portsKept w _ _ _ _ _).trans (onMem_portsKept _ _)

theorem holdFill_portsKept (p : Nat) : PortsKept w (w.holdFill b slot gen a n write prio g merges p) :=
  PortsKept.trans (portsKept_ite (count_portsKept w _ _ _ _) ((count_portsKept w _ _ _ _).trans (busRead_portsKept _ _ _ _))) (holdUse_portsKept _ _ _ _ _ _ _ _)

theorem holdMiss_portsKept : PortsKept w (w.holdMiss b slot gen a n write prio g merges) := by
  unfold Work.holdMiss
  refine portsKept_ite (holdUncached_portsKept w _ _ _ _ _ _ _) ?_
  dsimp only
  split
  · exact holdFill_portsKept w _ _ _ _ _ _ _ _ _ _
  · split
    · exact (writeBackLine_portsKept w _).trans (holdFill_portsKept _ _ _ _ _ _ _ _ _ _ _)
    · exact holdUncached_portsKept w _ _ _ _ _ _ _

theorem holdGranule_portsKept : PortsKept w (w.holdGranule b slot gen a n write prio g merges) := by
  rw [holdGranule_eq]
  refine portsKept_ite (holdUncached_portsKept w _ _ _ _ _ _ _) ?_
  split
  · exact portsKept_ite ((count_portsKept w _ _ _ _).trans (holdUse_portsKept _ _ _ _ _ _ _ _)) ((writeBackLine_portsKept w _).trans (holdMiss_portsKept _ _ _ _ _ _ _ _ _ _))
  · exact holdMiss_portsKept w _ _ _ _ _ _ _ _ _

theorem holdAccess_portsKept : PortsKept w (w.holdAccess b slot gen a n write prio merges) := by
  unfold Work.holdAccess
  split
  · exact .each _ _ w fun g v => holdGranule_portsKept v _ _ _ _ _ _ _ _ _
  · split
    · exact chargeAt_portsKept w _ _ _ _ _
    · exact chargeAt_portsKept w _ _ _ _ _
    · exact .refl w

end

/-! ## Translation -/

section
variable (w : Work)

theorem walkStall_portsKept (u : Nat) : PortsKept w (w.walkStall u) := by
  have hcount := (PortsKept.elsewhere (w := w) (w' := w.fresh.2) rfl).counted 12 u 3 (w.fresh.1 % 2 ^ 48)
  exact portsKept_ite (hcount.counted _ _ _ _) hcount

theorem hotSample_portsKept (u b dva e : Nat) : PortsKept w (w.hotSample u b dva e) := by
  unfold Work.hotSample
  dsimp only
  refine portsKept_ite (.elsewhere rfl) (portsKept_ite (.elsewhere rfl) (portsKept_ite (.elsewhere rfl) ?_))
  exact PortsKept.counted (.elsewhere rfl) _ _ _ _

variable {w} in
theorem portsKept_ite_snd {α : Type} {c : Prop} [Decidable c] {a b : α × Work} (ha : PortsKept w a.2) (hb : PortsKept w b.2) : PortsKept w (if c then a else b).2 := by
  split
  · exact ha
  · exact hb

theorem leafCheck_portsKept (u b dva e log2 : Nat) (q : Ask) : PortsKept w (w.leafCheck u b dva e log2 q).2 := by
  have hpacked : PortsKept w (if bit e 24 then w.count 12 u 8 else w) := portsKept_ite (count_portsKept w _ _ _ _) (.refl w)
  refine portsKept_ite_snd (count_portsKept w _ _ _ _) (portsKept_ite_snd (count_portsKept w _ _ _ _) (portsKept_ite_snd (count_portsKept w _ _ _ _) (portsKept_ite_snd (log_portsKept w _) ?_)))
  exact portsKept_ite (hpacked.trans (hotSample_portsKept _ _ _ _ _)) hpacked

theorem walk_portsKept (u b dva : Nat) : PortsKept w (w.walk u b dva).2 := by
  have hreads (r : Root) (rs : List Nat) : PortsKept w ((each rs.reverse (fun a v => v.holdAccess r.tableBerth r.tableBerth r.tkgen a 16 false 3) w).count 12 u 2 rs.length) :=
    (PortsKept.each _ _ w fun a v => holdAccess_portsKept v _ _ _ _ _ _ _ _).counted _ _ _ _
  unfold Work.walk
  dsimp only
  split
  · exact count_portsKept w _ _ _ _
  · split
    · exact (log_portsKept w _).trans (count_portsKept _ _ _ _ _)
    · split
      · refine PortsKept.trans ?_ (count_portsKept _ _ _ _ _)
        split
        · exact (hreads _ _).trans (log_portsKept _ _)
        · exact (hreads _ _).trans (log_portsKept _ _)
        · exact hreads _ _
      · split
        · exact (hreads _ _).trans ((log_portsKept _ _).trans (count_portsKept _ _ _ _ _))
        · exact (hreads _ _).trans (onChart_portsKept _ _)

theorem xlate_portsKept (u b dva : Nat) (q : Ask) : PortsKept w (w.xlate u b dva q).2 := by
  unfold Work.xlate
  dsimp only
  refine portsKept_ite_snd (portsKept_ite (onChart_portsKept w _) (.refl w)) ?_
  split
  · exact (count_portsKept w _ _ _ _).trans (leafCheck_portsKept _ _ _ _ _ _ _)
  · have hmissed : PortsKept w ((w.count 12 u 1).viewCount b 8) := (count_portsKept w _ _ _ _).viewed _ _ _
    refine portsKept_ite_snd (hmissed.trans (onChart_portsKept _ _)) ?_
    have hwalked := (hmissed.trans (walkStall_portsKept _ u)).trans (walk_portsKept _ u b dva)
    split
    next v hw => rw [hw] at hwalked; exact hwalked
    next t v hw => rw [hw] at hwalked; exact hwalked.trans (leafCheck_portsKept _ _ _ _ _ _ _)

theorem xlateNow_portsKept (u b dva : Nat) (q : Ask) : PortsKept w (w.xlateNow u b dva q).2 := by
  have hx := xlate_portsKept w u b dva q
  unfold Work.xlateNow
  split
  next v hv =>
    rw [hv] at hx
    have hwalked := hx.trans (walk_portsKept v u b dva)
    split
    next z hz => rw [hz] at hwalked; exact hwalked
    next t z hz => rw [hz] at hwalked; exact hwalked.trans (leafCheck_portsKept _ _ _ _ _ _ _)
  · exact hx

end

/-! ## What an access leaves -/

/-- A hub without what an access of the hub's own engines may change besides reports: translations, memory's charges, the fabric and the fabric between hubs, views of tenants. -/
def offAccess (h : Hub) : Hub := { h with sites := [], fabric := {}, memory := {}, bwr := {}, chart := {}, ten := {}, hawser := {}, free := 0 }

/-- From one work to the next only what an access of the hub's own engines may change has changed; of ports, their functions, status bits and Logs alone. -/
structure Apart (w w' : Work) : Prop where
  hub : Same offAccess w w'
  ports : PortsKept w w'

section
variable {w w' : Work}

theorem Apart.refl (w : Work) : Apart w w := ⟨.refl _ w, .refl w⟩
theorem Apart.trans {a b c : Work} (h : Apart a b) (k : Apart b c) : Apart a c := ⟨h.hub.trans k.hub, h.ports.trans k.ports⟩
theorem Apart.each {α : Type} (l : List α) (f : α → Work → Work) (w : Work) (hf : ∀ a w, Apart w (f a w)) : Apart w (each l f w) :=
  each_keeps l f w (.refl w) fun a _ h => h.trans (hf a _)

theorem apart_ite {a b : Work} {c : Prop} [Decidable c] (ha : Apart w a) (hb : Apart w b) : Apart w (if c then a else b) := by
  split
  · exact ha
  · exact hb

theorem Reads.apart (h : Reads w w') (k : PortsKept w w') : Apart w w' := by
  refine ⟨?_, k⟩
  have e := congrArg (fun x : Hub => { x with hawser := {} }) h
  exact e

theorem Same.apart (h : Same offHawser w w') (k : PortsKept w w') : Apart w w' := by
  refine ⟨?_, k⟩
  have e := congrArg (fun x : Hub => { x with sites := [], fabric := {}, memory := {}, bwr := {}, chart := {}, ten := {}, free := 0 }) h
  exact e

theorem Apart.bearings (h : Apart w w') : w'.hub.bearings = w.hub.bearings := by have e := congrArg Hub.bearings h.hub; exact e
theorem Apart.wrights (h : Apart w w') : w'.hub.wrights = w.hub.wrights := by have e := congrArg Hub.wrights h.hub; exact e
theorem Apart.tables (h : Apart w w') : w'.hub.tables = w.hub.tables := by have e := congrArg Hub.tables h.hub; exact e

theorem onFabric_apart (w : Work) (f : Fabric → Fabric) : Apart w (w.onFabric f) := ⟨rfl, .elsewhere rfl⟩
theorem onHawser_apart (w : Work) (f : Hawser → Hawser) : Apart w (w.onHawser f) := ⟨rfl, .elsewhere rfl⟩
theorem count_apart (w : Work) (k i c n : Nat) : Apart w (w.count k i c n) := ⟨(count_reports w k i c n).same _, count_portsKept w k i c n⟩
theorem xlateNow_apart (w : Work) (u b dva : Nat) (q : Ask) : Apart w (w.xlateNow u b dva q).2 := (xlateNow_reads w u b dva q).apart (xlateNow_portsKept w u b dva q)

end

/-! ## The fabric between hubs -/

theorem hwsDrain_portsKept (k n : Nat) (w : Work) : PortsKept w (w.hwsDrain k n) := by
  induction n generalizing w with
  | zero => exact .refl w
  | succ n ih =>
    unfold Work.hwsDrain
    dsimp only
    split
    · refine portsKept_ite (.refl w) (PortsKept.trans ?_ (ih _))
      exact PortsKept.counted (.elsewhere rfl) _ _ _ _
    · exact .refl w

theorem hwsItem_apart (w : Work) (k : Nat) (o : Out) : Apart w (w.hwsItem k o) :=
  (hwsItem_same w k o).apart (PortsKept.trans (b := w.onHPort k _) (.elsewhere rfl) (hwsDrain_portsKept k _ _))

theorem bodyPumpList_portsKept (k : Nat) (l : List HWait) (stuck : List Nat) (w : Work) : PortsKept w (w.bodyPumpList k l stuck) := by
  have hport (v : Work) (f : HPort → HPort) : PortsKept v (v.onHPort k f) := .elsewhere rfl
  induction l generalizing w stuck with
  | nil => exact .refl w
  | cons x l ih =>
    unfold Work.bodyPumpList
    dsimp only
    split
    · exact (hport w _).trans (ih _ _)
    · refine PortsKept.trans ?_ (ih _ _)
      have hitem := (hport w fun p => { p with credits := tset p.credits (msgChannel x.msg) (tget 0 (w.hport k).credits (msgChannel x.msg) - msgUnits x.msg) }).trans
        (hwsItem_apart _ k (.body k x.msg)).ports
      split
      · exact (hitem.trans (hwsItem_apart _ _ _).ports).counted _ _ _ _
      · exact hitem

theorem sendBody_apart (w : Work) (k : Nat) (m : BodyMsg) : Apart w (w.sendBody k m) := by
  have hport (v : Work) (f : HPort → HPort) : PortsKept v (v.onHPort k f) := .elsewhere rfl
  exact (sendBody_same w k m).apart (((hport w _).trans (hport _ _)).trans (bodyPumpList_portsKept k _ _ _))

/-! ## Windows (R358, R500, R501) -/

section
variable (w : Work)

theorem fetchAnswer_apart (i dpa status detail : Nat) (data : Option (List Byte)) : Apart w (w.fetchAnswer i dpa status detail data) := by
  unfold Work.fetchAnswer
  split
  · exact .refl w
  · exact onFabric_apart w _

theorem engFail_apart (a : Agent) (tag status : Nat) : Apart w (w.engFail a tag status) := apart_ite (.refl w) (onFabric_apart w _)

/-- An answer to another hub's request leaves for that hub. -/
theorem answer_hawser_apart {r : MemReq} {hub t : Nat} (h : r.agent = .hawser hub t) (status detail : Nat) (data : Option (List Byte)) : Apart w (w.answer r status detail data) := by
  simp only [Work.answer, h]
  split
  · exact sendBody_apart w _ _
  · exact count_apart w _ _ _ _

/-- The answer of a window's request reaches its agent through the fabric, or leaves the hub. -/
theorem winAnswer_apart (r : MemReq) (status detail : Nat) (data : Option (List Byte)) : Apart w (w.winAnswer r status detail data) := by
  have hown : Apart w (match data with
      | some d => each (linePieces r.dpa r.bytes) (fun (o, n) v => v.addFwd r.agent r.tag ((r.dpa + o) / 128) ((r.dpa + o) % 128) (slice d o n)) (w.engFail r.agent r.tag status)
      | none => w.engFail r.agent r.tag status) := by
    cases data with
    | none => exact engFail_apart w _ _ _
    | some d => exact (engFail_apart w _ _ _).trans (.each _ _ _ fun _ v => onFabric_apart v _)
  unfold Work.winAnswer
  split
  next n h =>
    simp only [Work.answer, h]
    cases data with
    | none => exact onFabric_apart w _
    | some d => exact onFabric_apart w _
  next i h =>
    simp only [Work.answer, h]
    exact fetchAnswer_apart w _ _ _ _ _
  next hub t h => exact answer_hawser_apart w h _ _ _
  next => exact hown

theorem winPumpList_apart (l : List WinOut) : Apart w (w.winPumpList l) := by
  induction l generalizing w with
  | nil => exact .refl w
  | cons o l ih =>
    unfold Work.winPumpList
    split
    · exact (onHawser_apart w _).trans (ih _)
    · split
      · exact (winAnswer_apart w _ _ _ _).trans (ih _)
      · split
        · exact (onHawser_apart w _).trans (ih _)
        · exact ((onHawser_apart w _).trans (sendBody_apart _ _ _)).trans (ih _)

theorem windowSend_apart (r : MemReq) (win off : Nat) : Apart w (w.windowSend r win off) := by
  unfold Work.windowSend
  split
  · exact winAnswer_apart w _ _ _ _
  · refine apart_ite (winAnswer_apart w _ _ _ _) ?_
    exact ((onHawser_apart w _).trans (onHawser_apart _ _)).trans (winPumpList_apart _ _)

theorem windowPiece_apart (r : MemReq) (win off : Nat) : Apart w (w.windowPiece r win off) := by
  unfold Work.windowPiece
  refine apart_ite (windowSend_apart w _ _ _) (.each _ _ w fun g v => ?_)
  exact apart_ite (windowSend_apart v _ _ _) (windowSend_apart v _ _ _)

/-! ## Accesses before the homes (R284, R339, R416) -/

theorem send_apart (r : MemReq) : Apart w (w.send r) := by
  unfold Work.send Work.issue
  exact onFabric_apart w _

theorem homePieces_apart (a : Agent) (tag u b dva n : Nat) (kind : ReqKind) (prio : Nat) (data : List Byte) : Apart w (w.homePieces a tag u b dva n kind prio data) := by
  unfold Work.homePieces
  refine .each _ _ w fun p v => ?_
  obtain ⟨o, len⟩ := p
  dsimp only
  generalize hq : ({ write := decide (kind ≠ .read), engine := match a with | .porter _ _ => false | _ => true } : Ask) = q
  have hx := xlateNow_apart v u b ((dva + o) % 2 ^ 57) q
  split
  next e d z hz =>
    rw [hz] at hx
    split
    · exact apart_ite hx (hx.trans (windowPiece_apart _ _ _ _))
    · exact apart_ite (hx.trans (send_apart _ _)) hx
  next z hz =>
    rw [hz] at hx
    exact hx

theorem pumpSource_apart (a : Agent) : Apart w (w.pumpSource a) :=
  .each _ _ w fun _ v => apart_ite (.refl v) ((onFabric_apart v _).trans (homePieces_apart _ _ _ _ _ _ _ _ _ _))

/-- An access put before the homes and the other hubs. -/
theorem homeAccess_apart (a : Agent) (tag u b dva n : Nat) (kind : ReqKind) (prio : Nat) (data : List Byte) : Apart w (w.homeAccess a tag u b dva n kind prio data) :=
  (onFabric_apart w _).trans (pumpSource_apart _ a)

end

end Sys2Proof.Machine
end

section
/-! PROOFS. Gates scored into token records, and the GATE operator (R125-R131, R208). -/

namespace Sys2Proof.Machine

/-! ## A gate scored into a record (R127-R131) -/

/-- A token record of an engine stands with its table, its row and its phase. -/
def RecStands (b i table row : Nat) (phase : RecPhase) (w : Work) : Prop := (tfind (w.bearing b).recs i).map (fun y => (y.table, y.row, y.phase)) = some (table, row, phase)

section
variable {b i table row : Nat} {phase : RecPhase} {w : Work}

theorem RecStands.of_bearings {v : Work} (h : RecStands b i table row phase w) (hv : v.hub.bearings = w.hub.bearings) : RecStands b i table row phase v := by
  unfold RecStands Work.bearing
  rw [hv]
  exact h

/-- A record changed in its ranks alone stands. -/
theorem RecStands.onRec (h : RecStands b i table row phase w) {f : TokRec → TokRec} (hf : ∀ y, ((f y).table, (f y).row, (f y).phase) = (y.table, y.row, y.phase)) :
    RecStands b i table row phase (w.onRec b i f) := by
  unfold Work.onRec
  split
  next r hr =>
    unfold RecStands at h ⊢
    rw [bearing_onBearing]
    simp only [tfind_tset_self, Option.map_some, hf]
    rwa [hr] at h
  next => exact h

/-- A record whose rank closes stands (R138). -/
theorem RecStands.rankClose (h : RecStands b i table row phase w) (k cause : Nat) : RecStands b i table row phase (w.rankClose b i k cause) := by
  have hclosed := RecStands.of_bearings (h.onRec (f := fun r => { r with ranks := r.ranks.modify k fun x => { x with cause := some cause, packet := {} } }) fun _ => rfl)
    (v := (w.onRec b i fun r => { r with ranks := r.ranks.modify k fun x => { x with cause := some cause, packet := {} } }).count 3 b (8 + cause)) (count_bearings _ _ _ _ _)
  unfold Work.rankClose
  dsimp only
  split
  · split
    · split
      · exact hclosed
      · exact hclosed
    · exact hclosed
  · exact hclosed

end

theorem onRec_wrights (w : Work) (b i : Nat) (f : TokRec → TokRec) : (w.onRec b i f).hub.wrights = w.hub.wrights := by
  unfold Work.onRec
  split <;> rfl

theorem rankClose_wrights (w : Work) (b i k cause : Nat) : (w.rankClose b i k cause).hub.wrights = w.hub.wrights := by
  have hclosed := (count_wrights (w.onRec b i fun r => { r with ranks := r.ranks.modify k fun x => { x with cause := some cause, packet := {} } }) 3 b (8 + cause) 1).trans (onRec_wrights w b i _)
  unfold Work.rankClose
  dsimp only
  split
  · split
    · split
      · exact hclosed
      · exact hclosed
    · exact hclosed
  · exact hclosed

/-- The work in which a gate has taken a record, its ranks open or closed at once. -/
def Work.recTaken (w : Work) (b i : Nat) (t : BTable) (g : Staged) : Work :=
  each ((scoredRanks t g (i + b * 65536 + (w.count 3 b 0).hubId * 2 ^ 20)).zipIdx.filterMap fun (k, j) => k.cause.map fun c => (j, c)) (fun (j, c) v => v.rankClose b i j c)
    ((w.count 3 b 0).onBearing b fun x => { x with recs := tset x.recs i { table := g.hdr.table, row := g.hdr.row, phase := .zeroing, ranks := scoredRanks t g (i + b * 65536 + (w.count 3 b 0).hubId * 2 ^ 20) } })

section
variable {w : Work} {b i : Nat} {t : BTable} {g : Staged}

theorem recTaken_stands : RecStands b i g.hdr.table g.hdr.row .zeroing (w.recTaken b i t g) := by
  unfold Work.recTaken
  refine each_keeps _ _ _ ?_ fun x v h => h.rankClose x.1 x.2
  unfold RecStands
  rw [bearing_onBearing, tfind_tset_self]
  rfl

theorem recTaken_wrights : (w.recTaken b i t g).hub.wrights = w.hub.wrights := by
  unfold Work.recTaken
  refine each_keeps (p := fun v : Work => v.hub.wrights = w.hub.wrights) _ _ _ ?_ fun x v h => (rankClose_wrights v b i x.1 x.2).trans h
  exact count_wrights w 3 b 0 1

/-- The engine's replica of a table has the table's header. -/
theorem replica_hdr (ht : w.table g.hdr.table = some t) : ((w.replica b g.hdr.table).getD t).hdr = t.hdr := by
  unfold Work.replica
  rw [ht, Option.map_some, Option.getD_some]
  split
  · split
    · rfl
    · rfl
  · rfl

/-- A gate of a table with ZERO_ROW takes its record, and the zeroing of its row goes before the homes (R128). -/
theorem score_zeroes (ht : w.table g.hdr.table = some t) (hz : t.hdr.zeroRow = true) : Apart (w.recTaken b i ((w.replica b g.hdr.table).getD t) g) (w.score b i t g) := by
  have hhdr := replica_hdr (b := b) ht
  unfold Work.score
  dsimp only
  generalize (w.replica b g.hdr.table).getD t = t' at hhdr
  rw [← hhdr] at hz
  simp only [hz, if_true]
  exact homeAccess_apart _ _ _ _ _ _ _ _ _ _

theorem score_zeroing (ht : w.table g.hdr.table = some t) (hz : t.hdr.zeroRow = true) : RecStands b i g.hdr.table g.hdr.row .zeroing (w.score b i t g) :=
  recTaken_stands.of_bearings (score_zeroes ht hz).bearings

theorem score_wrights (ht : w.table g.hdr.table = some t) (hz : t.hdr.zeroRow = true) : (w.score b i t g).hub.wrights = w.hub.wrights :=
  (score_zeroes ht hz).wrights.trans recTaken_wrights

/-- A gate that passes the checks takes a free record of an engine whose staging is empty (R125-R127). -/
theorem gateArrives_scores (hfault : w.gateFault g = none) (ht : w.table g.hdr.table = some t) (hempty : (w.bearing b).staging = []) (hfree : freeRec (w.bearing b) = some i) :
    w.gateArrives b g = (none, (w.gateCredits g).score b i t g) := by
  simp only [Work.gateArrives, hfault, ht, hempty, hfree, if_true]

end

/-! ## The GATE operator (R208, R241) -/

/-- The operator of a GATE step on the engine's record. -/
def gateOp (m : Wright) (ev : OpEvent) (r : Run) (st : Step) : Op := { m := struck m ev, r := r, st := st }

/-- The regions of local memory that a GATE step reads. -/
def gateRegs (c : Op) (y : Staged) : List (Nat × Nat) := (c.src c.st.sa c.st.ta y.hdr.nlog).regs 0 y.hdr.nlog ++ [(c.pos c.st.sb, y.payload.length)]

/-- The work in which a GATE step has been counted, its engine struck as the event says. -/
def Work.gateCounted (k : Work) (ev : OpEvent) (r : Run) (n : Nat) : Work :=
  ((((((k.count 2 ev.engine 15 n).viewCount r.launch.berth 0 n).count 2 ev.engine 22 ev.once.length).onWright ev.engine fun m => struck m ev).count 2 ev.engine 23 ev.corrected).stallCount ev.engine 18)

/-- A GATE step with its work cut into parts. -/
theorem gateStep_eq (k : Work) (ev : OpEvent) (r : Run) (st : Step) {c : Op} {y : Staged} (hc : c = gateOp (k.wright ev.engine) ev r st) (hy : y = c.gate ev.engine r.launch.berth) :
    k.gateStep ev r st =
      if !c.aligned then k.endRun ev.engine stMisaligned
      else if (gateRegs c y).any fun (a, n) => pendIn c.m a n then k
      else if 8192 < stagedBeats (k.bearing (bits st.imm 4 0)) + y.hdr.beats then k
      else
        let v := k.gateCounted ev r (vecsFor st.ta y.hdr.nlog + st.nv)
        match ev.twice with
        | some a => v.datapathFault ev.engine a
        | none =>
          if badRegs c.m (gateRegs c y) then (v.gateRejected ev.engine r.launch.entry y.hdr.table y.hdr.row).nextStep ev.engine
          else match v.gateArrives (bits st.imm 4 0) y with
            | (some _, v) => (v.gateRejected ev.engine r.launch.entry y.hdr.table y.hdr.row).nextStep ev.engine
            | (none, v) => v.nextStep ev.engine := by
  subst hc hy
  rfl

section
variable {s : State} {ev : OpEvent} {r : Run} {y : Staged}

/-- With no load pending no region of a step is. -/
theorem gateRegs_notPending (hpend : (s.work.wright ev.engine).pend = []) (c : Op) (hm : c.m = struck (s.work.wright ev.engine) ev) (y : Staged) :
    ((gateRegs c y).any fun (a, n) => pendIn c.m a n) = false := by
  rw [List.any_eq_false]
  intro x _
  rw [hm]
  have hnone : pendIn (struck (s.work.wright ev.engine) ev) x.1 x.2 = false := pendIn_none hpend _ _
  simp [hnone]

/-- A GATE step waits while the origin's staging has no room for it (R208). -/
theorem does_gateWaits (h : s.CanIssue ev.engine 0x5E r) (halign : (s.opAt ev r).aligned = true) (hpend : (s.work.wright ev.engine).pend = [])
    (hfull : 8192 < stagedBeats (s.work.bearing (bits (curStep r).imm 4 0)) + ((s.opAt ev r).gate ev.engine r.launch.berth).hdr.beats) :
    Does (.gateOperator ev) s fun t => t = s := by
  refine does_work (exec_gateOperator ev s) (w := s.work) ?_ rfl
  rw [stepGo_issues h, gateStep_eq _ _ _ _ (c := s.opAt ev r) rfl rfl]
  have hnot := gateRegs_notPending hpend (s.opAt ev r) rfl ((s.opAt ev r).gate ev.engine r.launch.berth)
  simp only [halign, hnot, hfull, Bool.not_true, Bool.false_eq_true, if_false, if_true]

variable (w : Work) (n : Nat)

/-- Counting a GATE step leaves tables and origins; with no upset its engine too. -/
theorem gateCounted_wright (hup : ev.upset = []) : (w.gateCounted ev r n).wright ev.engine = w.wright ev.engine := by
  have hstruck (m : Wright) : struck m ev = m := by unfold struck; rw [hup]; rfl
  have hview (v : Work) (b k m : Nat) : (v.viewCount b k m).wright ev.engine = v.wright ev.engine := rfl
  have hfresh (v : Work) : v.fresh.2.wright ev.engine = v.wright ev.engine := rfl
  simp only [Work.gateCounted, Work.stallCount, hstruck, wright_count, hfresh, wright_onWright, hview]

theorem gateCounted_bearings : (w.gateCounted ev r n).hub.bearings = w.hub.bearings := by
  have hview (v : Work) (b k m : Nat) : (v.viewCount b k m).hub.bearings = v.hub.bearings := rfl
  have hfresh (v : Work) : v.fresh.2.hub.bearings = v.hub.bearings := rfl
  have hengine (v : Work) (f : Wright → Wright) : (v.onWright ev.engine f).hub.bearings = v.hub.bearings := rfl
  simp only [Work.gateCounted, Work.stallCount, count_bearings, hview, hfresh, hengine]

theorem gateCounted_tables : (w.gateCounted ev r n).hub.tables = w.hub.tables := by
  have hview (v : Work) (b k m : Nat) : (v.viewCount b k m).hub.tables = v.hub.tables := rfl
  have hfresh (v : Work) : v.fresh.2.hub.tables = v.hub.tables := rfl
  have hengine (v : Work) (f : Wright → Wright) : (v.onWright ev.engine f).hub.tables = v.hub.tables := rfl
  simp only [Work.gateCounted, Work.stallCount, count_tables, hview, hfresh, hengine]

variable {w} in
theorem gateFault_of_tables {v : Work} (h : v.hub.tables = w.hub.tables) (g : Staged) : v.gateFault g = w.gateFault g := by
  unfold Work.gateFault
  rw [table_of_tables h]

variable {w} in
theorem bearing_of_bearings {v : Work} (h : v.hub.bearings = w.hub.bearings) (b : Nat) : v.bearing b = w.bearing b := by
  unfold Work.bearing
  rw [h]

end

/-- A gate that a GATE step sends and that passes the checks takes a free record, and the step is done. -/
theorem does_gateScores {s : State} {ev : OpEvent} {r : Run} {b i : Nat} {y : Staged} {tb : BTable} (htwice : ev.twice = none) (hup : ev.upset = []) (h : s.CanIssue ev.engine 0x5E r)
    (halign : (s.opAt ev r).aligned = true) (hpend : (s.work.wright ev.engine).pend = []) (hpoison : (s.work.wright ev.engine).poison = []) (hb : b = bits (curStep r).imm 4 0)
    (hy : y = (s.opAt ev r).gate ev.engine r.launch.berth) (hroom : stagedBeats (s.work.bearing b) + y.hdr.beats ≤ 8192) (hfault : s.work.gateFault y = none)
    (ht : s.work.table y.hdr.table = some tb) (hz : tb.hdr.zeroRow = true) (hempty : (s.work.bearing b).staging = []) (hfree : freeRec (s.work.bearing b) = some i) :
    Does (.gateOperator ev) s fun t =>
      (tfind (t.work.bearing b).recs i).map (fun z => (z.table, z.row, z.phase)) = some (y.hdr.table, y.hdr.row, .zeroing)
      ∧ (t.work.wright ev.engine).run = some { r with pc := r.pc + 1 } := by
  have hsite : y.site = none := by rw [hy]; rfl
  have hclean : badRegs (s.opAt ev r).m (gateRegs (s.opAt ev r) y) = false := by
    have hm : (s.opAt ev r).m.poison = [] := by
      show (struck (s.work.wright ev.engine) ev).poison = []
      unfold struck
      rw [hup]
      exact hpoison
    unfold badRegs poisonIn
    simp [hm]
  have hwright := gateCounted_wright (r := r) s.work (vecsFor (curStep r).ta y.hdr.nlog + (curStep r).nv) hup
  have hbearings := gateCounted_bearings (ev := ev) (r := r) s.work (vecsFor (curStep r).ta y.hdr.nlog + (curStep r).nv)
  have htables := gateCounted_tables (ev := ev) (r := r) s.work (vecsFor (curStep r).ta y.hdr.nlog + (curStep r).nv)
  have hstep : s.work.gateStep ev r (curStep r) =
      ((s.work.gateCounted ev r (vecsFor (curStep r).ta y.hdr.nlog + (curStep r).nv)).score b i tb y).nextStep ev.engine := by
    rw [gateStep_eq _ _ _ _ (c := s.opAt ev r) rfl hy, ← hb]
    have hnot := gateRegs_notPending hpend (s.opAt ev r) rfl y
    generalize s.work.gateCounted ev r (vecsFor (curStep r).ta y.hdr.nlog + (curStep r).nv) = v at *
    have harrives : v.gateArrives b y = (none, (v.gateCredits y).score b i tb y) :=
      gateArrives_scores ((gateFault_of_tables htables y).trans hfault) ((table_of_tables htables _).trans ht) ((congrArg Bearing.staging (bearing_of_bearings hbearings b)).trans hempty)
        ((congrArg freeRec (bearing_of_bearings hbearings b)).trans hfree)
    have hcredits : v.gateCredits y = v := by simp only [Work.gateCredits, hsite]
    simp only [halign, hnot, Nat.not_lt.2 hroom, htwice, hclean, harrives, hcredits, Bool.not_true, Bool.false_eq_true, if_false]
  generalize s.work.gateCounted ev r (vecsFor (curStep r).ta y.hdr.nlog + (curStep r).nv) = v at *
  have ht' : v.table y.hdr.table = some tb := (table_of_tables htables _).trans ht
  have hrecord : RecStands b i y.hdr.table y.hdr.row .zeroing (v.score b i tb y) := score_zeroing ht' hz
  have hrun : ((v.score b i tb y).wright ev.engine).run = some r := by
    unfold Work.wright at hwright ⊢
    rw [score_wrights ht' hz, hwright]
    exact h.1
  refine does_work (exec_gateOperator ev s) ((stepGo_issues h _).trans hstep) ⟨hrecord, ?_⟩
  rw [← runNext_issuing h.2.1]
  exact congrArg Wright.run (onRun_wright hrun runNext)

/-- Settles O28: a GATE step waits for room in its origin's staging, or its gate takes a free record there. -/
theorem gateOperator : Obligations.GateOperator := by
  unfold Obligations.GateOperator
  refine ⟨?waits, ?scores⟩
  case waits =>
    intro s ev r g hg h halign hpend hfull
    subst hg
    exact does_gateWaits h halign hpend hfull
  case scores =>
    intro s ev r g b y tb i hg htwice hup h halign hpend hpoison hb hy hroom hfault ht hz hempty hfree
    subst hg
    exact does_gateScores htwice hup h halign hpend hpoison hb hy hroom hfault ht hz hempty hfree

end Sys2Proof.Machine
end

section
/-! PROOFS. What comes in a site's stream: data frames, gates, answers to tokens, credits withheld (R55, R56, R79, R104-R107). -/

namespace Sys2Proof.Machine

/-! ## A data frame in order (R55, R56) -/

/-- A bundle that has taken a data frame in order. -/
def frameTaken (b : Bundle) : Bundle := { b with expBseq := (b.expBseq + 1) % 4096, discarding := false, ackOwed := true, nakRow := 0 }

/-- A link that has noted the time of a frame. -/
def frameNoted (now : Nat) (l : Link) : Link := { l with dataTimes := (now, 1) :: l.dataTimes }

/-- A link that holds a frame's payload for its turn. -/
def payloadHeld (frame : List Byte) (l : Link) : Link := { l with rxHeld := tset l.rxHeld (sseqOf frame) (slice frame 8 1012) }

/-- The work in which a bundle has taken a data frame, its payload held for its turn. -/
def Work.frameHeld (w : Work) (n k : Nat) (frame : List Byte) : Work :=
  ((w.onBundle n k frameTaken).onLink n (frameNoted w.now)).onLink n (payloadHeld frame)

theorem exec_dataFrame (n k : Nat) (frame : List Byte) (s : State) : exec (.dataFrame n k frame) s = s.run fun w =>
    if !w.hears n k then w
    else if !frameGood frame then w.sendNak n k true
    else if ftypeOf frame = 0 then (w.ackIn n frame).dataIn n k frame else w := rfl

section
variable {w : Work} {n k : Nat} {frame : List Byte}

theorem ackIn_none (h : ackValidOf frame = false) : w.ackIn n frame = w := by simp [Work.ackIn, h]

/-- A link none of whose received bytes wait for more. -/
def bytesTaken (l : Link) : Link := { l with rxBytes := [] }

/-- A payload whose first byte is PAD holds no message (R79). -/
theorem payloadIn_pad {bs : List Byte} (hrest : (w.site n).link.rxBytes = []) : w.payloadIn n (0 :: bs) = w ∨ w.payloadIn n (0 :: bs) = w.onLink n bytesTaken := by
  have hparse : w.payloadIn n (0 :: bs) = if !streamUp (w.site n) then w else w.onLink n bytesTaken := by
    unfold Work.payloadIn
    rw [hrest, List.nil_append]
    rfl
  rw [hparse]
  split
  · exact .inl rfl
  · exact .inr rfl

/-- A change of a link that leaves its bundles. -/
theorem bundle_linkKept (w : Work) {n k : Nat} {f : Link → Link} (hf : ∀ l, (f l).bundles = l.bundles) : (w.onLink n f).bundle n k = w.bundle n k := by
  rw [bundle_onLink, hf]
  rfl

/-- A slice begins with the byte at its offset. -/
theorem slice_head {l : List Byte} {o : Nat} (m : Nat) (h : l.getD o 1 = 0) : ∃ bs, slice l o (m + 1) = 0 :: bs := by
  have hlt : o < l.length := by
    refine Nat.lt_of_not_le fun hge => ?_
    rw [getD_past hge] at h
    exact absurd h (by decide)
  have hcons : l.drop o = 0 :: l.drop (o + 1) := by
    rw [getD_within hlt] at h
    rw [← h]
    exact List.drop_eq_getElem_cons hlt
  unfold slice
  rw [hcons, List.take_succ_cons]
  exact ⟨_, rfl⟩

/-- A link whose payload at its turn has reached the protocol port. -/
def payloadTaken (l : Link) : Link := { l with rxHeld := tdel l.rxHeld l.rxSseq, rxSseq := (l.rxSseq + 1) % 65536 }

theorem frameHeld_bundle (hk : k < (w.site n).link.bundles.length) : (w.frameHeld n k frame).bundle n k = frameTaken (w.bundle n k) := by
  unfold Work.frameHeld
  rw [bundle_linkKept (f := payloadHeld frame) _ fun _ => rfl, bundle_linkKept (f := frameNoted w.now) _ fun _ => rfl]
  exact bundle_onBundle_self w frameTaken hk

/-- A data frame in order, its payload at its turn: the bundle takes it, the payload reaches the protocol port. -/
theorem dataIn_takes (hb : bseqOf frame = (w.bundle n k).expBseq) (hs : sseqOf frame = (w.site n).link.rxSseq) (hheld : (w.site n).link.rxHeld = []) :
    w.dataIn n k frame = ((w.frameHeld n k frame).onLink n payloadTaken).payloadIn n (slice frame 8 1012) := by
  have hahead : (bseqOf frame + 4096 - (w.bundle n k).expBseq) % 4096 = 0 := by
    rw [hb, Nat.add_sub_cancel_left]
  have hturn : ((w.frameHeld n k frame).site n).link.rxSseq = sseqOf frame := by simp [Work.frameHeld, frameNoted, payloadHeld, Work.onBundle, Work.onLink, hs]
  have hslots : ((w.frameHeld n k frame).site n).link.rxHeld = [(sseqOf frame, slice frame 8 1012)] := by simp [Work.frameHeld, frameNoted, payloadHeld, Work.onBundle, Work.onLink, hheld, tset]
  have hheld' : w.dataIn n k frame = (w.frameHeld n k frame).deliver n ((w.frameHeld n k frame).site n).link.rxHeld.length := by
    have hin : ¬ 32768 ≤ (sseqOf frame + 65536 - (((w.onBundle n k frameTaken).onLink n (frameNoted w.now)).site n).link.rxSseq) % 65536 := by
      simp [frameNoted, Work.onBundle, Work.onLink, hs]
    unfold Work.dataIn
    rw [if_pos hahead]
    exact if_neg hin
  rw [hheld', hslots]
  have hfind : tfind [(sseqOf frame, slice frame 8 1012)] (sseqOf frame) = some (slice frame 8 1012) := tfind_tset_self [] _ _
  simp only [List.length_singleton, Work.deliver, hturn, hslots, hfind]
  rfl

/-- A data frame in order whose payload holds no message: its numbers go on, an acknowledgement is owed (R55, R56). -/
theorem does_dataFrame {s : State} (hhears : s.work.hears n k = true) (hgood : frameGood frame = true) (htype : ftypeOf frame = 0) (hack : ackValidOf frame = false)
    (hb : bseqOf frame = (s.work.bundle n k).expBseq) (hs : sseqOf frame = (s.work.site n).link.rxSseq) (hheld : (s.work.site n).link.rxHeld = [])
    (hrest : (s.work.site n).link.rxBytes = []) (hpad : frame.getD 8 1 = 0) (hk : k < (s.work.site n).link.bundles.length) :
    Does (.dataFrame n k frame) s fun t => t.work.bundle n k = frameTaken (s.work.bundle n k)
      ∧ (t.work.site n).link.rxSseq = ((s.work.site n).link.rxSseq + 1) % 65536 ∧ Exactly s t (fun h => { h with sites := t.hub.sites }) := by
  have htakes : (if !s.work.hears n k then s.work else if !frameGood frame then s.work.sendNak n k true
      else if ftypeOf frame = 0 then (s.work.ackIn n frame).dataIn n k frame else s.work) =
      ((s.work.frameHeld n k frame).onLink n payloadTaken).payloadIn n (slice frame 8 1012) := by
    simp only [hhears, hgood, htype, ackIn_none hack, Bool.not_true, Bool.false_eq_true, if_false, if_true]
    exact dataIn_takes hb hs hheld
  obtain ⟨bs, hbs⟩ := slice_head 1011 hpad
  have hbytes : (((s.work.frameHeld n k frame).onLink n payloadTaken).site n).link.rxBytes = [] := by simp [Work.frameHeld, frameNoted, payloadHeld, Work.onBundle, Work.onLink, payloadTaken, hrest]
  have hbundle : ((s.work.frameHeld n k frame).onLink n payloadTaken).bundle n k = frameTaken (s.work.bundle n k) :=
    (bundle_linkKept (f := payloadTaken) _ fun _ => rfl).trans (frameHeld_bundle hk)
  have hnumber : (((s.work.frameHeld n k frame).onLink n payloadTaken).site n).link.rxSseq = ((s.work.site n).link.rxSseq + 1) % 65536 := by
    simp [Work.frameHeld, frameNoted, payloadHeld, Work.onBundle, Work.onLink, payloadTaken]
  rw [hbs] at htakes
  rcases payloadIn_pad (bs := bs) hbytes with hsame | hemptied
  · exact does_work (exec_dataFrame n k frame s) (htakes.trans hsame) ⟨hbundle, hnumber, rfl, rfl, rfl⟩
  · refine does_work (exec_dataFrame n k frame s) (htakes.trans hemptied) ⟨(bundle_linkKept (f := bytesTaken) _ fun _ => rfl).trans hbundle, ?_, rfl, rfl, rfl⟩
    have hsite := site_onSite ((s.work.frameHeld n k frame).onLink n payloadTaken) n fun x => { x with link := bytesTaken x.link }
    exact (congrArg (fun x : Site => x.link.rxSseq) hsite).trans hnumber

end

/-! ## Messages received (R77, R83) -/

/-- The work in which a message of a site has spent its credits. -/
def Work.spent (w : Work) (n : Nat) (c : Credits) : Work := w.onSPort n fun p => { p with toChip := c }

section
variable {w : Work} {n : Nat} {c cost : Credits}

theorem received_spends (hup : streamUp (w.site n) = true) (hinit : (w.site n).port.initGot = true) (hspend : spend (w.site n).port.toChip cost = some c) (k : Work → Work) :
    w.received n cost k = k (w.spent n c) := by
  simp only [Work.received, hup, hinit, hspend, Bool.not_true, Bool.false_eq_true, if_false]
  rfl

variable (w n c) in
theorem spent_site : (w.spent n c).site n = { w.site n with port := { (w.site n).port with toChip := c } } := by simp [Work.spent, Work.onSPort]

variable (w n c) in
/-- Credits given back leave in the site's stream: of its port, the chiplet's credits alone have changed (R84). -/
theorem giveBack_sends : Sends n (w.onSPort n fun p => { p with toChip := addCredits p.toChip c }) (w.giveBack n c) := siteSend_sends _ n _

variable (w n c) in
theorem giveBack_port : ((w.giveBack n c).site n).port = { (w.site n).port with toChip := addCredits (w.site n).port.toChip c } := by
  rw [(giveBack_sends w n c).port]
  simp [Work.onSPort]

variable (w n c) in
theorem giveBack_hub : (w.giveBack n c).hub = { w.hub with sites := (w.giveBack n c).hub.sites, sent := (w.giveBack n c).hub.sent } := (giveBack_sends w n c).hub

end

/-! ## Gates (R106, R126) -/

/-- The gate that a GATE message stages (R106). -/
def gateStaged (n : Nat) (h : GateHdr) (body : List Byte) : Staged :=
  { hdr := h, logits := gateLogits h (slice body 0 (32 * h.beats)), payload := (slice body 0 (32 * h.beats)).drop (32 * logitBeats h), site := some n }

theorem exec_gate (n : Nat) (h : GateHdr) (body : List Byte) (s : State) : exec (.gate n h body) s = s.run fun w => w.gateIn n h body := rfl

/-- A site's gate that passes the checks takes a free record of its engine, its credits given back (R126, R127). -/
theorem gateIn_scores {w : Work} {n i : Nat} {h : GateHdr} {body : List Byte} {c : Credits} {t : BTable} (hup : streamUp (w.site n) = true) (hinit : (w.site n).port.initGot = true)
    (htoken : (w.site n).port.token = true) (hspend : spend (w.site n).port.toChip { tokHdr := 1, tokData := h.beats } = some c) (hlen : gateLenOk h = true)
    (hfault : w.gateFault (gateStaged n h body) = none) (ht : w.table h.table = some t) (hempty : (w.bearing n).staging = []) (hfree : freeRec (w.bearing n) = some i) :
    w.gateIn n h body = ((w.spent n c).giveBack n { tokHdr := 1, tokData := h.beats }).score n i t (gateStaged n h body) := by
  have htoken' : ((w.spent n c).site n).port.token = true := by rw [spent_site]; exact htoken
  have hfault' : (w.spent n c).gateFault (gateStaged n h body) = none := hfault
  have ht' : (w.spent n c).table (gateStaged n h body).hdr.table = some t := ht
  have hempty' : ((w.spent n c).bearing n).staging = [] := hempty
  have hfree' : freeRec ((w.spent n c).bearing n) = some i := hfree
  have harrives := gateArrives_scores hfault' ht' hempty' hfree'
  simp only [Work.gateIn, hlen, Bool.not_true, Bool.false_and, Bool.false_eq_true, if_false, received_spends hup hinit hspend, htoken']
  exact congrArg Prod.snd harrives

theorem does_gate {s : State} {n i : Nat} {h : GateHdr} {body : List Byte} {c : Credits} {t : BTable} (hup : streamUp (s.work.site n) = true)
    (hinit : (s.work.site n).port.initGot = true) (htoken : (s.work.site n).port.token = true)
    (hspend : spend (s.work.site n).port.toChip { tokHdr := 1, tokData := h.beats } = some c) (hlen : gateLenOk h = true) (hfault : s.work.gateFault (gateStaged n h body) = none)
    (ht : s.work.table h.table = some t) (hz : t.hdr.zeroRow = true) (hempty : (s.work.bearing n).staging = []) (hfree : freeRec (s.work.bearing n) = some i) :
    Does (.gate n h body) s fun u => (tfind (u.work.bearing n).recs i).map (fun y => (y.table, y.row, y.phase)) = some (h.table, h.row, .zeroing) := by
  have hscores := gateIn_scores hup hinit htoken hspend hlen hfault ht hempty hfree
  have hback : ((s.work.spent n c).giveBack n { tokHdr := 1, tokData := h.beats }).table (gateStaged n h body).hdr.table = some t := by
    unfold Work.table
    rw [giveBack_hub]
    exact ht
  have hstands : RecStands n i h.table h.row .zeroing (((s.work.spent n c).giveBack n { tokHdr := 1, tokData := h.beats }).score n i t (gateStaged n h body)) := score_zeroing hback hz
  generalize ((s.work.spent n c).giveBack n { tokHdr := 1, tokData := h.beats }).score n i t (gateStaged n h body) = v at *
  exact does_work (exec_gate n h body s) hscores hstands

/-! ## Answers to tokens (R105) -/

/-- A port whose token is answered. -/
def tokenAnswered (h : TokHdr) (p : SPort) : SPort := { p with tokIns := p.tokIns.eraseP (answersTok h) }

/-- The work in which a token's answer has been received, its credits given back. -/
def Work.tokenBack (w : Work) (n : Nat) (c : Credits) (h : TokHdr) : Work := ((w.spent n c).giveBack n { tokHdr := 1, tokData := h.beats }).onSPort n (tokenAnswered h)

theorem exec_tokOut (n : Nat) (h : TokHdr) (payload : List Byte) (s : State) : exec (.tokOut n h payload) s = s.run fun w => w.tokOutIn n h payload := rfl

section
variable {w : Work} {n : Nat} {h : TokHdr} {c : Credits} {x : TokIn}

theorem tokenBack_port : ((w.tokenBack n c h).site n).port.tokIns = (w.site n).port.tokIns.eraseP (answersTok h) := by
  have hport : (((w.spent n c).giveBack n { tokHdr := 1, tokData := h.beats }).site n).port.tokIns = (w.site n).port.tokIns := by
    rw [giveBack_port, spent_site]
  unfold Work.tokenBack Work.onSPort
  rw [site_onSite]
  exact congrArg (List.eraseP (answersTok h)) hport

/-- Receiving an answer leaves every block but the sites. -/
theorem tokenBack_hub : (w.tokenBack n c h).hub = { w.hub with sites := (w.tokenBack n c h).hub.sites, sent := (w.tokenBack n c h).hub.sent } := by
  have hhub := giveBack_hub (w.spent n c) n { tokHdr := 1, tokData := h.beats }
  have hkeeps (v : Work) (u : Hub) (hv : v.hub = { u with sites := v.hub.sites, sent := v.hub.sent }) (f : SPort → SPort) :
      (v.onSPort n f).hub = { u with sites := (v.onSPort n f).hub.sites, sent := (v.onSPort n f).hub.sent } := by
    have e := congrArg (fun y : Hub => { y with sites := (v.onSPort n f).hub.sites }) hv
    exact e
  exact hkeeps _ w.hub hhub _

theorem tokOutIn_answers (hup : streamUp (w.site n) = true) (hinit : (w.site n).port.initGot = true) (htoken : (w.site n).port.token = true)
    (hspend : spend (w.site n).port.toChip { tokHdr := 1, tokData := h.beats } = some c) (hlen : outLenOk h = true) (hfind : (w.site n).port.tokIns.find? (answersTok h) = some x)
    (payload : List Byte) : w.tokOutIn n h payload =
      if h.null then (w.tokenBack n c h).closeRank x.packet 1 else (w.tokenBack n c h).combineOut x.keeper x.packet h.fmt (slice payload 0 (32 * h.beats)) false := by
  have hport : (((w.spent n c).giveBack n { tokHdr := 1, tokData := h.beats }).site n).port.token = true := by
    rw [giveBack_port, spent_site]
    exact htoken
  have hins : (((w.spent n c).giveBack n { tokHdr := 1, tokData := h.beats }).site n).port.tokIns.find? (answersTok h) = some x := by
    rw [giveBack_port, spent_site]
    exact hfind
  simp only [Work.tokOutIn, hlen, Bool.not_true, Bool.false_and, Bool.false_eq_true, if_false, received_spends hup hinit hspend, hport, hins]
  rfl

/-- A packet put on the TOK network of a work whose fabric is another's. -/
theorem toks_sendTok {v : Work} (hv : v.hub.fabric = w.hub.fabric) (p : Packet) : tfind (v.sendTok p).hub.fabric.toks w.hub.fabric.nextId = some p := by
  show tfind (tset v.hub.fabric.toks v.hub.fabric.nextId p) w.hub.fabric.nextId = some p
  rw [hv]
  exact tfind_tset_self _ _ _

theorem tokenBack_fabric : (w.tokenBack n c h).hub.fabric = w.hub.fabric := by rw [tokenBack_hub]
theorem tokenBack_hubId : (w.tokenBack n c h).hubId = w.hubId := by unfold Work.hubId; rw [tokenBack_hub]

end

section
variable {s : State} {n : Nat} {h : TokHdr} {payload : List Byte} {c : Credits} {x : TokIn}

/-- An answer that sends a packet on the TOK network: its token leaves the list of its site. -/
theorem does_tokOut {p : Packet} (hsends : s.work.tokOutIn n h payload = (s.work.tokenBack n c h).sendTok p) : Does (.tokOut n h payload) s fun t =>
    (t.work.site n).port.tokIns = (s.work.site n).port.tokIns.eraseP (answersTok h) ∧ tfind t.hub.fabric.toks s.hub.fabric.nextId = some p := by
  refine does_work (exec_tokOut n h payload s) hsends ⟨?_, toks_sendTok (w := s.work) tokenBack_fabric p⟩
  exact tokenBack_port (w := s.work)

/-- A NULL answer closes its rank at the origin (R105, R138). -/
theorem does_tokNull (hup : streamUp (s.work.site n) = true) (hinit : (s.work.site n).port.initGot = true) (htoken : (s.work.site n).port.token = true)
    (hspend : spend (s.work.site n).port.toChip { tokHdr := 1, tokData := h.beats } = some c) (hlen : outLenOk h = true) (hnull : h.null = true)
    (hfind : (s.work.site n).port.tokIns.find? (answersTok h) = some x) (hhub : handleHub x.packet.token = s.work.hubId) : Does (.tokOut n h payload) s fun t =>
      (t.work.site n).port.tokIns = (s.work.site n).port.tokIns.eraseP (answersTok h)
      ∧ (tfind t.hub.fabric.toks s.hub.fabric.nextId).map (fun p => (p.kind, p.cause, p.token)) = some (.close, 1, x.packet.token) := by
  have hanswers := tokOutIn_answers hup hinit htoken hspend hlen hfind payload
  rw [if_pos hnull] at hanswers
  have hcloses := hanswers.trans (if_pos (hhub.trans (tokenBack_hubId (w := s.work)).symm))
  refine (does_tokOut hcloses).imp fun t ⟨hins, htok⟩ => ⟨hins, ?_⟩
  rw [htok]
  rfl

/-- A dense output becomes a COMBINE for its origin (R105, R140). -/
theorem does_tokCombine {tb : BTable} {d : List Byte} (hup : streamUp (s.work.site n) = true) (hinit : (s.work.site n).port.initGot = true) (htoken : (s.work.site n).port.token = true)
    (hspend : spend (s.work.site n).port.toChip { tokHdr := 1, tokData := h.beats } = some c) (hlen : outLenOk h = true) (hnull : h.null = false) (hfmt : h.fmt = 0 ∨ h.fmt = 5)
    (hfind : (s.work.site n).port.tokIns.find? (answersTok h) = some x) (hhub : handleHub x.packet.token = s.work.hubId) (ht : s.work.table x.packet.table = some tb)
    (hdense : densePayload tb.hdr.ptype h.fmt tb.hdr.outBeats (slice payload 0 (32 * h.beats)) = some d) : Does (.tokOut n h payload) s fun t =>
      (t.work.site n).port.tokIns = (s.work.site n).port.tokIns.eraseP (answersTok h)
      ∧ (tfind t.hub.fabric.toks s.hub.fabric.nextId).map (fun p => (p.kind, p.payload, p.token)) = some (.combine, d, x.packet.token) := by
  have hanswers := tokOutIn_answers hup hinit htoken hspend hlen hfind payload
  have ht' : (s.work.tokenBack n c h).table x.packet.table = some tb := by
    unfold Work.table
    rw [tokenBack_hub]
    exact ht
  have hformat : (h.fmt = 0 || h.fmt = 5) = true := by simpa using hfmt
  have hcombines : s.work.tokOutIn n h payload = (s.work.tokenBack n c h).sendTok { { x.packet with kind := .combine, fmt := 0, beats := tb.hdr.outBeats, payload := d, poison := false } with
      dst := x.keeper, hub := (s.work.tokenBack n c h).hubId } := by
    rw [hanswers, if_neg (by simp [hnull]), Work.combineOut, ht']
    simp only [hformat, if_true, hdense]
    exact if_pos (hhub.trans (tokenBack_hubId (w := s.work)).symm)
  refine (does_tokOut hcombines).imp fun t ⟨hins, htok⟩ => ⟨hins, ?_⟩
  rw [htok]
  rfl

/-! ## Credits withheld (R107) -/

/-- A port whose chiplet withholds the credits of tokens. -/
def tokensWithheld (p : SPort) : SPort := { p with tokWithheld := true, tokQueue := [] }

theorem exec_tokCreditWithholdTimeout (n : Nat) (s : State) : exec (.tokCreditWithholdTimeout n) s = s.run fun w =>
    if streamUp (w.site n) && (w.site n).port.tokIns ≠ [] && ((w.site n).port.fromChip.tokHdr < (w.site n).port.granted.tokHdr || (w.site n).port.fromChip.tokData < (w.site n).port.granted.tokData) then
      each (w.site n).port.tokQueue (fun t w => w.overflowTok t.keeper t.packet) (w.onSPort n tokensWithheld)
    else w := rfl

/-- Credits withheld, with no token held at the keepers, block the site (R107). -/
theorem does_tokWithheld (hup : streamUp (s.work.site n) = true) (hins : (s.work.site n).port.tokIns ≠ []) (hqueue : (s.work.site n).port.tokQueue = [])
    (hshort : (s.work.site n).port.fromChip.tokHdr < (s.work.site n).port.granted.tokHdr) : Does (.tokCreditWithholdTimeout n) s fun t =>
      (t.work.site n).port.tokWithheld = true ∧ Exactly s t (fun h => { h with sites := t.hub.sites }) := by
  refine does_work (exec_tokCreditWithholdTimeout n s) (w := s.work.onSPort n tokensWithheld) ?_ ⟨?_, rfl, rfl, rfl⟩
  · simp [hup, hins, hshort, hqueue]
  · exact congrArg (fun x : Site => x.port.tokWithheld) (site_onSite s.work n _)

end

/-- Settles O6: a data frame in order is taken; a gate takes a record; an answer closes its rank or becomes a COMBINE; withheld credits block the site. -/
theorem siteStreams : Obligations.SiteStreams := by
  unfold Obligations.SiteStreams
  refine ⟨?frame, ?gate, ?null, ?combine, fun s n => does_tokWithheld⟩
  case frame =>
    intro s n k frame hhears hgood htype hack hb hs hheld hrest hpad hk
    exact does_dataFrame hhears hgood htype hack hb hs hheld hrest hpad hk
  case gate =>
    intro s n hdr body c tb i hup hinit htoken hspend hlen hfault ht hz hempty hfree
    exact does_gate hup hinit htoken hspend hlen hfault ht hz hempty hfree
  case null =>
    intro s n hdr payload c x hup hinit htoken hspend hlen hnull hfind hhub
    exact does_tokNull hup hinit htoken hspend hlen hnull hfind hhub
  case combine =>
    intro s n hdr payload c x tb d hup hinit htoken hspend hlen hnull hfmt hfind hhub ht hdense
    exact does_tokCombine hup hinit htoken hspend hlen hnull hfmt hfind hhub ht hdense

end Sys2Proof.Machine
end

section
/-! PROOFS. The host pages of a copy: translations granted and refused, page requests, invalidations (R356, R357, R365, R387). -/

namespace Sys2Proof.Machine

/-! ## Porters -/

section
variable {w w' : Work} {p j : Nat}

theorem porter_onPorter (w : Work) (p j : Nat) (f : Porter → Porter) : (w.onPorter p j f).porter p j = f (w.porter p j) := by
  unfold Work.onPorter Work.porter
  rw [port_onPort]
  exact tget_tmod_self _ _ _ _

theorem PortsKept.porter (h : PortsKept w w') (p j : Nat) : w'.porter p j = w.porter p j := by
  unfold Work.porter
  rw [h.porters]

theorem tlp_portsKept (w : Work) (p c n : Nat) : PortsKept w (w.tlp p c n) := .elsewhere rfl

/-- A Translation Request leaves the Porters (R356). -/
theorem atsAsk_portsKept (w : Work) (p j page : Nat) : PortsKept w (w.atsAsk p j page) :=
  ((PortsKept.elsewhere (w' := w.emit (.ats p j page)) rfl).counted _ _ _ _).trans (tlp_portsKept _ _ _ _)

/-- The translations that a Porter keeps stand from one work to the next. -/
def AtcKept (p j : Nat) (w w' : Work) : Prop := (w'.porter p j).atc = (w.porter p j).atc

theorem PortsKept.atc (h : PortsKept w w') : AtcKept p j w w' := congrArg Porter.atc (h.porter p j)
theorem AtcKept.trans {a b c : Work} (h : AtcKept p j a b) (k : AtcKept p j b c) : AtcKept p j a c := Eq.trans k h
theorem AtcKept.onPorter (w : Work) (f : Porter → Porter) (hf : (f (w.porter p j)).atc = (w.porter p j).atc) : AtcKept p j w (w.onPorter p j f) := by
  unfold AtcKept
  rw [porter_onPorter, hf]

/-- A copy's requests leave the Porters (R284, R358). -/
theorem copyIssue_portsKept (w : Work) (p j : Nat) (c : CopyJob) : PortsKept w (w.copyIssue p j c) := portsKept_ite (homeAccess_apart w _ _ _ _ _ _ _ _ _).ports (homeAccess_apart w _ _ _ _ _ _ _ _ _).ports

/-- The running copy of a Porter goes on: what the Porter keeps of translations stands. -/
theorem porterGo_atc (w : Work) (p j : Nat) : AtcKept p j w (w.porterGo p j) := by
  have hsame : AtcKept p j w w := rfl
  have hcopy (v : Work) (q : List CopyJob) : AtcKept p j v (v.onPorter p j fun y => { y with queue := q }) := .onPorter v _ rfl
  unfold Work.porterGo
  dsimp only
  split
  · exact hsame
  · split
    · exact hsame
    · split
      · exact (count_portsKept w _ _ _ _).atc
      · split
        · exact hsame
        · generalize List.filter _ (w.porter p j).atc = found
          split
          · exact ((hcopy w _).trans (.onPorter _ _ rfl)).trans (atsAsk_portsKept _ _ _ _).atc
          · split
            · exact hcopy w _
            · exact (((hcopy w _).trans (hcopy _ _)).trans (copyIssue_portsKept _ _ _ _).atc).trans (hcopy _ _)

theorem porterGo_none (h : (w.porter p j).queue = []) : w.porterGo p j = w := by simp only [Work.porterGo, h]

end

/-! ## Translations granted and asked for -/

/-- A translation of a copy's page, as its host grants it (R356). -/
def grantedPage (w : Work) (p j : Nat) (c : CopyJob) (hpa k : Nat) : Atc :=
  { func := (w.funcOf c.entry.berth).func, pasid := w.pasidOf c.entry.berth, addr := (w.porter p j).page / 2 ^ k * 2 ^ k, log2 := k, hpa := hpa / 2 ^ k * 2 ^ k }

/-- A Porter whose copy has its next translation. -/
def pageGranted (t : Atc) (c : CopyJob) (q : List CopyJob) (y : Porter) : Porter := { y with atc := (t :: y.atc).take 256, wait := .none, queue := { c with pages := t :: c.pages } :: q }

/-- A Porter that waits for another answer of its host. -/
def porterWaits (x : PorterWait) (y : Porter) : Porter := { y with wait := x }

/-- The answer to a Translation Request, its completion counted (R356, R357). -/
def Work.translated (w : Work) (p j : Nat) (granted : Bool) (hpa log2 : Nat) : Work :=
  match (w.porter p j).wait, (w.porter p j).queue with
  | .translation, c :: rest =>
    if granted then (w.onPorter p j (pageGranted (grantedPage w p j c hpa (max 12 log2)) c rest)).porterGo p j
    else if (w.func (w.funcOf c.entry.berth)).pri then
      (((w.onPorter p j (porterWaits .prg)).emit (.pageReq p j (w.porter p j).page)).count 12 (porterUnit p j) 13).tlp p 3
    else w.pageFaulted p j c (w.porter p j).page
  | _, _ => w

theorem exec_translationCompletion (p j : Nat) (granted : Bool) (hpa log2 : Nat) (s : State) :
    exec (.translationCompletion p j granted hpa log2) s = s.run fun w => (w.tlp p 6).translated p j granted hpa log2 := rfl

/-- The answer to a page request, its message counted (R357). -/
def Work.prgAnswered (w : Work) (p j code : Nat) : Work :=
  match (w.porter p j).wait, (w.porter p j).queue with
  | .prg, c :: _ =>
    if code = 0 then (w.onPorter p j (porterWaits .translation)).atsAsk p j (w.porter p j).page
    else w.pageFaulted p j c (w.porter p j).page
  | _, _ => w

theorem exec_prgResponse (p j code : Nat) (s : State) : exec (.prgResponse p j code) s = s.run fun w => (w.tlp p 7).prgAnswered p j code := rfl

theorem exec_priTimeout (p j : Nat) (s : State) : exec (.priTimeout p j) s = s.run fun w =>
    match (w.porter p j).wait, (w.porter p j).queue with
    | .prg, c :: _ => if (w.port p).state = 4 then w else w.pageFaulted p j c (w.porter p j).page
    | _, _ => w := rfl

section
variable {s : State} {p j : Nat} {c : CopyJob} {q : List CopyJob}

/-- A translation granted enters the Porter's cache (R356). -/
theorem does_granted {a n : Nat} (hwait : (s.work.porter p j).wait = .translation) (hq : (s.work.porter p j).queue = c :: q) (hn : 12 ≤ n) :
    Does (.translationCompletion p j true a n) s fun t => grantedPage s.work p j c a n ∈ (t.work.porter p j).atc := by
  have hwait' : ((s.work.tlp p 6).porter p j).wait = .translation := hwait
  have hq' : ((s.work.tlp p 6).porter p j).queue = c :: q := hq
  have hgoes : (s.work.tlp p 6).translated p j true a n = ((s.work.tlp p 6).onPorter p j (pageGranted (grantedPage s.work p j c a n) c q)).porterGo p j := by
    simp only [Work.translated, hwait', hq', if_true, Nat.max_eq_right hn]
    rfl
  have hatc := porterGo_atc ((s.work.tlp p 6).onPorter p j (pageGranted (grantedPage s.work p j c a n) c q)) p j
  unfold AtcKept at hatc
  rw [porter_onPorter] at hatc
  have hin : grantedPage s.work p j c a n ∈ (((s.work.tlp p 6).onPorter p j (pageGranted (grantedPage s.work p j c a n) c q)).porterGo p j |>.porter p j).atc := by
    rw [hatc]
    exact List.mem_cons_self
  generalize ((s.work.tlp p 6).onPorter p j (pageGranted (grantedPage s.work p j c a n) c q)).porterGo p j = v at *
  exact does_work (exec_translationCompletion p j true a n s) hgoes hin

/-- A Porter asks its host and waits for the answer: the request has left, memory is as before. -/
theorem does_porterAsks {i : Instr} {F : Work → Work} {m k n : Nat} {x : PorterWait} {o : Out} (hexec : exec i s = s.run F)
    (hF : F s.work = ((((s.work.tlp p m).onPorter p j (porterWaits x)).emit o).count 12 k n).tlp p 3) :
    Does i s fun t => t.work.porter p j = { s.work.porter p j with wait := x } ∧ o ∈ t.hub.sent ∧ t.mem = s.mem := by
  have hporter := (count_portsKept (((s.work.tlp p m).onPorter p j (porterWaits x)).emit o) 12 k n 1).porter p j
  have hstands : ((((s.work.tlp p m).onPorter p j (porterWaits x)).emit o)).porter p j = porterWaits x (s.work.porter p j) := porter_onPorter (s.work.tlp p m) p j _
  have hmem : SameMem s.work (((((s.work.tlp p m).onPorter p j (porterWaits x)).emit o).count 12 k n).tlp p 3) :=
    count_mem (((s.work.tlp p m).onPorter p j (porterWaits x)).emit o) 12 k n 1
  refine does_work hexec hF ⟨hporter.trans hstands, ?_, commit_mem_of_sameMem hmem⟩
  exact sent_count _ 12 k n 1 List.mem_cons_self

theorem does_pageRequested {a n : Nat} (hwait : (s.work.porter p j).wait = .translation) (hq : (s.work.porter p j).queue = c :: q)
    (hpri : (s.work.func (s.work.funcOf c.entry.berth)).pri = true) : Does (.translationCompletion p j false a n) s fun t =>
      t.work.porter p j = { s.work.porter p j with wait := .prg } ∧ .pageReq p j (s.work.porter p j).page ∈ t.hub.sent ∧ t.mem = s.mem := by
  refine does_porterAsks (exec_translationCompletion p j false a n s) (m := 6) (k := porterUnit p j) (n := 13) ?_
  have hwait' : ((s.work.tlp p 6).porter p j).wait = .translation := hwait
  have hq' : ((s.work.tlp p 6).porter p j).queue = c :: q := hq
  have hpri' : ((s.work.tlp p 6).func ((s.work.tlp p 6).funcOf c.entry.berth)).pri = true := hpri
  simp only [Work.translated, hwait', hq', hpri', Bool.false_eq_true, if_false, if_true]
  rfl

theorem does_askedAgain (hwait : (s.work.porter p j).wait = .prg) (hq : (s.work.porter p j).queue = c :: q) : Does (.prgResponse p j 0) s fun t =>
    t.work.porter p j = { s.work.porter p j with wait := .translation } ∧ .ats p j (s.work.porter p j).page ∈ t.hub.sent ∧ t.mem = s.mem := by
  refine does_porterAsks (exec_prgResponse p j 0 s) (m := 7) (k := porterUnit p j) (n := 12) ?_
  have hwait' : ((s.work.tlp p 7).porter p j).wait = .prg := hwait
  have hq' : ((s.work.tlp p 7).porter p j).queue = c :: q := hq
  simp only [Work.prgAnswered, hwait', hq', if_true]
  rfl

end

/-! ## A page that cannot be reached -/

/-- The completion of a started entry that asks for neither mark nor interrupt, with a detail and a result (R406). -/
theorem complete_record {v : Work} {s : State} {e : EntryRef} {y : RingEntry} (hten : v.hub.ten = s.hub.ten) (hs : s.work.started e = some y)
    (hpx : (s.work.ring e.berth e.ring).px2 = false) (hmark : bit y.word 15 = false) (hirq : bit y.word 13 = false) (st d r : Nat) :
    v.complete e st d r = ((v.hostWrite (s.work.funcOf e.berth) ((s.work.ring e.berth e.ring).cplBase + 16 * e.index)
        (leBytes 16 (pack [(16, e.index), (1, bits y.word 12 12), (7, 0), (8, st), (16, d), (16, 0), (64, r)]))).count 15 (s.work.funcOf e.berth).port
        (statusIndex st)).onRing e.berth e.ring (retireEntry e.index) := by
  have hring : v.ring e.berth e.ring = s.work.ring e.berth e.ring := by unfold Work.ring; rw [hten]; rfl
  have hfunc : v.funcOf e.berth = s.work.funcOf e.berth := by unfold Work.funcOf Work.bindOf Work.mgr Work.berth; rw [hten]; rfl
  have hstarted : v.started e = some y := (started_of_ten (w' := v) (w := s.work) hten e).trans hs
  simp [Work.complete, hstarted, Work.finish, hring, hfunc, hpx, entryPhase, hmark, hirq]

/-- From s to a work an entry has left its ring, its completion record written if its function may issue requests. -/
def State.Gone (s : State) (e : EntryRef) (y : RingEntry) (st d r : Nat) (w : Work) : Prop := s.Completes (s.commit w) e y st d r

section
variable {s : State} {v : Work} {p j : Nat} {c : CopyJob} {x : RingEntry}

theorem gone_complete (hv : Carries s.work v) {e : EntryRef} {y : RingEntry} (hs : s.work.started e = some y) (hpx : (s.work.ring e.berth e.ring).px2 = false)
    (hmark : bit y.word 15 = false) (hirq : bit y.word 13 = false) (st d r : Nat) : s.Gone e y st d r (v.complete e st d r) := by
  unfold State.Gone
  rw [complete_record hv.ten hs hpx hmark hirq]
  exact ⟨started_onRing_retireEntry _ e, fun hp hm => sent_count _ _ _ _ _ (mem_sent_hostWrite v _ _ _ ((hv.up _).trans hp) ((hv.issues _).trans hm))⟩

/-- A completion leaves the ports but for what reports change. -/
theorem complete_portsKept (hv : Carries s.work v) {e : EntryRef} {y : RingEntry} (hs : s.work.started e = some y) (hpx : (s.work.ring e.berth e.ring).px2 = false)
    (hmark : bit y.word 15 = false) (hirq : bit y.word 13 = false) (st d r : Nat) : PortsKept v (v.complete e st d r) := by
  rw [complete_record hv.ten hs hpx hmark hirq]
  exact ((hostWrite_portsKept v _ _ _).trans (count_portsKept _ _ _ _ _)).trans (.elsewhere rfl)

theorem complete_ledger (hv : Carries s.work v) {e : EntryRef} {y : RingEntry} (hs : s.work.started e = some y) (hpx : (s.work.ring e.berth e.ring).px2 = false)
    (hmark : bit y.word 15 = false) (hirq : bit y.word 13 = false) (st d r : Nat) : (v.complete e st d r).hub.ledger = v.hub.ledger := by
  rw [complete_record hv.ten hs hpx hmark hirq]
  have e := congrArg Hub.ledger ((hostWrite_reports v (s.work.funcOf e.berth) ((s.work.ring e.berth e.ring).cplBase + 16 * e.index)
    (leBytes 16 (pack [(16, e.index), (1, bits y.word 12 12), (7, 0), (8, st), (16, d), (16, 0), (64, r)]))).trans (count_reports _ 15 (s.work.funcOf e.berth).port (statusIndex st) 1))
  exact e

/-- With no line held the release of an access changes the fabric alone. -/
theorem homeRelease_none {w : Work} {tag : Nat} (h : w.hub.ledger.txns = []) : ∃ g, w.homeRelease (.porter p j) tag = w.onFabric g := by
  refine ⟨_, if_pos ?_⟩
  show ((w.hub.ledger.txns.filter _).map _ : List Nat) = []
  rw [h]
  rfl

/-- A copy leaves its Porter where no other waits and no line is held: besides the Porter only the fabric has changed. -/
theorem porterNext_last (hq : (v.porter p j).queue = [c]) (ht : v.hub.ledger.txns = []) :
    ((v.porterNext p j c).porter p j).queue = [] ∧ (v.porterNext p j c).hub.ten = v.hub.ten ∧ (v.porterNext p j c).hub.sent = v.hub.sent := by
  have hempty : ((v.onPorter p j fun y => { y with queue := y.queue.filter (fun x => x.id ≠ c.id), wait := .none }).porter p j).queue = [] := by
    rw [porter_onPorter]
    simp [hq]
  unfold Work.porterNext
  dsimp only
  generalize hu : (v.onPorter p j fun y => { y with queue := y.queue.filter (fun x => x.id ≠ c.id), wait := .none }) = u at hempty
  have htxns : u.hub.ledger.txns = [] := by rw [← hu]; exact ht
  have hten : u.hub.ten = v.hub.ten := by rw [← hu]; rfl
  have hsent : u.hub.sent = v.hub.sent := by rw [← hu]; rfl
  obtain ⟨g, hg⟩ := homeRelease_none (p := p) (j := j) (tag := c.id) htxns
  have hidle : ((((u.homeRelease (.porter p j) c.id).dropFwd (.porter p j) c.id).dropFetch (.porter p j) c.id).porter p j).queue = [] := by
    rw [hg]
    exact hempty
  rw [porterGo_none hidle, hg]
  exact ⟨hempty, hten, hsent⟩

/-- A copy whose host page cannot be reached ends with status 0x1C and the page (R357). -/
theorem does_pageFaulted {i : Instr} {F : Work → Work} {page : Nat} (hexec : exec i s = s.run F) (hF : F s.work = v.pageFaulted p j c page) (hv : Carries s.work v)
    (hports : PortsKept s.work v) (hledger : v.hub.ledger = s.hub.ledger) (hq : (s.work.porter p j).queue = [c]) (hpx2 : c.px2 = false) (hs : s.work.started c.entry = some x)
    (hpx : (s.work.ring c.entry.berth c.entry.ring).px2 = false) (hmark : bit x.word 15 = false) (hirq : bit x.word 13 = false) (htxns : s.hub.ledger.txns = []) :
    Does i s fun t => (t.work.porter p j).queue = [] ∧ s.Completes t c.entry x 0x1C 0 page := by
  have hcounted : Carries s.work ((v.count 12 (porterUnit p j) 14).count 16 (p * 8 + j) 0 0) := (hv.trans (count_carries _ _ _ _ _)).trans (count_carries _ _ _ _ _)
  have hkept : PortsKept s.work ((v.count 12 (porterUnit p j) 14).count 16 (p * 8 + j) 0 0) := (hports.counted _ _ _ _).counted _ _ _ _
  have hstands : ((v.count 12 (porterUnit p j) 14).count 16 (p * 8 + j) 0 0).hub.ledger = s.hub.ledger := by rw [count_ledger, count_ledger, hledger]
  have hends : v.pageFaulted p j c page = (((v.count 12 (porterUnit p j) 14).count 16 (p * 8 + j) 0 0).complete c.entry 0x1C 0 page).porterNext p j c := by
    simp only [Work.pageFaulted, Work.copyEnds, hpx2, Bool.false_eq_true, if_false]
  rw [hends] at hF
  generalize (v.count 12 (porterUnit p j) 14).count 16 (p * 8 + j) 0 0 = u at *
  have hgone := gone_complete hcounted hs hpx hmark hirq 0x1C 0 page
  have hporter := (hkept.trans (complete_portsKept hcounted hs hpx hmark hirq 0x1C 0 page)).porter p j
  have hlines := (complete_ledger hcounted hs hpx hmark hirq 0x1C 0 page).trans hstands
  generalize u.complete c.entry 0x1C 0 page = z at *
  obtain ⟨hempty, hten, hsent⟩ := porterNext_last (p := p) (j := j) (c := c) ((congrArg Porter.queue hporter).trans hq) ((congrArg Ledger.txns hlines).trans htxns)
  generalize z.porterNext p j c = r at *
  refine does_work hexec hF ⟨hempty, (started_of_ten hten c.entry).trans hgone.1, fun hp hm => ?_⟩
  have hrecord := hgone.2 hp hm
  exact hsent ▸ hrecord

end

/-! ## The ways in which a page cannot be reached -/

theorem tlp_carried (s : State) (p c : Nat) : Carries s.work (s.work.tlp p c) := tlp_carries _ _ _ _

section
variable {s : State} {p j : Nat} {c : CopyJob} {x : RingEntry} (hq : (s.work.porter p j).queue = [c]) (hpx2 : c.px2 = false) (hs : s.work.started c.entry = some x)
  (hpx : (s.work.ring c.entry.berth c.entry.ring).px2 = false) (hmark : bit x.word 15 = false) (hirq : bit x.word 13 = false) (htxns : s.hub.ledger.txns = [])
include hq hpx2 hs hpx hmark hirq htxns

/-- A translation refused to a function without page requests ends the copy (R357). -/
theorem does_refused {a n : Nat} (hwait : (s.work.porter p j).wait = .translation) (hpri : (s.work.func (s.work.funcOf c.entry.berth)).pri = false) :
    Does (.translationCompletion p j false a n) s fun t => (t.work.porter p j).queue = [] ∧ s.Completes t c.entry x 0x1C 0 (s.work.porter p j).page := by
  refine does_pageFaulted (exec_translationCompletion p j false a n s) (v := s.work.tlp p 6) ?_ (tlp_carried s p 6) (tlp_portsKept _ _ _ _) rfl hq hpx2 hs hpx hmark hirq htxns
  have hwait' : ((s.work.tlp p 6).porter p j).wait = .translation := hwait
  have hq' : ((s.work.tlp p 6).porter p j).queue = [c] := hq
  have hpri' : ((s.work.tlp p 6).func ((s.work.tlp p 6).funcOf c.entry.berth)).pri = false := hpri
  simp only [Work.translated, hwait', hq', hpri', Bool.false_eq_true, if_false]
  rfl

/-- A response other than success ends the copy (R357). -/
theorem does_prgFailed {code : Nat} (hwait : (s.work.porter p j).wait = .prg) (hcode : code ≠ 0) :
    Does (.prgResponse p j code) s fun t => (t.work.porter p j).queue = [] ∧ s.Completes t c.entry x 0x1C 0 (s.work.porter p j).page := by
  refine does_pageFaulted (exec_prgResponse p j code s) (v := s.work.tlp p 7) ?_ (tlp_carried s p 7) (tlp_portsKept _ _ _ _) rfl hq hpx2 hs hpx hmark hirq htxns
  have hwait' : ((s.work.tlp p 7).porter p j).wait = .prg := hwait
  have hq' : ((s.work.tlp p 7).porter p j).queue = [c] := hq
  simp only [Work.prgAnswered, hwait', hq', hcode, if_false]
  rfl

/-- No response in time ends the copy (R357). -/
theorem does_priTimedOut (hwait : (s.work.porter p j).wait = .prg) (hstate : (s.work.port p).state ≠ 4) :
    Does (.priTimeout p j) s fun t => (t.work.porter p j).queue = [] ∧ s.Completes t c.entry x 0x1C 0 (s.work.porter p j).page := by
  refine does_pageFaulted (exec_priTimeout p j s) (v := s.work) ?_ (.refl _) (.refl _) rfl hq hpx2 hs hpx hmark hirq htxns
  simp only [hwait, hq, hstate, if_false]

end

/-! ## Invalidations by the host (R365, R366) -/

/-- A translation of a function lies in a range that its host invalidates. -/
def atcHit (f : FuncRef) (a n : Nat) (t : Atc) : Bool := t.func = f.func && rangesMeet t.addr (2 ^ t.log2) a n

/-- A Porter whose translations in a range are dropped; a copy that has issued keeps its own. -/
def atcDropped (f : FuncRef) (a n : Nat) (y : Porter) : Porter :=
  { y with atc := y.atc.filter fun t => !atcHit f a n t,
           queue := y.queue.map fun c => if c.issued then c else { c with pages := c.pages.filter fun t => !atcHit f a n t } }

/-- The copies that run under translations in a range. -/
def Work.atcUsers (w : Work) (f : FuncRef) (a n : Nat) : List (Agent × Nat) :=
  (w.port f.port).porters.filterMap fun (j, y) => match y.queue with
    | c :: _ => if c.issued && c.pages.any (atcHit f a n) then some (Agent.porter f.port j, c.id) else none
    | [] => none

/-- Every cache of a port's Porters loses a function's translations in a range. -/
def Work.atcsDropped (w : Work) (f : FuncRef) (a n : Nat) : Work := w.onPort f.port fun x => { x with porters := x.porters.map fun (j, y) => (j, atcDropped f a n y) }

theorem exec_atsInvalidateRequest (f : FuncRef) (a n : Nat) (s : State) : exec (.atsInvalidateRequest f a n) s = s.run fun w =>
    if (w.tlp f.port 7).atcUsers f a n = [] then ((w.tlp f.port 7).atcsDropped f a n).emit (.atsInvalDone f)
    else ((w.tlp f.port 7).atcsDropped f a n).onChart fun c =>
      { c with invals := tset c.invals c.nextInval { why := .ats f, awaited := (w.tlp f.port 7).atcUsers f a n }, nextInval := c.nextInval + 1 } := rfl

/-- A value of a table all of whose values change by a function that leaves the default. -/
theorem tget_map_fixed {α : Type} (d : α) (f : α → α) (hd : f d = d) (t : Tab α) (i : Nat) : tget d (t.map fun (k, x) => (k, f x)) i = f (tget d t i) := by
  induction t with
  | nil => exact hd.symm
  | cons x t ih =>
    obtain ⟨k, x⟩ := x
    simp only [List.map_cons, tget]
    split
    · rfl
    · split
      · exact ih
      · exact hd.symm

/-- Exactly the function's translations in the range are dropped. -/
theorem atcsDropped_atc (w : Work) (f : FuncRef) (a n j : Nat) (z : Atc) :
    z ∈ ((w.atcsDropped f a n).porter f.port j).atc ↔ z ∈ (w.porter f.port j).atc ∧ ¬(z.func = f.func ∧ rangesMeet z.addr (2 ^ z.log2) a n = true) := by
  have hatc : ((w.atcsDropped f a n).porter f.port j).atc = (w.porter f.port j).atc.filter fun t => !atcHit f a n t := by
    unfold Work.atcsDropped Work.porter
    rw [port_onPort]
    exact congrArg Porter.atc (tget_map_fixed ({} : Porter) (atcDropped f a n) rfl (w.port f.port).porters j)
  rw [hatc, List.mem_filter]
  refine and_congr_right fun _ => ?_
  rw [atcHit, Bool.not_eq_true', ← Bool.not_eq_true, Bool.and_eq_true, decide_eq_true_eq]

section
variable {s : State} {f : FuncRef} {a n : Nat}

/-- An invalidation under which no copy runs is answered at once (R365). -/
theorem does_atsAnswered (hidle : ∀ y ∈ (s.work.port f.port).porters, y.2.queue = []) : Does (.atsInvalidateRequest f a n) s fun t =>
    t.hub.sent = .atsInvalDone f :: s.hub.sent ∧ t.mem = s.mem
    ∧ ∀ j z, z ∈ (t.work.porter f.port j).atc ↔ z ∈ (s.work.porter f.port j).atc ∧ ¬(z.func = f.func ∧ rangesMeet z.addr (2 ^ z.log2) a n = true) := by
  have hnone : (s.work.tlp f.port 7).atcUsers f a n = [] := by
    unfold Work.atcUsers
    rw [List.filterMap_eq_nil_iff]
    intro y hy
    have hempty := hidle y hy
    simp only [hempty]
  refine does_work (exec_atsInvalidateRequest f a n s) (if_pos hnone) ⟨rfl, rfl, fun j z => ?_⟩
  exact atcsDropped_atc (s.work.tlp f.port 7) f a n j z

/-- An invalidation under which a copy runs awaits it (R366). -/
theorem does_atsAwaits {c : CopyJob} {y : Porter} (hone : (s.work.port f.port).porters = [(0, y)]) (hq : y.queue = [c]) (hissued : c.issued = true)
    (huses : c.pages.any (fun z => z.func = f.func && rangesMeet z.addr (2 ^ z.log2) a n) = true) : Does (.atsInvalidateRequest f a n) s fun t =>
      tfind t.hub.chart.invals s.hub.chart.nextInval = some { why := .ats f, awaited := [(.porter f.port 0, c.id)] } ∧ t.hub.sent = s.hub.sent := by
  have husers : (s.work.tlp f.port 7).atcUsers f a n = [(.porter f.port 0, c.id)] := by
    have hone' : ((s.work.tlp f.port 7).port f.port).porters = [(0, y)] := hone
    have huses' : c.pages.any (atcHit f a n) = true := huses
    unfold Work.atcUsers
    rw [hone']
    simp only [List.filterMap_cons, List.filterMap_nil, hq, hissued, huses', Bool.and_self, if_true]
  refine does_work (exec_atsInvalidateRequest f a n s) (if_neg (by rw [husers]; exact List.cons_ne_nil _ _)) ⟨?_, rfl⟩
  rw [husers]
  exact tfind_tset_self _ _ _

end

/-- Settles O41: each answer of a host moves the copy that waits for it; an invalidation drops the translations in its range. -/
theorem hostPages : Obligations.HostPages := by
  unfold Obligations.HostPages
  refine ⟨?granted, fun s p j c q a n => does_pageRequested, ?refused, fun s p j c q => does_askedAgain, ?failed, ?late, fun s f a n => does_atsAnswered, fun s f a n c y => does_atsAwaits⟩
  case granted =>
    intro s p j c q a n f hwait hq hf hn
    subst hf
    exact does_granted hwait hq hn
  case refused =>
    intro s p j c x a n ⟨hq, hpx2, hs, hpx, hmark, hirq, _, _, _, htxns⟩ hwait hpri
    exact does_refused hq hpx2 hs hpx hmark hirq htxns hwait hpri
  case failed =>
    intro s p j c x code ⟨hq, hpx2, hs, hpx, hmark, hirq, _, _, _, htxns⟩ hwait hcode
    exact does_prgFailed hq hpx2 hs hpx hmark hirq htxns hwait hcode
  case late =>
    intro s p j c x ⟨hq, hpx2, hs, hpx, hmark, hirq, _, _, _, htxns⟩ hwait hstate
    exact does_priTimedOut hq hpx2 hs hpx hmark hirq htxns hwait hstate

end Sys2Proof.Machine
end
